-- ==== Sys2Proof/Word.lean ====
section
/-! DEFINITION. The word types of the Asaskac's interfaces: bytes, byte strings and byte memories (R5). -/

namespace Sys2Proof

/-- One byte. -/
abbrev Byte := BitVec 8

/-- A byte string; offset 0 is the first byte (R5). -/
abbrev Bytes := List Byte

/-- A sparse table with natural keys in rising order. An absent key reads as the table's default. -/
abbrev Tab (α : Type) := List (Nat × α)

/-- A byte memory: cells in strictly rising address order, none of them zero (an unlisted byte reads 0). -/
abbrev Memory := List Host.Cell

end Sys2Proof
end

