-- ==== Sys2Proof/Syntax.lean ====
section
/-! DEFINITION. The commands of the block, one constructor per row of spec/opcode_table.json, and the types of
their operands. The table gives no operand and no bits: the operands are chosen from the rules, and what the
environment alone decides (a measurement, bytes read from host memory, which unit passed a test) is an operand. -/

namespace Sys2Proof

/-- The two input feeds (R41). -/
inductive Feed where
  | a | b
  deriving DecidableEq, Repr

/-- The two I/O banks (R38). -/
inductive IoBank where
  | gen | mp
  deriving DecidableEq, Repr

/-- The supply of an I/O bank, at a level (R38). -/
structure IoSupply where
  bank : IoBank
  /-- Its level in mV. -/
  mv : Nat
  deriving DecidableEq, Repr

/-- The reset pins (R60). -/
inductive ResetPin where
  | npor | nreset
  deriving DecidableEq, Repr

/-- The host-facing paths (R83). -/
inductive Path where
  | pcie | usb | spi
  deriving DecidableEq, Repr

/-- Why a path is lost (R91; the codes of LINK_LOSS in R414). -/
inductive LinkCause where
  | loss | detach | conventional
  deriving DecidableEq, Repr

/-- Why a pair is withdrawn by failover (R199; the codes of FAILOVER in R414). -/
inductive FailCause where
  | mismatch | laneError | laser
  deriving DecidableEq, Repr

/-- The measures of R204. -/
inductive LagMeasure where
  | skew | lag | age
  deriving DecidableEq, Repr

/-- The readings of a measurement of the hold-up capacitor (R57). -/
structure CapReading where
  /-- The time in ns from 4.0 V to 10.0 V (charge method), or from 10.9 V to 10.1 V (discharge method). -/
  dt : Nat
  /-- The voltage step at the onset of the charge, or of the sink, in mV. -/
  step : Nat
  /-- Droop in mV with the pump off for 1 ms. -/
  droop : Nat
  /-- VHOLD reached 11.0 V within 12 ms of the pump starting. -/
  reached : Bool
  deriving DecidableEq, Repr

/-- How a read of host memory fails (R107). -/
inductive ReadError where
  | timeout | unsupportedRequest | completerAbort | poisoned
  deriving DecidableEq, Repr

/-- A read of host memory by the queue DMA, as it ends (R100, R107). -/
inductive ReadResult where
  /-- The bytes read. -/
  | data (bytes : Bytes)
  /-- The read failed. -/
  | aerError (kind : ReadError)
  deriving DecidableEq, Repr

/-- Sensors, by the codes of R414. -/
inductive Sensor where
  | domainVoltage | inputVoltage | clock | light | temperature | laser | cardigan | loopA | loopB | vbat
  | comparison | noiseBank | recordSplit | safeHigh | dramLine | gateFault
  deriving DecidableEq, Repr

/-- What kind of reading it is (R372, R376). -/
inductive Reading where
  /-- A fault reading (or, for units that report errors, the error). -/
  | fault
  /-- An attack reading. -/
  | attack
  deriving DecidableEq, Repr

/-- The units of the correlation rule (R377). -/
inductive CUnit where
  | lane (n : Nat) | slot (n : Nat) | bank (n : Nat) | pke (n : Nat) | dgu (n : Nat)
  | clockDomain (n : Nat) | powerDomain (n : Nat)
  deriving DecidableEq, Repr

/-- An input to the tamper response logic (R376). -/
structure TamperIn where
  sensor : Sensor
  reading : Reading
  unit : CUnit
  /-- For gate faults and colour faults: the reporting master is a queue DMA shard, a lane or the debug master. -/
  quiet : Bool
  deriving DecidableEq, Repr

/-- Who reads a DRAM line that is uncorrectable (R326). -/
inductive LineReader where
  | staging (seq : Nat) | queueContext (qix : Nat) | savedState (seq : Nat) | sessionRecord (sidx : Nat)
  | detail (seq : Nat) | drawWork (drawId : BitVec 32) | firmware
  deriving DecidableEq, Repr

/-- The two parties at DGU1 (R407). -/
inductive DgParty where
  | host | cabinet
  deriving DecidableEq, Repr

/-- Operations of DBG_CORE (R367). -/
inductive CoreOp where
  | halt | step | resume | readReg (n : Nat) | writeReg (n : Nat) (v : BitVec 64)
  deriving DecidableEq, Repr

/-- Errors of received TLPs (R107). -/
inductive TlpError where
  | poisonedWrite | unexpectedCompletion | ecrc | malformed
  deriving DecidableEq, Repr

/-- The USB IN endpoints (R108). -/
inductive UsbIn where
  | complete | mbxResp | notify
  deriving DecidableEq, Repr

/-- USB Power Delivery messages (R89). -/
inductive PdMsg where
  | discoverIdentity | enterUsb4 | altMode | prSwap | drSwap | sourceCaps
  deriving DecidableEq, Repr

/-- The low-power states of the USB4 link: CL2 is not supported (R87). -/
inductive ClState where
  | cl0 | cl0s | cl1
  deriving DecidableEq, Repr

/-- What the connection manager sets up in the router (R87, R88). -/
structure PathSetup where
  /-- A PCIe tunnel path to adapter 3. -/
  pcie : Bool
  /-- A USB3 tunnel path to adapter 4. -/
  usb3 : Bool
  /-- The mode of the Time Management Unit. -/
  tmu : Nat
  /-- The link's low-power state. -/
  cl : ClState
  deriving DecidableEq, Repr

/-- What a host register access addresses: a BAR of a function, or its configuration space (R92, R94). -/
inductive Space where
  | bar0 | bar2 | bar4 | config
  deriving DecidableEq, Repr

/-- What a host register access carries: the value written, or nothing for a read (R6). -/
abbrev RegValue := Option (BitVec 64)

/-- A mailbox request as its path delivered it (R122, R123). The opcode is the command's own. -/
structure Req where
  path : Path
  /-- Function, 0 to 15. -/
  fn : Nat
  /-- Mailbox number. -/
  mbx : Nat
  tag : BitVec 32
  /-- The header's LEN field. -/
  len : Nat
  /-- The reserved header fields at offsets 8, 10 and 12. -/
  rsv8 : BitVec 16
  rsv10 : BitVec 16
  rsv12 : BitVec 32
  /-- The body delivered. -/
  body : Bytes
  /-- The bytes that a DMA read of the command returns, or the end of its DMA write (R130, R329). -/
  dma : ReadResult
  deriving DecidableEq, Repr

/-- A request with nothing in it. -/
def Req.blank : Req := ⟨.pcie, 0, 0, 0, 16, 0, 0, 0, [], .data []⟩

/-- What a start finds of a noise bank (R69, R214, R215). -/
structure BankFact where
  /-- The start-up tests that failed, at most two: the streams that failed, and whether in the adaptive proportion test. -/
  fails : List (BitVec 32 × Bool)
  /-- B of the first calibration, in 0.001 bit. -/
  bound : Nat
  deriving DecidableEq, Repr

/-- What the word of an interrupted write reads as (R255). -/
inductive WordRead where
  | old | new | uncorrectable
  deriving DecidableEq, Repr

/-- An MRAM item that a start finds damaged. -/
inductive Damage where
  /-- A copy of a key record fails (R300). -/
  | keyCopy (index : Nat) (copyB : Bool)
  /-- A copy of a generation record fails (R300). -/
  | genCopy (index : Nat) (copyB : Bool)
  /-- A word of session creation counts reads uncorrectable (R292). -/
  | countWord (word : Nat)
  /-- A counter copy reads another value, or is unreadable (R281, R283). -/
  | counterCopy (ctr copy : Nat) (value : Option Nat)
  /-- A cell of a counter copy reads its old value, its new one, or uncorrectable (R255, R281). -/
  | counterCell (ctr copy cell : Nat) (value : Option Nat)
  /-- A meter page fails its seal, with its uncorrectable MRAM words (R393). -/
  | meterPage (page : Nat) (words : List Nat)
  /-- The flush of the cycle before was cut while it wrote the ring: after so many of its pages, and, when a page was being written, at a word of
  it, with what that word reads as (R255, R267, R280). -/
  | flushCut (pages : Nat) (word : Option (BitVec 5)) (reads : WordRead)
  /-- The tail header does not seal (R279). -/
  | tailHeader
  /-- An event-area slot fails its CHK (R411). -/
  | eventSlot (slot : Nat)
  /-- A copy of the boot selector fails (R74). -/
  | bootSel (copyB : Bool)
  /-- A copy of the journal control record fails (R280). -/
  | jctl (copyB : Bool)
  /-- A copy of a draw's seed record fails (R231, R234). -/
  | seedCopy (drawId : BitVec 32) (copyB : Bool)
  deriving DecidableEq, Repr

/-- What a start finds by its tests and readings (R65, R69, R381). -/
structure StartFacts where
  cap : CapReading
  /-- Lanes that pass step 10. -/
  lanes : BitVec 8
  /-- Digest units that pass step 10. -/
  dgus : BitVec 2
  /-- PKE cores that pass step 10. -/
  pkes : BitVec 2
  /-- The DRBG passes step 10. -/
  drbg : Bool
  bank0 : BankFact
  bank1 : BankFact
  bank2 : BankFact
  /-- Units of R33, other than the DRAM path, that fail, by unit code (R414) and index. -/
  failed : List (Nat × Nat)
  /-- DRAM training and the memory engines pass. -/
  dram : Bool
  /-- Attack readings present when the sensors are read (R381). -/
  attacks : List (Sensor × Nat)
  /-- Junction temperature, degC + 64. -/
  temp : Nat
  damage : List Damage
  deriving DecidableEq, Repr

/-- The commands (spec/opcode_table.json). -/
inductive Instr where
  /-- POWER_GOOD (R42). A feed has been at or above 2.65 V for 1 ms, which starts the rail sequence and a full start. -/
  | powerGood (feed : Feed)
  /-- START (R65). The start sequence runs from internal rails good through firmware entry, journal recovery, unseal and the START entry, after power good, a reset release or the end of a reset flush. -/
  | start (facts : StartFacts)
  /-- SCRAP_START (R444). A start in SCRAP runs only the wipe of MRAM, OTP and DRAM and then serves the three permitted commands. -/
  | scrapStart (cap : CapReading)
  /-- MAILBOX_READY (R66). The start reaches mailbox ready: held requests are answered and fetching of submission entries begins. -/
  | mailboxReady
  /-- SERVICE_COMPLETE (R68). The rest of DRAM is initialised, so staging, export, draws, instant batches and OUTCOME become available and committed draws resume. -/
  | serviceComplete
  /-- FEED_LOSS (R42). A feed is below 2.55 V for 2 µs while the other feed is in range; the loss is recorded and nALERT is asserted. -/
  | feedLoss (feed : Feed)
  /-- FEED_RETURN (R42). A lost feed returns, and its return is recorded. -/
  | feedReturn (feed : Feed)
  /-- HOLD_UP_BRIDGE (R51). The internal input bus falls below 2.60 V and the hold-up converter supplies it from VHOLD through the 2 µs filter. -/
  | holdUpBridge
  /-- POWER_FAILURE (R52). Both feeds are below 2.55 V for 2 µs: fetch and release stop, MP_VALID falls, loads are shed and the Apron flush begins. -/
  | powerFailure
  /-- FLUSH_COMPLETE (R54). A flush ends: the device powers down, or the start begins if a reset pin has been released and power is good. -/
  | flushComplete
  /-- RESET (R60). nPOR or nRESET is held low for 1 µs or more: fetch and release stop, MP_VALID falls, the link drops and the reset flush runs from input power. -/
  | reset (pin : ResetPin) (lowNs : Nat)
  /-- RESET_RELEASE (R62). A reset pin is released, and the start begins within 10 µs of the release or of the end of the reset flush. -/
  | resetRelease (pin : ResetPin)
  /-- IO_BANK_LOSS (R38). VDDIO_GEN or VDDIO_MP leaves both bands, which disables that bank. -/
  | ioBankLoss (bank : IoBank)
  /-- IO_BANK_RETURN (R38). A disabled I/O bank's supply returns to a valid band. -/
  | ioBankReturn (bank : IoSupply)
  /-- VBAT_LOSS (R47). VBAT and both feeds are absent together, so PD00 loses its state and a VBAT-loss event follows at the next start. -/
  | vbatLoss
  /-- CAPACITOR_MEASUREMENT (R59). Every 3,600 operating seconds the discharge measurement is repeated in service. -/
  | capacitorMeasurement (cap : CapReading)
  /-- VHOLD_LOW_TIMEOUT (R59). VHOLD has stayed below 10.0 V for more than 10 ms, which enters DEGRADED. -/
  | vholdLowTimeout
  /-- STANDBY_EXIT (R50). A doorbell write or mailbox request ends standby, and full service resumes within 1 ms. -/
  | standbyExit
  /-- PKE_IDLE_OFF (R48). A PKE core with no work for 10 ms has its domain switched off. -/
  | pkeIdleOff (core : Nat)
  /-- USB_ATTACH (R89). VBUS_DET above 4.0 V together with a source termination on one CC line attaches the Type-C port. -/
  | usbAttach
  /-- USB_DETACH (R89). VBUS or the source termination has been absent for 1 ms, which is a detach handled as link loss. -/
  | usbDetach
  /-- HOST_PATH_CLAIM (R84). Memory Space Enable on PF0 or SET_CONFIGURATION, whichever comes first, makes its path the host path. -/
  | hostPathClaim (path : Path)
  /-- USB_BUS_RESET (R84). A USB bus reset ends the USB vendor interface's hold on the host path. -/
  | usbBusReset
  /-- LINK_LANE (R90). A USB4 lane drops or retrains at a lower rate; this is recorded as a fault and service continues at the new rate. -/
  | linkLane (gen : BitVec 2) (width : BitVec 2)
  /-- LINK_LOSS (R91). Link loss, detach or a conventional reset disables every function of the path as a function-level reset would. -/
  | linkLoss (cause : LinkCause)
  /-- VF_ENABLE (R93). Setting VF Enable brings the VFs up so that they answer configuration requests within 1 ms. -/
  | vfEnable (numVFs : Nat)
  /-- VF_FLR (R105). A function-level reset of a VF disables that VF with its work in flight. -/
  | vfFlr (fn : Nat)
  /-- PF0_FLR (R105). A function-level reset of PF0 disables PF0 and every VF and clears VF Enable. -/
  | pf0Flr
  /-- BUS_MASTER_DISABLE (R105). Clearing Bus Master Enable stops fetching and disables the function as a function-level reset would. -/
  | busMasterDisable (fn : Nat)
  /-- D3HOT (R105). Moving a function to D3hot acts as a function-level reset of that function. -/
  | d3hot (fn : Nat)
  /-- COMPLETION_TIMEOUT (R100). A queue DMA read has no completion within CTO_MS, which is handled as an AER error. -/
  | completionTimeout (qix : Nat) (entry : Bool)
  /-- DOORBELL (R138). An aligned 32-bit write to BAR2 applies SQT and CQH, or is discarded with a DOORBELL_DROPPED event. -/
  | doorbell (fn : Nat) (qix : Nat) (value : BitVec 32) (whole : Bool)
  /-- LINK_CTRL (R100). A write to LINK_CTRL sets CTO_MS for read requests issued after it, or is ignored if the value is out of range. -/
  | linkCtrl (value : BitVec 32)
  /-- COAL (R104). A write to a COAL register sets COUNT and TIME, which take effect at the vector's next message. -/
  | coal (fn : Nat) (vec : Nat) (value : BitVec 32)
  /-- COALESCE_TIMEOUT (R104). TIME µs have passed since the first held completion, so a coalesced MSI-X message is issued. -/
  | coalesceTimeout (fn : Nat) (vec : Nat)
  /-- VECTOR_UNMASK (R104). Unmasking a vector sends the message whose pending bit is set. -/
  | vectorUnmask (fn : Nat) (vec : Nat)
  /-- REGISTER_WRITE (R6). A write to a register that has no row of its own, including W1C flags, mailbox buffers and selects, follows the register's access code. -/
  | registerWrite (fn : Nat) (space : Space) (off : Nat) (size : Nat) (value : RegValue)
  /-- FETCH (R144). A shard fetches a submission entry from a ready queue that has credit and completion room, and judges stage 1 lengths and keys. -/
  | fetch (shard : Nat) (result : ReadResult)
  /-- SOURCE_ARRIVED (R145). The source data of an entry lands in the ingress buffer and is judged at stages 2 and 3 and by the header checks. -/
  | sourceArrived (qix : Nat) (result : ReadResult)
  /-- DISPATCH (R153). The scheduler gives an eligible unit to the pair slot with most credit and fixes its SEQ, nonce and issue epoch. -/
  | dispatch
  /-- NOP (R136). A NOP entry completes OK with SEQ 0 after the completions of every earlier entry of the queue. -/
  | nop (qix : Nat)
  /-- ACCEPT (R160). A terminal record is opened, checked against the rule set, re-sealed as a receipt and leafed in both lanes of a pair. -/
  | accept (seq : Nat)
  /-- SEAL (R167). The plaintext is encrypted with AES-256-GCM under the KIX key, with a seal header, and written at DST. -/
  | sealMsg (seq : Nat)
  /-- OPEN (R168). A sealed message is decrypted and verified, either on the main path or through a hold buffer. -/
  | openMsg (seq : Nat)
  /-- XTS_ENC (R172). One data unit is encrypted with XTS-AES-256. -/
  | xtsEnc (seq : Nat)
  /-- XTS_DEC (R172). One data unit is decrypted with XTS-AES-256. -/
  | xtsDec (seq : Nat)
  /-- OUTCOME (R246). Consecutive indexes of an instant batch are assigned and an authenticated outcome receipt is written. -/
  | outcome (seq : Nat)
  /-- VERIFY_RECEIPT (R173). A receipt is checked under the queue's journal key and a 64-byte result is written. -/
  | verifyReceipt (seq : Nat)
  /-- UNIT_RELEASE (R190). The output stage compares both lanes' results and claim number, applies the replay check and releases output, completion and leaf. -/
  | unitRelease (seq : Nat)
  /-- QUEUE_STOP (R139). A queue entering DISABLING after a fetch fault or counter exhaustion writes a queue-stop completion once a slot is free. -/
  | queueStop (qix : Nat)
  /-- NONCE_EXHAUSTED (R133). A queue index's 54-bit counter reaches 2^54 − 1, so the queue stops and drains. -/
  | nonceExhausted (qix : Nat)
  /-- QUEUE_DRAINED (R147). A disabling queue's last completion has been written, so it enters DISABLED and QUEUE_DISABLE responds. -/
  | queueDrained (qix : Nat)
  /-- FAILOVER (R200). A comparison difference, lane error or laser detector withdraws a pair, advances the claim and takes its units back. -/
  | failover (slot : Nat) (cause : FailCause)
  /-- LANE_START_TEST_DONE (R207). Incoming lanes pass or fail their start test, and the slot re-enters service under the new pair. -/
  | laneStartTestDone (slot : Nat) (pass0 : Bool) (pass1 : Bool)
  /-- LANE_FULL_TEST_DONE (R207). A withdrawn lane's full test ends, and the lane goes OFF or FAILED and a slot may be rebuilt. -/
  | laneFullTestDone (lane : Nat) (pass : Bool)
  /-- LAGGARD (R204). A slot exceeds the skew, lag or age threshold, so it is marked LAGGARD and starts draining. -/
  | laggard (slot : Nat) (measure : LagMeasure) (later : Nat)
  /-- LAGGARD_DRAIN_END (R205). After 64 µs, or once drained, the LAGGARD slot's claim advances, remaining units are taken back and its lanes are tested. -/
  | laggardDrainEnd (slot : Nat)
  /-- LANE_TEST_PERIODIC (R208). Each lane test period, the next slot in rotation is tested, replaced or deferred. -/
  | laneTestPeriodic
  /-- MASK_RESEED (R186). Every 2^24 cycles a lane's mask generator asks the conditioner for a fresh 256-bit seed. -/
  | maskReseed (lane : Nat)
  /-- LEAF_IN_ORDER (R263). A leaf reaches the in-order point and is folded into the open batch, which closes at its 4,096th leaf. -/
  | leafInOrder
  /-- BATCH_TIMEOUT (R259). The open batch closes 1 ms after its first leaf. -/
  | batchTimeout
  /-- PAGE_TIMEOUT (R263). A journal page is written 2 ms after it received its first byte. -/
  | pageTimeout
  /-- PAGE_SEALED (R264). A ring page write completes with its seal, which makes its entries DURABLE and releases completions held for them. -/
  | pageSealed
  /-- JOURNAL_CHECKPOINT (R280). Once per operating second the journal control record is rewritten with a new checkpoint. -/
  | journalCheckpoint
  /-- SEQ_MARK_RAISE (R262). The next SEQ comes within 2^22 of the record sequence mark, so the mark is raised by 2^24 and written through. -/
  | seqMarkRaise
  /-- SEQ_RESERVE_POINT (R446). The next SEQ reaches 2^48 − 2^20, after which queue entries get no SEQ and only reserve entries are numbered. -/
  | seqReservePoint
  /-- OPSEC_CHECKPOINT (R282). Every 3,600 operating seconds the operating-seconds counter is written to MRAM. -/
  | opsecCheckpoint
  /-- METER_WRITE_BEHIND (R20). A dirty meter page is written to MRAM once its 100 ms hold-off has run. -/
  | meterWriteBehind (page : Nat)
  /-- COUNTER_BACK_WRITE (R282). A dirty VOTE counter is written to its MRAM copies no sooner than 100 ms after its previous write. -/
  | counterBackWrite (ctr : Nat)
  /-- RESERVATION_MARK_RAISE (R244). Before an index at or above the mark is assigned, the instant batch's reservation mark is raised and written durably. -/
  | reservationMarkRaise (drawId : BitVec 32)
  /-- NB_STARTUP_TEST_DONE (R214). A noise bank's start-up health test ends, and the bank calibrates, repeats the test or fails. -/
  | nbStartupTestDone (bank : Nat) (pass : Bool) (streams : BitVec 32) (prop : Bool)
  /-- NB_HEALTH_FAIL (R212). A raw stream fails the repetition-count or adaptive-proportion test, which suspends the bank. -/
  | nbHealthFail (bank : Nat) (stream : Nat) (prop : Bool)
  /-- NB_CALIBRATION_DONE (R215). A calibration reports B, and the bank enters SERVING or SUSPENDED. -/
  | nbCalibrationDone (bank : Nat) (bound : Nat)
  /-- CAL_PERIODIC (R215). The calibration period of a bank runs out, so it calibrates or the calibration is deferred. -/
  | calPeriodic (bank : Nat)
  /-- CAL_TEMPERATURE (R215). The junction temperature has moved more than 20 °C since the bank's last calibration, which triggers a calibration. -/
  | calTemperature (bank : Nat) (temp : Nat)
  /-- NB_RESTART (R216). A SUSPENDED bank returns to STARTING after 60 operating seconds. -/
  | nbRestart (bank : Nat)
  /-- DRAW_DEFINE_TIMEOUT (R226). A draw in DEFINING with no chunk for 60 operating seconds is removed. -/
  | drawDefineTimeout (drawId : BitVec 32)
  /-- DRAW_CLOSE_DRAINED (R229). Earlier-epoch units of a closing draw have drained, so the CLOSE or CANCEL entry is written and the draw leaves CLOSING. -/
  | drawCloseDrained (drawId : BitVec 32)
  /-- DRAW_CERT_SIGNED (R231). The certificate's hybrid signature completes, the CERT entry is written and the draw becomes CERTIFIED. -/
  | drawCertSigned (drawId : BitVec 32)
  /-- RULESET_DRAIN_END (R183). Every ACCEPT issued before a rule-set load's epoch has passed its rule step, which ends the load's wait. -/
  | rulesetDrainEnd
  /-- GATE_SYNC_RETIRED (R345). Every access issued before the requested epoch has retired, so GATE_SYNC responds OK. -/
  | gateSyncRetired
  /-- KEY_IMPORT_TIMEOUT (R302). A chunked package with no chunk for 60 operating seconds is discarded. -/
  | keyImportTimeout (fn : Nat) (mbx : Nat)
  /-- CHALLENGE_EXPIRY (R360). The outstanding challenge ends after 86,400 operating seconds. -/
  | challengeExpiry
  /-- DBG_RIGHTS_EXPIRY (R369). At the operating second after OPSEC_LAST the debug rights end, G_DBG is invalidated and DBG_END is recorded. -/
  | dbgRightsExpiry
  /-- LC_RESET (R352). 1 ms after a transition's last burn, the device resets as by nRESET and starts in the new state. -/
  | lcReset
  /-- TAMPER_INPUT (R376). A sensor reading or reported error is classed as T1, T2, a policy class or CORRELATED, and its response is applied. -/
  | tamperInput (input : TamperIn) (newWindow : Bool)
  /-- T4_RESET (R382). When the T4 flush and burns end, the device resets as by nRESET and starts in TAMPERED. -/
  | t4Reset
  /-- UNPOWERED_TAMPER_LATCH (R384). While unpowered, PD00 latches the first attack reading of the Cardigan or a loop for classing at the next start. -/
  | unpoweredTamperLatch (sensor : Sensor)
  /-- LOOP_RESISTANCE_MEASURE (R431). Once per second each tamper loop's resistance is measured with a 20 µA pulse. -/
  | loopResistanceMeasure (ohmsA : Nat) (ohmsB : Nat)
  /-- UNIT_FAILED (R33). A non-redundant unit suffers an uncorrectable fault: fetching stops, in-flight work finishes where possible and nALERT is asserted. -/
  | unitFailed (unit : Nat) (index : Nat)
  /-- DRAM_UNCORRECTABLE (R326). A DRAM line reads uncorrectable, returns no data and has the effect given for its reader and region. -/
  | dramUncorrectable (line : Nat) (reader : LineReader)
  /-- SCRUB_PERIOD (R328). The patrol scrub reads and corrects every DRAM line once per period and reports stray colours. -/
  | scrubPeriod (corrected : Nat)
  /-- MRAM_REFRESH (R440). Every 8,760 operating hours retained MRAM pages and idle counters are rewritten with their own content. -/
  | mramRefresh
  /-- EVENT_BUFFER_WRITE (R410). Pending event records are written to the event area when 16 are pending or 1 s has passed. -/
  | eventBufferWrite
  /-- EVT_SUPPRESSED (R413). At the first whole operating minute after suppression began, a summary with the code and count is recorded. -/
  | evtSuppressed (code : Nat)
  /-- METER_PORT_READ (R390). An asynchronous read cycle on the meter port returns a meter word, window word or register, judged by G_MPT. -/
  | meterPortRead (addr : BitVec 20) (strobesOk : Bool)
  /-- METER_PORT_WRITE (R391). A write cycle takes effect at the nMP_WE rising edge in the SRAM mirror or a register, judged by G_MPT. -/
  | meterPortWrite (addr : BitVec 20) (data : BitVec 16) (be : BitVec 2) (weLowNs : Nat) (weRiseNs : Nat)
  /-- METER_INCREMENT (R398). A write to an increment address adds its amount to a hardware counter, with saturation and the dirty limit. -/
  | meterIncrement (ctr : Nat) (amount : BitVec 16) (be : BitVec 2)
  /-- COUNTER_WINDOW_READ (R397). A read of word 0 of a counter window latches the counter's whole value and status for words 1–3. -/
  | counterWindowRead (ctr : Nat)
  /-- GROUP_OPEN (R394). MP_GROUP OPEN starts shadowing cabinet writes to one page and discards any group already open. -/
  | groupOpen (page : BitVec 10)
  /-- GROUP_COMMIT (R394). MP_GROUP COMMIT copies the group's masked bytes into the mirror in one row write. -/
  | groupCommit
  /-- GROUP_ABORT (R394). MP_GROUP ABORT discards the group's shadow. -/
  | groupAbort
  /-- TV_VERDICT (R400). A read of TV_VERDICT compares the candidate words with the reference and zeroises the candidate. -/
  | tvVerdict (spaced : Bool)
  /-- DG_START (R404). DG_CTRL START begins a new digest with the selected algorithm. -/
  | dgStart (party : DgParty) (alg : BitVec 2)
  /-- DG_FINISH (R404). DG_CTRL FINISH sets DONE once every buffered whole block is compressed. -/
  | dgFinish (party : DgParty) (alg : BitVec 2)
  /-- DG_DATA (R405). A DG_DATA write appends bytes to the message, or silently restarts the digest if DONE is set. -/
  | dgData (party : DgParty) (data : Bytes) (busy : Bool)
  /-- DG_OWN (R407). A DG_OWN write claims DGU1 for the host or the cabinet controller, or releases it and zeroises the unit. -/
  | dgOwn (party : DgParty) (value : BitVec 2)
  /-- DG_OWNER_TIMEOUT (R407). Ownership of DGU1 ends 100 ms after the owner's last write. -/
  | dgOwnerTimeout
  /-- DG_LOW_WORD_READ (R404). A port read of a digest register's low word latches its high word. -/
  | dgLowWordRead (off : Nat)
  /-- PMON_FREEZE (R421). PMON_CTRL FREEZE makes all counters hold from the same CLK_CORE edge, or resume. -/
  | pmonFreeze (value : Bool)
  /-- PMON_CLEAR (R421). PMON_CTRL CLEAR zeroes all counters and PMON_OVF. -/
  | pmonClear
  /-- PMON_CNT_READ (R421). A 32-bit read of a counter's low half latches its high half. -/
  | pmonCntRead (n : Nat)
  /-- RD_STATUS (R115). The SPI RD_STATUS command returns the 16-byte status and clears CRC_ERR. -/
  | rdStatus
  /-- WR_MBX (R116). The SPI WR_MBX command delivers a mailbox request to mailbox 63, or is discarded on a CRC failure. -/
  | wrMbx (arg : BitVec 32) (data : Bytes) (crc : BitVec 32) (timingOk : Bool)
  /-- RD_MBX (R114). The SPI RD_MBX command returns the length and the mailbox 63 response. -/
  | rdMbx
  /-- SPI_SUBMIT (R116). The SPI SUBMIT command delivers a submission entry and its source for an SPI queue. -/
  | spiSubmit (arg : BitVec 32) (data : Bytes) (crc : BitVec 32) (timingOk : Bool)
  /-- RD_COMPL (R117). The SPI RD_COMPL command returns the oldest waiting completion, after first removing the previous one if ACK is set. -/
  | rdCompl (ack : Bool)
  /-- SPI_UNKNOWN_COMMAND (R114). An undefined SPI command, or an argument with reserved bits set, is ignored and sets CRC_ERR. -/
  | spiUnknownCommand (cmd : BitVec 8) (arg : BitVec 32)
  /-- USB_SUBMIT (R111). A SUBMIT frame on bulk OUT delivers an entry with inline source, judged for runt, short and long transfers. -/
  | usbSubmit (frame : Bytes)
  /-- MAILBOX_UNKNOWN_OPCODE (R445). A mailbox request whose opcode is not in the command set returns UNSUPPORTED. -/
  | mailboxUnknownOpcode (r : Req) (opcode : BitVec 16)
  /-- DEV_IDENTITY (R126). Returns the unit ID, ordering code, revisions, firmware version, state and function quota. -/
  | devIdentity (r : Req)
  /-- DEV_STATUS (R127). Returns device status together with lane, unit, slot and journal state. -/
  | devStatus (r : Req)
  /-- DEV_STANDBY (R128). Enters standby once committed draws have certificates and in-flight work has completed. -/
  | devStandby (r : Req)
  /-- DEV_CHALLENGE (R360). Draws a fresh challenge, which replaces any outstanding one. -/
  | devChallenge (r : Req)
  /-- DEV_PUBKEYS (R316). Returns a device, OPERATOR or DRAW public key, optionally endorsed by the identity key. -/
  | devPubkeys (r : Req)
  /-- FN_CONFIG (R131). Sets a function's weight, quota, ingress, staging and group weights. -/
  | fnConfig (r : Req)
  /-- QUEUE_CREATE (R132). Creates a queue at an index, binds its keys and rule set, and opens its session. -/
  | queueCreate (r : Req)
  /-- QUEUE_DISABLE (R147). Moves a queue to DISABLING, stops fetch and drains its work. -/
  | queueDisable (r : Req)
  /-- QUEUE_DELETE (R134). Returns a DISABLED queue to FREE. -/
  | queueDelete (r : Req)
  /-- QUEUE_QUERY (R134). Returns a queue's state, heads, outstanding count and nonce counter. -/
  | queueQuery (r : Req)
  /-- FN_DISABLE (R148). Disables a VF with its work in flight. -/
  | fnDisable (r : Req)
  /-- FN_ENABLE (R148). Enables a function that FN_DISABLE disabled, with no queues. -/
  | fnEnable (r : Req)
  /-- KEY_DERIVE (R301). Derives a session or persistent key under an OPERATOR parent. -/
  | keyDerive (r : Req)
  /-- KEY_IMPORT (R304). Accepts an import package in chunks and unwraps and records the key from the final chunk. -/
  | keyImport (r : Req)
  /-- KEY_INVALIDATE (R311). Raises a key's generation, advances the epoch, clears hot slots and fences lanes. -/
  | keyInvalidate (r : Req)
  /-- KEY_QUERY (R315). Returns the state and attributes of a key. -/
  | keyQuery (r : Req)
  /-- DRAW_SCHEDULE (R227). Delivers a draw parameter block in chunks, and the final chunk opens or readies the draw. -/
  | drawSchedule (r : Req)
  /-- DRAW_CLOSE (R228). Advances the epoch, drains earlier work and records the close or cancel of a draw. -/
  | drawClose (r : Req)
  /-- DRAW_RUN (R231). Forms and commits the seed, computes the result twice and records RESULT. -/
  | drawRun (r : Req) (fails : Nat)
  /-- DRAW_CERT (R242). Returns part of a draw certificate or its result array. -/
  | drawCert (r : Req)
  /-- INSTANT_BATCH (R243). Commits an instant batch's seed and computes its outcomes internally, after which the batch enters ISSUING. -/
  | instantBatch (r : Req) (fails : Nat)
  /-- NB_STATUS (R222). Returns the state of each noise bank and the conditioner. -/
  | nbStatus (r : Req)
  /-- JOURNAL_STATUS (R275). Returns journal fill and the SEQ marks. -/
  | journalStatus (r : Req)
  /-- JOURNAL_QUERY (R276). Finds a record's detail by queue index and HTAG or by SEQ. -/
  | journalQuery (r : Req)
  /-- JOURNAL_EXPORT (R273). Builds and signs an export segment, or reads bytes of the held segment. -/
  | journalExport (r : Req)
  /-- JOURNAL_RECLAIM (R274). Frees the ring pages covered by an exported segment. -/
  | journalReclaim (r : Req)
  /-- JOURNAL_SYNC (R277). Closes the batch and waits until every SEQ assigned before the request is DURABLE. -/
  | journalSync (r : Req)
  /-- JOURNAL_CLAIM_TIME (R277). Writes a CLAIM entry carrying a host-claimed value. -/
  | journalClaimTime (r : Req)
  /-- RULESET_LOAD (R183). Checks, stores and journals a rule set, then advances the epoch. -/
  | rulesetLoad (r : Req)
  /-- RULESET_QUERY (R184). Returns a rule set's header, use count and digest. -/
  | rulesetQuery (r : Req)
  /-- RULESET_DELETE (R184). Removes an unused rule set and journals the removal. -/
  | rulesetDelete (r : Req)
  /-- LC_STATUS (R365). Returns the life-cycle state, group counts, role keys and debug rights. -/
  | lcStatus (r : Req)
  /-- LC_TRANSITION (R363). Judges a signed transition package, journals it and burns the OTP groups. -/
  | lcTransition (r : Req)
  /-- LC_FLAG_BURN (R363). Judges a signed flag or role-key package and burns it. -/
  | lcFlagBurn (r : Req)
  /-- DBG_CERT_LOAD (R369). Accepts, replaces or revokes a debug certificate and rewrites G_DBG. -/
  | dbgCertLoad (r : Req)
  /-- FW_STATUS (R129). Returns the boot selector, the anti-rollback counter and the state of each firmware slot. -/
  | fwStatus (r : Req)
  /-- FW_WRITE (R130). Writes a chunk of an image into the inactive slot. -/
  | fwWrite (r : Req)
  /-- FW_VERIFY (R77). Runs the image checks on the inactive slot. -/
  | fwVerify (r : Req)
  /-- FW_ACTIVATE (R130). Sets PENDING to the verified inactive slot for the next start. -/
  | fwActivate (r : Req)
  /-- FW_COMMIT (R78). Raises the anti-rollback counter and makes the trial image ACTIVE. -/
  | fwCommit (r : Req)
  /-- EVT_READ (R415). Returns event records from an EVN. -/
  | evtRead (r : Req)
  /-- EVT_CLEAR (R416). Moves the clear mark under an OPERATOR signature. -/
  | evtClear (r : Req)
  /-- DIAG_SELFTEST (R418). Runs a requested test of a pair slot, lane, noise bank, PKE core or the hold-up capacitor. -/
  | diagSelftest (r : Req) (cap : CapReading)
  /-- DIAG_SCHEDULE (R419). Sets the test, calibration and scrub periods and the event rate. -/
  | diagSchedule (r : Req)
  /-- DIAG_HEALTH (R420). Returns alert causes, temperatures, supplies and error counts. -/
  | diagHealth (r : Req)
  /-- PMON_CONFIG (R421). Reads, selects, freezes, unfreezes or clears the performance counters. -/
  | pmonConfig (r : Req)
  /-- GATE_WRITE (R341). Writes host entries of the queue DMA gates and advances the epoch. -/
  | gateWrite (r : Req)
  /-- GATE_READ (R342). Returns gate entries, the reporting mode and the epoch. -/
  | gateRead (r : Req)
  /-- GATE_LOCK (R343). Locks host gate entries, and optionally the reporting mode, until the next start. -/
  | gateLock (r : Req)
  /-- GATE_SYNC (R345). Waits until accesses issued under earlier epochs have retired. -/
  | gateSync (r : Req)
  /-- GATE_FAULTS (R340). Reads or clears a gate's fault records, or sets its reporting mode. -/
  | gateFaults (r : Req)
  /-- CTR_READ (R285). Returns hardware counter values and their status. -/
  | ctrRead (r : Req)
  /-- METER_READ (R401). Returns meter store words, one row access per page. -/
  | meterRead (r : Req)
  /-- METER_WRITE (R402). Writes meter store words from the host, one row write per page. -/
  | meterWrite (r : Req)
  /-- METER_PROTECT (R396). Sets the cabinet protection level, hidden pages and lock, and rewrites G_MPT. -/
  | meterProtect (r : Req)
  /-- TAP_RESET (R36). nTRST low holds the TAP in Test-Logic-Reset. -/
  | tapReset
  /-- EXTEST (R367). The EXTEST instruction under DBG_BSCAN starts the reset sequence and holds reset while it is selected. -/
  | extest
  /-- IDCODE (R370). The IDCODE instruction returns the die revision, part and manufacturer code. -/
  | idcode
  /-- SAMPLE_PRELOAD (R370). The SAMPLE/PRELOAD instruction samples or preloads the boundary scan cells. -/
  | samplePreload (cells : BitVec 128)
  /-- DBG_STATUS (R370). The DBG_STATUS instruction returns debug status and clears its sticky bits on Update-DR. -/
  | dbgStatus (update : BitVec 32)
  /-- DBG_LOAD (R369). The DBG_LOAD instruction judges a debug certificate package loaded through the TAP. -/
  | dbgLoad (package : Bytes)
  /-- DBG_MEM (R346). The DBG_MEM instruction makes debug memory accesses, judged by the private regions, the lock set and G_DBG. -/
  | dbgMem (write : Bool) (addr : BitVec 64) (data : Bytes)
  /-- DBG_CORE (R367). The DBG_CORE instruction halts, steps and resumes the Aster cores and accesses their registers. -/
  | dbgCore (op : CoreOp)
  /-- DBG_TRACE (R367). The DBG_TRACE instruction gives instruction and event trace on the TAP. -/
  | dbgTrace
  /-- DBG_OTP (R367). The DBG_OTP instruction reads OTP words other than the root slots. -/
  | dbgOtp (word : Nat)
  /-- DBG_SCAN (R367). Selecting an internal scan chain zeroises T3 secrets and stops sealing until reset. -/
  | dbgScan (chain : BitVec 4)
  /-- BYPASS (R370). The BYPASS instruction selects the one-bit bypass register, as does an instruction selected without its right, which also sets RIGHT_ERR. -/
  | bypass (code : BitVec 8)
  /-- LINK_RETURN (R91). The link returns and the connection manager sets up the paths again, so functions that link loss disabled are enabled again with no queues. -/
  | linkReturn (gen : BitVec 2) (width : BitVec 2) (setup : PathSetup)
  /-- D3HOT_EXIT (R148). A function leaves D3hot for D0, which ends the disabling cause and enables the function again with no queues. -/
  | d3hotExit (fn : Nat)
  /-- BUS_MASTER_ENABLE (R148). Bus Master Enable is set again, which enables the function again but does not re-enable its queues. -/
  | busMasterEnable (fn : Nat)
  /-- VBAT_RECOVERY (R417). VBAT rises back to 2.0 V or more with a feed present, which ends alert cause [6]. -/
  | vbatRecovery
  /-- PKE_TEST_DONE (R378). A PKE core taken out of service by T2 finishes its known-answer tests and returns to service, or stays out after a third T2. -/
  | pkeTestDone (core : Nat) (pass : Bool)
  /-- RECEIVED_TLP_ERROR (R107). A poisoned write to a BAR, an Unexpected Completion, an ECRC failure or a Malformed TLP arrives from the host and is discarded and reported per AER. -/
  | receivedTlpError (kind : TlpError)
  /-- USB_BULK_IN (R112). The host takes a COMPLETE, MBX_RESP or NOTIFY frame on an IN endpoint, which drains waiting output and may lift the flow control on bulk OUT 0x01. -/
  | usbBulkIn (ep : UsbIn)
  /-- PD_MESSAGE (R89). A USB Power Delivery message on CC (Discover Identity, Enter_USB, an alternate-mode request) is answered, and Enter_USB enters USB4 mode. -/
  | pdMessage (msg : PdMsg)
  /-- COMMAND_WAIT_TIMEOUT (R229). A command still waiting at its bound (DRAW_CLOSE or RULESET_LOAD at 1 ms, JOURNAL_SYNC at 20 ms, GATE_SYNC at 100 ms) responds BUSY_OWNED while the wait continues without it. -/
  | commandWaitTimeout (fn : Nat) (mbx : Nat)
  deriving DecidableEq, Repr

end Sys2Proof
end

