-- ==== Sys2Proof/Machine/Bytes.lean ====
section
/-! DEFINITION. Byte order, byte strings, sparse tables and byte memories. Fields are little-endian unless a rule says
otherwise (R5). -/

namespace Sys2Proof.Machine

/-- `v` as `n` bytes, least significant first (R5). -/
def le : Nat → Nat → Bytes
  | 0, _ => []
  | n + 1, v => BitVec.ofNat 8 v :: le n (v / 256)

/-- The number that bytes spell, least significant first (R5). -/
def leVal : Bytes → Nat
  | [] => 0
  | b :: bs => b.toNat + 256 * leVal bs

/-- `v` as `n` bytes, most significant first. -/
def be (n v : Nat) : Bytes := (le n v).reverse

/-- The number that bytes spell, most significant first. -/
def beVal (b : Bytes) : Nat := leVal b.reverse

/-- `n` zero bytes. -/
def zeros (n : Nat) : Bytes := List.replicate n 0

/-- Bytes `off` to `off + len - 1`, as far as the string goes. -/
def slice (b : Bytes) (off len : Nat) : Bytes := (b.drop off).take len

/-- The little-endian field of `len` bytes at `off`; bytes beyond the end count as zero. -/
def num (b : Bytes) (off len : Nat) : Nat := leVal (slice b off len)

/-- The string cut or filled with zeros to `n` bytes. -/
def fit (n : Nat) (b : Bytes) : Bytes := b.take n ++ zeros (n - b.length)

/-- The string with `p` written over it at `off`. -/
def patch (b : Bytes) (off : Nat) (p : Bytes) : Bytes := fit off b ++ p ++ b.drop (off + p.length)

/-- Every byte of the string is zero. -/
def allZero (b : Bytes) : Bool := b.all (· == 0)

/-- Bit `i` of a number. -/
def bit (v i : Nat) : Bool := v.testBit i

/-- 1 or 0. -/
def b2n (b : Bool) : Nat := if b then 1 else 0

/-- The ASCII bytes of a label (R290). -/
def ascii (s : String) : Bytes := s.toList.map fun c => BitVec.ofNat 8 c.toNat

/-- The string in pieces of `n` bytes, the last one shorter; `fuel` pieces at most. -/
def chunksAux : Nat → Nat → Bytes → List Bytes
  | 0, _, _ => []
  | fuel + 1, n, b => if b.isEmpty then [] else b.take n :: chunksAux fuel n (b.drop n)

/-- The string in pieces of `n` bytes, the last one shorter. -/
def chunks (n : Nat) (b : Bytes) : List Bytes := chunksAux b.length n b

/-- The entry of key `k`. -/
def tget {α : Type} : Tab α → Nat → Option α
  | [], _ => none
  | (k', v) :: t, k => if k = k' then some v else tget t k

/-- The entry of key `k`, or the default. -/
def tgetD {α : Type} (t : Tab α) (k : Nat) (d : α) : α := (tget t k).getD d

/-- The table with `k` set to `v`, keys rising. -/
def tset {α : Type} : Tab α → Nat → α → Tab α
  | [], k, v => [(k, v)]
  | (k', v') :: t, k, v =>
    if k < k' then (k, v) :: (k', v') :: t
    else if k = k' then (k, v) :: t
    else (k', v') :: tset t k v

/-- The table without `k`. -/
def tdel {α : Type} (t : Tab α) (k : Nat) : Tab α := t.filter fun e => e.1 ≠ k

/-- The byte at an address; an unlisted byte reads 0 (notes/assumptions/3.md). -/
def mread (m : Memory) (a : Nat) : Byte := tgetD m a 0

/-- The memory with one byte written; a zero byte is not listed. -/
def mwrite (m : Memory) (a : Nat) (b : Byte) : Memory := if b = 0 then tdel m a else tset m a b

/-- `n` bytes from an address. -/
def mreads (m : Memory) (a : Nat) : Nat → Bytes
  | 0 => []
  | n + 1 => mread m a :: mreads m (a + 1) n

/-- The memory with a string written from an address. -/
def mwrites (m : Memory) (a : Nat) : Bytes → Memory
  | [] => m
  | b :: bs => mwrites (mwrite m a b) (a + 1) bs

/-- The canonical form: addresses strictly rising and no listed byte zero. -/
def Memory.wf (m : Memory) : Bool :=
  decide (List.Pairwise (· < ·) (m.map Prod.fst)) && m.all (fun c => c.2 ≠ 0)

/-- The list with element `i` changed by `f` (nothing when there is no such element). -/
def modAt {α : Type} (l : List α) (i : Nat) (f : α → α) : List α := l.modify i f

/-- Element `i`, or the default. -/
def at_ {α : Type} (l : List α) (i : Nat) (d : α) : α := l.getD i d

end Sys2Proof.Machine
end

