-- ==== Sys2Proof/Machine/Crypto.lean ====
section
/-! DEFINITION. The symmetric algorithms the rules name by their standards: AES-256, GCM, XTS, CMAC and CTR_DRBG, SHA-256,
SHA-384 and SHA-512, HMAC, the KDF of R290, the CRC-32 of R113 and the CRC-8 of R408. The algorithms themselves are not in the
spec; they are taken from the public standards (PRESUMED, notes/assumptions/9.md). Round constants are computed as the
standards define them. -/

namespace Sys2Proof.Machine

/-! AES-256 (FIPS 197) on blocks of 16 bytes. -/

/-- Multiplication by x in the AES field. -/
def xtime (a : Byte) : Byte := (a <<< 1) ^^^ (if a.msb then 0x1b else 0)

/-- Multiplication in the AES field. -/
def gmulAux : Nat → Byte → Byte → Byte
  | 0, _, _ => 0
  | n + 1, a, b => (if b.getLsbD 0 then a else 0) ^^^ gmulAux n (xtime a) (b >>> 1)

/-- Multiplication in the AES field. -/
def gmul (a b : Byte) : Byte := gmulAux 8 a b

/-- The inverse in the AES field (a to the power 254), 0 for 0. -/
def ginv (a : Byte) : Byte :=
  let a2 := gmul a a
  let a3 := gmul a2 a
  let a6 := gmul a3 a3
  let a12 := gmul a6 a6
  let a15 := gmul a12 a3
  let a30 := gmul a15 a15
  let a60 := gmul a30 a30
  let a120 := gmul a60 a60
  let a126 := gmul a120 a6
  let a127 := gmul a126 a
  gmul a127 a127

/-- SubBytes of one byte. -/
def sbox (a : Byte) : Byte :=
  let b := ginv a
  b ^^^ b.rotateLeft 1 ^^^ b.rotateLeft 2 ^^^ b.rotateLeft 3 ^^^ b.rotateLeft 4 ^^^ 0x63

/-- InvSubBytes of one byte. -/
def invSbox (b : Byte) : Byte :=
  ginv (b.rotateLeft 1 ^^^ b.rotateLeft 3 ^^^ b.rotateLeft 6 ^^^ 0x05)

/-- Exclusive or of two strings, to the shorter length. -/
def xorB (a b : Bytes) : Bytes := List.zipWith (· ^^^ ·) a b

/-- The AES-256 key schedule: 60 words of 4 bytes, built newest first. -/
def aesWords : Nat → List Bytes → Byte → List Bytes
  | 0, ws, _ => ws
  | n + 1, ws, rc =>
    let i := ws.length
    let prev := ws.headD []
    let back := ws.getD 7 []
    let t :=
      if i % 8 = 0 then
        let r := (prev.drop 1 ++ prev.take 1).map sbox
        xorB r [rc, 0, 0, 0]
      else if i % 8 = 4 then prev.map sbox else prev
    aesWords n (xorB back t :: ws) (if i % 8 = 0 then xtime rc else rc)

/-- The 15 round keys of an AES-256 key. -/
def aesKeys (key : Bytes) : List Bytes :=
  chunks 16 ((aesWords 52 (chunks 4 (fit 32 key)).reverse 1).reverse.flatten)

/-- ShiftRows: byte i of the result is byte 5i mod 16 of the column-major state. -/
def shiftRows (b : Bytes) : Bytes := (List.range 16).map fun i => b.getD (5 * i % 16) 0

/-- The inverse of ShiftRows. -/
def invShiftRows (b : Bytes) : Bytes := (List.range 16).map fun i => b.getD (13 * i % 16) 0

/-- MixColumns with the given first row of coefficients. -/
def mixWith (c : List Byte) (b : Bytes) : Bytes :=
  (List.range 16).map fun i =>
    let col := slice b (i / 4 * 4) 4
    (List.range 4).foldl (fun acc j => acc ^^^ gmul (c.getD ((j + 4 - i % 4) % 4) 0) (col.getD j 0)) 0

/-- AES-256 encryption of one block under its round keys. -/
def aesEncWith (ks : List Bytes) (b : Bytes) : Bytes :=
  let s0 := xorB b (ks.getD 0 [])
  let s := (List.range 13).foldl
    (fun s r => xorB (mixWith [2, 3, 1, 1] (shiftRows (s.map sbox))) (ks.getD (r + 1) [])) s0
  xorB (shiftRows (s.map sbox)) (ks.getD 14 [])

/-- AES-256 decryption of one block under its round keys. -/
def aesDecWith (ks : List Bytes) (b : Bytes) : Bytes :=
  let s0 := xorB b (ks.getD 14 [])
  let s := (List.range 13).foldl
    (fun s r => mixWith [14, 11, 13, 9] (xorB ((invShiftRows s).map invSbox) (ks.getD (13 - r) []))) s0
  xorB ((invShiftRows s).map invSbox) (ks.getD 0 [])

/-- AES-256 encryption of one block. -/
def aes (key b : Bytes) : Bytes := aesEncWith (aesKeys key) (fit 16 b)

/-! GCM (SP 800-38D) with a 96-bit IV and a 128-bit tag. -/

/-- Multiplication in the GCM field, most significant bit first. -/
def gfMulAux : Nat → BitVec 128 → BitVec 128 → BitVec 128 → BitVec 128
  | 0, _, _, z => z
  | n + 1, x, v, z =>
    gfMulAux n (x <<< 1) ((v >>> 1) ^^^ (if v.getLsbD 0 then 0xe1#128 <<< 120 else 0))
      (if x.msb then z ^^^ v else z)

/-- Multiplication in the GCM field. -/
def gfMul (x y : BitVec 128) : BitVec 128 := gfMulAux 128 x y 0

/-- A block as a number, first byte most significant. -/
def blk (b : Bytes) : BitVec 128 := BitVec.ofNat 128 (beVal (fit 16 b))

/-- GHASH of whole or zero-filled blocks. -/
def ghash (h : BitVec 128) (bs : List Bytes) : BitVec 128 :=
  bs.foldl (fun y b => gfMul (y ^^^ blk b) h) 0

/-- The key stream of counter mode from a 16-byte counter block, 32-bit increment, for each piece. -/
def ctrXor (ks : List Bytes) (iv : Bytes) : Nat → List Bytes → Bytes
  | _, [] => []
  | c, p :: ps => xorB p (aesEncWith ks (iv ++ be 4 c)) ++ ctrXor ks iv (c + 1) ps

/-- The GCM tag of associated data and ciphertext. -/
def gcmTag (ks : List Bytes) (iv aad ct : Bytes) : BitVec 128 :=
  let h := blk (aesEncWith ks (zeros 16))
  let s := ghash h (chunks 16 aad ++ chunks 16 ct ++ [be 8 (8 * aad.length) ++ be 8 (8 * ct.length)])
  s ^^^ blk (aesEncWith ks (iv ++ be 4 1))

/-- AES-256-GCM encryption: ciphertext and tag. -/
@[irreducible] def gcmSeal (key iv aad pt : Bytes) : Bytes × BitVec 128 :=
  let ks := aesKeys key
  let ct := ctrXor ks (fit 12 iv) 2 (chunks 16 pt)
  (ct, gcmTag ks (fit 12 iv) aad ct)

/-- AES-256-GCM decryption: the plaintext, or none when the tag does not verify. -/
@[irreducible] def gcmOpen (key iv aad ct : Bytes) (tag : BitVec 128) : Option Bytes :=
  let ks := aesKeys key
  if gcmTag ks (fit 12 iv) aad ct = tag then some (ctrXor ks (fit 12 iv) 2 (chunks 16 ct)) else none

/-- The counter-mode part of AES-256-GCM alone: what a ciphertext decrypts to, whether or not its tag verifies. -/
@[irreducible] def gcmCtr (key iv ct : Bytes) : Bytes := ctrXor (aesKeys key) (fit 12 iv) 2 (chunks 16 ct)

/-- GMAC: the GCM tag of associated data alone. -/
@[irreducible] def gmac (key iv aad : Bytes) : BitVec 128 := gcmTag (aesKeys key) (fit 12 iv) aad []

/-- GCM between two pieces of one message: the next counter value and the GHASH accumulator. -/
structure GcmState where
  ctr : Nat
  acc : BitVec 128
  deriving DecidableEq, Repr

/-- GHASH goes on from an accumulator. -/
def ghashFrom (h y : BitVec 128) (bs : List Bytes) : BitVec 128 := bs.foldl (fun y b => gfMul (y ^^^ blk b) h) y

/-- AES-256-GCM after the associated data. -/
@[irreducible] def gcmBegin (key aad : Bytes) : GcmState :=
  ⟨2, ghash (blk (aesEncWith (aesKeys key) (zeros 16))) (chunks 16 aad)⟩

/-- One piece of a message, sealed, or opened where `dec`: what it becomes, and the state after it. -/
@[irreducible] def gcmPiece (dec : Bool) (key iv : Bytes) (g : GcmState) (b : Bytes) : Bytes × GcmState :=
  let ks := aesKeys key
  let r := ctrXor ks (fit 12 iv) g.ctr (chunks 16 b)
  let ct := chunks 16 (if dec then b else r)
  (r, ⟨g.ctr + ct.length, ghashFrom (blk (aesEncWith ks (zeros 16))) g.acc ct⟩)

/-- The tag after the last piece, of so many bytes of associated data and ciphertext. -/
@[irreducible] def gcmEnd (key iv : Bytes) (aadLen ctLen : Nat) (g : GcmState) : BitVec 128 :=
  let ks := aesKeys key
  ghashFrom (blk (aesEncWith ks (zeros 16))) g.acc [be 8 (8 * aadLen) ++ be 8 (8 * ctLen)]
    ^^^ blk (aesEncWith ks (fit 12 iv ++ be 4 1))

/-- The first counter block of AES-256-GCM with a 16-byte IV (SP 800-38D, 7.1). -/
def gcmStart16 (h : BitVec 128) (iv : Bytes) : Bytes := be 16 (ghash h [fit 16 iv, zeros 8 ++ be 8 128]).toNat

/-- AES-256-GCM with a 16-byte IV and no associated data: the ciphertext and the tag. -/
@[irreducible] def gcmSeal16 (key iv pt : Bytes) : Bytes × BitVec 128 :=
  let ks := aesKeys key
  let h := blk (aesEncWith ks (zeros 16))
  let j := gcmStart16 h iv
  let ct := ctrXor ks (j.take 12) (beVal (j.drop 12) + 1) (chunks 16 pt)
  (ct, ghash h (chunks 16 ct ++ [zeros 8 ++ be 8 (8 * ct.length)]) ^^^ blk (aesEncWith ks j))

/-- Its inverse: the plaintext, or none when the tag does not verify. -/
@[irreducible] def gcmOpen16 (key iv ct : Bytes) (tag : BitVec 128) : Option Bytes :=
  let ks := aesKeys key
  let h := blk (aesEncWith ks (zeros 16))
  let j := gcmStart16 h iv
  if ghash h (chunks 16 ct ++ [zeros 8 ++ be 8 (8 * ct.length)]) ^^^ blk (aesEncWith ks j) = tag then
    some (ctrXor ks (j.take 12) (beVal (j.drop 12) + 1) (chunks 16 ct))
  else none

/-- A 128-bit tag as 16 bytes, first byte most significant. -/
def tagBytes (t : BitVec 128) : Bytes := be 16 t.toNat

/-! XTS-AES-256 (IEEE 1619) with a 64-byte key. -/

/-- Multiplication of a tweak by x, little-endian. -/
def xtsNext (t : Bytes) : Bytes :=
  let v := BitVec.ofNat 128 (leVal t)
  le 16 ((v <<< 1) ^^^ (if v.msb then 0x87 else 0)).toNat

/-- One block under a tweak. -/
def xtsBlock (f : Bytes → Bytes) (t b : Bytes) : Bytes := xorB (f (xorB b t)) t

/-- The whole blocks of a data unit; with ciphertext stealing when a short block follows. -/
def xtsBlocks (f : Bytes → Bytes) (dec : Bool) : Bytes → List Bytes → Bytes
  | _, [] => []
  | t, [p] => xtsBlock f t p
  | t, p :: q :: rest =>
    if q.length < 16 then
      let t' := xtsNext t
      let c := xtsBlock f (if dec then t' else t) p
      xtsBlock f (if dec then t else t') (q ++ c.drop q.length) ++ c.take q.length
    else xtsBlock f t p ++ xtsBlocks f dec (xtsNext t) (q :: rest)

/-- XTS-AES-256 of one data unit: `key` is 64 bytes, `unit` the 16-byte data unit number, little-endian. -/
@[irreducible] def xts (dec : Bool) (key unit b : Bytes) : Bytes :=
  let k1 := aesKeys (key.take 32)
  let t := aesEncWith (aesKeys (key.drop 32)) (fit 16 unit)
  xtsBlocks (if dec then aesDecWith k1 else aesEncWith k1) dec t (chunks 16 b)

/-! CMAC (SP 800-38B). -/

/-- Doubling of a block, most significant bit first. -/
def cmacDouble (x : BitVec 128) : BitVec 128 := (x <<< 1) ^^^ (if x.msb then 0x87 else 0)

/-- AES-256-CMAC of a message. -/
@[irreducible] def cmac (key m : Bytes) : BitVec 128 :=
  let ks := aesKeys key
  let k1 := cmacDouble (blk (aesEncWith ks (zeros 16)))
  let bs := chunks 16 m
  let last := bs.getLast?.getD []
  let fin := if last.length = 16 then blk last ^^^ k1 else blk (last ++ [0x80]) ^^^ cmacDouble k1
  let c := bs.dropLast.foldl (fun c b => aesEncWith ks (xorB c b)) (zeros 16)
  blk (aesEncWith ks (xorB c (be 16 fin.toNat)))

/-! SHA-2 (FIPS 180-4). -/

/-- The integer root of degree `k` by binary search from bit `n` down. -/
def iroot (k : Nat) (x : Nat) : Nat → Nat → Nat
  | 0, r => r
  | n + 1, r => if (r + 2 ^ n) ^ k ≤ x then iroot k x n (r + 2 ^ n) else iroot k x n r

/-- The first `n` primes, by trial division. -/
def primesAux : Nat → Nat → List Nat → List Nat
  | 0, _, ps => ps.reverse
  | fuel + 1, c, ps => primesAux fuel (c + 1) (if ps.any (fun p => c % p = 0) then ps else c :: ps)

/-- The primes up to 409, of which there are 80. -/
def primes80 : List Nat := primesAux 408 2 []

/-- The first `w` bits of the fractional part of the `k`-th root of a prime. -/
def fracRoot (k w p : Nat) : Nat := iroot k (p * 2 ^ (k * w)) (w + 8) 0 % 2 ^ w

/-- The parameters of a SHA-2 word size: rotation amounts and round constants. -/
structure Sha2 where
  w : Nat
  rounds : Nat
  s0 : Nat × Nat × Nat
  s1 : Nat × Nat × Nat
  e0 : Nat × Nat × Nat
  e1 : Nat × Nat × Nat

/-- 32-bit words (SHA-256). -/
def sha2w32 : Sha2 := ⟨32, 64, (7, 18, 3), (17, 19, 10), (2, 13, 22), (6, 11, 25)⟩

/-- 64-bit words (SHA-384, SHA-512). -/
def sha2w64 : Sha2 := ⟨64, 80, (1, 8, 7), (19, 61, 6), (28, 34, 39), (14, 18, 41)⟩

/-- The message schedule, newest first. -/
def shaSched (p : Sha2) : Nat → List (BitVec p.w) → List (BitVec p.w)
  | 0, ws => ws
  | n + 1, ws =>
    let g := fun i => ws.getD i 0
    let a := g 14
    let b := g 1
    let x := a.rotateRight p.s0.1 ^^^ a.rotateRight p.s0.2.1 ^^^ a >>> p.s0.2.2
    let y := b.rotateRight p.s1.1 ^^^ b.rotateRight p.s1.2.1 ^^^ b >>> p.s1.2.2
    shaSched p n ((g 15 + x + g 6 + y) :: ws)

/-- One round. -/
def shaRound (p : Sha2) (h : List (BitVec p.w)) (kw : BitVec p.w × BitVec p.w) : List (BitVec p.w) :=
  let g := fun i => h.getD i 0
  let a := g 0
  let e := g 4
  let t1 := g 7 + (e.rotateRight p.e1.1 ^^^ e.rotateRight p.e1.2.1 ^^^ e.rotateRight p.e1.2.2)
    + ((e &&& g 5) ^^^ (~~~e &&& g 6)) + kw.1 + kw.2
  let t2 := (a.rotateRight p.e0.1 ^^^ a.rotateRight p.e0.2.1 ^^^ a.rotateRight p.e0.2.2)
    + ((a &&& g 1) ^^^ (a &&& g 2) ^^^ (g 1 &&& g 2))
  [t1 + t2, a, g 1, g 2, g 3 + t1, e, g 5, g 6]

/-- Compression of one block. -/
def shaBlock (p : Sha2) (ks : List (BitVec p.w)) (h : List (BitVec p.w)) (b : Bytes) : List (BitVec p.w) :=
  let m := (chunks (p.w / 8) b).map fun x => BitVec.ofNat p.w (beVal x)
  let ws := (shaSched p (p.rounds - 16) m.reverse).reverse
  List.zipWith (· + ·) h ((ks.zip ws).foldl (shaRound p) h)

/-- The padded message in blocks. -/
def shaPad (p : Sha2) (m : Bytes) : List Bytes :=
  let n := p.w * 2
  let z := (2 * n - (m.length + 1 + p.w / 4) % n) % n
  chunks n (m ++ [0x80] ++ zeros z ++ be (p.w / 4) (8 * m.length))

/-- SHA-2 compression of whole blocks from an initial value. -/
def sha2Blocks (p : Sha2) (iv : List Nat) (bs : List Bytes) : Bytes :=
  let ks := (primes80.take p.rounds).map fun q => BitVec.ofNat p.w (fracRoot 3 p.w q)
  let h := bs.foldl (shaBlock p ks) (iv.map (BitVec.ofNat p.w))
  (h.map fun x => be (p.w / 8) x.toNat).flatten

/-- SHA-2 from an initial value. -/
def sha2 (p : Sha2) (iv : List Nat) (m : Bytes) : Bytes := sha2Blocks p iv (shaPad p m)

/-- SHA-256. -/
@[irreducible] def sha256 (m : Bytes) : BitVec 256 :=
  BitVec.ofNat 256 (beVal (sha2 sha2w32 ((primes80.take 8).map (fracRoot 2 32)) m))

/-- SHA-512. -/
@[irreducible] def sha512 (m : Bytes) : BitVec 512 :=
  BitVec.ofNat 512 (beVal (sha2 sha2w64 ((primes80.take 8).map (fracRoot 2 64)) m))

/-- SHA-384. -/
@[irreducible] def sha384 (m : Bytes) : BitVec 384 :=
  BitVec.ofNat 384 (beVal ((sha2 sha2w64 (((primes80.drop 8).take 8).map (fracRoot 2 64)) m).take 48))

/-- The compression of whole blocks by a digest unit, without padding: ALG 0 SHA-256, 1 SHA-384, 2 SHA-512 (R404, R405). -/
@[irreducible] def shaChain (alg : BitVec 2) (m : Bytes) : Bytes :=
  if alg = 0 then sha2Blocks sha2w32 ((primes80.take 8).map (fracRoot 2 32)) (chunks 64 m)
  else if alg = 1 then (sha2Blocks sha2w64 (((primes80.drop 8).take 8).map (fracRoot 2 64)) (chunks 128 m)).take 48
  else sha2Blocks sha2w64 ((primes80.take 8).map (fracRoot 2 64)) (chunks 128 m)

/-- A SHA-384 value as 48 bytes. -/
def h384 (h : BitVec 384) : Bytes := be 48 h.toNat

/-- HMAC-SHA-384 (FIPS 198-1). -/
@[irreducible] def hmac384 (key m : Bytes) : BitVec 384 :=
  let k := fit 128 (if key.length ≤ 128 then key else h384 (sha384 key))
  sha384 (k.map (· ^^^ 0x5c) ++ h384 (sha384 (k.map (· ^^^ 0x36) ++ m)))

/-- KDF(K, label, context, L): counter mode with HMAC-SHA-384 (R290). The result has L / 8 bytes. -/
def kdf (key : Bytes) (label : String) (context : Bytes) (bits : Nat) : Bytes :=
  let n := (bits + 383) / 384
  let out := ((List.range n).map fun i =>
    h384 (hmac384 key (be 4 (i + 1) ++ ascii label ++ [0] ++ context ++ be 4 bits))).flatten
  fit (bits / 8) out

/-! CRC. -/

/-- CRC-32 of R113: polynomial 0x04C1_1DB7 reflected, initial value and final XOR all ones. -/
@[irreducible] def crc32 (m : Bytes) : BitVec 32 :=
  ~~~(m.foldl (fun c b => (List.range 8).foldl
    (fun c _ => (c >>> 1) ^^^ (if c.getLsbD 0 then 0xEDB88320#32 else 0)) (c ^^^ b.setWidth 32)) 0xFFFFFFFF#32)

/-- CRC-8 of R408: polynomial 0x07, initial value 0, not reflected, no final XOR. -/
def crc8 (m : Bytes) : Byte :=
  m.foldl (fun c b => (List.range 8).foldl (fun c _ => (c <<< 1) ^^^ (if c.msb then 7 else 0)) (c ^^^ b)) 0

/-! CTR_DRBG of R235 (SP 800-90A): AES-256, ctr_len 128, no derivation function. -/

/-- The working state of a CTR_DRBG. -/
structure Drbg where
  key : Bytes
  v : Nat
  deriving DecidableEq, Repr

/-- `n` output blocks after the counter value `v`. -/
def drbgBlocks (ks : List Bytes) (v : Nat) (n : Nat) : Bytes :=
  ((List.range n).map fun i => aesEncWith ks (be 16 ((v + i + 1) % 2 ^ 128))).flatten

/-- CTR_DRBG_Update with 48 bytes of provided data. -/
def drbgUpdate (d : Drbg) (pd : Bytes) : Drbg :=
  let t := xorB (drbgBlocks (aesKeys d.key) d.v 3) (fit 48 pd)
  ⟨t.take 32, beVal (t.drop 32)⟩

/-- Instantiation from entropy and personalisation string, 48 bytes each. -/
def drbgInit (entropy pers : Bytes) : Drbg := drbgUpdate ⟨zeros 32, 0⟩ (xorB (fit 48 entropy) (fit 48 pers))

/-- One Generate call of 4,096 bytes without additional input. -/
def drbgGen (d : Drbg) : Bytes × Drbg :=
  let out := drbgBlocks (aesKeys d.key) d.v 256
  (out, drbgUpdate { d with v := (d.v + 256) % 2 ^ 128 } (zeros 48))

end Sys2Proof.Machine
end

