-- ==== Sys2Proof/Config.lean ====
section
/-! DEFINITION. What an implementation fixes and the free values. Every constant here is opaque: no proof can see its value
(notes/assumptions/8.md, 10.md, 14.md). -/

namespace Sys2Proof.Config

/-- The `n`-th draw of 256 random bits whose source no rule names. -/
opaque noise : Nat → BitVec 256

/-- The `n`-th 1,024 raw samples of a noise bank: 32 consecutive samples of each of its 32 streams, in stream order (R211, R219). -/
opaque raw : Nat → BitVec 1024

/-- The 12 check bits of the symbol code over a 64-bit DRAM word; the rules name no generator (R325). -/
opaque symbolCheck : BitVec 64 → BitVec 12

/-- The 8 SEC-DED check bits over a 64-bit MRAM word; the rules name no generator (R31). -/
opaque secDed : BitVec 64 → BitVec 8

/-- The `n`-th value that a rule leaves open. -/
opaque freeValue : Nat → BitVec 64

/-- Byte `i` of the `n`-th byte string whose content a rule leaves open. -/
opaque freeByte : Nat → Nat → Byte

/-- A bit that a rule leaves open. -/
opaque freeBit : Nat → Bool

/-- A position in 0 to below the bound that a rule leaves open, taken modulo the bound. -/
opaque freeNat : Nat → Nat

/-- The 128-bit unit ID (R126). -/
opaque unitId : BitVec 128

/-- The ordering code is FLA9412-GX; otherwise it is FLA9412-GI (R2, R126). -/
opaque orderingGx : Bool

/-- DIE_REV (R126, R370). -/
opaque dieRev : BitVec 16

/-- The VENDOR key digest that the test equipment burns (R354, R356). -/
opaque vendorDigest : BitVec 384

/-- The trims that the test equipment burns, word 0 to 15 (R356). -/
opaque trim : Nat → BitVec 64

/-- The check word of the unit ID words (R356). -/
opaque unitCheck : BitVec 64

/-- Boot ROM revision (R126). -/
opaque romRev : BitVec 16

/-- The P-384 public key, as 96 bytes, of a 384-bit seed (R291). -/
opaque ecPub : BitVec 384 → BitVec 768

/-- The ECDSA P-384 signature, as 96 bytes, of a message digest under a private seed; the third argument is the draw of its
nonce (R291). -/
opaque ecSign : BitVec 384 → Bytes → Nat → BitVec 768

/-- An ECDSA P-384 signature verifies: public key, message, signature. -/
opaque ecVerify : BitVec 768 → Bytes → BitVec 768 → Bool

/-- A hybrid signature of 3,405 bytes (ECDSA P-384, then ML-DSA-65) over a message verifies under the role key that has this
digest (R303, R354). -/
opaque roleVerify : BitVec 384 → Bytes → Bytes → Bool

/-- The shared secret of ECDH on P-384: private seed and the other public point; none when the point is not on the curve. -/
opaque ecdh : BitVec 384 → BitVec 768 → Option (BitVec 384)

/-- The ML-DSA-65 public key (1,952 bytes) of a 256-bit seed. -/
opaque dsaPub : BitVec 256 → BitVec 15616

/-- The ML-DSA-65 signature (3,309 bytes) of a message under a seed; the third argument is the draw of its randomiser. -/
opaque dsaSign : BitVec 256 → Bytes → Nat → BitVec 26472

/-- An ML-DSA-65 signature verifies: public key, message, signature. -/
opaque dsaVerify : BitVec 15616 → Bytes → BitVec 26472 → Bool

/-- The ML-KEM-768 encapsulation key (1,184 bytes) of a 512-bit seed. -/
opaque kemPub : BitVec 512 → BitVec 9472

/-- The shared secret of ML-KEM-768 decapsulation of a 1,088-byte ciphertext. -/
opaque kemDecaps : BitVec 512 → BitVec 8704 → BitVec 256

end Sys2Proof.Config
end

