-- ==== Sys2Proof/Machine/State.lean ====
section
/-! DEFINITION. The state of the Asaskac: every register, memory, buffer, counter, mode and pin the rules name, as plain
data, and the state right after reset. What lasts without power (the MRAM, the OTP words and the PD00 counters) stands apart
from what a start rebuilds. Each field names the rule that gives it; a value that no rule gives is named in
notes/assumptions (rows 1 to 3). -/

namespace Sys2Proof.Machine

/-- Why a step stops with a fault. No rule of the spec stops the block with a fault: every error is a status, an event, a
flag or a disabled unit, and the block goes on. No meaning raises this; it is safe. -/
inductive Fault where
  /-- Raised by no meaning. Safe: nothing can be proved from a stop that does not happen. -/
  | none
  deriving DecidableEq, Repr

/-- Why a step refuses a command. -/
inductive Refusal where
  /-- Raised by an arm of exec whose command has no meaning yet. Safe: nothing is claimed of such a command. -/
  | notModelled (mnemonic : String)
  deriving DecidableEq, Repr

/-- What the Power Delivery engine answers (R89). -/
inductive PdReply where
  /-- Discover Identity: the product type is peripheral. -/
  | peripheral
  | accept | reject | notSupported
  /-- Request of a contract: mV and mA. -/
  | request (mv ma : Nat)
  deriving DecidableEq, Repr

/-- What crosses the boundary outwards (R14). It is the model's record of the block's output: nothing reads it. -/
inductive Out where
  /-- A posted write of a function to host memory. -/
  | mem (fn : Nat) (addr : Nat) (bytes : Bytes)
  /-- An MSI-X message of a function. -/
  | msix (fn vec : Nat)
  /-- A frame taken from a USB IN endpoint. -/
  | frame (ep : UsbIn) (bytes : Bytes)
  /-- Bytes returned on the SPI target. -/
  | spi (bytes : Bytes)
  /-- A word driven on the meter port. -/
  | mp (word : BitVec 16)
  /-- Read data returned to the host by a register read. -/
  | reg (value : Nat)
  /-- Bits shifted out of the selected TAP data register. -/
  | tdo (bytes : Bytes)
  /-- A read request of a function for host memory, with its Relaxed Ordering attribute (R99). -/
  | read (fn addr len : Nat) (relaxed : Bool)
  /-- An answer on the CC line (R89). -/
  | cc (reply : PdReply)
  deriving DecidableEq, Repr


/-- Where the machine stands between power-up and service (R52, R60, R65, R66, R76, R444). -/
inductive Phase where
  /-- Powered down: all domains except PD00 off (R52). -/
  | off
  /-- A reset pin is low after the reset flush, or was low through power good (R60, R436). -/
  | held
  /-- Power is good and the reset pins are released: the start begins (R62, R65). -/
  | startDue
  /-- An Apron flush is running from VHOLD (power failure, R52). -/
  | flushPower
  /-- A reset flush is running from input power (R60). -/
  | flushReset
  /-- Step 15 of R65 has ended; mailbox ready has not come (R66). -/
  | started
  /-- Mailbox ready (step 16 of R65). -/
  | ready
  /-- Service complete (step 17 of R65). -/
  | service
  /-- The boot ROM serves recovery mode (R76). -/
  | recovery
  /-- SCRAP start done, commands of R350 answered (R444). -/
  | scrap
  deriving DecidableEq, Repr

/-- The life-cycle states and conditions of R348. -/
inductive Lc where
  | raw | test | provision | certify | field | retn | scrap | lost | tampered
  deriving DecidableEq, Repr

/-- Start reasons of R258. -/
inductive StartReason where
  | powerGood | npor | nreset | recovery
  deriving DecidableEq, Repr

/-- How a running image was chosen (R75, R129). -/
inductive FwMode where
  | normal | trial | fallback | recovery
  deriving DecidableEq, Repr

/-- Slot states of R129. -/
inductive FwState where
  | invalid | written | verified | failed | running
  deriving DecidableEq, Repr

/-- Power-domain states of R48. -/
inductive DomState where
  | off | on | retention
  deriving DecidableEq, Repr

/-- Queue index states of R134. -/
inductive QState where
  | free | active | disabling | disabled
  deriving DecidableEq, Repr

/-- Lane states of R198. -/
inductive LaneSt where
  | off | starting | serving | draining | suspect | testing | failed
  deriving DecidableEq, Repr

/-- Noise-bank states of R216. -/
inductive BankSt where
  | off | starting | calibrating | serving | suspended | failed
  deriving DecidableEq, Repr

/-- Draw states of R226. -/
inductive DrawSt where
  | defining | opened | ready | closing | closed | committed | issuing | resulted | certified
  | cancelled | voided
  deriving DecidableEq, Repr

/-- Errors reported by AER (R97, R107). -/
inductive AerError where
  /-- A read of source data, or of what a command reads by DMA. -/
  | sourceRead (kind : ReadError)
  /-- A read of a submission entry. -/
  | entryRead (kind : ReadError)
  | poisonedWrite | unexpectedCompletion | ecrc | malformed | unsupportedRequest | uncorrectableInternal | correctedInternal
  deriving DecidableEq, Repr

/-- Owners of DGU1 (R407). -/
inductive DgOwner where
  | free | host | cabinet | firmware
  deriving DecidableEq, Repr

/-- Why a function is not enabled (R148, and the cause codes of FN_DISABLED in R414). -/
inductive FnCause where
  | fnDisable | flr | busMaster | d3hot | link | testRoot
  deriving DecidableEq, Repr

/-- A copy of an A/B record (R299, R300). -/
inductive Copy (α : Type) where
  /-- All zero: never written. -/
  | blank
  /-- Fails its check. -/
  | torn
  /-- Verifies, with its RSEQ. -/
  | good (rseq : Nat) (content : α)
  deriving DecidableEq, Repr

/-- A record kept as A and B copies (R299). -/
structure AB (α : Type) where
  a : Copy α
  b : Copy α
  deriving DecidableEq, Repr

/-- Where a unit of work stands between fetch and completion (R145, R146, R153, R190). -/
inductive WStage where
  /-- Fetched; its source bytes have not arrived. -/
  | fetched
  /-- Its source bytes are inside; it waits for dispatch. -/
  | arrived
  /-- Given to a pair slot; the lanes have not finished the unit. -/
  | dispatched
  /-- Both lanes have finished the unit; it waits at the output stage. -/
  | computed
  /-- A unit has been released and the next quantum waits for dispatch (R193). -/
  | between
  /-- Taken back from a withdrawn pair (R201). -/
  | takenBack
  /-- Its status is fixed; its completion waits its turn (R140). -/
  | done
  deriving DecidableEq, Repr

/-- Boot selector record (R74). -/
structure BootSel where
  /-- ACTIVE: false slot A, true slot B (R74). -/
  active : Bool := false
  /-- PENDING: none, A or B (R74). -/
  pend : Option Bool := none
  /-- TRIAL (R74). -/
  trial : Bool := false
  deriving DecidableEq, Repr

/-- What a measurement of the hold-up capacitor gives (R57). -/
structure CapResult where
  /-- The discharge method was used (R57). -/
  discharge : Bool := true
  /-- The readings (R57). -/
  raw : CapReading := ⟨0, 0, 0, false⟩
  deriving DecidableEq, Repr

/-- Supplies, pins, capacitor and power domains (02, 16). -/
structure Power where
  /-- Feed A at or above its power-good threshold (R42). -/
  feedA : Bool := true
  /-- Feed B at or above its power-good threshold (R42). -/
  feedB : Bool := true
  /-- VIN_A in mV (R41, R420). -/
  vinA : Nat := 5000
  /-- VIN_B in mV (R41, R420). -/
  vinB : Nat := 5000
  /-- The hold-up converter bridges a dip (R51). -/
  bridging : Bool := false
  /-- VHOLD in mV (R56, R420). -/
  vhold : Nat := 0
  /-- Seconds for which the bleed has run since power-down (R56). -/
  bled : Nat := 0
  /-- VDDIO_GEN is in a valid band (R38). -/
  ioGen : Bool := true
  /-- VDDIO_GEN selects 3.3 V operation, else 1.8 V (R38). -/
  ioGen33 : Bool := false
  /-- VDDIO_MP is in a valid band (R38). -/
  ioMp : Bool := true
  /-- VDDIO_MP selects 3.3 V operation, else 1.8 V (R38). -/
  ioMp33 : Bool := false
  /-- VBAT is present (R46, R47). -/
  vbatPresent : Bool := true
  /-- VBAT is below 2.0 V while a feed is present (R372, R417). -/
  vbatLow : Bool := false
  /-- PD00 has lost its state since the last start (R47). -/
  pd00Lost : Bool := false
  /-- The current start found PD00 lost (R47, R258). -/
  vbatLostStart : Bool := false
  /-- Where the machine stands (R52, R60, R65). -/
  phase : Phase := .startDue
  /-- Reason the coming or current start carries (R82, R258). -/
  reason : StartReason := .powerGood
  /-- NPOR is low (R60). -/
  porLow : Bool := false
  /-- NRESET is low (R60). -/
  resetLow : Bool := false
  /-- EXTEST is selected and holds reset (R367). -/
  tapHold : Bool := false
  /-- A start has taken place since power good (R436). -/
  everStarted : Bool := false
  /-- Last measurement: method and readings, from which C, ESR and droop are computed (R57, R258, R420). -/
  cap : CapResult := {}
  /-- Operating seconds of that measurement (R420). -/
  capOpsec : Nat := 0
  /-- Result of a test run while reset was held through power good (R436). -/
  capKept : Option CapResult := none
  /-- The Asaskac runs DEGRADED (R58, R59, R119). -/
  degraded : Bool := false
  /-- In standby (R50). -/
  standby : Bool := false
  /-- DEV_STANDBY executes: fetching has stopped for standby (R50, R128). -/
  standbyDue : Bool := false
  /-- A doorbell or a request has come that ends standby (R50, R128). -/
  wake : Bool := false
  /-- PD00 to PD79 (R48, R61). -/
  domains : List DomState := List.replicate 4 .on ++ List.replicate 76 .off
  /-- MP_VALID is driven high (R36, R64). -/
  mpValid : Bool := false
  /-- Junction temperature, degC + 64 (R420). -/
  tempNow : Nat := 89
  /-- Highest junction temperature since the start, degC + 64 (R420). -/
  tempMax : Nat := 89
  /-- Units of R33 that have failed, by unit code and index (R33). -/
  unitsFailed : List (Nat × Nat) := []
  /-- Fetching is stopped until the next start (R33, R69, R381, R446). -/
  fetchOff : Bool := false
  deriving DecidableEq, Repr

/-- Firmware slots as judged in this power cycle (03). -/
structure Boot where
  /-- RUNNING slot: false A, true B (R129). -/
  runSlot : Bool := false
  /-- Mode of the running image (R75, R129). -/
  mode : FwMode := .normal
  /-- Slot A STATE (R129). -/
  stA : FwState := .invalid
  /-- Slot B STATE (R129). -/
  stB : FwState := .invalid
  /-- Slot A CHECK (R129). -/
  chkA : Nat := 0
  /-- Slot B CHECK (R129). -/
  chkB : Nat := 0
  deriving DecidableEq, Repr

/-- Host paths, USB4, USB, Type-C and endpoint state (04). -/
structure Link where
  /-- The path that holds the host role (R84). -/
  hostPath : Option Path := none
  /-- LINK_STATUS.GEN (R101). -/
  gen : BitVec 2 := 0
  /-- LINK_STATUS.WIDTH (R101). -/
  width : BitVec 2 := 0
  /-- LINK_STATUS.USB3_TUN (R101). -/
  usb3Tun : Bool := false
  /-- LINK_STATUS.SPI_SEEN (R101). -/
  spiSeen : Bool := false
  /-- LINK_STATUS.LANE_EVENTS, saturating at 0xFFFF (R101). -/
  laneEvents : Nat := 0
  /-- LINK_CTRL.CTO_MS (R100, R101). -/
  cto : Nat := 50
  /-- The link is enabled (Rd applied to CC) (R36, R66). -/
  enabled : Bool := false
  /-- The Type-C port is attached (R89). -/
  attached : Bool := false
  /-- Enter_USB has been accepted (R89). -/
  usb4Mode : Bool := false
  /-- The connection manager has set up a PCIe tunnel (R87, R88). -/
  pcieTun : Bool := false
  /-- Mode of the Time Management Unit (R87). -/
  tmu : Nat := 0
  /-- Low-power state of the link (R87). -/
  cl : ClState := .cl0
  /-- A 5 V contract at 100 mA has been requested (R89). -/
  contract : Bool := false
  /-- Configuration 1 of the USB function is selected (R84, R108). -/
  usbConf : Bool := false
  /-- VF Enable (R93, R105). -/
  vfEnable : Bool := false
  /-- NumVFs (R93). -/
  numVFs : Nat := 0
  /-- AER errors reported, with their function, newest last (R97, R107). -/
  aer : List (Nat × AerError) := []
  /-- COMPLETE frames waiting for bulk IN 0x81 (R110, R112). -/
  usbOut : List Bytes := []
  /-- MBX_RESP frames waiting for bulk IN 0x82 (R110). -/
  usbMbx : List Bytes := []
  /-- NOTIFY flags waiting on interrupt IN (R110). -/
  usbNotify : BitVec 3 := 0
  deriving DecidableEq, Repr

/-- One function, PF0 or VF (05). -/
structure Fn where
  /-- The function exists (PF0, or a VF under VF Enable) (R93). -/
  present : Bool := false
  /-- DEV_STATUS.FN_EN (R119, R148). -/
  enabled : Bool := false
  /-- Causes that keep the function disabled (R148). -/
  causes : List FnCause := []
  /-- Bus Master Enable (R105). -/
  bme : Bool := false
  /-- Configuration registers that have been written, by offset; the others hold their reset values (R92, R93, R94, R99). -/
  cfg : Tab (BitVec 32) := []
  /-- The function is in D3hot (R105). -/
  d3 : Bool := false
  /-- WEIGHT (R131). -/
  weight : Nat := 16
  /-- QUOTA (PF0: 262,144) (R131). -/
  quota : Nat := 0
  /-- IN_GUAR, KiB (R131). -/
  inGuar : Nat := 128
  /-- IN_CAP, KiB (R131). -/
  inCap : Nat := 1024
  /-- STAGING, MiB (R131). -/
  staging : Nat := 128
  /-- GROUP_WEIGHT of groups 0 to 15 (R131). -/
  groupW : List Nat := List.replicate 16 16
  /-- Ingress credit in use, bytes (R142). -/
  inUsed : Nat := 0
  /-- Staging credit in use, bytes (R143). -/
  stUsed : Nat := 0
  /-- DEV_EVENT (R119). -/
  devEvent : BitVec 32 := 0
  /-- DEV_IRQ_EN (R119). -/
  irqEn : BitVec 32 := 0
  /-- Carried fetch allowance at each shard, bytes (R144). -/
  fetchCredit : List Int := [0, 0, 0, 0]
  /-- Carried level-1 lane allowance, cycles (R195). -/
  laneCredit : Nat := 0
  /-- Carried level-2 lane allowance per group (R195). -/
  groupCredit : List Nat := List.replicate 16 0
  /-- Group at which the level-2 round robin stands (R195). -/
  rrGroup : Nat := 0
  /-- Queue at which the level-3 round robin of each group stands (R195). -/
  rrQ : List Nat := List.replicate 16 0
  deriving DecidableEq, Repr

/-- The functions after reset: PF0 exists, with a quota of every queue index, and no VF does (R93, R131). -/
def Fn.resetAll : List Fn := { present := true, quota := 262144 } :: List.replicate 15 {}

/-- One MSI-X vector and its COAL register. -/
structure Vec where
  /-- COAL.COUNT (R103). -/
  count : BitVec 8 := 0
  /-- COAL.TIME (R103). -/
  time : BitVec 16 := 0
  /-- Completions held since the last message (R104). -/
  held : Nat := 0
  /-- Vector mask bit (base specification) (R102). -/
  masked : Bool := true
  /-- Pending bit (R102, R104). -/
  pend : Bool := false
  /-- Message address (base specification) (R95, R102). -/
  addr : BitVec 64 := 0
  /-- Message data (base specification) (R95, R102). -/
  data : BitVec 32 := 0
  deriving DecidableEq, Repr

/-- One mailbox (05). -/
structure Mbx where
  /-- MBX_CTRL.BUSY (R121). -/
  busy : Bool := false
  /-- MBX_CTRL.DONE (R121). -/
  done : Bool := false
  /-- MBX_CTRL.IRQ_EN (R121). -/
  irqEn : Bool := false
  /-- MBX_CTRL.OVERRUN (R121). -/
  overrun : Bool := false
  /-- The 4 KiB buffer (R121, R122). -/
  buf : Memory := []
  /-- Package bytes received in chunks (R302, R361). -/
  pkg : Bytes := []
  /-- Opcode the partial package belongs to (R302, R361). -/
  pkgOp : Nat := 0
  /-- Operating second of the last chunk (R302). -/
  pkgOpsec : Nat := 0
  deriving DecidableEq, Repr

/-- Saved state of a message between two of its units (07). -/
structure Saved where
  /-- It went to DRAM with its context, wrapped (R192). -/
  wrapped : Bool := false
  /-- The 96 bytes of the clear form, empty while it is wrapped (R192). -/
  bytes : Bytes := []
  deriving DecidableEq, Repr

/-- One submission entry inside the Asaskac (05, 06, 07). -/
structure Work where
  /-- Queue index (R135). -/
  qix : Nat := 0
  /-- Function of the queue (R135). -/
  fn : Nat := 0
  /-- The 32-byte submission entry (R135). -/
  ent : Bytes := []
  /-- Source bytes received (R150). -/
  src : Bytes := []
  /-- Where the entry stands (R146). -/
  stage : WStage := .fetched
  /-- Ingress charge held, bytes (R142). -/
  charge : Nat := 0
  /-- Staging charge held, bytes (R143). -/
  stCharge : Nat := 0
  /-- SEQ, or 0 when none was assigned (R153). -/
  seq : Nat := 0
  /-- The 96-bit nonce value (R153, R154). -/
  nonce : Nat := 0
  /-- Issue epoch (R153). -/
  epoch : Nat := 0
  /-- Operating seconds at the moment of R153 (R164). -/
  opsec : Nat := 0
  /-- RSVER in force at the issue epoch, if a rule set applies (R183). -/
  rs : Option Nat := none
  /-- First index assigned to an OUTCOME (R246). -/
  firstIdx : Nat := 0
  /-- Status fixed at dispatch (DST range, draw, key chain), 0 when none (R156, R246, R307). -/
  pre : Nat := 0
  /-- DETAIL of that status (R246). -/
  preDetail : Nat := 0
  /-- Pair slot of the dispatched unit (R189, R197). -/
  slot : Nat := 0
  /-- Claim number the unit is tagged with (R189). -/
  claim : Nat := 0
  /-- Cycles charged to the slot (R191, R197). -/
  cost : Nat := 0
  /-- Index of the unit dispatched or to be dispatched next (R191). -/
  unit : Nat := 0
  /-- Status reached (R149). -/
  status : Nat := 0
  /-- DETAIL of the completion (R137). -/
  detail : Nat := 0
  /-- RTAG of the descriptor (R175). -/
  rtag : BitVec 128 := 0
  /-- Its ingress charge is held from the shared pool (R142). -/
  pooled : Bool := false
  /-- CTO_MS under which its source read was issued (R100). -/
  cto : Nat := 0
  /-- Output bytes released so far (R110, R192). -/
  acc : Bytes := []
  /-- TSEQ of a record whose tag verified (R161). -/
  tseq : Option Nat := none
  /-- Draw whose DRAW_OPEN check the record passed (R180, R228). -/
  soldDraw : Option Nat := none
  /-- The draw table at the issue epoch of an ACCEPT with a rule set: each draw with the status DRAW_OPEN gives for it, 0 where it is open (R182). -/
  draws : List (Nat × Nat) := []
  /-- Saved state of its last released unit (R192). -/
  saved : Option Saved := none
  /-- Units released by other slots since the unit was dispatched (R204). -/
  lag : Nat := 0
  /-- A hold buffer is reserved to it (R171). -/
  held : Bool := false
  /-- Its key was invalidated during the operation (R312). -/
  revoked : Bool := false
  /-- Its completion is held until its record is DURABLE (R266). -/
  waitDur : Bool := false
  /-- Its leaf has been handed to the journal writer (R175, R263). -/
  journalled : Bool := false
  deriving DecidableEq, Repr

/-- One queue index (05, 06). -/
structure Queue where
  /-- State (R134). -/
  st : QState := .free
  /-- Function that holds the index (R134). -/
  fn : Nat := 0
  /-- Path the queue completes on (R83, R85). -/
  path : Path := .pcie
  /-- ENTRIES (R132). -/
  entries : Nat := 0
  /-- VECTOR (R132). -/
  vector : Nat := 0
  /-- SQ_BASE (R132). -/
  sqBase : BitVec 64 := 0
  /-- CQ_BASE (R132). -/
  cqBase : BitVec 64 := 0
  /-- Session key handle (R132). -/
  skey : BitVec 32 := 0
  /-- Journal key handle (R132). -/
  jkey : BitVec 32 := 0
  /-- RULESET (R132). -/
  ruleset : Nat := 65535
  /-- GROUP (R132). -/
  group : Nat := 0
  /-- HOLD mode (R132, R171). -/
  hold : Bool := false
  /-- Next entry to fetch (R134). -/
  sqHead : Nat := 0
  /-- Submission tail from the doorbell (R138). -/
  sqTail : Nat := 0
  /-- Next completion slot to write (R134). -/
  cqTail : Nat := 0
  /-- Completion head from the doorbell (R138). -/
  cqHead : Nat := 0
  /-- Phase tag P of the current pass (R139). -/
  phase : Bool := true
  /-- Completions written and not released by CQH (R139). -/
  unreleased : Nat := 0
  /-- Replay mark (R161). -/
  mark : Nat := 0
  /-- Queue-stop completion due: 0 fetch fault, 1 counter exhausted (R139). -/
  stopDue : Option Nat := none
  /-- DISABLING by a function disable (R134, R148). -/
  byFn : Bool := false
  /-- Carried level-3 allowance, cycles (R195). -/
  drr : Nat := 0
  deriving DecidableEq, Repr

/-- What a lane delivers for a dispatch unit (07). -/
structure UnitResult where
  /-- SEQ of the message (R190). -/
  seq : Nat := 0
  /-- Index of the unit (R191). -/
  unit : Nat := 0
  /-- Status, with the verdicts of tag and rules (R190). -/
  status : Nat := 0
  /-- DETAIL (R190). -/
  detail : Nat := 0
  /-- Output bytes (R190). -/
  out : Bytes := []
  /-- Offset of those bytes in the output (R191). -/
  pos : Nat := 0
  /-- RTAG (R175). -/
  rtag : BitVec 128 := 0
  /-- TSEQ of a record whose tag verified (R161). -/
  tseq : Option Nat := none
  /-- Draw whose DRAW_OPEN check the record passed (R180). -/
  sold : Option Nat := none
  /-- Saved state at the end of a unit that is not the last (R192). -/
  saved : Bytes := []
  deriving DecidableEq, Repr

/-- One entry of a key register file (07). -/
structure LaneKey where
  /-- Hot slot number (R187). -/
  slot : Nat := 0
  /-- Generation under which the key was delivered (R187). -/
  gen : Nat := 0
  /-- Which 256 bits of the hot slot's key it holds (R187). -/
  half : Nat := 0
  /-- The AES-256 key (R187). -/
  key : BitVec 256 := 0
  deriving DecidableEq, Repr

/-- One sealing lane (07). -/
structure Lane where
  /-- State (R198). -/
  st : LaneSt := .off
  /-- The mask generator holds a seed (R186). -/
  seeded : Bool := false
  /-- Mask generator seed (a free value) (R186). -/
  maskSeed : BitVec 256 := 0
  /-- Key register file of 8 entries, most recently used first (R185, R187). -/
  keys : List LaneKey := []
  /-- Output buffers of 128 KiB: the results delivered and not yet released (R185, R190). -/
  out : List UnitResult := []
  /-- I/O isolated from the output stage (R189, R198). -/
  isolated : Bool := false
  /-- Operating seconds of LAGGARD markings naming the lane (R206). -/
  marks : List Nat := []
  /-- Slot the lane is being started for (R200, R208). -/
  forSlot : Option Nat := none
  deriving DecidableEq, Repr

/-- One pair slot (07). -/
structure Slot where
  /-- In service (R188, R198). -/
  inService : Bool := false
  /-- First lane (R188). -/
  l0 : Nat := 0
  /-- Second lane (R188). -/
  l1 : Nat := 0
  /-- Claim number, modulo 2^16 (R189). -/
  claim : Nat := 0
  /-- Free completion credit, cycles (R197). -/
  credit : Nat := 8192
  /-- Marked LAGGARD (R204). -/
  laggard : Bool := false
  /-- Lanes named by the marking (R205). -/
  suspects : List Nat := []
  /-- Spare lanes are starting for it (R202). -/
  rebuilding : Bool := false
  /-- A test rotation drains it (R208). -/
  rotating : Bool := false
  deriving DecidableEq, Repr

/-- A requested lane test in progress (07, 15). -/
structure LaneTest where
  /-- Lanes whose full test it waits for (R209). -/
  lanes : List Nat := []
  /-- A test of it has failed (R418). -/
  failed : Bool := false
  deriving DecidableEq, Repr

/-- Lane scheduling and test rotation (07, 15). -/
structure Sched where
  /-- Next slot of the periodic rotation (R208). -/
  rotation : Nat := 0
  /-- Function at which the level-1 round robin stands (R195). -/
  rrFn : Nat := 0
  /-- Function at which each shard's round robin stands (R144). -/
  rrFetch : List Nat := [0, 0, 0, 0]
  /-- Entries fetched in the current visit of each shard (R144). -/
  fetchRun : List Nat := [0, 0, 0, 0]
  /-- Queue last visited by each shard (R144). -/
  lastQ : List Nat := [0, 0, 0, 0]
  /-- Queues that each shard has passed over in its current visit of a function (R144). -/
  passed : List (List Nat) := [[], [], [], []]
  /-- Operating second of the last periodic lane test (R208). -/
  laneAt : Nat := 0
  /-- Operating second at which counter 3 was last written (R282). -/
  secondsAt : Nat := 0
  /-- Operating second of the last checkpoint (R280). -/
  ckptAt : Option Nat := none
  /-- Operating second at which the patrol scrub last began a period (R328). -/
  scrubAt : Nat := 0
  /-- A periodic test waits for a failover to end (R210). -/
  testPending : Bool := false
  /-- DIAG_SELFTEST waiting for the lanes (R209, R418). -/
  laneTest : Option LaneTest := none
  deriving DecidableEq, Repr

/-- One rule set (06). -/
structure RuleSet where
  /-- RSVER (R177). -/
  ver : Nat := 0
  /-- The body as loaded (R177). -/
  body : Bytes := []
  /-- Epoch from which it governs (0 after a start) (R183). -/
  since : Nat := 0
  deriving DecidableEq, Repr

/-- A leaf waiting at the journal writer, with its detail record (R252). -/
structure Leaf where
  /-- SEQ (R153). -/
  seq : Nat := 0
  /-- 48-byte outcome descriptor (R175). -/
  desc : Bytes := []
  /-- Leaf (R175). -/
  leaf : BitVec 128 := 0
  deriving DecidableEq, Repr

/-- One journal entry in the ring (09). -/
structure Entry where
  /-- The entry, header included (R256). -/
  bytes : Bytes := []
  /-- Lowest SEQ it covers (R256, R276). -/
  first : Nat := 0
  /-- Highest SEQ it covers (R256). -/
  last : Nat := 0
  /-- PSEQ of the page that holds its first byte (R253). -/
  page : Nat := 0
  /-- PSEQ of the page that holds its last byte (R253). -/
  pageEnd : Nat := 0
  deriving DecidableEq, Repr

/-- The export segment held (09). -/
structure Segment where
  /-- SEG_NO (R272). -/
  no : Nat := 0
  /-- The segment with its signatures (R272). -/
  bytes : Bytes := []
  /-- FIRST_SEQ (R272). -/
  first : Nat := 0
  /-- LAST_SEQ (R272). -/
  last : Nat := 0
  /-- Entries it covers, from the oldest retained (R274). -/
  nEntries : Nat := 0
  /-- Number of its first entry since the chain began (R272, R274). -/
  pos : Nat := 0
  /-- SEG_DIGEST (R273). -/
  digest : BitVec 384 := 0
  deriving DecidableEq, Repr

/-- Journal control record (R280). -/
structure JCtl where
  /-- The journal has been initialised (R261, R280). -/
  init : Bool := false
  /-- Checkpoint: number of the entry it stands before (R280). -/
  ckPos : Nat := 0
  /-- Checkpoint: PSEQ (R280). -/
  ckPseq : Nat := 0
  /-- Checkpoint: chain value before that entry (R280). -/
  ckChain : BitVec 384 := 0
  /-- Reclaim point: PSEQ of the oldest retained page (R274). -/
  reclaimed : Nat := 0
  /-- Chain value before the oldest retained entry (R261, R272, R280). -/
  oldChain : BitVec 384 := 0
  deriving DecidableEq, Repr

/-- A page of the journal ring (R253, R255). -/
structure Page where
  /-- Its 256 bytes: payload, PSEQ and CRC-32 (R253). -/
  bytes : Bytes := []
  /-- Words that read uncorrectable (R255). -/
  bad : List Nat := []
  /-- Number of the page of which it holds data written last (R253, R280). -/
  no : Nat := 0
  deriving DecidableEq, Repr

/-- Tail header and tail area (R250, R279). -/
structure Tail where
  /-- The header seals (R279). -/
  valid : Bool := false
  /-- Boot epoch of the cycle that flushed (R279). -/
  bootEpoch : Nat := 0
  /-- Power-cycle count of that cycle (R279). -/
  pwr : Nat := 0
  /-- PSEQ of the last ring page written (R279). -/
  pseq : Nat := 0
  /-- HIGHEST_SEQ (R279). -/
  highest : Nat := 0
  /-- Lowest SEQ of the detail carried (R279). -/
  lo : Nat := 0
  /-- Highest SEQ of the detail carried (R279). -/
  hi : Nat := 0
  /-- Highest SEQ of the cycle whose detail the detail area no longer held, 0 where it held all (R276, R279). -/
  gap : Nat := 0
  /-- Detail records carried (R250, R279). -/
  detail : List Leaf := []
  deriving DecidableEq, Repr

/-- Volatile journal state (09). -/
structure Journal where
  /-- Next record sequence number (R262). -/
  nextSeq : Nat := 1
  /-- Chain head (R261). -/
  chain : BitVec 384 := 0
  /-- Leaves of the open batch, in SEQ order (R259). -/
  batch : List Leaf := []
  /-- Leaves released and not yet at the in-order point (R263). -/
  waiting : List Leaf := []
  /-- The in-order point: lowest SEQ without its leaf or entry (R263). -/
  inOrder : Nat := 1
  /-- SEQs of standalone entries at or above the in-order point (R260, R263). -/
  standalone : List Nat := []
  /-- The pending ring area, frames 0 to 62: bytes placed after the last sealed page, padding included (R251, R253, R263). -/
  pending : Bytes := []
  /-- Entries in the pending ring area (R251, R264). -/
  unsealed : List Entry := []
  /-- DURABLE_SEQ (R119, R264). -/
  durable : Nat := 0
  /-- SEQ ranges of the cycle covered by DURABLE entries above DURABLE_SEQ (R264). -/
  covered : List (Nat × Nat) := []
  /-- HIGHEST_SEQ (R275). -/
  highest : Nat := 0
  /-- Detail staging, oldest first (R271). -/
  staging : List Leaf := []
  /-- Detail recovered from the tail area (R279, R280). -/
  recovered : List Leaf := []
  /-- The tail header was valid at this start (R276, R279). -/
  recValid : Bool := false
  /-- Lowest SEQ of the recovered range (R276). -/
  recLo : Nat := 0
  /-- Highest SEQ of the cycle before whose detail was not carried (R276). -/
  recGap : Nat := 0
  /-- First SEQ of this cycle (R262, R276). -/
  cycleFirst : Nat := 0
  /-- SEQs whose detail was lost (DETAIL_LOST) (R276, R326). -/
  lost : List Nat := []
  /-- Highest SEQ whose detail staging was overwritten (R271, R276). -/
  overwritten : Nat := 0
  /-- The held segment (R272). -/
  seg : Option Segment := none
  /-- Segments built in this cycle (R272). -/
  segNo : Nat := 0
  /-- LAST_SEQ of the latest segment of this cycle (R275). -/
  exported : Nat := 0
  /-- Entry number after the last segment of this cycle (R273). -/
  exportPos : Option Nat := none
  /-- JFILL level last reported, 0 to 3 (R119, R270). -/
  fill : Nat := 0
  /-- Entries held until START has its SEQ: (TYPE, WORDS, body) (R82). -/
  held : List (Nat × Nat × Bytes) := []
  /-- The reserve point has been reached (R446). -/
  seqOut : Bool := false
  deriving DecidableEq, Repr

/-- One copy of a hardware counter: W cells of 8 bytes (R281). -/
structure CtrCopy where
  /-- The largest value among its cells that read, none when no cell reads (R281). -/
  value : Option Nat := some 0
  /-- The cell that was written last (R281). -/
  pos : Nat := 0
  /-- What every cell that is not listed holds, none when uncorrectable (R281). -/
  base : Option Nat := some 0
  /-- Cells written since all held the same, none when uncorrectable (R281). -/
  cells : Tab (Option Nat) := []
  deriving DecidableEq, Repr

/-- One hardware counter (09). -/
structure Counter where
  /-- Copy 0 (R281). -/
  c0 : CtrCopy := {}
  /-- Copy 1 (R281). -/
  c1 : CtrCopy := {}
  /-- Copy 2 (R281). -/
  c2 : CtrCopy := {}
  /-- Value in SRAM (R282). -/
  live : Nat := 0
  /-- LOST (R283). -/
  lost : Bool := false
  /-- A split was resolved since the start (R285). -/
  split : Bool := false
  /-- Splits since the start (R285). -/
  splits : Nat := 0
  /-- Writes made to its MRAM copies (R282). -/
  writes : Nat := 0
  /-- Operating second of the last write (R440). -/
  wrote : Nat := 0
  deriving DecidableEq, Repr

/-- One draw of the draw table (08). -/
structure Draw where
  /-- DRAW_ID (R223). -/
  id : BitVec 32 := 0
  /-- State (R226). -/
  st : DrawSt := .defining
  /-- Parameter block received (R223). -/
  params : Bytes := []
  /-- Handle of the DRAW key (R227). -/
  sigkey : BitVec 32 := 0
  /-- Handle of the journal key of an instant batch (R227). -/
  jkey : BitVec 32 := 0
  /-- Operating second of the last chunk (R226). -/
  opsec : Nat := 0
  /-- Close epoch, 0 when none (R228). -/
  closeEpoch : Nat := 0
  /-- The CLOSING in progress carries CANCEL (R228). -/
  closing : Bool := false
  /-- State before CLOSING (R226, R234). -/
  closeFrom : DrawSt := .opened
  /-- Records sold (R228). -/
  sold : Nat := 0
  /-- Seed record: wrapped SEED and tag (R231). -/
  seed : AB (Bytes × BitVec 128) := ⟨.blank, .blank⟩
  /-- COMMIT (R231). -/
  commit : BitVec 384 := 0
  /-- CLOSE_SEQ (R228). -/
  closeSeq : Nat := 0
  /-- COMMIT_SEQ (R231). -/
  commitSeq : Nat := 0
  /-- RESULT_SEQ (R231). -/
  resultSeq : Nat := 0
  /-- SEQ of its last journal entry (R225). -/
  lastSeq : Nat := 0
  /-- OPSEC_COMMIT (R240). -/
  opsecCommit : Nat := 0
  /-- RESULT_DIGEST (R231). -/
  resultDigest : BitVec 384 := 0
  /-- Result array held in DRAM (R242, R243). -/
  results : Option (List (BitVec 32)) := none
  /-- Next outcome index to assign (R244). -/
  nextIdx : Nat := 0
  /-- Hardware counter that holds its reservation mark (R244, R282). -/
  ctr : Option Nat := none
  /-- ISSUED (R240, R282). -/
  issued : Nat := 0
  /-- The certificate as signed in this cycle (R240, R241). -/
  cert : Option Bytes := none
  deriving DecidableEq, Repr

/-- One noise bank (08). -/
structure Bank where
  /-- State (R216). -/
  st : BankSt := .off
  /-- Operating seconds of its entries into SUSPENDED (R217, R222). -/
  entries : List Nat := []
  /-- B of the last calibration, 0.001 bit (R222). -/
  bound : Nat := 0
  /-- Credited with 0.3 bit per sample (R28, R222). -/
  credited : Bool := false
  /-- Consecutive calibrations with B below 0.450 (R217). -/
  low : Nat := 0
  /-- The start-up test has failed once (R214). -/
  retry : Bool := false
  /-- STREAM_FAIL (R222). -/
  streams : BitVec 32 := 0
  /-- CAL_OPSEC (R222). -/
  calOpsec : Nat := 0
  /-- CAL_TEMP (R222). -/
  calTemp : Nat := 0
  /-- BLOCKS (R222). -/
  blocks : Nat := 0
  /-- Operating second at which it was suspended (R216). -/
  suspOpsec : Nat := 0
  /-- A calibration is deferred (R215). -/
  deferred : Bool := false
  /-- Its start-up test has passed and its calibration waits for that of another bank (R214, R215). -/
  ready : Bool := false
  /-- Raw samples of the block that the conditioner holds back until the 1,024 samples after it have passed (R213, R219). -/
  heldRaw : Option (BitVec 1024) := none
  /-- DIAG_SELFTEST waits for its calibration (R221). -/
  wantCal : Bool := false
  deriving DecidableEq, Repr

/-- Conditioner, DRBG and draw sequencing (08). -/
structure Larkspur where
  /-- Conditioner in service (R222). -/
  condOn : Bool := false
  /-- DRBG and sampler in service (R222, R239). -/
  drbgOn : Bool := false
  /-- Bank whose turn in the periodic calibration comes next (R215). -/
  calTurn : Nat := 0
  /-- Runs that wait for banks: DRAW_ID, opcode, comparisons that will differ (R221, R233, R249). -/
  runWait : List (Nat × Nat × Nat) := []
  /-- Bank that gives the next conditioned block (R220). -/
  turn : Nat := 0
  deriving DecidableEq, Repr

/-- Contents of a persistent key record (R296). -/
structure KeyRec where
  /-- KIND (R289). -/
  kind : Nat := 0
  /-- KFLAGS (R296). -/
  flags : Nat := 0
  /-- KEY_ID (R294). -/
  keyId : BitVec 32 := 0
  /-- GEN (R296). -/
  gen : Nat := 0
  /-- PARENT index (R296). -/
  parent : Nat := 0
  /-- USERS (R296). -/
  users : BitVec 16 := 0
  /-- PARENT_GEN (R296). -/
  parentGen : Nat := 0
  /-- OWNER (R296). -/
  owner : Nat := 0
  /-- CREATE_SEQ (R296). -/
  createSeq : Nat := 0
  /-- WRAP_IV (R296). -/
  iv : BitVec 96 := 0
  /-- SECRET ciphertext, 64 bytes (R296). -/
  secret : Bytes := []
  /-- TAG (R296). -/
  tag : BitVec 128 := 0
  deriving DecidableEq, Repr

/-- One session record (R298). -/
structure SessRec where
  /-- The record exists (R298). -/
  live : Bool := false
  /-- SFLAGS.TEST (R298). -/
  test : Bool := false
  /-- Queue it is bound to (R298). -/
  bound : Option Nat := none
  /-- OWNER (R298). -/
  owner : Nat := 0
  /-- KEY_ID (R298). -/
  keyId : BitVec 32 := 0
  /-- PARENT index (R298). -/
  parent : Nat := 0
  /-- CCOUNT (R298). -/
  ccount : Nat := 0
  /-- PARENT_GEN (R298). -/
  parentGen : Nat := 0
  /-- IV (R298). -/
  iv : BitVec 96 := 0
  /-- SECRET ciphertext, 32 bytes (R298). -/
  secret : Bytes := []
  /-- TAG (R298). -/
  tag : BitVec 128 := 0
  deriving DecidableEq, Repr

/-- One hot slot (10). -/
structure HotSlot where
  /-- Slot number, 0 to 4,095 (R306). -/
  no : Nat := 0
  /-- Handle (R306). -/
  handle : BitVec 32 := 0
  /-- Which 256 bits of the key it holds: an XTS key and a JOURNAL key take two slots (R306). -/
  part : Nat := 0
  /-- Indexes of the key's chain with their generations (R306). -/
  chain : List (Nat × Nat) := []
  /-- 256 bits of unwrapped key (R306). -/
  key : BitVec 256 := 0
  deriving DecidableEq, Repr

/-- Volatile key-store state (10). -/
structure Keys where
  /-- Root in force, test root included (R288, R317). -/
  root : Option (BitVec 512) := none
  /-- Root slot in use: 0, 1 or 0xFF (R320, R365). -/
  rootSlot : Nat := 255
  /-- The test root is in force (R119, R317). -/
  testRoot : Bool := false
  /-- An invasive right has brought the test root into force (R317, R367). -/
  forcedTest : Bool := false
  /-- Session table by session index (R298). -/
  sess : Tab SessRec := []
  /-- Session-table wrap key (a free value) (R298). -/
  sessWrap : BitVec 256 := 0
  /-- Saved-state wrap key (a free value) (R192). -/
  saveWrap : BitVec 256 := 0
  /-- The two wrap keys have been drawn (R192, R298). -/
  wrapSet : Bool := false
  /-- The hot slots in use, most recently used first (R306). -/
  hot : List HotSlot := []
  /-- The outstanding challenge and the operating second it was drawn (R360). -/
  challenge : Option (BitVec 256 × Nat) := none
  /-- Indexes whose key record is unusable (R300). -/
  unusable : List Nat := []
  /-- Indexes whose generation record is unusable (R300). -/
  genUnusable : List Nat := []
  /-- A PKE core's private-key registers hold a key (R309). -/
  pkeKey : List Bool := [false, false]
  deriving DecidableEq, Repr

/-- One PKE core. -/
structure Pke where
  /-- In service (R127, R378). -/
  inService : Bool := false
  /-- Operating seconds of its T2 inputs (R378). -/
  times : List Nat := []
  /-- Out until the next start (R378). -/
  out : Bool := false
  /-- Its domain is on (R48). -/
  on : Bool := false
  /-- Its known-answer tests run (R378, R418). -/
  testing : Bool := false
  deriving DecidableEq, Repr

/-- One gate entry (R334). -/
structure GEntry where
  /-- START (R334). -/
  start : BitVec 64 := 0
  /-- END (R334). -/
  fin : BitVec 64 := 0
  /-- RIGHTS (R334). -/
  rights : BitVec 16 := 0
  /-- COLOURS (R334). -/
  colours : BitVec 16 := 0
  /-- EFLAGS: [0] VALID, [1] SPACE, [2] LOCK (R334). -/
  eflags : BitVec 16 := 0
  deriving DecidableEq, Repr

/-- One access gate (11). -/
structure Gate where
  /-- Its entries (R334, R335). -/
  ents : Tab GEntry := []
  /-- Reporting mode (R339). -/
  firstOnly : Bool := false
  /-- The mode is locked (R340, R343). -/
  mlock : Bool := false
  /-- Fault records, oldest first (R339). -/
  recs : List Bytes := []
  /-- LOST (R339). -/
  lost : Nat := 0
  deriving DecidableEq, Repr

/-- The gates before a start has loaded them: no valid entry (R33, R338). -/
def Gate.resetAll : List Gate := List.replicate 21 {}

/-- One DRAM line (R323). -/
structure Line where
  /-- 64 bytes of data (R332). -/
  data : Bytes := List.replicate 64 0
  /-- Colour tag (R323, R332). -/
  colour : BitVec 4 := 0
  /-- It reads uncorrectable (R325). -/
  bad : Bool := false
  deriving DecidableEq, Repr

/-- The keys of the memory engines (11). -/
structure Engine where
  /-- XTS-AES-256 key (a free value) (R324). -/
  xts : BitVec 512 := 0
  /-- Key of the line MAC (a free value) (R324). -/
  mac : BitVec 256 := 0
  /-- The keys have been drawn (R324). -/
  set : Bool := false
  deriving DecidableEq, Repr

/-- A debug certificate in force (R366). -/
structure Cert where
  /-- RIGHTS (R367). -/
  rights : BitVec 32 := 0
  /-- OPSEC_LAST (R366). -/
  opsecLast : Nat := 0
  /-- SERIAL (R366). -/
  serial : BitVec 64 := 0
  deriving DecidableEq, Repr

/-- Debug and TAP (12). -/
structure Dbg where
  /-- Certificate in force (R369). -/
  cert : Option Cert := none
  /-- TAP instruction register (IDCODE after Test-Logic-Reset) (R370). -/
  ir : BitVec 8 := 1
  /-- DBG_STATUS.GATE_ERR (R370). -/
  gateErr : Bool := false
  /-- DBG_STATUS.RIGHT_ERR (R370). -/
  rightErr : Bool := false
  /-- DBG_STATUS.HALTED (R370). -/
  halted : Bool := false
  /-- DBG_STATUS.LOAD_RESULT (R370). -/
  loadResult : BitVec 4 := 0
  /-- Boundary-scan cells preloaded (R370). -/
  bscan : BitVec 128 := 0
  /-- Values written to Aster core registers under DBG_HALT (R367). -/
  coreRegs : Tab (BitVec 64) := []
  /-- A scan chain was selected: sealing stops until reset (R367). -/
  sealStop : Bool := false
  deriving DecidableEq, Repr

/-- Tamper response logic (13). -/
structure Tamper where
  /-- A response of class T3 or higher is in force (R379, R381). -/
  t3 : Bool := false
  /-- The flush and burns of T4 end with a reset (R382). -/
  t4Due : Bool := false
  /-- Units with a counting input in the current 1 ms window: (kind, index) (R377). -/
  window : List (Nat × Nat) := []
  /-- Operating second of the latest counting input (R377). -/
  windowAt : Nat := 0
  /-- PD00 latch: (sensor code, unit index, power-cycle count) (R384). -/
  latch : List (Nat × Nat × Nat) := []
  /-- Sensor arrays A and B out of service (R375). -/
  arrayOut : List Bool := [false, false]
  /-- Operating seconds at which power was lost (R384, R409). -/
  offOpsec : Nat := 0
  deriving DecidableEq, Repr

/-- One digest unit (14). -/
structure Dgu where
  /-- DG_CTRL.ALG (R404). -/
  alg : BitVec 2 := 1
  /-- Algorithm of the digest that has begun (R404, R406). -/
  algRun : BitVec 2 := 1
  /-- Whole blocks compressed since the digest began, as message bytes (R404, R405). -/
  msg : Bytes := []
  /-- Bytes buffered (R405). -/
  buf : Bytes := []
  /-- DG_STATUS.DONE (R404). -/
  done : Bool := false
  /-- DG_STATUS.OVERRUN (R404). -/
  overrun : Bool := false
  /-- DG_STATUS.PARTIAL (R404). -/
  part : Bool := false
  /-- DG_STATUS.DENIED (R404). -/
  denied : Bool := false
  /-- DG_STATUS.WITHDRAWN (R404, R407). -/
  withdrawn : Bool := false
  /-- DG_BLOCKS.COUNT (R404). -/
  count : Nat := 0
  /-- DG_BLOCKS.RUN (R404). -/
  run : Nat := 0
  /-- DG_OWN.OWNER (R404, R407). -/
  owner : DgOwner := .free
  /-- High word latched by a port read of a low word (R404). -/
  latch : BitVec 16 := 0
  /-- Byte offset of the register whose high word is latched (R404). -/
  latchOf : Nat := 0
  /-- In service (R32, R127). -/
  inService : Bool := false
  /-- A digest has begun (R404). -/
  running : Bool := false
  deriving DecidableEq, Repr

/-- Meter port and meter store mirror (14). -/
structure Meter where
  /-- SRAM mirror, by byte address 2 x (128 p + w) + b (R388, R392). -/
  mirror : Memory := []
  /-- Dirty pages, dirty longest first (R20, R392). -/
  dirty : List Nat := []
  /-- Page of the open group (R394). -/
  group : Option Nat := none
  /-- Bytes the open group has written, each masked (R394). -/
  shadow : Memory := []
  /-- Byte addresses the open group has touched (R394). -/
  shadowMask : List Nat := []
  /-- MP_GROUP.PAGE (R394). -/
  page : BitVec 10 := 0
  /-- MP_STATUS.TORN (R393). -/
  torn : Bool := false
  /-- MP_STATUS.LOCKED (R396). -/
  locked : Bool := false
  /-- LEVEL in force (R395). -/
  level : Nat := 0
  /-- HIDE in force (R395). -/
  hide : Nat := 0
  /-- MP_STATUS.GROUP_LOST (R394). -/
  groupLost : Bool := false
  /-- MP_STATUS.GATE_FAULT (R388). -/
  gateFault : Bool := false
  /-- MP_STATUS.INC_DROP (R398). -/
  incDrop : Bool := false
  /-- MP_STATUS.BE_ERR (R398). -/
  beErr : Bool := false
  /-- Counter of the last word-0 read (R397). -/
  winOf : Nat := 0
  /-- Latched counter value (R397). -/
  winVal : Nat := 0
  /-- Latched LOST (R397). -/
  winLost : Bool := false
  /-- TV_REF_LO (R399). -/
  tvLo : BitVec 16 := 0
  /-- TV_REF_HI (R399). -/
  tvHi : BitVec 16 := 0
  /-- TV_LEN (R399). -/
  tvLen : BitVec 16 := 0
  /-- TV_FAILS (R399). -/
  tvFails : Nat := 0
  /-- TV_CAND0 to TV_CAND15 (R399). -/
  tvCand : List (BitVec 16) := List.replicate 16 0
  /-- A forced write of the oldest dirty counter is running (R398). -/
  forcedBusy : Bool := false
  deriving DecidableEq, Repr

/-- One event record (R408, R414). -/
structure Evt where
  /-- CODE (R408). -/
  code : Nat := 0
  /-- Severity (R408). -/
  sev : Nat := 0
  /-- LATCH (R408). -/
  latch : Bool := false
  /-- UNPOWERED (R408). -/
  unp : Bool := false
  /-- ARG (R408). -/
  arg : Nat := 0
  /-- ARGX of its extension, empty when none (R408). -/
  ext : Bytes := []
  /-- OPSEC (R408). -/
  opsec : Nat := 0
  /-- PWR_CYCLES (R408). -/
  pwr : Nat := 0
  deriving DecidableEq, Repr

/-- A 16-byte record of the event area or buffer. -/
structure EvRec where
  /-- Event number (R409). -/
  evn : Nat := 0
  /-- The record (R408). -/
  bytes : Bytes := []
  deriving DecidableEq, Repr

/-- Event control record (R411). -/
structure EvCtl where
  /-- EVN of the first record of the power cycle (R411). -/
  firstEvn : Nat := 0
  /-- Floor stamp: PWR_CYCLES (R411). -/
  floorPwr : Nat := 0
  /-- Floor stamp: OPSEC (R411). -/
  floorOpsec : Nat := 0
  /-- Clear mark (R411). -/
  clear : Nat := 0
  deriving DecidableEq, Repr

/-- Event recorder (15). -/
structure Events where
  /-- Next EVN (R409). -/
  nextEvn : Nat := 0
  /-- Records not yet in MRAM (R410). -/
  buf : List EvRec := []
  /-- Tokens taken from each code's bucket, in 1/60 tokens (R413). -/
  tokens : Tab Nat := []
  /-- Suppressed count of each code (R413). -/
  supp : Tab Nat := []
  /-- Operating second at which suppression of each code began (R413). -/
  suppAt : Tab Nat := []
  /-- Clear mark (R411). -/
  clear : Nat := 0
  /-- EVNs of latched records (R417). -/
  latched : List Nat := []
  /-- Events raised before step 5 of R65 (R409). -/
  preHeld : List Evt := []
  deriving DecidableEq, Repr

/-- Schedules (R419) and error counts (R420). -/
structure Diag where
  /-- LANE_PERIOD (R419). -/
  lanePer : Nat := 600
  /-- CAL_PERIOD (R419). -/
  calPer : Nat := 3600
  /-- SCRUB_PERIOD (R419). -/
  scrubPer : Nat := 3600
  /-- RATE (R419). -/
  rate : Nat := 16
  deriving DecidableEq, Repr

/-- Error counts (R420). -/
structure Health where
  /-- DRAM symbols corrected since the start (R420). -/
  dramCorr : Nat := 0
  /-- DRAM lines uncorrectable since the start (R420). -/
  dramBad : Nat := 0
  /-- MRAM words corrected since the start (R420). -/
  mramCorr : Nat := 0
  /-- Operating seconds of uncorrectable lines (R327). -/
  badTimes : List Nat := []
  deriving DecidableEq, Repr

/-- Performance monitors (15). -/
structure Pmon where
  /-- PMON_CTRL.FREEZE (R421). -/
  freeze : Bool := false
  /-- PMON_OVF.OVF (R421). -/
  ovf : BitVec 16 := 0
  /-- PMON_SEL (R421). -/
  sel : List (BitVec 32) := List.replicate 16 0
  /-- PMON_CNT (R421). -/
  cnt : List Nat := List.replicate 16 0
  /-- High half latched by a 32-bit read of a low half (R421). -/
  latch : BitVec 32 := 0
  /-- Counter whose high half is latched; 16 for none (R421). -/
  latchOf : Nat := 16
  deriving DecidableEq, Repr

/-- Quad-SPI target (04). -/
structure Spi where
  /-- Completions waiting: entry and output (R117). -/
  compl : List (Bytes × Bytes) := []
  /-- The oldest has been returned by RD_COMPL (R117). -/
  shown : Bool := false
  /-- CRC_ERR (R115). -/
  crcErr : Bool := false
  /-- Mailbox 63 response, RESP_READY (R115). -/
  resp : Option Bytes := none
  /-- Ingress bytes in use by SPI queues (R115, R142). -/
  used : Nat := 0
  deriving DecidableEq, Repr

/-- A command that waits for an event before it responds. -/
structure Waiter where
  /-- The request (R123). -/
  req : Req := Req.blank
  /-- Its opcode (R125). -/
  op : Nat := 0
  /-- Object it waits for: queue index, DRAW_ID, epoch, SEQ or function (R124). -/
  obj : Nat := 0
  /-- Body it will carry (R183). -/
  body : Bytes := []
  /-- Its function has been reset: its response is discarded (R106). -/
  orphan : Bool := false
  deriving DecidableEq, Repr

/-- What a flush finds in the MRAM areas that it writes (R278). -/
structure PreFlush where
  /-- Journal ring pages (step 3) (R278). -/
  pages : Tab Page := []
  /-- Number of the last sealed page (step 3) (R278). -/
  lastPseq : Nat := 0
  /-- Hardware counters (step 4) (R278). -/
  ctrs : Tab Counter := []
  /-- Meter store (step 5) (R278). -/
  meter : Memory := []
  /-- Write counts of the meter pages (step 5) (R278). -/
  meterCnt : Tab Nat := []
  /-- Event area (step 6) (R278). -/
  evArea : Tab EvRec := []
  /-- Tail area (steps 7 and 8) (R278). -/
  tail : Tail := {}
  deriving DecidableEq, Repr

/-- Contents of the MRAM (01, 03, 06, 08, 09, 10, 14, 15). -/
structure Nv where
  /-- Boot selector record (R74). -/
  bootSel : AB BootSel := ⟨.blank, .blank⟩
  /-- Firmware slot A (R74). -/
  fwA : Memory := []
  /-- Firmware slot B (R74). -/
  fwB : Memory := []
  /-- Retained entries of the journal ring, oldest first (R250). -/
  ring : List Entry := []
  /-- Pages of the journal ring by place (R250, R253). -/
  pages : Tab Page := []
  /-- What the flush of the last cycle found in MRAM, by which a cut flush is told at the next start (R255, R278). -/
  preFlush : Option PreFlush := none
  /-- Operating second at which the retained data were last refreshed (R440). -/
  refreshAt : Nat := 0
  /-- Number of the last page sealed; its PSEQ is this modulo 2^32 (R253). -/
  lastPseq : Nat := 0
  /-- PSEQ of the oldest retained page, less one (R274). -/
  oldestPseq : Nat := 0
  /-- Number of the first retained entry since the chain began (R280). -/
  entryNo : Nat := 0
  /-- Journal control record (R280). -/
  jctl : AB JCtl := ⟨.blank, .blank⟩
  /-- Tail header and tail area (R250, R279). -/
  tail : Tail := {}
  /-- Hardware counters (R281). -/
  ctrs : Tab Counter := []
  /-- The counters have been written (R262). -/
  ctrInit : Bool := false
  /-- Persistent key records (R295). -/
  keyRecs : Tab (AB KeyRec) := []
  /-- Generation records (R295). -/
  genRecs : Tab (AB Nat) := []
  /-- Session creation counts (R292, R295). -/
  sessCnt : Tab Nat := []
  /-- Rule sets (R177). -/
  ruleSets : Tab RuleSet := []
  /-- Draw table (R225). -/
  draws : List Draw := []
  /-- Meter store pages (R392). -/
  meter : Memory := []
  /-- Write count of each meter page (R392). -/
  meterCnt : Tab Nat := []
  /-- Life-cycle state of the last start, from which entry to PROVISION is seen (R353). -/
  lastLc : Lc := .raw
  /-- LEVEL and HIDE (R396). -/
  meterProt : AB (Nat × Nat) := ⟨.blank, .blank⟩
  /-- Event area by slot (R409). -/
  evArea : Tab EvRec := []
  /-- Event control record (R411). -/
  evCtl : AB EvCtl := ⟨.blank, .blank⟩
  /-- Schedules (R419). -/
  diag : AB Diag := ⟨.blank, .blank⟩
  /-- Digest of the root at the last START entry, from which a change of root is seen (R314). -/
  rootDigest : BitVec 384 := 0
  deriving DecidableEq, Repr

/-- The OTP words that the test equipment has burnt before the unit first starts in RAW: trims, unit ID, VENDOR key digest
(R356; notes/assumptions/14.md). -/
def otpAtReset : Tab (BitVec 64) :=
  (List.range 16).map (fun i => (i, Config.trim i))
    ++ [(16, Config.unitId.setWidth 64), (17, (Config.unitId >>> 64).setWidth 64), (18, Config.unitCheck)]
    ++ (List.range 6).map (fun i => (19 + i, BitVec.ofNat 64 (leVal (slice (h384 Config.vendorDigest) (8 * i) 8))))
    ++ [(25, BitVec.ofNat 64 (leVal ((h384 (sha384 (h384 Config.vendorDigest))).take 8)))]

/-- The whole machine. -/
structure State where
  /-- Commands that wait, first in first out (host: queue). -/
  pending : List Instr := []
  /-- Supplies, pins, capacitor, power domains (02). -/
  pwr : Power := {}
  /-- Firmware slots as judged in this power cycle (03). -/
  boot : Boot := {}
  /-- Operating seconds, 40 bits (R46, R119). -/
  opsec : Nat := 0
  /-- Power-cycle count, 32 bits (R46, R119). -/
  pwrCyc : Nat := 0
  /-- Boot epoch, 24 bits (R119, R154). -/
  bootEpoch : Nat := 0
  /-- The boot epoch was exhausted at this start (R70). -/
  epochOut : Bool := false
  /-- Life-cycle state or condition (R348). -/
  lc : Lc := .raw
  /-- The state beneath LOST or TAMPERED (R349). -/
  beneath : Lc := .raw
  /-- OTP words; an unlisted word is not burnt (R356). -/
  otp : Tab (BitVec 64) := otpAtReset
  /-- MRAM (R250, R295, R322). -/
  nv : Nv := {}
  /-- Host link (04). -/
  link : Link := {}
  /-- PF0 and VF1 to VF15 (R93, R131). -/
  fns : List Fn := Fn.resetAll
  /-- MSI-X vectors by 2048 x function + number (R102, R103). -/
  vecs : Tab Vec := []
  /-- Mailboxes by 64 x function + number (R121). -/
  mbxs : Tab Mbx := []
  /-- Queue indexes; an unlisted index is FREE (R134). -/
  queues : Tab Queue := []
  /-- Queue contexts in the eight context cache banks, by queue index (R11, R16). -/
  cache : List (List Nat) := List.replicate 8 []
  /-- Next nonce counter value of each queue index (R133). -/
  nonces : Tab Nat := []
  /-- Entries fetched and not completed, in fetch order (R139, R140). -/
  work : List Work := []
  /-- Lanes L0 to L7 (R185). -/
  lanes : List Lane := List.replicate 8 {}
  /-- Pair slots P0 to P2 (R188). -/
  slots : List Slot := List.replicate 3 {}
  /-- Scheduling (R195, R208). -/
  sched : Sched := {}
  /-- Epochs of rule-set loads that wait for earlier ACCEPTs (R183, R229). -/
  drains : List Nat := []
  /-- Versions replaced, for operations issued earlier: (RSID, set) (R183). -/
  oldRules : List (Nat × RuleSet) := []
  /-- Journal (09). -/
  jrn : Journal := {}
  /-- Dirty VOTE counters, dirty longest first (R282). -/
  dirtyCtrs : List Nat := []
  /-- Noise banks NB0 to NB2 (R211). -/
  banks : List Bank := List.replicate 3 {}
  /-- Conditioner, DRBG, sampler (08). -/
  lark : Larkspur := {}
  /-- Key store (10). -/
  keys : Keys := {}
  /-- PKE cores (R30). -/
  pkes : List Pke := List.replicate 2 {}
  /-- Gates by the ID of R341 (R12, R341). -/
  gates : List Gate := Gate.resetAll
  /-- The epoch (R344). -/
  epoch : Nat := 1
  /-- Memory-engine keys (R324). -/
  engine : Engine := {}
  /-- DRAM lines by line number; an unlisted line is as a sweep leaves it (R323, R332). -/
  dram : Tab Line := []
  /-- Debug and TAP (12). -/
  dbg : Dbg := {}
  /-- A transition's last burn has ended and its reset is due (R352). -/
  lcResetDue : Bool := false
  /-- Tamper response (13). -/
  tamper : Tamper := {}
  /-- Meter port (14). -/
  meter : Meter := {}
  /-- DGU0 (R404). -/
  dgu0 : Dgu := {}
  /-- DGU1 (R404). -/
  dgu1 : Dgu := {}
  /-- Event recorder (15). -/
  ev : Events := {}
  /-- Schedules in force (R419). -/
  diag : Diag := {}
  /-- Error counts (R420). -/
  health : Health := {}
  /-- Performance monitors (15). -/
  pmon : Pmon := {}
  /-- SPI target (04). -/
  spi : Spi := {}
  /-- Commands that wait before they respond (R124). -/
  waiters : List Waiter := []
  /-- Mailbox requests held until mailbox ready (R66). -/
  held : List Instr := []
  /-- What has crossed the boundary outwards, newest last (R14). -/
  out : List Out := []
  /-- Draws made from the free values. -/
  free : Nat := 0
  deriving DecidableEq, Repr

/-- The unit right after reset: power good, the reset pins released, a start due (notes/assumptions/1.md), every register
at the value the rules or notes/assumptions/2.md name, nothing in memory, no command waiting. -/
def State.reset : State := {}

end Sys2Proof.Machine
end

