-- ==== Sys2Proof/Machine/GateBase.lean ====
section
/-! DEFINITION. How an access gate judges an access (R333 to R337, R341). Nothing here changes the state. -/

namespace Sys2Proof.Machine

/-- An access that a gate judges (R336). -/
structure Acc where
  /-- Host space. -/
  host : Bool
  /-- Its first byte. -/
  first : Nat
  /-- Its last byte. -/
  last : Nat
  /-- 0 read, 1 write, 2 fetch (R339). -/
  kind : Nat
  /-- 0 P-user, 1 P-service, 2 P-monitor (R339). -/
  level : Nat
  /-- Access colour (R329). -/
  colour : Nat
  deriving DecidableEq, Repr

/-- Gates that check by colour match: the queue DMA gates and the lane gates (R333). -/
def colourGate (g : Nat) : Bool := g < 4 || (8 ≤ g && g < 16)

/-- VALID (R334). -/
def GEntry.valid (e : GEntry) : Bool := e.eflags.getLsbD 0
/-- SPACE is host space (R334). -/
def GEntry.host (e : GEntry) : Bool := e.eflags.getLsbD 1
/-- LOCK (R334). -/
def GEntry.lock (e : GEntry) : Bool := e.eflags.getLsbD 2
/-- The last byte an entry covers (R334). -/
def GEntry.last (e : GEntry) : Nat := e.fin.toNat + 31

/-- The access touches the entry (R336). -/
def GEntry.hit (a : Acc) (e : GEntry) : Bool :=
  e.valid && e.host == a.host && e.start.toNat ≤ a.last && a.first ≤ e.last

/-- The entry holds the whole access (R336). -/
def GEntry.holds (a : Acc) (e : GEntry) : Bool := e.start.toNat ≤ a.first && a.last ≤ e.last

/-- The entry grants the kind of access: by R and W on a colour-match gate, by RWX of the level elsewhere (R334). -/
def GEntry.grants (g : Nat) (a : Acc) (e : GEntry) : Bool :=
  e.rights.getLsbD (if colourGate g then a.kind else 3 * a.level + a.kind)

/-- Fault kinds (R337). -/
abbrev kNoMatch : Nat := 1
abbrev kOverlap : Nat := 2
abbrev kRights : Nat := 3
abbrev kColourGate : Nat := 4
abbrev kColourLine : Nat := 5
abbrev kLocked : Nat := 6
abbrev kPrivate : Nat := 7

/-- A gate's verdict: none passes; a fault has its kind and the entry it names, 0xFF for none (R336). -/
def judge (g : Nat) (gate : Gate) (a : Acc) : Option (Nat × Nat) :=
  let hits := gate.ents.filter fun e => e.2.hit a
  match hits.find? (fun e => e.2.holds a), hits with
  | some h, first :: _ =>
    if hits.any fun e => e.2.rights ≠ first.2.rights || e.2.colours ≠ first.2.colours then some (kOverlap, first.1)
    else if colourGate g && !h.2.colours.getLsbD a.colour then some (kColourGate, h.1)
    else if !h.2.grants g a then some (kRights, h.1)
    else none
  | _, _ => some (kNoMatch, 255)

/-- The status an operation reports for a fault (R337). -/
def faultStatus (kind : Nat) : Nat := if kind = kColourGate ∨ kind = kColourLine then 0x0902 else 0x0901

/-- An access of a queue DMA shard to host space for function `fn` (R329, R333). -/
def hostAcc (fn : Nat) (write : Bool) (addr len : Nat) : Acc :=
  { host := true, first := addr, last := addr + len - 1, kind := if write then 1 else 0, level := 0, colour := fn }

/-- A gate judged a host access, with the gate's number and the access, and faulted. -/
structure GateFault where
  gate : Nat
  acc : Acc
  kind : Nat
  entry : Nat
  deriving DecidableEq, Repr

/-- The verdict of the gate of a shard on a host access (R16, R329, R336). -/
def judgeHost (gates : List Gate) (shard fn : Nat) (write : Bool) (addr len : Nat) : Option GateFault :=
  let a := hostAcc fn write addr len
  (judge (shard % 4) (gates.getD (shard % 4) {}) a).map fun f => ⟨shard % 4, a, f.1, f.2⟩

/-- ACC of a fault record (R339). -/
def Acc.byte (a : Acc) : Nat := a.kind % 4 + 4 * (a.level % 4) + 16 * (a.colour % 16)

/-- The 16-byte fault record (R339). -/
def GateFault.record (opsec : Nat) (f : GateFault) : Bytes :=
  le 8 f.acc.first ++ le 1 (f.kind + (if f.acc.host then 128 else 0)) ++ le 1 f.gate ++ le 1 f.entry ++ le 1 f.acc.byte
    ++ le 4 opsec

/-- A gate notes a fault by its reporting mode (R339). -/
def Gate.note (rec : Bytes) (g : Gate) : Gate :=
  if g.firstOnly then
    (if g.recs = [] then { g with recs := [rec] } else { g with lost := g.lost + 1 })
  else if g.recs.length < 64 then { g with recs := g.recs ++ [rec] }
  else { g with recs := g.recs.drop 1 ++ [rec], lost := g.lost + 1 }

end Sys2Proof.Machine
end

