-- ==== Sys2Proof/Machine/Flags.lean ====
section
/-! DEFINITION. Values that registers and pins show as functions of the state: DEV_STATUS, ALERT_CAUSE, journal fill and the
other status words (R97, R101, R115, R119, R127, R270, R417). Nothing here changes the state. -/

namespace Sys2Proof.Machine

/-- The code of a life-cycle state or condition (R119, R348). -/
def lcCode : Lc → Nat
  | .raw => 0 | .test => 1 | .provision => 2 | .certify => 3 | .field => 4 | .retn => 5 | .scrap => 6
  | .lost => 14 | .tampered => 15

/-- Pages of the journal ring (R250, R270). -/
def ringPages : Nat := 393216

/-- Ring pages that hold retained entries (R270, R274). -/
def ringUsed (s : State) : Nat := s.nv.lastPseq - s.nv.oldestPseq

/-- Fill of the ring in percent, rounded down (R275; notes/assumptions/16.md). -/
def fillPct (s : State) : Nat := ringUsed s * 100 / ringPages

/-- The JFILL level: 0 below 75 %, 1, 2 from 90 %, 3 full when 1,024 or fewer pages are free (R119, R270). -/
def jfill (s : State) : Nat :=
  if ringPages ≤ ringUsed s + 1024 then 3
  else if ringPages * 90 ≤ ringUsed s * 100 then 2
  else if ringPages * 75 ≤ ringUsed s * 100 then 1
  else 0

/-- The ring is full (R270). -/
def journalFull (s : State) : Bool := jfill s == 3

/-- The first number of the record sequence reserve (R262, R446). -/
def seqReserveStart : Nat := 2 ^ 48 - 2 ^ 20

/-- The reserve point is reached: queue entries get no SEQ (R446). -/
def seqReserve (s : State) : Bool := seqReserveStart ≤ s.jrn.nextSeq

/-- No record sequence number remains (R446). -/
def seqExhausted (s : State) : Bool := 2 ^ 48 ≤ s.jrn.nextSeq

/-- Session opens are refused: boot epoch exhausted, or the reserve point reached (R70, R446). -/
def sessionsRefused (s : State) : Bool := s.epochOut || seqReserve s

/-- Firmware or the boot ROM serves, after the start sequence has tested the units (R65). -/
def served (s : State) : Bool :=
  match s.pwr.phase with
  | .started | .ready | .service => true
  | _ => false

/-- Mailbox ready has been reached, or recovery mode or SCRAP serves (R66, R76, R444). -/
def mailboxUp (s : State) : Bool :=
  match s.pwr.phase with
  | .ready | .service | .recovery | .scrap => true
  | _ => false

/-- Running: powered, out of reset and no flush under way. -/
def powered (s : State) : Bool :=
  match s.pwr.phase with
  | .off | .held | .flushPower | .flushReset => false
  | _ => true

/-- A response of class T3 or higher is in force, or the unit is TAMPERED (R380, R383). -/
def tamperHalt (s : State) : Bool := s.tamper.t3 || s.lc == .tampered

/-- DEV_STATUS.STATE (R119, R381, R444; notes/assumptions/17.md). -/
def stateCode (s : State) : Nat :=
  if s.tamper.t3 then 6
  else match s.pwr.phase with
    | .recovery => 4
    | .scrap => 1
    | .ready => if s.pwr.unitsFailed ≠ [] then 5 else if s.pwr.standby then 3 else 1
    | .service => if s.pwr.unitsFailed ≠ [] then 5 else if s.pwr.standby then 3 else 2
    | _ => 0

/-- A redundant unit of R32 is out of service: a lane withdrawn or failed, a noise bank suspended or failed, a PKE core, a
digest unit, or the DRBG and sampler (R239, R417; notes/assumptions/18.md). -/
def unitOut (s : State) : Bool :=
  served s &&
    (s.lanes.any (fun l => l.st == .failed || l.st == .suspect)
      || s.banks.any (fun b => b.st == .failed || b.st == .suspended)
      || s.pkes.any (fun p => !p.inService)
      || !s.dgu0.inService || !s.dgu1.inService || !s.lark.drbgOn)

/-- ALERT_CAUSE (R417). -/
def alertCause (s : State) : Nat :=
  b2n (!s.pwr.feedA || !s.pwr.feedB)
    + 2 * b2n s.pwr.degraded
    + 4 * b2n (decide (2 ≤ jfill s))
    + 8 * b2n (unitOut s)
    + 16 * b2n (stateCode s == 4 || stateCode s == 5 || stateCode s == 6 || s.lc == .lost || s.lc == .tampered)
    + 32 * b2n (s.ev.latched.any (s.ev.clear ≤ ·))
    + 64 * b2n s.pwr.vbatLow
    + 128 * b2n (s.epochOut || seqReserve s)

/-- The value that nALERT shows (R417): some cause holds, and the Asaskac is neither in reset, unpowered nor past a declaration. The pin itself is
driven only while VDDIO_GEN is in band (R38). -/
def alert (s : State) : Bool := powered s && alertCause s != 0

/-- nALERT is driven low (R36, R38, R417). -/
def alertPin (s : State) : Bool := s.pwr.ioGen && alert s

/-- Function `f`. -/
def fnOf (s : State) (f : Nat) : Fn := s.fns.getD f {}

/-! Configuration registers that other rules read (R92; offsets of the base specification: notes/assumptions/78.md). -/

/-- The value of a writable configuration register before it is written: MRRS 512 bytes and Enable Relaxed Ordering, the AER masks and
severities of the base specification, a system page size of 4 KiB; zero elsewhere (notes/assumptions/78.md). -/
def cfgReset (off : Nat) : BitVec 32 :=
  match off with
  | 0x78 => 0x00002010
  | 0x108 => 0x00400000
  | 0x10C => 0x00462030
  | 0x114 => 0x0000E000
  | 0x170 => 0x00000001
  | _ => 0

/-- A configuration register as it stands. -/
def cfgOf (x : Fn) (off : Nat) : BitVec 32 := tgetD x.cfg off (cfgReset off)

/-- A configuration register is set. -/
def Fn.setCfg (off : Nat) (v : BitVec 32) (x : Fn) : Fn := { x with cfg := tset x.cfg off v }

/-- Memory Space Enable of PF0 (R84). -/
def memEnable (s : State) : Bool := (cfgOf (fnOf s 0) 0x04).getLsbD 1

/-- A function's BARs answer: PF0's Memory Space Enable, or VF MSE for a VF (R84, R93, R94). -/
def memOn (s : State) (f : Nat) : Bool := if f = 0 then memEnable s else (cfgOf (fnOf s 0) 0x158).getLsbD 3

/-- MSI-X messages of a function go out: MSI-X Enable set, Function Mask clear, Bus Master Enable set, in D0, over a PCIe tunnel (R102, R105). -/
def canSignal (s : State) (f : Nat) : Bool :=
  let x := fnOf s f
  (cfgOf x 0x50).getLsbD 31 && !(cfgOf x 0x50).getLsbD 30 && x.bme && !x.d3 && s.link.pcieTun

/-- Max_Payload_Size in bytes, at most 512 (R92, R99). -/
def maxPayload (s : State) : Nat := min 512 (128 * 2 ^ ((cfgOf (fnOf s 0) 0x78 >>> 5).toNat % 8))

/-- Max_Read_Request_Size in bytes, at most 4,096 (R99). -/
def maxRead (s : State) : Nat := min 4096 (128 * 2 ^ ((cfgOf (fnOf s 0) 0x78 >>> 12).toNat % 8))

/-- Enable Relaxed Ordering (R99). -/
def relaxedOn (s : State) : Bool := (cfgOf (fnOf s 0) 0x78).getLsbD 4

/-- Non-posted reads that the endpoint keeps outstanding at most: 512 with 10-bit tags enabled, else 256 (R99). -/
def readTags (s : State) : Nat := if (cfgOf (fnOf s 0) 0x98).getLsbD 12 then 512 else 256

/-- A host interface's domain as the link stands (R48; notes/assumptions/66.md): the lanes' PHYs with the USB4 link, the USB functions while the
fallback is in use, the endpoint while the PCIe tunnel is configured. -/
def linkDomain (s : State) (n : Nat) : DomState :=
  let l := s.link
  let native := l.attached && !l.usb4Mode
  let b := match n with
    | 51 => l.gen != 0
    | 52 => l.width == 2
    | 53 => l.usb3Tun || native
    | 54 => native
    | _ => l.pcieTun
  if b then .on else .off

/-- The DEV_STATUS register as function `f` reads it (R119). -/
def devStatus (s : State) (f : Nat) : Nat :=
  stateCode s + 16 * b2n s.pwr.degraded + 32 * b2n (alert s) + 64 * jfill s + 256 * lcCode s.lc
    + 4096 * b2n s.keys.testRoot + 8192 * b2n (fnOf s f).enabled + 65536 * (f % 16)

/-- MSI-X vectors of a function (R92). -/
def vectorsOf (f : Nat) : Nat := if f = 0 then 2048 else 128

/-- Mailboxes of a function that its path can address; mailbox 63 answers BUSY_OWNED on a host path (R83, R85). -/
def mailboxExists (p : Path) (f m : Nat) : Bool :=
  match p with
  | .pcie => if f = 0 then m < 64 else f < 16 && m < 8
  | .usb => f == 0 && m < 64
  | .spi => f == 0 && m == 63

/-- LINK_STATUS (R101). -/
def linkStatus (s : State) : Nat :=
  s.link.gen.toNat + 4 * s.link.width.toNat + 16 * b2n s.link.usb3Tun + 32 * b2n s.link.spiSeen
    + 64 * b2n (s.link.hostPath == some .usb) + 65536 * s.link.laneEvents

/-- Ingress bytes free for SPI queues, of 64 KiB (R115, R142). -/
def spiFree (s : State) : Nat := 65536 - s.spi.used

/-- SUBMIT_FULL: no room for a further entry (R115, R116; notes/assumptions/19.md). -/
def submitFull (s : State) : Bool := spiFree s < 64

/-- The mailbox registers of function `f`, mailbox `m`. -/
def mbxOf (s : State) (f m : Nat) : Mbx := tgetD s.mbxs (64 * f + m) {}

/-- The 16-byte SPI status (R115). -/
def spiStatus (s : State) : Bytes :=
  le 4 (b2n (mbxOf s 0 63).busy + 2 * b2n s.spi.resp.isSome + 4 * b2n (s.spi.compl ≠ []) + 8 * b2n s.spi.crcErr
      + 16 * b2n (alert s) + 32 * b2n (submitFull s))
    ++ le 4 s.spi.compl.length ++ le 4 (spiFree s) ++ zeros 4

/-- nSPI_IRQ is driven low (R36, R38, R52, R115). -/
def spiIrq (s : State) : Bool := s.pwr.ioGen && powered s && (s.spi.resp.isSome || s.spi.compl ≠ [] || alert s)

/-- MP_STATUS.LOST and the counter value of the port window: none reads as lost (R283, R397). -/
def ctrOf (s : State) (n : Nat) : Counter := tgetD s.nv.ctrs n {}

/-- Value of a counter as CTR_READ and the port window give it: 0 when LOST (R283, R285). -/
def ctrVal (s : State) (n : Nat) : Nat := if (ctrOf s n).lost then 0 else (ctrOf s n).live

/-- W of a counter: 0 for a reserved one (R282). -/
def ctrWidth (n : Nat) : Nat :=
  if n ≤ 5 || (16 ≤ n && n ≤ 31) then 256
  else if 64 ≤ n && n ≤ 191 then 64
  else if 192 ≤ n && n ≤ 4095 then 16
  else 0

/-- CLASS of a counter: 0 reserved, 1 SAFE_HIGH, 2 VOTE (R282, R285). -/
def ctrClass (n : Nat) : Nat := if ctrWidth n = 0 then 0 else if n < 64 then 1 else 2

/-- The unit ID as DEV_IDENTITY returns it (R126). -/
def unitIdBytes : Bytes := le 16 Config.unitId.toNat

/-- A group of an OTP group word: the count of its set bits (R357). Bit 4k + g belongs to group g. -/
def otpGroup (s : State) (word g : Nat) : Nat :=
  ((List.range 16).filter fun k => (tgetD s.otp word 0).getLsbD (4 * k + g)).length

/-- COUNTERSIGN_REQUIRED is set: a flag group of 5 or more bits reads as set (R80, R358). -/
def countersignRequired (s : State) : Bool := 5 ≤ otpGroup s 98 0

/-- POLICY_LOCK is set (R356, R358). -/
def policyLock (s : State) : Bool := 5 ≤ otpGroup s 98 1

/-- Pair slots in service (R32, R198). -/
def slotsIn (s : State) : Nat := (s.slots.filter (·.inService)).length

/-- A lane is in SERVING or DRAINING (R127, R198). -/
def laneServes (s : State) (n : Nat) : Bool :=
  let l := s.lanes.getD n {}
  (l.st == .serving || l.st == .draining) && served s

/-- A lane is a cold spare: OFF, and not failed (R188, R198). -/
def laneSpare (s : State) (n : Nat) : Bool := (s.lanes.getD n {}).st == .off && served s

/-- Bits of a list of flags, the first lowest. -/
def bits : List Bool → Nat
  | [] => 0
  | b :: bs => b2n b + 2 * bits bs

/-- The DEV_STATUS mailbox body as function `f` reads it (R127). -/
def devStatusBody (s : State) (f : Nat) : Bytes :=
  let pf := fun (b : Bytes) => if f = 0 then b else zeros b.length
  le 4 (devStatus s f)
    ++ pf (le 1 (bits ((List.range 8).map (laneServes s))) ++ le 1 (bits ((List.range 8).map (laneSpare s)))
      ++ le 1 (bits (s.banks.map (fun b => b.st == .serving) ++ s.pkes.map (fun p => p.inService && !p.testing)
          ++ [s.dgu0.inService, s.dgu1.inService]))
      ++ le 1 (bits (s.slots.map (·.inService) ++ s.slots.map (·.laggard)))
      ++ le 1 (fillPct s))
    ++ zeros 3 ++ le 8 s.opsec ++ le 4 s.pwrCyc ++ le 4 s.bootEpoch ++ pf (le 8 s.jrn.durable) ++ zeros 28

end Sys2Proof.Machine
end

