-- ==== Sys2Proof/Machine/Operands.lean ====
section
/-! DEFINITION. The operand forms: the fields of submission entries (R135), of mailbox requests (R123) and of frames (R109),
and the tables of which command is served where and in which mode (R76, R77, R125, R350, R380). -/

namespace Sys2Proof.Machine

/-! Status codes (R149). -/

abbrev stOk : Nat := 0x0000
abbrev stOkBuffered : Nat := 0x0001
abbrev stLenShort : Nat := 0x0101
abbrev stLenLong : Nat := 0x0102
abbrev stLenLimit : Nat := 0x0103
abbrev stLenAlign : Nat := 0x0104
abbrev stAuthFail : Nat := 0x0201
abbrev stAuthFailHeld : Nat := 0x0202
abbrev stKeyOrphaned : Nat := 0x0301
abbrev stKeyRevoked : Nat := 0x0302
abbrev stKeySlotEmpty : Nat := 0x0303
abbrev stRuleReject : Nat := 0x0401
abbrev stDrawClosed : Nat := 0x0402
abbrev stDrawUnknown : Nat := 0x0403
abbrev stFnDisabled : Nat := 0x0501
abbrev stQueueDisabled : Nat := 0x0502
abbrev stTestDeferred : Nat := 0x0601
abbrev stJournalFull : Nat := 0x0701
abbrev stTamperHalt : Nat := 0x0801
abbrev stAccessFault : Nat := 0x0901
abbrev stColourMismatch : Nat := 0x0902
abbrev stBusyOwned : Nat := 0x0A01
abbrev stMalformed : Nat := 0x0F01
abbrev stUnsupported : Nat := 0x0F02
/-- The status of a descriptor of an ABANDONED operation (R252). -/
abbrev stAbandoned : Nat := 0xFFFF

/-! Submission entry (R135). -/

/-- OPC. -/
def eOpc (e : Bytes) : Nat := num e 0 1
/-- FLG. -/
def eFlg (e : Bytes) : Nat := num e 1 1
/-- FLG.SYNC. -/
def eSync (e : Bytes) : Bool := bit (eFlg e) 0
/-- FLG.FENCE. -/
def eFence (e : Bytes) : Bool := bit (eFlg e) 1
/-- KIX. -/
def eKix (e : Bytes) : Nat := num e 2 2
/-- LEN as the entry holds it. -/
def eLen3 (e : Bytes) : Nat := num e 4 3
/-- Message length: LEN 0 stands for 16,777,216 bytes, except for NOP (R136). -/
def eLen (e : Bytes) : Nat := if eLen3 e = 0 ∧ eOpc e ≠ 0 then 16777216 else eLen3 e
/-- AADLEN [12:0]. -/
def eAadLen (e : Bytes) : Nat := num e 7 2 % 8192
/-- HTAG. -/
def eHtag (e : Bytes) : Nat := num e 12 4
/-- SRC. -/
def eSrc (e : Bytes) : Nat := num e 16 8
/-- DST. -/
def eDst (e : Bytes) : Nat := num e 24 8

/-- The first offset whose test fails, in the order listed (R123, R137). -/
def firstBad : List (Bool × Nat) → Option Nat
  | [] => none
  | (bad, off) :: rest => if bad then some off else firstBad rest

/-! Mailbox requests (R123, R125). -/

/-- Bytes the path delivered, header included. -/
def reqSize (r : Req) : Nat := 16 + r.body.length

/-- DETAIL of a body of the wrong length (R123). -/
def lenDetail (r : Req) (need : Nat) : Nat := 16 + min r.body.length need

/-- A field of the request body. -/
def fld (r : Req) (off len : Nat) : Nat := num r.body off len

/-- The commands of the command set (R125). -/
def opcodeKnown (op : Nat) : Bool :=
  match op / 256 with
  | 1 => 1 ≤ op % 256 && op % 256 ≤ 5
  | 2 => 1 ≤ op % 256 && op % 256 ≤ 7
  | 3 => 1 ≤ op % 256 && op % 256 ≤ 4
  | 4 => 1 ≤ op % 256 && op % 256 ≤ 6
  | 5 => 1 ≤ op % 256 && op % 256 ≤ 6
  | 6 => 1 ≤ op % 256 && op % 256 ≤ 3
  | 7 => 1 ≤ op % 256 && op % 256 ≤ 4
  | 8 => 1 ≤ op % 256 && op % 256 ≤ 5
  | 9 => 1 ≤ op % 256 && op % 256 ≤ 6
  | 10 => 1 ≤ op % 256 && op % 256 ≤ 5
  | 11 => 1 ≤ op % 256 && op % 256 ≤ 4
  | _ => false

/-- The commands issued on "All": a VF may issue them too (R125). -/
def opcodeAll (op : Nat) : Bool :=
  [0x0101, 0x0102, 0x0105, 0x0202, 0x0203, 0x0204, 0x0205, 0x0301, 0x0302, 0x0304, 0x0404, 0x0502, 0x0602].contains op

/-- A firmware command arrives where R77 does not accept it: on a VF (which R125 already excludes). On PF0 it is accepted on
every path (R125, R77). -/
def opcodeIssued (op : Nat) (r : Req) : Bool := opcodeKnown op && (r.fn == 0 || opcodeAll op)

/-- Commands served in recovery mode (R76). -/
def recoveryServes (op : Nat) : Bool :=
  [0x0101, 0x0102, 0x0901, 0x0B02, 0x0B01, 0x0801, 0x0802, 0x0803, 0x0804].contains op

/-- Commands served in LOST (R350). LC_TRANSITION is limited to SCRAP by its own rule. -/
def lostServes (op : Nat) : Bool :=
  [0x0101, 0x0102, 0x0103, 0x0104, 0x0701, 0x0702, 0x0501, 0x0502, 0x0901, 0x0905, 0x0B01, 0x0B02, 0x0801, 0x0A02,
    0x0A05].contains op

/-- Commands served in SCRAP (R350). -/
def scrapServes (op : Nat) : Bool := [0x0101, 0x0102, 0x0901].contains op

/-- Commands served while T3 is in force or in TAMPERED (R380, R383). -/
def haltServes (op : Nat) : Bool :=
  op / 256 == 1 ||
    [0x0501, 0x0502, 0x0503, 0x0504, 0x0505, 0x0901, 0x0902, 0x0905, 0x0B01, 0x0B02, 0x0701, 0x0702, 0x0801, 0x0A02,
      0x0A05].contains op

/-- Commands answered before mailbox ready: from the end of step 8, or of step 15 (R66). -/
def earlyServes (op : Nat) : Bool := [0x0101, 0x0102, 0x0901, 0x0502].contains op

/-- The refusal of the device mode (R445 step 4). -/
def modeRefusal (op : Nat) (s : State) : Option Nat :=
  if (s.pwr.phase == .recovery && !recoveryServes op)
      || (s.lc == .lost && !lostServes op) || (s.lc == .scrap && !scrapServes op) then some stUnsupported
  else if tamperHalt s && !haltServes op then some stTamperHalt
  else none

/-- The path holds the host role, and mailbox 63 is addressed on SPI only (R84, R85; R445 step 1). -/
def pathOk (r : Req) (s : State) : Bool :=
  match r.path with
  | .spi => true
  | p => s.link.hostPath == some p && !(r.fn == 0 && r.mbx == 63)

/-- The header's reserved fields are zero and its LEN is what the path delivered (R123; R445 step 2). -/
def headerBad (r : Req) : Option Nat :=
  firstBad [(r.len ≠ reqSize r, 2), (r.rsv8 ≠ 0, 8), (r.rsv10 ≠ 0, 10), (r.rsv12 ≠ 0, 12)]

/-- A command cannot be served without a unit of R33, by its code (R414): the key store; the memory engines and the DRAM path; the MRAM; the context
cache; the queue DMA shard that serves the queue named. The others answer on as they did. Entries are refused by the rule of their own
(R33; notes/assumptions/91.md). -/
def commandNeeds (op : Nat) (r : Req) (u : Nat × Nat) : Bool :=
  match u.1 with
  | 1 => [0x0202, 0x0301, 0x0302, 0x0303, 0x0304, 0x0401, 0x0403, 0x0405].contains op
  | 2 | 3 => [0x0202, 0x0205, 0x0301, 0x0302, 0x0401, 0x0403, 0x0404, 0x0405, 0x0502, 0x0503].contains op
  | 4 => u.2 != 255 && ([0x0303, 0x0401, 0x0402, 0x0504, 0x0505, 0x0601, 0x0603, 0x0904].contains op
      || [0x0802, 0x0803, 0x0804, 0x0805].contains op)
  | 5 => [0x0202, 0x0205].contains op
  | 6 => op == 0x0205 && num r.body 0 4 % 4 == u.2
  | _ => false

/-- The refusal of a request before its command's own checks, in the order of R445: status and DETAIL. `need` is the body
length where the command fixes it. -/
def admission (op : Nat) (r : Req) (need : Option Nat) (s : State) : Option (Nat × Nat) :=
  if !pathOk r s then some (stBusyOwned, 0)
  else match headerBad r with
    | some off => some (stMalformed, off)
    | none =>
      if !opcodeIssued op r then some (stUnsupported, 0)
      else match modeRefusal op s with
        | some st => some (st, 0)
        | none =>
          match need with
          | some n =>
            if r.body.length ≠ n then some (stMalformed, lenDetail r n)
            else if s.pwr.unitsFailed.any (commandNeeds op r) then some (stUnsupported, 0) else none
          | none => if s.pwr.unitsFailed.any (commandNeeds op r) then some (stUnsupported, 0) else none

/-- The request that a mailbox command carries. -/
def reqOf : Instr → Option Req
  | .mailboxUnknownOpcode r _ | .devIdentity r | .devStatus r | .devStandby r | .devChallenge r | .devPubkeys r
  | .fnConfig r | .queueCreate r | .queueDisable r | .queueDelete r | .queueQuery r | .fnDisable r | .fnEnable r
  | .keyDerive r | .keyImport r | .keyInvalidate r | .keyQuery r | .drawSchedule r | .drawClose r | .drawRun r _
  | .drawCert r | .instantBatch r _ | .nbStatus r | .journalStatus r | .journalQuery r | .journalExport r
  | .journalReclaim r | .journalSync r | .journalClaimTime r | .rulesetLoad r | .rulesetQuery r | .rulesetDelete r
  | .lcStatus r | .lcTransition r | .lcFlagBurn r | .dbgCertLoad r | .fwStatus r | .fwWrite r | .fwVerify r
  | .fwActivate r | .fwCommit r | .evtRead r | .evtClear r | .diagSelftest r _ | .diagSchedule r | .diagHealth r
  | .pmonConfig r | .gateWrite r | .gateRead r | .gateLock r | .gateSync r | .gateFaults r | .ctrRead r | .meterRead r
  | .meterWrite r | .meterProtect r => some r
  | _ => none

/-- A request or response header and body as bytes (R123). -/
def mbxBytes (op : Nat) (tag : BitVec 32) (status detail : Nat) (body : Bytes) : Bytes :=
  le 2 op ++ le 2 (16 + body.length) ++ le 4 tag.toNat ++ le 2 status ++ le 2 detail ++ zeros 4 ++ body

/-- A USB frame header (R109). -/
def usbHeader (ftype queue mbx bodyLen : Nat) : Bytes :=
  le 2 ftype ++ zeros 2 ++ le 4 queue ++ le 2 mbx ++ zeros 2 ++ le 4 bodyLen

end Sys2Proof.Machine
end

