-- ==== Sys2Proof/Machine/Ops.lean ====
section
/-! DEFINITION. The operations every meaning is written over: events (R408 to R413), performance counts (R421, R422),
hardware counters (R281 to R283), free values, MSI-X messages (R102 to R104), DEV_EVENT flags (R120), mailbox responses
(R122, R123), completions (R137 to R141) and the frame every command runs in. A block has no exception entry; what plays its part
is the event record and the alert. -/

namespace Sys2Proof.Machine

/-! Performance monitors. -/

/-- `n` occurrences of source `src` by function `fn` (R421, R422): each counter that selects the source counts them, unless
frozen; a wrap at 2^48 sets the counter's OVF bit. -/
def Pmon.count (p : Pmon) (src fn n : Nat) : Pmon :=
  if p.freeze then p
  else
    let hit := fun i =>
      let sel := p.sel.getD i 0
      (sel.setWidth 8).toNat == src && src != 0 &&
        (!(sel.getLsbD 12 && ((3 ≤ src && src ≤ 0x13) || (0x1A ≤ src && src ≤ 0x1C)))
          || ((sel >>> 8).setWidth 4).toNat == fn)
    { p with
      cnt := p.cnt.mapIdx fun i c => if hit i then (c + n) % 2 ^ 48 else c
      ovf := (List.range 16).foldl
        (fun o i => if hit i && 2 ^ 48 ≤ p.cnt.getD i 0 + n then o ||| (1#16 <<< i) else o) p.ovf }

/-- `n` occurrences of a source (R422). -/
def count (src fn n : Nat) (s : State) : State := { s with pmon := s.pmon.count src fn n }

/-! Events. -/

/-- Severity of a code with its ARG (R414). -/
def evSev (code arg : Nat) : Nat :=
  match code with
  | 0x0101 => 2 | 0x0102 => 1 | 0x0103 => 2 | 0x0104 => 1 | 0x0105 => 3 | 0x0106 => 2 | 0x0107 => 3 | 0x0108 => 4
  | 0x0109 => 3 | 0x010A => 2 | 0x010B => 4 | 0x010C => 0 | 0x010D => 1
  | 0x0201 => 0 | 0x0202 => 1 | 0x0203 => 2 | 0x0204 => 2 | 0x0205 => 1 | 0x0206 => 1
  | 0x0301 => 3
  | 0x0401 => 2 | 0x0402 => 2 | 0x0403 => 3 | 0x0404 => 1 | 0x0405 => 2 | 0x0406 => 3 | 0x0407 => 4
  | 0x0501 => 1 | 0x0502 => 2 | 0x0503 => 3 | 0x0504 => 3 | 0x0505 => 2 | 0x0506 => 2 | 0x0507 => 2 | 0x0508 => 3
  | 0x0701 => 1 | 0x0702 => 4
  | 0x0801 => 2 | 0x0802 => 3 | 0x0803 => 4
  | 0x0901 => 1 | 0x0902 => 0 | 0x0903 => 2
  | 0x0A01 => 1 | 0x0A02 => 1 | 0x0A03 => 3 | 0x0A04 => 3
  | 0x0B01 => 3 | 0x0B02 => 2 | 0x0B03 => 1 | 0x0B04 => 1
  | 0x0C01 => 2 | 0x0C02 => 0 | 0x0C03 => 2 | 0x0C04 => 3 | 0x0C05 => 1 | 0x0C06 => 2 | 0x0C07 => 3
  | 0x0D01 => if arg / 65536 % 4 = 2 then 2 else 1
  | 0x0D02 => 3 | 0x0D03 => 4 | 0x0D04 => 4
  | _ => 0

/-- LATCH of a code with its ARG (R414). A counter split latches with one readable copy of either class, two of a VOTE
counter, or none. -/
def evLatch (code arg : Nat) : Bool :=
  if code = 0x0505 then
    let copies := arg / 4096 % 4
    copies ≤ 1 || (copies == 2 && 64 ≤ arg % 4096)
  else
    [0x0105, 0x0109, 0x010A, 0x0203, 0x0301, 0x0401, 0x0402, 0x0403, 0x0504, 0x0507, 0x0508, 0x0702, 0x0802, 0x0B01,
      0x0C04].contains code

/-- Codes that are never rate-limited (R413). -/
def evExempt (code sev : Nat) : Bool :=
  sev == 4 || code / 256 == 0x0D || code == 0x0C02 || code == 0x0901 || code == 0x0902

/-- A record with its CHK (R408). -/
def evChk (b0 : Bytes) (rest : Bytes) : Bytes := b0 ++ [crc8 (b0 ++ rest)] ++ rest

/-- The 16-byte base record (R408). -/
def evBase (e : Evt) : Bytes :=
  evChk (le 2 e.code ++ le 1 (e.sev + 8 * b2n e.latch + 16 * b2n (e.ext ≠ []) + 32 * b2n e.unp))
    (le 3 e.arg ++ le 5 e.opsec ++ le 4 e.pwr)

/-- The extension record, when there is one (R408). -/
def evExt (e : Evt) : List Bytes := if e.ext = [] then [] else [evChk (le 2 0xFFFF ++ [0]) (fit 12 e.ext)]

/-- The records of an event: the base record and its extension. -/
def evRecords (e : Evt) : List Bytes := evBase e :: evExt e

/-- Consecutive event numbers from `n` (R409). -/
def numbered : Nat → List Bytes → List EvRec
  | _, [] => []
  | n, b :: bs => ⟨n, b⟩ :: numbered (n + 1) bs

/-- An event that is not recorded: it counts as suppressed (R410, R413). -/
def Events.suppress (now code : Nat) (v : Events) : Events :=
  { v with
    supp := tset v.supp code (tgetD v.supp code 0 + 1)
    suppAt := if tgetD v.supp code 0 = 0 then tset v.suppAt code now else v.suppAt }

/-- An event that passes the rate limit enters the buffer, or is suppressed when 4,096 records are pending (R410). -/
def Events.push (now : Nat) (e : Evt) (v : Events) : Events :=
  let rs := evRecords e
  if 4096 < v.buf.length + rs.length then v.suppress now e.code
  else
    { v with
      nextEvn := v.nextEvn + rs.length
      buf := v.buf ++ numbered v.nextEvn rs
      latched := if e.latch then v.latched ++ [v.nextEvn] else v.latched }

/-- An event is recorded or suppressed (R413). `rate` is RATE. A token is 60 units, and the table holds what is missing from
a full bucket. -/
def Events.record (rate now : Nat) (e : Evt) (v : Events) : Events :=
  if evExempt e.code e.sev then v.push now e
  else if tgetD v.tokens e.code 0 + 60 ≤ 60 * rate then
    Events.push now e { v with tokens := tset v.tokens e.code (tgetD v.tokens e.code 0 + 60) }
  else v.suppress now e.code

/-- An event of a code with its ARG and extension, stamped now (R408, R414). -/
def mkEvt (s : State) (code arg : Nat) (ext : Bytes) : Evt :=
  { code := code, sev := evSev code arg, latch := evLatch code arg, arg := arg, ext := ext, opsec := s.opsec, pwr := s.pwrCyc }

/-- An event of a code with its ARG and extension happens (R408 to R413). Before step 5 of a start it is held, in reset too (R409;
notes/assumptions/76.md). During a flush and unpowered nothing is recorded (R52, R423). -/
def eventX (code arg : Nat) (ext : Bytes) (s : State) : State :=
  match s.pwr.phase with
  | .off | .flushPower | .flushReset => s
  | .held | .startDue => { s with ev := { s.ev with preHeld := s.ev.preHeld ++ [mkEvt s code arg ext] } }
  | _ =>
    let v := s.ev.record s.diag.rate s.opsec (mkEvt s code arg ext)
    { s with
      ev := v
      pmon := s.pmon.count (if v.nextEvn = s.ev.nextEvn then 0x91 else 0x90) 0 1 }

/-- An event without an extension. -/
def event (code arg : Nat) (s : State) : State := eventX code arg [] s

/-- ARG of a unit code with its index (UNIT_FAILED, TEST_FAILED; R414). -/
def unitArg (unit index : Nat) : Nat := unit + 256 * index

/-- ARG of a tamper event: sensor, unit index, class (R414). -/
def tamperArg (sensor idx cls : Nat) : Nat := sensor + 256 * (idx % 256) + 65536 * cls

/-- A gate fault of a queue DMA shard, a lane or the debug master is an input of class T1 that takes no part in correlation; its unit is the
power domain of the master (R338, R376, R377; notes/assumptions/73.md). -/
def quietFault (gate : Nat) (s : State) : State :=
  if gate < 4 then event 0x0D01 (tamperArg 0x15 (64 + gate) 1) s
  else if 8 ≤ gate ∧ gate < 16 then event 0x0D01 (tamperArg 0x15 (18 + 3 * (gate - 8)) 1) s
  else if gate = 20 then event 0x0D01 (tamperArg 0x15 78 1) s
  else s

/-- A gate fault is noted, recorded as an event, counted, and passed to the tamper response logic (R338, R339, R376). That of a master
whose faults count in correlation is raised by its caller. -/
def gateFault (f : GateFault) (s : State) : State :=
  let s1 := { s with gates := modAt s.gates f.gate (Gate.note (f.record s.opsec)) }
  quietFault f.gate
    (eventX 0x0A01 (f.kind + (if f.acc.host then 128 else 0) + 256 * f.gate + 65536 * f.entry) (le 8 f.acc.first ++ le 1 f.acc.byte)
      (count 0x50 0 1 s1))

/-! Free values. -/

/-- The next draw of 256 bits of conditioned entropy (R219, R220; notes/assumptions/8.md). -/
def draw256 (s : State) : BitVec 256 := Config.noise s.free

/-- One draw from the free values has been made. -/
def drew (s : State) : State := { s with free := s.free + 1 }

/-- `n` bytes whose content the rules leave open (notes/assumptions/13.md). -/
def openBytes (seed n : Nat) : Bytes := (List.range n).map (Config.freeByte seed)

/-! Hardware counters. -/

/-- A copy is updated: the cell after the one written last takes the value, of W cells (R281). -/
def CtrCopy.write (w v : Nat) (c : CtrCopy) : CtrCopy :=
  { c with value := some (max v (c.value.getD 0)), pos := (c.pos + 1) % w, cells := tset c.cells ((c.pos + 1) % w) (some v) }

/-- Every cell of a copy is written with the value (R283). -/
def CtrCopy.fill (v : Nat) : CtrCopy := { value := some v, base := some v }

/-- All three copies are updated, one after the other, at an operating second (R281, R282). -/
def Counter.write (w v now : Nat) (c : Counter) : Counter :=
  { c with
    c0 := c.c0.write w v, c1 := c.c1.write w v, c2 := c.c2.write w v, writes := c.writes + 1, wrote := now }

/-- A through write: all three copies take the value (R282). A LOST counter is never written (R283). -/
def setCtr (n v : Nat) (s : State) : State :=
  let c := ctrOf s n
  if c.lost then s
  else
    { s with nv := { s.nv with ctrs := tset s.nv.ctrs n (Counter.write (ctrWidth n) v s.opsec { c with live := v }) } }

/-- The value of a counter in SRAM, to be written back later (R282). -/
def setLive (n v : Nat) (s : State) : State :=
  { s with nv := { s.nv with ctrs := tset s.nv.ctrs n { ctrOf s n with live := v } } }

/-! MSI-X. -/

/-- What a message or completion can change: the vectors, what has gone out, and the monitors. -/
structure Post where
  vecs : Tab Vec
  out : List Out
  pmon : Pmon
  /-- Functions whose messages cannot go out now. -/
  mute : List Nat
  deriving DecidableEq, Repr

/-- One message of vector `v` of function `f` is due: sent, or pending while the vector or the function is masked (R102, R104, R105;
notes/assumptions/79.md). -/
def Post.message (f v : Nat) (p : Post) : Post :=
  let x := tgetD p.vecs (2048 * f + v) {}
  if x.masked || p.mute.contains f then { p with vecs := tset p.vecs (2048 * f + v) { x with held := 0, pend := true } }
  else
    { p with
      vecs := tset p.vecs (2048 * f + v) { x with held := 0 }
      out := p.out ++ [.msix f v]
      pmon := p.pmon.count 0x07 f 1 }

/-- Coalescing is off: TIME 0, or COUNT 0 or 1; vector 0 is never coalesced (R102, R104). -/
def Vec.direct (v : Nat) (x : Vec) : Bool := v == 0 || x.time == 0 || x.count.toNat ≤ 1

/-- A completion has been written to a queue of the vector (R104, R141). -/
def Post.signal (f v : Nat) (p : Post) : Post :=
  let x := tgetD p.vecs (2048 * f + v) {}
  if x.direct v || x.count.toNat ≤ x.held + 1 then p.message f v
  else { p with vecs := tset p.vecs (2048 * f + v) { x with held := x.held + 1 } }

/-- The posting parts of a state. -/
def State.post (s : State) : Post := ⟨s.vecs, s.out, s.pmon, (List.range 16).filter fun f => !canSignal s f⟩

/-- The state with other posting parts. -/
def State.withPost (s : State) (p : Post) : State := { s with vecs := p.vecs, out := p.out, pmon := p.pmon }

/-- One message of a vector is due. -/
def message (f v : Nat) (s : State) : State := s.withPost (s.post.message f v)

/-! Host memory. -/

/-- A transfer of bytes from an address in transactions of at most `limit` bytes, none of which crosses a 4 KiB boundary (R99;
notes/assumptions/80.md). `fuel` transactions at most. -/
def tlps : Nat → Nat → Nat → Bytes → List (Nat × Bytes)
  | 0, _, _, _ => []
  | fuel + 1, limit, addr, b =>
    let n := min limit (4096 - addr % 4096)
    if b.length ≤ n then (if b = [] then [] else [(addr, b)]) else (addr, b.take n) :: tlps fuel limit (addr + n) (b.drop n)

/-- Bytes are written to host memory, in writes of at most Max_Payload_Size (R99). -/
def hostWrite (fn addr : Nat) (b : Bytes) (s : State) : State :=
  { s with out := s.out ++ (tlps b.length (maxPayload s) addr b).map fun p => Out.mem fn p.1 p.2 }

/-- Read requests for host memory are issued, of at most Max_Read_Request_Size; `entry` says that they fetch a submission entry or source data,
which alone may carry Relaxed Ordering (R99). -/
def hostRead (fn addr len : Nat) (entry : Bool) (s : State) : State :=
  { s with out := s.out ++ (tlps len (maxRead s) addr (zeros len)).map fun p => Out.read fn p.1 p.2.length (entry && relaxedOn s) }

/-! DEV_EVENT. -/

/-- A DEV_EVENT flag of function `f` is set; its rising edge causes a vector 0 message where DEV_IRQ_EN allows (R120). On the
USB vendor interface the host is told by a NOTIFY flag (R110). -/
def devEvent (f b : Nat) (s : State) : State :=
  let x := fnOf s f
  let s1 := { s with
    fns := modAt s.fns f fun x => { x with devEvent := x.devEvent ||| (1#32 <<< b) }
    link := { s.link with usbNotify :=
      if f = 0 ∧ s.link.hostPath = some .usb then s.link.usbNotify ||| (if b = 1 ∧ alert s then 6 else 2)
      else s.link.usbNotify } }
  if !x.devEvent.getLsbD b && x.irqEn.getLsbD b then message f 0 s1 else s1

/-- The flag of every function that exists. -/
def devEventAll (b : Nat) (s : State) : State :=
  (List.range 16).foldl (fun s f => if (fnOf s f).present then devEvent f b s else s) s

/-! Mailbox responses. -/

/-- The request's mailbox is changed. -/
def modMbx (f m : Nat) (g : Mbx → Mbx) (s : State) : State :=
  { s with mbxs := tset s.mbxs (64 * f + m) (g (mbxOf s f m)) }

/-- The memory a byte string makes from address 0; zero bytes are not listed. -/
def loadBytes (b : Bytes) : Memory := (b.zipIdx.filter fun x => x.1 ≠ 0).map fun x => (x.2, x.1)

/-- The response is delivered on the request's path (R122, R123, R83). On PCIe it overwrites the buffer, whose bytes beyond
it are open, BUSY falls and DONE rises. -/
def respond (op : Nat) (r : Req) (status detail : Nat) (body : Bytes) (s : State) : State :=
  let resp := mbxBytes op r.tag status detail body
  match r.path with
  | .pcie =>
    let m := mbxOf s r.fn r.mbx
    let s1 := modMbx r.fn r.mbx (fun m => { m with
      busy := false, done := true
      buf := loadBytes (resp ++ openBytes s.free (4096 - resp.length)) }) (drew s)
    if m.irqEn && !m.done then message r.fn 0 s1 else s1
  | .usb =>
    { modMbx r.fn r.mbx (fun m => { m with busy := false }) s with
      link := { s.link with
        usbMbx := s.link.usbMbx ++ [usbHeader 4 0 r.mbx resp.length ++ resp]
        usbNotify := s.link.usbNotify ||| 1 } }
  | .spi =>
    { modMbx r.fn r.mbx (fun m => { m with busy := false }) s with
      spi := { s.spi with resp := some resp } }

/-! Completions. -/

/-- A queue index: FREE where the table lists none. -/
def queueOf (s : State) (q : Nat) : Queue := tgetD s.queues q {}

/-- A queue is changed. -/
def modQueue (q : Nat) (f : Queue → Queue) (s : State) : State :=
  { s with queues := tset s.queues q (f (queueOf s q)) }

/-- The 16-byte completion entry (R137). On USB and SPI SQHD and P read zero (R110; notes/assumptions/20.md). -/
def completionEntry (q : Queue) (htag seq status detail : Nat) : Bytes :=
  let ring := q.path == .pcie
  le 4 htag ++ le 6 seq ++ le 2 status ++ le 2 (if ring then q.sqHead else 0) ++ le 1 detail
    ++ le 1 (b2n (ring && q.phase))

/-- What writing completions can change. -/
structure Deliver where
  queues : Tab Queue
  post : Post
  usb : List Bytes
  spi : List (Bytes × Bytes)
  faults : List GateFault
  deriving DecidableEq, Repr

/-- A completion of queue `qix` is written: to the host ring, with its vector's signal, or as a COMPLETE frame or an SPI
completion with the output bytes (R110, R117, R139, R141). The ring write is judged by the shard's gate; a faulting write has no
effect on host memory and is recorded (R337, R338; notes/assumptions/28.md). -/
def Deliver.put (gates : List Gate) (qix htag seq status detail : Nat) (output : Bytes) (d : Deliver) : Deliver :=
  let q := tgetD d.queues qix {}
  let e := completionEntry q htag seq status detail
  let p := d.post.pmon.count 0x06 q.fn 1
  let p := if status = stOkBuffered then p.count 0x33 q.fn 1
    else if status = stAuthFail ∨ status = stAuthFailHeld then p.count 0x1A q.fn 1
    else if status = stRuleReject then p.count 0x1B q.fn 1
    else if status = stDrawClosed then p.count 0x1C q.fn 1
    else if status = stKeyRevoked then p.count 0x25 q.fn 1
    else p
  match q.path with
  | .pcie =>
    let wraps := q.entries ≤ q.cqTail + 1
    let addr := q.cqBase.toNat + 16 * q.cqTail
    let fault := judgeHost gates qix q.fn true addr 16
    { d with
      faults := d.faults ++ fault.toList
      queues := tset d.queues qix { q with
        cqTail := if wraps then 0 else q.cqTail + 1
        phase := if wraps then !q.phase else q.phase
        unreleased := q.unreleased + 1 }
      post := Post.signal q.fn q.vector
        { d.post with pmon := p, out := if fault.isNone then d.post.out ++ [Out.mem q.fn addr e] else d.post.out } }
  | .usb =>
    { d with
      post := { d.post with pmon := p }
      usb := d.usb ++ [usbHeader 2 qix 0 (16 + output.length) ++ e ++ output] }
  | .spi => { d with post := { d.post with pmon := p }, spi := d.spi ++ [(e, output)] }

/-- A SEQ is covered by a DURABLE entry (R264). -/
def durableSeq (j : Journal) (seq : Nat) : Bool :=
  seq ≤ j.durable || j.covered.any fun c => c.1 ≤ seq && seq ≤ c.2

/-- The status of a completion: OK while the record is DURABLE, OK_BUFFERED otherwise, for an operation given to a pair slot
that does not fail (R265). -/
def finalStatus (j : Journal) (w : Work) : Nat :=
  if w.status = stOk ∧ w.seq ≠ 0 ∧ !durableSeq j w.seq then stOkBuffered else w.status

/-- The completion of an entry may be written as far as durability goes (R266). -/
def mayComplete (j : Journal) (w : Work) : Bool :=
  w.stage == .done && (!w.waitDur || w.seq == 0 || durableSeq j w.seq)

/-- One pass over the entries in fetch order: a completion is written when no earlier entry of its queue is still without one
(R140). What stays is kept in order. -/
def deliverAll (gates : List Gate) (j : Journal) : List Work → List Nat → Deliver → List Work × Deliver
  | [], _, d => ([], d)
  | w :: ws, blocked, d =>
    if mayComplete j w && !blocked.contains w.qix then
      deliverAll gates j ws blocked (d.put gates w.qix (eHtag w.ent) w.seq (finalStatus j w) w.detail w.acc)
    else
      let r := deliverAll gates j ws (w.qix :: blocked) d
      (w :: r.1, r.2)

/-! Credit in use. -/

/-- The first entry that `p` picks is changed. -/
def modFirst (p : Work → Bool) (f : Work → Work) : List Work → List Work
  | [] => []
  | w :: ws => if p w then f w :: ws else w :: modFirst p f ws

/-- A queue of the host paths: an SPI queue is never affected by the host path (R85). -/
def hostQueue (s : State) (q : Nat) : Bool := (queueOf s q).path ≠ .spi

/-- Ingress bytes charged to a function by the entries inside; SPI queues have a pool of their own (R142). -/
def chargeOf (s : State) (f : Nat) : Nat :=
  ((s.work.filter fun w => w.fn == f && hostQueue s w.qix).map (·.charge)).sum

/-- Ingress bytes in use by SPI queues (R142). -/
def spiCharge (s : State) : Nat := ((s.work.filter fun w => !hostQueue s w.qix).map (·.charge)).sum

/-- Staging bytes charged to a function by the entries inside (R143). -/
def stChargeOf (ws : List Work) (f : Nat) : Nat := ((ws.filter (·.fn == f)).map (·.stCharge)).sum

/-- The credit of every function is what the entries inside hold (R142, R143, R148). -/
def recharge (s : State) : State :=
  { s with
    fns := s.fns.mapIdx fun f x => { x with inUsed := chargeOf s f, stUsed := stChargeOf s.work f }
    spi := { s.spi with used := spiCharge s } }

/-- Every completion whose turn has come is written, and the credit of an entry decided before scheduling returns with its completion (R139, R140,
R142). -/
def deliver (s : State) : State :=
  let r := deliverAll s.gates s.jrn s.work [] ⟨s.queues, s.post, s.link.usbOut, s.spi.compl, []⟩
  if r.1.length = s.work.length then s
  else
    r.2.faults.foldl (fun t f => gateFault f t) (recharge { s with
      work := r.1
      queues := r.2.queues
      vecs := r.2.post.vecs, out := r.2.post.out, pmon := r.2.post.pmon
      link := { s.link with usbOut := r.2.usb }
      spi := { s.spi with compl := r.2.spi } })

/-! What follows from every command. -/

/-- The journal has been recovered in this start (R280). -/
def journalUp (s : State) : Bool :=
  match s.pwr.phase with
  | .started | .ready | .service | .recovery => true
  | _ => false

/-- Journal fill crossings since the level last reported (R270): JFILL_75, JFILL_90 and JOURNAL_FULL, rising and falling. -/
def fillEvents (s : State) : State :=
  if !journalUp s then s
  else
  let old := s.jrn.fill
  let new := jfill s
  let one := fun (level code pct : Nat) (s : State) =>
    if old < level ∧ level ≤ new then event code pct s
    else if new < level ∧ level ≤ old then event code (256 + pct) s
    else s
  let s1 := one 3 0x0503 0 (one 2 0x0502 (fillPct s) (one 1 0x0501 (fillPct s) s))
  { s1 with jrn := { s1.jrn with fill := new } }

/-- The DEV_EVENT flags of the changes between two states (R119, R120). -/
def noteChanges (s0 s : State) : State :=
  let s1 := if stateCode s0 ≠ stateCode s ∨ s0.pwr.degraded ≠ s.pwr.degraded ∨ s0.lc ≠ s.lc then devEventAll 0 s else s
  let s2 := if alert s0 ≠ alert s then devEventAll 1 s1 else s1
  let s3 := if s0.jrn.fill ≠ s.jrn.fill then devEventAll 2 s2 else s2
  (List.range 16).foldl
    (fun t f => if (fnOf s0 f).enabled ≠ (fnOf s f).enabled then devEvent f 3 t else t) s3

/-- What follows from a command without a command of its own: completions whose turn has come with the credit they return,
journal fill crossings and DEV_EVENT flags. Only the parts named here can differ from the state before it. -/
def settle (s0 s : State) : State :=
  let t := noteChanges s0 (fillEvents (deliver s))
  { s with
    fns := t.fns, vecs := t.vecs, queues := t.queues, work := t.work, gates := t.gates, out := t.out, pmon := t.pmon, ev := t.ev
    link := { s.link with usbOut := t.link.usbOut, usbNotify := t.link.usbNotify }
    spi := { s.spi with compl := t.spi.compl, used := t.spi.used }
    jrn := { s.jrn with fill := t.jrn.fill } }

/-! The frame of a mailbox command. -/

/-- What a command's own steps end in. -/
inductive Reply where
  /-- It has executed: the state it leaves, STATUS, DETAIL and response body. -/
  | done (s : State) (status detail : Nat) (body : Bytes)
  /-- It waits before it responds: the object it waits for, and the body it will carry. -/
  | wait (s : State) (obj : Nat) (body : Bytes)

/-- A refusal with nothing changed. -/
def Reply.refuse (s : State) (status detail : Nat) : Reply := .done s status detail []

/-- The mailbox takes no request: no such mailbox, or the Asaskac is not there to take it (R63, R83). -/
def unreachable (r : Req) (s : State) : Bool :=
  !mailboxExists r.path r.fn r.mbx || !(fnOf s r.fn).present
    || (match s.pwr.phase with
        | .off | .held | .startDue | .flushPower | .flushReset => true
        | _ => false)

/-- Commands that are taken only once service is complete: draws, instant batches and journal export (R66, R68). -/
def serviceOnly (op : Nat) : Bool := [0x0401, 0x0402, 0x0403, 0x0404, 0x0405, 0x0503].contains op

/-- The request has to wait before it is judged: mailbox ready has not come and the command is not one that is answered
before it, the command is taken only once service is complete, or the Asaskac is in standby (R50, R66, R68;
notes/assumptions/38.md). -/
def mustHold (op : Nat) (s : State) : Bool :=
  s.pwr.standby || s.pwr.standbyDue || (!mailboxUp s && !(s.pwr.phase == .started && earlyServes op))
    || (s.pwr.phase == .ready && serviceOnly op)

/-- The request is taken, judged by R445 and executed, and its response delivered. -/
def runCommand (op : Nat) (r : Req) (need : Option Nat) (run : State → Reply) (s : State) : State :=
  match admission op r need s with
  | some (st, det) => respond op r st det [] s
  | none =>
    match run s with
    | .done t st det body => respond op r st det body t
    | .wait t obj body =>
      { modMbx r.fn r.mbx (fun m => { m with busy := true }) t with
        waiters := t.waiters ++ [{ req := r, op := op, obj := obj, body := body }] }

/-- A request from a path without the host role, or to mailbox 63 from a host path: BUSY_OWNED, whatever another path's command does in the
mailbox, which stays BUSY with it (R84, R85, R445 step 1). -/
def turnAway (op : Nat) (r : Req) (s : State) : State :=
  let b := (mbxOf s r.fn r.mbx).busy
  modMbx r.fn r.mbx (fun m => { m with busy := b }) (respond op r stBusyOwned 0 [] s)

/-- A mailbox command, as its path delivers it (R121 to R124, R66, R50, R445). `i` is the command itself, which is kept where it
must wait to be judged. -/
def command (i : Instr) (op : Nat) (r : Req) (need : Option Nat) (run : State → Reply) (s : State) : State :=
  if unreachable r s then s
  else if !pathOk r s then settle s (turnAway op r s)
  else if (mbxOf s r.fn r.mbx).busy then modMbx r.fn r.mbx (fun m => { m with overrun := true }) s
  else if mustHold op s then
    { modMbx r.fn r.mbx (fun m => { m with busy := true }) s with
      held := s.held ++ [i]
      pwr := { s.pwr with wake := s.pwr.wake || s.pwr.standby || s.pwr.standbyDue } }
  else settle s (runCommand op r need run s)

end Sys2Proof.Machine
end

