-- ==== Sys2Proof/Machine/Conditioner.lean ====
section
/-! DEFINITION. The conditioner of Larkspur: a CBC-MAC channel for each noise bank, the block it holds back, and the consumers (R213, R219,
R220), with the keys that the key store and the memory engines draw from it (R192, R298, R324). -/

namespace Sys2Proof.Machine

/-- Banks in SERVING (R216, R222). -/
def banksIn (s : State) : Nat := ([0, 1, 2].filter fun b => (s.banks.getD b {}).st == .serving).length

/-- The conditioner serves a consumer that needs `n` banks (R220). -/
def condUp (s : State) (n : Nat) : Bool := s.lark.condOn && n ≤ banksIn s

/-- The conditioned block of a bank: the CBC-MAC over 1,024 raw bits, under a key whose byte 0 is the bank number (R219). -/
@[irreducible] def condBlock (bank : Nat) (raw : BitVec 1024) : Bytes :=
  let ks := aesKeys (le 1 bank ++ zeros 31)
  (chunks 16 (be 128 raw.toNat)).foldl (fun m x => aesEncWith ks (xorB m x)) (zeros 16)

/-- A bank enters SERVING: the conditioner holds back its first block (R213, R216). -/
def bankServes (b : Nat) (s : State) : State :=
  drew { s with banks := modAt s.banks b fun x => { x with st := .serving, credited := true, heldRaw := some (Config.raw s.free) } }

/-- The conditioner's state is zeroised: a block held back is dropped, and the samples that follow take its place (R213, R219, R379 step 4). -/
def zeroiseConditioner (s : State) : State :=
  [0, 1, 2].foldl (fun t b =>
    drew { t with banks := modAt t.banks b fun x => { x with heldRaw := x.heldRaw.map fun _ => Config.raw t.free } }) s

/-- A bank releases the block held back, the samples after it having passed, and the conditioner holds back the next one (R213, R222). -/
def takeFrom (b : Nat) (s : State) : Bytes × State :=
  (condBlock b ((s.banks.getD b {}).heldRaw.getD (Config.raw (s.free + 1))),
    count 0x60 0 1 (drew (drew { s with
      banks := modAt s.banks b fun x => { x with blocks := x.blocks + 1, heldRaw := some (Config.raw s.free) } })))

/-- `n` blocks of one bank. -/
def takeMany (b : Nat) : Nat → State → Bytes × State
  | 0, s => ([], s)
  | n + 1, s =>
    let x := takeFrom b s
    let y := takeMany b n x.2
    (x.1 ++ y.1, y.2)

/-- The serving bank whose turn it is (R220). -/
def turnBank (s : State) : Option Nat :=
  [0, 1, 2].findSome? fun i =>
    let b := (s.lark.turn + i) % 3
    if (s.banks.getD b {}).st = .serving then some b else none

/-- One block from the bank whose turn it is (R220). -/
def takeBlock (s : State) : Bytes × State :=
  match turnBank s with
  | some b =>
    let x := takeFrom b s
    (x.1, { x.2 with lark := { x.2.lark with turn := (b + 1) % 3 } })
  | none => ([], s)

/-- `n` blocks from the banks in SERVING in turn (R220). -/
def takeBlocks : Nat → State → Bytes × State
  | 0, s => ([], s)
  | n + 1, s =>
    let x := takeBlock s
    let y := takeBlocks n x.2
    (x.1 ++ y.1, y.2)

/-- 256 bits from the conditioner: two blocks (R186, R220). -/
def takeSeed (s : State) : BitVec 256 × State :=
  let x := takeBlocks 2 s
  (BitVec.ofNat 256 (beVal x.1), x.2)

/-- 384 bits from every bank in SERVING, combined by exclusive or (R220, R231 step 1). -/
def formSeed (s : State) : Bytes × State :=
  ((List.range 3).filter fun b => (s.banks.getD b {}).st == .serving).foldl
    (fun a b =>
      let x := takeMany b 3 a.2
      (xorB a.1 (fit 48 x.1), x.2)) (zeros 48, s)

/-- Fresh wrap keys of the session table and of saved states, and an empty session table (R192, R298, R314 step 6). Where no bank serves they are
drawn once one does (R220; notes/assumptions/15.md). -/
def freshWraps (s : State) : State :=
  let s1 := { s with keys := { s.keys with sess := [], sessWrap := 0, saveWrap := 0, wrapSet := false } }
  if condUp s 1 then
    let a := takeSeed s1
    let b := takeSeed a.2
    { b.2 with keys := { b.2.keys with sessWrap := a.1, saveWrap := b.1, wrapSet := true } }
  else s1

/-- The XTS keys and the MAC key of the memory engines are drawn (R324). -/
def engineKeys (s : State) : State :=
  if condUp s 1 then
    let a := takeBlocks 4 s
    let b := takeSeed a.2
    { b.2 with engine := { xts := BitVec.ofNat 512 (beVal a.1), mac := b.1, set := true } }
  else s

/-- Keys of a start that waited for conditioned entropy are drawn (R192, R220, R298, R324). -/
def drawWaiting (s : State) : State :=
  let s1 := if s.keys.root.isSome && !s.keys.wrapSet && !s.tamper.t3 then freshWraps s else s
  if s1.engine.set || s1.tamper.t3 then s1 else engineKeys s1

end Sys2Proof.Machine
end

