-- ==== Sys2Proof/Machine/Record.lean ====
section
/-! DEFINITION. The journal's operations: record sequence numbers (R262, R446), entries and pages (R253 to R264), leaves and
batches (R252, R259, R263), what is DURABLE (R264), and the steps of the Apron flush (R278). -/

namespace Sys2Proof.Machine

/-! Record sequence numbers. -/

/-- The record sequence mark (R262). -/
def seqMark (s : State) : Nat := (ctrOf s 0).live

/-- The mark after a raise: by 2^24, never above the reserve; within the reserve by 256 (R262, R446). -/
def raisedMark (mark : Nat) : Nat :=
  if mark < seqReserveStart then min (mark + 2 ^ 24) seqReserveStart else min (mark + 256) (2 ^ 48)

/-- The mark is raised and written through. -/
def raiseMark (s : State) : State := setCtr 0 (raisedMark (seqMark s)) s

/-- The next SEQ is assigned. No SEQ at or above the mark is assigned before the mark has been raised (R262). -/
def takeSeq (s : State) : State :=
  let s1 := if s.jrn.nextSeq < seqMark s then s else raiseMark s
  { s1 with jrn := { s1.jrn with nextSeq := s.jrn.nextSeq + 1, highest := s.jrn.nextSeq } }

/-! What is DURABLE. -/

/-- Ranges in rising order of their first SEQ. -/
def insertRange (r : Nat × Nat) : List (Nat × Nat) → List (Nat × Nat)
  | [] => [r]
  | x :: xs => if r.1 ≤ x.1 then r :: x :: xs else x :: insertRange r xs

/-- DURABLE_SEQ over ranges in rising order, and the ranges that stay above it (R264). -/
def advance : Nat → List (Nat × Nat) → Nat × List (Nat × Nat)
  | d, [] => (d, [])
  | d, x :: xs =>
    if x.1 ≤ d + 1 then advance (max d x.2) xs
    else ((advance d xs).1, x :: (advance d xs).2)

/-- The ranges of entries become DURABLE (R264). -/
def Journal.cover (es : List Entry) (j : Journal) : Journal :=
  let a := advance j.durable (es.foldl (fun c e => insertRange (e.first, e.last) c) j.covered)
  { j with durable := a.1, covered := a.2 }

/-! Entries and pages. -/

/-- Payload bytes of a ring page (R253). -/
def pagePayload : Nat := 248

/-- Bytes of the pending ring area: frames 0 to 62 of the journal buffer (R251). -/
def pendingCap : Nat := 15624

/-- A page of the ring with its seal: the payload, PSEQ, and the CRC-32 of the payload (R253). -/
def pageOf (no : Nat) (payload : Bytes) : Page := { bytes := fit pagePayload payload ++ le 4 no ++ le 4 (crc32 (fit pagePayload payload)).toNat, no := no }

/-- The page that stands at the place of page number `no` (R253). -/
def pageAt (s : State) (no : Nat) : Page := tgetD s.nv.pages (no % ringPages) {}

/-- A page is sealed: its CRC matches and its PSEQ, modulo 2^32, is the one expected (R253). -/
def Page.sealed (no : Nat) (p : Page) : Bool :=
  p.bad == [] && p.bytes.length == 256 && num p.bytes 248 4 == no % 2 ^ 32
    && num p.bytes 252 4 == (crc32 (p.bytes.take pagePayload)).toNat

/-- Frame `k` of the pending ring area: the payload of a page to be written (R251). -/
def Journal.frame (j : Journal) (k : Nat) : Bytes := slice j.pending (pagePayload * k) pagePayload

/-- Ring pages that hold nothing retained: no other page is written (R254, R270). -/
def freePages (s : State) : Nat := ringPages - ringUsed s

/-- The MRAM and the journal buffer work: without either no page is written (R33). -/
def ringWorks (s : State) : Bool := !s.pwr.unitsFailed.any fun u => u.1 == 7 || (u.1 == 4 && u.2 != 255)

/-- A digest unit is there to chain the journal and to form batch roots (R32). -/
def chainOn (s : State) : Bool := s.dgu0.inService || s.dgu1.inService

/-- An entry is placed after the bytes already placed in unsealed pages, and the chain runs on (R256, R261). `last` is the PSEQ of
the last sealed page. -/
def Journal.place (lastPseq : Nat) (bytes : Bytes) (first last : Nat) (j : Journal) : Journal :=
  let at0 := j.pending.length
  let fin := at0 + bytes.length
  let e : Entry :=
    { bytes := bytes
      first := first
      last := last
      page := lastPseq + 1 + at0 / pagePayload
      pageEnd := lastPseq + 1 + (fin - 1) / pagePayload }
  { j with
    unsealed := j.unsealed ++ [e]
    pending := j.pending ++ bytes
    chain := sha384 (h384 j.chain ++ bytes) }

/-- The page being filled is closed with padding (R254, R256). -/
def Journal.pad (j : Journal) : Journal :=
  { j with pending := fit ((j.pending.length + pagePayload - 1) / pagePayload * pagePayload) j.pending }

/-- Pages from number `no + 1` on as they are written. -/
def putPages (no n : Nat) (j : Journal) (t : Tab Page) : Tab Page :=
  (List.range n).foldl (fun t i => tset t ((no + 1 + i) % ringPages) (pageOf (no + 1 + i) (j.frame i))) t

/-- `m` pages are written and sealed, or as many as the ring has free: the entries that end in them go to the ring and become DURABLE (R253,
R254, R264). -/
def sealPages (m : Nat) (s : State) : State :=
  let n := if ringWorks s then min m (freePages s) else 0
  let last := s.nv.lastPseq + n
  let fin := s.jrn.unsealed.filter (·.pageEnd ≤ last)
  let j := { s.jrn with
    unsealed := s.jrn.unsealed.filter (fun e => !(e.pageEnd ≤ last))
    pending := s.jrn.pending.drop (n * pagePayload) }
  { s with
    jrn := j.cover fin
    nv := { s.nv with pages := putPages s.nv.lastPseq n s.jrn s.nv.pages, ring := s.nv.ring ++ fin, lastPseq := last }
    pmon := (s.pmon.count 0x32 0 n).count 0x44 0 n }

/-- Every page with bytes in it is closed and written (R254). -/
def writePages (s : State) : State :=
  let j := s.jrn.pad
  sealPages (j.pending.length / pagePayload) { s with jrn := j }

/-- Full pages are written where the pending ring area has no room for another entry of `len` bytes (R251; notes/assumptions/95.md). -/
def makeRoom (len : Nat) (s : State) : State :=
  if s.jrn.pending.length + len ≤ pendingCap then s else sealPages (s.jrn.pending.length / pagePayload) s

/-- The pending ring area takes another entry of `len` bytes (R251; notes/assumptions/95.md). -/
def roomForEntry (len : Nat) (s : State) : Bool := decide ((makeRoom len s).jrn.pending.length + len ≤ pendingCap)

/-- No entry is written: no SEQ remains (R446), the START entry of recovery mode stands (R76), no digest unit chains the journal (R32), the
MRAM or the journal buffer has failed (R33), or neither the ring nor the pending ring area has room (R251, R254; notes/assumptions/95.md). -/
def entriesStop (s : State) : Bool :=
  seqExhausted s || s.pwr.phase == .recovery || !chainOn s || !ringWorks s || !roomForEntry 2040 s

/-- The header and body of an entry (R256, R257): 8-byte words, a SEQ, the operating seconds when it was formed. -/
def entryBytes (s : State) (type : Nat) (claimed : Bool) (seq : Nat) (body : Bytes) : Bytes :=
  let words := (16 + body.length + 7) / 8
  fit (8 * words)
    (le 1 type ++ le 1 (b2n s.keys.testRoot + 2 * b2n claimed) ++ le 1 words ++ [0] ++ le 6 seq ++ le 5 s.opsec ++ [0] ++ body)

/-- The in-order point passes the SEQs of standalone entries (R263). -/
def skipStandalone : Nat → Nat → List Nat → Nat × List Nat
  | 0, n, l => (n, l)
  | fuel + 1, n, l => if l.contains n then skipStandalone fuel (n + 1) (l.filter (· ≠ n)) else (n, l)

/-- The in-order point after the standalone entries at it. -/
def Journal.skip (j : Journal) : Journal :=
  let r := skipStandalone j.standalone.length j.inOrder j.standalone
  { j with inOrder := r.1, standalone := r.2 }

/-- A standalone entry is formed with the next SEQ, placed in the ring at once, its page closed and written: it is DURABLE
(R260, R264). -/
def journalEntry (type : Nat) (claimed : Bool) (body : Bytes) (s : State) : State :=
  if entriesStop s then s
  else
    let seq := s.jrn.nextSeq
    let s1 := takeSeq (makeRoom 2040 s)
    let j := s1.jrn.place s1.nv.lastPseq (entryBytes s type claimed seq body) seq seq
    writePages { s1 with jrn := Journal.skip { j with standalone := j.standalone ++ [seq] } }

/-- The SEQ that an entry formed now takes: 0 when none is written. -/
def entrySeq (s : State) : Nat := if entriesStop s then 0 else s.jrn.nextSeq

/-- Entry types taken into the ring reserve and the record sequence reserve: START, DEGRADED, RECLAIM, CLOSE, CANCEL, COMMIT by
DRAW_RUN, RESULT, CERT, VOID, KEY_INVALIDATE, KEY_SPLIT, DEVICE_KEYS, LC_DECODE and DBG_END (R270). The key entries are told
apart by their type codes of R320. -/
def reserveTakes (type : Nat) : Bool :=
  [0x01, 0x02, 0x05, 0x06, 0x11, 0x12, 0x13, 0x14, 0x15, 0x16, 0x31, 0x32, 0x33, 0x39, 0x3B].contains type

/-- The refusal of a command whose entry R270 and R446 do not admit now: status and DETAIL. `reserve` says whether the entry is in
the first column of R270. A command whose entry needs a failed unit answers UNSUPPORTED (R32, R33; notes/assumptions/91.md). -/
def entryRefusal (reserve : Bool) (s : State) : Option (Nat × Nat) :=
  if seqExhausted s then some (stUnsupported, 5)
  else if !reserve && seqReserve s then some (stUnsupported, 5)
  else if !chainOn s || !ringWorks s then some (stUnsupported, 0)
  else if (!reserve && journalFull s) || !roomForEntry 2040 s then some (stJournalFull, 0)
  else none

/-! Leaves and batches. -/

/-- The 48-byte outcome descriptor (R175). -/
def descriptor (w : Work) (status detail : Nat) (rtag : BitVec 128) : Bytes :=
  le 1 (eOpc w.ent) ++ le 1 (eFlg w.ent) ++ le 2 status ++ le 4 (w.qix + 2 ^ 18 * w.fn) ++ le 6 w.seq ++ le 1 detail ++ [0]
    ++ le 4 (eHtag w.ent) ++ le 3 (eLen3 w.ent) ++ [0] ++ tagBytes rtag ++ zeros 8

/-- The detail record of a leaf: descriptor and leaf (R252). -/
def Leaf.detail (l : Leaf) : Bytes := l.desc ++ tagBytes l.leaf

/-- Detail records that detail staging holds (R250, R271). -/
def stagingCap : Nat := 16515072

/-- Detail records of the detail area of the journal buffer (R251, R269). -/
def detailCap : Nat := 15624

/-- A leaf's detail enters staging, oldest first overwritten (R271). -/
def Journal.stage (l : Leaf) (j : Journal) : Journal :=
  if j.staging.length < stagingCap then { j with staging := j.staging ++ [l] }
  else
    { j with
      staging := j.staging.drop 1 ++ [l]
      overwritten := max j.overwritten ((j.staging.head?.map (·.seq)).getD 0) }

/-- Leaves in rising SEQ order. -/
def insertLeaf (l : Leaf) : List Leaf → List Leaf
  | [] => [l]
  | x :: xs => if l.seq ≤ x.seq then l :: x :: xs else x :: insertLeaf l xs

/-- A leaf is handed to the journal writer (R175, R263). -/
def Journal.leafIn (l : Leaf) (j : Journal) : Journal :=
  Journal.stage l { j with waiting := insertLeaf l j.waiting }

/-- The root of a batch: SHA-384 of its leaves in SEQ order (R259). -/
def batchRoot (b : List Leaf) : BitVec 384 := sha384 (b.map (fun l => tagBytes l.leaf)).flatten

/-- The BATCH entry of a batch (R256, R257). -/
def batchEntry (s : State) (b : List Leaf) : Bytes :=
  let first := (b.head?.map (·.seq)).getD 0
  let last := (b.getLast?.map (·.seq)).getD 0
  le 1 1 ++ le 1 (b2n s.keys.testRoot) ++ le 1 8 ++ [0] ++ le 6 last ++ le 6 first ++ h384 (batchRoot b)

/-- The open batch closes: its BATCH entry is placed. In DEGRADED the entry gets a page of its own, written at once (R259,
R266). -/
def closeBatch (s : State) : State :=
  if s.jrn.batch = [] || !chainOn s || !roomForEntry 64 s then s
  else
    let s0 := makeRoom 64 s
    let first := (s.jrn.batch.head?.map (·.seq)).getD 0
    let last := (s.jrn.batch.getLast?.map (·.seq)).getD 0
    let j := s0.jrn.place s0.nv.lastPseq (batchEntry s s.jrn.batch) first last
    let s1 := { s0 with jrn := { j with batch := [] }, pmon := s0.pmon.count 0x31 0 1 }
    if s.pwr.degraded then writePages s1 else s1

/-- The leaf at the in-order point, when it has been handed in (R263). -/
def leafAtPoint (j : Journal) : Option Leaf := j.waiting.find? (·.seq == j.inOrder)

/-- The leaf at the in-order point is folded into the open batch, which closes at its 4,096th leaf (R259, R263); with FLG.SYNC it
closes at once and its page is written (R266). -/
def foldLeaf (l : Leaf) (s : State) : State :=
  let j := { s.jrn with
    waiting := s.jrn.waiting.filter (fun x => x.seq ≠ l.seq)
    batch := s.jrn.batch ++ [l]
    inOrder := l.seq + 1 }
  let s1 := { s with jrn := j.skip, pmon := s.pmon.count 0x30 0 1 }
  if bit (num l.desc 1 1) 0 then writePages (closeBatch s1)
  else if 4096 ≤ s1.jrn.batch.length then closeBatch s1 else s1

/-- Every leaf handed in is folded, in SEQ order (R259). `fuel` leaves at most. -/
def foldAll : Nat → State → State
  | 0, s => s
  | fuel + 1, s =>
    match s.jrn.waiting with
    | [] => s
    | l :: _ => foldAll fuel (foldLeaf l s)

/-! The Apron flush. -/

/-- An operation that holds a SEQ and has not been released (R252, R278). -/
def Work.inFlight (w : Work) : Bool := w.seq ≠ 0 && !w.journalled

/-- The leaf of an ABANDONED operation: descriptor with STATUS 0xFFFF, leaf of zero bytes (R252). -/
def abandonedLeaf (w : Work) : Leaf := { seq := w.seq, desc := descriptor w stAbandoned 0 0, leaf := 0 }

/-- Every operation in flight is recorded as ABANDONED, and no entry is left inside (R252, R278 step 1). -/
def abandonAll (s : State) : State :=
  { s with
    jrn := (s.work.filter Work.inFlight).foldl (fun j w => j.leafIn (abandonedLeaf w)) s.jrn
    work := [] }

/-- Steps 1 to 3 of the flush: ABANDONED records, batches, pending ring area (R278, R379). -/
def flushJournal (s : State) : State :=
  let s1 := abandonAll s
  writePages (closeBatch (foldAll s1.jrn.waiting.length s1))

/-- A VOTE counter's copies take its value in SRAM (R282). -/
def backWrite (n : Nat) (s : State) : State :=
  { setCtr n (ctrOf s n).live s with dirtyCtrs := s.dirtyCtrs.filter (· ≠ n) }

/-- Step 4 of the flush: counter 3, and then the dirty counters, dirty longest first (R278, R282). -/
def flushCounters (s : State) : State :=
  s.dirtyCtrs.foldl (fun s n => backWrite n s) (setCtr 2 s.pwrCyc (setCtr 3 s.opsec s))

/-- A meter page goes to MRAM as the mirror holds it, with its write count one higher (R20, R392). -/
def writeMeterPage (p : Nat) (s : State) : State :=
  { s with
    nv := { s.nv with
      meter := mwrites s.nv.meter (256 * p) (mreads s.meter.mirror (256 * p) 248)
      meterCnt := tset s.nv.meterCnt p (tgetD s.nv.meterCnt p 0 + 1) }
    meter := { s.meter with dirty := s.meter.dirty.filter (· ≠ p) }
    pmon := s.pmon.count 0x44 0 1 }

/-- Step 5 of the flush: dirty meter pages (R278). -/
def flushMeter (s : State) : State := s.meter.dirty.foldl (fun s p => writeMeterPage p s) s

/-- Slots of the event area (R409). -/
def eventSlots : Nat := 262144

/-- Pending event records go to the event area in EVN order (R410). -/
def writeEvents (s : State) : State :=
  { s with
    nv := { s.nv with evArea := s.ev.buf.foldl (fun a r => tset a (r.evn % eventSlots) r) s.nv.evArea }
    ev := { s.ev with buf := [] } }

/-- The summary of one code's suppressed events: EVT_SUPPRESSED with the code and the count, and the count restarts (R413). -/
def suppressedSummary (code : Nat) (s : State) : State :=
  let n := tgetD s.ev.supp code 0
  let s1 := { s with ev := { s.ev with supp := tdel s.ev.supp code, suppAt := tdel s.ev.suppAt code } }
  eventX 0x0902 code (le 4 (min n (2 ^ 32 - 1))) s1

/-- One summary for each code with a pending count, as a flush begins (R413). -/
def allSummaries (s : State) : State := s.ev.supp.foldl (fun s e => suppressedSummary e.1 s) s

/-- The detail of this cycle's records, oldest first; before it stands what a start copied from the tail area (R271, R280). -/
def cycleDetail (j : Journal) : List Leaf := j.staging.filter fun l => decide (j.cycleFirst ≤ l.seq)

/-- The detail area of the journal buffer, a ring of 15,624 records: the detail handed in last in this cycle (R250, R251). -/
def detailArea (j : Journal) : List Leaf := (cycleDetail j).drop ((cycleDetail j).length - detailCap)

/-- The highest SEQ of the detail that the detail area no longer holds (R251, R276). -/
def detailGap (j : Journal) : Nat :=
  ((cycleDetail j).take ((cycleDetail j).length - detailCap)).foldl (fun m l => max m l.seq) j.overwritten

/-- Steps 7 and 8 of the flush: the detail area and the tail header, with the SEQ range of that detail (R250, R278, R279). -/
def writeTail (s : State) : State :=
  let d := detailArea s.jrn
  let t : Tail :=
    { valid := true
      bootEpoch := s.bootEpoch
      pwr := s.pwrCyc
      pseq := s.nv.lastPseq
      highest := s.jrn.highest
      lo := d.foldl (fun m l => if m = 0 then l.seq else min m l.seq) 0
      hi := d.foldl (fun m l => max m l.seq) 0
      gap := detailGap s.jrn
      detail := d }
  { s with nv := { s.nv with tail := t } }

/-- What a flush finds in the areas that it writes is kept, so that a flush that is cut can be told at the next start (R255, R267;
notes/assumptions/21.md). -/
def markFlush (s : State) : State :=
  let found : PreFlush :=
    { pages := s.nv.pages, lastPseq := s.nv.lastPseq, ctrs := s.nv.ctrs, meter := s.nv.meter, meterCnt := s.nv.meterCnt
      evArea := s.nv.evArea, tail := s.nv.tail }
  { s with nv := { s.nv with preFlush := some found } }

/-- The Apron flush, in the order of R278. It is written at the declaration in one step (notes/assumptions/21.md). -/
def flush (s : State) : State :=
  writeTail (writeEvents (flushMeter (flushCounters (flushJournal (markFlush (allSummaries s))))))

/-! Waiting commands. -/

/-- A waiting command responds; after a reset of its function its result is recorded as an event instead (R106). -/
def answerWaiter (w : Waiter) (status detail : Nat) (body : Bytes) (s : State) : State :=
  if w.orphan then
    eventX 0x010D (w.req.fn + 16 * w.req.mbx) (le 2 w.op ++ le 2 status) s
  else respond w.op w.req status detail body s

/-- Every waiting command that `p` picks responds with what `reply` gives, and waits no longer. -/
def answerAll (p : Waiter → Bool) (reply : Waiter → Nat × Nat × Bytes) (s : State) : State :=
  let hit := s.waiters.filter p
  hit.foldl (fun s w => let r := reply w; answerWaiter w r.1 r.2.1 r.2.2 s)
    { s with waiters := s.waiters.filter (fun w => !p w) }

end Sys2Proof.Machine
end

