-- ==== Sys2Proof/Machine/KeyBase.lean ====
section
/-! DEFINITION. The key store's values as functions of the state: records with two copies (R299, R300), handles (R292), the
hierarchy of derived keys (R290, R291), the state and use of a key (R293, R307, R315), wrapping and unwrapping (R296, R298), hybrid
signatures and role keys (R303, R354). -/

namespace Sys2Proof.Machine

/-! Records with two copies. -/

/-- What a pair of copies resolves to (R300). -/
inductive Resolved (α : Type) where
  /-- Never written. -/
  | blank
  /-- No copy can be trusted. -/
  | unusable
  /-- The content in force with its RSEQ. -/
  | ok (rseq : Nat) (content : α)
  deriving DecidableEq, Repr

/-- `a` is the later of two copy sequence numbers, compared modulo 2^32 (R300). -/
def rseqLater (a b : Nat) : Bool := (a + 2 ^ 32 - b % 2 ^ 32) % 2 ^ 32 < 2 ^ 31

/-- The content in force (R300). -/
def AB.resolve {α : Type} [DecidableEq α] (p : AB α) : Resolved α :=
  match p.a, p.b with
  | .good ra x, .good rb y =>
    if ra % 2 ^ 32 = rb % 2 ^ 32 then (if x = y then .ok ra x else .unusable)
    else if rseqLater ra rb then .ok ra x else .ok rb y
  | .good ra x, _ => .ok ra x
  | _, .good rb y => .ok rb y
  | .blank, .blank => .blank
  | _, _ => .unusable

/-- The RSEQ of the next copy to be written (R299); over an unusable pair it is later than both. -/
def AB.nextRseq {α : Type} [DecidableEq α] (p : AB α) : Nat :=
  match p.resolve, p.a, p.b with
  | .ok r _, _, _ => (r + 1) % 2 ^ 32
  | _, .good ra _, .good _ _ => (ra + 1) % 2 ^ 32
  | _, _, _ => 1

/-- Copy A holds the value in force (R299). -/
def AB.inA {α : Type} [DecidableEq α] (p : AB α) : Bool :=
  match p.a, p.resolve with
  | .good ra _, .ok r _ => ra == r
  | _, _ => false

/-- New content is written to the copy that does not hold the value in force, with the next RSEQ (R299). -/
def AB.update {α : Type} [DecidableEq α] (p : AB α) (x : α) : AB α :=
  if p.inA then { p with b := .good p.nextRseq x } else { p with a := .good p.nextRseq x }

/-- The content in force, or a default where there is none. -/
def AB.value {α : Type} [DecidableEq α] (p : AB α) (d : α) : α :=
  match p.resolve with
  | .ok _ x => x
  | _ => d

/-! Generations and handles. -/

/-- The generation of an index: 0 until it is first raised (R297). -/
def genOf (s : State) (i : Nat) : Nat := AB.value (tgetD s.nv.genRecs i ⟨.blank, .blank⟩) 0

/-- The generation with which the hierarchy is computed: the domains are fixed at GEN 0 under the test root (R317). -/
def genUsed (s : State) (i : Nat) : Nat := if i < 3 ∧ s.keys.testRoot then 0 else genOf s i

/-- The handle of the current key at a persistent index (R292). -/
def handleOf (s : State) (i : Nat) : Nat := genUsed s i % 2 ^ 18 * 4096 + i % 4096

/-- The creation count of a session index (R292). -/
def sessCount (s : State) (i : Nat) : Nat := tgetD s.nv.sessCnt i 0

/-- The handle of the current key at a session index (R292). -/
def sessHandle (s : State) (i : Nat) : Nat := 2 ^ 30 + sessCount s i % 4096 * 2 ^ 18 + i % 2 ^ 18

/-- What a handle names (R292). -/
inductive KeyName where
  | persistent (index : Nat)
  | session (index : Nat)
  /-- Stale: an empty slot. -/
  | stale
  /-- Bits 31:30 hold a reserved value. -/
  | reserved
  deriving DecidableEq, Repr

/-- The key a handle names: only while its generation or creation count is the current one (R292). -/
def nameOf (s : State) (h : Nat) : KeyName :=
  match h / 2 ^ 30 % 4 with
  | 0 => if h / 4096 % 2 ^ 18 = genUsed s (h % 4096) % 2 ^ 18 then .persistent (h % 4096) else .stale
  | 1 => if h / 2 ^ 18 % 4096 = sessCount s (h % 2 ^ 18) % 4096 then .session (h % 2 ^ 18) else .stale
  | _ => .reserved

/-! Secrets. -/

/-- The root in force as bytes. -/
def rootBytes (s : State) : Option Bytes := s.keys.root.map fun r => be 64 r.toNat

/-- TEST_ROOT = KDF(SHA-512("FLIAT FLA9412 TEST ROOT 01"), FLTESTROOT, unit ID, 512) (R317). -/
def testRootValue : BitVec 512 :=
  BitVec.ofNat 512 (beVal (kdf (be 64 (sha512 (ascii "FLIAT FLA9412 TEST ROOT 01")).toNat) "FLTESTROOT" unitIdBytes 512))

/-- The secret of DOMAIN `d` (R291). -/
def domainSecret (s : State) (d : Nat) : Option Bytes :=
  (rootBytes s).map fun k => kdf k "FLDOMAIN" (unitIdBytes ++ be 1 d ++ be 4 (genUsed s d)) 256

/-- The child wrap key of key `i` with secret `k` (R291). -/
def wrapKey (k : Bytes) (i gen : Nat) : Bytes := kdf k "FLWRAP" (unitIdBytes ++ be 2 i ++ be 4 gen) 256

/-- The key record of an index, resolved. -/
def keyRec (s : State) (i : Nat) : Resolved KeyRec := AB.resolve (tgetD s.nv.keyRecs i ⟨.blank, .blank⟩)

/-- Bytes 0 to 63 of a key record copy, which its tag covers (R296). -/
def keyRecHead (rseq i : Nat) (k : KeyRec) : Bytes :=
  le 4 0x524B4C46 ++ le 4 rseq ++ le 2 i ++ le 1 k.kind ++ le 1 k.flags ++ le 4 k.keyId.toNat ++ le 4 k.gen ++ le 2 k.parent
    ++ le 2 k.users.toNat ++ le 4 k.parentGen ++ le 1 k.owner ++ zeros 3 ++ le 6 k.createSeq ++ zeros 2 ++ be 12 k.iv.toNat
    ++ zeros 12

/-- Bytes of the secret of a kind (R289). -/
def secretLen (kind : Nat) : Nat := if kind = 0x12 then 64 else 32

/-- A key record's secret under its parent's wrap key (R296). -/
def openRec (wrap : Bytes) (i rseq : Nat) (k : KeyRec) : Option Bytes :=
  (gcmOpen wrap (be 12 k.iv.toNat) (keyRecHead rseq i k) k.secret k.tag).map (·.take (secretLen k.kind))

/-- The secret of an OPERATOR key (R289, R296). -/
def operatorSecret (s : State) (i : Nat) : Option Bytes :=
  match keyRec s i with
  | .ok r k => if k.kind = 0x02 then (domainSecret s 1).bind fun d => openRec (wrapKey d 1 k.parentGen) i r k else none
  | _ => none

/-- The secret of a persistent key (R289, R296). -/
def secretOf (s : State) (i : Nat) : Option Bytes :=
  match keyRec s i with
  | .ok r k =>
    if k.kind = 0x02 then operatorSecret s i
    else (operatorSecret s k.parent).bind fun p => openRec (wrapKey p k.parent k.parentGen) i r k
  | _ => none

/-- Bytes 0 to 23 of a session record and the session index, which its tag covers (R298). -/
def sessHead (i : Nat) (x : SessRec) : Bytes :=
  le 1 0x10 ++ le 1 (b2n x.test + 2 * b2n x.bound.isSome) ++ le 1 x.owner ++ zeros 1 ++ le 4 x.keyId.toNat ++ le 2 x.parent
    ++ le 2 x.ccount ++ le 4 x.parentGen ++ le 4 (x.bound.getD 0) ++ zeros 4 ++ le 4 i

/-- A session record with its secret sealed under the session-table wrap key (R298). -/
def sealSess (s : State) (i : Nat) (x : SessRec) (iv : BitVec 96) (secret : Bytes) : SessRec :=
  let c := gcmSeal (be 32 s.keys.sessWrap.toNat) (be 12 iv.toNat) (sessHead i x) secret
  { x with iv := iv, secret := c.1, tag := c.2 }

/-- The secret of a session key. -/
def sessSecret (s : State) (i : Nat) : Option Bytes :=
  match tget s.keys.sess i with
  | some x =>
    if x.live then gcmOpen (be 32 s.keys.sessWrap.toNat) (be 12 x.iv.toNat) (sessHead i x) x.secret x.tag else none
  | none => none

/-! State and use of a key. -/

/-- The generation record of an index is unusable (R300). -/
def genBad (s : State) (i : Nat) : Bool := s.keys.genUnusable.contains i

/-- STATE of a persistent key (R315): 0 EMPTY, 1 ACTIVE, 2 ORPHANED, 3 UNUSABLE, 4 OTHER_ROOT (R300, R317;
notes/assumptions/22.md). -/
def keyState (s : State) (i : Nat) : Nat :=
  match keyRec s i with
  | .blank => 0
  | .unusable => 3
  | .ok _ k =>
    if s.keys.unusable.contains i || genBad s i || genBad s k.parent || (k.kind ≠ 0x02 && genBad s 1) then 3
    else if bit k.flags 0 ≠ s.keys.testRoot then 4
    else if k.gen ≠ genOf s i || k.parentGen ≠ genUsed s k.parent then 2
    else if k.kind = 0x02 then 1
    else
      match keyRec s k.parent with
      | .ok _ p => if p.gen = genOf s k.parent && p.parentGen == genUsed s 1 then 1 else 2
      | _ => 2

/-- The record of an ACTIVE persistent key. -/
def activeKey (s : State) (i : Nat) : Option KeyRec :=
  if keyState s i = 1 then (match keyRec s i with | .ok _ k => some k | _ => none) else none

/-- A function may use a persistent key (R293). -/
def mayUse (s : State) (fn : Nat) (k : KeyRec) : Bool :=
  match k.kind with
  | 0x02 => k.users.getLsbD fn
  | 0x11 | 0x12 => k.owner == fn
  | 0x13 => fn == 0
  | 0x14 => match keyRec s k.parent with
    | .ok _ p => p.users.getLsbD fn
    | _ => false
  | _ => false

/-- The current persistent key at an index of one of the kinds, which the function may use; a key it may not use counts as an
empty slot (R293). The chain is checked later (R307). -/
def currentKey (s : State) (fn i : Nat) (kinds : List Nat) : Option KeyRec :=
  match keyRec s i with
  | .ok _ k =>
    if kinds.contains k.kind && mayUse s fn k && bit k.flags 0 == s.keys.testRoot && k.gen == genOf s i then some k else none
  | _ => none

/-- The live session record of an index that the function owns. -/
def currentSess (s : State) (fn i : Nat) : Option SessRec :=
  match tget s.keys.sess i with
  | some x => if x.live && x.owner == fn && x.test == s.keys.testRoot then some x else none
  | none => none

/-- Every key of the chain of a session key has a record whose GEN equals its generation record, and PARENT_GEN equals the
parent's GEN (R307). -/
def sessChainOk (s : State) (x : SessRec) : Bool :=
  keyState s x.parent == 1 && x.parentGen == genOf s x.parent

/-! Persistent journal working keys. -/

/-- The receipt key of a journal key (R291). -/
def receiptKey (s : State) (i : Nat) : Option Bytes := (secretOf s i).map fun k => kdf k "FLRECEIPT" [] 256

/-- The leaf key of a journal key (R291). -/
def leafKey (s : State) (i : Nat) : Option Bytes := (secretOf s i).map fun k => kdf k "FLLEAF" [] 256

/-! Hybrid keys and signatures. -/

/-- The order of P-384 (FIPS 186). -/
def p384n : Nat :=
  0xffffffffffffffffffffffffffffffffffffffffffffffffc7634d81f4372ddf581a0db248b0a77aecec196accc52973

/-- The P-384 private key of a 448-bit output: (c mod (n - 1)) + 1 (R291). -/
def ecKey (c : Bytes) : BitVec 384 := BitVec.ofNat 384 (beVal c % (p384n - 1) + 1)

/-- A signing pair: the P-384 private key and the ML-DSA-65 seed. -/
structure SignPair where
  ec : BitVec 384
  md : BitVec 256
  deriving DecidableEq, Repr

/-- The signing pair that a secret gives under two labels (R291). -/
def signPair (k : Bytes) (lec lmd : String) (ctx : Bytes) : SignPair :=
  ⟨ecKey (kdf k lec ctx 448), BitVec.ofNat 256 (beVal (kdf k lmd ctx 256))⟩

/-- A bit vector as bytes, most significant first. -/
def bvBytes {w : Nat} (n : Nat) (v : BitVec w) : Bytes := be n v.toNat

/-- A hybrid signature of 3,405 bytes: ECDSA P-384 (96), then ML-DSA-65 (3,309) (R303). `d` is the draw of its nonces. -/
def hybridSign (p : SignPair) (msg : Bytes) (d : Nat) : Bytes :=
  bvBytes 96 (Config.ecSign p.ec msg d) ++ bvBytes 3309 (Config.dsaSign p.md msg d)

/-- The public half as bytes 0 to 2,051 of a signature block: ECDSA key (97), 3 zero bytes, ML-DSA key (1,952) (R72, R354). -/
def signPublic (p : SignPair) : Bytes :=
  [4] ++ bvBytes 96 (Config.ecPub p.ec) ++ zeros 3 ++ bvBytes 1952 (Config.dsaPub p.md)

/-- An uncompressed P-384 point: 0x04 and the two coordinates. -/
def pointOf (b : Bytes) : BitVec 768 := BitVec.ofNat 768 (beVal (slice b 1 96))

/-- Both halves of a signature block verify over a message under the keys it carries (R72). -/
def blockVerify (blk msg : Bytes) : Bool :=
  num blk 0 1 == 4
    && Config.ecVerify (pointOf blk) msg (BitVec.ofNat 768 (beVal (slice blk 2052 96)))
    && Config.dsaVerify (BitVec.ofNat 15616 (beVal (slice blk 100 1952))) msg
        (BitVec.ofNat 26472 (beVal (slice blk 2148 3309)))

/-- The digest of the keys of a signature block (R354). -/
def blockDigest (blk : Bytes) : BitVec 384 := sha384 (slice blk 0 2052)

/-- The identity signing pair (R291). -/
def identityPair (s : State) : Option SignPair :=
  (domainSecret s 0).map fun k => signPair k "FLIDEC" "FLIDMD" unitIdBytes

/-- The journal signing pair (R291). -/
def journalPair (s : State) : Option SignPair :=
  (domainSecret s 0).map fun k => signPair k "FLJSEC" "FLJSMD" unitIdBytes

/-- The signing pair of a DRAW key (R291). -/
def drawPair (s : State) (i : Nat) : Option SignPair := (secretOf s i).map fun k => signPair k "FLSIGEC" "FLSIGMD" []

/-- The seed wrap key of a DRAW key (R291). -/
def seedWrap (s : State) (i : Nat) : Option Bytes := (secretOf s i).map fun k => kdf k "FLSEED" [] 256

/-- An import pair: the P-384 private key and the ML-KEM-768 seed (R291). -/
def importPair (k : Bytes) (lec lmk : String) (ctx : Bytes) : BitVec 384 × BitVec 512 :=
  (ecKey (kdf k lec ctx 448), BitVec.ofNat 512 (beVal (kdf k lmk ctx 512)))

/-- The device import pair (R291). -/
def deviceImport (s : State) : Option (BitVec 384 × BitVec 512) :=
  (domainSecret s 1).map fun k => importPair k "FLDIEC" "FLDIMK" unitIdBytes

/-- The import pair of an OPERATOR key (R291). -/
def operatorImport (s : State) (i : Nat) : Option (BitVec 384 × BitVec 512) :=
  (operatorSecret s i).map fun k => importPair k "FLOPEC" "FLOPMK" []

/-- The public half of an import pair: ECDH key (97), 3 reserved bytes, ML-KEM encapsulation key (1,184) (R316). -/
def importPublic (p : BitVec 384 × BitVec 512) : Bytes :=
  [4] ++ bvBytes 96 (Config.ecPub p.1) ++ zeros 3 ++ bvBytes 1184 (Config.kemPub p.2)

/-- The unendorsed DEV_PUBKEYS body (R316). -/
def pubkeysBody (s : State) (set keyId : Nat) (keys : Bytes) : Bytes :=
  le 1 set ++ le 1 (b2n s.keys.testRoot) ++ zeros 2 ++ le 4 keyId ++ keys

/-- The unendorsed body of a device set: 0 identity, 1 journal signing, 2 device import (R294, R316). -/
def deviceSet (s : State) (set : Nat) : Option Bytes :=
  match set with
  | 0 => (identityPair s).map fun p => pubkeysBody s 0 0xFFFFFF03 (signPublic p)
  | 1 => (journalPair s).map fun p => pubkeysBody s 1 0xFFFFFF04 (signPublic p)
  | 2 => (deviceImport s).map fun p => pubkeysBody s 2 0xFFFFFF05 (importPublic p)
  | _ => none

/-- The body of a DEVICE_KEYS entry (R320). -/
def deviceKeysBody (s : State) : Bytes :=
  le 1 (if s.keys.testRoot then 255 else s.keys.rootSlot) ++ zeros 7
    ++ ([0, 1, 2].map fun k => h384 (sha384 ((deviceSet s k).getD []))).flatten

/-! Role keys in OTP. -/

/-- Six OTP words from `w` as the 48 bytes of a digest, each word little-endian (R354; notes/assumptions/23.md). -/
def otpDigest (s : State) (w : Nat) : Bytes :=
  ((List.range 6).map fun i => le 8 (tgetD s.otp (w + i) 0).toNat).flatten

/-- The check word of a digest: the first 64 bits of its SHA-384 (R354). -/
def digestCheck (d : Bytes) : BitVec 64 := BitVec.ofNat 64 (leVal ((h384 (sha384 d)).take 8))

/-- Seven words from `w` all read zero. -/
def slotBlank (s : State) (w : Nat) : Bool := (List.range 7).all fun i => tgetD s.otp (w + i) 0 == 0

/-- A role slot is valid: its check word verifies (R354). -/
def slotValid (s : State) (w : Nat) : Bool := !slotBlank s w && tgetD s.otp (w + 6) 0 == digestCheck (otpDigest s w)

/-- First word of slot `k` of a role: OPERATOR (role 1) or SUPERVISOR (role 2) (R356). -/
def roleWord (role k : Nat) : Nat := (if role = 1 then 112 else 140) + 7 * k

/-- The slot of the key in force for a role: its highest valid one (R354). -/
def roleSlot (s : State) (role : Nat) : Option Nat := [3, 2, 1, 0].find? fun k => slotValid s (roleWord role k)

/-- The lowest blank slot of a role (R354). -/
def roleFree (s : State) (role : Nat) : Option Nat := [0, 1, 2, 3].find? fun k => slotBlank s (roleWord role k)

/-- The digest of the key in force for a role: 0 VENDOR, 1 OPERATOR, 2 SUPERVISOR (R354). -/
def roleDigest (s : State) (role : Nat) : Option (BitVec 384) :=
  if role = 0 then
    (if slotValid s 19 then some (BitVec.ofNat 384 (beVal (otpDigest s 19))) else none)
  else (roleSlot s role).map fun k => BitVec.ofNat 384 (beVal (otpDigest s (roleWord role k)))

/-- A 3,405-byte signature verifies under the OPERATOR role key (R303, R310, R416). -/
def operatorSigned (s : State) (msg sig : Bytes) : Bool :=
  match roleDigest s 1 with
  | some d => Config.roleVerify d msg sig
  | none => false

/-- The challenge outstanding equals the 32 bytes (R360). -/
def challengeIs (s : State) (b : Bytes) : Bool :=
  match s.keys.challenge with
  | some (c, _) => be 32 c.toNat == b
  | none => false

/-- The challenge is consumed (R360). -/
def consumeChallenge (s : State) : State := { s with keys := { s.keys with challenge := none } }

/-! Writing records. -/

/-- A generation record is written with a new value (R297, R299). -/
def setGen (i g : Nat) (s : State) : State :=
  { s with nv := { s.nv with genRecs := tset s.nv.genRecs i (AB.update (tgetD s.nv.genRecs i ⟨.blank, .blank⟩) g) } }

/-- The hot slot that holds a handle, the first of two where its key takes two. -/
def hotSlot (s : State) (h : Nat) : Option Nat := (s.keys.hot.find? fun e => e.handle.toNat == h && e.part == 0).map (·.no)

/-- The lowest number, from one on, that a list does not have. -/
def lowestUnused (used : List Nat) : Nat → Nat → Nat
  | 0, i => i
  | n + 1, i => if used.contains i then lowestUnused used n (i + 1) else i

/-- The slot that an unwrapped key takes: a free one, or the least recently used one that is not kept (R306). -/
def hotVictim (keep : HotSlot → Bool) (hot : List HotSlot) : Option Nat :=
  if hot.length < 4096 then some (lowestUnused (hot.map (·.no)) 4096 0)
  else (hot.reverse.find? fun e => !keep e).map (·.no)

/-- One part of a key is unwrapped into a hot slot (R306). -/
def placeHot (keep : HotSlot → Bool) (e : HotSlot) (s : State) : State :=
  match hotVictim keep s.keys.hot with
  | some n => { s with keys := { s.keys with hot := { e with no := n } :: s.keys.hot.filter fun x => x.no ≠ n } }
  | none => s

/-- The key of a handle is used, with its parts of 256 bits: its slots move to the front, or it is unwrapped into slots that are not kept
(R306). Hits and misses are counted (R422). -/
def touchHot (keep : HotSlot → Bool) (h : Nat) (chain : List (Nat × Nat)) (parts : List (BitVec 256)) (s : State) : State :=
  let mine := fun (e : HotSlot) => e.handle.toNat == h
  if s.keys.hot.any mine then
    { s with
      keys := { s.keys with hot := s.keys.hot.filter mine ++ s.keys.hot.filter fun e => !mine e }
      pmon := s.pmon.count 0x23 0 1 }
  else
    let s1 := { s with pmon := s.pmon.count 0x24 0 1 }
    parts.zipIdx.foldl (fun t p => placeHot (fun e => keep e || mine e) { handle := BitVec.ofNat 32 h, part := p.2, chain := chain, key := p.1 } t) s1

end Sys2Proof.Machine
end

