-- ==== Sys2Proof/Machine/Response.lean ====
section
/-! DEFINITION. What several families share: disabling and enabling a function (R148, R105, R91), the fence and zeroisation of keys
(R312, R319), the end of debug rights (R369), the change to the test root (R318), the failure of a unit of R33, DEGRADED
(R59, R268), and the responses T3 and T4 (R379, R382). -/

namespace Sys2Proof.Machine

/-! Functions. -/

/-- The code of a cause in FN_DISABLED (R414). -/
def causeCode : FnCause → Nat
  | .fnDisable => 0 | .flr => 1 | .busMaster => 2 | .d3hot => 3 | .link => 4 | .testRoot => 5

/-- Which queues of function `f` a cause reaches: resets of the host path do not reach SPI queues (R85, R91). -/
def reaches (cause : FnCause) (s : State) (f q : Nat) : Bool :=
  (queueOf s q).fn == f && (hostQueue s q || cause == .testRoot || cause == .fnDisable)

/-- A session record is zeroised (R311). -/
def dropSess (h : Nat) (s : State) : State :=
  match nameOf s h with
  | .session i => { s with keys := { s.keys with sess := tdel s.keys.sess i } }
  | _ => s

/-- The first DRAM line of the context of a queue: 256 bytes at 256 times its index (R322). -/
def contextLine (q : Nat) : Nat := 0x400000 + 4 * q

/-- A queue returns to FREE, and its bound session record is zeroised; its context leaves the cache and its lines in DRAM are written with zeros and
colour 0 (R134, R148, R311, R332; notes/assumptions/24.md). -/
def freeQueue (q : Nat) (s : State) : State :=
  { dropSess (queueOf s q).skey.toNat s with
    queues := tdel s.queues q, cache := modAt s.cache (q % 8) fun b => b.filter (· ≠ q)
    dram := s.dram.filter fun l => !(contextLine q ≤ l.1 && l.1 < contextLine q + 4) }

/-- Queues of the list are emptied of what has arrived and is not scheduled, and of a queue-stop completion still due; those without work or a read
left become FREE, the others drain (R134, R148). -/
def stopQueues (qs : List Nat) (s : State) : State :=
  let keep := s.work.filter fun w => !(qs.contains w.qix && w.stage != .fetched && (w.seq == 0 || w.journalled))
  recharge <| qs.foldl
    (fun t q =>
      if keep.any (·.qix == q) then modQueue q (fun x => { x with st := .disabling, byFn := true, stopDue := none }) t
      else freeQueue q t)
    { s with work := keep }

/-- The queue indexes that a cause reaches at a function. -/
def queuesOf (cause : FnCause) (f : Nat) (s : State) : List Nat :=
  (s.queues.map (·.1)).filter fun q => reaches cause s f q

/-- The mailboxes that a function's reset clears: not the SPI mailbox (R85). -/
def clearMailboxes (f : Nat) (m : Tab Mbx) : Tab Mbx :=
  m.filter fun e => !(e.1 / 64 == f && e.1 ≠ 63)

/-- The request of a command came from function `f` on a host path. -/
def fromFn (f : Nat) (r : Req) : Bool := r.fn == f && r.path ≠ .spi

/-- The mailbox requests of a function on its host path: those not yet executing are dropped, and a command that executes will
find its response discarded (R106, R148). -/
def dropRequests (f : Nat) (s : State) : State :=
  { s with
    held := s.held.filter fun i => match reqOf i with
      | some r => !fromFn f r
      | none => true
    mbxs := s.mbxs.map fun e => if e.1 / 64 = f ∧ e.1 ≠ 63 then (e.1, { e.2 with busy := false }) else e
    waiters := s.waiters.map fun w => if fromFn f w.req then { w with orphan := true } else w }

/-- The registers of a function return to reset: configuration, vectors, DEV_EVENT, DEV_IRQ_EN, mailboxes (R104, R105, R106). -/
def resetFnRegs (f : Nat) (s : State) : State :=
  let t := dropRequests f s
  { t with
    fns := modAt t.fns f fun x => { x with devEvent := 0, irqEn := 0, bme := false, cfg := [] }
    vecs := t.vecs.filter fun e => e.1 / 2048 ≠ f
    mbxs := clearMailboxes f t.mbxs }

/-- A function is disabled for a cause (R148): FN_EN clears, fetched entries are discarded, scheduled ones drain without output,
its queues return to FREE. -/
def disableFn (cause : FnCause) (f : Nat) (s : State) : State :=
  let x := fnOf s f
  if x.causes.contains cause || !x.present then s
  else
    let s1 := { s with fns := modAt s.fns f fun x => { x with enabled := false, causes := cause :: x.causes } }
    let s2 := stopQueues (queuesOf cause f s1) s1
    event 0x0206 (f + 16 * causeCode cause) s2

/-- The vectors of a function hold no completion (R104, R105). -/
def dropHeldMessages (f : Nat) (s : State) : State :=
  { s with vecs := s.vecs.map fun e => if e.1 / 2048 = f then (e.1, { e.2 with held := 0 }) else e }

/-- A function is disabled as by a function-level reset, registers included (R105, R106). -/
def resetFn (cause : FnCause) (f : Nat) (s : State) : State :=
  if (fnOf s f).present then disableFn cause f (resetFnRegs f s) else s

/-- Functions may be enabled: mailbox ready has come and no halt is in force (R66, R379). -/
def mayEnable (s : State) : Bool :=
  (s.pwr.phase == .ready || s.pwr.phase == .service) && !s.tamper.t3

/-- A cause ends; with no cause left the function is enabled again, with no queues (R148). -/
def endCause (cause : FnCause) (f : Nat) (s : State) : State :=
  { s with fns := modAt s.fns f fun x =>
      let c := x.causes.filter (· ≠ cause)
      { x with causes := c, enabled := x.enabled || (x.present && c.isEmpty && mayEnable s) } }

/-- The same for every function. -/
def endCauseAll (cause : FnCause) (s : State) : State :=
  (List.range 16).foldl (fun t f => if (fnOf t f).causes.contains cause then endCause cause f t else t) s

/-- Every function is disabled for a cause. -/
def disableAll (cause : FnCause) (s : State) : State := (List.range 16).foldl (fun t f => disableFn cause f t) s

/-! The meter port and DGU1. -/

/-- DGU1 is released: its state, buffered bytes and digest are zeroised, DONE and COUNT clear (R407). -/
def Dgu.clear (d : Dgu) : Dgu :=
  { d with owner := .free, msg := [], buf := [], done := false, count := 0, running := false }

/-- DGU1 is released if a party owns it (R407). -/
def releaseDgu (p : DgOwner) (s : State) : State := if s.dgu1.owner = p then { s with dgu1 := s.dgu1.clear } else s

/-- MP_VALID has fallen: an open group is discarded, and the cabinet controller's hold on DGU1 ends (R394, R403, R407). -/
def mpFalls (s : State) : State :=
  releaseDgu .cabinet { s with meter := { s.meter with group := none, shadow := [], shadowMask := [] } }

/-! Gates and debug. -/

/-- The epoch advances (R344). -/
def bumpEpoch (s : State) : State := { s with epoch := s.epoch + 1 }

/-- The ID of G_MPT (R341). -/
def gMpt : Nat := 0x13
/-- The ID of G_DBG (R341). -/
def gDbg : Nat := 0x14

/-- A gate's entries are rewritten. -/
def setGate (g : Nat) (es : Tab GEntry) (s : State) : State :=
  { s with gates := modAt s.gates g fun x => { x with ents := es } }

/-- Debug rights end: G_DBG is invalidated, the epoch advances, halted cores resume, and DBG_END is recorded (R369). -/
def endDebug (reason : Nat) (s : State) : State :=
  match s.dbg.cert with
  | none => s
  | some _ =>
    let s1 := bumpEpoch (setGate gDbg [] { s with dbg := { s.dbg with cert := none, halted := false } })
    journalEntry 0x3B false (le 1 reason ++ zeros 7) s1

/-! Units and DEGRADED. -/

/-- How severe an error is (R107). ECRC and Unsupported Request follow the base specification (notes/assumptions/78.md). -/
inductive AerSeverity where
  | fatal | nonFatal | advisory | correctable
  deriving DecidableEq, Repr

/-- The severity of an error (R107). -/
def aerSeverity : AerError → AerSeverity
  | .sourceRead _ => .advisory
  | .entryRead _ => .nonFatal
  | .poisonedWrite => .advisory
  | .unexpectedCompletion => .advisory
  | .ecrc => .nonFatal
  | .malformed => .fatal
  | .unsupportedRequest => .nonFatal
  | .uncorrectableInternal => .fatal
  | .correctedInternal => .correctable

/-- The status bit of a failed read (R107; base specification: notes/assumptions/78.md). -/
def readErrorBit : ReadError → Nat
  | .poisoned => 12
  | .timeout => 14
  | .completerAbort => 15
  | .unsupportedRequest => 20

/-- The bit of an error in the Uncorrectable Error Status register, or in the Correctable one (R107; notes/assumptions/78.md). -/
def aerBit : AerError → Nat
  | .sourceRead k => readErrorBit k
  | .entryRead k => readErrorBit k
  | .poisonedWrite => 12
  | .unexpectedCompletion => 16
  | .malformed => 18
  | .ecrc => 19
  | .unsupportedRequest => 20
  | .uncorrectableInternal => 22
  | .correctedInternal => 14

/-- The status registers after an error: an advisory error also sets bit 13 of the correctable ones (R107; notes/assumptions/78.md). -/
def noteAer (e : AerError) (x : Fn) : Fn :=
  let bit := 1#32 <<< aerBit e
  match aerSeverity e with
  | .correctable => x.setCfg 0x110 (cfgOf x 0x110 ||| bit)
  | .advisory => (x.setCfg 0x104 (cfgOf x 0x104 ||| bit)).setCfg 0x110 (cfgOf x 0x110 ||| 0x2000)
  | _ => x.setCfg 0x104 (cfgOf x 0x104 ||| bit)

/-- An error is reported by AER at function `f`, while the PCIe tunnel is configured (R97, R107). -/
def aer (f : Nat) (e : AerError) (s : State) : State :=
  if s.link.pcieTun then
    { s with link := { s.link with aer := s.link.aer ++ [(f, e)] }, fns := modAt s.fns f (noteAer e) }
  else s

/-- A unit of R33 fails: fetching stops and the fault is recorded; work already in lanes runs on (R33). -/
def unitFails (unit index : Nat) (s : State) : State :=
  aer 0 .uncorrectableInternal <| event 0x0108 (unitArg unit index)
    { s with pwr := { s.pwr with
        unitsFailed := if s.pwr.unitsFailed.contains (unit, index) then s.pwr.unitsFailed else s.pwr.unitsFailed ++ [(unit, index)]
        fetchOff := true } }

/-- The time in ns that one uF takes: 0.4 A over 6.0 V by the charge method, over 0.8 V by the discharge method (R57). -/
def capNs (c : CapResult) : Nat := if c.discharge then 2000 else 15000

/-- C in uF, rounded down (R57; notes/assumptions/16.md). -/
def capUf (c : CapResult) : Nat := c.raw.dt / capNs c

/-- ESR in mOhm, rounded down: the voltage step over 0.4 A (R57; notes/assumptions/16.md). -/
def capMohm (c : CapResult) : Nat := c.raw.step * 5 / 2

/-- The DEGRADED event's extension: C, ESR, droop (R414). -/
def capExt (c : CapResult) : Bytes := le 2 (capUf c) ++ le 2 (capMohm c) ++ le 2 c.raw.droop

/-- DEGRADED is entered in service: a DEGRADED entry, the catch-up of the writer, the event (R59, R257, R268). C, ESR and droop are those of the
last measurement. -/
def enterDegraded (reason : Nat) (s : State) : State :=
  let c := s.pwr.cap
  let s1 := journalEntry 0x05 false (le 1 reason ++ zeros 1 ++ le 2 (capUf c) ++ le 2 (capMohm c) ++ zeros 2) s
  let s2 := writePages (closeBatch s1)
  eventX 0x0107 reason (capExt c) { s2 with
    pwr := { s2.pwr with degraded := true }
    work := s2.work.map fun w => { w with waitDur := true } }

/-- C is at least the given uF. -/
def capAtLeast (uf : Nat) (c : CapResult) : Bool := decide (uf * capNs c ≤ c.raw.dt)

/-- The lowest reason that applies in service: C below 150 uF, ESR above 0.5 Ohm (R59, R257). -/
def serviceReason (c : CapResult) : Option Nat :=
  if !capAtLeast 150 c then some 1 else if 200 < c.raw.step then some 2 else none

/-- The lowest reason for which the start-up test fails (R57, R257). -/
def startReason (c : CapResult) : Option Nat :=
  if !capAtLeast 158 c then some 1 else if 200 < c.raw.step then some 2 else if 400 * capNs c < c.raw.dt then some 4
  else if 50 < c.raw.droop then some 5 else if !c.raw.reached then some 6 else none

/-! Keys. -/

/-- Every scheduled unit that is not released ends KEY_REVOKED_INFLIGHT, and its saved state is zeroised (R312). -/
def fenceAll (p : Work → Bool) (s : State) : State :=
  { s with work := s.work.map fun w => if w.inFlight && p w then { w with revoked := true, saved := none } else w }

/-- The volatile secrets of T3 are zeroised (R319, R379 step 4). -/
def zeroiseSecrets (s0 : State) : State :=
  let s := zeroiseConditioner s0
  { s with
    keys := { s.keys with hot := [], sess := [], sessWrap := 0, saveWrap := 0, wrapSet := false, pkeKey := [false, false] }
    engine := {}
    lanes := s.lanes.map fun l => { l with keys := [], out := [], seeded := false, maskSeed := 0 }
    nv := { s.nv with draws := s.nv.draws.map fun d => { d with results := none } } }

/-- Lines of the regions that a T3 response sweeps: queue contexts, wrapped key records, staging, draw work. Line numbers count
from the start of DRAM (R322, R332). -/
def sweptByT3 (line : Nat) : Bool :=
  (0x400000 ≤ line && line < 0x2560000) || (0x3560000 ≤ line && line < 0x4560000)

/-- A change to the test root during service (R318). -/
def toTestRoot (s : State) : State :=
  if s.keys.testRoot then { s with keys := { s.keys with forcedTest := true } }
  else
    let s1 := fenceAll (fun _ => true) (disableAll .testRoot s)
    let s2 := freshWraps { s1 with keys := { s1.keys with
      hot := [], pkeKey := [false, false], root := some testRootValue, testRoot := true, forcedTest := true } }
    endCauseAll .testRoot (journalEntry 0x33 false (deviceKeysBody s2) s2)

/-! Tamper responses. -/

/-- Commands that wait and are not served under T3 end with TAMPER_HALT (R380, R387). -/
def haltWaiters (s : State) : State :=
  answerAll (fun w => !haltServes w.op) (fun _ => (stTamperHalt, 0, [])) s

/-- Standby ends without service being resumed: domains come back but those of the lanes and the noise banks (R48, R387). -/
def cutStandby (s : State) (n : Nat) (d : DomState) : DomState :=
  if s.pwr.standby ∧ ¬ (n = 4 ∨ n = 13 ∨ n = 14 ∨ (16 ≤ n ∧ n ≤ 39) ∨ (51 ≤ n ∧ n ≤ 55) ∨ (58 ≤ n ∧ n ≤ 61)) then .on else d

/-- The T3 response (R379): everything stops, MP_VALID falls, every function is disabled, debug rights end, volatile secrets are
zeroised, the journal is flushed, and the sweeps run. A second one does nothing further (R387). -/
def respondT3 (s : State) : State :=
  if s.tamper.t3 then s
  else
    let s1 := mpFalls { s with
      pwr := { s.pwr with mpValid := false, fetchOff := true, standby := false, domains := s.pwr.domains.mapIdx (cutStandby s) }
      tamper := { s.tamper with t3 := true } }
    let s2 := flushJournal s1
    let s3 := endDebug 4 (disableAll .fnDisable { s2 with work := [] })
    let s4 := zeroiseSecrets s3
    haltWaiters { s4 with
      fns := s4.fns.map fun x => { x with inUsed := 0, stUsed := 0 }
      lark := { s4.lark with drbgOn := s4.lark.drbgOn, runWait := [] }
      dram := s4.dram.filter fun l => !sweptByT3 l.1
      cache := List.replicate 8 []
      pwr := { s4.pwr with wake := false } }

/-! OTP burns. -/

/-- A word is burnt: bits only ever become one (R356). -/
def burn (w : Nat) (v : BitVec 64) (s : State) : State :=
  { s with otp := tset s.otp w (tgetD s.otp w 0 ||| v) }

/-- Group `g` of a group word: bits 4k + g (R357). -/
def groupMask (g : Nat) : BitVec 64 := (List.range 16).foldl (fun m k => m ||| (1#64 <<< (4 * k + g))) 0

/-- The word and group of a life-cycle state code (R356). -/
def groupOf (code : Nat) : Nat × Nat :=
  match code with
  | 1 => (96, 0) | 2 => (96, 1) | 3 => (96, 2) | 4 => (96, 3) | 5 => (97, 0) | 6 => (97, 1) | _ => (97, 2)

/-- The intent word of a target code: words 100 to 106 for TEST to TAMPERED (R356). -/
def intentWord (code : Nat) : Nat := if code = 15 then 106 else 99 + code

/-- The value of an intent word (R357). -/
def intentValue (source target : Nat) : BitVec 64 :=
  BitVec.ofNat 64 (source % 16 + 16 * (target % 16) + 256 * 0xA55A3CC3F00F96)

/-- The groups of TAMPERED are burnt, with the intent word first (R357, R382). -/
def burnTampered (s : State) : State :=
  burn 97 (groupMask 2) (burn (intentWord 15) (intentValue (lcCode s.lc) 15) s)

/-- The body of a KEY_INVALIDATE entry (R320). -/
def invalidateBody (handle keyId newGen reason : Nat) : Bytes :=
  le 4 handle ++ le 4 keyId ++ le 4 newGen ++ le 1 reason ++ zeros 3

/-- The generation of index `i`, 0 to 2, is raised by one, after a KEY_INVALIDATE entry of REASON 2 (R319, R382). -/
def invalidateDomain (t : State) (i : Nat) : State :=
  let g := genOf t i + 1
  setGen i g (journalEntry 0x31 false (invalidateBody (handleOf t i) (0xFFFFFF00 + i) g 2) t)

/-- The generations of indexes 0, 1 and 2 are raised. In recovery mode, which writes nothing more to the journal, they stay, since no entry can be
DURABLE before them (R76, R319, R382; notes/assumptions/71.md). -/
def invalidateDomains (s : State) : State :=
  if s.pwr.phase = .recovery then s else [0, 1, 2].foldl invalidateDomain s

/-- The T4 response (R382). In LOST it acts as T3 and burns nothing; in SCRAP it is T1, which its caller sees to. In RETURN the
group is burnt and the state stays. The reset follows when flush and burns have ended. -/
def respondT4 (s : State) : State :=
  let s1 := respondT3 s
  if s.lc == .lost then s1
  else
    let s2 := invalidateDomains (burnTampered s1)
    { s2 with tamper := { s2.tamper with t4Due := true } }

end Sys2Proof.Machine
end

