-- ==== Sys2Proof/Machine/Power.lean ====
section
/-! DEFINITION. Feeds, power failure, resets, I/O banks, VBAT, the hold-up capacitor and power domains (R38 to R63, R417, R428,
R429, R436). -/

namespace Sys2Proof.Machine

/-! Shared operations. -/

/-- A feed is at or above its threshold. -/
def feedOn (f : Feed) (p : Power) : Bool :=
  match f with
  | .a => p.feedA
  | .b => p.feedB

/-- A feed's flag and voltage. -/
def setFeed (f : Feed) (on : Bool) (mv : Nat) (p : Power) : Power :=
  match f with
  | .a => { p with feedA := on, vinA := mv }
  | .b => { p with feedB := on, vinB := mv }

/-- The other feed. -/
def otherFeed : Feed → Feed
  | .a => .b
  | .b => .a

/-- The number of a feed in events (R414). -/
def feedNo : Feed → Nat
  | .a => 0
  | .b => 1

/-- A voltage below the feed-loss threshold of 2,550 mV, left open. -/
def lowMv (s : State) : Nat := Config.freeNat s.free % 2550

/-- A voltage from the power-good threshold of 2,650 mV up to 5,500 mV, left open. -/
def goodMv (s : State) : Nat := 2650 + Config.freeNat s.free % 2851

/-- A reset pin reads low, where a disabled VDDIO_GEN bank treats both as released (R38), or EXTEST holds reset (R367). -/
def resetHeld (p : Power) : Bool := (p.ioGen && (p.porLow || p.resetLow)) || p.tapHold

/-- The state with everything volatile at its reset value: what a start finds. Kept are the MRAM, the OTP, the always-on domain,
the supplies, the record of what was latched (R417), and the model's own fields (R52, R61, R63, R324). -/
def loseVolatile (s : State) : State :=
  let down := fun (x : FwState) => if x = .running then .verified else x
  { pending := s.pending, pwr := s.pwr, opsec := s.opsec, pwrCyc := s.pwrCyc, bootEpoch := s.bootEpoch, lc := s.lc,
    beneath := s.beneath, otp := s.otp, nv := s.nv, out := s.out, free := s.free,
    tamper := { latch := s.tamper.latch, offOpsec := s.tamper.offOpsec }
    boot := { stA := down s.boot.stA, stB := down s.boot.stB, chkA := s.boot.chkA, chkB := s.boot.chkB }
    ev := { latched := s.ev.latched, nextEvn := s.ev.nextEvn, clear := s.ev.clear } }

/-- All domains but the always-on one are off (R52). -/
def onlyAlwaysOn : List DomState := .on :: List.replicate 79 .off

/-- Domains that an Apron flush needs: the always-on domain, the sensors, the hold-up converter, core 0 with the shared SRAM, the digest units
that chain the journal, the MRAM, the meter mirror, the journal and event buffers, the clocks (R48, R52; notes/assumptions/74.md). -/
def flushNeeds (n : Nat) : Bool := [0, 1, 2, 3, 8, 12, 15, 48, 49, 57, 58, 76, 77, 79].contains n

/-- The loads that a flush does not need are shed (R52). -/
def shedLoads (d : List DomState) : List DomState := d.mapIdx fun n x => if flushNeeds n then x else .off

/-- The domains that a reset does not hold off (R61). -/
def resetDomains (por : Bool) : List DomState :=
  (List.range 80).map fun n => if n ≤ 3 || (!por && (n == 48 || n == 49 || n == 79)) then .on else .off

/-- The pins and modes as a declaration or a reset edge leaves them: MP_VALID low, nothing fetched or released (R52, R60). -/
def stopPins (p : Power) : Power :=
  { p with
    mpValid := false, standby := false, standbyDue := false, wake := false, degraded := false, bridging := false
    fetchOff := false, unitsFailed := [], tapHold := false }

/-- What a power failure does besides its flush (R51, R52, R384): both feeds are out, the pins fall, the loads are shed, VHOLD supplies what
is left. -/
def feedsOut (s : State) : State :=
  { s with
    pwr := { stopPins s.pwr with
      feedA := false, feedB := false, vinA := lowMv s, vinB := lowMv (drew s), phase := .flushPower, domains := shedLoads s.pwr.domains }
    tamper := { s.tamper with offOpsec := s.opsec }
    free := s.free + 2 }

/-- Power failure is declared (R52): the flush is written, volatile state is lost. -/
def declareFailure (s : State) : State := feedsOut (loseVolatile (flush s))

/-- The PD00 counters go to their copies, which have been written before and which PD00 has not lost (R47, R278 step 4). -/
def copyClocks (s : State) : State :=
  if s.nv.ctrInit && !s.pwr.pd00Lost then setCtr 2 s.pwrCyc (setCtr 3 s.opsec s) else s

/-- The reset edge (R60, R61): the flush is written from input power, the link drops, volatile state is lost. -/
def beginReset (por : Bool) (s : State) : State :=
  let t := loseVolatile (flush s)
  { t with
    pwr := { stopPins t.pwr with
      phase := .flushReset, reason := if por then .npor else .nreset, domains := shedLoads t.pwr.domains } }

/-- The domains that are held off while a reset holds, by the reset that prevails (R61). -/
def heldDomains (p : Power) : List DomState := resetDomains (p.reason != .nreset)

/-- Power good after power-down: a full start is due, or a reset pin holds it (R42, R54, R436). -/
def powerUp (p : Power) : Power :=
  let q := { p with reason := .powerGood, everStarted := false, capKept := none, bled := 0, domains := resetDomains true }
  { q with phase := if resetHeld q then .held else .startDue }

/-- PD00 has lost its state: what its counters hold is open, and nothing is latched (R47, R384). -/
def losePd00 (s : State) : State :=
  { drew (drew s) with
    pwr := { s.pwr with pd00Lost := true }
    opsec := Config.freeNat s.free % 2 ^ 40
    pwrCyc := Config.freeNat (s.free + 1) % 2 ^ 32
    tamper := { s.tamper with latch := [] } }

/-- VHOLD as a flush from it leaves it: no lower than 3.0 V where it was above (R56). The fall is left open. -/
def spentVhold (v free : Nat) : Nat := if v ≤ 3000 then v else 3000 + Config.freeNat free % (v - 2999)

/-- The device is powered down (R52): all domains but PD00 are off. Without VBAT, and with both feeds absent, PD00 loses its state (R47). -/
def powerDown (s : State) : State :=
  let t := { drew s with
    pwr := { s.pwr with phase := .off, domains := onlyAlwaysOn, vhold := spentVhold s.pwr.vhold s.free, bled := 0 } }
  if t.pwr.vbatPresent || t.pwr.feedA || t.pwr.feedB then t else losePd00 t

/-- The start becomes due, unless a reset pin is low (R60, R62, R436). -/
def dueOrHeld (p : Power) : Power := { p with phase := if resetHeld p then .held else .startDue }

/-- A reset pin's level. -/
def setPin (pin : ResetPin) (low : Bool) (p : Power) : Power :=
  match pin with
  | .npor => { p with porLow := low }
  | .nreset => { p with resetLow := low }

/-- The start reason after a further pin acts: nPOR prevails over nRESET, and power good over both (R82, R258;
notes/assumptions/25.md). -/
def mergeReason (pin : ResetPin) (r : StartReason) : StartReason :=
  match r, pin with
  | .powerGood, _ => .powerGood
  | _, .npor => .npor
  | r, .nreset => r

/-- A recognised reset by a pin that is now low (R60, R436). -/
def recognisedReset (pin : ResetPin) (s : State) : State :=
  let s1 := { s with pwr := setPin pin true s.pwr }
  match s.pwr.phase with
  | .off => s1
  | .flushPower => s1
  | .flushReset => { s1 with pwr := { s1.pwr with reason := mergeReason pin s1.pwr.reason } }
  | .held =>
    let p := { s1.pwr with reason := mergeReason pin s1.pwr.reason }
    { s1 with pwr := { p with domains := heldDomains p } }
  | .startDue =>
    { s1 with pwr := { s1.pwr with
        phase := .held
        reason := if s1.pwr.everStarted then mergeReason pin s1.pwr.reason else .powerGood } }
  | _ => beginReset (pin == .npor) s1

/-- One domain's state (R48). -/
def setDomain (n : Nat) (d : DomState) (s : State) : State :=
  { s with pwr := { s.pwr with domains := s.pwr.domains.set n d } }

/-! Meanings. -/

/-- A feed has come back while the other one carried the load: its return is recorded (R42). In reset only its level is known. -/
def feedBack (feed : Feed) (s : State) : State :=
  settle s (event 0x0102 (feedNo feed) (drew { s with pwr := setFeed feed true (goodMv s) s.pwr }))

/-- POWER_GOOD (R42, R54, R62). Unpowered, it makes a full start due; during a flush, in reset and while a start is due the feed is known to be
there; in service it is the return of a feed that was missing. -/
def execPowerGood (feed : Feed) (s : State) : Host.Outcome State Fault Refusal :=
  let p := setFeed feed true (goodMv s) s.pwr
  if feedOn feed s.pwr then .next s
  else match s.pwr.phase with
    | .off => .next { drew s with pwr := powerUp p }
    | .flushPower | .flushReset | .held | .startDue => .next { drew s with pwr := p }
    | _ => .next (feedBack feed s)

/-- FEED_LOSS (R42, R51, R429). Both feeds absent at once are a power failure, not a feed loss. -/
def execFeedLoss (feed : Feed) (s : State) : Host.Outcome State Fault Refusal :=
  if feedOn feed s.pwr && feedOn (otherFeed feed) s.pwr then
    .next (settle s (event 0x0101 (feedNo feed) (drew { s with pwr := setFeed feed false (lowMv s) s.pwr })))
  else .next s

/-- FEED_RETURN (R42). A feed that comes back during a flush from VHOLD, or unpowered, is POWER_GOOD's matter. -/
def execFeedReturn (feed : Feed) (s : State) : Host.Outcome State Fault Refusal :=
  if feedOn feed s.pwr then .next s
  else match s.pwr.phase with
    | .off | .flushPower => .next s
    | _ => .next (feedBack feed s)

/-- By how much, at most, a bridged dip lowers VHOLD: 25 uJ from the measured capacitance (R51). -/
def bridgeDrop (p : Power) : Nat := 50000000 / (capUf p.cap * p.vhold)

/-- HOLD_UP_BRIDGE (R51). The converter supplies the bus through the 2 us filter; service goes on. The dip has recovered by the next second, unless
a power failure is declared. -/
def execHoldUpBridge (s : State) : Host.Outcome State Fault Refusal :=
  match s.pwr.phase with
  | .off | .flushPower => .next s
  | _ => .next { drew s with
      pwr := { s.pwr with bridging := true, vhold := s.pwr.vhold - Config.freeNat s.free % (bridgeDrop s.pwr + 1) } }

/-- POWER_FAILURE (R47, R51, R52, R60). During a reset flush the same flush continues from VHOLD; where nothing has been started since, there is
nothing to flush but the PD00 counters. -/
def execPowerFailure (s : State) : Host.Outcome State Fault Refusal :=
  match s.pwr.phase with
  | .off | .flushPower => .next s
  | .flushReset | .held | .startDue => .next (feedsOut (loseVolatile (copyClocks s)))
  | _ => .next (declareFailure s)

/-- FLUSH_COMPLETE (R52, R54, R60, R62). After a power failure the device powers down, and a feed that is good again makes a full
start due. After a reset flush the domains of R61 are held off, and the start is due once no pin is low. -/
def execFlushComplete (s : State) : Host.Outcome State Fault Refusal :=
  match s.pwr.phase with
  | .flushPower =>
    let t := powerDown s
    if s.pwr.feedA || s.pwr.feedB then .next { t with pwr := powerUp t.pwr } else .next t
  | .flushReset => .next { s with pwr := { dueOrHeld s.pwr with domains := heldDomains s.pwr } }
  | _ => .next s

/-- RESET (R60, R38). Below 100 ns nothing happens; from 1 us on it is a reset; between the two the outcome is open. -/
def execReset (pin : ResetPin) (lowNs : Nat) (s : State) : Host.Outcome State Fault Refusal :=
  if lowNs < 100 || !s.pwr.ioGen then .next s
  else if 1000 ≤ lowNs then .next (recognisedReset pin s)
  else if Config.freeBit s.free then .next (recognisedReset pin (drew s))
  else .next (drew s)

/-- RESET_RELEASE (R60, R62, R436). -/
def execResetRelease (pin : ResetPin) (s : State) : Host.Outcome State Fault Refusal :=
  let s1 := { s with pwr := setPin pin false s.pwr }
  match s.pwr.phase with
  | .held => .next { s1 with pwr := dueOrHeld s1.pwr }
  | _ => .next s1

/-- The number of a bank in events (R414). -/
def bankNo : IoBank → Nat
  | .gen => 0
  | .mp => 1

/-- A bank's state. -/
def setBank (b : IoBank) (on : Bool) (p : Power) : Power :=
  match b with
  | .gen => { p with ioGen := on }
  | .mp => { p with ioMp := on }

/-- A bank's supply is in a valid band (R38). -/
def bankOn (b : IoBank) (p : Power) : Bool :=
  match b with
  | .gen => p.ioGen
  | .mp => p.ioMp

/-- The operation that a supply level in mV selects: 3.3 V or not; none outside both bands (R38). -/
def ioLevel (mv : Nat) : Option Bool :=
  if 1620 ≤ mv ∧ mv ≤ 1980 then some false else if 3000 ≤ mv ∧ mv ≤ 3600 then some true else none

/-- The operation that a bank has selected (R38). -/
def setLevel (b : IoBank) (hi : Bool) (p : Power) : Power :=
  match b with
  | .gen => { p with ioGen33 := hi }
  | .mp => { p with ioMp33 := hi }

/-- PD58 is on while VDDIO_MP is in band, where the start has brought the meter port up (R48). -/
def mpDomain (on : Bool) (s : State) : State :=
  match s.pwr.phase with
  | .started | .ready | .service | .recovery => setDomain 58 (if on then .on else .off) s
  | _ => s

/-- IO_BANK_LOSS (R38). With VDDIO_GEN disabled the reset pins count as released; with VDDIO_MP disabled MP_VALID, undriven, reads low
(R64). -/
def execIoBankLoss (bank : IoBank) (s : State) : Host.Outcome State Fault Refusal :=
  if !bankOn bank s.pwr then .next s
  else
    let s0 := { s with pwr := setBank bank false s.pwr }
    let s1 := settle s (event 0x0103 (bankNo bank) (if bank = .mp then mpDomain false (mpFalls s0) else s0))
    match s.pwr.phase with
    | .held => .next { s1 with pwr := dueOrHeld s1.pwr }
    | _ => .next s1

/-- IO_BANK_RETURN (R38). A level outside both bands leaves the bank disabled. A reset pin that is low when VDDIO_GEN returns is a reset
(notes/assumptions/26.md). -/
def execIoBankReturn (bank : IoSupply) (s : State) : Host.Outcome State Fault Refusal :=
  match ioLevel bank.mv with
  | none => .next s
  | some hi =>
    let b := bank.bank
    if bankOn b s.pwr then .next s
    else
      let s0 := { s with pwr := setLevel b hi (setBank b true s.pwr) }
      let s1 := settle s (event 0x0104 (bankNo b) (if b = .mp then mpDomain true s0 else s0))
      if b == .gen && (s.pwr.porLow || s.pwr.resetLow) then
        .next (recognisedReset (if s.pwr.porLow then .npor else .nreset) s1)
      else .next s1

/-- VBAT_LOSS (R46, R47, R372, R384, R417). With both feeds absent PD00 loses its state: counters and latch. With a feed present it runs on from VDD_AUX,
and VBAT is below 2.0 V. -/
def execVbatLoss (s : State) : Host.Outcome State Fault Refusal :=
  let t := { s with pwr := { s.pwr with vbatPresent := false } }
  match s.pwr.phase with
  | .off => .next (losePd00 t)
  | .flushPower => .next t
  | _ => .next (settle s { t with pwr := { t.pwr with vbatLow := true } })

/-- VBAT_RECOVERY (R417). -/
def execVbatRecovery (s : State) : Host.Outcome State Fault Refusal :=
  .next (settle s { s with pwr := { s.pwr with vbatPresent := true, vbatLow := false } })

/-- A measurement is kept for DIAG_HEALTH (R420). -/
def noteCap (c : CapResult) (s : State) : State :=
  { s with pwr := { s.pwr with cap := c, capOpsec := s.opsec } }

/-- A measurement in service decides on DEGRADED (R59). -/
def judgeCap (c : CapResult) (s : State) : State :=
  let s1 := noteCap c s
  match serviceReason c with
  | some r => if s1.pwr.degraded then s1 else enterDegraded r s1
  | none => s1

/-- The method of the start-up test: by VHOLD at the moment PD03 has come up, and the discharge method after a reset, which leaves VHOLD
charged (R57, R61). -/
def dischargeMethod (p : Power) : Bool := p.reason != .powerGood || decide (4000 ≤ p.vhold)

/-- VHOLD after a charge: 11.0 V within 2 % where it was reached, and below that otherwise (R56). -/
def chargedVhold (reached : Bool) (free : Nat) : Nat :=
  if reached then 10780 + Config.freeNat free % 441 else Config.freeNat free % 10780

/-- CAPACITOR_MEASUREMENT (R59, R436). In service the discharge measurement is repeated every 3,600 operating seconds. Held in reset through power
good, the start-up test runs and its result is kept. -/
def execCapacitorMeasurement (cap : CapReading) (s : State) : Host.Outcome State Fault Refusal :=
  match s.pwr.phase with
  | .held =>
    if s.pwr.everStarted || s.pwr.capKept.isSome then .next s
    else .next { drew s with pwr := { s.pwr with
      capKept := some ⟨dischargeMethod s.pwr, cap⟩, vhold := chargedVhold cap.reached s.free } }
  | .started | .ready | .service | .recovery =>
    if s.pwr.capOpsec + 3600 ≤ s.opsec then .next (settle s (judgeCap ⟨true, cap⟩ s)) else .next s
  | _ => .next s

/-- VHOLD_LOW_TIMEOUT (R59). -/
def execVholdLowTimeout (s : State) : Host.Outcome State Fault Refusal :=
  match s.pwr.phase with
  | .started | .ready | .service | .recovery =>
    if s.pwr.degraded then .next s
    else
      let s1 := drew { s with pwr := { s.pwr with vhold := Config.freeNat s.free % 10000 } }
      .next (settle s (enterDegraded 3 s1))
  | _ => .next s

/-- PKE_IDLE_OFF (R48). A core under test or at work keeps its domain. -/
def execPkeIdleOff (core : Nat) (s : State) : Host.Outcome State Fault Refusal :=
  match s.pkes[core]? with
  | some p =>
    if p.on && !p.testing then
      .next (setDomain (13 + core) .off { s with pkes := modAt s.pkes core fun x => { x with on := false } })
    else .next s
  | none => .next s

end Sys2Proof.Machine
end

