-- ==== Sys2Proof/Machine/Events.lean ====
section
/-! DEFINITION. The event recorder's commands, schedules, health report and performance monitors (R408 to R423). -/

namespace Sys2Proof.Machine

/-- A function's BARs answer: firmware has been entered, the PCIe tunnel is configured, Memory Space Enable is set and the function is in D0, whichever
path holds the host role (R66, R84, R94). -/
def barUp (s : State) (f : Nat) : Bool :=
  powered s && s.pwr.phase != .startDue && s.link.pcieTun && memOn s f && (fnOf s f).present && !(fnOf s f).d3

/-! Event area. -/

/-- Pending records are due: 16 of them, or a second has passed since the oldest was recorded (R410). -/
def eventsDue (s : State) : Bool :=
  match s.ev.buf with
  | [] => false
  | r :: _ => decide (16 ≤ s.ev.buf.length) || num r.bytes 7 5 != s.opsec

/-- EVENT_BUFFER_WRITE (R410). In SCRAP events are held in the buffer only (R444). -/
def execEventBufferWrite (s : State) : Host.Outcome State Fault Refusal :=
  if powered s && s.pwr.phase != .scrap && eventsDue s then .next (writeEvents s) else .next s

/-- EVT_SUPPRESSED (R413): one summary at the first whole operating minute after suppression of a code began. -/
def execEvtSuppressed (code : Nat) (s : State) : Host.Outcome State Fault Refusal :=
  if powered s && tgetD s.ev.supp code 0 ≠ 0 && tgetD s.ev.suppAt code 0 / 60 < s.opsec / 60 then
    .next (settle s (suppressedSummary code s))
  else .next s

/-- The oldest retained EVN (R412). -/
def oldestEvn (s : State) : Nat := s.ev.nextEvn - eventSlots

/-- The record with an EVN: in the buffer, or in its slot of the event area (R409, R415). -/
def recordAt (s : State) (n : Nat) : Option Bytes :=
  match s.ev.buf.find? (·.evn == n) with
  | some r => some r.bytes
  | none =>
    match tget s.nv.evArea (n % eventSlots) with
    | some r => if r.evn = n then some r.bytes else none
    | none => none

/-- The records from EVN `n` on, with the EVN after the last one looked at (R415). `room` records fit; a base record is taken with
its extension or not at all. -/
def evScan (s : State) (minSev : Nat) : Nat → Nat → Nat → List (Nat × Bytes) × Nat
  | 0, n, _ => ([], n)
  | fuel + 1, n, room =>
    if s.ev.nextEvn ≤ n then ([], n)
    else
      match recordAt s n with
      | none => evScan s minSev fuel (n + 1) room
      | some b =>
        let size := if bit (num b 2 1) 4 then 2 else 1
        if num b 0 2 = 0xFFFF then evScan s minSev fuel (n + 1) room
        else if num b 2 1 % 8 < minSev then evScan s minSev fuel (n + size) room
        else if room < size then ([], n)
        else
          let ext := if size = 2 then [(n + 1, (recordAt s (n + 1)).getD (zeros 16))] else []
          let r := evScan s minSev fuel (n + size) (room - size)
          ((n, b) :: ext ++ r.1, r.2)

/-- EVT_READ's own steps (R415). -/
def evtReadRun (r : Req) (s : State) : Reply :=
  match firstBad [(fld r 6 2 ≠ 0, 16), (fld r 8 2 = 0 ∨ 253 < fld r 8 2, 24), (1 < fld r 11 1, 27), (fld r 12 4 ≠ 0, 28)] with
  | some off => .refuse s stMalformed off
  | none =>
    let want := fld r 0 6
    let floor := if bit (fld r 11 1) 0 then oldestEvn s else max (oldestEvn s) s.ev.clear
    let start := if want = 0 then floor else max want floor
    let res := evScan s (fld r 10 1) (s.ev.nextEvn - start) start (fld r 8 2)
    let gap := want ≠ 0 && decide (want < oldestEvn s)
    let more := decide (res.2 < s.ev.nextEvn)
    .done s stOk 0
      (le 8 ((res.1.head?.map (·.1)).getD res.2) ++ le 8 res.2 ++ le 2 res.1.length ++ le 2 (b2n gap + 2 * b2n more) ++ zeros 4
        ++ (res.1.map (·.2)).flatten)

/-- EVT_READ (R415). -/
def execEvtRead (r : Req) (s : State) : Host.Outcome State Fault Refusal :=
  .next (command (.evtRead r) 0x0901 r (some 16) (evtReadRun r) s)

/-- EVT_CLEAR's own steps (R416): unit, range, authority, and then the new mark. -/
def evtClearRun (r : Req) (s : State) : Reply :=
  let mark := fld r 48 8
  match firstBad [(slice r.body 0 16 ≠ unitIdBytes, 16), (mark < s.ev.clear ∨ s.ev.nextEvn < mark, 64), (fld r 56 8 ≠ 0, 72)] with
  | some off => .refuse s stMalformed off
  | none =>
    let s1 := consumeChallenge s
    if challengeIs s (slice r.body 16 32) && operatorSigned s (slice r.body 0 64) (slice r.body 64 3405) then
      let ctl := AB.value s.nv.evCtl {}
      let s2 := { s1 with
        nv := { s1.nv with evCtl := AB.update s1.nv.evCtl { ctl with clear := mark } }
        ev := { s1.ev with clear := mark } }
      .done (eventX 0x0901 0 (le 6 s.ev.clear ++ le 6 mark) s2) stOk 0 (le 8 mark)
    else .refuse s1 stAuthFail 0

/-- EVT_CLEAR (R416). -/
def execEvtClear (r : Req) (s : State) : Host.Outcome State Fault Refusal :=
  .next (command (.evtClear r) 0x0902 r (some 3469) (evtClearRun r) s)

/-! Schedules and health. -/

/-- The 16 bytes of the schedule in force (R419). -/
def diagBytes (d : Diag) : Bytes := le 4 d.lanePer ++ le 4 d.calPer ++ le 4 d.scrubPer ++ le 1 d.rate ++ zeros 3

/-- A field of DIAG_SCHEDULE: zero keeps the value (R419). -/
def keepZero (new old : Nat) : Nat := if new = 0 then old else new

/-- A non-zero value outside its range. -/
def outside (v lo hi : Nat) : Bool := v ≠ 0 && (decide (v < lo) || decide (hi < v))

/-- DIAG_SCHEDULE's own steps (R419). -/
def diagScheduleRun (r : Req) (s : State) : Reply :=
  match firstBad [(outside (fld r 0 4) 60 86400, 16), (outside (fld r 4 4) 600 86400, 20),
      (outside (fld r 8 4) 3600 86400, 24), (fld r 13 3 ≠ 0, 29)] with
  | some off => .refuse s stMalformed off
  | none =>
    let d : Diag :=
      { lanePer := keepZero (fld r 0 4) s.diag.lanePer
        calPer := keepZero (fld r 4 4) s.diag.calPer
        scrubPer := keepZero (fld r 8 4) s.diag.scrubPer
        rate := keepZero (fld r 12 1) s.diag.rate }
    .done { s with diag := d, nv := { s.nv with diag := AB.update s.nv.diag d } } stOk 0 (diagBytes d)

/-- DIAG_SCHEDULE (R419). -/
def execDiagSchedule (r : Req) (s : State) : Host.Outcome State Fault Refusal :=
  .next (command (.diagSchedule r) 0x0904 r (some 16) (diagScheduleRun r) s)

/-- The DIAG_HEALTH body (R420). -/
def healthBody (s : State) : Bytes :=
  le 4 (alertCause s) ++ le 1 s.pwr.tempNow ++ le 1 s.pwr.tempMax ++ le 2 s.pwr.vhold ++ le 2 (capUf s.pwr.cap)
    ++ le 2 (capMohm s.pwr.cap) ++ le 5 s.pwr.capOpsec ++ zeros 3 ++ le 2 s.pwr.vinA ++ le 2 s.pwr.vinB ++ le 4 s.health.dramCorr
    ++ le 2 s.health.dramBad ++ le 2 s.health.mramCorr ++ le 8 s.ev.nextEvn ++ le 8 (oldestEvn s) ++ le 8 s.ev.clear
    ++ le 4 (s.ev.latched.filter (s.ev.clear ≤ ·)).length ++ zeros 4

/-- DIAG_HEALTH (R420). -/
def execDiagHealth (r : Req) (s : State) : Host.Outcome State Fault Refusal :=
  .next (command (.diagHealth r) 0x0905 r (some 0) (fun s => .done s stOk 0 (healthBody s)) s)

/-! Performance monitors. -/

/-- Every counter and PMON_OVF are zeroed (R421). -/
def Pmon.clear (p : Pmon) : Pmon := { p with cnt := List.replicate 16 0, ovf := 0 }

/-- PMON_CTRL (R421): CLEAR reads 0. -/
def pmonCtrl (p : Pmon) : Nat := b2n p.freeze

/-- Reserved bits of the selects, which OP 1 alone uses (R7, R421). -/
def selectsBad (r : Req) : List (Bool × Nat) :=
  (List.range 16).map fun i => (fld r 0 1 == 1 && decide (2 ^ 13 ≤ fld r (4 + 4 * i) 4), 20 + 4 * i)

/-- PMON_CONFIG's own steps (R421). -/
def pmonConfigRun (r : Req) (s : State) : Reply :=
  match firstBad ([(decide (4 < fld r 0 1), 16), (fld r 1 3 != 0, 17)] ++ selectsBad r) with
  | some off => .refuse s stMalformed off
  | none =>
    let p := match fld r 0 1 with
      | 1 => { s.pmon with sel := (List.range 16).map fun i => BitVec.ofNat 32 (fld r (4 + 4 * i) 4) }
      | 2 => { s.pmon with freeze := true }
      | 3 => { s.pmon with freeze := false }
      | 4 => s.pmon.clear
      | _ => s.pmon
    .done { s with pmon := p } stOk 0 (le 4 (pmonCtrl p) ++ le 4 p.ovf.toNat ++ (p.cnt.map (le 8)).flatten)

/-- PMON_CONFIG (R421). -/
def execPmonConfig (r : Req) (s : State) : Host.Outcome State Fault Refusal :=
  .next (command (.pmonConfig r) 0x0906 r (some 68) (pmonConfigRun r) s)

/-- PMON_FREEZE (R421): a write of PMON_CTRL.FREEZE. -/
def execPmonFreeze (value : Bool) (s : State) : Host.Outcome State Fault Refusal :=
  if barUp s 0 then .next { s with pmon := { s.pmon with freeze := value } } else .next s

/-- PMON_CLEAR (R421): a write of 1 to PMON_CTRL.CLEAR. -/
def execPmonClear (s : State) : Host.Outcome State Fault Refusal :=
  if barUp s 0 then .next { s with pmon := s.pmon.clear } else .next s

/-- PMON_CNT_READ (R421): a 32-bit read of a counter's low half latches its high half. -/
def execPmonCntRead (n : Nat) (s : State) : Host.Outcome State Fault Refusal :=
  if barUp s 0 && n < 16 then
    let c := s.pmon.cnt.getD n 0
    .next { s with
      pmon := { s.pmon with latch := BitVec.ofNat 32 (c / 2 ^ 32), latchOf := n }
      out := s.out ++ [.reg (c % 2 ^ 32)] }
  else .next s

end Sys2Proof.Machine
end

