-- ==== Sys2Proof/Machine/Link.lean ====
section
/-! DEFINITION. The host link: the Type-C port, the host path, link loss and return, function resets, doorbells, MSI-X registers,
AER and the USB IN endpoints (R84 to R112, R138, R148). -/

namespace Sys2Proof.Machine

/-! Shared operations. -/

/-- The host interfaces are enabled: firmware, or the boot ROM in recovery mode, has been entered (R66). -/
def linkUp (s : State) : Bool := powered s && s.link.enabled

/-- The host interfaces' domains PD51 to PD55 follow the link (R48). -/
def linkDomains (s : State) : State :=
  { s with pwr := { s.pwr with domains := s.pwr.domains.mapIdx fun n d => if 51 ≤ n ∧ n ≤ 55 then linkDomain s n else d } }

/-- A vector is changed. -/
def modVec (f v : Nat) (g : Vec → Vec) (s : State) : State :=
  { s with vecs := tset s.vecs (2048 * f + v) (g (tgetD s.vecs (2048 * f + v) {})) }

/-- A function has queues that still drain after it was disabled (R148). -/
def draining (s : State) (f : Nat) : Bool := s.queues.any fun e => e.2.fn == f && e.2.byFn

/-- A reset of function `f` is done once nothing of it drains; the function is then enabled again (R105, R148). -/
def resetDone (f : Nat) (s : State) : State :=
  if (fnOf s f).causes.contains .flr && !draining s f then devEvent f 3 (endCause .flr f s) else s

/-- The VFs are gone: VF Enable is clear. FN_DISABLE of a VF stays in force until FN_ENABLE (R105, R148). -/
def dropVfs (s : State) : State :=
  { s with
    fns := s.fns.mapIdx fun f x =>
      if f = 0 then x else { x with present := false, enabled := false, causes := x.causes.filter (· == .fnDisable) }
    link := { s.link with vfEnable := false, numVFs := 0 } }

/-- A function-level reset of PF0, or what acts as one: PF0 and every VF are disabled, VF Enable is cleared, and the
host's hold on DGU1 ends (R91, R105, R407). -/
def resetPf0 (cause : FnCause) (s : State) : State :=
  releaseDgu .host <| dropVfs ((List.range 16).foldl (fun t f => resetFn (if f = 0 then cause else .flr) f t) s)

/-- The functions of the host path are disabled, and the path gives up the host role (R84, R91). -/
def losePath (cause : LinkCause) (s : State) : State :=
  let code := match cause with | .loss => 0 | .detach => 1 | .conventional => 2
  let s1 := resetPf0 .link (event 0x0204 code s)
  let l := { s1.link with hostPath := none, usbOut := [], usbMbx := [], usbNotify := 0 }
  { s1 with link := if cause = .conventional then l
      else { l with gen := 0, width := 0, usb3Tun := false, pcieTun := false, usbConf := false, tmu := 0, cl := .cl0 } }

/-! Type-C port and link. -/

/-- USB_ATTACH (R89). Rd is on CC only once the link is enabled. -/
def execUsbAttach (s : State) : Host.Outcome State Fault Refusal :=
  if linkUp s then .next (linkDomains { s with link := { s.link with attached := true } }) else .next s

/-- USB_DETACH (R89, R91). -/
def execUsbDetach (s : State) : Host.Outcome State Fault Refusal :=
  if linkUp s && s.link.attached then
    let s1 := losePath .detach s
    .next (settle s (linkDomains { s1 with link := { s1.link with attached := false, usb4Mode := false, contract := false } }))
  else .next s

/-- What the Power Delivery engine answers (R89): Discover Identity with product type peripheral, Enter_USB accepted, alternate modes
Not_Supported, a 5 V contract at 100 mA asked of the source. A swap is not supported; which message says so is left open (notes/assumptions/81.md). -/
def pdReply (msg : PdMsg) (s : State) : PdReply :=
  match msg with
  | .discoverIdentity => .peripheral
  | .enterUsb4 => .accept
  | .altMode => .notSupported
  | .prSwap | .drSwap => if Config.freeBit s.free then .reject else .notSupported
  | .sourceCaps => .request 5000 100

/-- PD_MESSAGE (R89). -/
def execPdMessage (msg : PdMsg) (s : State) : Host.Outcome State Fault Refusal :=
  if linkUp s && s.link.attached then
    let t := { s with
      link := { s.link with usb4Mode := s.link.usb4Mode || msg == .enterUsb4, contract := s.link.contract || msg == .sourceCaps }
      out := s.out ++ [.cc (pdReply msg s)] }
    .next (linkDomains (if msg = .prSwap ∨ msg = .drSwap then drew t else t))
  else .next s

/-- The USB function can be reached: natively, or through a USB3 tunnel (R88, R108). -/
def usbReached (l : Link) : Bool := l.usb3Tun || (l.attached && !l.usb4Mode)

/-- The path takes the host role, unless another one has it (R84). -/
def claim (p : Path) (l : Link) : Link := { l with hostPath := if l.hostPath = none then some p else l.hostPath }

/-- Memory Space Enable of PF0 is set (R84). -/
def claimPcie (s : State) : State :=
  { s with fns := modAt s.fns 0 fun x => x.setCfg 0x04 (cfgOf x 0x04 ||| 2), link := claim .pcie s.link }

/-- Configuration 1 of the USB function is selected (R84). -/
def claimUsb (s : State) : State := { s with link := { claim .usb s.link with usbConf := true } }

/-- HOST_PATH_CLAIM (R84): the first event makes its path the host path. What the event sets stays set either way: Memory Space Enable, or
configuration 1. -/
def execHostPathClaim (path : Path) (s : State) : Host.Outcome State Fault Refusal :=
  match path with
  | .pcie => if linkUp s && s.link.pcieTun then .next (claimPcie s) else .next s
  | .usb => if linkUp s && usbReached s.link then .next (claimUsb s) else .next s
  | .spi => .next s

/-- USB_BUS_RESET (R84): the function is no longer configured, and its hold on the host path ends. -/
def execUsbBusReset (s : State) : Host.Outcome State Fault Refusal :=
  if linkUp s then
    .next { s with link := { s.link with
      usbConf := false, hostPath := if s.link.hostPath = some .usb then none else s.link.hostPath } }
  else .next s

/-- A rate and width that the router supports: Gen 2 or Gen 3, one or two lanes (R87, R101). -/
def linkCodes (gen width : BitVec 2) : Bool := (gen == 1 || gen == 2) && (width == 1 || width == 2)

/-- LINK_LANE (R87, R90, R101): a dropped lane or a lower rate is recorded as a fault, a higher one is not, and the loss of both lanes is a link
loss. -/
def execLinkLane (gen width : BitVec 2) (s : State) : Host.Outcome State Fault Refusal :=
  if !linkUp s || s.link.gen == 0 then .next s
  else if gen = 0 ∧ width = 0 then .next (settle s (linkDomains (losePath .loss s)))
  else if !linkCodes gen width then .next s
  else
    let t := { s with link := { s.link with gen := gen, width := width } }
    if gen < s.link.gen ∨ width < s.link.width then
      .next (settle s (event 0x0203 (gen.toNat + 4 * width.toNat)
        (linkDomains { t with link := { t.link with laneEvents := min (s.link.laneEvents + 1) 65535 } })))
    else .next (linkDomains t)

/-- LINK_LOSS (R91). -/
def execLinkLoss (cause : LinkCause) (s : State) : Host.Outcome State Fault Refusal :=
  if linkUp s then .next (settle s (linkDomains (losePath cause s))) else .next s

/-- LINK_RETURN (R87, R88, R91, R101, R148). It is also how the connection manager first sets up the paths (notes/assumptions/27.md). -/
def execLinkReturn (gen width : BitVec 2) (setup : PathSetup) (s : State) : Host.Outcome State Fault Refusal :=
  if linkUp s && linkCodes gen width then
    .next (settle s (endCauseAll .link (linkDomains { s with link := { s.link with
      gen := gen, width := width, usb3Tun := setup.usb3, pcieTun := setup.pcie, tmu := setup.tmu, cl := setup.cl } })))
  else .next s

/-! The router (R88). -/

/-- The types of adapter. -/
inductive Adapter where
  | control | lane | pcieUp | usb3Up
  deriving DecidableEq, Repr

/-- The adapters of the router, by number (R88). -/
def adapters : List Adapter := [.control, .lane, .lane, .pcieUp, .usb3Up]

/-- An adapter is in use: the control adapter while the port runs USB4, the lane adapters as the link's width says, the tunnel adapters while the
connection manager has set up their path (R87, R88). -/
def adapterUsed (s : State) (n : Nat) : Bool :=
  match n with
  | 0 => s.link.gen != 0
  | 1 => s.link.width != 0
  | 2 => s.link.width == 2
  | 3 => s.link.pcieTun
  | 4 => s.link.usb3Tun
  | _ => false

/-! Function resets. -/

/-- The boot ROM serves: VFs are not enabled (R76, R444). -/
def romServes (s : State) : Bool :=
  match s.pwr.phase with
  | .recovery | .scrap => true
  | _ => false

/-- VFs 1 to `n` come up (R93). Not where the boot ROM serves (R76). -/
def raiseVfs (n : Nat) (s : State) : State :=
  if romServes s then s
  else { s with
    link := { s.link with vfEnable := true, numVFs := n }
    fns := s.fns.mapIdx fun f x =>
      if f = 0 ∨ n < f then x
      else
        let c := x.causes ++ (if draining s f then [.flr] else [])
        { x with present := true, causes := c, enabled := c.isEmpty && mayEnable s } }

/-- VF_ENABLE (R93): VF MSE is set with it (notes/assumptions/78.md). -/
def execVfEnable (numVFs : Nat) (s : State) : Host.Outcome State Fault Refusal :=
  if linkUp s && !s.link.vfEnable && numVFs ≤ 15 then
    .next (settle s (raiseVfs numVFs { s with fns := modAt s.fns 0 fun x => x.setCfg 0x158 (cfgOf x 0x158 ||| 8) }))
  else .next s

/-- A function-level reset (R105, R148). -/
def flr (f : Nat) (s : State) : State := resetDone f (if f = 0 then resetPf0 .flr s else resetFn .flr f s)

/-- VF_FLR (R105, R148). -/
def execVfFlr (fn : Nat) (s : State) : Host.Outcome State Fault Refusal :=
  if linkUp s && fn ≠ 0 && (fnOf s fn).present then .next (settle s (flr fn s)) else .next s

/-- PF0_FLR (R105, R148). -/
def execPf0Flr (s : State) : Host.Outcome State Fault Refusal :=
  if linkUp s then .next (settle s (flr 0 s)) else .next s

/-- Pending messages of a function go out, where nothing masks them any more (R102, R104; notes/assumptions/79.md). -/
def sendPending (f : Nat) (s : State) : State :=
  if canSignal s f then
    (s.vecs.filter fun e => e.1 / 2048 == f && e.2.pend && !e.2.masked).foldl
      (fun t e => message f (e.1 % 2048) (modVec f (e.1 % 2048) (fun x => { x with pend := false }) t)) s
  else s

/-- Bus Master Enable of a function is cleared (R105, R148). -/
def masterOff (fn : Nat) (s : State) : State :=
  disableFn .busMaster fn (dropHeldMessages fn (dropRequests fn { s with fns := modAt s.fns fn fun x => { x with bme := false } }))

/-- BUS_MASTER_DISABLE (R105, R148): where the bit was set. -/
def execBusMasterDisable (fn : Nat) (s : State) : Host.Outcome State Fault Refusal :=
  if linkUp s && (fnOf s fn).present && (fnOf s fn).bme then .next (settle s (masterOff fn s)) else .next s

/-- Bus Master Enable of a function is set. -/
def masterOn (fn : Nat) (s : State) : State :=
  sendPending fn (endCause .busMaster fn { s with fns := modAt s.fns fn fun x => { x with bme := true } })

/-- BUS_MASTER_ENABLE (R105, R148). -/
def execBusMasterEnable (fn : Nat) (s : State) : Host.Outcome State Fault Refusal :=
  if linkUp s && (fnOf s fn).present then .next (settle s (masterOn fn s)) else .next s

/-- PF0 enters D3hot, which acts as its function-level reset (R105). -/
def enterD3 (s : State) : State :=
  let s1 := resetPf0 .d3hot s
  { s1 with fns := modAt s1.fns 0 fun x => { x with d3 := true } }

/-- D3HOT (R105). Only PF0 has the Power Management capability (R92). -/
def execD3hot (fn : Nat) (s : State) : Host.Outcome State Fault Refusal :=
  if linkUp s && fn = 0 then .next (settle s (enterD3 s)) else .next s

/-- PF0 returns to D0 (R148). -/
def leaveD3 (s : State) : State := endCause .d3hot 0 { s with fns := modAt s.fns 0 fun x => { x with d3 := false } }

/-- D3HOT_EXIT (R148). -/
def execD3hotExit (fn : Nat) (s : State) : Host.Outcome State Fault Refusal :=
  if linkUp s && fn = 0 then .next (settle s (leaveD3 s)) else .next s

/-- RECEIVED_TLP_ERROR (R107): the TLP is discarded and the error reported. -/
def execReceivedTlpError (kind : TlpError) (s : State) : Host.Outcome State Fault Refusal :=
  let e := match kind with
    | .poisonedWrite => AerError.poisonedWrite
    | .unexpectedCompletion => .unexpectedCompletion
    | .ecrc => .ecrc
    | .malformed => .malformed
  if linkUp s then .next (aer 0 e s) else .next s

/-! Doorbells. -/

/-- A doorbell is discarded and the event records why (R97, R138). -/
def dropDoorbell (fn qix why : Nat) (s : State) : State :=
  event 0x0201 (qix + 2 ^ 18 * fn + 2 ^ 22 * why) (count 0x04 fn 1 s)

/-- Completions that a CQH would release (R139). -/
def released (q : Queue) (cqh : Nat) : Nat := (cqh + q.entries - q.cqHead) % q.entries

/-- SQT is outside the ring, or CQH would release a slot that has not been written (R138). -/
def doorbellBad (q : Queue) (v : BitVec 32) : Bool :=
  (v.getLsbD 30 && q.entries ≤ (v.setWidth 12).toNat)
    || (v.getLsbD 31 && (q.entries ≤ ((v >>> 16).setWidth 12).toNat
      || q.unreleased < released q ((v >>> 16).setWidth 12).toNat))

/-- The valid fields are applied (R138). -/
def applyDoorbell (v : BitVec 32) (q : Queue) : Queue :=
  let q1 := if v.getLsbD 30 then { q with sqTail := (v.setWidth 12).toNat } else q
  if v.getLsbD 31 then
    let cqh := ((v >>> 16).setWidth 12).toNat
    { q1 with cqHead := cqh, unreleased := q.unreleased - released q cqh }
  else q1

/-- The message of a queue whose saved state stands in the context: in the clear, or wrapped. -/
def savedAt (wrapped : Bool) (q : Nat) (w : Work) : Bool :=
  w.qix == q && (match w.saved with | some x => x.wrapped == wrapped | none => false)

/-- The wrapped saved state of a queue's message goes to DRAM with its context: a 16-byte IV, the ciphertext and the tag, in the last half of the
context's 256 bytes (R192, R330; notes/assumptions/89.md). -/
def wrapSaved (q : Nat) (s : State) : State :=
  match s.work.find? (savedAt false q) with
  | none => s
  | some w =>
    let iv := (be 32 (Config.noise s.free).toNat).take 16
    let c := gcmSeal16 (be 32 s.keys.saveWrap.toNat) iv (match w.saved with | some x => x.bytes | none => [])
    let b := iv ++ c.1 ++ tagBytes c.2
    let line := fun (k : Nat) => ({ data := fit 64 (b.drop (64 * k)), colour := BitVec.ofNat 4 w.fn } : Line)
    drew { s with
      dram := tset (tset s.dram (contextLine q + 2) (line 0)) (contextLine q + 3) (line 1)
      work := modFirst (savedAt false q) (fun w => { w with saved := some { wrapped := true } }) s.work }

/-- A message is executed again from its first quantum (R192). -/
def Work.restarted (w : Work) : Work := { w with stage := .takenBack, unit := 0, acc := [], saved := none }

/-- What stands wrapped in the context of a queue, unless a line of it cannot be read (R192, R325, R326). -/
def unwrapped (s : State) (q fn : Nat) : Option Bytes :=
  let l := fun (k : Nat) => tgetD s.dram (contextLine q + k) {}
  if (l 2).bad || (l 3).bad || (l 2).colour != BitVec.ofNat 4 fn || (l 3).colour != BitVec.ofNat 4 fn then none
  else
    let b := (l 2).data ++ (l 3).data
    gcmOpen16 (be 32 s.keys.saveWrap.toNat) (b.take 16) (slice b 16 96) (BitVec.ofNat 128 (beVal (b.drop 112)))

/-- The context of a queue is read from DRAM with its message's saved state: one that fails its tag has the message executed again from quantum 0,
and the event is recorded (R192; notes/assumptions/89.md). -/
def unwrapSaved (q : Nat) (s : State) : State :=
  match s.work.find? (savedAt true q) with
  | none => s
  | some w =>
    match unwrapped s q w.fn with
    | some b => { s with work := modFirst (savedAt true q) (fun w => { w with saved := some { bytes := b } }) s.work }
    | none =>
      eventX 0x0A03 0 (le 8 (2 ^ 32 + 64 * (contextLine q + 2))) { s with work := modFirst (savedAt true q) Work.restarted s.work }

/-- The context of a queue is looked up in the context cache bank of index [2:0] (R11, R16): a miss brings it in, and from a full bank of 4,096
contexts another one goes; which one is left open (notes/assumptions/82.md). Hits, misses and evictions are counted (R422). -/
def findContext (q fn : Nat) (s : State) : State :=
  let b := q % 8
  let bank := s.cache.getD b []
  if bank.contains q then count 0x20 fn 1 s
  else if bank.length < 4096 then count 0x40 0 4 <| count 0x21 fn 1 (unwrapSaved q { s with cache := s.cache.set b (q :: bank) })
  else
    let k := Config.freeNat s.free % bank.length
    count 0x40 0 4 <| count 0x41 0 4 <| count 0x22 fn 1 (count 0x21 fn 1 (unwrapSaved q (wrapSaved (bank.getD k 0) (drew { s with
      cache := s.cache.set b (q :: bank.eraseIdx k) }))))

/-- A doorbell that reached the function's BAR2 (R97, R134, R138). A queue that is DISABLING or DISABLED has its doorbells
discarded; while a queue-stop completion waits for a slot CQH is still honoured (R139; notes/assumptions/29.md). In standby it ends
the standby (R50). -/
def ring (fn qix : Nat) (v : BitVec 32) (s : State) : State :=
  let q := queueOf s qix
  let s1 := { s with pwr := { s.pwr with wake := s.pwr.wake || s.pwr.standby || s.pwr.standbyDue } }
  if q.st = .free ∨ q.fn ≠ fn then dropDoorbell fn qix 0 s1
  else if q.path = .spi then dropDoorbell fn qix 1 s1
  else if q.st ≠ .active ∧ q.stopDue = none then count 0x04 fn 1 s1
  else if doorbellBad q v then dropDoorbell fn qix 2 s1
  else count 0x03 fn 1 (findContext qix fn (modQueue qix (applyDoorbell (if q.st = .active then v else v &&& 0xBFFFFFFF#32)) s1))

/-- A write that reached the function's BAR2 (R84, R97, R138): one aligned 32-bit write with all byte enables set is a doorbell, another one is
discarded; so is every doorbell while the PCIe tunnel is not the host path. -/
def bar2Write (fn qix : Nat) (v : BitVec 32) (whole : Bool) (s : State) : State :=
  if whole && s.link.hostPath == some .pcie then ring fn qix v s else count 0x04 fn 1 s

/-- DOORBELL (R97, R138). -/
def execDoorbell (fn qix : Nat) (value : BitVec 32) (whole : Bool) (s : State) : Host.Outcome State Fault Refusal :=
  if barUp s fn then .next (settle s (bar2Write fn qix value whole s)) else .next s

/-! Link and MSI-X registers. -/

/-- CTO_MS takes a value from 1 to 50 and ignores the others (R100, R101). -/
def setCto (v : BitVec 32) (s : State) : State :=
  let c := (v.setWidth 6).toNat
  if 1 ≤ c ∧ c ≤ 50 then { s with link := { s.link with cto := c } } else s

/-- LINK_CTRL (R100, R101). -/
def execLinkCtrl (value : BitVec 32) (s : State) : Host.Outcome State Fault Refusal :=
  if barUp s 0 then .next (setCto value s) else .next s


/-- A write of a COAL register (R103, R104): completions already held are released under the new values. -/
def setCoal (f v : Nat) (value : BitVec 32) (s : State) : State :=
  let s1 := modVec f v (fun x => { x with count := value.setWidth 8, time := (value >>> 8).setWidth 16 }) s
  let x := tgetD s1.vecs (2048 * f + v) {}
  if x.held ≠ 0 ∧ (x.direct v || x.count.toNat ≤ x.held) then message f v s1 else s1

/-- COAL (R103, R104). -/
def execCoal (fn vec : Nat) (value : BitVec 32) (s : State) : Host.Outcome State Fault Refusal :=
  if barUp s fn && vec < vectorsOf fn then .next (setCoal fn vec value s) else .next s

/-- COALESCE_TIMEOUT (R104). -/
def execCoalesceTimeout (fn vec : Nat) (s : State) : Host.Outcome State Fault Refusal :=
  if (tgetD s.vecs (2048 * fn + vec) {}).held ≠ 0 then .next (message fn vec s) else .next s

/-- A vector's mask bit is cleared; a pending message is sent (R102, R104). -/
def unmask (f v : Nat) (s : State) : State :=
  let p := (tgetD s.vecs (2048 * f + v) {}).pend
  let s1 := modVec f v (fun x => { x with masked := false, pend := false }) s
  if p then message f v s1 else s1

/-- VECTOR_UNMASK (R102, R104). -/
def execVectorUnmask (fn vec : Nat) (s : State) : Host.Outcome State Fault Refusal :=
  if barUp s fn && vec < vectorsOf fn then .next (unmask fn vec s) else .next s

/-! USB IN endpoints. -/

/-- USB_BULK_IN (R108 to R112): the host takes the oldest frame of an IN endpoint. -/
def execUsbBulkIn (ep : UsbIn) (s : State) : Host.Outcome State Fault Refusal :=
  if linkUp s then
    match ep with
    | .complete =>
      match s.link.usbOut with
      | [] => .next s
      | f :: rest => .next { s with link := { s.link with usbOut := rest }, out := s.out ++ [.frame .complete f] }
    | .mbxResp =>
      match s.link.usbMbx with
      | [] => .next s
      | f :: rest => .next { s with link := { s.link with usbMbx := rest }, out := s.out ++ [.frame .mbxResp f] }
    | .notify =>
      if s.link.usbNotify = 0 then .next s
      else .next { s with
        link := { s.link with usbNotify := 0 }
        out := s.out ++ [.frame .notify (usbHeader 5 s.link.usbNotify.toNat 0 0)] }
  else .next s

end Sys2Proof.Machine
end

