-- ==== Sys2Proof/Machine/Entries.lean ====
section
/-! DEFINITION. How a submission entry is judged before it is scheduled: limits, alignment, keys, staging, headers and declared
lengths (R136, R143, R145, R146, R150 to R152, R307), and the ingress and staging credit it takes (R142, R143). -/

namespace Sys2Proof.Machine

/-! Operation codes (R135). -/

abbrev oNop : Nat := 0
abbrev oAccept : Nat := 1
abbrev oSeal : Nat := 2
abbrev oOpen : Nat := 3
abbrev oXtsEnc : Nat := 4
abbrev oXtsDec : Nat := 5
abbrev oOutcome : Nat := 6
abbrev oVerify : Nat := 7

/-- Source byte count (R150, R245). -/
def srcCount (e : Bytes) : Nat :=
  match eOpc e with
  | 1 | 7 => eLen e
  | 2 => eAadLen e + eLen e
  | 3 => eAadLen e + eLen e + 48
  | 4 | 5 => 16 + eLen e
  | 6 => 32
  | _ => 0

/-- Output byte count; `src` is the source of an OUTCOME, which names its COUNT (R150, R247). -/
def outCount (e src : Bytes) : Nat :=
  match eOpc e with
  | 1 => eLen e + 44
  | 2 => eLen e + 48
  | 3 | 4 | 5 => eLen e
  | 6 => 92 + 8 * num src 3 1
  | 7 => 64
  | _ => 0

/-- The message is staged in DRAM (R143, R150). -/
def staged (e : Bytes) : Bool := (eOpc e == 2 || eOpc e == 3) && 65536 < srcCount e

/-- Staging charge: the source byte count rounded up to 64 KiB (R143). -/
def stagingCharge (e : Bytes) : Nat := if staged e then (srcCount e + 65535) / 65536 * 65536 else 0

/-- Ingress charge: the entry and its source, or its current piece, rounded up to 64 bytes (R142). -/
def ingressCharge (e : Bytes) : Nat :=
  (32 + (if staged e then 65536 else srcCount e) + 63) / 64 * 64

/-! Stage 1, from the entry alone. -/

/-- Reserved fields and fields that have one allowed value, by ascending offset (R135, R136, R137, R151, R293). `ring` says that SRC and DST
are not ignored, `kind` that KIX names a key of another kind. -/
def entryBad (ring kind : Bool) (e : Bytes) : Option Nat :=
  let op := eOpc e
  let k := eKix e
  firstBad [(4 ≤ eFlg e, 1),
    (((op == 0 || op == 1 || op == 6 || op == 7) && k ≠ 0) || ((op == 2 || op == 3) && 0x1000 ≤ k && k ≠ 0xFFFF)
      || ((op == 4 || op == 5) && 0x1000 ≤ k) || kind, 2),
    (op == 0 && eLen3 e ≠ 0, 4), ((op == 0 && num e 7 2 ≠ 0) || 8192 ≤ num e 7 2, 7), (num e 9 3 ≠ 0, 9),
    (op == 0 && ring && eSrc e ≠ 0, 16), (op == 0 && ring && eDst e ≠ 0, 24)]

/-- LEN, AADLEN and alignment (R145, R150, R245). -/
def entryLength (hold : Bool) (e : Bytes) : Option Nat :=
  let n := eLen e
  let a := eAadLen e
  let limit := match eOpc e with
    | 1 => n < 64 || 16384 < n || a ≠ 0
    | 2 => n < 16 || 4096 < a
    | 3 => n < 16 || 4096 < a || (hold && 65536 < n)
    | 4 | 5 => n < 512 || 65536 < n || a ≠ 0
    | 6 => n ≠ 32 || a ≠ 0
    | 7 => n < 108 || 16428 < n || a ≠ 0
    | _ => false
  if limit then some stLenLimit
  else if (eOpc e == 4 || eOpc e == 5) && n % 16 ≠ 0 then some stLenAlign
  else none

/-- The kind that KIX must name (R151). -/
def kixKind (op : Nat) : Nat := if op = 4 ∨ op = 5 then 0x12 else 0x11

/-- A current key of any kind that the function may use stands at a persistent index (R293). -/
def anyKey (s : State) (fn i : Nat) : Option KeyRec := currentKey s fn i [0x02, 0x11, 0x12, 0x13, 0x14]

/-- KIX names a key of another kind (R151). -/
def kixKindBad (s : State) (fn : Nat) (e : Bytes) : Bool :=
  let op := eOpc e
  2 ≤ op && op ≤ 5 && eKix e < 0x1000
    && (match anyKey s fn (eKix e) with | some k => k.kind ≠ kixKind op | none => false)

/-- The queue's bound session record exists (R293, R307). -/
def boundSess (s : State) (q : Queue) : Option (Nat × SessRec) :=
  match nameOf s q.skey.toNat with
  | .session i => (currentSess s q.fn i).map fun x => (i, x)
  | _ => none

/-- The queue's journal key is current and usable (R293, R307). -/
def queueJournal (s : State) (q : Queue) : Option (Nat × KeyRec) :=
  match nameOf s q.jkey.toNat with
  | .persistent i => (currentKey s q.fn i [0x14]).map fun k => (i, k)
  | _ => none

/-- A key that the entry uses is missing (R150, R307; notes/assumptions/32.md). -/
def keyMissing (s : State) (q : Queue) (e : Bytes) : Bool :=
  let op := eOpc e
  op ≠ 0 && ((queueJournal s q).isNone
    || ((op == 1 || ((op == 2 || op == 3) && eKix e == 0xFFFF)) && (boundSess s q).isNone)
    || (2 ≤ op && op ≤ 5 && eKix e < 0x1000 && (currentKey s q.fn (eKix e) [kixKind op]).isNone))

/-- Operations that a path carries (R83). -/
def pathServes (p : Path) (op : Nat) : Bool :=
  match p with
  | .spi => op ≤ 3 || op == 7
  | _ => op ≤ 7

/-- A status that is decided before the source is fetched, in the order of R146: status and DETAIL. -/
def stage1 (s : State) (q : Queue) (e : Bytes) : Option (Nat × Nat) :=
  let ring := q.path == .pcie
  match entryBad ring (kixKindBad s q.fn e) e with
  | some off => some (stMalformed, off)
  | none =>
    if !pathServes q.path (eOpc e) then some (stUnsupported, 0)
    else if q.st ≠ .active ∨ seqReserve s then some (stQueueDisabled, 0)
    else if tamperHalt s then some (stTamperHalt, 0)
    else match entryLength q.hold e with
      | some st => some (st, 0)
      | none =>
        if q.path == .spi && 4096 < srcCount e then some (stLenLimit, 0)
        else if (fnOf s q.fn).staging * 1048576 < stagingCharge e then some (stLenLimit, 0)
        else if journalFull s && eOpc e ≠ 0 then some (stJournalFull, 0)
        else if keyMissing s q e then some (stKeySlotEmpty, 0)
        else none

/-- Before service is complete, staged operations and OUTCOME stay unfetched (R66, R143). -/
def notYet (s : State) (e : Bytes) : Bool := s.pwr.phase ≠ .service && (staged e || eOpc e == 6)

/-! Credit (R142, R143). -/

/-- Ingress bytes a function holds of its guaranteed credit (`pool` false) or of the shared pool. -/
def held (s : State) (f : Nat) (pool : Bool) : Nat :=
  ((s.work.filter fun w => w.fn == f && hostQueue s w.qix && w.pooled == pool).map (·.charge)).sum

/-- The shared pool: what the guarantees leave of 4,032 KiB (R142). -/
def poolSize (s : State) : Nat := 4128768 - 1024 * (s.fns.map (·.inGuar)).sum

/-- Where the charge of an entry fits: in guaranteed credit (some false), in the shared pool (some true), or nowhere (R142). -/
def creditFor (s : State) (f c : Nat) : Option Bool :=
  let x := fnOf s f
  if held s f false + c ≤ 1024 * x.inGuar then some false
  else if held s f true + c ≤ 1024 * x.inCap ∧ ((List.range 16).map fun g => held s g true).sum + c ≤ poolSize s then some true
  else none

/-- The function has the staging credit free (R143). -/
def stagingFits (s : State) (f : Nat) (e : Bytes) : Bool :=
  stChargeOf s.work f + stagingCharge e ≤ 1048576 * (fnOf s f).staging

/-! Stages 2 and 3, once the source has arrived. -/

/-- The terminal record header at `off` (R157). -/
def termBad (b : Bytes) (off : Nat) : List (Bool × Nat) :=
  [(num b off 2 ≠ 0x5754, off), (num b (off + 2) 1 ≠ 1, off + 2), (num b (off + 3) 1 ≠ 0, off + 3)]

/-- The first bad field of the structure at the head of the source, as an offset within it (R152, R157, R164, R166, R173, R245). -/
def headBad (e src : Bytes) : Option Nat :=
  match eOpc e with
  | 1 => firstBad (termBad src 0)
  | 3 =>
    let h := src.drop (eAadLen e)
    firstBad [(num h 0 2 ≠ 0x0102, 0), (2 ≤ num h 2 2, 2), (num h 10 2 ≠ 0, 10), (num h 28 4 ≠ 0, 28)]
  | 6 =>
    firstBad [(num src 0 2 ≠ 0x4F43, 0), (num src 2 1 ≠ 1, 2), (num src 3 1 = 0 ∨ 64 < num src 3 1, 3), (num src 24 8 ≠ 0, 24)]
  | 7 =>
    firstBad ((num src 0 2 ≠ 0x0101, 0) :: (2 ≤ num src 2 2, 2) :: (num src 14 2 ≠ 0, 14) :: (num src 41 3 ≠ 0, 41) :: termBad src 44)
  | _ => none

/-- The declared length against LEN (R145 stage 3, R159, R173). -/
def declaredBad (e src : Bytes) : Option Nat :=
  let n := match eOpc e with
    | 1 => some (num src 4 4)
    | 7 => some (num src 48 4 + 44)
    | _ => none
  match n with
  | some d => if eLen e < d then some stLenShort else if d < eLen e then some stLenLong else none
  | none => none

/-- Where the structure that R152 checks ends in the source. -/
def headEnd (e : Bytes) : Nat :=
  match eOpc e with
  | 1 | 6 => 32
  | 3 => eAadLen e + 32
  | 7 => 76
  | _ => 0

/-- What the arrived source decides: status and DETAIL (R145, R146, R152). Fewer or more bytes than the source byte count come only on
the framed paths. -/
def stage2 (e src : Bytes) : Option (Nat × Nat) :=
  match (if headEnd e ≤ src.length then headBad e src else none) with
  | some off => some (stMalformed, 0x20 + off)
  | none =>
    if src.length < srcCount e then some (stLenShort, 0)
    else if srcCount e < src.length then some (stLenLong, 0)
    else (declaredBad e src).map fun st => (st, 0)

/-- An entry whose status is decided before scheduling waits for its turn to complete; the credit it holds returns when it does (R142, R146). -/
def Work.decided (status detail : Nat) (w : Work) : Work :=
  { w with stage := .done, status := status, detail := detail, src := [] }

/-- The entries that `p` picks are changed, and the credit follows. -/
def modWork (p : Work → Bool) (f : Work → Work) (s : State) : State := recharge { s with work := modFirst p f s.work }

/-- A source has arrived: it is judged, and the entry is ready for dispatch or decided. A staged piece's credit returns once the piece
lies in DRAM (R143). -/
def takeSource (src : Bytes) (w : Work) : Work :=
  match stage2 w.ent src with
  | some (st, det) => w.decided st det
  | none => { w with src := src, stage := .arrived, charge := if staged w.ent then 64 else w.charge }

end Sys2Proof.Machine
end

