-- ==== Sys2Proof/Machine/Standby.lean ====
section
/-! DEFINITION. Standby: when it is entered, and what it leaves running (R48, R50, R128). -/

namespace Sys2Proof.Machine

/-- A domain's state in standby; link domains keep theirs (R48). -/
def standbyDomain (n : Nat) (d : DomState) : DomState :=
  if n = 7 ∨ (68 ≤ n ∧ n ≤ 75) then .retention
  else if (4 ≤ n ∧ n ≤ 6) ∨ (9 ≤ n ∧ n ≤ 11) ∨ n = 13 ∨ n = 14 ∨ (16 ≤ n ∧ n ≤ 45) ∨ (59 ≤ n ∧ n ≤ 67) then .off
  else if (51 ≤ n ∧ n ≤ 55) ∨ n = 58 then d
  else .on

/-- Scheduled draws that have committed and not yet certified (R128, R249). -/
def drawsUnderway (s : State) : Bool :=
  s.nv.draws.any fun d => !(num d.params 5 1).testBit 0 && (d.st == .committed || d.st == .resulted)

/-- Standby is entered: domains switch, the banks and the lanes are off, DEV_STANDBY responds (R48, R50, R128, R216). -/
def enterStandby (s : State) : State :=
  let s1 := { s with
    pwr := { s.pwr with
      standby := true, standbyDue := false
      domains := s.pwr.domains.mapIdx standbyDomain }
    lanes := s.lanes.map fun l => { l with keys := [], out := [], seeded := false, maskSeed := 0 }
    banks := s.banks.map fun b => if b.st = .failed then b else { b with st := .off, ready := false, heldRaw := none }
    pkes := s.pkes.map fun p => { p with on := false } }
  answerAll (fun w => w.op == 0x0103) (fun _ => (stOk, 0, [])) (event 0x010C 1 s1)

/-- DEV_STANDBY executes, and nothing keeps standby from being entered: no work inside, and every committed draw certified (R50,
R128). -/
def standbyReady (s : State) : Bool := s.pwr.standbyDue && s.work == [] && (s.tamper.t3 || !drawsUnderway s)

/-- Standby is entered once nothing is in its way. -/
def sleepIfDue (s : State) : State := if standbyReady s then settle s (enterStandby s) else s

end Sys2Proof.Machine
end

