-- ==== Sys2Proof/Machine/Queues.lean ====
section
/-! DEFINITION. Queues and functions: fetching (R139, R144), arriving sources, queue stop and drain (R133, R139, R147), and the Queues
family of commands (R131 to R134, R147, R148). -/

namespace Sys2Proof.Machine

/-! Fetching. -/

/-- Submission entries may be fetched (R33, R50, R66, R379). -/
def fetchOpen (s : State) : Bool :=
  (s.pwr.phase == .ready || s.pwr.phase == .service) && !s.pwr.fetchOff && !s.pwr.standby && !s.pwr.standbyDue && !s.tamper.t3

/-- Entries of a queue fetched and not completed (R134). -/
def outstanding (s : State) (q : Nat) : Nat := (s.work.filter (·.qix == q)).length

/-- A queue that a shard may fetch from (R105, R139, R144). -/
def queueReady (s : State) (sh : Nat) (q : Nat × Queue) : Bool :=
  q.2.path == .pcie && q.1 % 4 == sh && q.2.st == .active && q.2.sqHead != q.2.sqTail
    && outstanding s q.1 + q.2.unreleased < q.2.entries && (fnOf s q.2.fn).enabled && (fnOf s q.2.fn).bme && s.link.pcieTun

/-- The ready queues of a function at a shard, in index order. -/
def readyQueues (s : State) (sh f : Nat) : List Nat := (s.queues.filter fun q => queueReady s sh q && q.2.fn == f).map (·.1)

/-- The members of a rising list in round-robin order after a standing point. -/
def after (standing : Nat) (ids : List Nat) : List Nat := ids.filter (standing < ·) ++ ids.filter (· ≤ standing)

/-- Successive visits grant an allowance each until one leaves a positive balance (R144). -/
def visits : Nat → List Nat → (Nat → Int) → List Int → Option (Nat × List Int)
  | 0, _, _, _ => none
  | _, [], _, _ => none
  | fuel + 1, f :: fs, grant, cr =>
    let c := cr.getD f 0 + grant f
    let cr1 := cr.set f c
    if 0 < c then some (f, cr1) else visits fuel (fs ++ [f]) grant cr1

/-- What a shard fetches from next: the queue, its function, the balances, and whether a visit of the function begins. -/
structure FetchPick where
  queue : Nat
  fn : Nat
  credit : List Int
  fresh : Bool
  deriving DecidableEq, Repr

/-- The ready queues of the function that a shard visits which the visit has not passed over (R144). -/
def unpassed (s : State) (sh f : Nat) : List Nat :=
  (readyQueues s sh f).filter fun q => !(s.sched.passed.getD sh []).contains q

/-- The function that a shard serves next, with the balances, and whether a visit begins: the visit goes on while the balance is positive and a queue
is left that it has not passed over (R144). -/
def pickFn (s : State) (sh : Nat) : Option (Nat × List Int × Bool) :=
  let cr := s.fns.map fun x => x.fetchCredit.getD sh 0
  let fs := (List.range 16).filter fun f => readyQueues s sh f ≠ []
  let f0 := s.sched.rrFetch.getD sh 0
  if decide (0 < cr.getD f0 0) && unpassed s sh f0 != [] then some (f0, cr, false)
  else (visits 70000 (after f0 fs) (fun f => 4096 * (fnOf s f).weight) cr).map fun p => (p.1, p.2, true)

/-- The queue of a list within the function: at most 8 entries of one queue in a visit (R144). -/
def pickQueue (s : State) (sh : Nat) (qs : List Nat) : Option Nat :=
  let last := s.sched.lastQ.getD sh 0
  if qs.contains last && s.sched.fetchRun.getD sh 0 < 8 then some last else (after last qs).head?

/-- What a shard fetches from next (R144). -/
def fetchPick (s : State) (sh : Nat) : Option FetchPick :=
  match pickFn s sh with
  | some (f, cr, fresh) =>
    (pickQueue s sh (if fresh then readyQueues s sh f else unpassed s sh f)).map fun q => ⟨q, f, cr, fresh⟩
  | none => none

/-- The round robins stand at the queue picked. -/
def standAt (sh : Nat) (p : FetchPick) (s : State) : State :=
  let same := s.sched.lastQ.getD sh 0 == p.queue && !p.fresh && s.sched.fetchRun.getD sh 0 < 8
  { s with
    fns := s.fns.mapIdx fun i x => { x with fetchCredit := x.fetchCredit.set sh (p.credit.getD i 0) }
    sched := { s.sched with
      rrFetch := s.sched.rrFetch.set sh p.fn
      lastQ := s.sched.lastQ.set sh p.queue
      fetchRun := s.sched.fetchRun.set sh (if same then s.sched.fetchRun.getD sh 0 + 1 else 1)
      passed := if p.fresh then s.sched.passed.set sh [] else s.sched.passed } }

/-- A queue whose next entry has to stay is passed over for the rest of the visit (R144). -/
def passOver (sh q : Nat) (s : State) : State :=
  { s with sched := { s.sched with passed := modAt s.sched.passed sh fun l => q :: l } }

/-- Source bytes are taken from the function's balance (R144). -/
def spend (sh f n : Nat) (s : State) : State :=
  { s with fns := modAt s.fns f fun x =>
      { x with fetchCredit := x.fetchCredit.set sh (x.fetchCredit.getD sh 0 - (n : Int)) } }

/-- A queue stops fetching; `why` is 0 for a fetch fault, 1 for counter exhaustion (R107, R133, R134). -/
def stopQueue (q why : Nat) (s : State) : State :=
  if (queueOf s q).st = .active then modQueue q (fun x => { x with st := .disabling, stopDue := some why }) s else s

/-- One entry has been consumed from the ring. -/
def consume (q : Nat) (w : Work) (s : State) : State :=
  count 0x05 w.fn 1 (recharge { modQueue q (fun x => { x with sqHead := (x.sqHead + 1) % x.entries }) s with work := s.work ++ [w] })

/-- An entry that was read is judged at stage 1 and taken, refused with its status, or passed over (R142 to R146). -/
def judgeEntry (sh qix : Nat) (e : Bytes) (s : State) : State :=
  let q := queueOf s qix
  let w : Work := { qix := qix, fn := q.fn, ent := e, epoch := s.epoch, cto := s.link.cto }
  match stage1 s q e with
  | some (st, det) => consume qix (w.decided st det) s
  | none =>
    if notYet s e then passOver sh qix s
    else
      match creditFor s q.fn (ingressCharge e) with
      | none => count 0x08 q.fn 1 (passOver sh qix s)
      | some pool =>
        let w1 := { w with charge := ingressCharge e, pooled := pool, stCharge := stagingCharge e }
        if !stagingFits s q.fn e then count 0x08 q.fn 1 (passOver sh qix s)
        else if eOpc e = 0 then consume qix { w1 with stage := .arrived } s
        else
          match judgeHost s.gates sh q.fn false (eSrc e) (srcCount e) with
          | some f => gateFault f (consume qix (w1.decided (faultStatus f.kind) 0) s)
          | none =>
            hostRead q.fn (eSrc e) (srcCount e) true
              (count 0x09 q.fn ((srcCount e + 63) / 64) (spend sh q.fn (srcCount e) (consume qix w1 s)))

/-- The read of a submission entry failed: the queue stops fetching (R107). -/
def entryFails (q : Nat) (k : ReadError) (s : State) : State := aer (queueOf s q).fn (.entryRead k) (stopQueue q 0 s)

/-- FETCH (R107, R139, R142 to R146, R338). -/
def execFetch (shard : Nat) (result : ReadResult) (s : State) : Host.Outcome State Fault Refusal :=
  if fetchOpen s then
    match fetchPick s shard with
    | none => .next s
    | some p =>
      let s1 := standAt shard p s
      let addr := (queueOf s p.queue).sqBase.toNat + 32 * (queueOf s p.queue).sqHead
      match judgeHost s.gates shard p.fn false addr 32, result with
      | some fault, _ => .next (settle s (gateFault fault (stopQueue p.queue 0 s1)))
      | none, .aerError k => .next (settle s (entryFails p.queue k (hostRead p.fn addr 32 true s1)))
      | none, .data b => .next (settle s (judgeEntry shard p.queue (fit 32 b) (hostRead p.fn addr 32 true s1)))
  else .next s

/-- The source of a queue's oldest entry whose source is outstanding. -/
def awaits (q : Nat) (w : Work) : Bool := w.qix == q && w.stage == .fetched

/-- What becomes of an entry whose source read has ended, where its queue does not serve it any more: in a disabled function it is discarded, on a
queue that stops, or past the reserve point, it completes QUEUE_DISABLED (R133, R147, R148, R446). -/
def overtaken (s : State) (q : Nat) : Bool := (queueOf s q).st != .active || seqReserve s

/-- The first entry that `p` picks is taken out, and the credit follows. -/
def dropWork (p : Work → Bool) (s : State) : State := recharge { s with work := s.work.eraseP p }

/-- A source read ends: with the bytes, of which exactly the source byte count is read, or with an error (R107, R145). -/
def sourceEnds (q : Nat) (result : ReadResult) (s : State) : State :=
  let s1 := match result with
    | .data _ => s
    | .aerError k => aer (queueOf s q).fn (.sourceRead k) s
  if (queueOf s q).byFn then dropWork (awaits q) s1
  else if overtaken s q then modWork (awaits q) (Work.decided stQueueDisabled 0) s1
  else match result with
    | .data b =>
      let lines := ((s1.work.find? (awaits q)).map fun w => if staged w.ent then (srcCount w.ent + 63) / 64 else 0).getD 0
      count 0x41 0 lines (modWork (awaits q) (fun w => takeSource (fit (srcCount w.ent) b) w) s1)
    | .aerError _ => modWork (awaits q) (Work.decided stAccessFault 0) s1

/-- SOURCE_ARRIVED (R107, R145, R152). -/
def execSourceArrived (qix : Nat) (result : ReadResult) (s : State) : Host.Outcome State Fault Refusal :=
  if s.work.any (awaits qix) then .next (sleepIfDue (settle s (sourceEnds qix result s)))
  else .next s

/-- COMPLETION_TIMEOUT (R100, R107): the error of a read of an entry, or of source data. -/
def execCompletionTimeout (qix : Nat) (entry : Bool) (s : State) : Host.Outcome State Fault Refusal :=
  if entry then
    (if fetchOpen s && queueReady s (qix % 4) (qix, queueOf s qix) then .next (settle s (entryFails qix .timeout s))
     else .next s)
  else if s.work.any (awaits qix) then .next (sleepIfDue (settle s (sourceEnds qix (.aerError .timeout) s)))
  else .next s

/-- A NOP that has been fetched. -/
def nopWaits (q : Nat) (w : Work) : Bool := w.qix == q && w.stage == .arrived && eOpc w.ent == 0

/-- NOP (R136): it completes OK with SEQ 0, in ring order. -/
def execNop (qix : Nat) (s : State) : Host.Outcome State Fault Refusal :=
  if s.work.any (nopWaits qix) then
    .next (sleepIfDue (settle s (modWork (nopWaits qix) (Work.decided stOk 0) s)))
  else .next s

/-! Stopping and draining. -/

/-- Entries of a queue that were fetched but not scheduled complete with QUEUE_DISABLED; one whose source is outstanding does so when the read ends
(R133, R147). -/
def cancelUnscheduled (q : Nat) (s : State) : State :=
  recharge { s with work := s.work.map fun w =>
    if w.qix == q && w.seq == 0 && w.stage != .done && w.stage != .fetched then w.decided stQueueDisabled 0 else w }

/-- A completion slot is free that no entry inside will need (R139). -/
def slotFree (s : State) (qix : Nat) : Bool :=
  let q := queueOf s qix
  q.path != .pcie || outstanding s qix + q.unreleased < q.entries

/-- The queue-stop completion is written, QSTOP is set and the event recorded (R139, R414). -/
def writeStop (qix why : Nat) (s : State) : State :=
  let q := queueOf s qix
  let d := Deliver.put s.gates qix 0 0 stQueueDisabled 1 [] ⟨s.queues, s.post, s.link.usbOut, s.spi.compl, []⟩
  let s1 := { s.withPost d.post with
    queues := d.queues, link := { s.link with usbOut := d.usb }, spi := { s.spi with compl := d.spi } }
  let s2 := devEvent q.fn 4 (modQueue qix (fun x => { x with stopDue := none }) (d.faults.foldl (fun t f => gateFault f t) s1))
  event 0x0205 (qix + 2 ^ 18 * q.fn + 2 ^ 22 * why) s2

/-- A queue-stop completion that is due is written once a slot is free: after a fetch fault behind the completions of the entries consumed, on
exhaustion before those of the drain (R107, R133, R139). -/
def stopIfFree (qix : Nat) (s : State) : State :=
  match (queueOf s qix).stopDue with
  | some why => if (outstanding s qix = 0 ∨ why = 1) ∧ slotFree s qix then writeStop qix why s else s
  | none => s

/-- QUEUE_STOP (R133, R139). -/
def execQueueStop (qix : Nat) (s : State) : Host.Outcome State Fault Refusal := .next (settle s (stopIfFree qix s))

/-- The last value of an index's nonce counter, which is not assigned (R133). -/
def nonceEnd : Nat := 2 ^ 54 - 1

/-- The next nonce counter value of an index (R133). -/
def nonceOf (s : State) (q : Nat) : Nat := tgetD s.nonces q 0

/-- NONCE_EXHAUSTED (R133). -/
def execNonceExhausted (qix : Nat) (s : State) : Host.Outcome State Fault Refusal :=
  if (queueOf s qix).st == .active && nonceOf s qix == nonceEnd then
    .next (settle s (cancelUnscheduled qix (stopIfFree qix (stopQueue qix 1 s))))
  else .next s

/-- FN_DISABLE commands whose function has drained respond (R148). -/
def answerFnDisable (f : Nat) (s : State) : State :=
  if draining s f then s
  else answerAll (fun w => w.op == 0x0206 && w.obj == f) (fun _ => (stOk, 0, [])) s

/-- QUEUE_DRAINED (R134, R147, R148). -/
def execQueueDrained (qix : Nat) (s : State) : Host.Outcome State Fault Refusal :=
  let q := queueOf s qix
  if q.st == .disabling && q.stopDue.isNone && outstanding s qix = 0 then
    if q.byFn then .next (settle s (answerFnDisable q.fn (resetDone q.fn (freeQueue qix s))))
    else
      .next (settle s (answerAll (fun w => w.op == 0x0203 && w.obj == qix) (fun _ => (stOk, 0, []))
        (modQueue qix (fun x => { x with st := .disabled }) s)))
  else .next s

/-! Function configuration. -/

/-- A sum over all functions with one function's value replaced. -/
def sumWith (s : State) (f v : Nat) (g : Fn → Nat) : Nat :=
  ((List.range 16).map fun i => if i = f then v else g (fnOf s i)).sum

/-- The first bad field of FN_CONFIG, by ascending offset (R131). -/
def fnConfigBad (s : State) (r : Req) : Option Nat :=
  let f := fld r 0 1
  let st := fld r 16 4
  let head : List (Bool × Nat) :=
    [(15 < f, 16), (fld r 1 1 = 0, 17), (fld r 2 2 ≠ 0, 18),
      (262144 < fld r 4 4 ∨ 262144 < sumWith s f (fld r 4 4) (·.quota), 20),
      (fld r 8 4 % 4 ≠ 0 ∨ 4032 < sumWith s f (fld r 8 4) (·.inGuar), 24), (fld r 12 4 % 4 ≠ 0, 28),
      ((st ≠ 0 ∧ st < 16) ∨ 2048 < st ∨ 2048 < sumWith s f st (·.staging), 32)]
  let groups : List (Bool × Nat) := (List.range 16).map fun i => (fld r (20 + i) 1 == 0, 36 + i)
  firstBad (head ++ groups ++ [(fld r 36 12 != 0, 52)])

/-- The function holds a queue. -/
def holdsQueue (s : State) (f : Nat) : Bool := s.queues.any fun q => q.2.fn == f

/-- FN_CONFIG's own steps (R131). -/
def fnConfigRun (r : Req) (s : State) : Reply :=
  match fnConfigBad s r with
  | some off => .refuse s stMalformed off
  | none =>
    let f := fld r 0 1
    let x := fnOf s f
    if holdsQueue s f && (fld r 4 4 ≠ x.quota || fld r 8 4 ≠ x.inGuar || fld r 12 4 ≠ x.inCap || fld r 16 4 ≠ x.staging) then
      .refuse s stBusyOwned 0
    else
      .done { s with fns := modAt s.fns f fun x =>
        { x with
          weight := fld r 1 1, quota := fld r 4 4, inGuar := fld r 8 4, inCap := fld r 12 4, staging := fld r 16 4
          groupW := (List.range 16).map fun i => fld r (20 + i) 1 } } stOk 0 []

/-- FN_CONFIG (R131). -/
def execFnConfig (r : Req) (s : State) : Host.Outcome State Fault Refusal :=
  .next (command (.fnConfig r) 0x0201 r (some 48) (fnConfigRun r) s)

/-! Creating a queue. -/

/-- ENTRIES is a power of two from 16 to 4,096 (R132). -/
def entriesOk (n : Nat) : Bool := [16, 32, 64, 128, 256, 512, 1024, 2048, 4096].contains n

/-- The first field of QUEUE_CREATE outside its range, by ascending offset; a rule set that is not held is one (R132, R184). -/
def createBad (s : State) (r : Req) : Option Nat :=
  let ring := r.path == .pcie
  firstBad [((fld r 0 4 / 2 ^ 18 % 2 ^ 13 ≠ 0), 16), (!entriesOk (fld r 4 2), 20),
    (if ring then fld r 6 2 = 0 ∨ vectorsOf r.fn ≤ fld r 6 2 else fld r 6 2 ≠ 0, 22),
    (if ring then fld r 8 8 % 64 ≠ 0 else fld r 8 8 ≠ 0, 24), (if ring then fld r 16 8 % 64 ≠ 0 else fld r 16 8 ≠ 0, 32),
    (fld r 32 2 ≠ 0xFFFF && (tget s.nv.ruleSets (fld r 32 2)).isNone, 48), (15 < fld r 34 1, 50), (1 < fld r 35 1, 51),
    (fld r 36 12 ≠ 0, 52)]

/-- The function is enabled on a path; what disables a function on the host path does not reach SPI (R85). -/
def fnUsable (p : Path) (f : Nat) (s : State) : Bool :=
  (fnOf s f).enabled
    || (p == .spi && mayEnable s && (fnOf s f).causes.all fun c => c == .link || c == .flr || c == .busMaster || c == .d3hot)

/-- An index that can be created: FREE, and its nonce counter not exhausted (R133). -/
def indexFree (s : State) (q : Nat) : Bool := (tget s.queues q).isNone && nonceOf s q < nonceEnd

/-- The lowest index from `q` on that can be created. -/
def lowestFree (s : State) : Nat → Nat → Option Nat
  | 0, _ => none
  | fuel + 1, q => if indexFree s q then some q else lowestFree s fuel (q + 1)

/-- The kind of the current key that a handle names; one that the function may not use counts as an empty slot (R293). -/
def handleKind (s : State) (fn h : Nat) : Option Nat :=
  match nameOf s h with
  | .persistent i => (anyKey s fn i).map KeyRec.kind
  | .session i => (currentSess s fn i).map fun _ => 0x10
  | _ => none

/-- The refusal of a key handle of QUEUE_CREATE at an offset: another kind of key is out of range, no usable key is an empty slot
(R132, R293). -/
def handleRefusal (kind want off : Option Nat) (usable : Bool) : Option (Nat × Nat) :=
  match kind with
  | some k => if some k ≠ want then some (stMalformed, off.getD 0) else if usable then none else some (stKeySlotEmpty, 0)
  | none => some (stKeySlotEmpty, 0)

/-- A session record is bound to a queue: its sealed head names the queue, so it is sealed anew (R132, R298). -/
def bindSess (i q : Nat) (s : State) : State :=
  match tget s.keys.sess i, sessSecret s i with
  | some x, some k =>
    let y := sealSess s i { x with bound := some q } ((draw256 s).setWidth 96) k
    { drew s with keys := { s.keys with sess := tset s.keys.sess i y } }
  | _, _ => s

/-- QUEUE_CREATE's own steps (R132; the order of its refusals: notes/assumptions/30.md). -/
def queueCreateRun (r : Req) (s : State) : Reply :=
  match createBad s r with
  | some off => .refuse s stMalformed off
  | none =>
    if !fnUsable r.path r.fn s then .refuse s stFnDisabled 0
    else if sessionsRefused s then .refuse s stUnsupported 0
    else if (fnOf s r.fn).quota ≤ (s.queues.filter fun q => q.2.fn == r.fn).length then .refuse s stBusyOwned 0
    else if r.path == .spi && 64 ≤ (s.queues.filter fun q => q.2.path == .spi).length then .refuse s stBusyOwned 0
    else
      let want := fld r 0 4 % 2 ^ 18
      let pick := if bit (fld r 0 4) 31 then lowestFree s 262144 0 else some want
      match pick with
      | none => .refuse s stBusyOwned 0
      | some q =>
        if (tget s.queues q).isSome then .refuse s stBusyOwned 0
        else if nonceEnd ≤ nonceOf s q then .refuse s stUnsupported 0
        else
          let x : Queue :=
            { st := .active, fn := r.fn, path := r.path, entries := fld r 4 2, vector := fld r 6 2
              sqBase := BitVec.ofNat 64 (fld r 8 8), cqBase := BitVec.ofNat 64 (fld r 16 8)
              skey := BitVec.ofNat 32 (fld r 24 4), jkey := BitVec.ofNat 32 (fld r 28 4), ruleset := fld r 32 2
              group := fld r 34 1, hold := bit (fld r 35 1) 0 }
          match handleRefusal (handleKind s r.fn (fld r 28 4)) (some 0x14) (some 44) (queueJournal s x).isSome,
              handleRefusal (handleKind s r.fn (fld r 24 4)) (some 0x10) (some 40) (boundSess s x).isSome, boundSess s x with
          | some (st, det), _, _ => .refuse s st det
          | none, some (st, det), _ => .refuse s st det
          | none, none, none => .refuse s stKeySlotEmpty 0
          | none, none, some (i, rec) =>
            if rec.bound.isSome then .refuse s stBusyOwned 0
            else .done { bindSess i q s with queues := tset s.queues q x } stOk 0 (le 4 q ++ le 4 s.bootEpoch)

/-- QUEUE_CREATE (R132). -/
def execQueueCreate (r : Req) (s : State) : Host.Outcome State Fault Refusal :=
  .next (command (.queueCreate r) 0x0202 r (some 48) (queueCreateRun r) s)

/-! Disabling, deleting, querying. -/

/-- A QIX whose reserved bits are zero (R134). -/
def qixOf (r : Req) : Option Nat := if fld r 0 4 < 2 ^ 18 then some (fld r 0 4) else none

/-- QUEUE_DISABLE's own steps (R147). An index that the function does not hold: notes/assumptions/33.md. A queue that is DISABLING for another cause is
waited for, and one that is DISABLED answers at once (notes/assumptions/84.md). -/
def queueDisableRun (r : Req) (s : State) : Reply :=
  match qixOf r with
  | none => .refuse s stMalformed 16
  | some q =>
    let x := queueOf s q
    if x.st = .free ∨ x.fn ≠ r.fn then .refuse s stBusyOwned 0
    else
      match x.st with
      | .active => .wait (cancelUnscheduled q (modQueue q (fun x => { x with st := .disabling }) s)) q []
      | .disabling => .wait s q []
      | _ => .done s stOk 0 []

/-- QUEUE_DISABLE (R147). -/
def execQueueDisable (r : Req) (s : State) : Host.Outcome State Fault Refusal :=
  .next (command (.queueDisable r) 0x0203 r (some 4) (queueDisableRun r) s)

/-- QUEUE_DELETE's own steps (R134, R311). -/
def queueDeleteRun (r : Req) (s : State) : Reply :=
  match qixOf r with
  | none => .refuse s stMalformed 16
  | some q =>
    if (queueOf s q).st = .disabled ∧ (queueOf s q).fn = r.fn then .done (freeQueue q s) stOk 0 []
    else .refuse s stBusyOwned 0

/-- QUEUE_DELETE (R134). -/
def execQueueDelete (r : Req) (s : State) : Host.Outcome State Fault Refusal :=
  .next (command (.queueDelete r) 0x0204 r (some 4) (queueDeleteRun r) s)

/-- The code of a queue state (R134). -/
def qStateCode : QState → Nat
  | .free => 0 | .active => 1 | .disabling => 2 | .disabled => 3

/-- The QUEUE_QUERY body (R134). -/
def queueBody (s : State) (q : Nat) : Bytes :=
  let x := queueOf s q
  le 1 (qStateCode x.st) ++ le 1 x.group ++ le 2 x.entries ++ le 2 x.sqHead ++ le 2 x.cqTail ++ le 4 (outstanding s q)
    ++ zeros 4 ++ le 8 (nonceOf s q) ++ zeros 8

/-- QUEUE_QUERY's own steps (R134). -/
def queueQueryRun (r : Req) (s : State) : Reply :=
  match qixOf r with
  | none => .refuse s stMalformed 16
  | some q =>
    if (queueOf s q).st ≠ .free ∧ (queueOf s q).fn ≠ r.fn then .refuse s stBusyOwned 0 else .done s stOk 0 (queueBody s q)

/-- QUEUE_QUERY (R134). -/
def execQueueQuery (r : Req) (s : State) : Host.Outcome State Fault Refusal :=
  .next (command (.queueQuery r) 0x0205 r (some 4) (queueQueryRun r) s)

/-- The first bad field of FN_DISABLE and FN_ENABLE (R148). -/
def fnFieldBad (r : Req) : Option Nat := firstBad [(15 < fld r 0 1, 16), (fld r 1 3 ≠ 0, 17)]

/-- FN_DISABLE's own steps (R148). It holds for a VF that is not there yet, too. -/
def fnDisableRun (r : Req) (s : State) : Reply :=
  match fnFieldBad r with
  | some off => .refuse s stMalformed off
  | none =>
    let f := fld r 0 1
    if f = 0 then .refuse s stUnsupported 0
    else
      let x := fnOf s f
      let s1 := if x.present then disableFn .fnDisable f (dropRequests f s)
        else { s with fns := modAt s.fns f fun x => { x with causes := .fnDisable :: x.causes.filter (· ≠ .fnDisable) } }
      if draining s1 f then .wait s1 f [] else .done s1 stOk 0 []

/-- FN_DISABLE (R148). -/
def execFnDisable (r : Req) (s : State) : Host.Outcome State Fault Refusal :=
  .next (command (.fnDisable r) 0x0206 r (some 4) (fnDisableRun r) s)

/-- FN_ENABLE's own steps (R148). PF0, which no FN_DISABLE disables, answers UNSUPPORTED here too (notes/assumptions/84.md). -/
def fnEnableRun (r : Req) (s : State) : Reply :=
  match fnFieldBad r with
  | some off => .refuse s stMalformed off
  | none => if fld r 0 1 = 0 then .refuse s stUnsupported 0 else .done (endCause .fnDisable (fld r 0 1) s) stOk 0 []

/-- FN_ENABLE (R148). -/
def execFnEnable (r : Req) (s : State) : Host.Outcome State Fault Refusal :=
  .next (command (.fnEnable r) 0x0207 r (some 4) (fnEnableRun r) s)

end Sys2Proof.Machine
end

