-- ==== Sys2Proof/Machine/DrawBase.lean ====
section
/-! DEFINITION. The draw table, the generator and the samplers of Larkspur, and the values a draw gives as functions of its seed and
parameters (R223 to R226, R231, R232, R235 to R237, R240, R244, R282). -/

namespace Sys2Proof.Machine

/-! The draw table. -/

/-- The draw with a DRAW_ID (R225). -/
def drawOf (s : State) (id : Nat) : Option Draw := s.nv.draws.find? fun d => d.id.toNat == id

/-- A draw is changed. -/
def modDraw (id : Nat) (f : Draw → Draw) (s : State) : State :=
  { s with nv := { s.nv with draws := s.nv.draws.map fun d => if d.id.toNat = id then f d else d } }

/-- Parameter fields (R223). -/
def pSampler (p : Bytes) : Nat := num p 4 1
/-- PFLAGS.INSTANT. -/
def pInstant (p : Bytes) : Bool := bit (num p 5 1) 0
/-- NWEIGHTS. -/
def pWeights (p : Bytes) : Nat := num p 6 2
/-- N. -/
def pN (p : Bytes) : Nat := num p 8 4
/-- K: RESULT_COUNT (R224). -/
def pK (p : Bytes) : Nat := num p 12 4
/-- BASE. -/
def pBase (p : Bytes) : Nat := num p 16 4
/-- WEIGHTS. -/
def weights (p : Bytes) : List Nat := (List.range (pWeights p)).map fun i => num p (64 + 4 * i) 4

/-- PARAM_DIGEST (R223). -/
def paramDigest (d : Draw) : BitVec 384 := sha384 d.params

/-- The answer of DRAW_OPEN at an issue epoch: none passes (R179, R226). -/
def drawOpen (s : State) (id epoch : Nat) : Option Nat :=
  match drawOf s id with
  | none => some stDrawUnknown
  | some d =>
    match d.st with
    | .defining => some stDrawUnknown
    | .opened | .issuing => none
    | .closing =>
      if d.closeFrom = .opened ∨ d.closeFrom = .issuing then (if epoch < d.closeEpoch then none else some stDrawClosed)
      else if d.closeFrom = .defining ∧ epoch < d.closeEpoch then some stDrawUnknown
      else some stDrawClosed
    | _ => some stDrawClosed

/-! The generator: CTR_DRBG output as little-endian words (R235). -/

/-- What is left of the words drawn, the generator, and how many words were drawn and rejected. -/
structure Words where
  buf : List Nat
  gen : Drbg
  drawn : Nat := 0
  rejected : Nat := 0

/-- The generator of a seed and a personalisation string. -/
def wordsOf (seed pers : Bytes) : Words := { buf := [], gen := drbgInit seed pers }

/-- The next word. -/
def nextWord (w : Words) : Nat × Words :=
  match w.buf with
  | x :: rest => (x, { w with buf := rest, drawn := w.drawn + 1 })
  | [] =>
    let r := drbgGen w.gen
    let ws := (chunks 4 r.1).map leVal
    (ws.headD 0, { w with buf := ws.drop 1, gen := r.2, drawn := w.drawn + 1 })

/-- u(n) with at most `fuel` rejections (R236; notes/assumptions/34.md). -/
def uniformAux : Nat → Nat → Words → Nat × Words
  | 0, _, w => (0, w)
  | fuel + 1, n, w =>
    let r := nextWord w
    if r.1 < 2 ^ 32 - 2 ^ 32 % n then (r.1 % n, r.2)
    else uniformAux fuel n { r.2 with rejected := r.2.rejected + 1 }

/-- u(n) (R236). -/
def uniform (n : Nat) (w : Words) : Nat × Words := uniformAux 4096 n w

/-- K integers from `[0, n - 1]`. -/
def manyUniform : Nat → Nat → Words → List Nat × Words
  | 0, _, w => ([], w)
  | k + 1, n, w =>
    let r := uniform n w
    let rest := manyUniform k n r.2
    (r.1 :: rest.1, rest.2)

/-- Two places of a list change their contents. -/
def swap (a : List Nat) (i j : Nat) : List Nat := (a.set i (a.getD j 0)).set j (a.getD i 0)

/-- Partial Fisher-Yates, ascending: `k` values from place `i` on (R237). -/
def kOfN : Nat → Nat → Nat → List Nat → Words → List Nat × Words
  | 0, _, _, _, w => ([], w)
  | k + 1, i, n, a, w =>
    let r := uniform (n - i) w
    let b := swap a i (i + r.1)
    let rest := kOfN k (i + 1) n b r.2
    (b.getD i 0 :: rest.1, rest.2)

/-- Fisher-Yates, descending from place `i` to 1 (R237). -/
def shuffle : Nat → List Nat → Words → List Nat × Words
  | 0, a, w => (a, w)
  | i + 1, a, w => let r := uniform (i + 2) w; shuffle i (swap a (i + 1) r.1) r.2

/-- The smallest place whose running sum exceeds `x` (R237). -/
def weightedPick (x : Nat) : List Nat → Nat → Nat → Nat
  | [], _, t => t
  | w :: ws, sum, t => if x < sum + w then t else weightedPick x ws (sum + w) (t + 1)

/-- One pass of the sampler over a parameter block and a seed: the integers without BASE, and the words (R235, R237). -/
def samplerPass (params seed : Bytes) : List Nat × Words :=
  let w := wordsOf seed (h384 (sha384 params))
  match pSampler params with
  | 1 => manyUniform (pK params) (pN params) w
  | 2 => kOfN (pK params) 0 (pN params) (List.range (pN params)) w
  | 3 => shuffle (pN params - 1) (List.range (pN params)) w
  | _ =>
    let ws := weights params
    let r := manyUniform (pK params) ws.sum w
    (r.1.map fun x => weightedPick x ws 0 0, r.2)

/-- The result array of a parameter block and a seed (R235, R237). -/
@[irreducible] def drawResult (params seed : Bytes) : List (BitVec 32) :=
  (samplerPass params seed).1.map fun v => BitVec.ofNat 32 (pBase params + v)

/-- Words that one pass draws, and words that it rejects (R422). -/
@[irreducible] def drawWords (params seed : Bytes) : Nat × Nat :=
  ((samplerPass params seed).2.drawn, (samplerPass params seed).2.rejected)

/-- A result array as bytes (R237). -/
def resultBytes (r : List (BitVec 32)) : Bytes := (r.map fun v => le 4 v.toNat).flatten

/-! Seed record and commitment. -/

/-- The seed record sealed under the seed wrap key: IV and ciphertext, with the tag (R231, R291; notes/assumptions/35.md). -/
def sealSeed (wrap iv seed : Bytes) : Bytes × BitVec 128 :=
  let c := gcmSeal wrap iv [] seed
  (iv ++ c.1, c.2)

/-- The persistent index a DRAW key handle names, whatever its generation. -/
def keyIndex (h : BitVec 32) : Nat := h.toNat % 4096

/-- The handle's generation is still the index's, and the key is ACTIVE of the kind (R307). -/
def handleActive (s : State) (h : BitVec 32) (kind : Nat) : Bool :=
  nameOf s h.toNat == .persistent (keyIndex h)
    && (match activeKey s (keyIndex h) with | some k => k.kind == kind | none => false)

/-- SEED, from the draw's seed record (R231, R234). -/
def seedOf (s : State) (d : Draw) : Option Bytes :=
  match d.seed.resolve with
  | .ok _ (b, tag) =>
    if handleActive s d.sigkey 0x13 then
      (seedWrap s (keyIndex d.sigkey)).bind fun k => gcmOpen k (b.take 12) [] (b.drop 12) tag
    else none
  | _ => none

/-- The commitment block (R232). -/
def commitBlock (d : Draw) (seed : Bytes) : Bytes :=
  le 4 0x4D434C46 ++ le 4 d.id.toNat ++ unitIdBytes ++ h384 (paramDigest d) ++ seed

/-! Instant batches. -/

/-- The reservation mark of a counter value (R282). -/
def markOf (v : Nat) : Nat := v % 2 ^ 24

/-- The reservation mark of a batch (R244). -/
def batchMark (s : State) (d : Draw) : Nat :=
  match d.ctr with
  | some c => markOf (ctrOf s c).live
  | none => 0

/-- The reservation mark is raised by 4,096, or to K (R244). -/
def raiseReservation (d : Draw) (s : State) : State :=
  match d.ctr with
  | some c =>
    let v := (ctrOf s c).live
    setCtr c (v / 2 ^ 24 * 2 ^ 24 + min (markOf v + 4096) (pK d.params)) s
  | none => s

/-- An OUTCOME waits while its batch's result array is being computed or recomputed (R246). -/
def batchComputing (s : State) (id : Nat) : Bool :=
  match drawOf s id with
  | some d => pInstant d.params && (d.st == .issuing || d.st == .committed) && d.results.isNone && s.lark.drbgOn
  | none => false

/-- What OUTCOME reads of its batch at the moment of R153: a status with DETAIL, or none (R246). -/
def outcomeRefusal (s : State) (q : Queue) (epoch id cnt : Nat) : Option (Nat × Nat) :=
  match drawOf s id with
  | none => some (stDrawUnknown, 0)
  | some d =>
    if d.st = .defining ∨ !pInstant d.params ∨ d.jkey ≠ q.jkey then some (stDrawUnknown, 0)
    else if !(d.st = .issuing ∨ (d.st = .closing ∧ d.closeFrom = .issuing ∧ epoch < d.closeEpoch)) ∨ d.results.isNone then
      some (stDrawClosed, 0)
    else if pK d.params < d.nextIdx + cnt then some (stDrawClosed, 1)
    else none

end Sys2Proof.Machine
end

