-- ==== Sys2Proof/Machine/Units.lean ====
section
/-! DEFINITION. Dispatch units: their number and cost (R181, R191), eligibility and arbitration (R193 to R197), and the three values that
a first dispatch fixes with the checks made at that moment (R153, R154, R156, R246, R307). -/

namespace Sys2Proof.Machine

/-! Units. -/

/-- Units of a message (R191). -/
def unitsOf (e src : Bytes) : Nat :=
  if (eOpc e = 2 ∨ eOpc e = 3) ∧ 65536 < outCount e src then (outCount e src + 65535) / 65536 else 1

/-- Bytes before the data in the output: the seal header of a SEAL (R167, R168). -/
def outHead (e : Bytes) : Nat := if eOpc e = 2 then 32 else 0

/-- Data bytes of a SEAL or OPEN that lie before unit `u` (R169, R191): units are cut every 65,536 bytes of output, header included. -/
def unitFrom (e : Bytes) (u : Nat) : Nat := min (65536 * u - outHead e) (eLen e)

/-- Data bytes of a SEAL or OPEN up to the end of unit `u` (R191). -/
def unitTo (e src : Bytes) (u : Nat) : Nat := if u + 1 < unitsOf e src then unitFrom e (u + 1) else eLen e

/-- Where the piece of unit `u` begins in the output: the last one after all the data of the others, so that the tag is written last (R169,
R191; notes/assumptions/92.md). -/
def unitPos (e : Bytes) (u : Nat) : Nat := min (65536 * u) (outHead e + eLen e)

/-- Cost of one rule (R179). -/
def ruleCost (b : Bytes) (i : Nat) : Nat :=
  match num b (16 + 24 * i) 1 with
  | 4 | 5 => (num b (16 + 24 * i + 16) 8 + 31) / 32
  | 6 => 2
  | _ => 1

/-- Cost of a rule set (R181). -/
def setCost (b : Bytes) : Nat := ((List.range (num b 4 1)).map (ruleCost b)).sum

/-- The body of a rule set version: in force, or kept for operations issued earlier (R183). -/
def ruleBody (s : State) (rsid ver : Nat) : Option Bytes :=
  match tget s.nv.ruleSets rsid with
  | some r =>
    if r.ver = ver then some r.body
    else (s.oldRules.find? fun o => o.1 == rsid && o.2.ver == ver).map (·.2.body)
  | none => (s.oldRules.find? fun o => o.1 == rsid && o.2.ver == ver).map (·.2.body)

/-- Cost of an entry's next unit, in lane cycles (R24, R181, R191, R247; notes/assumptions/36.md). -/
def unitCost (s : State) (w : Work) : Nat :=
  let blocks := fun n => (n + 15) / 16
  match eOpc w.ent with
  | 1 =>
    let ver := match w.rs with
      | some v => some v
      | none => (tget s.nv.ruleSets (queueOf s w.qix).ruleset).map RuleSet.ver
    let extra := match ver.bind (ruleBody s (queueOf s w.qix).ruleset) with
      | some b => setCost b - 16
      | none => 0
    2 * blocks (eLen w.ent) + 24 + extra
  | 2 | 3 => blocks (unitTo w.ent w.src w.unit - unitFrom w.ent w.unit) + 24
  | 6 => 24 + blocks (76 + 8 * num w.src 3 1)
  | _ => blocks (eLen w.ent) + 24

/-! Eligibility. -/

/-- In the lanes or between its units. -/
def Work.active (w : Work) : Bool :=
  match w.stage with
  | .dispatched | .computed | .between | .takenBack => true
  | _ => false

/-- Hold buffers in use, of all functions or of one (R171). -/
def holdsUsed (s : State) (f : Option Nat) : Nat :=
  (s.work.filter fun w => w.held && (match f with | some g => w.fn == g | none => true)).length

/-- An OPEN that needs a hold buffer (R171). -/
def needsHold (s : State) (w : Work) : Bool := eOpc w.ent == 3 && (queueOf s w.qix).hold

/-- An earlier entry of the queue does not keep a later one from dispatch: it is dispatched, or never will be (R194). -/
def passed (w : Work) : Bool := w.active || w.stage == .done || (w.stage == .arrived && eOpc w.ent == 0)

/-- A first unit may be dispatched, as far as its queue and the tables go (R133, R171, R193, R194, R246, R446). -/
def eligibleFirst (s : State) (before : List Work) (w : Work) : Bool :=
  let mine := before.filter (·.qix == w.qix)
  w.stage == .arrived && eOpc w.ent != 0 && !seqReserve s && nonceOf s w.qix < nonceEnd
    && (if eFence w.ent then mine == [] else mine.all passed)
    && !(1 < unitsOf w.ent w.src && s.work.any fun v => v.qix == w.qix && v.active && 1 < unitsOf v.ent v.src)
    && !(needsHold s w && (4 ≤ holdsUsed s none || 2 ≤ holdsUsed s (some w.fn)))
    && !(eOpc w.ent == 6 && batchComputing s (num w.src 4 4))

/-- The entries whose next unit is eligible, as far as slots allow it: each with its cost. -/
def eligible (s : State) : List Work → List Work → List (Work × Nat)
  | _, [] => []
  | before, w :: ws =>
    let rest := eligible s (before ++ [w]) ws
    if !w.revoked && (w.stage == .between || eligibleFirst s before w) then (w, unitCost s w) :: rest else rest

/-! Slots. -/

/-- A slot that takes units: in service, not draining, its lanes' mask generators seeded (R186, R197, R204, R208). -/
def slotTakes (s : State) (p : Slot) : Bool :=
  p.inService && !p.laggard && !p.rotating && (s.lanes.getD p.l0 {}).seeded && (s.lanes.getD p.l1 {}).seeded

/-- The slot with the most free credit, if it covers the cost; ties go to the lowest index (R197). -/
def bestSlot (s : State) (cost : Nat) : Option Nat :=
  (s.slots.zipIdx.foldl
    (fun best p =>
      if slotTakes s p.1 && cost ≤ p.1.credit then
        match best with
        | some (c, _) => if c < p.1.credit then some (p.1.credit, p.2) else best
        | none => some (p.1.credit, p.2)
      else best) none).map (·.2)

/-! Arbitration (R195). -/

/-- Visits grant allowances until one covers its unit. The carry into a visit is at most one allowance; a unit that costs more than two of them
is given the carry it lacks (R195; notes/assumptions/37.md). Candidates are (member, cost). -/
def laneVisits : Nat → List (Nat × Nat) → (Nat → Nat) → (Nat → Nat) → Option (Nat × (Nat → Nat))
  | 0, _, _, _ => none
  | _, [], _, _ => none
  | fuel + 1, x :: xs, allow, cr =>
    let c := min (cr x.1) (max (allow x.1) (x.2 - allow x.1)) + allow x.1
    let cr1 := fun i => if i = x.1 then c else cr i
    if x.2 ≤ c then some (x.1, cr1) else laneVisits fuel (xs ++ [x]) allow cr1

/-- One level: the standing member while its credit covers its unit, else the next visit that does (R195). -/
def level (standing : Nat) (cands : List (Nat × Nat)) (allow cr : Nat → Nat) : Option (Nat × (Nat → Nat)) :=
  match cands.find? fun x => x.1 == standing && x.2 ≤ cr x.1 with
  | some x => some (x.1, cr)
  | none =>
    laneVisits (64 * cands.length)
      (cands.filter (fun x => standing < x.1) ++ cands.filter (fun x => x.1 ≤ standing)) allow cr

/-- The queues of a group with an eligible unit: (queue, cost) by rising index. -/
def groupCands (s : State) (el : List (Work × Nat)) (f g : Nat) : List (Nat × Nat) :=
  let mine := el.filter fun x => x.1.fn == f && (queueOf s x.1.qix).group == g
  let qs := (s.queues.map (·.1)).filter fun q => mine.any fun x => x.1.qix == q
  qs.filterMap fun q => (mine.find? fun x => x.1.qix == q).map fun x => (q, x.2)

/-- Level 3: the queue of a group, with the queues' balances (R195). -/
def pickInGroup (s : State) (el : List (Work × Nat)) (f g : Nat) : Option (Nat × (Nat → Nat)) :=
  level ((fnOf s f).rrQ.getD g 0) (groupCands s el f g) (fun _ => 4096) (fun q => (queueOf s q).drr)

/-- The cost of the unit that a group would dispatch. -/
def costOfQueue (el : List (Work × Nat)) (q : Nat) : Nat := ((el.find? fun x => x.1.qix == q).map (·.2)).getD 0

/-- The groups of a function with an eligible unit. -/
def fnCands (s : State) (el : List (Work × Nat)) (f : Nat) : List (Nat × Nat) :=
  (List.range 16).filterMap fun g => (pickInGroup s el f g).map fun p => (g, costOfQueue el p.1)

/-- Level 2: the group of a function, with the groups' balances (R195). -/
def pickGroup (s : State) (el : List (Work × Nat)) (f : Nat) : Option (Nat × (Nat → Nat)) :=
  let x := fnOf s f
  level x.rrGroup (fnCands s el f) (fun g => 256 * x.groupW.getD g 16) (fun g => x.groupCredit.getD g 0)

/-- What level 1 sees of a function: the cost of the unit it would dispatch. -/
def fnCost (s : State) (el : List (Work × Nat)) (f : Nat) : Option Nat :=
  (pickGroup s el f).bind fun p => (pickInGroup s el f p.1).map fun q => costOfQueue el q.1

/-- Level 1: the function, with the functions' balances (R195). -/
def pickLaneFn (s : State) (el : List (Work × Nat)) : Option (Nat × (Nat → Nat)) :=
  level s.sched.rrFn ((List.range 16).filterMap fun f => (fnCost s el f).map fun c => (f, c))
    (fun f => 256 * (fnOf s f).weight) (fun f => (fnOf s f).laneCredit)

/-- Functions, groups and queues left with nothing eligible lose their carried credit (R195). -/
def dropCarry (el : List (Work × Nat)) (s : State) : State :=
  let has := fun (p : Work → Bool) => el.any fun x => p x.1
  { s with
    fns := s.fns.mapIdx fun i x =>
      { x with
        laneCredit := if has (·.fn == i) then x.laneCredit else 0
        groupCredit := x.groupCredit.mapIdx fun g c => if has (fun w => w.fn == i && (queueOf s w.qix).group == g) then c else 0 }
    queues := s.queues.map fun e => if has (·.qix == e.1) then e else (e.1, { e.2 with drr := 0 }) }

/-- A choice of the three levels: the queue, and the state with the balances that follow, the unit's cost taken (R195). -/
structure Choice where
  queue : Nat
  state : State

/-- The unit that the arbitration picks (R195). -/
def arbitrate (s : State) (el : List (Work × Nat)) : Option Choice :=
  match pickLaneFn s el with
  | none => none
  | some (f, fc) =>
    match pickGroup s el f with
    | none => none
    | some (g, gc) =>
      match pickInGroup s el f g with
      | none => none
      | some (q, qc) =>
        let c := costOfQueue el q
        let less := fun (cr : Nat → Nat) (me i : Nat) => cr i - (if i = me then c else 0)
        some {
          queue := q
          state := { s with
            sched := { s.sched with rrFn := f }
            fns := s.fns.mapIdx fun i x =>
              let x1 := { x with laneCredit := less fc f i }
              if i = f then { x1 with rrGroup := g, rrQ := x.rrQ.set g q, groupCredit := (List.range 16).map (less gc g) } else x1
            queues := s.queues.map fun e =>
              if e.2.fn = f ∧ e.2.group = g then (e.1, { e.2 with drr := less qc q e.1 }) else e } }

/-! The moment of R153. -/

/-- The nonce value (R154). -/
def nonceValue (bootEpoch q ctr : Nat) : Nat := bootEpoch * 2 ^ 72 + q * 2 ^ 54 + ctr

/-- A nonce as it is stored (R154). -/
def nonceBytes (n : Nat) : Bytes := be 12 n

/-- The handles an entry's keys have: KIX or session, and journal key. -/
def handlesOf (s : State) (w : Work) : List Nat :=
  let q := queueOf s w.qix
  let own := match eOpc w.ent with
    | 1 => [q.skey.toNat]
    | 2 | 3 | 4 | 5 => [if eKix w.ent = 0xFFFF then q.skey.toNat else handleOf s (eKix w.ent)]
    | _ => []
  own ++ [q.jkey.toNat]

/-- The chain of the key that a handle names: indexes with their generations (R306, R307). -/
def chainOf (s : State) (h : Nat) : List (Nat × Nat) :=
  let up := fun p => [(p, genOf s p), (1, genUsed s 1)]
  match nameOf s h with
  | .persistent i => (i, genOf s i) :: (match keyRec s i with | .ok _ k => up k.parent | _ => [])
  | .session i => (match tget s.keys.sess i with | some x => up x.parent | none => [])
  | _ => []

/-- Every key in the chain of a handle is current (R307). -/
def chainOk (s : State) (h : Nat) : Bool :=
  match nameOf s h with
  | .persistent i => keyState s i == 1
  | .session i => (match tget s.keys.sess i with | some x => x.live && sessChainOk s x | none => false)
  | _ => false

/-- A key as parts of 256 bits. -/
def keyParts (b : Bytes) : List (BitVec 256) := (chunks 32 b).map fun x => BitVec.ofNat 256 (beVal x)

/-- What the hot slots hold of a key: the key itself, or the receipt key and the leaf key of a JOURNAL key (R306). -/
def hotParts (s : State) (h : Nat) : List (BitVec 256) :=
  match nameOf s h with
  | .persistent i =>
    match keyRec s i with
    | .ok _ k =>
      if k.kind = 0x14 then keyParts ((receiptKey s i).getD []) ++ keyParts ((leafKey s i).getD []) else keyParts ((secretOf s i).getD [])
    | _ => []
  | .session i => keyParts ((sessSecret s i).getD [])
  | _ => []

/-- A hot slot stays while a unit that names its key is dispatched and not released (R306). -/
def pinned (s : State) (e : HotSlot) : Bool :=
  s.work.any fun w => (w.stage == .dispatched || w.stage == .computed) && (handlesOf s w).contains e.handle.toNat

/-- The keys of a unit find hot slots: those that are missing fit into the slots that are not pinned (R306). -/
def hotRoom (s : State) (hs : List Nat) : Bool :=
  let missing := hs.filter fun h => !s.keys.hot.any fun e => e.handle.toNat == h
  missing == [] || ((missing.map fun h => (hotParts s h).length).sum
    + (s.keys.hot.filter fun e => pinned s e || hs.contains e.handle.toNat).length) ≤ 4096

/-- A key enters the register file of a lane, least recently used first out (R187; notes/assumptions/90.md). -/
def Lane.load (k : LaneKey) (l : Lane) : Lane :=
  { l with keys := (k :: l.keys.filter fun x => x.slot ≠ k.slot).take 8 }

/-- What a hot slot delivers to a lane (R187). -/
def HotSlot.laneKey (e : HotSlot) : LaneKey := { slot := e.no, gen := (e.chain.head?.map (·.2)).getD 0, half := e.part, key := e.key }

/-- The keys of a unit reach the hot slots and both lanes of its slot (R187, R306). -/
def loadKeys (hs : List Nat) (p : Slot) (s : State) : State :=
  hs.foldl (fun t h =>
    let t1 := touchHot (fun e => pinned s e || hs.contains e.handle.toNat) h (chainOf t h) (hotParts t h) t
    (t1.keys.hot.filter fun e => e.handle.toNat == h).foldl (fun u e =>
      { u with lanes := modAt (modAt u.lanes p.l0 (Lane.load e.laneKey)) p.l1 (Lane.load e.laneKey) }) t1) s

/-- The rule set version in force for an entry (R183). -/
def ruleVersion (s : State) (w : Work) : Option Nat :=
  if eOpc w.ent = 1 ∧ (queueOf s w.qix).ruleset ≠ 0xFFFF then (tget s.nv.ruleSets (queueOf s w.qix).ruleset).map (·.ver)
  else none

/-- The status that the checks at the moment of R153 decide: DST range, key chain, batch (R156, R246, R307), with the gate fault. -/
def dispatchCheck (s : State) (w : Work) : Nat × Nat × Option GateFault :=
  let q := queueOf s w.qix
  let fault := if q.path = .pcie then judgeHost s.gates w.qix w.fn true (eDst w.ent) (outCount w.ent w.src) else none
  match fault with
  | some f => (faultStatus f.kind, 0, some f)
  | none =>
    if !(handlesOf s w).all (chainOk s) then (stKeyOrphaned, 0, none)
    else if eOpc w.ent = 6 then
      match outcomeRefusal s q s.epoch (num w.src 4 4) (num w.src 3 1) with
      | some (st, det) => (st, det, none)
      | none => (0, 0, none)
    else (0, 0, none)

/-- The indexes of an OUTCOME are assigned; the mark is raised first where it must be (R244, R246). -/
def assignOutcomes (w : Work) (s : State) : State :=
  let id := num w.src 4 4
  let cnt := num w.src 3 1
  match drawOf s id with
  | some d =>
    let s1 := if batchMark s d < d.nextIdx + cnt then raiseReservation d s else s
    modDraw id (fun d => { d with nextIdx := d.nextIdx + cnt }) s1
  | none => s

/-- The draw table at this moment: each draw with what DRAW_OPEN gives for it, 0 where it is open (R179, R182). -/
def drawTable (s : State) : List (Nat × Nat) := s.nv.draws.map fun d => (d.id.toNat, (drawOpen s d.id.toNat s.epoch).getD 0)

/-- The three values are fixed, and the checks of the moment made, with what the entry's re-execution must find again (R153, R155, R182). -/
def fixValues (w : Work) (s : State) : Work × State :=
  let ctr := nonceOf s w.qix
  let chk := dispatchCheck s w
  let w1 := { w with
    seq := s.jrn.nextSeq
    nonce := nonceValue s.bootEpoch w.qix ctr
    epoch := s.epoch
    opsec := s.opsec
    rs := ruleVersion s w
    draws := if (ruleVersion s w).isSome then drawTable s else []
    firstIdx := ((drawOf s (num w.src 4 4)).map (·.nextIdx)).getD 0
    pre := chk.1
    preDetail := chk.2.1
    held := needsHold s w }
  let s1 := takeSeq { s with nonces := tset s.nonces w.qix (ctr + 1) }
  let s2 := if eOpc w.ent = 6 ∧ chk.1 = 0 then assignOutcomes w s1 else s1
  (w1, match chk.2.2 with | some f => gateFault f s2 | none => s2)

/-- A unit is given to a slot: tagged, charged, its keys loaded (R187, R189, R197). -/
def placeUnit (w : Work) (p cost : Nat) (s : State) : State :=
  let sl := s.slots.getD p {}
  let w1 := { w with stage := .dispatched, slot := p, claim := sl.claim, cost := cost, lag := 0 }
  let s1 := if w.pre = 0 then loadKeys (handlesOf s w) sl s else s
  { s1 with
    slots := modAt s1.slots p fun x => { x with credit := x.credit - cost }
    work := modFirst (fun v => v.qix == w.qix && v.ent == w.ent && v.seq == w.seq) (fun _ => w1) s1.work }

/-- The taken-back unit that is dispatched before any other: the one with the lowest SEQ (R196). -/
def firstTaken (ws : List Work) : Option Work :=
  (ws.filter fun w => w.stage == .takenBack && !w.revoked).foldl
    (fun best w => match best with | some b => if w.seq < b.seq then some w else best | none => some w) none

/-- Sealing goes on: no scan chain was selected, no T3 response is in force, and a digest unit is in service (R32, R367, R379). -/
def sealingOn (s : State) : Bool :=
  served s && !s.dbg.sealStop && !s.tamper.t3 && (s.dgu0.inService || s.dgu1.inService)

/-- A slot and hot slots are free for a unit (R194, R197, R306). -/
def roomFor (s : State) (x : Work × Nat) : Bool := (bestSlot s x.2).isSome && hotRoom s (handlesOf s x.1)

/-- A unit that follows others of its message starts from their saved state, which comes with the queue's context (R192, R193). -/
def resume (w : Work) (s : State) : Work × State :=
  if w.unit = 0 then (w, s)
  else
    let s1 := findContext w.qix w.fn s
    let w1 := (s1.work.find? fun v => v.seq == w.seq).getD w
    (if w1.unit ≠ 0 ∧ !(match w1.saved with | some x => !x.wrapped | none => false) then w1.restarted else w1, s1)

/-- A unit that was dispatched before is placed again (R192, R196, R201). -/
def placeAgain (w : Work) (s : State) : State :=
  let r := resume w s
  let cost := unitCost r.2 r.1
  match bestSlot r.2 cost with
  | some p => placeUnit r.1 p cost r.2
  | none => r.2

/-- The units that are eligible, each with its cost (R194). -/
def eligibleNow (s : State) : List (Work × Nat) := (eligible s [] s.work).filter (roomFor s)

/-- Dispatch of the unit that is due (R153, R195 to R197). -/
def dispatchDue (s : State) : State :=
  match firstTaken s.work with
  | some w => if roomFor s (w, unitCost s w) then placeAgain w s else s
  | none =>
    let el := eligibleNow s
    match arbitrate s el with
    | none => s
    | some c =>
      match el.find? fun x => x.1.qix == c.queue with
      | none => s
      | some (w, cost) =>
        if w.stage = .between then placeAgain w c.state
        else
          match bestSlot s cost with
          | none => s
          | some p =>
            let r := fixValues w c.state
            let mine := fun (v : Work) => v.qix == w.qix && v.seq == 0 && v.stage == .arrived && v.ent == w.ent
            placeUnit r.1 p cost { r.2 with work := modFirst mine (fun _ => r.1) r.2.work }

/-- Dispatch of the unit that is due; what has nothing eligible before or after it carries no credit (R195). -/
def dispatchOne (s : State) : State :=
  let t := dispatchDue (dropCarry (eligibleNow s) s)
  dropCarry (eligibleNow t) t

/-- DISPATCH (R153, R194 to R197). -/
def execDispatch (s : State) : Host.Outcome State Fault Refusal :=
  if sealingOn s then .next (settle s (dispatchOne s)) else .next s

end Sys2Proof.Machine
end

