-- ==== Sys2Proof/Machine/Seal.lean ====
section
/-! DEFINITION. What the lanes compute and what the output stage releases: terminal records, receipts, SEAL and OPEN, XTS, OUTCOME,
VERIFY_RECEIPT, rule sets, descriptors and leaves (R157 to R180, R190 to R193, R247, R269). -/

namespace Sys2Proof.Machine

/-! Keys of an operation. -/

/-- SFLAGS: TEST (R164). -/
def sflags (s : State) : Nat := b2n s.keys.testRoot

/-- KEY_ID and secret of the key that KIX names (R151, R293). -/
def opKey (s : State) (w : Work) : Option (Nat × Bytes) :=
  let q := queueOf s w.qix
  if eOpc w.ent = 1 ∨ eKix w.ent = 0xFFFF then
    match nameOf s q.skey.toNat with
    | .session i =>
      match tget s.keys.sess i, sessSecret s i with
      | some x, some k => some (x.keyId.toNat, k)
      | _, _ => none
    | _ => none
  else
    match keyRec s (eKix w.ent), secretOf s (eKix w.ent) with
    | .ok _ k, some b => some (k.keyId.toNat, b)
    | _, _ => none

/-- KEY_ID of the queue's journal key. -/
def jkeyId (s : State) (q : Queue) : Nat :=
  match keyRec s (keyIndex q.jkey) with
  | .ok _ k => k.keyId.toNat
  | _ => 0

/-- The receipt key of the queue's journal key (R165). -/
def receiptKeyOf (s : State) (q : Queue) : Option Bytes :=
  if handleActive s q.jkey 0x14 then receiptKey s (keyIndex q.jkey) else none

/-- The leaf key of the queue's journal key, while it is available (R175, R307). -/
def leafKeyOf (s : State) (q : Queue) : Option Bytes :=
  if handleActive s q.jkey 0x14 then leafKey s (keyIndex q.jkey) else none

/-! Rules (R178 to R180). -/

/-- The field of a rule, or none where it extends past the plaintext. -/
def ruleField (b pt : Bytes) (i : Nat) : Option Nat :=
  let r := 16 + 24 * i
  let w := num b (r + 1) 1
  let off := num b (r + 2) 2
  if pt.length < off + w then none
  else some (if bit (num b (r + 4) 1) 0 then beVal (slice pt off w) else num pt off w)

/-- List entries `n` to `n + len - 1` of a rule set (R177). -/
def listEntries (b : Bytes) (n len : Nat) : List Nat :=
  (List.range len).map fun k => num b (16 + 24 * num b 4 1 + 4 * (n + k)) 4

/-- What DRAW_OPEN answers for a draw from the table of the issue epoch: none passes (R180, R182). -/
def drawAnswer (table : List (Nat × Nat)) (id : Nat) : Option Nat :=
  match table.find? fun d => d.1 == id with
  | some d => if d.2 = 0 then none else some d.2
  | none => some stDrawUnknown

/-- What rule `i` answers, over the draw table of the issue epoch: none passes, otherwise the status and DETAIL of its failure (R179, R180). -/
def ruleFails (draws : List (Nat × Nat)) (b pt : Bytes) (termId i : Nat) : Option (Nat × Nat) :=
  let r := 16 + 24 * i
  let a := num b (r + 8) 8
  let c := num b (r + 16) 8
  let reject := some (stRuleReject, i)
  match ruleField b pt i with
  | none => reject
  | some f =>
    match num b r 1 with
    | 1 => if a ≤ f ∧ f ≤ c then none else reject
    | 2 => if f &&& a = c then none else reject
    | 3 => if f % a = 0 then none else reject
    | 4 => if (listEntries b a c).contains f then none else reject
    | 5 => if (listEntries b a c).contains f then reject else none
    | 6 => (drawAnswer draws f).map fun st => (st, 0)
    | 7 => if f = termId then none else reject
    | _ => if a ≤ pt.length ∧ pt.length ≤ c then none else reject

/-- The first failing rule decides (R180, R162). -/
def rulesVerdict (draws : List (Nat × Nat)) (b pt : Bytes) (termId : Nat) : Option (Nat × Nat) :=
  (List.range (num b 4 1)).findSome? (ruleFails draws b pt termId)

/-- The draw that the DRAW_OPEN rule of a set names, if the set has one and its field lies within the plaintext (R164, R180). -/
def drawNamed (b pt : Bytes) : Option Nat :=
  ((List.range (num b 4 1)).find? fun i => num b (16 + 24 * i) 1 == 6).bind (ruleField b pt)

/-! Seal blocks and receipts. -/

/-- The seal block (R164). -/
def sealBlock (s : State) (w : Work) (format ruleset ver draw : Nat) : Bytes :=
  le 2 format ++ le 2 (sflags s) ++ le 6 w.seq ++ le 2 ruleset ++ le 2 ver ++ zeros 2 ++ nonceBytes w.nonce
    ++ le 4 (jkeyId s (queueOf s w.qix)) ++ le 4 draw ++ le 5 w.opsec ++ zeros 3

/-- ACCEPT's receipt over a plaintext: its bytes and its tag (R165). -/
def receipt (s : State) (w : Work) (key pt : Bytes) (ver draw : Nat) : Bytes × BitVec 128 :=
  let aad := sealBlock s w 0x0101 (if ver = 0 then 0xFFFF else (queueOf s w.qix).ruleset) ver draw ++ w.src.take 32
  let c := gcmSeal key (nonceBytes w.nonce) aad pt
  (aad ++ c.1 ++ tagBytes c.2, c.2)

/-- A tag as it stands in bytes. -/
def tagAt (b : Bytes) (off : Nat) : BitVec 128 := BitVec.ofNat 128 (beVal (slice b off 16))

/-! What the lanes compute. Each answers the unit's result as a lane delivers it. -/

/-- The result of a unit: status, DETAIL, output and tag. -/
def finished (status detail : Nat) (out : Bytes) (rtag : BitVec 128) (w : Work) : UnitResult :=
  { seq := w.seq, unit := w.unit, status := status, detail := detail, out := out, pos := unitPos w.ent w.unit, rtag := rtag }

/-- ACCEPT, steps 1 to 4 (R158, R160). -/
def acceptUnit (s : State) (w : Work) : UnitResult :=
  match opKey s w, receiptKeyOf s (queueOf s w.qix) with
  | some (_, k), some rk =>
    let n := w.src.length
    match gcmOpen k (slice w.src 16 12) (w.src.take 32) (slice w.src 32 (n - 48)) (tagAt w.src (n - 16)) with
    | none => finished stAuthFail 0 [] 0 w
    | some pt =>
      let ver := w.rs.getD 0
      let body := (w.rs.bind (ruleBody s (queueOf s w.qix).ruleset)).getD []
      let tseq := some (num w.src 20 8)
      match rulesVerdict w.draws body pt (num w.src 8 8) with
      | some (st, det) => { finished st det [] 0 w with tseq := tseq }
      | none =>
        let draw := drawNamed body pt
        let r := receipt s w rk pt ver (draw.getD 0xFFFFFFFF)
        { finished stOk 0 r.1 r.2 w with tseq := tseq, sold := draw }
  | _, _ => finished stKeyOrphaned 0 [] 0 w

/-- The seal header (R166). -/
def sealHeader (s : State) (w : Work) (keyId : Nat) : Bytes :=
  le 2 0x0102 ++ le 2 (sflags s) ++ le 6 w.seq ++ zeros 2 ++ nonceBytes w.nonce ++ le 4 keyId ++ zeros 4

/-! Saved state (R192). -/

/-- KEYREF: the hot slot of the key that KIX names, and its generation, 16 bits each (R192; notes/assumptions/89.md). -/
def keyRef (s : State) (w : Work) : Bytes :=
  let h := (handlesOf s w).headD 0
  le 2 ((hotSlot s h).getD 0xFFFF) ++ le 2 (((chainOf s h).head?.map (·.2)).getD 0)

/-- The 96 bytes of the saved state after unit `w.unit`: `iv` is the IV of the GCM operation, `done` the data bytes processed (R192). -/
def savedBytes (s : State) (w : Work) (iv : Bytes) (g : GcmState) (done : Nat) : Bytes :=
  le 6 w.seq ++ le 2 (w.unit + 1) ++ nonceBytes w.nonce ++ keyRef s w ++ le 8 w.epoch ++ iv ++ be 4 g.ctr ++ tagBytes g.acc ++ le 8 done
    ++ le 4 (b2n w.held) ++ zeros 20

/-- Where the GCM operation of a message stands as a unit begins: at the start, or where the saved state says (R192, R193). -/
def gcmAt (key aad : Bytes) (w : Work) : GcmState :=
  match w.saved with
  | some x => if w.unit = 0 then gcmBegin key aad else ⟨beVal (slice x.bytes 44 4), BitVec.ofNat 128 (beVal (slice x.bytes 48 16))⟩
  | none => gcmBegin key aad

/-- One unit of a message of more than one unit: its data, the GCM state after it, and the saved state (R191, R192). -/
def gcmUnit (s : State) (dec : Bool) (key iv aad data : Bytes) (w : Work) : Bytes × GcmState × Bytes :=
  let from_ := unitFrom w.ent w.unit
  let upto := unitTo w.ent w.src w.unit
  let r := gcmPiece dec key iv (gcmAt key aad w) (slice data from_ (upto - from_))
  (r.1, r.2, savedBytes s w iv r.2 upto)

/-- The unit is its message's last (R191). -/
def lastUnit (w : Work) : Bool := unitsOf w.ent w.src ≤ w.unit + 1

/-- SEAL, one unit (R167, R169, R191): the header comes with the first and the tag with the last. -/
def sealUnit (s : State) (w : Work) : UnitResult :=
  match opKey s w with
  | none => finished stKeyOrphaned 0 [] 0 w
  | some (id, k) =>
    let h := sealHeader s w id
    let iv := nonceBytes w.nonce
    let aad := h ++ w.src.take (eAadLen w.ent)
    let pt := w.src.drop (eAadLen w.ent)
    if unitsOf w.ent w.src = 1 then
      let c := gcmSeal k iv aad pt
      finished stOk 0 (h ++ c.1 ++ tagBytes c.2) c.2 w
    else
      let r := gcmUnit s false k iv aad pt w
      let out := (if w.unit = 0 then h else []) ++ r.1
      if lastUnit w then
        let tag := gcmEnd k iv aad.length (eLen w.ent) r.2.1
        finished stOk 0 (out ++ tagBytes tag) tag w
      else { finished stOk 0 out 0 w with saved := r.2.2 }

/-- OPEN, one unit (R168, R170, R171). The verdict of the tag comes with the last unit. -/
def openUnit (s : State) (w : Work) : UnitResult :=
  let a := eAadLen w.ent
  let h := slice w.src a 32
  match opKey s w with
  | none => finished stKeyOrphaned 0 [] 0 w
  | some (id, k) =>
    if num h 24 4 ≠ id then finished stAuthFail 0 [] 0 w
    else
      let iv := slice h 12 12
      let aad := h ++ w.src.take a
      let ct := slice w.src (a + 32) (eLen w.ent)
      let tag := tagAt w.src (a + 32 + eLen w.ent)
      let last := fun (good : Bool) (pt : Bytes) =>
        if good then finished stOk 0 pt tag w
        else if needsHold s w then finished stAuthFailHeld 0 [] 0 w
        else finished stAuthFail 0 pt 0 w
      if unitsOf w.ent w.src = 1 then last (gcmOpen k iv aad ct tag).isSome (gcmCtr k iv ct)
      else
        let r := gcmUnit s true k iv aad ct w
        if lastUnit w then last (gcmEnd k iv aad.length (eLen w.ent) r.2.1 == tag) r.1
        else { finished stOk 0 r.1 0 w with saved := r.2.2 }

/-- XTS_ENC and XTS_DEC (R172). -/
def xtsUnit (dec : Bool) (s : State) (w : Work) : UnitResult :=
  match opKey s w with
  | none => finished stKeyOrphaned 0 [] 0 w
  | some (_, k) => finished stOk 0 (xts dec k (w.src.take 16) (w.src.drop 16)) 0 w

/-- INDEX and VALUE of consecutive outcomes (R247). -/
def outcomeEntries (d : Draw) (first cnt : Nat) : Bytes :=
  ((List.range cnt).map fun i =>
    le 4 (first + i) ++ le 4 (((d.results.getD []).getD (first + i) 0).toNat)).flatten

/-- OUTCOME (R247). -/
def outcomeUnit (s : State) (w : Work) : UnitResult :=
  match receiptKeyOf s (queueOf s w.qix), drawOf s (num w.src 4 4) with
  | some rk, some d =>
    let aad := sealBlock s w 0x0103 0xFFFF 0 (num w.src 4 4) ++ w.src ++ outcomeEntries d w.firstIdx (num w.src 3 1)
    let t := gmac rk (nonceBytes w.nonce) aad
    finished stOk 0 (aad ++ tagBytes t) t w
  | _, _ => finished stKeyOrphaned 0 [] 0 w

/-- The 64-byte result of VERIFY_RECEIPT (R174). -/
def verifyResult (r : Bytes) : Bytes :=
  le 2 0x0104 ++ zeros 2 ++ slice r 4 6 ++ slice r 10 2 ++ slice r 12 2 ++ zeros 2 ++ slice r 52 8 ++ slice r 64 8 ++ slice r 32 4
    ++ slice r 28 4 ++ slice r (r.length - 16) 16 ++ zeros 8

/-- VERIFY_RECEIPT, checks 3 and 4 (R173). -/
def verifyUnit (s : State) (w : Work) : UnitResult :=
  let q := queueOf s w.qix
  match receiptKeyOf s q with
  | none => finished stKeyOrphaned 0 [] 0 w
  | some rk =>
    let n := w.src.length
    let tag := tagAt w.src (n - 16)
    if num w.src 28 4 = jkeyId s q && num w.src 2 2 == sflags s
        && (gcmOpen rk (slice w.src 16 12) (w.src.take 76) (slice w.src 76 (n - 92)) tag).isSome then
      finished stOk 0 (verifyResult w.src) tag w
    else finished stAuthFail 0 [] 0 w

/-- The entry with a SEQ whose unit is in a slot, of one of the operations. -/
def inLanes (seq : Nat) (ops : List Nat) (w : Work) : Bool :=
  w.seq == seq && seq != 0 && w.stage == .dispatched && ops.contains (eOpc w.ent) && !w.revoked

/-- The output buffers of a lane, 128 KiB, have room for a result (R185). -/
def bufferFits (r : UnitResult) (l : Lane) : Bool := (l.out.map (·.out.length)).sum + r.out.length ≤ 131072

/-- A lane delivers a result into its output buffers (R185, R190). -/
def Lane.put (r : UnitResult) (l : Lane) : Lane := { l with out := l.out ++ [r] }

/-- The lanes of an entry's slot finish its unit: each computes the result and delivers it, once its output buffers have room. For one whose
status was decided at dispatch nothing is computed (R156, R185, R190, R307). -/
def lanesFinish (seq : Nat) (ops : List Nat) (f : State → Work → UnitResult) (s : State) : State :=
  match s.work.find? (inLanes seq ops) with
  | none => s
  | some w =>
    let r := if w.pre = 0 then f s w else finished w.pre w.preDetail [] 0 w
    let p := s.slots.getD w.slot {}
    if bufferFits r (s.lanes.getD p.l0 {}) && bufferFits r (s.lanes.getD p.l1 {}) then
      { s with
        lanes := modAt (modAt s.lanes p.l0 (Lane.put r)) p.l1 (Lane.put r)
        work := modFirst (inLanes seq ops) (fun w => { w with stage := .computed }) s.work }
    else s

/-- ACCEPT (R160). -/
def execAccept (seq : Nat) (s : State) : Host.Outcome State Fault Refusal := .next (lanesFinish seq [1] acceptUnit s)

/-- SEAL (R167). -/
def execSealMsg (seq : Nat) (s : State) : Host.Outcome State Fault Refusal := .next (lanesFinish seq [2] sealUnit s)

/-- OPEN (R168). -/
def execOpenMsg (seq : Nat) (s : State) : Host.Outcome State Fault Refusal := .next (lanesFinish seq [3] openUnit s)

/-- XTS_ENC (R172). -/
def execXtsEnc (seq : Nat) (s : State) : Host.Outcome State Fault Refusal := .next (lanesFinish seq [4] (xtsUnit false) s)

/-- XTS_DEC (R172). -/
def execXtsDec (seq : Nat) (s : State) : Host.Outcome State Fault Refusal := .next (lanesFinish seq [5] (xtsUnit true) s)

/-- OUTCOME (R246, R247). -/
def execOutcome (seq : Nat) (s : State) : Host.Outcome State Fault Refusal := .next (lanesFinish seq [6] outcomeUnit s)

/-- VERIFY_RECEIPT (R173). -/
def execVerifyReceipt (seq : Nat) (s : State) : Host.Outcome State Fault Refusal := .next (lanesFinish seq [7] verifyUnit s)

/-! Release. -/

/-- A status of the DST range or of the key chain, which outranks a revocation (R162). -/
def topStatus (st : Nat) : Bool := st == stAccessFault || st == stColourMismatch || st == stKeyOrphaned

/-- The record is a replay, or older, at this queue (R161). -/
def replayed (s : State) (w : Work) : Bool :=
  match w.tseq with
  | some n => eOpc w.ent == 1 && n ≤ (queueOf s w.qix).mark
  | none => false

/-- The status and DETAIL that the output stage fixes (R161, R162). -/
def releaseStatus (s : State) (w : Work) : Nat × Nat :=
  if topStatus w.pre then (w.pre, w.preDetail)
  else if w.revoked then (stKeyRevoked, 0)
  else if w.pre ≠ 0 then (w.pre, w.preDetail)
  else if w.status = stAuthFail ∨ w.status = stAuthFailHeld ∨ w.status = stKeyOrphaned then (w.status, 0)
  else if replayed s w then (stRuleReject, 0xFF)
  else (w.status, w.detail)

/-- Whether the output of a unit with this status is written (R163, R169, R170). -/
def writesOutput (w : Work) (status : Nat) : Bool := status == stOk || (eOpc w.ent == 3 && status == stAuthFail)

/-- The unit's output goes to host memory, or waits for its COMPLETE frame; that of a disabled function is discarded (R110, R140,
R148). -/
def writeOutput (w : Work) (r : UnitResult) (s : State) : State :=
  let q := queueOf s w.qix
  if q.byFn ∨ r.out = [] then s
  else
    match q.path with
    | .pcie => count 0x0A w.fn ((r.out.length + 63) / 64) (hostWrite w.fn (eDst w.ent + r.pos) r.out s)
    | _ => count 0x0A w.fn ((r.out.length + 63) / 64) s

/-- What a framed path collects of the output (R110). -/
def collect (s : State) (w : Work) (r : UnitResult) : Bytes := if (queueOf s w.qix).path = .pcie then [] else w.acc ++ r.out

/-- The leaf of an operation with its detail record (R175, R307). -/
def leafOf (s : State) (w : Work) (status detail : Nat) : Leaf :=
  let d := descriptor w status detail (if status = stOk then w.rtag else 0)
  { seq := w.seq
    desc := d
    leaf := match leafKeyOf s (queueOf s w.qix) with
      | some k => gmac k (nonceBytes w.nonce) d
      | none => 0 }

/-- The slot's charge returns (R197). -/
def returnCredit (w : Work) (s : State) : State :=
  { s with slots := modAt s.slots w.slot fun p => { p with credit := min 8192 (p.credit + w.cost) } }

/-- The PMON source of a released unit (R422). -/
def unitSource (op : Nat) : Nat :=
  match op with
  | 1 => 0x10 | 2 | 3 => 0x11 | 4 | 5 => 0x12 | 6 => 0x13 | _ => 0

/-- Released records that are not DURABLE (R269, R275). -/
def notDurable (j : Journal) : Nat := (j.staging.filter fun l => !durableSeq j l.seq).length

/-- The release would exceed the detail area, and a lower SEQ is outstanding (R269). -/
def releaseWaits (s : State) (w : Work) : Bool :=
  detailCap ≤ notDurable s.jrn && s.work.any fun v => v.inFlight && v.seq < w.seq

/-- Every other dispatched unit of another slot has seen one more release (R204). -/
def countLag (p : Nat) (s : State) : State :=
  { s with work := s.work.map fun v =>
      if (v.stage = .dispatched ∨ v.stage = .computed) ∧ v.slot ≠ p then { v with lag := v.lag + 1 } else v }

/-- The results of a message leave the output buffers. -/
def clearOut (seq : Nat) (s : State) : State :=
  { s with lanes := s.lanes.map fun l => { l with out := l.out.filter fun r => r.seq != seq } }

/-- What the monitors see of a released unit: its kind, the busy cycles of its slot's lanes, and the staged lines that the lanes read (R422). -/
def countUnit (w : Work) (s : State) : State :=
  count 0x40 0 (if staged w.ent then (unitTo w.ent w.src w.unit - unitFrom w.ent w.unit + 63) / 64 else 0)
    (count (0x16 + w.slot) 0 w.cost (count (unitSource (eOpc w.ent)) w.fn 1 s))

/-- A unit that is not its message's last, released with no failure: its saved state stands in the queue's context and the next quantum waits
(R192, R193). -/
def releaseMiddle (w : Work) (r : UnitResult) (s : State) : State :=
  let s1 := countLag w.slot (clearOut w.seq (returnCredit w (writeOutput w r s)))
  let w1 := { w with stage := .between, unit := w.unit + 1, acc := collect s w r, cost := 0, saved := some { bytes := r.saved } }
  countUnit w { s1 with work := modFirst (fun v => v.seq == w.seq) (fun _ => w1) s1.work }

/-- The replay mark takes the TSEQ of a record whose tag verified (R161). -/
def raiseReplay (w : Work) (s : State) : State :=
  match w.tseq with
  | some n => if eOpc w.ent = 1 then modQueue w.qix (fun q => { q with mark := max q.mark n }) s else s
  | none => s

/-- A record counts as sold into the draw whose DRAW_OPEN check it passed (R182, R228). -/
def countSold (w : Work) (status : Nat) (s : State) : State :=
  match w.soldDraw with
  | some id => if status = stOk then modDraw id (fun d => { d with sold := d.sold + 1 }) s else s
  | none => s

/-- The last release of an operation: output, leaf, status; the credit returns (R140, R142, R143, R148, R160, R175, R190). The entry
of a disabled function is gone, its leaf stays. -/
def releaseLast (w : Work) (r : UnitResult) (s : State) : State :=
  let st := releaseStatus s w
  let s1 := if writesOutput w st.1 then writeOutput w r s else s
  let s2 := countLag w.slot (clearOut w.seq (countSold w st.1
    (raiseReplay w (if w.stage = .dispatched ∨ w.stage = .computed then returnCredit w s1 else s1))))
  let hold := eSync w.ent || s.pwr.degraded
  let w1 := { w with
    stage := .done, status := st.1, detail := st.2, acc := if writesOutput w st.1 then collect s w r else w.acc
    src := [], saved := none, draws := [], charge := 0, stCharge := 0, cost := 0, held := false, journalled := true, waitDur := hold }
  let gone := (queueOf s w.qix).byFn
  let s3 := { s2 with
    jrn := s2.jrn.leafIn (leafOf s w st.1 st.2)
    work := if gone then s2.work.filter (fun v => v.seq ≠ w.seq) else modFirst (fun v => v.seq == w.seq) (fun _ => w1) s2.work }
  recharge (countUnit w (if hold then count 0x34 w.fn 1 s3 else s3))

/-- A unit that the output stage can take: computed, or ended by a fence (R190, R210, R312). -/
def releasable (seq : Nat) (w : Work) : Bool :=
  w.seq == seq && seq != 0 && !w.journalled && (w.stage == .computed || (w.revoked && w.active))

/-- Records of one queue are taken in ring order (R161). -/
def inRingOrder (s : State) (w : Work) : Bool :=
  eOpc w.ent != 1 || s.work.all fun v => !(v.qix == w.qix && v.seq < w.seq && v.inFlight && eOpc v.ent == 1)

/-- What both lanes of the entry's slot delivered for its unit, if every compared item is equal and neither lane is isolated (R189, R190). The
descriptor and the leaf follow from what is compared. A difference releases nothing: it is what FAILOVER reports. -/
def delivered (s : State) (w : Work) : Option UnitResult :=
  let p := s.slots.getD w.slot {}
  let of := fun (n : Nat) =>
    let l := s.lanes.getD n {}
    if l.isolated then none else l.out.find? fun r => r.seq == w.seq && r.unit == w.unit
  match of p.l0, of p.l1 with
  | some a, some b => if a = b then some a else none
  | _, _ => none

/-- The entry with the verdicts of its unit. -/
def withVerdict (r : UnitResult) (w : Work) : Work :=
  { w with status := r.status, detail := r.detail, rtag := r.rtag, tseq := r.tseq, soldDraw := r.sold }

/-- The unit's result is released (R190). -/
def releaseUnit (w : Work) (r : UnitResult) (s : State) : State :=
  let v := withVerdict r w
  if (releaseStatus s v).1 = stOk ∧ !lastUnit v then releaseMiddle v r s else releaseLast v r s

/-- A result under a stale claim number is discarded without being compared; the unit is dispatched again (R189, R190). -/
def discardStale (w : Work) (s : State) : State :=
  let s1 := clearOut w.seq s
  count 0x15 0 1 { s1 with work := modFirst (fun v => v.seq == w.seq) (fun v => { v with stage := .takenBack, cost := 0 }) s1.work }

/-- What the output stage does with a unit: discards it under a stale claim number, waits while its lanes have not delivered equal results, or
releases it (R190). A revoked unit ends with what it has. -/
def takeUnit (w : Work) (s : State) : State :=
  if w.revoked then releaseUnit w ((delivered s w).getD {}) s
  else if w.claim ≠ (s.slots.getD w.slot {}).claim then discardStale w s
  else
    match delivered s w with
    | some r => releaseUnit w r s
    | none => s

/-- The units of R33 that a release of the entry needs all serve: context cache, journal buffer, output stage and MRAM, the queue's shard, the
USB4 router on a host path, and for a staged message the memory engines and DRAM (R33; notes/assumptions/91.md). -/
def unitsServe (s : State) (w : Work) : Bool :=
  let up := fun (u : Nat) => !s.pwr.unitsFailed.any fun x => x.1 == u
  up 4 && up 5 && up 7 && up 8 && !s.pwr.unitsFailed.contains (6, w.qix % 4) && (!hostQueue s w.qix || up 9)
    && (!staged w.ent || (up 2 && up 3))

/-- The record waits at a full detail area; a unit that is not its message's last releases none (R269). -/
def detailWaits (s : State) (w : Work) : Bool := lastUnit w && releaseWaits s w

/-- UNIT_RELEASE (R33, R161, R190, R269). -/
def execUnitRelease (seq : Nat) (s : State) : Host.Outcome State Fault Refusal :=
  match s.work.find? (releasable seq) with
  | some w =>
    if sealingOn s && unitsServe s w && inRingOrder s w && !detailWaits s w then
      .next (sleepIfDue (settle s (takeUnit w s)))
    else .next s
  | none => .next s

end Sys2Proof.Machine
end

