-- ==== Sys2Proof/Machine/Sense.lean ====
section
/-! DEFINITION. The inputs of the tamper response logic: the policy, how an input is judged alone and with others, and the response of its
class (R372 to R379, R382, R385 to R387). Commands that find a fault themselves raise the input here. -/

namespace Sys2Proof.Machine

/-! Policy. -/

/-- The classes of R376. -/
inductive TClass where
  | t1 | t2 | t3 | t4
  deriving DecidableEq, Repr

/-- The default POLICY (R385). -/
def defaultPolicy : Nat := 0x20065A

/-- The policy word, as burnt (R356). -/
def policyWord (s : State) : Nat := (tgetD s.otp 107 0).toNat

/-- The check byte of seven POLICY bytes: the complement of their XOR (R356). -/
def policyCheck (v : Nat) : Nat := 255 - ((le 7 v).foldl (fun x b => x ^^^ b) 0).toNat

/-- A POLICY value whose fields all hold values allowed (R385). -/
def policyAllowed (v : Nat) : Bool :=
  let f := fun i => v / 2 ^ i % 4
  let two := fun i => f i == 2 || f i == 3
  two 0 && two 2 && f 4 != 0 && f 6 != 0 && two 8 && f 10 != 0 && v / 2 ^ 12 % 16 == 0 && v / 2 ^ 16 % 256 != 0
    && v / 2 ^ 24 == 0

/-- The policy is damaged (R386). -/
def policyDamaged (s : State) : Bool :=
  policyLock s && (policyWord s / 2 ^ 56 != policyCheck (policyWord s % 2 ^ 56) || !policyAllowed (policyWord s % 2 ^ 56))

/-- The class of a policy field at a bit position (R385, R386). -/
def policyClass (s : State) (pos : Nat) : TClass :=
  if policyDamaged s then .t4
  else match (if policyLock s then policyWord s else defaultPolicy) / 2 ^ pos % 4 with
    | 1 => .t1
    | 2 => .t3
    | _ => .t4

/-- DEBOUNCE in force, in periods of CLK_AO (R385, R386). The sender of a loop's attack reading has applied it. -/
def debounce (s : State) : Nat :=
  if policyDamaged s then 1 else (if policyLock s then policyWord s else defaultPolicy) / 2 ^ 16 % 256

/-! Inputs. -/

/-- The code of a sensor (R414). -/
def sensorCode : Sensor → Nat
  | .domainVoltage => 0x01 | .inputVoltage => 0x02 | .clock => 0x03 | .light => 0x04 | .temperature => 0x05 | .laser => 0x06
  | .cardigan => 0x07 | .loopA => 0x08 | .loopB => 0x09 | .vbat => 0x0A | .comparison => 0x10 | .noiseBank => 0x11
  | .recordSplit => 0x12 | .safeHigh => 0x13 | .dramLine => 0x14 | .gateFault => 0x15

/-- Kind and index of a unit (R377). -/
def unitKey : CUnit → Nat × Nat
  | .lane n => (0, n) | .slot n => (1, n) | .bank n => (2, n) | .pke n => (3, n) | .dgu n => (4, n)
  | .clockDomain n => (5, n) | .powerDomain n => (6, n)

/-- How an input is judged alone: its class and whether it counts, or none where it is no input (R374, R376). Clock domains are numbered
in the order of R17; 4, 9 and 10 are timed from outside. -/
def judgeInput (s : State) (t : TamperIn) : Option (TClass × Bool) :=
  let outside := match t.unit with
    | .clockDomain n => n == 4 || n == 9 || n == 10
    | _ => false
  match t.sensor, t.reading with
  | .domainVoltage, .fault => some (.t2, false)
  | .domainVoltage, .attack => some (.t2, true)
  | .inputVoltage, .fault => none
  | .inputVoltage, .attack => some (.t1, true)
  | .clock, .fault => if outside then none else some (.t2, false)
  | .clock, .attack => if outside then none else some (.t2, true)
  | .light, .attack | .cardigan, .attack => some (policyClass s 0, false)
  | .light, .fault | .cardigan, .fault | .loopA, .fault | .loopB, .fault | .laser, .fault => none
  | .temperature, .fault | .vbat, .fault => some (.t1, false)
  | .temperature, .attack => some (policyClass s 8, false)
  | .loopA, .attack => some (policyClass s 4, false)
  | .loopB, .attack => some (policyClass s 6, false)
  | .vbat, .attack => some (policyClass s 10, false)
  | .laser, .attack | .comparison, _ | .noiseBank, _ | .recordSplit, _ | .safeHigh, _ => some (.t2, true)
  | .dramLine, _ => some (.t1, true)
  | .gateFault, _ => some (.t1, !t.quiet)

/-- The unit that an input counts for: a lane error counts for the pair slot of the lane (R377). -/
def inputUnit (t : TamperIn) (s : State) : Nat × Nat :=
  match t.sensor, t.unit with
  | .comparison, .lane n =>
    match [0, 1, 2].find? fun p => (s.slots.getD p {}).l0 == n || (s.slots.getD p {}).l1 == n with
    | some p => (1, p)
    | none => (0, n)
  | _, u => unitKey u

/-- The units with a counting input in the window, this one included (R377). -/
def windowWith (t : TamperIn) (counts fresh : Bool) (s : State) : List (Nat × Nat) :=
  let w := if fresh then [] else s.tamper.window
  if counts && !w.contains (inputUnit t s) then w ++ [inputUnit t s] else w

/-- The input puts the second sensor array out of service (R375). -/
def lastArray (t : TamperIn) (s : State) : Bool :=
  t.sensor == .domainVoltage &&
    (match t.unit with
      | .powerDomain 1 => s.tamper.arrayOut.getD 1 false
      | .powerDomain 2 => s.tamper.arrayOut.getD 0 false
      | _ => false)

/-- The input completes a correlation (R375, R377). -/
def correlated (t : TamperIn) (counts : Bool) (w : List (Nat × Nat)) (s : State) : Bool :=
  (counts && decide (2 ≤ w.length)) || lastArray t s

/-- The class bits of a tamper event: 1 T1, 2 T2; of an input whose class comes from the policy alone they are open (R414). -/
def classBits (c : TClass) (s : State) : Nat :=
  match c with
  | .t1 => 1
  | .t2 => 2
  | _ => Config.freeNat s.free % 4

/-! Responses. -/

/-- The response of a class, with its record (R378, R379, R382, R414). -/
def respondTo (c : TClass) (sensor idx bits : Nat) (act : State → State) (s : State) : State :=
  match c with
  | .t1 => event 0x0D01 (tamperArg sensor idx 1) s
  | .t2 => act (event 0x0D01 (tamperArg sensor idx 2) s)
  | .t3 => respondT3 (event 0x0D03 (tamperArg sensor idx bits) s)
  | .t4 => respondT4 (event 0x0D04 (tamperArg sensor idx bits) s)

/-- The response logic works: the sensors have been read at step 4 of a start (R381, R387). -/
def sensorsOn (s : State) : Bool :=
  match s.pwr.phase with
  | .started | .ready | .service | .recovery | .scrap => true
  | _ => false

/-- An input is judged, correlated and answered (R376, R377, R387). `act` is what a T2 input does to its unit. In SCRAP every input is
T1 (R382). -/
def senseInput (act : State → State) (t : TamperIn) (fresh : Bool) (s : State) : State :=
  match judgeInput s t with
  | none => s
  | some (alone, counts) =>
    let w := windowWith t counts fresh s
    let s1 := drew { s with tamper := { s.tamper with window := w, windowAt := if counts then s.opsec else s.tamper.windowAt } }
    let code := sensorCode t.sensor
    let idx := (unitKey t.unit).2
    let bits := classBits alone s
    if s.lc = .scrap then respondTo .t1 code idx 1 id s1
    else if correlated t counts w s then
      respondTo (policyClass s 2) code idx bits id (event 0x0D02 (tamperArg code idx bits) s1)
    else respondTo alone code idx bits act s1

/-- Whether more than 1 ms has passed since the counting inputs before: surely after two operating seconds, and left open within them
(R377; notes/assumptions/73.md). -/
def windowFresh (s : State) : Bool := decide (s.tamper.windowAt + 1 < s.opsec) || Config.freeBit s.free

/-- An input that the Asaskac raises itself, from a fault it has found (R199, R218, R326, R328, R338). -/
def raiseInput (act : State → State) (sensor : Sensor) (unit : CUnit) (s : State) : State :=
  senseInput act { sensor := sensor, reading := .attack, unit := unit, quiet := false } (windowFresh s) s

end Sys2Proof.Machine
end

