-- ==== Sys2Proof/Machine/Lanes.lean ====
section
/-! DEFINITION. Lanes and pair slots: failover, LAGGARD, tests and rotation, mask seeds (R186 to R210). -/

namespace Sys2Proof.Machine

/-! Lanes. -/

/-- A lane. -/
def laneOf (s : State) (n : Nat) : Lane := s.lanes.getD n {}

/-- A lane is changed. -/
def modLane (n : Nat) (f : Lane → Lane) (s : State) : State := { s with lanes := modAt s.lanes n f }

/-- A pair slot. -/
def slotOf (s : State) (p : Nat) : Slot := s.slots.getD p {}

/-- A pair slot is changed. -/
def modSlot (p : Nat) (f : Slot → Slot) (s : State) : State := { s with slots := modAt s.slots p f }

/-- A lane's three domains (R48). -/
def laneDomains (n : Nat) (d : DomState) (s : State) : State :=
  setDomain (18 + 3 * n) d (setDomain (17 + 3 * n) d (setDomain (16 + 3 * n) d s))

/-- A lane powers down: its key register file is scrubbed, its output buffers are empty and its generator loses its seed (R48, R187). -/
def laneDown (st : LaneSt) (n : Nat) (s : State) : State :=
  laneDomains n .off (modLane n (fun l => { l with
    st := st, seeded := false, maskSeed := 0, keys := [], out := [], isolated := true, forSlot := none }) s)

/-- A lane enters FAILED (R198, R203). -/
def laneFails (n : Nat) (s : State) : State := aer 0 .correctedInternal (event 0x0C04 n (laneDown .failed n s))

/-- The lanes that are OFF, lowest first. -/
def offLanes (s : State) : List Nat := (List.range 8).filter fun n => (laneOf s n).st == .off

/-- A spare lane starts for a slot: its domains come up and its generator gets a seed of its own (R186, R200 steps 2 to 4). -/
def startLane (p n : Nat) (s : State) : State :=
  let x := takeSeed s
  laneDomains n .on (modLane n (fun l => { l with
    st := .starting, seeded := true, maskSeed := x.1, keys := [], out := [], isolated := true, forSlot := some p }) x.2)

/-- A lane's generator takes a fresh seed of 256 bits; where the conditioner gives none it stays as it is (R186). -/
def reseedLane (n : Nat) (s : State) : State :=
  if condUp s 1 then
    let x := takeSeed s
    modLane n (fun l => { l with seeded := true, maskSeed := x.1 }) x.2
  else s

/-- Lanes that came back from standby without a seed get one once the conditioner gives output (R186, R210; notes/assumptions/72.md). -/
def seedLanes (s : State) : State :=
  (List.range 8).foldl (fun t n =>
    if (laneOf t n).seeded || (laneOf t n).st == .off || (laneOf t n).st == .failed then t else reseedLane n t) s

/-- The two spare lanes that a rebuild uses, while seeds can be had (R186, R202). -/
def sparePair (s : State) : Option (Nat × Nat) :=
  if condUp s 1 then
    match offLanes s with
    | a :: b :: _ => some (a, b)
    | _ => none
  else none

/-- The lanes that are starting, or wait, for a slot. -/
def lanesFor (s : State) (p : Nat) : List Nat := (List.range 8).filter fun n => (laneOf s n).forSlot == some p

/-- A lane leaves SERVING or DRAINING for good: isolated, key register file scrubbed (R187, R189, R198). -/
def withdrawLane (st : LaneSt) (n : Nat) (s : State) : State :=
  modLane n (fun l => { l with st := st, isolated := true, keys := [], out := [] }) s

/-- A lane named in three LAGGARD markings within 3,600 operating seconds (R206). -/
def thriceSuspect (s : State) (n : Nat) : Bool :=
  3 ≤ ((laneOf s n).marks.filter fun t => s.opsec < t + 3600).length

/-! Withdrawal. -/

/-- A unit of a slot that was dispatched and not released (R200 step 2). -/
def ofSlot (p : Nat) (w : Work) : Bool := w.slot == p && (w.stage == .dispatched || w.stage == .computed)

/-- Results of a slot's units leave the output buffers of its lanes. -/
def dropResults (p : Nat) (s : State) : State :=
  let mine := fun (r : UnitResult) => s.work.any fun w => ofSlot p w && w.seq == r.seq
  { s with lanes := s.lanes.map fun l => { l with out := l.out.filter fun r => !mine r } }

/-- The units of a slot are taken back: their charge returns, and they keep SEQ, nonce and epoch (R196, R197, R201). Results that were delivered
under the claim number that ends are discarded, and counted (R190, R422). -/
def takeBack (p : Nat) (s : State) : State :=
  let s1 := dropResults p s
  count 0x15 0 (s.work.filter fun w => ofSlot p w && w.stage == .computed).length
    (count 0x14 0 (s.work.filter (ofSlot p)).length { s1 with
      work := s1.work.map fun w => if ofSlot p w then { w with stage := .takenBack, cost := 0 } else w })

/-- The CLAIM_ADVANCE record of a slot; new lanes that are not chosen yet are left open (R189, R414; notes/assumptions/39.md). -/
def claimEvent (p cause old : Nat) (new : Option (Nat × Nat)) (s : State) : State :=
  let sl := slotOf s p
  let lanes := match new with
    | some (a, b) => a + 16 * b
    | none => (Config.freeValue s.free).toNat % 256
  eventX 0x0C02 (p + 16 * cause) (le 2 old ++ le 2 sl.claim ++ le 1 (sl.l0 + 16 * sl.l1) ++ le 1 lanes) (drew s)

/-- A slot's pair is withdrawn: the claim number advances, the units are taken back, and the slot leaves service (R189, R200,
R205). `new` are the lanes that will fill it, if chosen. -/
def withdraw (p cause : Nat) (new : Option (Nat × Nat)) (s : State) : State :=
  let old := (slotOf s p).claim
  let s1 := modSlot p (fun x => { x with claim := (x.claim + 1) % 65536, inService := false, credit := 8192 }) s
  claimEvent p cause old new (takeBack p s1)

/-- The slot enters service under a pair, with full credit (R197, R200 step 6, R205). -/
def fillSlot (p a b : Nat) (s : State) : State :=
  let up := fun (l : Lane) => { l with st := .serving, isolated := false, forSlot := none }
  modLane b up (modLane a up (modSlot p (fun x => { x with
    inService := true, l0 := a, l1 := b, credit := 8192, laggard := false, suspects := [], rebuilding := false, rotating := false }) s))

/-- A rebuild of a withdrawn slot begins with the two lowest OFF lanes, or waits for the tests of the withdrawn lanes (R202). -/
def beginRebuild (p : Nat) (s : State) : State :=
  let s1 := modSlot p (fun x => { x with rebuilding := true }) s
  match sparePair s with
  | some (a, b) => startLane p b (startLane p a s1)
  | none => s1

/-! Tests. -/

/-- A lane is on its way between OFF and SERVING: a failover, a LAGGARD replacement or a test is in progress (R209, R210). -/
def lanesBusy (s : State) : Bool :=
  s.lanes.any (fun l => l.st == .starting || l.st == .draining || l.st == .suspect || l.st == .testing)
    || s.slots.any (fun p => p.rebuilding && (p.laggard || p.rotating))

/-- The slot drains for its test: no new units, its lanes DRAINING (R205, R208). -/
def drainSlot (p : Nat) (s : State) : State :=
  let sl := slotOf s p
  let d := fun (l : Lane) => { l with st := .draining }
  modLane sl.l1 d (modLane sl.l0 d (modSlot p (fun x => { x with rotating := true }) s))

/-- The test of a slot begins: with two lanes OFF they start first, and the slot drains when they have passed; otherwise it drains
at once (R208 cases 1 and 2). -/
def beginTest (p : Nat) (s : State) : State :=
  match sparePair s with
  | some (a, b) => startLane p b (startLane p a s)
  | none => drainSlot p s

/-- Testing the slot would leave fewer than two slots in service (R208 case 3). -/
def wouldStarve (s : State) : Bool := (sparePair s).isNone && slotsIn s < 3

/-- The TEST_DEFERRED record (R208, R414). -/
def testDeferred (target unit : Nat) (s : State) : State := event 0x0C05 (target + 256 * unit) s

/-- A periodic test is deferred: it is recorded, and the rotation stays at the slot (R208 case 3). -/
def rotationStays (p : Nat) (s : State) : State := testDeferred 1 p { s with sched := { s.sched with rotation := p } }

/-- The periodic test of the slot next in rotation (R208). A slot that is out of service until the next start passes its turn
(notes/assumptions/40.md). -/
def periodicTest (s : State) : State :=
  let p := s.sched.rotation
  let next := { s with sched := { s.sched with rotation := (p + 1) % 3 } }
  if !(slotOf s p).inService then next
  else if wouldStarve s then rotationStays p s
  else beginTest p next

/-- A periodic test that waited runs once the lanes are quiet (R210). -/
def runPending (s : State) : State :=
  if s.sched.testPending && !lanesBusy s then periodicTest { s with sched := { s.sched with testPending := false } } else s

/-- The 8-byte body of a finished test; DURATION is left open (R418; notes/assumptions/11.md). -/
def testBody (target unit : Nat) (fail : Bool) (s : State) : Bytes :=
  le 1 target ++ le 1 unit ++ le 1 (b2n fail) ++ [0] ++ le 4 ((Config.freeValue s.free).toNat % 2 ^ 32)

/-- DIAG_SELFTEST commands of a target respond (R418). The object they wait for is UNIT x 256 + TARGET. -/
def answerTests (target : Nat) (fail : Bool) (s : State) : State :=
  answerAll (fun w => w.op == 0x0903 && w.obj % 256 == target)
    (fun w => (stOk, 0, testBody target (w.obj / 256) fail s)) (drew s)

/-- The lane's test result reaches the requested test that waits for it (R209, R418). -/
def noteTest (n : Nat) (pass : Bool) (s : State) : State :=
  match s.sched.laneTest with
  | none => s
  | some t =>
    if t.lanes.contains n then
      let s1 := if pass then s else event 0x0109 (unitArg 0x10 n) s
      let t1 : LaneTest := { lanes := t.lanes.filter (· ≠ n), failed := t.failed || !pass }
      if t1.lanes = [] then
        answerTests 2 t1.failed (answerTests 1 t1.failed { s1 with sched := { s1.sched with laneTest := none } })
      else { s1 with sched := { s1.sched with laneTest := some t1 } }
    else s

/-- A withdrawn lane begins its full test, unless it has been named suspect three times (R198, R206). -/
def testLane (n : Nat) (s : State) : State :=
  if (laneOf s n).st = .suspect ∨ (laneOf s n).st = .draining then
    (if thriceSuspect s n then noteTest n false (laneFails n s) else withdrawLane .testing n s)
  else s

/-- Slots that wait for lanes are rebuilt from the lanes now OFF; one that finds fewer than two stays out until the next start, unless
only the conditioner is missing (R202, R210). -/
def rebuildSlots (s : State) : State :=
  [0, 1, 2].foldl (fun t p =>
    let sl := slotOf t p
    let old := [(laneOf t sl.l0).st, (laneOf t sl.l1).st]
    if sl.rebuilding && !sl.inService && lanesFor t p == [] && !old.any (fun x => x == .suspect || x == .testing) then
      (if (sparePair t).isSome then beginRebuild p t
       else if (offLanes t).length < 2 then modSlot p (fun x => { x with rebuilding := false }) t
       else t)
    else t) s

/-! Meanings. -/

/-- A pair fails over (R199 to R203). A rotation that has its incoming pair ready fills the slot at once. -/
def failover (slot : Nat) (cause : FailCause) (s : State) : State :=
  let sl := slotOf s slot
  let code := match cause with | .mismatch => 0 | .laneError => 1 | .laser => 2
  let waiting := (lanesFor s slot).filter fun n => (laneOf s n).st == .serving
  let s1 := event 0x0C01 (slot + 16 * code) s
  let s2 := withdrawLane .suspect sl.l1 (withdrawLane .suspect sl.l0 s1)
  match waiting with
  | a :: b :: _ =>
    let s3 := fillSlot slot a b (withdraw slot 0 (some (a, b)) s2)
    testLane sl.l1 (testLane sl.l0 s3)
  | _ =>
    if lanesFor s slot ≠ [] then modSlot slot (fun x => { x with rebuilding := true }) (withdraw slot 0 none s2)
    else
      let s3 := beginRebuild slot (withdraw slot 0 (sparePair s) s2)
      if (sparePair s).isSome then s3 else testLane sl.l1 (testLane sl.l0 s3)

/-- The input that a failover makes: its unit is the pair slot, or for a laser fault detector the one of the two lanes that held it, which
the rules leave to the environment (R199, R376, R377; notes/assumptions/73.md). -/
def failInput (slot : Nat) (cause : FailCause) (s : State) : Sensor × CUnit :=
  match cause with
  | .laser => (.laser, .lane (if Config.freeBit (s.free + 1) then (slotOf s slot).l0 else (slotOf s slot).l1))
  | _ => (.comparison, .slot slot)

/-- FAILOVER (R199 to R203). The difference is found in a slot that holds a pair, and reported to the tamper response logic. A response of
class T3 or higher stops sealing in its place. -/
def execFailover (slot : Nat) (cause : FailCause) (s : State) : Host.Outcome State Fault Refusal :=
  if served s && (slotOf s slot).inService then
    .next (settle s (raiseInput (failover slot cause) (failInput slot cause s).1 (failInput slot cause s).2 s))
  else .next s

/-- LANE_START_TEST_DONE (R198, R200, R202, R207, R208). A lane whose partner failed goes back to OFF, and the rebuild or the rotation
begins again with the lanes then OFF (notes/assumptions/41.md). -/
def execLaneStartTestDone (slot : Nat) (pass0 pass1 : Bool) (s : State) : Host.Outcome State Fault Refusal :=
  let sl := slotOf s slot
  match (lanesFor s slot).filter fun n => (laneOf s n).st == .starting with
  | a :: b :: _ =>
    if pass0 && pass1 then
      if sl.inService then
        -- a rotation: the new pair waits while the old one drains
        let up := fun (l : Lane) => { l with st := LaneSt.serving }
        .next (settle s (drainSlot slot (modLane b up (modLane a up s))))
      else .next (settle s (runPending (testLane sl.l1 (testLane sl.l0 (fillSlot slot a b s)))))
    else
      let one := fun (n : Nat) (ok : Bool) (t : State) => if ok then laneDown .off n t else laneFails n t
      let s1 := one b pass1 (one a pass0 s)
      if sl.inService then .next (settle s (if s1.sched.laneTest.isNone && wouldStarve s1 then rotationStays slot s1 else beginTest slot s1))
      else if (sparePair s1).isSome then .next (settle s (beginRebuild slot s1))
      else .next (settle s (rebuildSlots (testLane sl.l1 (testLane sl.l0 s1))))
  | _ => .next s

/-- LANE_FULL_TEST_DONE (R198, R202, R203, R207). -/
def execLaneFullTestDone (lane : Nat) (pass : Bool) (s : State) : Host.Outcome State Fault Refusal :=
  if (laneOf s lane).st == .testing then
    let s1 := if pass then laneDown .off lane s else laneFails lane s
    .next (settle s (runPending (rebuildSlots (noteTest lane pass s1))))
  else .next s

/-- The code of a measure (R414). -/
def measureCode : LagMeasure → Nat
  | .skew => 0 | .lag => 1 | .age => 2

/-- The oldest unreleased unit of a slot has seen more than 4,096 units released by the other slots (R204). -/
def lagging (s : State) (slot : Nat) : Bool := s.work.any fun w => ofSlot slot w && 4096 < w.lag

/-- LAGGARD (R204 to R206). The skew and the age are times, which the sender measures; the lag is counted. After a skew marking the later lane is the suspect, otherwise both are. -/
def execLaggard (slot : Nat) (measure : LagMeasure) (later : Nat) (s : State) : Host.Outcome State Fault Refusal :=
  let sl := slotOf s slot
  if served s && sl.inService && !sl.laggard && (measure != .lag || lagging s slot) then
    let sus := if measure == .skew && (later == sl.l0 || later == sl.l1) then [later] else [sl.l0, sl.l1]
    let mask := (sus.map fun n => 2 ^ n).sum
    let mark := fun (l : Lane) => { l with marks := l.marks ++ [s.opsec] }
    let s1 := sus.foldl (fun t n => modLane n mark t) s
    let d := fun (l : Lane) => { l with st := LaneSt.draining }
    let s2 := modLane sl.l1 d (modLane sl.l0 d (modSlot slot (fun x => { x with laggard := true, suspects := sus }) s1))
    .next (settle s (event 0x0C03 (slot + 4 * measureCode measure + 256 * mask) s2))
  else .next s

/-- LAGGARD_DRAIN_END (R205, R208): the end of the drain of a LAGGARD slot, and of a slot in rotation, which drains alike. -/
def execLaggardDrainEnd (slot : Nat) (s : State) : Host.Outcome State Fault Refusal :=
  let sl := slotOf s slot
  if served s && sl.inService && (sl.laggard || sl.rotating) then
    let cause := if sl.laggard then 1 else 2
    match (lanesFor s slot).filter fun n => (laneOf s n).st == .serving with
    | a :: b :: _ =>
      let s1 := withdraw slot cause (some (a, b)) s
      .next (settle s (fillSlot slot a b (testLane sl.l1 (testLane sl.l0 s1))))
    | _ =>
      let new := if sl.laggard then sparePair s else none
      let s1 := testLane sl.l1 (testLane sl.l0 (withdraw slot cause new s))
      if lanesFor s slot ≠ [] then .next (settle s (modSlot slot (fun x => { x with rebuilding := true }) s1))
      else if new.isSome then .next (settle s (beginRebuild slot s1))
      else .next (settle s (rebuildSlots (modSlot slot (fun x => { x with rebuilding := true }) s1)))
  else .next s

/-- The lane test period has passed since the last periodic test (R208, R419). -/
def laneTestDue (s : State) : Bool := served s && s.sched.laneAt + s.diag.lanePer ≤ s.opsec

/-- LANE_TEST_PERIODIC (R208, R210). In standby it waits until exit (R423). -/
def execLaneTestPeriodic (s : State) : Host.Outcome State Fault Refusal :=
  if laneTestDue s then
    let s1 := { s with sched := { s.sched with laneAt := s.opsec } }
    if lanesBusy s || s.pwr.standby || s.sched.laneTest.isSome then
      .next { s1 with sched := { s1.sched with testPending := true } }
    else .next (settle s (periodicTest s1))
  else .next s

/-- MASK_RESEED (R186): refused by the conditioner, the lane keeps its generator. -/
def execMaskReseed (lane : Nat) (s : State) : Host.Outcome State Fault Refusal :=
  if (laneOf s lane).seeded then .next (settle s (reseedLane lane s)) else .next s

end Sys2Proof.Machine
end

