-- ==== Sys2Proof/Machine/CmdBase.lean ====
section
/-! DEFINITION. What mailbox commands share: DMA to and from host memory (R130, R329) and responses to commands that wait. -/

namespace Sys2Proof.Machine

/-- The gate's verdict on mailbox DMA: the shard is the mailbox number [1:0], the colour the function (R329). -/
def dmaFault (r : Req) (write : Bool) (addr len : Nat) (s : State) : Option GateFault :=
  judgeHost s.gates r.mbx r.fn write addr len

/-- A DMA read of a command: the bytes, or none when it faults (R107, R130, R338). A function that is no bus master issues none (R105;
notes/assumptions/79.md). -/
def dmaRead (r : Req) (addr len : Nat) (s : State) : Option Bytes × State :=
  if !(fnOf s r.fn).bme then (none, s)
  else match dmaFault r false addr len s, r.dma with
  | some f, _ => (none, gateFault f s)
  | none, .data b => (some (fit len b), hostRead r.fn addr len false s)
  | none, .aerError k => (none, aer r.fn (.sourceRead k) (hostRead r.fn addr len false s))

/-- A DMA write of a command: whether it had its effect (R105, R329, R338). -/
def dmaWrite (r : Req) (addr : Nat) (b : Bytes) (s : State) : Bool × State :=
  if !(fnOf s r.fn).bme then (false, s)
  else match dmaFault r true addr b.length s with
  | some f => (false, gateFault f s)
  | none => (true, hostWrite r.fn addr b s)

/-- The status of a command whose DMA faulted: by the kind of gate fault, or ACCESS_FAULT for an error of the read (R130, R337,
R338). -/
def dmaStatus (r : Req) (write : Bool) (addr len : Nat) (s : State) : Nat :=
  if !(fnOf s r.fn).bme then stAccessFault
  else match dmaFault r write addr len s with
  | some f => faultStatus f.kind
  | none => stAccessFault

/-- A PKE core is in service (R32), or will be when its test ends: operations wait for one that a forced test holds, and are never refused (R418;
notes/assumptions/94.md). -/
def pkeUp (s : State) : Bool := s.pkes.any (·.inService)

/-- The core that takes the next operation: the lowest in service that is not under test, or else the lowest in service. -/
def pkeCore (s : State) : Option Nat :=
  match [0, 1].find? fun k => (s.pkes.getD k {}).inService && !(s.pkes.getD k {}).testing with
  | some k => some k
  | none => [0, 1].find? fun k => (s.pkes.getD k {}).inService

/-- A PKE core works: its domain comes on, until PKE_IDLE_OFF (R48). Its private-key registers hold nothing once the operation has
ended (R309). -/
def usedPke (s : State) : State :=
  match pkeCore s with
  | some k => setDomain (13 + k) .on { s with pkes := modAt s.pkes k fun p => { p with on := true } }
  | none => s

/-- A hybrid signature has been made (R291, R422). -/
def signed (s : State) : State := usedPke (count 0x70 0 1 (drew s))

/-- Commands of an opcode that wait for an object respond. -/
def answerFor (op obj status detail : Nat) (body : Bytes) (s : State) : State :=
  answerAll (fun w => w.op == op && w.obj == obj) (fun _ => (status, detail, body)) s

end Sys2Proof.Machine
end

