-- ==== Sys2Proof/Machine/Draws.lean ====
section
/-! DEFINITION. The draw commands: definition, the close-of-sales barrier, runs, certificates and instant batches (R227 to R249). -/

namespace Sys2Proof.Machine

/-! The draw table. -/

/-- The DRAW_ID that means no draw (R164). -/
def noDraw : Nat := 0xFFFFFFFF

/-- A draw is removed from the table. -/
def dropDraw (id : Nat) (s : State) : State :=
  { s with nv := { s.nv with draws := s.nv.draws.filter fun d => d.id.toNat ≠ id } }

/-- A draw enters the table, in the place of one with the same DRAW_ID. -/
def putDraw (d : Draw) (s : State) : State :=
  let t := dropDraw d.id.toNat s
  { t with nv := { t.nv with draws := t.nv.draws ++ [d] } }

/-- A draw in DEFINING is removed (R227, R234). -/
def dropDefining (id : Nat) (s : State) : State :=
  match drawOf s id with
  | some d => if d.st = .defining then dropDraw id s else s
  | none => s

/-- Parameter bytes that the table holds (R225). -/
def paramBytes (s : State) (but : Nat) : Nat :=
  ((s.nv.draws.filter fun d => d.id.toNat ≠ but).map fun d => d.params.length).sum

/-! DRAW_SCHEDULE. -/

/-- The sampler's limits, by ascending offset in the parameter block (R223, R224). -/
def paramBad (id : Nat) (p : Bytes) : Option Nat :=
  let n := pN p
  let k := pK p
  let big := 1048576
  let w := (weights p).sum
  let top := match pSampler p with
    | 4 => pBase p + pWeights p - 1
    | _ => pBase p + n - 1
  let nBad := match pSampler p with
    | 1 => n == 0
    | 2 => decide (n < k) || decide (big < n)
    | 3 => decide (n < 2) || decide (big < n)
    | _ => n != 0
  let kBad := match pSampler p with
    | 2 => k == 0
    | 3 => k != n
    | _ => k == 0 || decide (big < k)
  firstBad [(num p 0 4 != id, 0), (pSampler p == 0 || decide (4 < pSampler p), 4), (decide (1 < num p 5 1), 5), (nBad, 8), (kBad, 12),
    (decide (0xFFFFFFFF < top), 16), (num p 20 4 != 0, 20), (pSampler p == 4 && (w == 0 || decide (0xFFFFFFFF < w)), 64)]

/-- NWEIGHTS is outside its range (R223, R224). -/
def weightsBad (p : Bytes) : Bool :=
  if pSampler p = 4 then pWeights p == 0 || decide (4096 < pWeights p) else pWeights p != 0

/-- The first failure of a complete parameter block with its keys: DETAIL (R224, R227). -/
def finalBad (s : State) (d : Draw) : Option Nat :=
  let p := d.params
  let need := 64 + 4 * pWeights p
  if weightsBad p then some 6
  else if p.length ≠ need then some (min p.length need)
  else match paramBad d.id.toNat p with
    | some off => some off
    | none =>
      let key := fun (h : BitVec 32) (kind : Nat) =>
        match nameOf s h.toNat with
        | .persistent i => (currentKey s 0 i [kind]).isSome
        | _ => false
      if !key d.sigkey 0x13 then some 40
      else if (if pInstant p then !key d.jkey 0x14 else d.jkey != 0) then some 44
      else none

/-- The definition ends with a failure: the draw is removed (R227; notes/assumptions/42.md). -/
def scheduleFails (s : State) (id status detail : Nat) : Reply := .refuse (dropDefining id s) status detail

/-- The final chunk: the block is judged, the SCHEDULE entry written, the draw opened or ready (R227). -/
def scheduleFinal (d : Draw) (s : State) : Reply :=
  let id := d.id.toNat
  match finalBad s d with
  | some off => scheduleFails s id stMalformed off
  | none =>
    match entryRefusal false s with
    | some (st, det) => scheduleFails s id st det
    | none =>
      let seq := entrySeq s
      let d1 := { d with st := if pInstant d.params then DrawSt.ready else .opened, lastSeq := seq }
      let s1 := putDraw d1 s
      .done (journalEntry 0x10 false (le 4 id ++ le 1 (num d.params 5 1) ++ zeros 3 ++ h384 (paramDigest d)) s1) stOk 0
        (h384 (paramDigest d) ++ le 6 seq ++ zeros 2)

/-- The form of a DRAW_SCHEDULE request (R227). -/
def scheduleBad (r : Req) : Option Nat :=
  let dma := bit (fld r 4 4) 0
  let c := fld r 12 4
  firstBad [(fld r 0 4 == noDraw, 16), (decide (4 ≤ fld r 4 4), 20), (c == 0 || decide ((if dma then 16448 else 4048) < c), 28),
    (!dma && fld r 16 8 != 0, 32)]

/-- The draw that a chunk belongs to: one begun anew at OFFSET 0, or the one in DEFINING; otherwise the refusal, and whether the draw in
DEFINING is removed by it (R227). -/
def scheduleDraw (s : State) (r : Req) : Except (Bool × Nat × Nat) Draw :=
  let id := fld r 0 4
  let off := fld r 8 4
  match drawOf s id with
  | none =>
    if off ≠ 0 then .error (false, stDrawUnknown, 0)
    else if 512 ≤ s.nv.draws.length then .error (false, stBusyOwned, 0)
    else .ok { id := BitVec.ofNat 32 id, sigkey := BitVec.ofNat 32 (fld r 24 4), jkey := BitVec.ofNat 32 (fld r 28 4) }
  | some d =>
    if d.st ≠ .defining then .error (false, stBusyOwned, 0)
    else if off = 0 then
      .ok { id := BitVec.ofNat 32 id, sigkey := BitVec.ofNat 32 (fld r 24 4), jkey := BitVec.ofNat 32 (fld r 28 4) }
    else match firstBad [(off ≠ d.params.length, 24), (fld r 24 4 ≠ d.sigkey.toNat, 40), (fld r 28 4 ≠ d.jkey.toNat, 44)] with
      | some b => .error (true, stMalformed, b)
      | none => .ok d

/-- DRAW_SCHEDULE's own steps (R227). -/
def drawScheduleRun (r : Req) (s : State) : Reply :=
  let id := fld r 0 4
  let dma := bit (fld r 4 4) 0
  let c := fld r 12 4
  if r.body.length < 32 then scheduleFails s id stMalformed (lenDetail r 32)
  else match scheduleBad r with
    | some off => scheduleFails s id stMalformed off
    | none =>
      let need := if dma then 32 else 32 + c
      if dma && r.path != .pcie then scheduleFails s id stUnsupported 0
      else if r.body.length ≠ need then scheduleFails s id stMalformed (lenDetail r need)
      else match scheduleDraw s r with
        | .error (gone, st, det) => if gone then scheduleFails s id st det else .refuse s st det
        | .ok d =>
          if 1048576 < paramBytes s id + d.params.length + c then scheduleFails s id stBusyOwned 0
          else
            let got := if dma then dmaRead r (fld r 16 8) c s else (some (r.body.drop 32), s)
            match got.1 with
            | none => scheduleFails got.2 id (dmaStatus r false (fld r 16 8) c s) 0
            | some b =>
              let d1 := { d with params := d.params ++ b, opsec := s.opsec }
              if bit (fld r 4 4) 1 then scheduleFinal d1 got.2 else .done (putDraw d1 got.2) stOk 0 []

/-- DRAW_SCHEDULE (R227). -/
def execDrawSchedule (r : Req) (s : State) : Host.Outcome State Fault Refusal :=
  .next (command (.drawSchedule r) 0x0401 r none (drawScheduleRun r) s)

/-- DRAW_DEFINE_TIMEOUT (R226). -/
def execDrawDefineTimeout (drawId : BitVec 32) (s : State) : Host.Outcome State Fault Refusal :=
  match drawOf s drawId.toNat with
  | some d =>
    if d.st = .defining ∧ d.opsec + 60 ≤ s.opsec then .next (settle s (dropDraw drawId.toNat s)) else .next s
  | none => .next s

/-! DRAW_CLOSE. -/

/-- A unit issued under an earlier epoch that is not released (R228 step 2, R210; notes/assumptions/43.md). -/
def earlierUnit (epoch : Nat) (w : Work) : Bool :=
  w.inFlight && w.epoch < epoch && (w.stage == .dispatched || w.stage == .computed || w.stage == .takenBack)

/-- Every unit issued under an earlier epoch has been released or has ended (R228). -/
def drained (s : State) (epoch : Nat) : Bool := !s.work.any (earlierUnit epoch)

/-- The body of a CLOSE or CANCEL entry (R257). -/
def closeBody (d : Draw) : Bytes := le 4 d.id.toNat ++ zeros 4 ++ le 8 d.closeEpoch ++ le 8 d.sold

/-- The response of DRAW_CLOSE (R228). -/
def closeReply (seq epoch : Nat) : Bytes := le 6 seq ++ zeros 2 ++ le 8 epoch

/-- Steps 3 and 4 of a close: the entry, the new state (R228). -/
def finishClose (d : Draw) (s : State) : State :=
  let seq := entrySeq s
  let s1 := modDraw d.id.toNat (fun d => { d with
      st := if d.closing then DrawSt.cancelled else .closed
      closeSeq := if d.closing then d.closeSeq else seq
      lastSeq := seq, closing := false }) s
  journalEntry (if d.closing then 0x12 else 0x11) false (closeBody d) s1

/-- Step 1 of a close: the epoch advances, the draw enters CLOSING (R228). -/
def beginClose (d : Draw) (cancel : Bool) (s : State) : Draw × State :=
  let s1 := bumpEpoch s
  let d1 := { d with st := .closing, closing := cancel, closeFrom := d.st, closeEpoch := s1.epoch }
  (d1, modDraw d.id.toNat (fun _ => d1) s1)

/-- The close may begin in this state (R228). -/
def mayClose (d : Draw) (cancel : Bool) : Bool :=
  match d.st with
  | .opened => true
  | .issuing => !cancel
  | .defining | .ready => cancel
  | _ => false

/-- DRAW_CLOSE's own steps (R228, R229). -/
def drawCloseRun (r : Req) (s : State) : Reply :=
  let id := fld r 0 4
  let cancel := bit (fld r 4 4) 0
  if 1 < fld r 4 4 then .refuse s stMalformed 20
  else match drawOf s id with
    | none => .refuse s stDrawUnknown 0
    | some d =>
      if d.st = .closing then .wait s id []
      else
        let direct := cancel && d.st == .closed && !pInstant d.params
        if !mayClose d cancel && !direct then .refuse s stDrawClosed 0
        else match entryRefusal true s with
          | some (st, det) => .refuse s st det
          | none =>
            if direct then
              .done (finishClose { d with closing := true } (modDraw id (fun d => { d with closing := true }) s)) stOk 0
                (closeReply (entrySeq s) d.closeEpoch)
            else
              let b := beginClose d cancel s
              if d.st = .defining ∨ drained b.2 b.1.closeEpoch then
                .done (finishClose b.1 b.2) stOk 0 (closeReply (entrySeq b.2) b.1.closeEpoch)
              else .wait b.2 id []

/-- DRAW_CLOSE (R228). -/
def execDrawClose (r : Req) (s : State) : Host.Outcome State Fault Refusal :=
  .next (command (.drawClose r) 0x0402 r (some 8) (drawCloseRun r) s)

/-- DRAW_CLOSE_DRAINED (R228, R229): the entry is written whether or not a command waits. -/
def execDrawCloseDrained (drawId : BitVec 32) (s : State) : Host.Outcome State Fault Refusal :=
  match drawOf s drawId.toNat with
  | some d =>
    if d.st = .closing ∧ drained s d.closeEpoch ∧ !seqExhausted s then
      .next (settle s (answerFor 0x0402 drawId.toNat stOk 0 (closeReply (entrySeq s) d.closeEpoch) (finishClose d s)))
    else .next s
  | none => .next s

/-! Runs. -/

/-- A counter of 16 to 31 that no batch is using, written least (R282). -/
def freeBatchCtr (s : State) : Option Nat :=
  ((List.range 16).map (· + 16)).foldl (fun best c =>
    if s.nv.draws.any fun d => d.ctr == some c then best
    else match best with
      | none => some c
      | some b => if (ctrOf s c).writes < (ctrOf s b).writes then some c else best) none

/-- Steps 1 to 3 of R231: seed, seed record, COMMIT entry. -/
def commitDraw (d : Draw) (s : State) : State :=
  let id := d.id.toNat
  let f := formSeed s
  let e := takeBlock f.2
  let iv := e.1.take 12
  let s1 := e.2
  let srec := sealSeed ((seedWrap s (keyIndex d.sigkey)).getD []) iv f.1
  let c := sha384 (commitBlock d f.1)
  let seq := entrySeq s1
  let s2 := journalEntry 0x13 false (le 4 id ++ zeros 4 ++ h384 c ++ h384 (paramDigest d)) s1
  let s3 := setCtr 5 ((ctrOf s2 5).live + 1) s2
  let ctr := if pInstant d.params then freeBatchCtr s else none
  let s4 := match ctr with
    | some n => setCtr n ((ctrOf s3 5).live % 2 ^ 32 * 2 ^ 24) s3
    | none => s3
  modDraw id (fun d => { d with
    st := .committed, seed := AB.update (AB.update d.seed srec) srec, commit := c, commitSeq := seq, lastSeq := seq
    opsecCommit := s4.opsec, ctr := ctr, nextIdx := 0 }) s4

/-- The words of two passes are counted (R239, R422). -/
def countWords (params seed : Bytes) (times : Nat) (s : State) : State :=
  let n := drawWords params seed
  count 0x62 0 (2 * times * n.2) (count 0x61 0 (2 * times * n.1) s)

/-- Steps 4 and 5 of R231: the result, twice, and the RESULT entry. -/
def resultDraw (d : Draw) (seed : Bytes) (s : State) : State :=
  let r := drawResult d.params seed
  let dig := sha384 (resultBytes r)
  let seq := entrySeq s
  let s1 := journalEntry 0x14 false (le 4 d.id.toNat ++ le 4 (pK d.params) ++ h384 dig) s
  modDraw d.id.toNat (fun d => { d with
    st := if pInstant d.params then DrawSt.issuing else .resulted
    results := some r, resultDigest := dig, resultSeq := seq, lastSeq := seq }) s1

/-- The two digests differ `n` times (R239). -/
def mismatches (id n : Nat) (s : State) : State :=
  (List.range n).foldl (fun t k => eventX 0x0406 k (le 4 id) t) s

/-- The sampler computes a committed draw; `fails` comparisons differ. After the fourth the sampler goes out of service and the draw
stays COMMITTED (R239; notes/assumptions/44.md). -/
def computeDraw (id fails : Nat) (s : State) : State :=
  match drawOf s id with
  | none => s
  | some d =>
    match seedOf s d with
    | none => s
    | some seed =>
      if fails < 4 then resultDraw d seed (countWords d.params seed (fails + 1) (mismatches id fails s))
      else
        let s1 := countWords d.params seed 4 (mismatches id 4 s)
        eventX 0x0407 0 (le 4 id) { s1 with lark := { s1.lark with drbgOn := false } }

/-- The result array: as held in DRAM, or recomputed from the seed (R242). -/
def resultsOf (s : State) (d : Draw) : Option (List (BitVec 32)) :=
  match d.results with
  | some r => some r
  | none => (seedOf s d).map fun seed => drawResult d.params seed

/-- The response body of DRAW_RUN and INSTANT_BATCH (R233, R243). -/
def runBody (d : Draw) (r : List (BitVec 32)) : Bytes :=
  le 6 d.commitSeq ++ le 6 d.resultSeq ++ le 4 (pK d.params) ++ h384 d.resultDigest
    ++ (if !pInstant d.params && decide (pK d.params ≤ 256) then resultBytes r else [])

/-- The recorded values of a draw that has its result (R233; notes/assumptions/45.md). -/
def recorded (s : State) (d : Draw) : Nat × Nat × Bytes :=
  if pInstant d.params || 256 < pK d.params then (stOk, 0, runBody d [])
  else match resultsOf s d with
    | some r => (stOk, 0, runBody d r)
    | none => (stKeyOrphaned, 0, [])

/-- What a run ended in, as its response (R233, R239). -/
def runReply (s : State) (id : Nat) : Nat × Nat × Bytes :=
  match drawOf s id with
  | some d => if d.st = .committed then (stUnsupported, 3, []) else recorded s d
  | none => (stDrawUnknown, 0, [])

/-- A whole run: commit, then compute (R231, R243). -/
def runDraw (d : Draw) (fails : Nat) (s : State) : State := computeDraw d.id.toNat fails (commitDraw d s)

/-- A bank calibrates (R221, R233). -/
def bankCalibrating (s : State) : Bool := s.banks.any (·.st == .calibrating)

/-- What keeps a run from starting: status and DETAIL, or none (R233, R239, R243). -/
def runRefusal (s : State) (d : Draw) : Option (Nat × Nat) :=
  if !s.lark.drbgOn then some (stUnsupported, 3)
  else if !handleActive s d.sigkey 0x13 then some (stKeyOrphaned, 0)
  else if !condUp s 2 && !bankCalibrating s then some (stUnsupported, 2)
  else entryRefusal (!pInstant d.params) s

/-- A run of a draw that may run: at once, or when the calibration that takes its banks has ended (R221, R233). -/
def startRun (d : Draw) (op fails : Nat) (s : State) : Reply :=
  match runRefusal s d with
  | some (st, det) => .refuse s st det
  | none =>
    let id := d.id.toNat
    if condUp s 2 then
      let t := runDraw d fails s
      let a := runReply t id
      .done t a.1 a.2.1 a.2.2
    else .wait { s with lark := { s.lark with runWait := s.lark.runWait ++ [(id, op, fails)] } } id []

/-- DRAW_RUN of a draw, by its state (R233). -/
def runByState (d : Draw) (fails : Nat) (s : State) : Reply :=
  if pInstant d.params && d.st != .defining then .refuse s stUnsupported 0
  else match d.st with
    | .closed => startRun d 0x0403 fails s
    | .committed => if s.lark.drbgOn then .wait s d.id.toNat [] else .refuse s stUnsupported 3
    | .resulted | .certified => let a := recorded s d; .done s a.1 a.2.1 a.2.2
    | .cancelled | .voided => .refuse s stDrawClosed 0
    | _ => .refuse s stBusyOwned 0

/-- DRAW_RUN's own steps (R231, R233). -/
def drawRunRun (r : Req) (fails : Nat) (s : State) : Reply :=
  if fld r 4 4 ≠ 0 then .refuse s stMalformed 20
  else match drawOf s (fld r 0 4) with
    | none => .refuse s stDrawUnknown 0
    | some d => runByState d fails s

/-- DRAW_RUN (R231, R233). -/
def execDrawRun (r : Req) (fails : Nat) (s : State) : Host.Outcome State Fault Refusal :=
  .next (command (.drawRun r fails) 0x0403 r (some 8) (drawRunRun r fails) s)

/-- INSTANT_BATCH of a draw, by its state (R243). -/
def batchByState (d : Draw) (fails : Nat) (s : State) : Reply :=
  if d.st ≠ .ready ∨ !pInstant d.params ∨ (freeBatchCtr s).isNone then .refuse s stBusyOwned 0
  else startRun d 0x0405 fails s

/-- INSTANT_BATCH's own steps (R243). -/
def instantBatchRun (r : Req) (fails : Nat) (s : State) : Reply :=
  if fld r 4 4 ≠ 0 then .refuse s stMalformed 20
  else match drawOf s (fld r 0 4) with
    | none => .refuse s stDrawUnknown 0
    | some d => batchByState d fails s

/-- INSTANT_BATCH (R243). -/
def execInstantBatch (r : Req) (fails : Nat) (s : State) : Host.Outcome State Fault Refusal :=
  .next (command (.instantBatch r fails) 0x0405 r (some 8) (instantBatchRun r fails) s)

/-- One run that waited for banks is taken up again, by the state that its draw now has: it runs, is refused, or waits on (R221, R226, R233,
R243, R249). -/
def resumeWaiting (x : Nat × Nat × Nat) (s : State) : State :=
  match drawOf s x.1 with
  | none => answerFor x.2.1 x.1 stDrawUnknown 0 [] s
  | some d =>
    match (if x.2.1 = 0x0403 then runByState d x.2.2 s else batchByState d x.2.2 s) with
    | .done t st det body => answerFor x.2.1 x.1 st det body t
    | .wait t _ _ => t

/-- Runs that waited for a calibration go on, in the order they were taken (R221, R249). -/
def serveRuns (s : State) : State :=
  s.lark.runWait.foldl (fun t x => resumeWaiting x t) { s with lark := { s.lark with runWait := [] } }

/-- RESERVATION_MARK_RAISE (R244): before an index at or above the mark is assigned. -/
def execReservationMarkRaise (drawId : BitVec 32) (s : State) : Host.Outcome State Fault Refusal :=
  match drawOf s drawId.toNat with
  | some d =>
    if d.st = .issuing ∧ batchMark s d ≤ d.nextIdx ∧ batchMark s d < pK d.params then
      .next (settle s (raiseReservation d s))
    else .next s
  | none => .next s

/-! Certificates. -/

/-- The result array stands in the certificate (R240). -/
def inlineResult (d : Draw) : Bool := pK d.params ≤ 256

/-- Certificate bytes 0 to S - 1 (R240). -/
def certBody (s : State) (d : Draw) (seed : Bytes) : Bytes :=
  let res := if inlineResult d then resultBytes (drawResult d.params seed) else []
  let n := 256 + d.params.length + res.length + 4
  le 4 0x43444C46 ++ le 2 1 ++ le 2 (b2n s.keys.testRoot + 2 * b2n (pInstant d.params) + 4 * b2n (inlineResult d))
    ++ le 4 (n + 3405) ++ le 4 d.id.toNat ++ unitIdBytes ++ h384 (paramDigest d) ++ fit 48 seed ++ h384 d.commit
    ++ h384 d.resultDigest ++ le 6 d.closeSeq ++ le 6 d.commitSeq ++ le 6 d.resultSeq ++ le 2 d.params.length
    ++ le 4 (pK d.params) ++ le 5 d.opsecCommit ++ le 3 d.issued ++ d.params ++ res
    ++ le 4 (match keyRec s (keyIndex d.sigkey) with | .ok _ k => k.keyId.toNat | _ => 0)

/-- The hybrid signature of a certificate (R240, R291). -/
def certSign (s : State) (d : Draw) (body : Bytes) : Option Bytes :=
  (drawPair s (keyIndex d.sigkey)).map fun p => hybridSign p body s.free

/-- A certificate is due: a scheduled draw in RESULTED, or an instant batch in CLOSED (R226, R248). -/
def certDue (d : Draw) : Bool := d.st == .resulted || (d.st == .closed && pInstant d.params)

/-- The certificate is signed, the CERT entry written, the draw CERTIFIED (R231 step 7, R248). ISSUED is the mark in force, and the
batch's counter is free again (R282). -/
def certify (d : Draw) (seed : Bytes) (s : State) : State :=
  let d1 := { d with issued := if pInstant d.params then batchMark s d else 0 }
  let body := certBody s d1 seed
  let seq := entrySeq s
  let cert := (certSign s d1 body).map fun sig => body ++ sig
  let s1 := journalEntry 0x15 false (le 4 d.id.toNat ++ zeros 4 ++ h384 (sha384 body)) (signed s)
  modDraw d.id.toNat (fun _ => { d1 with st := .certified, cert := cert, lastSeq := seq, ctr := none }) s1

/-- DRAW_CERT_SIGNED (R231 step 7, R234, R248). -/
def execDrawCertSigned (drawId : BitVec 32) (s : State) : Host.Outcome State Fault Refusal :=
  match drawOf s drawId.toNat with
  | some d =>
    match seedOf s d with
    | some seed =>
      if certDue d && pkeUp s && !tamperHalt s && s.pwr.phase == .service && !seqExhausted s then
        .next (sleepIfDue (settle s (certify d seed s)))
      else .next s
    | none => .next s
  | none => .next s

/-- The form of DRAW_CERT (R242). -/
def certBad (r : Req) : Option Nat :=
  let dma := bit (fld r 6 2) 0
  let n := fld r 12 4
  firstBad [(decide (1 < fld r 4 2), 20), (decide (1 < fld r 6 2), 22),
    (n == 0 || decide ((if dma then 4194304 else 4064) < n), 28), (!dma && fld r 16 8 != 0, 32)]

/-- A part of a certificate, returned inline or by DMA (R242). -/
def certPart (r : Req) (part : Bytes) (s : State) : Reply :=
  let b := slice part (fld r 8 4) (fld r 12 4)
  let head := le 4 part.length ++ le 4 b.length ++ zeros 8
  if bit (fld r 6 2) 0 then
    let w := dmaWrite r (fld r 16 8) b s
    if b = [] ∨ w.1 then .done (if b = [] then s else w.2) stOk 0 head else .refuse w.2 (dmaStatus r true (fld r 16 8) b.length s) 0
  else .done s stOk 0 (head ++ b)

/-- PART 0: the certificate as issued in this cycle, or signed anew (R241, R242, R249; notes/assumptions/45.md). -/
def certificate (r : Req) (d : Draw) (s : State) : Reply :=
  match d.cert with
  | some c => certPart r c s
  | none =>
    match seedOf s d with
    | none => .refuse s stKeyOrphaned 0
    | some seed =>
      if !pkeUp s then .refuse s stUnsupported 0
      else
        let body := certBody s d seed
        let c := body ++ (certSign s d body).getD []
        certPart r c (signed (modDraw d.id.toNat (fun d => { d with cert := some c }) s))

/-- DRAW_CERT's own steps (R241, R242). The array is recomputed where it is no longer held. -/
def drawCertRun (r : Req) (s : State) : Reply :=
  match certBad r with
  | some off => .refuse s stMalformed off
  | none =>
    if bit (fld r 6 2) 0 && r.path != .pcie then .refuse s stUnsupported 0
    else match drawOf s (fld r 0 4) with
      | none => .refuse s stDrawUnknown 0
      | some d =>
        if d.st = .cancelled ∨ d.st = .voided then .refuse s stDrawClosed 0
        else if d.st ≠ .certified then .refuse s stBusyOwned 0
        else if fld r 4 2 = 0 then certificate r d s
        else match resultsOf s d with
          | some a => certPart r (resultBytes a) s
          | none => .refuse s stKeyOrphaned 0

/-- DRAW_CERT (R242). -/
def execDrawCert (r : Req) (s : State) : Host.Outcome State Fault Refusal :=
  .next (command (.drawCert r) 0x0404 r (some 24) (drawCertRun r) s)

/-! After a start (R234, R249). -/

/-- A draw becomes VOIDED, with a VOID entry (R234, R249, R257, R282). -/
def voidDraw (d : Draw) (reason : Nat) (s : State) : State :=
  let seq := entrySeq s
  let s1 := journalEntry 0x16 false (le 4 d.id.toNat ++ le 4 reason) s
  modDraw d.id.toNat (fun d => { d with
    st := .voided, lastSeq := seq, issued := if pInstant d.params then batchMark s d else d.issued, ctr := none, results := none }) s1

/-- Draws in COMMITTED, RESULTED or ISSUING whose key, or an ancestor, is orphaned or unusable (R249). -/
def voidOrphaned (s : State) : State :=
  s.nv.draws.foldl (fun t d =>
    if (d.st = .committed ∨ d.st = .resulted ∨ d.st = .issuing) ∧ !handleActive t d.sigkey 0x13 then voidDraw d 3 t else t) s

/-- A draw in the state a power loss or a reset left it in (R226, R234). -/
def afterLoss (d : Draw) : Option Draw :=
  let d1 := { d with results := none, cert := none }
  match d.st with
  | .defining => none
  | .closing => if d.closeFrom = .defining then none else some { d1 with st := d.closeFrom, closing := false, closeEpoch := 0 }
  | _ => some d1

/-- Seed records of draws without a COMMIT entry are zeroised (R234). -/
def discardSeeds (s : State) : State :=
  s.nv.draws.foldl (fun t d =>
    if (d.st = .closed ∨ d.st = .ready) ∧ d.commitSeq = 0 ∧ d.seed ≠ ⟨.blank, .blank⟩ then
      eventX 0x0405 0 (le 4 d.id.toNat) (modDraw d.id.toNat (fun d => { d with seed := ⟨.blank, .blank⟩ }) t)
    else t) s

/-- The draw table at a start (R226, R234, R244). -/
def recoverDraws (s : State) : State :=
  let s1 := { s with nv := { s.nv with draws := s.nv.draws.filterMap afterLoss } }
  discardSeeds { s1 with nv := { s1.nv with draws := s1.nv.draws.map fun d =>
    if d.st = .issuing then { d with nextIdx := batchMark s1 d } else d } }

/-- The sampler recomputes the array of a batch in ISSUING, comparing its two passes; `fails` comparisons differ (R239, R244). -/
def recomputeBatch (d : Draw) (seed : Bytes) (fails : Nat) (s : State) : State :=
  let s1 := countWords d.params seed (min 4 (fails + 1)) (mismatches d.id.toNat (min 4 fails) s)
  if fails < 4 then modDraw d.id.toNat (fun d => { d with results := some (drawResult d.params seed) }) s1
  else eventX 0x0407 0 (le 4 d.id.toNat) { s1 with lark := { s1.lark with drbgOn := false } }

/-- A draw whose COMMIT entry stands and whose certificate does not goes on from its seed, or is voided. How many comparisons of the sampler differ is
left open (R234, R239). -/
def resumeDraw (d : Draw) (s : State) : State :=
  match seedOf s d with
  | none => voidDraw d 1 s
  | some seed =>
    let fails := Config.freeNat s.free % 5
    if sha384 (commitBlock d seed) ≠ d.commit then voidDraw d 2 s
    else if d.st = .committed then
      let t := computeDraw d.id.toNat fails (drew s)
      let a := runReply t d.id.toNat
      answerFor 0x0403 d.id.toNat a.1 a.2.1 a.2.2 t
    else if d.st = .issuing then recomputeBatch d seed fails (drew s)
    else s

/-- The draw has a COMMIT entry and no CERT entry (R234): COMMITTED, ISSUING or RESULTED, or a closed batch. -/
def mustResume (d : Draw) : Bool :=
  d.st == .committed || (d.st == .issuing && d.results.isNone) || d.st == .resulted || (d.st == .closed && pInstant d.params)

/-- Once service is complete: draws that a loss interrupted go on, and the result arrays of batches are recomputed (R66, R234, R244). While the sampler
is out of service nothing goes on. -/
def resumeDraws (s : State) : State :=
  s.nv.draws.foldl (fun t d => if mustResume d && t.lark.drbgOn then resumeDraw d t else t) s

end Sys2Proof.Machine
end

