-- ==== Sys2Proof/Machine/Banks.lean ====
section
/-! DEFINITION. The noise banks: start-up tests, health failures, calibrations, suspension and failure (R211 to R222). -/

namespace Sys2Proof.Machine

/-- A noise bank. -/
def bankOf (s : State) (b : Nat) : Bank := s.banks.getD b {}

/-- A bank is changed. -/
def modBank (b : Nat) (f : Bank → Bank) (s : State) : State := { s with banks := modAt s.banks b f }

/-- Entries into SUSPENDED in the last 3,600 operating seconds (R217, R222). -/
def bankFails (s : State) (b : Nat) : Nat := ((bankOf s b).entries.filter fun t => s.opsec < t + 3600).length

/-- DIAG_SELFTEST of the bank responds, when it waits for this calibration (R221, R418). -/
def bankAnswer (b : Nat) (fail : Bool) (s : State) : State :=
  if (bankOf s b).wantCal then
    let s1 := modBank b (fun x => { x with wantCal := false }) s
    let s2 := if fail then event 0x0109 (unitArg 0x11 b) s1 else s1
    answerAll (fun w => w.op == 0x0903 && w.obj == 3 + 256 * b) (fun _ => (stOk, 0, testBody 3 b fail s2)) (drew s2)
  else s

/-- A bank enters FAILED: its domain is off (R216, R217). -/
def bankDies (b : Nat) (s : State) : State :=
  event 0x0403 b (setDomain (59 + b) .off
    (modBank b (fun x => { x with st := .failed, credited := false, deferred := false, ready := false, heldRaw := none }) s))

/-- A bank enters SUSPENDED, and FAILED when it is its third entry in 3,600 operating seconds or its third low calibration in a row; the block that
the conditioner holds back is discarded, and the unit is reported as taken out (R107, R213, R216, R217). -/
def suspendBank (b : Nat) (s : State) : State :=
  let s1 := modBank b (fun x => { x with
    st := .suspended, credited := false, deferred := false, heldRaw := none, suspOpsec := s.opsec, entries := x.entries ++ [s.opsec] }) s
  let s2 := aer 0 .correctedInternal (eventX 0x0402 b (le 2 (bankOf s b).bound) s1)
  if 3 ≤ bankFails s2 b ∨ 3 ≤ (bankOf s2 b).low then bankDies b s2 else s2

/-- Banks in SERVING other than `b`. -/
def othersServing (s : State) (b : Nat) : Nat :=
  ((List.range 3).filter fun i => i ≠ b && (bankOf s i).st == .serving).length

/-- The bank begins to calibrate, and delivers no output meanwhile (R215). -/
def calibrate (b : Nat) (s : State) : State :=
  modBank b (fun x => { x with st := .calibrating, deferred := false, ready := false, heldRaw := none }) s

/-- A bank whose start-up test has passed calibrates, once no other bank does (R34, R215, R216). -/
def calibrateNext (s : State) : State :=
  if bankCalibrating s then s
  else
    match [0, 1, 2].find? fun b => (bankOf s b).ready && (bankOf s b).st == .starting with
    | some b => calibrate b s
    | none => s

/-- Deferred calibrations begin once two other banks serve, one at a time, from the bank whose turn it is (R215). -/
def startDeferred (s : State) : State :=
  if bankCalibrating s then s
  else
    match [0, 1, 2].findSome? fun i =>
      let b := (s.lark.calTurn + i) % 3
      if (bankOf s b).deferred && (bankOf s b).st == .serving && decide (2 ≤ othersServing s b) then some b else none with
    | some b => calibrate b { s with lark := { s.lark with calTurn := (b + 1) % 3 } }
    | none => s

/-- What follows a change of the banks in SERVING: runs, keys, lanes and slots that waited, calibrations that wait their turn or were deferred (R186,
R210, R215, R220, R221). -/
def bankChanged (s : State) : State := startDeferred (calibrateNext (rebuildSlots (seedLanes (drawWaiting (serveRuns s)))))

/-- A calibration falls due: it begins, or is deferred with an event (R215). A bank not in SERVING has its own way back. -/
def calibrationDue (b : Nat) (s : State) : State :=
  if (bankOf s b).st = .serving then
    (if 2 ≤ othersServing s b then calibrate b { s with lark := { s.lark with calTurn := (b + 1) % 3 } }
     else event 0x0404 b (modBank b (fun x => { x with deferred := true }) s))
  else s

/-- The health-test failures of a stream set are recorded, one for each stream (R217, R222, R414). -/
def healthFails (b : Nat) (streams : BitVec 32) (prop : Bool) (s : State) : State :=
  (List.range 32).foldl (fun t i => if streams.getLsbD i then event 0x0401 (b + 4 * b2n prop + 8 * i) t else t)
    (modBank b (fun x => { x with streams := x.streams ||| streams }) s)

/-- A bank's domain comes up and its start-up test begins (R214, R216). -/
def startBank (b : Nat) (s : State) : State :=
  setDomain (59 + b) .on (modBank b (fun x => { x with st := .starting, retry := false, ready := false }) s)

/-- A health failure or a bound below 0.450 is reported to the tamper response logic; its T2 action, SUSPENDED, follows in every case (R217,
R218, R376, R378). -/
def bankInput (b : Nat) (s : State) : State := raiseInput id .noiseBank (.bank b) s

/-! Meanings. -/

/-- NB_STARTUP_TEST_DONE (R214, R216 to R218). -/
def execNbStartupTestDone (bank : Nat) (pass : Bool) (streams : BitVec 32) (prop : Bool) (s : State) :
    Host.Outcome State Fault Refusal :=
  if (bankOf s bank).st == .starting then
    if pass then .next (settle s (calibrateNext (modBank bank (fun x => { x with ready := true }) s)))
    else
      let s1 := bankInput bank (healthFails bank streams prop s)
      if (bankOf s bank).retry then .next (settle s (bankChanged (bankAnswer bank true (bankDies bank s1))))
      else .next (settle s (modBank bank (fun x => { x with retry := true }) s1))
  else .next s

/-- NB_HEALTH_FAIL (R212, R216, R217). -/
def execNbHealthFail (bank stream : Nat) (prop : Bool) (s : State) : Host.Outcome State Fault Refusal :=
  match (bankOf s bank).st with
  | .serving | .calibrating =>
    .next (settle s (bankChanged (bankAnswer bank true (suspendBank bank (bankInput bank (healthFails bank (1#32 <<< stream) prop s))))))
  | .suspended => .next (settle s (bankInput bank (healthFails bank (1#32 <<< stream) prop s)))
  | _ => .next s

/-- NB_CALIBRATION_DONE (R215 to R217, R222). -/
def execNbCalibrationDone (bank bound : Nat) (s : State) : Host.Outcome State Fault Refusal :=
  if (bankOf s bank).st == .calibrating then
    let good := decide (450 ≤ bound)
    let s1 := modBank bank (fun x => { x with
      bound := bound, calOpsec := s.opsec, calTemp := s.pwr.tempNow, streams := 0, low := if good then 0 else x.low + 1 }) s
    let s2 := if good then bankServes bank s1 else suspendBank bank (bankInput bank s1)
    .next (settle s (bankChanged (bankAnswer bank (!good) s2)))
  else .next s

/-- The calibration period of a serving bank has run out (R215, R419). -/
def calDue (s : State) (b : Nat) : Bool :=
  served s && (bankOf s b).st == .serving && !(bankOf s b).deferred && decide ((bankOf s b).calOpsec + s.diag.calPer ≤ s.opsec)

/-- The bank whose turn it is, of those whose period has run out: NB0, NB1, NB2 (R215). -/
def calTurnBank (s : State) : Option Nat := ([0, 1, 2].map fun i => (s.lark.calTurn + i) % 3).find? (calDue s)

/-- CAL_PERIODIC (R215): the banks take their turns. -/
def execCalPeriodic (bank : Nat) (s : State) : Host.Outcome State Fault Refusal :=
  if calTurnBank s = some bank then .next (settle s (calibrationDue bank s)) else .next s

/-- The new junction temperature is noted (R420). -/
def noteTemp (t : Nat) (s : State) : State :=
  { s with pwr := { s.pwr with tempNow := t, tempMax := max s.pwr.tempMax t } }

/-- CAL_TEMPERATURE (R215): the temperature is more than 20 degrees away from that of the last calibration. -/
def execCalTemperature (bank temp : Nat) (s : State) : Host.Outcome State Fault Refusal :=
  let c := (bankOf s bank).calTemp
  let s1 := noteTemp temp s
  if served s && (temp + 20 < c || c + 20 < temp) then .next (settle s (calibrationDue bank s1)) else .next s1

/-- NB_RESTART (R216). -/
def execNbRestart (bank : Nat) (s : State) : Host.Outcome State Fault Refusal :=
  let x := bankOf s bank
  if x.st == .suspended && x.suspOpsec + 60 ≤ s.opsec then .next (settle s (startBank bank s)) else .next s

/-! NB_STATUS. -/

/-- The code of a bank state (R222). -/
def bankCode : BankSt → Nat
  | .off => 0 | .starting => 1 | .calibrating => 2 | .serving => 3 | .suspended => 4 | .failed => 5

/-- One bank record (R222). -/
def bankRecord (s : State) (b : Nat) : Bytes :=
  let x := bankOf s b
  le 1 (bankCode x.st) ++ le 1 (bankFails s b) ++ le 2 x.bound ++ le 2 (if x.credited then 300 else 0) ++ zeros 2
    ++ le 4 x.streams.toNat ++ le 5 x.calOpsec ++ le 1 x.calTemp ++ zeros 2 ++ le 8 x.blocks ++ zeros 4

/-- The NB_STATUS body (R222). -/
def nbBody (s : State) : Bytes :=
  le 1 (banksIn s) ++ le 1 (b2n s.lark.condOn + 2 * b2n s.lark.drbgOn) ++ zeros 2 ++ le 4 s.diag.calPer ++ zeros 8
    ++ bankRecord s 0 ++ bankRecord s 1 ++ bankRecord s 2

/-- NB_STATUS (R222). -/
def execNbStatus (r : Req) (s : State) : Host.Outcome State Fault Refusal :=
  .next (command (.nbStatus r) 0x0406 r (some 0) (fun s => .done s stOk 0 (nbBody s)) s)

end Sys2Proof.Machine
end

