-- ==== Sys2Proof/Machine/Tamper.lean ====
section
/-! DEFINITION. The tamper inputs, their T2 actions (R372 to R387), the failure of a unit (R33) and the tests of a PKE core (R378). -/

namespace Sys2Proof.Machine

/-! T2 actions (R378). -/

/-- A PKE core leaves service (R32, R107); its known-answer tests run, unless this is its third T2 within 3,600 operating seconds. -/
def pkeLeaves (k : Nat) (s : State) : State :=
  let one := fun (p : Pke) =>
    let ts := p.times ++ [s.opsec]
    let out := p.out || decide (3 ≤ (ts.filter fun t => s.opsec < t + 3600).length)
    { p with inService := false, times := ts, out := out, testing := !out }
  aer 0 .correctedInternal <| event 0x0C06 k { s with pkes := modAt s.pkes k one, keys := { s.keys with pkeKey := modAt s.keys.pkeKey k fun _ => false } }

/-- A digest unit leaves service: the survivor takes the internal role and the DGU1 window is withdrawn (R32, R107, R404). -/
def dguLeaves (k : Nat) (s : State) : State :=
  let s1 := if k = 0 then { s with dgu0 := { s.dgu0 with inService := false } } else { s with dgu1 := { s.dgu1 with inService := false } }
  aer 0 .correctedInternal <| event 0x0C07 k { s1 with dgu1 := { s1.dgu1.clear with withdrawn := true } }

/-- A lane that serves goes through its start test again: its key register file is scrubbed and its generator gets a new seed, if the conditioner
gives one (R186, R187, R378; notes/assumptions/72.md). -/
def startAgain (p n : Nat) (s : State) : State :=
  modLane n (fun l => { l with st := .starting, isolated := true, keys := [], out := [], forSlot := some p }) (reseedLane n s)

/-- CLK_LANE: every dispatched unit is taken back, every claim number advances, and the lanes pass their start tests before service
resumes. -/
def laneClockOut (s : State) : State :=
  [0, 1, 2].foldl (fun t p =>
    let sl := slotOf t p
    if sl.inService then startAgain p sl.l1 (startAgain p sl.l0 (withdraw p 3 (some (sl.l0, sl.l1)) t)) else t) s

/-- The slot of a lane fails over for a cause (R199). -/
def laneLeavesFor (cause : FailCause) (n : Nat) (s : State) : State :=
  match [0, 1, 2].find? fun p => (slotOf s p).inService && ((slotOf s p).l0 == n || (slotOf s p).l1 == n) with
  | some p => failover p cause s
  | none => s

/-- The T2 action of a power domain's unit (R33, R48, R375, R378). -/
def domainLeaves (n : Nat) (s : State) : State :=
  if n = 1 ∨ n = 2 then { s with tamper := { s.tamper with arrayOut := s.tamper.arrayOut.set (n - 1) true } }
  else if 5 ≤ n ∧ n ≤ 7 then unitFails 0x01 0 s
  else if n = 13 ∨ n = 14 then pkeLeaves (n - 13) s
  else if n = 15 then dguLeaves 1 (dguLeaves 0 s)
  else if 16 ≤ n ∧ n ≤ 39 then laneLeavesFor .laneError ((n - 16) / 3) s
  else if n = 40 ∨ n = 41 then unitFails 0x02 0 s
  else if 42 ≤ n ∧ n ≤ 47 then unitFails 0x03 0 s
  else if n = 48 ∨ n = 49 then unitFails 0x04 0 s
  else if n = 50 then unitFails 0x09 0 s
  else if 59 ≤ n ∧ n ≤ 61 then
    (if (bankOf s (n - 59)).st = .serving ∨ (bankOf s (n - 59)).st = .calibrating then bankChanged (suspendBank (n - 59) s) else s)
  else if 64 ≤ n ∧ n ≤ 67 then unitFails 0x06 (n - 64) s
  else if 68 ≤ n ∧ n ≤ 75 then unitFails 0x05 0 s
  else if n = 76 then unitFails 0x07 0 s
  else s

/-- The T2 action of an input (R378). -/
def t2Action (t : TamperIn) (s : State) : State :=
  match t.sensor, t.unit with
  | .domainVoltage, .powerDomain n => domainLeaves n s
  | .comparison, .slot p => if (slotOf s p).inService then failover p .mismatch s else s
  | .comparison, .lane n => laneLeavesFor .laneError n s
  | .laser, .lane n => laneLeavesFor .laser n s
  | .noiseBank, .bank b =>
    if (bankOf s b).st = .serving ∨ (bankOf s b).st = .calibrating then bankChanged (suspendBank b s) else s
  | .clock, .clockDomain 1 => unitFails 0x01 0 s
  | .clock, .clockDomain 2 => laneClockOut s
  | .clock, .clockDomain 3 => unitFails 0x02 0 s
  | .clock, .clockDomain 7 => unitFails 0x04 0 s
  | _, .pke k => pkeLeaves k s
  | _, .dgu k => dguLeaves k s
  | _, _ => s

/-! Meanings. -/

/-- VBAT falls below 2.0 V with a feed present: alert cause [6] and VBAT_LOW (R372, R414, R417). -/
def vbatFalls (s : State) : State :=
  if s.pwr.vbatLow then s else event 0x0106 0 { s with pwr := { s.pwr with vbatLow := true } }

/-- An input from a sensor or a unit, with its T2 action (R376 to R378). -/
def takeInput (t : TamperIn) (fresh : Bool) (s : State) : State :=
  senseInput (t2Action t) t fresh (if t.sensor = .vbat ∧ t.reading = .fault then vbatFalls s else s)

/-- An input during a flush: it is judged as in service, and the burns of T4 complete on hold-up (R382, R387). -/
def inFlush (t : TamperIn) (alone : TClass) (counts fresh : Bool) (s : State) : State :=
  let w := windowWith t counts fresh s
  let s1 := { s with tamper := { s.tamper with window := w, windowAt := if counts then s.opsec else s.tamper.windowAt } }
  let c := if correlated t counts w s then policyClass s 2 else alone
  if c = .t4 ∧ s.lc ≠ .lost ∧ s.lc ≠ .scrap then burnTampered s1 else s1

/-- TAMPER_INPUT (R376 to R382, R387). During a flush the burns of T4 complete, and the rest is lost with the state. -/
def execTamperInput (input : TamperIn) (newWindow : Bool) (s : State) : Host.Outcome State Fault Refusal :=
  if sensorsOn s then .next (settle s (takeInput input newWindow s))
  else
    match s.pwr.phase, judgeInput s input with
    | .flushPower, some (alone, counts) | .flushReset, some (alone, counts) => .next (inFlush input alone counts newWindow s)
    | _, _ => .next s

/-- T4_RESET (R382): flush and burns have ended, and the Asaskac resets as by nRESET. -/
def execT4Reset (s : State) : Host.Outcome State Fault Refusal :=
  if powered s && s.tamper.t4Due then .next (beginReset false s) else .next s

/-- PD00 latches the first attack reading of a sensor (R384). -/
def latchReading (code : Nat) (s : State) : State :=
  if s.tamper.latch.any (fun l => l.1 == code) then s
  else
    { s with tamper := { s.tamper with
        latch := s.tamper.latch ++ [(code, 0, s.pwrCyc)]
        offOpsec := if s.pwr.phase = .off then s.tamper.offOpsec else s.opsec } }

/-- PD00 drives and senses the Cardigan and the loops by itself, and latches: unpowered from VBAT (R384), and in reset and after a declaration, where
nothing else reads it until step 4 of the start (R63; notes/assumptions/96.md). -/
def unpoweredWatch (s : State) : Bool :=
  match s.pwr.phase with
  | .off => s.pwr.vbatPresent
  | .held | .startDue | .flushPower | .flushReset => true
  | _ => false

/-- UNPOWERED_TAMPER_LATCH (R384): the Cardigan and the loops. -/
def execUnpoweredTamperLatch (sensor : Sensor) (s : State) : Host.Outcome State Fault Refusal :=
  match sensor with
  | .cardigan | .loopA | .loopB => if unpoweredWatch s then .next (latchReading (sensorCode sensor) s) else .next s
  | _ => .next s

/-- A loop's resistance above 1 kOhm is an attack reading (R372, R431). -/
def loopReading (sensor : Sensor) (ohms : Nat) (s : State) : State :=
  if ohms ≤ 1000 then s
  else if unpoweredWatch s then latchReading (sensorCode sensor) s
  else if sensorsOn s then
    takeInput { sensor := sensor, reading := .attack, unit := .powerDomain 0, quiet := false } false s
  else s

/-- LOOP_RESISTANCE_MEASURE (R372, R384, R431). -/
def execLoopResistanceMeasure (ohmsA ohmsB : Nat) (s : State) : Host.Outcome State Fault Refusal :=
  .next (settle s (loopReading .loopB ohmsB (loopReading .loopA ohmsA s)))

/-- UNIT_FAILED (R33): one of the units with no redundant twin. -/
def execUnitFailed (unit index : Nat) (s : State) : Host.Outcome State Fault Refusal :=
  if sensorsOn s && decide (1 ≤ unit) && decide (unit ≤ 9) then .next (settle s (unitFails unit index s)) else .next s

/-- PKE_TEST_DONE (R378, R418): a core that left service returns once its known-answer tests pass; a requested test is answered. -/
def execPkeTestDone (core : Nat) (pass : Bool) (s : State) : Host.Outcome State Fault Refusal :=
  match s.pkes[core]? with
  | some p =>
    if p.testing then
      let s1 := { s with pkes := modAt s.pkes core fun p => { p with testing := false, inService := pass && !p.out } }
      let s2 := if pass then s1 else event 0x0109 (unitArg 0x12 core) s1
      let body := testBody 4 core (!pass) s2
      .next (settle s (answerAll (fun w => w.op == 0x0903 && w.obj == 4 + 256 * core) (fun _ => (stOk, 0, body)) (drew s2)))
    else .next s
  | none => .next s

end Sys2Proof.Machine
end

