-- ==== Sys2Proof/Machine/Gates.lean ====
section
/-! DEFINITION. The gate commands (R339 to R345), DRAM lines (R326 to R328) and the MRAM refresh (R440). -/

namespace Sys2Proof.Machine

/-! Gates. -/

/-- A gate. -/
def gateOf (s : State) (g : Nat) : Gate := s.gates.getD g {}

/-- Entries of a gate (R333, R341). -/
def gateSize (g : Nat) : Nat := if 8 ≤ g ∧ g < 16 then 16 else 64

/-- An entry of a gate. On the queue DMA gates entries 16 to 63 carry SPACE 1 (R334). -/
def gateEntry (s : State) (g i : Nat) : GEntry :=
  tgetD (gateOf s g).ents i (if g < 4 ∧ 16 ≤ i then { eflags := 2 } else {})

/-- The 32 bytes of an entry (R334). -/
def GEntry.bytes (e : GEntry) : Bytes :=
  le 8 e.start.toNat ++ le 8 e.fin.toNat ++ le 2 e.rights.toNat ++ le 2 e.colours.toNat ++ le 2 e.eflags.toNat ++ zeros 10

/-- An entry from its 32 bytes (R334). -/
def entryFrom (b : Bytes) : GEntry :=
  { start := BitVec.ofNat 64 (num b 0 8), fin := BitVec.ofNat 64 (num b 8 8), rights := BitVec.ofNat 16 (num b 16 2)
    colours := BitVec.ofNat 16 (num b 18 2), eflags := BitVec.ofNat 16 (num b 20 2) }

/-- The gates that a GATE field names (R341). -/
def gatesNamed (g : Nat) : List Nat := if g = 0x20 then [0, 1, 2, 3] else [g]

/-- A GATE field names a gate; 0x20 only where `all` says so (R341). -/
def gateKnown (g : Nat) (all : Bool) : Bool := decide (g ≤ 0x14) || (all && g == 0x20)

/-- Only host entries are written and locked by the host (R335, R341, R343). -/
def hostEntries (g first : Nat) : Bool := (decide (g < 4) || g == 0x20) && decide (16 ≤ first)

/-- The first bad field of a host entry, as an offset within it (R334, R341). -/
def hostEntryBad (b : Bytes) : Option Nat :=
  firstBad [(num b 0 8 % 32 != 0, 0), (num b 8 8 % 32 != 0 || decide (num b 8 8 < num b 0 8), 8), (decide (4 ≤ num b 16 2), 16),
    (num b 20 2 / 2 != 1, 20), (!allZero (slice b 22 10), 22)]

/-- FIRST and COUNT of a request that names entries, at offsets 17 and 18. -/
def rangeBad (first count most size : Nat) : List (Bool × Nat) :=
  [(decide (size ≤ first), 17), (count == 0 || decide (most < count) || decide (size < first + count), 18)]

/-- The indexes FIRST to FIRST + COUNT - 1. -/
def named (first count : Nat) : List Nat := (List.range count).map (first + ·)

/-- The entries that a GATE_WRITE carries. -/
def writeEntries (r : Req) : List Bytes := (List.range (fld r 2 1)).map fun i => slice r.body (8 + 32 * i) 32

/-- The first bad field of the entries, as a request offset (R341). -/
def entriesBad (r : Req) : Option Nat :=
  (List.range (fld r 2 1)).findSome? fun i => (hostEntryBad (slice r.body (8 + 32 * i) 32)).map fun o => 24 + 32 * i + o

/-- Some named entry of a named gate is locked (R341). -/
def anyLocked (s : State) (g first count : Nat) : Bool :=
  (gatesNamed g).any fun k => (named first count).any fun i => (gateEntry s k i).lock

/-- Every named entry of every named gate is written, and the epoch advances once (R341, R344). -/
def writeGates (g first : Nat) (es : List Bytes) (s : State) : State :=
  let put := fun (x : Gate) => { x with ents := es.zipIdx.foldl (fun t e => tset t (first + e.2) (entryFrom e.1)) x.ents }
  bumpEpoch { s with gates := (gatesNamed g).foldl (fun gs k => modAt gs k put) s.gates }

/-- GATE_WRITE's own steps (R341). -/
def gateWriteRun (r : Req) (s : State) : Reply :=
  let g := fld r 0 1
  let first := fld r 1 1
  let n := fld r 2 1
  if r.body.length < 8 then .refuse s stMalformed (lenDetail r 8)
  else match firstBad ((!gateKnown g true, 16) :: rangeBad first n 48 64) with
    | some off => .refuse s stMalformed off
    | none =>
      if r.body.length ≠ 8 + 32 * n then .refuse s stMalformed (lenDetail r (8 + 32 * n))
      else if !hostEntries g first then .refuse s stUnsupported 0
      else match (if allZero (slice r.body 3 5) then entriesBad r else some 19) with
        | some off => .refuse s stMalformed off
        | none =>
          if anyLocked s g first n then .refuse s stBusyOwned 0
          else
            let t := writeGates g first (writeEntries r) s
            .done t stOk 0 (le 8 t.epoch)

/-- GATE_WRITE (R341). -/
def execGateWrite (r : Req) (s : State) : Host.Outcome State Fault Refusal :=
  .next (command (.gateWrite r) 0x0A01 r none (gateWriteRun r) s)

/-- GATE_READ's own steps (R342). -/
def gateReadRun (r : Req) (s : State) : Reply :=
  let g := fld r 0 1
  match firstBad ((!gateKnown g false, 16) :: rangeBad (fld r 1 1) (fld r 2 1) 64 (gateSize g) ++ [(fld r 3 1 != 0, 19)]) with
  | some off => .refuse s stMalformed off
  | none =>
    let x := gateOf s g
    .done s stOk 0 (le 1 (b2n x.firstOnly) ++ le 1 (b2n x.mlock) ++ zeros 2 ++ le 8 s.epoch
      ++ ((named (fld r 1 1) (fld r 2 1)).map fun i => (gateEntry s g i).bytes).flatten)

/-- GATE_READ (R342). -/
def execGateRead (r : Req) (s : State) : Host.Outcome State Fault Refusal :=
  .next (command (.gateRead r) 0x0A02 r (some 4) (gateReadRun r) s)

/-- LOCK is set on the named entries, and the reporting mode is locked where asked (R343). -/
def lockGates (g first count : Nat) (mode : Bool) (s : State) : State :=
  (gatesNamed g).foldl (fun t k =>
    let lockOne := fun (es : Tab GEntry) (i : Nat) => tset es i { gateEntry t k i with eflags := (gateEntry t k i).eflags ||| 4 }
    { t with gates := modAt t.gates k fun x =>
        { x with ents := (named first count).foldl lockOne x.ents, mlock := x.mlock || mode } }) s

/-- GATE_LOCK's own steps (R343). -/
def gateLockRun (r : Req) (s : State) : Reply :=
  let g := fld r 0 1
  let first := fld r 1 1
  let n := fld r 2 1
  match firstBad ((!gateKnown g true, 16) :: rangeBad first n 48 64 ++ [(decide (2 ≤ fld r 3 1), 19)]) with
  | some off => .refuse s stMalformed off
  | none =>
    if !hostEntries g first then .refuse s stUnsupported 0
    else .done (event 0x0A02 (g + 256 * first + 65536 * n) (lockGates g first n (bit (fld r 3 1) 0) s)) stOk 0 []

/-- GATE_LOCK (R343). -/
def execGateLock (r : Req) (s : State) : Host.Outcome State Fault Refusal :=
  .next (command (.gateLock r) 0x0A03 r (some 4) (gateLockRun r) s)

/-- The records and LOST of a gate are cleared (R340). -/
def Gate.cleared (g : Gate) : Gate := { g with recs := [], lost := 0 }

/-- The GATE_FAULTS body (R340). -/
def faultsBody (g : Gate) : Bytes :=
  le 1 (b2n g.firstOnly) ++ le 1 (b2n g.mlock) ++ le 1 g.recs.length ++ [0] ++ le 4 (min g.lost (2 ^ 32 - 1)) ++ g.recs.flatten

/-- GATE_FAULTS' own steps (R340). -/
def gateFaultsRun (r : Req) (s : State) : Reply :=
  let g := fld r 0 1
  let op := fld r 1 1
  match firstBad [(!gateKnown g false, 16), (decide (2 < op), 17), (decide ((if op = 2 then 1 else 0) < fld r 2 1), 18),
      (fld r 3 1 != 0, 19)] with
  | some off => .refuse s stMalformed off
  | none =>
    let x := gateOf s g
    if op = 2 then
      (if x.mlock then .refuse s stBusyOwned 0
       else
         let y := Gate.cleared { x with firstOnly := fld r 2 1 == 1 }
         .done { s with gates := modAt s.gates g fun _ => y } stOk 0 (faultsBody y))
    else if op = 1 then .done { s with gates := modAt s.gates g Gate.cleared } stOk 0 (faultsBody x)
    else .done s stOk 0 (faultsBody x)

/-- GATE_FAULTS (R340). -/
def execGateFaults (r : Req) (s : State) : Host.Outcome State Fault Refusal :=
  .next (command (.gateFaults r) 0x0A05 r (some 4) (gateFaultsRun r) s)

/-! GATE_SYNC. -/

/-- The DST range of an operation is outstanding under an epoch below `e` (R337, R345). -/
def dstOutstanding (e : Nat) (w : Work) : Bool := w.inFlight && w.pre == 0 && decide (w.epoch < e)

/-- A read of source data issued under an epoch below `e` is outstanding (R337). -/
def readOutstanding (e : Nat) (w : Work) : Bool := w.stage == .fetched && decide (w.epoch < e)

/-- Every access issued under an epoch below `e` has retired (R345). -/
def retired (e : Nat) (s : State) : Bool := s.work.all fun w => !dstOutstanding e w && !readOutstanding e w

/-- PENDING (R345). Other posted writes are accepted as they are issued. -/
def pendingOf (e : Nat) (s : State) : Nat := (s.work.filter (dstOutstanding e)).length

/-- The GATE_SYNC body (R345). -/
def syncedBody (e pend : Nat) : Bytes := le 8 e ++ le 4 pend ++ zeros 4

/-- GATE_SYNC's own steps (R345). -/
def gateSyncRun (r : Req) (s : State) : Reply :=
  let e := fld r 0 8
  let at0 := if e = 0 then s.epoch else e
  if s.epoch < e then .refuse s stMalformed 16
  else if retired at0 s then .done s stOk 0 (syncedBody at0 0)
  else .wait s at0 []

/-- GATE_SYNC (R345). -/
def execGateSync (r : Req) (s : State) : Host.Outcome State Fault Refusal :=
  .next (command (.gateSync r) 0x0A04 r (some 8) (gateSyncRun r) s)

/-- GATE_SYNC_RETIRED (R345): every waiting GATE_SYNC whose accesses have retired responds. -/
def execGateSyncRetired (s : State) : Host.Outcome State Fault Refusal :=
  .next (settle s (answerAll (fun w => w.op == 0x0A04 && retired w.obj s) (fun w => (stOk, 0, syncedBody w.obj 0)) s))

/-! DRAM. -/

/-- The internal address of a DRAM line (R322). -/
def lineAddr (line : Nat) : Nat := 2 ^ 32 + 64 * line

/-- The effect of an uncorrectable line on its reader (R326). -/
def lineEffect (line : Nat) (reader : LineReader) (s : State) : State :=
  match reader with
  | .staging q =>
    let hit := fun (w : Work) => w.seq == q && q != 0 && w.inFlight && w.active
    let fails := fun (w : Work) => { w with pre := stAccessFault, preDetail := 0 }
    { s with work := modFirst hit fails s.work }
  | .queueContext q => stopQueue q 0 s
  | .savedState q =>
    let hit := fun (w : Work) => w.seq == q && q != 0 && savedAt true w.qix w
    { s with work := modFirst hit Work.restarted s.work }
  | .sessionRecord i => { s with keys := { s.keys with sess := tdel s.keys.sess i } }
  | .detail q =>
    eventX 0x0506 0 (le 6 q ++ le 6 (lineAddr line))
      { s with jrn := { s.jrn with lost := if s.jrn.lost.contains q then s.jrn.lost else s.jrn.lost ++ [q] } }
  | .drawWork id =>
    modDraw id.toNat (fun d => { d with results := if d.results.isSome then (seedOf s d).map fun b => drawResult d.params b else none }) s
  | .firmware => unitFails 0x03 0 s

/-- Uncorrectable lines within the last 3,600 operating seconds, this one included (R327). -/
def badLines (s : State) : List Nat := (s.health.badTimes.filter fun t => s.opsec < t + 3600) ++ [s.opsec]

/-- DRAM_UNCORRECTABLE (R326, R327): an input from the memory engines (R376; notes/assumptions/73.md). -/
def execDramUncorrectable (line : Nat) (reader : LineReader) (s : State) : Host.Outcome State Fault Refusal :=
  if served s then
    let s1 := { s with
      health := { s.health with dramBad := min 65535 (s.health.dramBad + 1), badTimes := badLines s }
      dram := tset s.dram line { tgetD s.dram line {} with bad := true } }
    let s2 := lineEffect line reader (raiseInput id .dramLine (.powerDomain 40) (eventX 0x0A03 0 (le 8 (lineAddr line)) s1))
    .next (settle s (if 16 < (badLines s).length then unitFails 0x03 0 s2 else s2))
  else .next s

/-- A line of a region that holds colour 0 only (R322, R328). -/
def colour0Region (line : Nat) : Bool :=
  line < 0x400000 || (0x500000 ≤ line && line < 0x560000) || (0x2560000 ≤ line && line < 0x4560000)

/-- Lines of DRAM: 6,553 MiB (R25, R332). -/
def dramLines : Nat := 107364352

/-- SCRUB_PERIOD (R328): once a scrub period, corrected lines are rewritten, stray colours recorded. In standby it has paused. -/
def execScrubPeriod (corrected : Nat) (s : State) : Host.Outcome State Fault Refusal :=
  if served s && !s.pwr.standby && s.sched.scrubAt + s.diag.scrubPer ≤ s.opsec then
    let stray := s.dram.filter fun l => colour0Region l.1 && l.2.colour != 0
    let s1 := count 0x42 0 corrected <| count 0x41 0 corrected <| count 0x40 0 dramLines { s with
      sched := { s.sched with scrubAt := s.opsec }
      health := { s.health with dramCorr := min (2 ^ 32 - 1) (s.health.dramCorr + corrected) } }
    .next (settle s (stray.foldl (fun t l => raiseInput id .dramLine (.powerDomain 40) (eventX 0x0A04 (l.2.colour.toNat) (le 8 (lineAddr l.1)) t)) s1))
  else .next s

/-- 8,760 operating hours, in operating seconds (R440). -/
def refreshPeriod : Nat := 31536000

/-- A counter that has not been written for 8,760 operating hours is written once with its own value (R440). -/
def refreshCtr (now w : Nat) (c : Counter) : Counter :=
  if c.lost || decide (now < c.wrote + refreshPeriod) then c else c.write w c.live now

/-- MRAM_REFRESH (R440): once every 8,760 operating hours, and not while DEGRADED, the retained pages are read, corrected and written again with
the content they have, and idle counters with their value. How many words have one bit in error is open, and they are counted (R31, R420). -/
def execMramRefresh (s : State) : Host.Outcome State Fault Refusal :=
  if served s && !s.pwr.degraded && s.nv.refreshAt + refreshPeriod ≤ s.opsec then
    .next { s with
      nv := { s.nv with refreshAt := s.opsec, ctrs := s.nv.ctrs.map fun e => (e.1, refreshCtr s.opsec (ctrWidth e.1) e.2) }
      health := { s.health with mramCorr := min 65535 (s.health.mramCorr + Config.freeNat s.free) }
      free := s.free + 1 }
  else .next s

end Sys2Proof.Machine
end

