-- ==== Sys2Proof/Machine/Packages.lean ====
section
/-! DEFINITION. Packages that a mailbox delivers in chunks (R302, R361). -/

namespace Sys2Proof.Machine

/-- The package bytes that a mailbox has received for an opcode. -/
def pkgOf (op : Nat) (r : Req) (s : State) : Bytes :=
  let m := mbxOf s r.fn r.mbx
  if m.pkgOp = op then m.pkg else []

/-- The mailbox's partial package is replaced. -/
def setPkg (op : Nat) (r : Req) (b : Bytes) (s : State) : State :=
  modMbx r.fn r.mbx (fun m => { m with pkg := b, pkgOp := if b = [] then 0 else op, pkgOpsec := s.opsec }) s

/-- The mailbox's partial package is discarded. -/
def dropPkg (r : Req) (s : State) : State := setPkg 0 r [] s

/-- The fields that the length of a chunk request follows from, MODE and CHUNK: the first one outside its range, as an offset in the request (R123,
R302). -/
def chunkRange (r : Req) : Option Nat :=
  let c := fld r 8 4
  firstBad [(decide (4 ≤ fld r 0 4), 16), (c == 0 || decide ((if bit (fld r 0 4) 0 then 8192 else 4056) < c), 24)]

/-- The other fields of a chunk request (R302). `have_` is what has been received. -/
def chunkBad (r : Req) (have_ : Nat) : Option Nat :=
  firstBad [(fld r 4 4 != 0 && fld r 4 4 != have_, 20), (fld r 12 4 != 0, 28), (!bit (fld r 0 4) 0 && fld r 16 8 != 0, 32)]

/-- A chunk: judged, read, appended; the final one runs the command on the whole package (R302, R361). `limit` is the longest
package. -/
def chunkRun (op limit : Nat) (final : Bytes → State → Reply) (r : Req) (s : State) : Reply :=
  let dma := bit (fld r 0 4) 0
  let off := fld r 4 4
  let c := fld r 8 4
  let need := if dma then 24 else 24 + c
  if r.body.length < 24 then .refuse s stMalformed (lenDetail r 24)
  else match chunkRange r with
    | some o => .refuse s stMalformed o
    | none =>
      if r.body.length ≠ need then .refuse s stMalformed (lenDetail r need)
      else match chunkBad r (pkgOf op r s).length with
        | some o => .refuse (if o = 20 then dropPkg r s else s) stMalformed o
        | none =>
          if dma && r.path != .pcie then .refuse s stUnsupported 0
          else if limit < off + c then .refuse s stLenLimit 0
          else
            let got := if dma then dmaRead r (fld r 16 8) c s else (some (r.body.drop 24), s)
            match got.1 with
            | none => .refuse got.2 (dmaStatus r false (fld r 16 8) c s) 0
            | some b =>
              let whole := (if off = 0 then [] else pkgOf op r s) ++ b
              if bit (fld r 0 4) 1 then final whole (dropPkg r got.2)
              else .done (setPkg op r whole got.2) stOk 0 []

/-- A field of a package, of `n` bytes at `off`, is there and is wrong. -/
def pkgBad (p : Bytes) (off n : Nat) (bad : Bool) : Bool × Nat := (decide (off + n ≤ p.length) && bad, off)

end Sys2Proof.Machine
end

