-- ==== Sys2Proof/Machine/LifeCycle.lean ====
section
/-! DEFINITION. Life-cycle requests, role keys and OTP burns (R348 to R365). -/

namespace Sys2Proof.Machine

/-! Signed requests. -/

/-- Set bits of a small mask. -/
def setBits (m : Nat) : Nat := ((List.range 8).filter fun i => bit m i).length

/-- The signature blocks that follow a signed range of `n` bytes, in bit order of SIGNERS (R362). -/
def sigBlock (p : Bytes) (n i : Nat) : Bytes := slice p (n + 5457 * i) 5457

/-- The position of signer `b` among the SIGNERS bits. -/
def sigPos (signers b : Nat) : Nat := ((List.range b).filter fun i => bit signers i).length

/-- Every signature of a package verifies under the key of its signer: `key b` is the digest for SIGNERS bit `b` (R363 step 4). -/
def allSigned (p : Bytes) (n signers : Nat) (key : Nat → Option (BitVec 384)) : Bool :=
  [0, 1, 2, 3].all fun b =>
    !bit signers b ||
      (let blk := sigBlock p n (sigPos signers b)
       key b == some (blockDigest blk) && blockVerify blk (p.take n))

/-- Draws that keep a change away: COMMITTED, RESULTED or ISSUING (R352, R367). -/
def drawsHeld (s : State) : Bool :=
  s.nv.draws.any fun d => d.st == .committed || d.st == .resulted || d.st == .issuing

/-! Request packages (R362). -/

/-- Role keys that follow the header. -/
def lcKeys (p : Bytes) : Nat := setBits (num p 104 1 % 4)

/-- Bytes that every signature covers. -/
def lcSigned (p : Bytes) : Nat := 128 + 2052 * lcKeys p

/-- The role key of the package: role 1 OPERATOR, 2 SUPERVISOR. -/
def lcNewKey (p : Bytes) (role : Nat) : Option Bytes :=
  if bit (num p 104 1) (role - 1) then
    some (slice p (128 + (if role = 2 ∧ bit (num p 104 1) 0 then 2052 else 0)) 2052)
  else none

/-- The digest of the unendorsed SET 0 body (R351). -/
def identityDigest (s : State) : Bytes := h384 (sha384 ((deviceSet s 0).getD []))

/-- A transition from PROVISION to CERTIFY or FIELD carries IDENTITY_DIGEST (R351). -/
def needsIdentity (p : Bytes) : Bool := num p 4 1 == 1 && num p 5 1 == 2 && (num p 6 1 == 3 || num p 6 1 == 4)

/-- The POLICY bytes are wrong: not zero without BURN[1], not allowed, or not what is burnt already (R362, R385). -/
def policyBad (s : State) (p : Bytes) : Bool :=
  let v := num p 108 7
  if bit (num p 105 1) 1 then !policyAllowed v || (policyWord s != 0 && policyWord s % 2 ^ 56 != v) else v != 0

/-- The form of a request for ACTION 1 (`flag` false) or 2 and 3 (`flag` true): DETAIL (R362, R363 step 1). -/
def lcFormBad (s : State) (flag : Bool) (p : Bytes) : Option Nat :=
  let act := num p 4 1
  let actBad := if flag then act != 2 && act != 3 else act != 1
  let toBad := (act == 2 && num p 6 1 != 1) || (act == 3 && num p 6 1 != 1 && num p 6 1 != 2)
  let idBad := if needsIdentity p then slice p 56 48 != identityDigest s else !allZero (slice p 56 48)
  let burnBad := decide (4 ≤ num p 105 1) || (!(act == 1 && num p 6 1 == 4) && num p 105 1 != 0)
  let need := lcSigned p + 5457 * setBits (num p 7 1 % 16)
  firstBad [pkgBad p 0 4 (num p 0 4 != 0x524C4C46), pkgBad p 4 1 actBad, pkgBad p 5 1 (num p 5 1 != lcCode s.lc), pkgBad p 6 1 toBad,
    pkgBad p 7 1 (decide (16 ≤ num p 7 1)), pkgBad p 8 16 (slice p 8 16 != unitIdBytes), pkgBad p 56 48 idBad,
    pkgBad p 104 1 (decide (4 ≤ num p 104 1)), pkgBad p 105 1 burnBad, pkgBad p 106 2 (num p 106 2 != 0),
    pkgBad p 108 7 (policyBad s p), pkgBad p 115 13 (!allZero (slice p 115 13)), (p.length != need, min p.length need)]

/-! What is permitted, and by whom. SIGNERS masks: 1 VENDOR, 2 OPERATOR, 4 SUPERVISOR, 8 NEW. -/

/-- The signers of a transition between the states of R348 (R351). -/
def transitionSigners (fromC toC : Nat) : Option Nat :=
  match fromC, toC with
  | 0, 1 => some 1
  | 0, 2 | 1, 2 => some 3
  | 2, 3 => some 6
  | 2, 4 | 3, 4 => some 6
  | 2, 5 | 3, 5 => some 2
  | 4, 5 => some 6
  | 0, 6 | 1, 6 | 5, 6 => some 1
  | 2, 6 | 3, 6 => some 2
  | 4, 6 => some 6
  | _, _ => none

/-- The signers of a transition out of a condition, from the state beneath (R351). -/
def conditionSigners (lost : Bool) (beneath toC : Nat) : Option Nat :=
  if toC = 6 then transitionSigners beneath 6
  else if toC = 5 ∧ !lost then (if beneath ≤ 1 then some 1 else transitionSigners beneath 5)
  else none

/-- The role whose key a transition installs (R351): 0 none. -/
def installs (toC : Nat) : Nat := if toC = 2 then 1 else if toC = 3 ∨ toC = 4 then 2 else 0

/-- A role key may be installed by a transition: none is in force, and a slot is blank (R354, R355). -/
def mayInstall (s : State) (role : Nat) : Bool := (roleSlot s role).isNone && (roleFree s role).isSome

/-- The signers that a permitted transition needs; none where it is not permitted (R351, R363 step 2). -/
def transitionPermit (s : State) (p : Bytes) : Option Nat :=
  let t := num p 6 1
  let role := installs t
  let keysOk :=
    if num p 104 1 = 0 then role == 0 || (roleSlot s role).isSome
    else role != 0 && num p 104 1 == role && mayInstall s role
  if !keysOk then none
  else match s.lc with
    | .lost => conditionSigners true (lcCode s.beneath) t
    | .tampered => conditionSigners false (lcCode s.beneath) t
    | x => transitionSigners (lcCode x) t

/-- The signers that a permitted flag burn or role key needs (R355, R362, R80). -/
def flagPermit (s : State) (p : Bytes) : Option Nat :=
  let code := lcCode s.lc
  if num p 4 1 = 2 then
    (if code = 3 ∧ num p 104 1 = 0 ∧ (roleSlot s 2).isSome then some 4 else none)
  else
    let role := num p 6 1
    if num p 104 1 ≠ role ∨ (roleFree s role).isNone then none
    else if role = 1 then
      (if (roleSlot s 1).isNone then (if code = 1 ∨ code = 2 then some 9 else none)
       else if 2 ≤ code ∧ code ≤ 4 then some (10 + (if (roleSlot s 2).isSome then 4 else 0)) else none)
    else if (roleSlot s 2).isNone then (if code = 2 ∨ code = 3 then some 10 else none)
    else if code = 3 ∨ code = 4 then some 12 else none

/-- The key under which a signer's block verifies: the one in force, or the one being installed (R351, R355, R363 step 4). -/
def signerKey (s : State) (p : Bytes) (b : Nat) : Option (BitVec 384) :=
  let new := fun role => (lcNewKey p role).map sha384
  match b with
  | 0 => roleDigest s 0
  | 3 => new (num p 6 1)
  | b => if num p 4 1 = 1 ∧ (lcNewKey p b).isSome then new b else roleDigest s b

/-! Burns (R357). -/

/-- A role key's digest and check word go into a slot. -/
def burnRole (role slot : Nat) (key : Bytes) (s : State) : State :=
  let d := h384 (sha384 key)
  let w := roleWord role slot
  burn (w + 6) (digestCheck d) ((List.range 6).foldl (fun t i => burn (w + i) (BitVec.ofNat 64 (num d (8 * i) 8)) t) s)

/-- The role keys of a package go into the lowest blank slots (R354). -/
def burnRoles (p : Bytes) (s : State) : State :=
  [1, 2].foldl (fun t role =>
    match lcNewKey p role, roleFree t role with
    | some key, some slot => burnRole role slot key t
    | _, _ => t) s

/-- The policy word (R356). -/
def burnPolicy (p : Bytes) (s : State) : State :=
  if bit (num p 105 1) 1 then burn 107 (BitVec.ofNat 64 (num p 108 7 + 2 ^ 56 * policyCheck (num p 108 7))) s else s

/-- The FL0 groups that BURN names, in one word burn. -/
def burnFlags (b : Nat) (s : State) : State :=
  if b = 0 then s
  else burn 98 ((if bit b 0 then groupMask 0 else 0) ||| (if bit b 1 then groupMask 1 else 0)) s

/-- The burns of a transition, in their order: intent, role slot, policy, flags, target group (R357). -/
def burnTransition (p : Bytes) (s : State) : State :=
  let t := num p 6 1
  let g := groupOf t
  burn g.1 (groupMask g.2) (burnFlags (num p 105 1) (burnPolicy p (burnRoles p (burn (intentWord t) (intentValue (lcCode s.lc) t) s))))

/-- The burns of a flag or a role key: they take effect at once (R363). -/
def burnRequest (p : Bytes) (s : State) : State := if num p 4 1 = 2 then burnFlags 1 s else burnRoles p s

/-! The commands. -/

/-- The LC_REQUEST body (R364). -/
def lcRequestBody (p : Bytes) : Bytes :=
  slice p 4 4 ++ slice p 104 2 ++ zeros 2 ++ h384 (sha384 (p.take (lcSigned p)))

/-- The 16-byte response body (R363). -/
def lcBody (toC seq : Nat) : Bytes := le 1 toC ++ zeros 7 ++ le 6 seq ++ zeros 2

/-- The refusals of R352: status and DETAIL. A target of SCRAP is refused by none of them. -/
def transitionRefusal (s : State) (toC : Nat) : Option (Nat × Nat) :=
  if toC = 6 then none
  else if drawsHeld s then some (stBusyOwned, 0)
  else if s.pwr.degraded then some (stUnsupported, 4)
  else entryRefusal false s

/-- The challenge is checked, SIGNERS is exactly what is required, and every signature verifies (R363 step 4). -/
def lcAuthority (s : State) (p : Bytes) (need : Nat) : Bool :=
  challengeIs s (slice p 24 32) && num p 7 1 == need && allSigned p (lcSigned p) need (signerKey s p)

/-- The LC_REQUEST entry, where one is written; a transition to SCRAP goes on without it where it is not admitted, or in LOST
(R352, R371). -/
def recordRequest (p : Bytes) (scrap : Bool) (s : State) : Nat × State :=
  if scrap && (s.lc == .lost || (entryRefusal false s).isSome) then (0, s)
  else (entrySeq s, journalEntry 0x38 false (lcRequestBody p) s)

/-- LC_TRANSITION on a whole package (R363). -/
def transitionFinal (p : Bytes) (s : State) : Reply :=
  let t := num p 6 1
  match lcFormBad s false p with
  | some off => .refuse s stMalformed off
  | none =>
    match transitionPermit s p with
    | none => .refuse s stUnsupported 0
    | some need =>
      match transitionRefusal s t with
      | some (st, det) => .refuse s st det
      | none =>
        let s1 := consumeChallenge s
        if !lcAuthority s p need then .refuse s1 stAuthFail 0
        else
          let r := recordRequest p (t == 6) s1
          if s.pwr.vhold < 10000 then .refuse r.2 stUnsupported 4
          else .done { burnTransition p r.2 with lcResetDue := true } stOk 0 (lcBody t r.1)

/-- LC_FLAG_BURN on a whole package (R363). -/
def flagFinal (p : Bytes) (s : State) : Reply :=
  match lcFormBad s true p with
  | some off => .refuse s stMalformed off
  | none =>
    match flagPermit s p with
    | none => .refuse s stUnsupported 0
    | some need =>
      match entryRefusal false s with
      | some (st, det) => .refuse s st det
      | none =>
        let s1 := consumeChallenge s
        if !lcAuthority s p need then .refuse s1 stAuthFail 0
        else
          let r := recordRequest p false s1
          .done (burnRequest p r.2) stOk 0 (lcBody (num p 6 1) r.1)

/-- LC_TRANSITION's own steps: in LOST and TAMPERED only to the targets of R351. -/
def lcTransitionRun (r : Req) (s : State) : Reply := chunkRun 0x0702 32768 transitionFinal r s

/-- LC_TRANSITION (R351, R361, R363). -/
def execLcTransition (r : Req) (s : State) : Host.Outcome State Fault Refusal :=
  .next (command (.lcTransition r) 0x0702 r none (lcTransitionRun r) s)

/-- LC_FLAG_BURN (R355, R361, R363). -/
def execLcFlagBurn (r : Req) (s : State) : Host.Outcome State Fault Refusal :=
  .next (command (.lcFlagBurn r) 0x0703 r none (chunkRun 0x0703 32768 flagFinal r) s)

/-- LC_RESET (R352): 1 ms after the last burn the Asaskac resets as by nRESET. -/
def execLcReset (s : State) : Host.Outcome State Fault Refusal :=
  if powered s && s.lcResetDue then .next (beginReset false s) else .next s

/-- The digest of a role key, or zero. -/
def roleBytes (s : State) (role : Nat) : Bytes :=
  match roleDigest s role with
  | some d => h384 d
  | none => zeros 48

/-- The groups in the order of LC_STATUS (R365). -/
def lcGroups : List (Nat × Nat) := [(96, 0), (96, 1), (96, 2), (96, 3), (97, 0), (97, 1), (97, 2), (98, 0), (98, 1)]

/-- The RIGHTS in force (R365, R370). -/
def rightsNow (s : State) : Nat := (s.dbg.cert.map fun c => c.rights.toNat).getD 0

/-- The LC_STATUS body (R365). -/
def lcStatusBody (s : State) : Bytes :=
  le 1 (lcCode s.lc)
    ++ le 1 (b2n (12 ≤ otpGroup s 97 2) + 2 * b2n (countersignRequired s) + 4 * b2n (policyLock s) + 8 * b2n s.keys.testRoot
        + 16 * b2n s.dbg.cert.isSome)
    ++ zeros 2 ++ lcGroups.map (fun g => BitVec.ofNat 8 (otpGroup s g.1 g.2)) ++ zeros 3 ++ le 8 (policyWord s)
    ++ le 1 s.keys.rootSlot ++ le 1 ((roleSlot s 1).getD 255) ++ le 1 ((roleSlot s 2).getD 255) ++ zeros 1 ++ le 4 (rightsNow s)
    ++ roleBytes s 0 ++ roleBytes s 1 ++ roleBytes s 2 ++ le 8 ((s.dbg.cert.map fun c => c.serial.toNat).getD 0) ++ zeros 8

/-- LC_STATUS (R365). -/
def execLcStatus (r : Req) (s : State) : Host.Outcome State Fault Refusal :=
  .next (command (.lcStatus r) 0x0701 r (some 0) (fun s => .done s stOk 0 (lcStatusBody s)) s)

end Sys2Proof.Machine
end

