-- ==== Sys2Proof/Machine/Debug.lean ====
section
/-! DEFINITION. Debug certificates and the TAP (R346, R366 to R370). -/

namespace Sys2Proof.Machine

/-! Certificates. -/

/-- DBG_HALT, DBG_MEM_WRITE or DBG_SCAN is among the rights (R367). -/
def invasive (rights : Nat) : Bool := bit rights 0 || bit rights 2 || bit rights 4

/-- A range of a certificate is wrong: the offset within it (R366, R367). -/
def rangeFieldBad (rights : Nat) (b : Bytes) : Option Nat :=
  let rw := num b 16 2
  firstBad [(num b 0 8 % 32 != 0, 0), (num b 8 8 % 32 != 0 || decide (num b 8 8 < num b 0 8), 8),
    (rw / 2 ^ 8 != 0 || rw % 64 != 0 || (bit rw 6 && !(bit rights 1 || bit rights 5)) || (bit rw 7 && !bit rights 2), 16),
    (num b 18 2 != 0, 18), (num b 20 2 != 1, 20), (!allZero (slice b 22 10), 22)]

/-- Bytes that the signatures of a certificate cover (R366). -/
def certSigned (p : Bytes) : Nat := 64 + 32 * num p 31 1

/-- The form of a certificate: DETAIL (R363 step 1, R366, R367). -/
def dbgCertBad (p : Bytes) : Option Nat :=
  let rights := num p 24 4
  let need := certSigned p + 5457 * setBits (num p 30 1 % 8)
  let ranges := (List.range (num p 31 1)).findSome? fun i =>
    if 64 + 32 * i + 32 ≤ p.length then (rangeFieldBad rights (slice p (64 + 32 * i) 32)).map fun o => 64 + 32 * i + o else none
  match firstBad [pkgBad p 0 4 (num p 0 4 != 0x42444C46), pkgBad p 4 2 (num p 4 2 != 1), pkgBad p 6 2 (num p 6 2 != 0),
      pkgBad p 8 16 (slice p 8 16 != unitIdBytes), pkgBad p 24 4 (decide (256 ≤ rights)), pkgBad p 28 2 (decide (64 ≤ num p 28 2)),
      pkgBad p 30 1 (decide (8 ≤ num p 30 1)), pkgBad p 31 1 (decide (16 < num p 31 1)), pkgBad p 40 8 (decide (2 ^ 40 ≤ num p 40 8)),
      pkgBad p 56 8 (num p 56 8 != 0)] with
  | some o => some o
  | none =>
    match ranges with
    | some o => some o
    | none => if p.length = need then none else some (min p.length need)

/-- The signers of a state, and the longest window from load: operating hours and power cycles (R368). -/
def certRule (s : State) (rights : Nat) : Option (Nat × Nat × Nat) :=
  match s.lc with
  | .raw | .test => if bit rights 5 then none else some (1, 8760, 1000)
  | .provision | .certify => if bit rights 5 then none else some (2, 8760, 1000)
  | .field => if bit rights 5 then none else some (6, 72, 16)
  | .retn => some (if bit rights 5 then 5 else 1, 8760, 1000)
  | _ => none

/-- The certificate is valid here and now, and its window is not too long (R368): the signers it needs. -/
def certPermit (s : State) (p : Bytes) : Option Nat :=
  let first := num p 32 4
  let last := num p 36 4
  let ops := num p 40 8
  match certRule s (num p 24 4) with
  | none => none
  | some (signers, hours, cycles) =>
    if bit (num p 28 2) (lcCode s.lc) && decide (first ≤ s.pwrCyc) && decide (s.pwrCyc ≤ last) && decide (s.opsec ≤ ops)
        && decide (ops - s.opsec ≤ 3600 * hours) && decide (last - s.pwrCyc ≤ cycles) then some signers
    else none

/-- The DBG_CERT body (R364). -/
def certEntry (p : Bytes) : Bytes :=
  slice p 24 4 ++ slice p 30 2 ++ zeros 2 ++ slice p 48 8 ++ slice p 32 8 ++ slice p 40 8 ++ h384 (sha384 (p.take (certSigned p)))

/-- The certificate comes into force: the old one is replaced, G_DBG is written, the epoch advances, the entry is written, and an
invasive right brings the test root into force (R317, R318, R367, R369). -/
def acceptCert (p : Bytes) (s : State) : State :=
  let c : Cert := { rights := BitVec.ofNat 32 (num p 24 4), opsecLast := num p 40 8, serial := BitVec.ofNat 64 (num p 48 8) }
  let es := (List.range (num p 31 1)).map fun i => (i, entryFrom (slice p (64 + 32 * i) 32))
  let s1 := endDebug 3 s
  let s2 := journalEntry 0x3A false (certEntry p) (bumpEpoch (setGate gDbg es { s1 with dbg := { s1.dbg with cert := some c } }))
  if invasive (num p 24 4) then toTestRoot s2 else s2

/-- What a certificate package ends in: none when it is accepted, otherwise status and DETAIL (R367 to R369). -/
def certRefusal (p : Bytes) (s : State) : Option (Nat × Nat) :=
  match dbgCertBad p with
  | some off => some (stMalformed, off)
  | none =>
    match certPermit s p with
    | none => some (stUnsupported, 0)
    | some need =>
      if invasive (num p 24 4) && drawsHeld s then some (stBusyOwned, 0)
      else match entryRefusal false s with
        | some e => some e
        | none =>
          if num p 30 1 == need && allSigned p (certSigned p) need (roleDigest s) then none else some (stAuthFail, 0)

/-- DBG_CERT_LOAD on a whole package (R369). -/
def certFinal (p : Bytes) (s : State) : Reply :=
  match certRefusal p s with
  | some (st, det) => .refuse s st det
  | none =>
    let t := acceptCert p s
    .done t stOk 0 (slice p 24 4 ++ zeros 4 ++ le 8 t.epoch)

/-- The form of a request with REVOKE set: MODE and CHUNK, from which its length follows, then the length, then the other fields (R123, R369). -/
def revokeBad (r : Req) : Option Nat :=
  match firstBad [(fld r 0 4 != 6, 16), (fld r 8 4 != 0, 24)] with
  | some off => some off
  | none =>
    if r.body.length ≠ 24 then some (lenDetail r 24)
    else firstBad [(fld r 4 4 != 0, 20), (fld r 12 4 != 0, 28), (fld r 16 8 != 0, 32)]

/-- DBG_CERT_LOAD's own steps (R361, R369). -/
def dbgCertLoadRun (r : Req) (s : State) : Reply :=
  if 24 ≤ r.body.length ∧ bit (fld r 0 4) 2 then
    match revokeBad r with
    | some off => .refuse s stMalformed off
    | none => .done (endDebug 2 (dropPkg r s)) stOk 0 []
  else chunkRun 0x0704 32768 certFinal r s

/-- DBG_CERT_LOAD (R369). -/
def execDbgCertLoad (r : Req) (s : State) : Host.Outcome State Fault Refusal :=
  .next (command (.dbgCertLoad r) 0x0704 r none (dbgCertLoadRun r) s)

/-- DBG_RIGHTS_EXPIRY (R369). -/
def execDbgRightsExpiry (s : State) : Host.Outcome State Fault Refusal :=
  match s.dbg.cert with
  | some c => if c.opsecLast < s.opsec then .next (settle s (endDebug 1 s)) else .next s
  | none => .next s

/-! The TAP (R370). -/

/-- The TAP answers: its pins are on VDDIO_GEN, PD78 is on while powered, and no reset is in force but the one that EXTEST holds (R36, R48, R60,
R367). -/
def tapOn (s : State) : Bool :=
  s.pwr.ioGen && !s.pwr.porLow && !s.pwr.resetLow
    && (match s.pwr.phase with
        | .off | .flushPower => false
        | .held | .flushReset => s.pwr.tapHold
        | _ => true)

/-- Some right of a mask is in force (R367, R370). -/
def hasRight (s : State) (mask : Nat) : Bool := (List.range 8).any fun i => bit mask i && bit (rightsNow s) i

/-- EXTEST no longer holds reset: the start becomes due unless a pin is low (R60, R367). -/
def leaveExtest (s : State) : State :=
  if s.pwr.tapHold then
    let p := { s.pwr with tapHold := false }
    { s with pwr := if s.pwr.phase = .held then dueOrHeld p else p }
  else s

/-- An instruction is selected. -/
def selectIr (code : Nat) (s : State) : State :=
  let t := leaveExtest s
  { t with dbg := { t.dbg with ir := BitVec.ofNat 8 code } }

/-- Bytes are shifted out of the selected data register. -/
def shiftOut (b : Bytes) (s : State) : State := { s with out := s.out ++ [.tdo b] }

/-- An instruction whose right is not in force selects BYPASS and sets RIGHT_ERR (R370). -/
def selectBypassErr (s : State) : State :=
  let t := selectIr 0xFF s
  { t with dbg := { t.dbg with rightErr := true } }

/-- An instruction that needs some right of a mask. -/
def withRight (mask code : Nat) (run : State → State) (s : State) : State :=
  if !tapOn s then s
  else if hasRight s mask then run (selectIr code s)
  else selectBypassErr s

/-- TAP_RESET (R36, R370): Test-Logic-Reset selects IDCODE. -/
def execTapReset (s : State) : Host.Outcome State Fault Refusal := if tapOn s then .next (selectIr 1 s) else .next s

/-- EXTEST (R60, R367): the reset sequence starts, and reset is held until another instruction is selected. -/
def execExtest (s : State) : Host.Outcome State Fault Refusal :=
  if !tapOn s then .next s
  else if hasRight s 0x40 then
    let t := beginReset false (settle s (selectIr 0 s))
    .next { t with pwr := { t.pwr with tapHold := true }, dbg := { t.dbg with ir := 0 } }
  else .next (selectBypassErr s)

/-- IDCODE (R370). -/
def idcodeValue : Nat := 1 + 2 * 0x2B5 + 2 ^ 12 * 0x9412 + 2 ^ 28 * (Config.dieRev.toNat % 16)

/-- IDCODE (R370). -/
def execIdcode (s : State) : Host.Outcome State Fault Refusal :=
  if tapOn s then .next (shiftOut (le 4 idcodeValue) (selectIr 1 s)) else .next s

/-- SAMPLE/PRELOAD (R370): the cells are preloaded; what they sampled is open. -/
def execSamplePreload (cells : BitVec 128) (s : State) : Host.Outcome State Fault Refusal :=
  if tapOn s then
    let t := selectIr 2 s
    .next (shiftOut (openBytes s.free 16) (drew { t with dbg := { t.dbg with bscan := cells } }))
  else .next s

/-- The DBG_STATUS register (R370). -/
def dbgStatusValue (s : State) : Nat :=
  lcCode s.lc + 16 * b2n s.dbg.cert.isSome + 32 * b2n s.keys.testRoot + 64 * b2n s.dbg.gateErr + 128 * b2n s.dbg.rightErr
    + 256 * b2n s.dbg.halted + 2 ^ 16 * (rightsNow s % 256) + 2 ^ 24 * s.dbg.loadResult.toNat

/-- DBG_STATUS (R370): the value is shifted out, and an Update-DR clears the sticky bits shifted in as 1. -/
def execDbgStatus (update : BitVec 32) (s : State) : Host.Outcome State Fault Refusal :=
  if tapOn s then
    let t := shiftOut (le 4 (dbgStatusValue s)) (selectIr 0x10 s)
    .next { t with dbg := { t.dbg with
      gateErr := t.dbg.gateErr && !update.getLsbD 6, rightErr := t.dbg.rightErr && !update.getLsbD 7 } }
  else .next s

/-- LOAD_RESULT of a refusal (R370): 2 form, 3 unit, 4 state or window, 5 signature, 6 busy. `unit` says that the package holds a UNIT_ID. -/
def loadResult (unit : Bool) (st det : Nat) : Nat :=
  if st = stMalformed then (if unit ∧ det = 8 then 3 else 2)
  else if st = stAuthFail then 5
  else if st = stUnsupported ∧ det = 0 then 4
  else 6

/-- DBG_LOAD (R369, R370): judged as DBG_CERT_LOAD judges the same package, once firmware serves and where that command is served. -/
def execDbgLoad (package : Bytes) (s : State) : Host.Outcome State Fault Refusal :=
  if !tapOn s then .next s
  else
    let s1 := selectIr 0x11 s
    let put := fun (n : Nat) (t : State) => { t with dbg := { t.dbg with loadResult := BitVec.ofNat 4 n } }
    if !mailboxUp s || (modeRefusal 0x0704 s).isSome then .next (put 4 s1)
    else if 32768 < package.length then .next (put 2 s1)
    else match certRefusal package s1 with
      | some (st, det) => .next (put (loadResult (decide (24 ≤ package.length)) st det) s1)
      | none => .next (settle s (put 1 (acceptCert package s1)))

/-! Debug memory accesses (R346). -/

/-- Regions that no debug access reaches, or that no master maps (R322): the key records, the wrapped key records, the reserve, and
everything unmapped. -/
def privateAddr (a : Nat) : Bool :=
  let within := fun (lo hi : Nat) => decide (lo ≤ a) && decide (a ≤ hi)
  let mapped := within 0 0xFFFFFFF || within 0x40000000 0x401FFFFF || within 0x80000000 0x863FFFFF || within 0x86800000 0x87D3FFFF
    || within 0x100000000 0x113FFFFFF || within 0x115800000 0x2998FFFFF
  !mapped

/-- The access touches a locked entry of a gate in internal space (R346). -/
def inLockSet (s : State) (a : Acc) : Bool :=
  s.gates.any fun g => g.ents.any fun e => e.2.lock && !e.2.host && decide (e.2.start.toNat ≤ a.last) && decide (a.first ≤ e.2.last)

/-- DRAM lines that an access touches. -/
def linesOf (a : Acc) : List Nat :=
  if a.last < 2 ^ 32 then []
  else (List.range ((a.last - 2 ^ 32) / 64 + 1 - (a.first - 2 ^ 32) / 64)).map fun i => (a.first - 2 ^ 32) / 64 + i

/-- The access covers a line whole (R330). -/
def Acc.wholeLine (a : Acc) (l : Nat) : Bool := decide (a.first ≤ 2 ^ 32 + 64 * l) && decide (2 ^ 32 + 64 * l + 63 ≤ a.last)

/-- The verdict on a debug access: kind and entry of its fault (R346). A partial write reads its line first (R330). -/
def judgeDebug (s : State) (a : Acc) : Option (Nat × Nat) :=
  let colour := fun (l : Nat) => (tgetD s.dram l {}).colour
  if privateAddr a.first || privateAddr a.last then some (kPrivate, 255)
  else if inLockSet s a && !(a.kind == 0 && bit (rightsNow s) 5 && s.lc == .retn) then some (kLocked, 255)
  else match judge gDbg (gateOf s gDbg) a with
    | some f => some f
    | none =>
      if (linesOf a).any fun l => colour l != 0 && !(a.kind == 1 && a.wholeLine l) then
        some (kColourLine, 255)
      else none

/-- A page of the meter store: 124 meter words and the seal with its write count and CRC-32 (R392). -/
def meterPage (s : State) (p : Nat) : Bytes :=
  let b := mreads s.nv.meter (256 * p) pagePayload
  b ++ le 4 (tgetD s.nv.meterCnt p 0) ++ le 4 (crc32 b).toNat

/-- The byte that an address holds: DRAM lines, of which an uncorrectable one gives nothing (R326), ring pages, firmware slots and the meter
store; what other regions hold byte by byte is open. -/
def debugByte (s : State) (a : Nat) : Byte :=
  if 2 ^ 32 ≤ a then
    let l := tgetD s.dram ((a - 2 ^ 32) / 64) {}
    if l.bad then 0 else l.data.getD (a % 64) 0
  else if 0x80000000 ≤ a ∧ a < 0x86000000 then (pageAt s ((a - 0x80000000) / 256)).bytes.getD (a % 256) 0
  else if 0x86C00000 ≤ a ∧ a < 0x87400000 then mread s.nv.fwA (a - 0x86C00000)
  else if 0x87400000 ≤ a ∧ a < 0x87C00000 then mread s.nv.fwB (a - 0x87400000)
  else if 0x87C00000 ≤ a ∧ a < 0x87C40000 then (meterPage s ((a - 0x87C00000) / 256)).getD (a % 256) 0
  else (Config.freeValue (s.free * 4096 + a)).setWidth 8

/-- One byte is written to DRAM, at colour 0. A line that does not read takes no part of a line (R326, R330). -/
def debugWriteByte (t : Tab Line) (a : Nat) (b : Byte) : Tab Line :=
  if 2 ^ 32 ≤ a then
    let l := (a - 2 ^ 32) / 64
    let x : Line := tgetD t l {}
    if x.bad then t else tset t l { x with data := x.data.set (a % 64) b, colour := 0 }
  else t

/-- Lines that an access writes whole lose what they held (R326, R330). -/
def freshLines (a : Acc) (t : Tab Line) : Tab Line :=
  (linesOf a).foldl (fun t l => if a.wholeLine l then tdel t l else t) t

/-- Bytes are written from an address on. -/
def debugWrite (t : Tab Line) (a : Nat) : Bytes → Tab Line
  | [] => t
  | b :: bs => debugWrite (debugWriteByte t a b) (a + 1) bs

/-- A debug access faults: GATE_ERR, a record in G_DBG's ring, DBG_DENIED, a T1 input; a read returns zeros (R346). -/
def debugDenied (a : Acc) (kind entry n : Nat) (s : State) : State :=
  let f : GateFault := ⟨gDbg, a, kind, entry⟩
  let s1 := quietFault gDbg <| eventX 0x0701 kind (le 8 a.first) <| count 0x50 0 1 <| count 0x43 0 (b2n (kind == kColourLine))
    { s with gates := modAt s.gates gDbg (Gate.note (f.record s.opsec)), dbg := { s.dbg with gateErr := true } }
  if a.kind = 0 then shiftOut (zeros n) s1 else s1

/-- A debug memory access (R346). The length of a read is that of `data`. -/
def debugAccess (write : Bool) (addr : Nat) (data : Bytes) (s : State) : State :=
  if data = [] then s
  else
    let a : Acc := { host := false, first := addr, last := addr + data.length - 1, kind := if write then 1 else 0, level := 2, colour := 0 }
    match judgeDebug s a with
    | some (kind, entry) => debugDenied a kind entry data.length s
    | none =>
      if write then { s with dram := debugWrite (freshLines a s.dram) addr data }
      else drew (shiftOut ((List.range data.length).map fun i => debugByte s (addr + i)) s)

/-- DBG_MEM (R346, R370). -/
def execDbgMem (write : Bool) (addr : BitVec 64) (data : Bytes) (s : State) : Host.Outcome State Fault Refusal :=
  .next (withRight 0x26 0x12 (fun t => settle s (debugAccess write addr.toNat data t)) s)

/-- One core operation under DBG_HALT (R367). A register that the debugger has not written reads as an open value. -/
def coreStep (op : CoreOp) (s : State) : State :=
  match op with
  | .halt => { s with dbg := { s.dbg with halted := true } }
  | .step => s
  | .resume => { s with dbg := { s.dbg with halted := false } }
  | .readReg n => drew (shiftOut (le 8 (tgetD s.dbg.coreRegs n (Config.freeValue s.free)).toNat) s)
  | .writeReg n v => { s with dbg := { s.dbg with coreRegs := tset s.dbg.coreRegs n v } }

/-- DBG_CORE (R367, R370). -/
def execDbgCore (op : CoreOp) (s : State) : Host.Outcome State Fault Refusal := .next (withRight 0x01 0x13 (coreStep op) s)

/-- DBG_TRACE (R367, R370): what the trace holds is open. -/
def execDbgTrace (s : State) : Host.Outcome State Fault Refusal :=
  .next (withRight 0x08 0x14 (fun t => drew (shiftOut (openBytes t.free 8) t)) s)

/-- A root-slot word (R356). -/
def rootWord (w : Nat) : Bool := decide (32 ≤ w) && decide (w ≤ 81)

/-- DBG_OTP (R367, R370): words other than the root slots, which read as zero (DESIGN CHOICE, notes/assumptions/98.md). -/
def execDbgOtp (word : Nat) (s : State) : Host.Outcome State Fault Refusal :=
  .next (withRight 0x80 0x15
    (fun t => shiftOut (le 8 (if rootWord word || decide (256 ≤ word) then 0 else (tgetD t.otp word 0).toNat)) t) s)

/-- Selecting a scan chain zeroises what T3 zeroises and stops sealing until reset (R367). -/
def selectScan (s : State) : State :=
  let t := zeroiseSecrets s
  drew (shiftOut (openBytes s.free 16) { t with dbg := { t.dbg with sealStop := true } })

/-- DBG_SCAN (R367, R370). -/
def execDbgScan (chain : BitVec 4) (s : State) : Host.Outcome State Fault Refusal :=
  .next (withRight 0x10 (0x20 + chain.toNat) selectScan s)

/-- BYPASS (R370), and every code that is no instruction. -/
def execBypass (code : BitVec 8) (s : State) : Host.Outcome State Fault Refusal :=
  let known := [0x00, 0x01, 0x02, 0x10, 0x11, 0x12, 0x13, 0x14, 0x15].contains code.toNat || (0x20 ≤ code.toNat && code.toNat ≤ 0x2F)
  if tapOn s && !known then .next (shiftOut [0] (selectIr 0xFF s)) else .next s

end Sys2Proof.Machine
end

