-- ==== Sys2Proof/Machine/Firmware.lean ====
section
/-! DEFINITION. Firmware images, their checks, the slots and the boot selector, and the Firmware family of commands (R71 to R81, R129,
R130). -/

namespace Sys2Proof.Machine

/-! Images. -/

/-- Bytes of a firmware slot (R71, R130). -/
def slotSize : Nat := 8388608

/-- The content of a slot: false A, true B. -/
def fwSlot (s : State) (b : Bool) : Memory := if b then s.nv.fwB else s.nv.fwA

/-- A number of an image. -/
def imgNum (m : Memory) (off len : Nat) : Nat := leVal (mreads m off len)

/-- The header (R71). -/
def imgHeader (m : Memory) : Bytes := mreads m 0 256

/-- BODY_LEN (R71). -/
def imgBodyLen (m : Memory) : Nat := imgNum m 0x10 4

/-- VENDOR_SIG and SUPERVISOR_SIG (R71). -/
def vendorSig (m : Memory) : Bytes := mreads m 0x100 8192
def supervisorSig (m : Memory) : Bytes := mreads m 0x2100 8192

/-- COUNTERSIGNED (R71). -/
def imgCountersigned (m : Memory) : Bool := bit (imgNum m 6 2) 1

/-- The measurement (R81). -/
def imgMeasure (m : Memory) : Bytes := h384 (sha384 (imgHeader m))

/-- The reserved fields of a signature block are zero (R72). -/
def blkReserved (b : Bytes) : Bool := allZero (slice b 97 3) && allZero (slice b 5457 2735)

/-- Check 1: MAGIC and FORMAT match, and every reserved field is zero (R71 to R73). -/
def imgForm (m : Memory) : Bool :=
  imgNum m 0 4 == 0x57464C46 && imgNum m 4 2 == 1 && decide (imgNum m 6 2 < 4) && decide (imgNum m 0x18 2 < 64) && imgNum m 0x1A 2 == 0
    && allZero (mreads m 0x60 160) && blkReserved (vendorSig m) && (!imgCountersigned m || blkReserved (supervisorSig m))

/-- A signature block carries a role's keys and verifies over a message (R72, R73). -/
def roleBlock (s : State) (role : Nat) (blk msg : Bytes) : Bool :=
  roleDigest s role == some (blockDigest blk) && blockVerify blk msg

/-- The life-cycle state that LC_ALLOW speaks of: under a condition, the state beneath it (R73, R349; notes/assumptions/55.md). -/
def imgState (s : State) : Lc :=
  match s.lc with
  | .lost | .tampered => s.beneath
  | l => l

/-- Check 8: the state is set in LC_ALLOW; a test build runs in RAW, TEST and RETURN whatever LC_ALLOW says (R73). -/
def imgAllowed (s : State) (m : Memory) : Bool :=
  let l := imgState s
  if bit (imgNum m 6 2) 0 then l == .raw || l == .test || l == .retn
  else decide (lcCode l ≤ 5) && bit (imgNum m 0x18 2) (lcCode l)

/-- The firmware anti-rollback counter (R73, R282). -/
def rollbackCtr (s : State) : Nat := ctrVal s 4

/-- Check 6: the body has its declared length, which the layout allows, and its digest (R71, R73; notes/assumptions/55.md). -/
def imgBody (m : Memory) : Bool :=
  let n := imgBodyLen m
  decide (16 ≤ n) && decide (n ≤ 8371968) && n % 16 == 0 && h384 (sha384 (mreads m 0x4100 n)) == mreads m 0x30 48

/-- The number of the first failing check of R73. -/
def imageCheck (s : State) (m : Memory) : Option Nat :=
  if !imgForm m then some 1
  else if roleDigest s 0 != some (blockDigest (vendorSig m)) then some 2
  else if !blockVerify (vendorSig m) (imgHeader m) then some 3
  else if !(if imgCountersigned m then roleBlock s 2 (supervisorSig m) (mreads m 0 0x2100) else allZero (supervisorSig m)) then some 4
  else if countersignRequired s && s.lc == .field && !imgCountersigned m then some 5
  else if !imgBody m then some 6
  else if imgNum m 0x0C 4 < rollbackCtr s then some 7
  else if !imgAllowed s m then some 8
  else if !(imgNum m 0x20 16 == 0 || imgNum m 0x20 16 == Config.unitId.toNat) then some 9
  else if Config.romRev.toNat < imgNum m 0x1C 4 then some 10
  else none

/-! Slots and the selector. -/

/-- The boot selector in force (R74). With neither copy usable, or two that differ under one number, A is ACTIVE and nothing is PENDING
(notes/assumptions/86.md). -/
def bootSel (s : State) : BootSel := AB.value s.nv.bootSel {}

/-- The boot selector is written (R74). -/
def setBootSel (b : BootSel) (s : State) : State := { s with nv := { s.nv with bootSel := AB.update s.nv.bootSel b } }

/-- The inactive slot (R77). -/
def inactive (s : State) : Bool := !(bootSel s).active

/-- A slot's STATE and CHECK (R129). -/
def slotState (s : State) (b : Bool) : FwState := if b then s.boot.stB else s.boot.stA
def slotCheck (s : State) (b : Bool) : Nat := if b then s.boot.chkB else s.boot.chkA

/-- A slot's STATE and CHECK are set. -/
def setSlot (b : Bool) (st : FwState) (chk : Nat) (s : State) : State :=
  { s with boot := if b then { s.boot with stB := st, chkB := chk } else { s.boot with stA := st, chkA := chk } }

/-- The code of a slot state (R129). -/
def fwCode : FwState → Nat
  | .invalid => 0 | .written => 1 | .verified => 2 | .failed => 3 | .running => 4

/-- The code of a mode (R129). -/
def modeCode : FwMode → Nat
  | .normal => 0 | .trial => 1 | .fallback => 2 | .recovery => 3

/-- An image runs (R129). -/
def fwRuns (s : State) : Bool := s.boot.mode != .recovery

/-- RUN: the running slot and mode, or in recovery the ACTIVE slot and mode 3 (R129, R258). -/
def runByte (s : State) : Nat := b2n (if fwRuns s then s.boot.runSlot else (bootSel s).active) + 2 * modeCode s.boot.mode

/-- The header fields of a slot show: it is not INVALID, and its header passes check 1 (R129; notes/assumptions/56.md). -/
def slotShows (s : State) (b : Bool) : Bool := slotState s b != .invalid && imgForm (fwSlot s b)

/-- VERSION of the running image, 0 in recovery mode (R126). -/
def runVersion (s : State) : Nat := if fwRuns s then imgNum (fwSlot s s.boot.runSlot) 8 4 else 0

/-- A slot record of FW_STATUS (R129). -/
def slotRecord (s : State) (b : Bool) : Bytes :=
  let m := fwSlot s b
  le 1 (fwCode (slotState s b)) ++ le 1 (if slotState s b = .failed then slotCheck s b else 0) ++ zeros 2
    ++ (if slotShows s b then mreads m 8 8 ++ zeros 4 ++ imgMeasure m else zeros 60)

/-- The FW_STATUS body (R129). -/
def fwStatusBody (s : State) : Bytes :=
  let b := bootSel s
  let p := match b.pend with | none => 0 | some x => 1 + b2n x
  le 1 (b2n b.active) ++ le 1 p ++ le 1 (b2n b.trial) ++ le 1 (runByte s) ++ le 4 (rollbackCtr s) ++ slotRecord s false
    ++ slotRecord s true

/-! Meanings. -/

/-- FW_STATUS (R129). -/
def execFwStatus (r : Req) (s : State) : Host.Outcome State Fault Refusal :=
  .next (command (.fwStatus r) 0x0801 r (some 0) (fun s => .done s stOk 0 (fwStatusBody s)) s)

/-- Bytes go into the inactive slot, which is then WRITTEN (R77, R130). -/
def writeSlot (off : Nat) (b : Bytes) (s : State) : State :=
  let i := inactive s
  let nv := if i then { s.nv with fwB := mwrites s.nv.fwB off b } else { s.nv with fwA := mwrites s.nv.fwA off b }
  count 0x44 0 ((b.length + 255) / 256) (setSlot i .written 0 { s with nv := nv })

/-- The inactive slot is running or pending (R77). -/
def slotTaken (s : State) : Bool :=
  (fwRuns s && s.boot.runSlot == inactive s) || (bootSel s).pend == some (inactive s)

/-- The first bad field among those that the length of FW_WRITE follows from (R123, R130). -/
def fwWriteRange (r : Req) : Option Nat :=
  firstBad [(decide (fld r 4 4 < 16) || decide (4096 < fld r 4 4) || fld r 4 4 % 16 != 0, 20), (decide (1 < fld r 8 4), 24)]

/-- FW_WRITE's own steps (R77, R130). After a DMA read that faults the chunk's content is open. -/
def fwWriteRun (r : Req) (s : State) : Reply :=
  let dma := fld r 8 4 == 1
  let off := fld r 0 4
  let c := fld r 4 4
  if r.body.length < 24 then .refuse s stMalformed (lenDetail r 24)
  else match fwWriteRange r with
    | some o => .refuse s stMalformed o
    | none =>
      let need := if dma then 24 else 24 + c
      if r.body.length ≠ need then .refuse s stMalformed (lenDetail r need)
      else match firstBad [(fld r 0 4 % 16 != 0, 16), (fld r 12 4 != 0, 28), (!dma && fld r 16 8 != 0, 32)] with
        | some o => .refuse s stMalformed o
        | none =>
          if dma && r.path != .pcie then .refuse s stUnsupported 0
          else if slotSize < off + c then .refuse s stLenLimit 0
          else if slotTaken s then .refuse s stBusyOwned 0
          else if dma then
            match dmaRead r (fld r 16 8) c s with
            | (some b, t) => .done (writeSlot off b t) stOk 0 []
            | (none, t) => .refuse (writeSlot off (openBytes t.free c) (drew t)) (dmaStatus r false (fld r 16 8) c s) 0
          else .done (writeSlot off (r.body.drop 24) s) stOk 0 []

/-- FW_WRITE (R77, R130). -/
def execFwWrite (r : Req) (s : State) : Host.Outcome State Fault Refusal :=
  .next (command (.fwWrite r) 0x0802 r none (fwWriteRun r) s)

/-- FW_VERIFY's own steps (R73, R77, R130). A slot that runs stays RUNNING. -/
def fwVerifyRun (s : State) : Reply :=
  let i := inactive s
  let runs := slotState s i == .running
  match imageCheck s (fwSlot s i) with
  | none => .done (if runs then s else setSlot i .verified 0 s) stOk 0 (imgMeasure (fwSlot s i))
  | some n => .refuse (if runs then s else setSlot i .failed n s) stMalformed n

/-- FW_VERIFY (R77, R130). -/
def execFwVerify (r : Req) (s : State) : Host.Outcome State Fault Refusal :=
  .next (command (.fwVerify r) 0x0803 r (some 0) fwVerifyRun s)

/-- FW_ACTIVATE's own steps (R77, R130). -/
def fwActivateRun (s : State) : Reply :=
  let i := inactive s
  if slotState s i = .verified then .done (setBootSel { bootSel s with pend := some i, trial := false } s) stOk 0 []
  else .refuse s stMalformed 0

/-- FW_ACTIVATE (R130). -/
def execFwActivate (r : Req) (s : State) : Host.Outcome State Fault Refusal :=
  .next (command (.fwActivate r) 0x0804 r (some 0) fwActivateRun s)

/-- FW_COMMIT's own steps (R78): the anti-rollback counter, then the selector. The image is then the ACTIVE one and no trial
(notes/assumptions/57.md). -/
def fwCommitRun (s : State) : Reply :=
  if s.boot.mode = .trial then
    let n := imgNum (fwSlot s s.boot.runSlot) 0x0C 4
    let s1 := if rollbackCtr s < n then setCtr 4 n s else s
    let s2 := setBootSel { active := s.boot.runSlot, pend := none, trial := false } s1
    .done { s2 with boot := { s2.boot with mode := .normal } } stOk 0 []
  else .refuse s stUnsupported 0

/-- FW_COMMIT (R78). -/
def execFwCommit (r : Req) (s : State) : Host.Outcome State Fault Refusal :=
  .next (command (.fwCommit r) 0x0805 r (some 0) fwCommitRun s)

end Sys2Proof.Machine
end

