-- ==== Sys2Proof/Machine/Rules.lean ====
section
/-! DEFINITION. The rule-set commands: load, query, delete, and the drain that a load waits for (R177 to R184). -/

namespace Sys2Proof.Machine

/-- Rule sets that can be held (R177). -/
def ruleSetMax : Nat := 128

/-- A rule set in MRAM. -/
def ruleSetOf (s : State) (id : Nat) : Option RuleSet := tget s.nv.ruleSets id

/-- Queues in any state other than FREE that name a set (R184). -/
def ruleUses (s : State) (id : Nat) : Nat := (s.queues.filter fun q => q.2.st != .free && q.2.ruleset == id).length

/-- The first bad field of rule `i`, as an offset in the rule; `lists` is the number of list entries, `second` says that a DRAW_OPEN
stands before it (R178, R179, R183). -/
def ruleBad (b : Bytes) (lists : Nat) (second : Bool) (i : Nat) : Option Nat :=
  let r := 16 + 24 * i
  let ty := num b r 1
  let w := num b (r + 1) 1
  let a := num b (r + 8) 8
  let c := num b (r + 16) 8
  let list := ty == 4 || ty == 5
  let bare := ty == 6 || ty == 7
  let width := match ty with
    | 8 => w == 0
    | 6 => w == 4
    | 7 => w == 8
    | 4 | 5 => w == 1 || w == 2 || w == 4
    | _ => w == 1 || w == 2 || w == 4 || w == 8
  let aBad :=
    if ty == 1 || ty == 8 then decide (c < a)
    else if ty == 3 then a == 0
    else if list then decide (lists < a + c)
    else bare && a != 0
  let bBad :=
    if ty == 2 then (c &&& a) != c
    else if list then c == 0
    else (ty == 3 || bare) && c != 0
  firstBad [(ty == 0 || decide (8 < ty) || (ty == 6 && second), 0), (!width, 1), (ty == 8 && num b (r + 2) 2 != 0, 2),
    (decide (1 < num b (r + 4) 1), 4), (num b (r + 5) 1 != 0, 5), (num b (r + 6) 1 != 0, 6), (num b (r + 7) 1 != 0, 7),
    (aBad, 8), (bBad, 16)]

/-- The first bad field of the rules from `i` on: request offset (R183). -/
def rulesBad (b : Bytes) (lists : Nat) : Nat → Nat → Bool → Option Nat
  | 0, _, _ => none
  | n + 1, i, seen =>
    match ruleBad b lists seen i with
    | some f => some (32 + 24 * i + f)
    | none => rulesBad b lists n (i + 1) (seen || num b (16 + 24 * i) 1 == 6)

/-- The first bad field of a rule set body: request offset (R177, R183 step 1). -/
def bodyBad (s : State) (b : Bytes) : Option Nat :=
  let held := ((ruleSetOf s (num b 0 2)).map RuleSet.ver).getD 0
  let need := 16 + 24 * num b 4 1 + num b 6 2
  if b.length < 16 then some (16 + b.length)
  else match firstBad [(num b 0 2 == 0xFFFF, 16), (decide (num b 2 2 ≤ held), 18), (decide (64 < num b 4 1), 20),
      (num b 5 1 != 0, 21), (decide (2528 < num b 6 2) || num b 6 2 % 4 != 0, 22), (num b 8 8 != 0, 24)] with
    | some off => some off
    | none => if b.length ≠ need then some (16 + min b.length need) else rulesBad b (num b 6 2 / 4) (num b 4 1) 0 false

/-- The body of a RULESET entry (R257). -/
def ruleEntry (id ver : Nat) (b : Bytes) : Bytes := le 2 id ++ le 2 ver ++ zeros 4 ++ h384 (sha384 b)

/-- An ACCEPT issued under an earlier epoch has not passed its rule step (R183 step 6). -/
def ruleStepDue (epoch : Nat) (w : Work) : Bool :=
  w.inFlight && eOpc w.ent == 1 && decide (w.epoch < epoch) && (w.stage == .dispatched || w.stage == .takenBack)

/-- Steps 4 and 5 of a load (R183). -/
def storeRules (b : Bytes) (s : State) : State :=
  let id := num b 0 2
  let old := match ruleSetOf s id with
    | some r => s.oldRules ++ [(id, r)]
    | none => s.oldRules
  let s1 := journalEntry 0x03 false (ruleEntry id (num b 2 2) b) s
  let s2 := bumpEpoch s1
  { s2 with
    nv := { s2.nv with ruleSets := tset s2.nv.ruleSets id { ver := num b 2 2, body := b, since := s2.epoch } }
    oldRules := old }

/-- Replaced versions are kept while an ACCEPT is in flight, which may be executed again (R183, R201). -/
def pruneOld (s : State) : State :=
  if s.work.any fun w => w.inFlight && eOpc w.ent == 1 then s else { s with oldRules := [] }

/-- RULESET_LOAD's own steps (R183). -/
def rulesetLoadRun (r : Req) (s : State) : Reply :=
  let b := r.body
  match bodyBad s b with
  | some off => .refuse s stMalformed off
  | none =>
    if (ruleSetOf s (num b 0 2)).isNone && ruleSetMax ≤ s.nv.ruleSets.length then .refuse s stBusyOwned 0
    else match entryRefusal false s with
      | some (st, det) => .refuse s st det
      | none =>
        let t := storeRules b s
        if t.work.any (ruleStepDue t.epoch) then
          .wait { t with drains := t.drains ++ [t.epoch] } t.epoch (h384 (sha384 b))
        else .done (pruneOld t) stOk 0 (h384 (sha384 b))

/-- RULESET_LOAD (R183). -/
def execRulesetLoad (r : Req) (s : State) : Host.Outcome State Fault Refusal :=
  .next (command (.rulesetLoad r) 0x0601 r none (rulesetLoadRun r) s)

/-- The loads whose earlier ACCEPTs have all passed their rule step. -/
def drainedLoads (s : State) : List Nat := s.drains.filter fun e => !s.work.any (ruleStepDue e)

/-- RULESET_DRAIN_END (R183 steps 6 and 7). -/
def execRulesetDrainEnd (s : State) : Host.Outcome State Fault Refusal :=
  match drainedLoads s with
  | [] => .next s
  | es =>
    let rest := s.drains.filter fun e => !es.contains e
    .next (settle s (answerAll (fun w => w.op == 0x0601 && es.contains w.obj) (fun w => (stOk, 0, w.body)) (pruneOld { s with drains := rest })))

/-- RULESET_QUERY's own steps (R184). -/
def rulesetQueryRun (r : Req) (s : State) : Reply :=
  match firstBad [((ruleSetOf s (fld r 0 2)).isNone, 16), (fld r 2 2 != 0, 18)], ruleSetOf s (fld r 0 2) with
  | none, some x =>
    .done s stOk 0 (x.body.take 5 ++ [0] ++ slice x.body 6 2 ++ le 4 (ruleUses s (fld r 0 2)) ++ zeros 4 ++ h384 (sha384 x.body))
  | some off, _ => .refuse s stMalformed off
  | none, none => .refuse s stMalformed 16

/-- RULESET_QUERY (R184). -/
def execRulesetQuery (r : Req) (s : State) : Host.Outcome State Fault Refusal :=
  .next (command (.rulesetQuery r) 0x0602 r (some 4) (rulesetQueryRun r) s)

/-- RULESET_DELETE's own steps (R184). -/
def rulesetDeleteRun (r : Req) (s : State) : Reply :=
  let id := fld r 0 2
  match firstBad [((ruleSetOf s id).isNone, 16), (fld r 2 2 != 0, 18)], ruleSetOf s id with
  | none, some x =>
    if ruleUses s id ≠ 0 then .refuse s stBusyOwned 0
    else match entryRefusal false s with
      | some (st, det) => .refuse s st det
      | none =>
        let s1 := { s with nv := { s.nv with ruleSets := tdel s.nv.ruleSets id } }
        .done (journalEntry 0x03 false (ruleEntry id 0 x.body) s1) stOk 0 []
  | some off, _ => .refuse s stMalformed off
  | none, none => .refuse s stMalformed 16

/-- RULESET_DELETE (R184). -/
def execRulesetDelete (r : Req) (s : State) : Host.Outcome State Fault Refusal :=
  .next (command (.rulesetDelete r) 0x0603 r (some 4) (rulesetDeleteRun r) s)

end Sys2Proof.Machine
end

