-- ==== Sys2Proof/Machine/Journals.lean ====
section
/-! DEFINITION. The journal writer's events and the Journal commands: batches, pages, marks, checkpoints, export, reclaim, queries, and
the hardware counters (R259 to R285, R446). -/

namespace Sys2Proof.Machine

/-! The writer. -/

/-- The writer runs: a start has recovered the journal, and no declaration or reset has stopped it (R52, R280). -/
def writerOn (s : State) : Bool :=
  match s.pwr.phase with
  | .started | .ready | .service => true
  | _ => false

/-- The body of JOURNAL_SYNC's response (R277). -/
def syncBody (s : State) : Bytes := le 6 s.jrn.durable ++ zeros 2

/-- JOURNAL_SYNC commands whose SEQs are all DURABLE respond (R277). -/
def answerSync (s : State) : State :=
  answerAll (fun w => w.op == 0x0505 && decide (w.obj ≤ s.jrn.durable)) (fun _ => (stOk, 0, syncBody s)) s

/-- A JOURNAL_SYNC waits for the leaf of a SEQ (R259). -/
def syncNeeds (s : State) (seq : Nat) : Bool := s.waiters.any fun w => w.op == 0x0505 && decide (seq ≤ w.obj)

/-- LEAF_IN_ORDER (R259, R263, R266). -/
def execLeafInOrder (s : State) : Host.Outcome State Fault Refusal :=
  match leafAtPoint s.jrn with
  | some l =>
    if writerOn s then
      let s1 := foldLeaf l s
      .next (sleepIfDue (settle s (answerSync (if syncNeeds s l.seq then writePages (closeBatch s1) else s1))))
    else .next s
  | none => .next s

/-- BATCH_TIMEOUT (R259, R266). -/
def execBatchTimeout (s : State) : Host.Outcome State Fault Refusal :=
  if writerOn s then .next (sleepIfDue (settle s (answerSync (closeBatch s)))) else .next s

/-- PAGE_TIMEOUT (R254, R263): the page that waits is closed with padding, to be written. -/
def execPageTimeout (s : State) : Host.Outcome State Fault Refusal :=
  if writerOn s then .next { s with jrn := s.jrn.pad } else .next s

/-- PAGE_SEALED (R264 to R266): the oldest full page has been written with its seal. -/
def execPageSealed (s : State) : Host.Outcome State Fault Refusal :=
  if writerOn s && pagePayload ≤ s.jrn.pending.length then .next (sleepIfDue (settle s (answerSync (sealPages 1 s)))) else .next s

/-! Control record. -/

/-- The journal control record in force (R280). -/
def jctlOf (s : State) : JCtl := AB.value s.nv.jctl {}

/-- The chain run on over entries (R261). -/
def chainOver (c : BitVec 384) (es : List Entry) : BitVec 384 := es.foldl (fun c e => sha384 (h384 c ++ e.bytes)) c

/-- The chain value before retained entry `k`, counted from the oldest (R261). -/
def chainBefore (s : State) (k : Nat) : BitVec 384 := chainOver (jctlOf s).oldChain (s.nv.ring.take k)

/-- The checkpoint after the last sealed entry (R280). -/
def checkpoint (s : State) (c : JCtl) : JCtl :=
  { c with ckPos := s.nv.entryNo + s.nv.ring.length, ckPseq := s.nv.lastPseq, ckChain := chainBefore s s.nv.ring.length }

/-- JOURNAL_CHECKPOINT (R280): once per operating second in service. -/
def execJournalCheckpoint (s : State) : Host.Outcome State Fault Refusal :=
  if writerOn s && ringWorks s && s.sched.ckptAt != some s.opsec then
    .next (count 0x44 0 1 { s with
      nv := { s.nv with jctl := AB.update s.nv.jctl (checkpoint s (jctlOf s)) }
      sched := { s.sched with ckptAt := some s.opsec } })
  else .next s

/-! Record sequence marks. -/

/-- SEQ_MARK_RAISE (R262, R446). -/
def execSeqMarkRaise (s : State) : Host.Outcome State Fault Refusal :=
  if writerOn s && seqMark s ≤ s.jrn.nextSeq + 2 ^ 22 && seqMark s < seqReserveStart then .next (settle s (raiseMark s))
  else .next s

/-- SEQ_RESERVE_POINT (R446). Entries fetched and not given to a slot complete like those fetched from then on
(notes/assumptions/46.md). -/
def execSeqReservePoint (s : State) : Host.Outcome State Fault Refusal :=
  if writerOn s && seqReserve s && !s.jrn.seqOut then
    let s1 := { s with
      jrn := { s.jrn with seqOut := true }
      work := s.work.map fun w =>
        if w.seq == 0 && w.stage != .done && w.stage != .fetched && eOpc w.ent != 0 then w.decided stQueueDisabled 0 else w }
    .next (settle s (event 0x010B 1 (recharge s1)))
  else .next s

/-! Counters. -/

/-- OPSEC_CHECKPOINT (R282): every 3,600 operating seconds. -/
def execOpsecCheckpoint (s : State) : Host.Outcome State Fault Refusal :=
  if writerOn s && s.sched.secondsAt + 3600 ≤ s.opsec then
    .next (setCtr 3 s.opsec { s with sched := { s.sched with secondsAt := s.opsec } })
  else .next s

/-- COUNTER_BACK_WRITE (R282). The write of the counter that has been dirty longest also ends a forced write (R398). -/
def execCounterBackWrite (ctr : Nat) (s : State) : Host.Outcome State Fault Refusal :=
  if powered s && s.dirtyCtrs.contains ctr then
    .next (backWrite ctr { s with
      meter := { s.meter with forcedBusy := s.meter.forcedBusy && s.dirtyCtrs.head? != some ctr } })
  else .next s

/-- METER_WRITE_BEHIND (R20). -/
def execMeterWriteBehind (page : Nat) (s : State) : Host.Outcome State Fault Refusal :=
  if powered s && s.meter.dirty.contains page then .next (writeMeterPage page s) else .next s

/-- One CTR_READ record (R285). -/
def ctrRecord (s : State) (n : Nat) : Bytes :=
  let c := ctrOf s n
  let real := ctrClass n ≠ 0
  le 2 n ++ le 2 (ctrWidth n) ++ le 1 (ctrClass n) ++ le 1 (if real then b2n c.lost + 2 * b2n c.split else 0)
    ++ le 2 (if real then min c.splits 65535 else 0) ++ le 8 (if real then ctrVal s n else 0)

/-- CTR_READ's own steps (R285). -/
def ctrReadRun (r : Req) (s : State) : Reply :=
  match firstBad [(decide (4095 < fld r 0 2), 16), (fld r 2 2 == 0 || decide (255 < fld r 2 2), 18),
      (decide (4096 < fld r 0 2 + fld r 2 2), 16)] with
  | some off => .refuse s stMalformed off
  | none => .done s stOk 0 ((List.range (fld r 2 2)).map fun i => ctrRecord s (fld r 0 2 + i)).flatten

/-- CTR_READ (R285). -/
def execCtrRead (r : Req) (s : State) : Host.Outcome State Fault Refusal :=
  .next (command (.ctrRead r) 0x0B01 r (some 4) (ctrReadRun r) s)

/-! Status and queries. -/

/-- The lowest number of a list, 0 when it is empty. -/
def lowest : List Nat → Nat
  | [] => 0
  | x :: xs => xs.foldl min x

/-- The detail records that are held: detail staging, which takes the recovered tail detail at step 14 of a start, without the lines that were
lost (R271, R276, R280, R326). -/
def heldDetail (j : Journal) : List Leaf := (j.recovered ++ j.staging).filter fun l => !j.lost.contains l.seq

/-- The JOURNAL_STATUS body (R275). -/
def journalBody (s : State) : Bytes :=
  le 4 ringPages ++ le 4 (ringUsed s) ++ le 1 (fillPct s) ++ le 1 (b2n s.pwr.degraded + 2 * b2n (journalFull s)) ++ zeros 2
    ++ le 4 s.nv.lastPseq ++ le 8 (lowest (s.nv.ring.map (·.first))) ++ le 8 s.jrn.durable ++ le 8 s.jrn.highest
    ++ le 8 s.jrn.exported ++ le 8 (lowest ((heldDetail s.jrn).map (·.seq))) ++ le 4 (notDurable s.jrn) ++ zeros 4

/-- JOURNAL_STATUS (R275). -/
def execJournalStatus (r : Req) (s : State) : Host.Outcome State Fault Refusal :=
  .next (command (.journalStatus r) 0x0501 r (some 0) (fun s => .done s stOk 0 (journalBody s)) s)

/-- QIX of a descriptor: index, and function above it (R175). -/
def leafQix (l : Leaf) : Nat := num l.desc 4 4

/-- A record that function `f` may find (R276). -/
def findable (f : Nat) (l : Leaf) : Bool := f == 0 || leafQix l / 2 ^ 18 == f

/-- The records that match by queue index and HTAG above a floor (R276). -/
def matching (f qix htag floor : Nat) (ls : List Leaf) : List Leaf :=
  ls.filter fun l => findable f l && leafQix l % 2 ^ 18 == qix && num l.desc 16 4 == htag && decide (floor < l.seq)

/-- The record with the highest SEQ. -/
def highestLeaf (ls : List Leaf) : Option Leaf :=
  ls.foldl (fun best l => match best with | some b => if b.seq < l.seq then some l else best | none => some l) none

/-- Detail is held for every SEQ that the search covers (R276). -/
def searchComplete (s : State) (floor : Nat) : Bool :=
  decide (s.jrn.overwritten ≤ floor) && !s.jrn.lost.any (floor < ·)
    && (decide (s.jrn.cycleFirst ≤ floor + 1)
      || (s.jrn.recValid && s.jrn.recLo != 0 && decide (s.jrn.recLo ≤ floor + 1) && decide (s.jrn.recGap ≤ floor)))

/-- FOUND of a record: 1 in this cycle's staging, 2 in the previous cycle's recovered detail (R276). -/
def foundIn (s : State) (l : Leaf) : Nat := if s.jrn.cycleFirst ≤ l.seq then 1 else 2

/-- The 80-byte body of JOURNAL_QUERY (R276). -/
def queryBody (s : State) (found nmatch : Nat) (l : Option Leaf) : Bytes :=
  let dur := match l with
    | some x => found == 2 || durableSeq s.jrn x.seq
    | none => false
  le 1 found ++ le 1 (b2n dur) ++ le 2 (min nmatch 65535) ++ zeros 12 ++ (match l with | some x => fit 64 x.detail | none => zeros 64)

/-- MODE 0: by queue index and HTAG (R276). -/
def queryTag (s : State) (f qix htag floor : Nat) : Bytes :=
  let hits := matching f qix htag floor (heldDetail s.jrn)
  match highestLeaf hits with
  | some l => queryBody s (foundIn s l) hits.length (some l)
  | none =>
    if s.work.any fun w => w.inFlight && w.qix == qix && decide (floor < w.seq) then queryBody s 5 0 none
    else queryBody s (if searchComplete s floor then 0 else 4) 0 none

/-- MODE 1: by SEQ (R276). -/
def querySeq (s : State) (f seq : Nat) : Bytes :=
  match (heldDetail s.jrn).find? (fun l => l.seq == seq && findable f l) with
  | some l => queryBody s (foundIn s l) 0 (some l)
  | none =>
    if s.work.any fun w => w.inFlight && w.seq == seq && (f == 0 || w.fn == f) then queryBody s 5 0 none
    else if s.jrn.highest < seq then queryBody s 0 0 none
    else queryBody s 3 0 none

/-- JOURNAL_QUERY's own steps (R276). -/
def journalQueryRun (r : Req) (s : State) : Reply :=
  match firstBad [(decide (1 < fld r 0 1), 16), (fld r 1 3 != 0, 17), (decide (2 ^ 18 ≤ fld r 4 4), 20), (fld r 12 4 != 0, 28),
      (fld r 22 2 != 0, 38)] with
  | some off => .refuse s stMalformed off
  | none =>
    .done s stOk 0
      (if fld r 0 1 = 0 then queryTag s r.fn (fld r 4 4) (fld r 8 4) (fld r 16 6) else querySeq s r.fn (fld r 16 6))

/-- JOURNAL_QUERY (R276). -/
def execJournalQuery (r : Req) (s : State) : Host.Outcome State Fault Refusal :=
  .next (command (.journalQuery r) 0x0502 r (some 24) (journalQueryRun r) s)

/-! Export. -/

/-- What a segment gathers as it is built. -/
structure Gather where
  ents : List Entry
  detail : List Leaf
  gap : Bool
  batches : Nat
  deriving DecidableEq, Repr

/-- Bytes of a gathered segment with its signatures (R272). -/
def Gather.size (g : Gather) : Nat := 160 + (g.ents.map fun e => e.bytes.length).sum + 64 * g.detail.length + 3405

/-- The detail of a BATCH entry, whole, when it is held (R272, R276). -/
def batchDetail (s : State) (e : Entry) : Option (List Leaf) :=
  let ls := ((heldDetail s.jrn).filter fun l => e.first ≤ l.seq && l.seq ≤ e.last).foldl (fun a l => insertLeaf l a) []
  if h384 (batchRoot ls) = slice e.bytes 16 48 then some ls else none

/-- The entries of a segment of at most `max` bytes (R272, R273). -/
def gather (s : State) (max : Nat) (want : Bool) : List Entry → Gather → Gather
  | [], g => g
  | e :: es, g =>
    let plain := { g with ents := g.ents ++ [e] }
    if num e.bytes 0 1 = 1 then
      let first := g.batches == 0
      let bare := { plain with batches := g.batches + 1, gap := g.gap || want }
      if want then
        match batchDetail s e with
        | some ls =>
          let whole := { plain with batches := g.batches + 1, detail := g.detail ++ ls }
          if whole.size ≤ max then gather s max want es whole
          else if first && decide (bare.size ≤ max) then gather s max want es bare
          else g
        | none => if bare.size ≤ max then gather s max want es bare else g
      else if bare.size ≤ max then gather s max want es bare else g
    else if plain.size ≤ max then gather s max want es plain else g

/-- Bytes 0 to S - 1 of a segment (R272). `k` entries of the ring stand before it. -/
def segBody (s : State) (k no : Nat) (want : Bool) (g : Gather) : Bytes :=
  let es := (g.ents.map (·.bytes)).flatten
  let cin := chainBefore s k
  le 4 0x584A4C46 ++ le 2 1 ++ le 2 (b2n s.keys.testRoot + 2 * b2n want + 4 * b2n g.gap) ++ le 4 no ++ le 4 es.length
    ++ unitIdBytes ++ le 6 ((g.ents.head?.map (·.first)).getD 0) ++ zeros 2 ++ le 6 ((g.ents.getLast?.map (·.last)).getD 0)
    ++ zeros 2 ++ le 4 g.detail.length ++ le 4 0xFFFFFF04 ++ h384 cin ++ h384 (chainOver cin g.ents) ++ le 5 s.opsec ++ zeros 3
    ++ es ++ (g.detail.map Leaf.detail).flatten

/-- How many retained entries stand before the segment's first (R273): none when FROM_SEQ starts no retained entry. -/
def exportFrom (s : State) (fromSeq : Nat) : Option Nat :=
  if fromSeq = 0 then
    some (match s.jrn.exportPos with | some p => p - s.nv.entryNo | none => 0)
  else s.nv.ring.findIdx? fun e => e.first == fromSeq

/-- The 80-byte body of a built segment (R273). -/
def exportBody (g : Segment) (want : Nat) (flags : Nat) : Bytes :=
  le 4 g.no ++ le 4 g.bytes.length ++ le 6 g.first ++ zeros 2 ++ le 6 g.last ++ zeros 2 ++ le 4 want ++ le 2 flags ++ zeros 2
    ++ h384 g.digest

/-- A new segment is built, signed and held (R272, R273). -/
def buildSegment (r : Req) (k : Nat) (s : State) : Reply :=
  let want := bit (fld r 12 4) 1
  let g := gather s (fld r 8 4) want (s.nv.ring.drop k) ⟨[], [], false, 0⟩
  if g.ents = [] then .done s stOk 0 (zeros 80)
  else if !pkeUp s || (journalPair s).isNone then .refuse s stUnsupported 0
  else
    let no := s.jrn.segNo + 1
    let body := segBody s k no want g
    let sig := ((journalPair s).map fun p => hybridSign p body s.free).getD []
    let seg : Segment :=
      { no := no, bytes := body ++ sig, first := (g.ents.head?.map (·.first)).getD 0
        last := (g.ents.getLast?.map (·.last)).getD 0, nEntries := g.ents.length, pos := s.nv.entryNo + k
        digest := sha384 body }
    let s1 := signed ({ s with jrn := { s.jrn with
      seg := some seg, segNo := no, exported := seg.last, exportPos := some (seg.pos + seg.nEntries) } })
    let reply := exportBody seg g.detail.length (b2n s.keys.testRoot + 2 * b2n want + 4 * b2n g.gap)
    if bit (fld r 12 4) 0 then
      let w := dmaWrite r (fld r 16 8) seg.bytes s1
      if w.1 then .done w.2 stOk 0 reply else .refuse w.2 (dmaStatus r true (fld r 16 8) seg.bytes.length s1) 0
    else .done s1 stOk 0 reply

/-- Bytes of the held segment are returned (R273). -/
def readSegment (r : Req) (seg : Bytes) (s : State) : Reply :=
  let b := slice seg (fld r 24 4) (fld r 28 4)
  let head := le 4 seg.length ++ le 4 b.length ++ zeros 8
  if bit (fld r 12 4) 0 then
    let w := dmaWrite r (fld r 16 8) b s
    if w.1 then .done w.2 stOk 0 head else .refuse w.2 (dmaStatus r true (fld r 16 8) b.length s) 0
  else .done s stOk 0 (head ++ b)

/-- The form of JOURNAL_EXPORT (R273; notes/assumptions/47.md). -/
def exportBad (s : State) (r : Req) : Option Nat :=
  let x := fld r 12 4
  let read := bit x 2
  let len := fld r 28 4
  let total := (s.jrn.seg.map fun g => g.bytes.length).getD 0
  firstBad [(fld r 6 2 != 0, 22), (!read && (decide (fld r 8 4 < 8192) || decide (16777216 < fld r 8 4)), 24),
    (decide (8 ≤ x), 28), (!bit x 0 && fld r 16 8 != 0, 32),
    (if read then decide (total ≤ fld r 24 4) else fld r 24 4 != 0, 40),
    (if read then len == 0 || decide ((if bit x 0 then 16777216 else 4064) < len) else len != 0, 44)]

/-- JOURNAL_EXPORT's own steps (R273). -/
def journalExportRun (r : Req) (s : State) : Reply :=
  match exportBad s r with
  | some off => .refuse s stMalformed off
  | none =>
    if bit (fld r 12 4) 0 && r.path != .pcie then .refuse s stUnsupported 0
    else if bit (fld r 12 4) 2 then readSegment r ((s.jrn.seg.map (·.bytes)).getD []) s
    else match exportFrom s (fld r 0 6) with
      | some k => buildSegment r k s
      | none => .refuse s stMalformed 16

/-- JOURNAL_EXPORT (R273). -/
def execJournalExport (r : Req) (s : State) : Host.Outcome State Fault Refusal :=
  .next (command (.journalExport r) 0x0503 r (some 32) (journalExportRun r) s)

/-! Reclaim. -/

/-- Draws that are CERTIFIED, CANCELLED or VOIDED and whose last entry is no longer retained are retired (R225). -/
def retireDraws (s : State) : State :=
  let keep := fun (d : Draw) =>
    !(d.st == .certified || d.st == .cancelled || d.st == .voided)
      || s.nv.ring.any (fun e => e.first == d.lastSeq && e.last == d.lastSeq)
  { s with nv := { s.nv with draws := s.nv.draws.filter keep } }

/-- The page that holds the first entry after a segment: the RECLAIM entry's own when there is none yet (R274;
notes/assumptions/48.md). -/
def keepPage (s : State) (n : Nat) : Nat :=
  match s.nv.ring[n]? with
  | some e => e.page
  | none => s.nv.lastPseq + 1

/-- Steps 1 to 5 of a reclaim: `n` is the number of retained entries that the segment passes (R274). -/
def reclaim (seg : Segment) (n : Nat) (s : State) : State :=
  let page := keepPage s n
  let s1 := journalEntry 0x06 false (le 6 seg.last ++ zeros 2 ++ h384 seg.digest) s
  let c := checkpoint s1 { (jctlOf s1) with init := true, reclaimed := page, oldChain := chainBefore s1 n }
  retireDraws { s1 with nv := { s1.nv with
    jctl := AB.update s1.nv.jctl c
    ring := s1.nv.ring.drop n, entryNo := s1.nv.entryNo + n, oldestPseq := max s1.nv.oldestPseq (page - 1) } }

/-- JOURNAL_RECLAIM's own steps (R274). -/
def journalReclaimRun (r : Req) (s : State) : Reply :=
  match s.jrn.seg with
  | some g =>
    if g.no = fld r 0 4 ∧ h384 g.digest = slice r.body 8 48 ∧ g.pos ≤ s.nv.entryNo then
      if fld r 4 4 ≠ 0 then .refuse s stMalformed 20
      else match entryRefusal true s with
        | some (st, det) => .refuse s st det
        | none =>
          let n := g.pos + g.nEntries - s.nv.entryNo
          .done (reclaim g n s) stOk 0
            (le 4 (keepPage s n - 1 - s.nv.oldestPseq) ++ zeros 4 ++ le 6 (entrySeq s) ++ zeros 2)
    else .refuse s stMalformed 16
  | none => .refuse s stMalformed 16

/-- JOURNAL_RECLAIM (R274). -/
def execJournalReclaim (r : Req) (s : State) : Host.Outcome State Fault Refusal :=
  .next (command (.journalReclaim r) 0x0504 r (some 56) (journalReclaimRun r) s)

/-! JOURNAL_SYNC and JOURNAL_CLAIM_TIME. -/

/-- JOURNAL_SYNC's own steps (R277). -/
def journalSyncRun (s : State) : Reply :=
  let t := writePages (closeBatch s)
  let upTo := s.jrn.nextSeq - 1
  if upTo ≤ t.jrn.durable then .done t stOk 0 (syncBody t) else .wait t upTo []

/-- JOURNAL_SYNC (R277). -/
def execJournalSync (r : Req) (s : State) : Host.Outcome State Fault Refusal :=
  .next (command (.journalSync r) 0x0505 r (some 0) journalSyncRun s)

/-- JOURNAL_CLAIM_TIME's own steps (R277). -/
def journalClaimRun (r : Req) (s : State) : Reply :=
  match entryRefusal false s with
  | some (st, det) => .refuse s st det
  | none => .done (journalEntry 0x04 true r.body s) stOk 0 (le 6 (entrySeq s) ++ zeros 2)

/-- JOURNAL_CLAIM_TIME (R277). -/
def execJournalClaimTime (r : Req) (s : State) : Host.Outcome State Fault Refusal :=
  .next (command (.journalClaimTime r) 0x0506 r (some 16) (journalClaimRun r) s)

end Sys2Proof.Machine
end

