-- ==== Sys2Proof/Machine/Device.lean ====
section
/-! DEFINITION. The Device family, requested tests, unknown opcodes and the bounds of waiting commands (R50, R125 to R128, R183, R229, R277,
R345, R418, R445). -/

namespace Sys2Proof.Machine

/-- The ordering code in ASCII, padded with zero bytes (R2, R126). -/
def orderingBytes : Bytes := fit 16 (ascii (if Config.orderingGx then "FLA9412-GX" else "FLA9412-GI"))

/-- The DEV_IDENTITY body as function `f` reads it (R126). -/
def identityBody (s : State) (f : Nat) : Bytes :=
  unitIdBytes ++ orderingBytes ++ le 2 Config.dieRev.toNat ++ le 2 Config.romRev.toNat ++ le 4 (runVersion s)
    ++ le 1 (lcCode s.lc) ++ le 1 f ++ le 2 (b2n s.keys.testRoot + 2 * b2n s.pwr.degraded + 4 * b2n (countersignRequired s))
    ++ le 4 (fnOf s f).quota ++ le 2 (vectorsOf f) ++ zeros 14

/-- DEV_IDENTITY (R126). -/
def execDevIdentity (r : Req) (s : State) : Host.Outcome State Fault Refusal :=
  .next (command (.devIdentity r) 0x0101 r (some 0) (fun s => .done s stOk 0 (identityBody s r.fn)) s)

/-- DEV_STATUS (R127). -/
def execDevStatus (r : Req) (s : State) : Host.Outcome State Fault Refusal :=
  .next (command (.devStatus r) 0x0102 r (some 0) (fun s => .done s stOk 0 (devStatusBody s r.fn)) s)

/-- DEV_STANDBY (R50, R128): fetching stops, and standby is entered once nothing is in its way. -/
def execDevStandby (r : Req) (s : State) : Host.Outcome State Fault Refusal :=
  .next (sleepIfDue (command (.devStandby r) 0x0103 r (some 0)
    (fun s => .wait { s with pwr := { s.pwr with standbyDue := true } } 0 []) s))

/-- A request whose opcode is not in the command set returns UNSUPPORTED (R125, R445). Where the opcode is a command's own, its row gives
the meaning. -/
def execMailboxUnknownOpcode (r : Req) (opcode : BitVec 16) (s : State) : Host.Outcome State Fault Refusal :=
  if opcodeKnown opcode.toNat then .next s
  else .next (command (.mailboxUnknownOpcode r opcode) opcode.toNat r none (fun s => .refuse s stUnsupported 0) s)

/-! Requested tests. -/

/-- A deferral is recorded and the request refused (R209, R414, R418). -/
def deferTest (target unit : Nat) (s : State) : Reply := .refuse (testDeferred target unit s) stTestDeferred 0

/-- The object a DIAG_SELFTEST waits for. -/
def testObj (target unit : Nat) : Nat := target + 256 * unit

/-- A requested test of a pair slot (R208, R209); `target` and `unit` are the request's. That of a slot out of service is refused with UNSUPPORTED
(notes/assumptions/87.md). -/
def testSlot (target unit p : Nat) (force : Bool) (s : State) : Reply :=
  if !(slotOf s p).inService then .refuse s stUnsupported 0
  else if wouldStarve s && !force then deferTest target unit s
  else
    let sl := slotOf s p
    let t := { s with sched := { s.sched with laneTest := some { lanes := [sl.l0, sl.l1], failed := false } } }
    .wait (beginTest p t) (testObj target unit) []

/-- A requested test of a lane (R186, R209). -/
def testOfLane (n : Nat) (force : Bool) (s : State) : Reply :=
  match (laneOf s n).st with
  | .failed => .refuse s stUnsupported 0
  | .off =>
    if condUp s 1 then
      let x := takeSeed s
      let t := laneDomains n .on (modLane n (fun l => { l with
        st := .testing, isolated := true, keys := [], out := [], seeded := true, maskSeed := x.1 }) x.2)
      .wait { t with sched := { t.sched with laneTest := some { lanes := [n], failed := false } } } (testObj 2 n) []
    else .refuse s stUnsupported 2
  | _ =>
    match [0, 1, 2].find? fun p => (slotOf s p).inService && ((slotOf s p).l0 == n || (slotOf s p).l1 == n) with
    | some p => testSlot 2 n p force s
    | none => .refuse s stUnsupported 0

/-- A requested calibration: one bank calibrates at a time (R34, R215, R221; notes/assumptions/87.md). -/
def testOfBank (b : Nat) (force : Bool) (s : State) : Reply :=
  let want := fun (t : State) => Reply.wait (modBank b (fun x => { x with wantCal := true }) t) (testObj 3 b) []
  match (bankOf s b).st with
  | .failed => .refuse s stUnsupported 0
  | .starting | .calibrating => .refuse s stBusyOwned 0
  | .off | .suspended => want (startBank b s)
  | .serving =>
    if bankCalibrating s then .refuse s stBusyOwned 0
    else if othersServing s b < 2 && !force then deferTest 3 b s
    else want (calibrate b s)

/-- Requested known-answer tests of a PKE core, one core at a time (R34, R418; notes/assumptions/87.md). -/
def testOfPke (k : Nat) (force : Bool) (s : State) : Reply :=
  let p := s.pkes.getD k {}
  if s.pkes.any (·.testing) then .refuse s stBusyOwned 0
  else if !p.inService then .refuse s stUnsupported 0
  else if !(s.pkes.getD (1 - k) {}).inService && !force then deferTest 4 k s
  else .wait (setDomain (13 + k) .on { s with pkes := modAt s.pkes k fun p => { p with testing := true, on := true } }) (testObj 4 k) []

/-- A requested measurement of the hold-up capacitor (R59, R418). -/
def testOfCap (cap : CapReading) (s : State) : Reply :=
  let c : CapResult := ⟨true, cap⟩
  let fail := (serviceReason c).isSome
  let s1 := judgeCap c s
  let s2 := if fail then event 0x0109 (unitArg 0x15 0) s1 else s1
  .done (drew s2) stOk 0 (testBody 5 0 fail s2)

/-- Units of a TARGET (R418). -/
def testUnits (target : Nat) : Nat :=
  match target with
  | 1 => 3 | 2 => 8 | 3 => 3 | 4 => 2 | 5 => 1 | _ => 0

/-- DIAG_SELFTEST's own steps (R209, R418). The busy case comes before the others (notes/assumptions/87.md). -/
def selftestRun (r : Req) (cap : CapReading) (s : State) : Reply :=
  let target := fld r 0 1
  let unit := fld r 1 1
  let force := bit (fld r 2 1) 0
  if testUnits target = 0 then .refuse s stUnsupported 0
  else match firstBad [(decide (testUnits target ≤ unit), 17), (decide (1 < fld r 2 1), 18), (fld r 3 1 != 0, 19)] with
    | some off => .refuse s stMalformed off
    | none =>
      if lanesBusy s || s.sched.laneTest.isSome then .refuse s stBusyOwned 0
      else
        match target with
        | 1 => testSlot 1 unit unit force s
        | 2 => testOfLane unit force s
        | 3 => testOfBank unit force s
        | 4 => testOfPke unit force s
        | _ => testOfCap cap s

/-- DIAG_SELFTEST (R209, R221, R418). -/
def execDiagSelftest (r : Req) (cap : CapReading) (s : State) : Host.Outcome State Fault Refusal :=
  .next (command (.diagSelftest r cap) 0x0903 r (some 4) (selftestRun r cap) s)

/-! Bounds of waiting commands. -/

/-- What a waiting command answers at its bound: BUSY_OWNED, with the body its rule gives; a GATE_SYNC whose accesses have retired is done
(R183, R229, R277, R345). -/
def boundAnswer (s : State) (w : Waiter) : Option (Nat × Nat × Bytes) :=
  match w.op with
  | 0x0402 => some (stBusyOwned, 0, [])
  | 0x0601 => some (stBusyOwned, 0, w.body)
  | 0x0505 => some (stBusyOwned, 0, syncBody s)
  | 0x0A04 =>
    if retired w.obj s then some (stOk, 0, syncedBody w.obj 0) else some (stBusyOwned, 0, syncedBody w.obj (pendingOf w.obj s))
  | _ => none

/-- COMMAND_WAIT_TIMEOUT (R183, R229, R277, R345): the command answers, and the wait goes on without it. -/
def execCommandWaitTimeout (fn mbx : Nat) (s : State) : Host.Outcome State Fault Refusal :=
  let hit := fun (w : Waiter) => w.req.fn == fn && w.req.mbx == mbx && (boundAnswer s w).isSome
  .next (settle s (answerAll hit (fun w => (boundAnswer s w).getD (0, 0, [])) s))

end Sys2Proof.Machine
end

