-- ==== Sys2Proof/Machine/Port.lean ====
section
/-! DEFINITION. The cycles of the meter port: when it serves them, and how G_MPT judges them (R53, R388 to R391, R395). -/

namespace Sys2Proof.Machine

/-- The port serves cycles: MP_VALID is high and VDDIO_MP is in band (R38, R53). -/
def mpUp (s : State) : Bool := s.pwr.ioMp && s.pwr.mpValid

/-- A cycle as G_MPT judges it: byte address 2 x MP_A, SPACE 0, P-user (R333, R388). -/
def mpAcc (word : Nat) (write : Bool) : Acc :=
  { host := false, first := 2 * word, last := 2 * word + 1, kind := if write then 1 else 0, level := 0, colour := 0 }

/-- The verdict of G_MPT on a cycle (R388). -/
def mpFault (word : Nat) (write : Bool) (s : State) : Option GateFault :=
  (judge gMpt (s.gates.getD gMpt {}) (mpAcc word write)).map fun f => ⟨gMpt, mpAcc word write, f.1, f.2⟩

/-- The port drives a word on MP_D (R390). -/
def drive (w : Nat) (s : State) : State := { s with out := s.out ++ [.mp (BitVec.ofNat 16 w)] }

/-- A cycle that faulted at G_MPT: recorded, GATE_FAULT set, and an input from the port's domain PD57; a read drives 0x0000, a write is
dropped (R338, R376, R388). -/
def mpFaulted (f : GateFault) (write : Bool) (s : State) : State :=
  let t := raiseInput id .gateFault (.powerDomain 57) (gateFault f { s with meter := { s.meter with gateFault := true } })
  if write then t else drive 0 t

/-- A cycle: ignored while the port does not serve, judged by G_MPT, then given to its target. In RETURN every write is dropped
(R350, R388, R394). -/
def mpCycle (word : Nat) (write : Bool) (f : State → State) (s : State) : State :=
  if !mpUp s then s
  else match mpFault word write s with
    | some x => mpFaulted x write s
    | none => if write && s.lc == .retn then s else f s

/-- A read cycle runs (R388, R390, R422). -/
def readCycle (word : Nat) (f : State → State) (s : State) : State :=
  settle s (mpCycle word false (fun t => count 0x80 0 1 (f t)) s)

/-- A write cycle runs (R388, R391, R422). -/
def writeCycle (word : Nat) (f : State → State) (s : State) : State :=
  settle s (mpCycle word true (fun t => count 0x81 0 1 (f t)) s)

/-- One entry of G_MPT: byte range and rights (bit 0 read, bit 1 write, at P-user). -/
def mpEntry (first last rights : Nat) : GEntry :=
  { start := BitVec.ofNat 64 first, fin := BitVec.ofNat 64 (last - 31), rights := BitVec.ofNat 16 rights, eflags := 1 }

/-- The first protected page of a LEVEL (R395). -/
def protectedFrom (level : Nat) : Nat :=
  match level with
  | 0 => 1024 | 1 => 768 | 2 => 512 | _ => 0

/-- The entries of G_MPT under a LEVEL and HIDE (R335, R388, R395; their numbers are notes/assumptions/50.md). -/
def mptEntries (level hide : Nat) : Tab GEntry :=
  let prot := 256 * protectedFrom level
  let hidden := 0x40000 - 256 * hide
  (if 0 < prot then [(0, mpEntry 0 (min prot hidden - 1) 3)] else [])
    ++ (if prot < hidden then [(1, mpEntry prot (hidden - 1) 1)] else [])
    ++ (if 0 < hide then [(2, mpEntry hidden 0x3FFFF 0)] else [])
    ++ [(3, mpEntry 0x40200 0x47FFF 1), (4, mpEntry 0x48080 0x49FFF 2), (5, mpEntry 0x50000 0x501FF 3), (6, mpEntry 0x54000 0x54FFF 3)]

end Sys2Proof.Machine
end

