-- ==== Sys2Proof/Machine/Digest.lean ====
section
/-! DEFINITION. The digest unit DGU1 and its two parties (R404 to R407). -/

namespace Sys2Proof.Machine

/-! The unit. -/

/-- Bytes of a block of the digest that runs (R405). -/
def Dgu.block (d : Dgu) : Nat := if d.algRun = 0 then 64 else 128

/-- A digest begins with ALG: initial value, COUNT 0, RUN + 1, DONE 0 (R404, R406). -/
def Dgu.begin_ (d : Dgu) : Dgu :=
  { d with algRun := d.alg, msg := [], buf := [], done := false, count := 0, run := (d.run + 1) % 256, running := true }

/-- Bytes are appended to the message; each block is compressed as it fills (R405). -/
def Dgu.append (b : Bytes) (d : Dgu) : Dgu :=
  let whole := (d.buf ++ b).length / d.block
  { d with
    msg := d.msg ++ (d.buf ++ b).take (whole * d.block)
    buf := (d.buf ++ b).drop (whole * d.block)
    count := (d.count + whole) % 2 ^ 24 }

/-- A DG_DATA write: after DONE it restarts the digest silently (R405, R406). -/
def Dgu.data (b : Bytes) (d : Dgu) : Dgu := (if d.done then d.begin_ else d).append b

/-- FINISH: DONE is set, and a partial block is discarded (R404). -/
def Dgu.finish (d : Dgu) : Dgu := { d with done := true, part := d.part || d.buf != [], buf := [] }

/-- A write of DG_CTRL (R404). A START with ALG 0b11 is ignored, and ALG never takes 0b11 (notes/assumptions/51.md). -/
def Dgu.ctrl (v : Nat) (d : Dgu) : Dgu :=
  let d1 := if v % 4 = 3 then d else { d with alg := BitVec.ofNat 2 v }
  let d2 := if bit v 8 && v % 4 != 3 then d1.begin_ else d1
  if bit v 9 then d2.finish else d2

/-- A write of DG_STATUS: OVERRUN, PARTIAL and DENIED are cleared by ones (R404). -/
def Dgu.clearFlags (v : Nat) (d : Dgu) : Dgu :=
  { d with overrun := d.overrun && !bit v 2, part := d.part && !bit v 3, denied := d.denied && !bit v 4 }

/-- OWNER of a party (R404). -/
def ownerOf : DgParty → DgOwner
  | .host => .host
  | .cabinet => .cabinet

/-- The code of an owner (R404). -/
def ownerCode : DgOwner → Nat
  | .free => 0 | .host => 1 | .cabinet => 2 | .firmware => 3

/-- A write by a party: dropped while the unit is withdrawn; dropped with DENIED when the party does not own it (R407). -/
def Dgu.by (p : DgParty) (f : Dgu → Dgu) (d : Dgu) : Dgu :=
  if d.withdrawn then d
  else if d.owner = ownerOf p then f d
  else { d with denied := true }

/-- A write of DG_OWN: a claim takes a free unit, the owner's 0b00 releases it (R407; other values are notes/assumptions/52.md). -/
def Dgu.own (p : DgParty) (v : Nat) (d : Dgu) : Dgu :=
  if d.withdrawn then d
  else if v % 4 = ownerCode (ownerOf p) then (if d.owner = .free then { d with owner := ownerOf p } else d)
  else d.by p (fun d => if v % 4 = 0 then d.clear else d)

/-- A 32-bit write of a register at a byte offset; the rest is read-only or reserved (R404). -/
def Dgu.write (p : DgParty) (off v : Nat) (d : Dgu) : Dgu :=
  match off with
  | 0x000 => d.by p (Dgu.ctrl v)
  | 0x004 => d.by p (Dgu.clearFlags v)
  | 0x00C => d.own p v
  | _ => d.by p id

/-- DG_DIGEST: the digest in its first bytes and zero beyond, once DONE is set. Before that, and for a message that no START began, its
content is open (notes/assumptions/53.md). -/
def Dgu.digest (seed : Nat) (d : Dgu) : Bytes :=
  if d.done && d.running then fit 64 (shaChain d.algRun d.msg)
  else if d.done || d.running then openBytes seed 64
  else zeros 64

/-- The flags of DG_STATUS. A block is compressed within the command that fills it, so BUSY reads 0 (R404, R405). -/
def Dgu.status (d : Dgu) : Nat := 2 * b2n d.done + 4 * b2n d.overrun + 8 * b2n d.part + 16 * b2n d.denied

/-- A register as a party reads it (R404, R407). -/
def Dgu.reg (p : DgParty) (seed off : Nat) (d : Dgu) : Nat :=
  if d.withdrawn then (if off = 4 then 32 else if off = 12 then 3 else 0)
  else match off with
    | 0x000 => d.alg.toNat
    | 0x004 => d.status
    | 0x008 => d.count + 2 ^ 24 * d.run
    | 0x00C => ownerCode d.owner
    | _ => if 0x100 ≤ off ∧ off < 0x140 ∧ d.owner = ownerOf p then num (d.digest seed) (off - 0x100) 4 else 0

/-! DGU1 in the machine. -/

/-- DGU1 changes; the monitor counts the blocks it compresses (R422). -/
def modDgu (f : Dgu → Dgu) (s : State) : State :=
  let d := f s.dgu1
  let n := (d.msg.length - (if d.run = s.dgu1.run then s.dgu1.msg.length else 0)) / d.block
  let t := { s with dgu1 := d }
  if n = 0 then t else count 0x71 0 n t

/-- The word of the port window that holds a byte offset (R388). -/
def dguWord (off : Nat) : Nat := 0x2A000 + off / 2

/-- A party's write: through BAR4, which is there while PF0's BARs answer, or as a port cycle (R98, R404). -/
def dguAccess (p : DgParty) (off : Nat) (f : Dgu → Dgu) (s : State) : State :=
  match p with
  | .host => if barUp s 0 then modDgu f s else s
  | .cabinet => writeCycle (dguWord off) (modDgu f) s

/-- A port write of a word of the window (R404, R405). -/
def dguPortWrite (off : Nat) (data : BitVec 16) (be : BitVec 2) (s : State) : State :=
  if be ≠ 3 ∨ off % 4 ≠ 0 then s
  else if off = 0x40 then modDgu (Dgu.by .cabinet (Dgu.data (le 2 data.toNat))) s
  else modDgu (Dgu.write .cabinet off data.toNat) s

/-- A port read of a word of the window: a low word latches its high word; the high word of another register is open (R404;
notes/assumptions/54.md). -/
def dguPortRead (off : Nat) (s : State) : State :=
  let reg := off / 4 * 4
  let v := s.dgu1.reg .cabinet s.free reg
  if off % 4 < 2 then
    drew (drive (v % 65536) { s with dgu1 := { s.dgu1 with latch := BitVec.ofNat 16 (v / 65536), latchOf := reg } })
  else if s.dgu1.latchOf = reg then drive s.dgu1.latch.toNat s
  else drew (drive ((Config.freeValue s.free).toNat % 65536) s)

/-! Meanings. -/

/-- DG_START (R404): DG_CTRL with START. -/
def execDgStart (party : DgParty) (alg : BitVec 2) (s : State) : Host.Outcome State Fault Refusal :=
  .next (dguAccess party 0 (Dgu.write party 0 (256 + alg.toNat)) s)

/-- DG_FINISH (R404): DG_CTRL with FINISH. -/
def execDgFinish (party : DgParty) (alg : BitVec 2) (s : State) : Host.Outcome State Fault Refusal :=
  .next (dguAccess party 0 (Dgu.write party 0 (512 + alg.toNat)) s)

/-- A DG_DATA write has the width of its path: 4 or 8 bytes through BAR4, 2 on the port (R405). -/
def dataWidthOk (p : DgParty) (n : Nat) : Bool :=
  match p with
  | .host => n == 4 || n == 8
  | .cabinet => n == 2

/-- DG_DATA (R405, R406). A host write while both input blocks are full is dropped and sets OVERRUN; the port cannot fill them. -/
def execDgData (party : DgParty) (data : Bytes) (busy : Bool) (s : State) : Host.Outcome State Fault Refusal :=
  if dataWidthOk party data.length then
    let lost := busy && party == .host
    .next (dguAccess party 0x40 (Dgu.by party fun d => if lost then { d with overrun := true } else d.data data) s)
  else .next s

/-- DG_OWN (R407). -/
def execDgOwn (party : DgParty) (value : BitVec 2) (s : State) : Host.Outcome State Fault Refusal :=
  .next (dguAccess party 0xC (Dgu.own party value.toNat) s)

/-- DG_OWNER_TIMEOUT (R407): 100 ms after the owner's last write. -/
def execDgOwnerTimeout (s : State) : Host.Outcome State Fault Refusal :=
  .next (releaseDgu .cabinet (releaseDgu .host s))

/-- DG_LOW_WORD_READ (R404). -/
def execDgLowWordRead (off : Nat) (s : State) : Host.Outcome State Fault Refusal :=
  .next (readCycle (dguWord (off / 4 * 4)) (dguPortRead (off / 4 * 4)) s)

end Sys2Proof.Machine
end

