-- ==== Sys2Proof/Machine/Keys.lean ====
section
/-! DEFINITION. The key commands: creation, import, invalidation, queries, public keys and challenges (R287 to R321, R360). -/

namespace Sys2Proof.Machine

/-! Finding a key by its handle. -/

/-- What a handle that a command carries turns out to name for a function and a kind. -/
inductive Found where
  /-- The ACTIVE key of that kind at an index. -/
  | key (index : Nat) (rec_ : KeyRec)
  /-- A key of that kind whose chain is broken, or whose generation has been raised since (R307, R321). -/
  | orphaned
  /-- A key of another kind. -/
  | other
  /-- An empty slot (R292, R293). -/
  | empty
  deriving DecidableEq, Repr

/-- The key that a handle names (R292, R293, R307). -/
def findKey (s : State) (fn h kind : Nat) : Found :=
  match nameOf s h with
  | .persistent i =>
    match keyRec s i with
    | .ok _ k =>
      if !mayUse s fn k || bit k.flags 0 != s.keys.testRoot || k.gen != genOf s i then .empty
      else if k.kind ≠ kind then .other
      else match keyState s i with
        | 1 => .key i k
        | 2 => .orphaned
        | _ => .empty
    | _ => .empty
  | .session i => if (currentSess s fn i).isSome then .other else .empty
  | _ => .empty

/-- The OPERATOR parent that a creation names. A handle that the parent's invalidation has made stale gives KEY_ORPHANED (R304 step 7,
R321). -/
def findParent (s : State) (fn h : Nat) : Found :=
  match findKey s fn h 0x02 with
  | .empty =>
    match nameOf s h, keyRec s (h % 4096) with
    | .stale, .ok _ k =>
      if h / 2 ^ 30 = 0 ∧ k.kind = 0x02 ∧ mayUse s fn k ∧ bit k.flags 0 = s.keys.testRoot ∧ k.gen % 2 ^ 18 = h / 4096 then .orphaned
      else .empty
    | _, _ => .empty
  | f => f

/-- The status of a parent that is not there: KEY_SLOT_EMPTY, KEY_ORPHANED, or MALFORMED at its field (R293, R304). -/
def parentRefusal (f : Found) (off : Nat) : Option (Nat × Nat) :=
  match f with
  | .key _ _ => none
  | .orphaned => some (stKeyOrphaned, 0)
  | .other => some (stMalformed, off)
  | .empty => some (stKeySlotEmpty, 0)

/-! Creation. -/

/-- A key to be created. -/
structure NewKey where
  kind : Nat
  owner : Nat
  /-- PARENT index. -/
  parent : Nat
  /-- The INDEX field. -/
  index : Nat
  keyId : Nat
  users : Nat
  /-- METHOD of the KEY_CREATE entry (R320). -/
  method : Nat
  secret : Bytes
  deriving DecidableEq, Repr

/-- The INDEX field is out of its range (R301). -/
def indexBad (kind idx : Nat) : Bool :=
  if kind = 0x10 then idx / 2 ^ 18 % 2 ^ 13 != 0
  else idx / 4096 % 2 ^ 19 != 0 || (decide (idx < 2 ^ 31) && decide (idx % 4096 < 16))

/-- A persistent index takes a new key: never used, orphaned, or unusable and invalidated since (R300, R314, R317). -/
def keyPlaceFree (s : State) (i : Nat) : Bool :=
  match keyState s i with
  | 0 | 2 => true
  | 3 => keyRec s i == .unusable && !s.keys.unusable.contains i && !genBad s i
  | _ => false

/-- The persistent index that an INDEX field names, while it is free (R301). -/
def placePersistent (s : State) (idx : Nat) : Option Nat :=
  if bit idx 31 then (List.range (min 4080 (s.nv.keyRecs.length + 1))).findSome? fun n => if keyPlaceFree s (16 + n) then some (16 + n) else none
  else if keyPlaceFree s (idx % 4096) then some (idx % 4096) else none

/-- A session index holds no session key. -/
def sessFree (s : State) (i : Nat) : Bool := !((tget s.keys.sess i).map (·.live)).getD false

/-- The session index that an INDEX field names, while it is free (R301). -/
def placeSession (s : State) (idx : Nat) : Option Nat :=
  if bit idx 31 then (List.range (min (2 ^ 18) (s.keys.sess.length + 1))).find? fun i => sessFree s i
  else if sessFree s (idx % 2 ^ 18) then some (idx % 2 ^ 18) else none

/-- The indexes that hold an ACTIVE persistent key. -/
def activeIndexes (s : State) : List Nat := (s.nv.keyRecs.map (·.1)).filter fun i => (activeKey s i).isSome

/-- A KEY_ID may not be given to a new persistent key (R294). -/
def keyIdTaken (s : State) (id : Nat) : Bool :=
  id == 0 || decide (0xFFFFFF00 ≤ id) ||
    (activeIndexes s).any fun i => match activeKey s i with
      | some k => k.keyId.toNat == id
      | none => false

/-- The response body of a creation (R301). -/
def createdBody (handle keyId seq : Nat) : Bytes := le 4 handle ++ le 4 keyId ++ le 6 seq ++ zeros 2

/-- The KEY_CREATE body (R320). -/
def createBody (s : State) (n : NewKey) (handle flags : Nat) : Bytes :=
  le 4 handle ++ le 4 n.keyId ++ le 1 n.kind ++ le 1 n.method ++ le 1 n.owner ++ le 1 flags ++ le 4 (handleOf s n.parent)
    ++ le 2 n.users ++ zeros 6

/-- The wrap key of a new record: that of DOMAIN OPERATOR for an OPERATOR key, otherwise that of its parent (R289, R296). -/
def newWrap (s : State) (n : NewKey) : Bytes :=
  let sec := if n.kind = 0x02 then domainSecret s 1 else operatorSecret s n.parent
  wrapKey (sec.getD []) n.parent (genUsed s n.parent)

/-- A key record with its secret wrapped under a fresh WRAP_IV (R296, R299). -/
def sealRec (s : State) (i rseq : Nat) (k : KeyRec) (iv wrap secret : Bytes) : KeyRec :=
  let k1 := { k with iv := BitVec.ofNat 96 (beVal (iv.take 12)) }
  let c := gcmSeal wrap (be 12 k1.iv.toNat) (keyRecHead rseq i k1) (fit 64 secret)
  { k1 with secret := c.1, tag := c.2 }

/-- A persistent key is created at a free index: the KEY_CREATE entry, and then the record (R304 step 8). -/
def writeKey (n : NewKey) (i : Nat) (s : State) : State :=
  let old := tgetD s.nv.keyRecs i ⟨.blank, .blank⟩
  let flags := b2n s.keys.testRoot + 2 * b2n (n.method ≠ 0)
  let k : KeyRec :=
    { kind := n.kind, flags := flags, keyId := BitVec.ofNat 32 n.keyId, gen := genOf s i, parent := n.parent
      users := BitVec.ofNat 16 n.users, parentGen := genUsed s n.parent, owner := n.owner, createSeq := entrySeq s }
  let e := takeBlock s
  let k1 := sealRec s i old.nextRseq k e.1 (newWrap s n) n.secret
  let s1 := journalEntry 0x30 false (createBody s n (handleOf s i) flags) e.2
  { s1 with
    nv := { s1.nv with keyRecs := tset s1.nv.keyRecs i (old.update k1) }
    keys := { s1.keys with unusable := s1.keys.unusable.filter (· ≠ i) } }

/-- A session key is created at a free index: its creation count advances, and the record is sealed (R292, R298). -/
def writeSession (n : NewKey) (i : Nat) (s : State) : State :=
  let c := (sessCount s i + 1) % 4096
  let x : SessRec :=
    { live := true, test := s.keys.testRoot, owner := n.owner, keyId := BitVec.ofNat 32 n.keyId, parent := n.parent, ccount := c
      parentGen := genUsed s n.parent }
  let x1 := sealSess s i x ((draw256 s).setWidth 96) n.secret
  drew { s with
    nv := { s.nv with sessCnt := tset s.nv.sessCnt i c }
    keys := { s.keys with sess := tset s.keys.sess i x1 } }

/-- What keeps the KEY_CREATE entry or the wrap from being made (R220, R270, R446; notes/assumptions/15.md). -/
def createRefusal (kind : Nat) (s : State) : Option (Nat × Nat) :=
  if kind = 0x10 then (if s.keys.wrapSet then none else some (stUnsupported, 2))
  else match entryRefusal false s with
    | some e => some e
    | none => if condUp s 1 then none else some (stUnsupported, 2)

/-- The key store answers: it has not failed, and a root is in force (R33; notes/assumptions/49.md). -/
def keyStoreUp (s : State) : Bool := s.keys.root.isSome && !s.pwr.unitsFailed.any (fun u => u.1 == 1)

/-- Steps 6 to 8 of R304: the index and the KEY_ID are free, the entry is taken, the key is recorded. -/
def createKey (n : NewKey) (s : State) : Reply :=
  if !keyStoreUp s then .refuse s stUnsupported 0
  else if n.kind = 0x10 then
    match placeSession s n.index with
    | none => .refuse s stBusyOwned 0
    | some i =>
      match createRefusal n.kind s with
      | some (st, det) => .refuse s st det
      | none =>
        let t := writeSession n i s
        .done t stOk 0 (createdBody (sessHandle t i) n.keyId 0)
  else if keyIdTaken s n.keyId then .refuse s stBusyOwned 0
  else match placePersistent s n.index with
    | none => .refuse s stBusyOwned 0
    | some i =>
      match createRefusal n.kind s with
      | some (st, det) => .refuse s st det
      | none => .done (writeKey n i s) stOk 0 (createdBody (handleOf s i) n.keyId (entrySeq s))

/-- The OWNER field is wrong: above 15, or on a VF not the VF's own number (R301). -/
def ownerBad (fn owner : Nat) : Bool := decide (15 < owner) || (fn != 0 && owner != fn)

/-- The kinds that only PF0 creates (R289, R301). -/
def pfKind (kind : Nat) : Bool := kind == 0x13 || kind == 0x14

/-- The form of a KEY_DERIVE request (R301). -/
def deriveBad (r : Req) : Option Nat :=
  let kind := fld r 0 1
  firstBad [(decide (kind < 0x10) || decide (0x14 < kind), 16), (fld r 1 1 != 0, 17), (ownerBad r.fn (fld r 2 1), 18), (fld r 3 1 != 0, 19),
    (indexBad kind (fld r 8 4), 24), (!allZero (slice r.body 16 16), 32)]

/-- The secret of a derived child (R291). -/
def deriveSecret (parent : Bytes) (kind : Nat) (context : Bytes) : Bytes :=
  kdf parent "FLDERIVE" (be 1 kind ++ zeros 3 ++ context) (if kind = 0x12 then 512 else 256)

/-- KEY_DERIVE's own steps (R301). -/
def keyDeriveRun (r : Req) (s : State) : Reply :=
  let kind := fld r 0 1
  match deriveBad r with
  | some off => .refuse s stMalformed off
  | none =>
    if r.fn ≠ 0 ∧ pfKind kind then .refuse s stUnsupported 0
    else
      let p := findParent s r.fn (fld r 4 4)
      match parentRefusal p 20, p with
      | some (st, det), _ => .refuse s st det
      | none, .key i _ =>
        createKey
          { kind := kind, owner := fld r 2 1, parent := i, index := fld r 8 4, keyId := fld r 12 4, users := 0, method := 0
            secret := deriveSecret ((operatorSecret s i).getD []) kind (slice r.body 32 32) } s
      | none, _ => .refuse s stKeySlotEmpty 0

/-- KEY_DERIVE (R301). -/
def execKeyDerive (r : Req) (s : State) : Host.Outcome State Fault Refusal :=
  .next (command (.keyDerive r) 0x0301 r (some 64) (keyDeriveRun r) s)

/-! Import. -/

/-- ENCAP_LEN of a METHOD (R303). -/
def encapLen (method : Nat) : Nat := if method = 1 then 1088 else 97

/-- The package is SIGNED (R303). -/
def pkgSigned (p : Bytes) : Bool := bit (num p 6 1) 0

/-- The form of an import package: DETAIL (R303, R304 step 1). -/
def importBad (fn : Nat) (p : Bytes) : Option Nat :=
  let kind := num p 4 1
  let method := num p 5 1
  let need := 160 + num p 22 2 + (if pkgSigned p then 3405 else 0)
  firstBad [pkgBad p 0 4 (num p 0 4 != 0x504B4C46), pkgBad p 4 1 (!(kind == 2 || (decide (0x10 ≤ kind) && decide (kind ≤ 0x14)))),
    pkgBad p 5 1 (method != 1 && method != 2), pkgBad p 6 1 (decide (2 ≤ num p 6 1)), pkgBad p 7 1 (ownerBad fn (num p 7 1)),
    pkgBad p 12 4 (indexBad kind (num p 12 4)), pkgBad p 20 2 (kind != 2 && num p 20 2 != 0),
    pkgBad p 22 2 (num p 22 2 != encapLen method), pkgBad p 24 16 (slice p 24 16 != unitIdBytes),
    pkgBad p 40 32 (!pkgSigned p && !allZero (slice p 40 32)), pkgBad p 152 8 (num p 152 8 != 0),
    (p.length != need, min p.length need)]

/-- OPERATOR keys that are ACTIVE (R289). -/
def operatorCount (s : State) : Nat :=
  ((activeIndexes s).filter fun i => match activeKey s i with
    | some k => k.kind == 2
    | none => false).length

/-- Step 2 of R304: the parent's index, or the refusal. -/
def importParent (fn : Nat) (p : Bytes) (s : State) : Except (Nat × Nat) Nat :=
  let kind := num p 4 1
  if kind = 2 then
    if fn ≠ 0 ∨ !pkgSigned p then .error (stMalformed, 4)
    else if nameOf s (num p 8 4) ≠ .persistent 1 then .error (stMalformed, 8)
    else if 64 ≤ operatorCount s then .error (stBusyOwned, 0)
    else .ok 1
  else if fn ≠ 0 ∧ pfKind kind then .error (stMalformed, 4)
  else
    match findParent s fn (num p 8 4) with
    | .key i _ => .ok i
    | .orphaned => .error (stKeyOrphaned, 0)
    | .other => .error (stMalformed, 8)
    | .empty => .error (stKeySlotEmpty, 0)

/-- Step 4 of R304: the shared secret Z, none when the sender's point is not on the curve. -/
def importZ (s : State) (parent : Nat) (p : Bytes) : Option Bytes :=
  (if num p 4 1 = 2 then deviceImport s else operatorImport s parent).bind fun pair =>
    let encap := slice p 160 (num p 22 2)
    if num p 5 1 = 1 then some (be 32 (Config.kemDecaps pair.2 (BitVec.ofNat 8704 (beVal encap))).toNat)
    else if num encap 0 1 = 4 then (Config.ecdh pair.1 (pointOf encap)).map fun z => be 48 z.toNat
    else none

/-- The key-encryption key (R304 step 5). -/
def importKek (s : State) (parent : Nat) (z p : Bytes) : Bytes :=
  if num p 4 1 = 2 then kdf z "FLIMPORT" (slice p 0 72) 256
  else kdf ((operatorSecret s parent).getD []) "FLIMPORT" (z ++ slice p 0 72) 256

/-- Steps 4 and 5 of R304: the secret, none on any failure. -/
def importSecret (s : State) (parent : Nat) (p : Bytes) : Option Bytes :=
  (importZ s parent p).bind fun z =>
    (gcmOpen (importKek s parent z p) (zeros 12) (slice p 0 72) (slice p 72 64)
      (BitVec.ofNat 128 (beVal (slice p 136 16)))).bind fun b =>
        let n := secretLen (num p 4 1)
        if allZero (b.drop n) then some (b.take n) else none

/-- Step 3 of R304: the signature of a SIGNED package, with its challenge. -/
def importSigned (s : State) (p : Bytes) : Bool :=
  let n := 160 + num p 22 2
  !pkgSigned p || (challengeIs s (slice p 40 32) && operatorSigned s (p.take n) (p.drop n))

/-- A whole package is processed (R304). -/
def importFinal (r : Req) (p : Bytes) (s : State) : Reply :=
  match importBad r.fn p with
  | some off => .refuse s stMalformed off
  | none =>
    match importParent r.fn p s with
    | .error (st, det) => .refuse s st det
    | .ok parent =>
      if !pkeUp s then .refuse s stUnsupported 0
      else match createRefusal (num p 4 1) s with
        | some (st, det) => .refuse s st det
        | none =>
          let s1 := usedPke (if pkgSigned p then consumeChallenge s else s)
          if !importSigned s p then .refuse s1 stAuthFail 0
          else match importSecret s parent p with
            | none => .refuse s1 stAuthFail 0
            | some secret =>
              createKey
                { kind := num p 4 1, owner := num p 7 1, parent := parent, index := num p 12 4, keyId := num p 16 4, users := num p 20 2
                  method := num p 5 1, secret := secret } s1

/-- KEY_IMPORT (R302, R304). -/
def execKeyImport (r : Req) (s : State) : Host.Outcome State Fault Refusal :=
  .next (command (.keyImport r) 0x0302 r none (chunkRun 0x0302 8192 (importFinal r) r) s)

/-- KEY_IMPORT_TIMEOUT (R302, R361): a partial package with no chunk for 60 operating seconds is discarded. -/
def execKeyImportTimeout (fn mbx : Nat) (s : State) : Host.Outcome State Fault Refusal :=
  let m := mbxOf s fn mbx
  if m.pkg ≠ [] ∧ m.pkgOpsec + 60 ≤ s.opsec then
    .next (modMbx fn mbx (fun m => { m with pkg := [], pkgOp := 0 }) s)
  else .next s

/-! Invalidation. -/

/-- The persistent key of a handle is at index `i` or has `i` as its parent (R310). -/
def under (s : State) (i : Nat) (h : BitVec 32) : Bool :=
  let j := keyIndex h
  nameOf s h.toNat == .persistent j && (j == i || match keyRec s j with
    | .ok _ k => k.parent == i && k.parentGen == genOf s i
    | _ => false)

/-- Draws or batches still need the key or a descendant of it (R249, R310). -/
def drawsNeed (s : State) (i : Nat) : Bool :=
  s.nv.draws.any fun d =>
    (!([DrawSt.defining, .certified, .cancelled, .voided].contains d.st) && under s i d.sigkey)
      || (pInstant d.params && (d.st == .ready || d.st == .committed || d.st == .issuing) && under s i d.jkey)

/-- A unit names a key of which `i` is in the chain, in the state before the invalidation (R312). -/
def namesUnder (s : State) (i : Nat) (w : Work) : Bool :=
  (handlesOf s w).any fun h => (chainOf s h).any fun c => c.1 == i

/-- Hot slots leave, and the lanes scrub what came from them (R311, R312). -/
def dropHot (p : HotSlot → Bool) (s : State) : State :=
  let gone := (s.keys.hot.filter p).map (·.no)
  { s with
    keys := { s.keys with hot := s.keys.hot.filter fun e => !p e }
    lanes := s.lanes.map fun l => { l with keys := l.keys.filter fun k => !gone.contains k.slot } }

/-- A persistent key is invalidated (R311 steps 2 to 5). -/
def invalidateKey (i keyId : Nat) (s : State) : State :=
  let g := genOf s i + 1
  let s1 := setGen i g (journalEntry 0x31 false (invalidateBody (handleOf s i) keyId g 1) s)
  let s2 := dropHot (fun e => e.chain.any (fun c => c.1 == i))
    (bumpEpoch { s1 with keys := { s1.keys with unusable := s1.keys.unusable.filter (· ≠ i) } })
  fenceAll (namesUnder s i) s2

/-- A session key is invalidated: its record is zeroised (R311). -/
def invalidateSession (i h : Nat) (s : State) : State :=
  let s1 := dropHot (fun e => e.handle.toNat == h) (bumpEpoch { s with keys := { s.keys with sess := tdel s.keys.sess i } })
  fenceAll (fun w => (handlesOf s w).contains h) s1

/-- The response body (R311). -/
def invalidatedBody (gen seq epoch : Nat) : Bytes := le 4 gen ++ zeros 4 ++ le 6 seq ++ zeros 2 ++ le 8 epoch

/-- The persistent key that an invalidation names: its KEY_ID and whether it is an OPERATOR key; none for an empty slot (R292,
R300, R317). An unusable record does not tell its kind, and the spec does not say whether such an index needs the OPERATOR signature;
the model asks for none (DESIGN CHOICE, notes/assumptions/97.md). -/
def invalidTarget (s : State) (i : Nat) : Option (Nat × Bool) :=
  if genBad s i then none
  else match keyRec s i with
    | .blank => none
    | .unusable => if s.keys.unusable.contains i then some (0, false) else none
    | .ok _ k => if k.gen = genOf s i ∧ bit k.flags 0 = s.keys.testRoot then some (k.keyId.toNat, k.kind == 2) else none

/-- The parts of the request that a key not under OPERATOR authority leaves zero (R310). -/
def unsignedBad (r : Req) : Option Nat :=
  firstBad [(!allZero (slice r.body 8 16), 24), (!allZero (slice r.body 24 32), 40), (!allZero (slice r.body 56 3405), 72)]

/-- KEY_INVALIDATE of a persistent key (R310, R311). -/
def invalidatePersistent (r : Req) (i : Nat) (s : State) : Reply :=
  if i < 6 then .refuse s stUnsupported 0
  else match invalidTarget s i with
    | none => .refuse s stKeySlotEmpty 0
    | some (keyId, operator) =>
      match (if operator then firstBad [(slice r.body 8 16 != unitIdBytes, 24)] else unsignedBad r) with
      | some off => .refuse s stMalformed off
      | none =>
        if 0x3FFFF ≤ genOf s i then .refuse s stUnsupported 0
        else if drawsNeed s i then .refuse s stBusyOwned 0
        else match entryRefusal true s with
          | some (st, det) => .refuse s st det
          | none =>
            let s1 := if operator then consumeChallenge s else s
            if operator && !(challengeIs s (slice r.body 24 32) && operatorSigned s (slice r.body 0 56) (slice r.body 56 3405)) then
              .refuse s1 stAuthFail 0
            else
              let t := invalidateKey i keyId s1
              .done t stOk 0 (invalidatedBody (genOf s i + 1) (entrySeq s) t.epoch)

/-- KEY_INVALIDATE's own steps (R310, R311). -/
def keyInvalidateRun (r : Req) (s : State) : Reply :=
  let h := fld r 0 4
  if fld r 4 4 ≠ 0 then .refuse s stMalformed 20
  else match nameOf s h with
    | .reserved => .refuse s stMalformed 16
    | .stale => .refuse s stKeySlotEmpty 0
    | .persistent i => invalidatePersistent r i s
    | .session i =>
      if sessFree s i then .refuse s stKeySlotEmpty 0
      else match unsignedBad r with
        | some off => .refuse s stMalformed off
        | none =>
          let t := invalidateSession i h s
          .done t stOk 0 (invalidatedBody 0 0 t.epoch)

/-- KEY_INVALIDATE (R310, R311). -/
def execKeyInvalidate (r : Req) (s : State) : Host.Outcome State Fault Refusal :=
  .next (command (.keyInvalidate r) 0x0303 r (some 3461) (keyInvalidateRun r) s)

/-! Queries. -/

/-- Queues that name a key (R315). -/
def keyUse (s : State) (h : Nat) : Nat :=
  (s.queues.filter fun e => e.2.st != .free && (e.2.skey.toNat == h || e.2.jkey.toNat == h)).length

/-- The KEY_QUERY body (R315). -/
def keyQueryBody (s : State) (handle keyId kind state owner flags parent gen parentGen users seq : Nat) : Bytes :=
  le 4 handle ++ le 4 keyId ++ le 1 kind ++ le 1 state ++ le 1 owner ++ le 1 flags ++ le 4 parent ++ le 4 gen ++ le 4 parentGen
    ++ le 2 users ++ le 2 ((hotSlot s handle).getD 0xFFFF) ++ le 4 (keyUse s handle) ++ le 6 seq ++ zeros 10

/-- The body of an empty slot, or of a key the function may not use. -/
def emptyQuery (s : State) (handle : Nat) : Bytes := keyQueryBody s handle 0 0 0 0 0 0 0 0 0 0

/-- The body of a persistent index (R315). -/
def queryPersistent (s : State) (fn i : Nat) : Bytes :=
  let h := handleOf s i
  match keyRec s i with
  | .ok _ k =>
    if mayUse s fn k then
      keyQueryBody s h k.keyId.toNat k.kind (keyState s i) k.owner k.flags (k.parentGen % 2 ^ 18 * 4096 + k.parent) k.gen k.parentGen
        k.users.toNat k.createSeq
    else emptyQuery s h
  | .unusable => keyQueryBody s h 0 0 3 0 0 0 0 0 0 0
  | .blank => emptyQuery s h

/-- The body of a session index (R315). -/
def querySession (s : State) (fn i : Nat) : Bytes :=
  let h := sessHandle s i
  match currentSess s fn i with
  | some x =>
    keyQueryBody s h x.keyId.toNat 0x10 (if sessChainOk s x then 1 else 2) x.owner (b2n x.test) (x.parentGen % 2 ^ 18 * 4096 + x.parent) 0
      x.parentGen 0 0
  | none => emptyQuery s h

/-- KEY_QUERY's own steps (R315). A stale handle reads as an empty slot of its index (R292). -/
def keyQueryRun (r : Req) (s : State) : Reply :=
  let h := fld r 0 4
  if fld r 4 4 ≠ 0 then .refuse s stMalformed 20
  else match nameOf s h with
    | .reserved => .refuse s stMalformed 16
    | .persistent i => .done s stOk 0 (queryPersistent s r.fn i)
    | .session i => .done s stOk 0 (querySession s r.fn i)
    | .stale => .done s stOk 0 (emptyQuery s (if h / 2 ^ 30 = 0 then handleOf s (h % 4096) else sessHandle s (h % 2 ^ 18)))

/-- KEY_QUERY (R315). -/
def execKeyQuery (r : Req) (s : State) : Host.Outcome State Fault Refusal :=
  .next (command (.keyQuery r) 0x0304 r (some 8) (keyQueryRun r) s)

/-! Public keys and challenges. -/

/-- The unendorsed body of a set, or the refusal (R316). -/
def pubkeySet (s : State) (fn set h : Nat) : Except (Nat × Nat) Bytes :=
  let some_ := fun (b : Option Bytes) => match b with
    | some x => Except.ok x
    | none => .error (stUnsupported, 0)
  let of_ := fun (kind : Nat) (f : Nat → KeyRec → Option Bytes) =>
    match findKey s fn h kind with
    | .key i k => some_ (f i k)
    | x => .error ((parentRefusal x 20).getD (stKeySlotEmpty, 0))
  match set with
  | 3 => of_ 0x02 fun i k => (operatorImport s i).map fun p => pubkeysBody s 3 k.keyId.toNat (importPublic p)
  | 4 => of_ 0x13 fun i k => (drawPair s i).map fun p => pubkeysBody s 4 k.keyId.toNat (signPublic p)
  | _ => some_ (deviceSet s set)

/-- The endorsed body: the digest of the unendorsed one, signed by the identity key (R316). -/
def endorsedBody (s : State) (set : Nat) (b : Bytes) : Bytes :=
  let head := le 1 set ++ slice b 1 7 ++ h384 (sha384 b)
  head ++ ((identityPair s).map fun p => hybridSign p head s.free).getD []

/-- DEV_PUBKEYS' own steps (R316). -/
def devPubkeysRun (r : Req) (s : State) : Reply :=
  let set := fld r 0 1 % 128
  let endorse := bit (fld r 0 1) 7
  match firstBad [(decide (4 < set) || (endorse && set == 0), 16), (fld r 1 3 != 0, 17), (decide (set < 3) && fld r 4 4 != 0, 20)] with
  | some off => .refuse s stMalformed off
  | none =>
    match pubkeySet s r.fn set (fld r 4 4) with
    | .error (st, det) => .refuse s st det
    | .ok b =>
      if !endorse then .done s stOk 0 b
      else if !pkeUp s then .refuse s stUnsupported 0
      else .done (signed s) stOk 0 (endorsedBody s (fld r 0 1) b)

/-- DEV_PUBKEYS (R316). -/
def execDevPubkeys (r : Req) (s : State) : Host.Outcome State Fault Refusal :=
  .next (command (.devPubkeys r) 0x0105 r (some 8) (devPubkeysRun r) s)

/-- DEV_CHALLENGE's own steps (R360; notes/assumptions/15.md). -/
def devChallengeRun (s : State) : Reply :=
  if condUp s 1 then
    let x := takeSeed s
    .done { x.2 with keys := { x.2.keys with challenge := some (x.1, s.opsec) } } stOk 0
      (be 32 x.1.toNat ++ unitIdBytes ++ le 8 s.opsec ++ le 4 s.pwrCyc ++ le 1 (lcCode s.lc) ++ zeros 3)
  else .refuse s stUnsupported 2

/-- DEV_CHALLENGE (R360). -/
def execDevChallenge (r : Req) (s : State) : Host.Outcome State Fault Refusal :=
  .next (command (.devChallenge r) 0x0104 r (some 0) devChallengeRun s)

/-- CHALLENGE_EXPIRY (R360). -/
def execChallengeExpiry (s : State) : Host.Outcome State Fault Refusal :=
  match s.keys.challenge with
  | some (_, t) => if t + 86400 ≤ s.opsec then .next (consumeChallenge s) else .next s
  | none => .next s

end Sys2Proof.Machine
end

