-- ==== Sys2Proof/Machine/Meter.lean ====
section
/-! DEFINITION. The meter port and the meter store: words, groups, counter windows and increments, port registers, the ticket verdict
and the host commands (R388 to R403). -/

namespace Sys2Proof.Machine

/-! The store. -/

/-- A word of the store: pages 0 to 1,023 of 128 words, of which words 124 to 127 hold nothing (R388). -/
def storeWord (word : Nat) : Bool := word < 0x20000 && word % 128 < 124

/-- The mirror's word (R392). -/
def mirrorWord (m : Meter) (word : Nat) : Nat := if storeWord word then leVal (mreads m.mirror (2 * word) 2) else 0

/-- The byte that the cabinet controller reads: the mirror with the open group's bytes laid over it (R394). -/
def portByte (m : Meter) (a : Nat) : Byte :=
  if m.group = some (a / 256) ∧ m.shadowMask.contains a then mread m.shadow a else mread m.mirror a

/-- The word that the cabinet controller reads (R388, R394). -/
def portWord (m : Meter) (word : Nat) : Nat :=
  if storeWord word then (portByte m (2 * word)).toNat + 256 * (portByte m (2 * word + 1)).toNat else 0

/-- A page is dirty; a page that is dirty already keeps its place (R20, R392). -/
def Meter.dirt (p : Nat) (m : Meter) : Meter := if m.dirty.contains p then m else { m with dirty := m.dirty ++ [p] }

/-- One byte is written to the mirror, which dirties its page. -/
def Meter.put (a : Nat) (b : Byte) (m : Meter) : Meter :=
  Meter.dirt (a / 256) { m with mirror := mwrite m.mirror a b }

/-- One byte written by the cabinet controller: into the shadow of the group open on its page, else into the mirror (R394). -/
def Meter.portPut (a : Nat) (b : Byte) (m : Meter) : Meter :=
  if m.group = some (a / 256) then
    { m with shadow := mwrite m.shadow a b, shadowMask := if m.shadowMask.contains a then m.shadowMask else m.shadowMask ++ [a] }
  else m.put a b

/-- A store word written by the cabinet controller under its byte enables; `be` bit n stands for a low nMP_BE[n] (R391). -/
def portStore (word : Nat) (data : BitVec 16) (be : BitVec 2) (m : Meter) : Meter :=
  if storeWord word then
    let m1 := if be.getLsbD 0 then m.portPut (2 * word) (data.setWidth 8) else m
    if be.getLsbD 1 then m1.portPut (2 * word + 1) ((data >>> 8).setWidth 8) else m1
  else m

/-- Words written by the host from a word address; words 124 to 127 of a page are skipped (R402). -/
def hostStore (m : Meter) : Nat → Bytes → Meter
  | word, b0 :: b1 :: rest =>
    hostStore (if storeWord word then (m.put (2 * word) b0).put (2 * word + 1) b1 else m) (word + 1) rest
  | _, _ => m

/-! Groups. -/

/-- The open group is discarded. -/
def Meter.dropGroup (m : Meter) : Meter := { m with group := none, shadow := [], shadowMask := [] }

/-- OPEN (R394): an open group is discarded and sets GROUP_LOST. -/
def Meter.openGroup (p : Nat) (m : Meter) : Meter :=
  { m.dropGroup with group := some p, groupLost := m.groupLost || m.group.isSome }

/-- COMMIT (R394): the masked bytes go to the mirror. -/
def Meter.commit (m : Meter) : Meter :=
  if m.group.isSome then (m.shadowMask.foldl (fun x a => x.put a (mread m.shadow a)) m).dropGroup else m

/-- MP_GROUP.OP (R394). -/
def Meter.groupOp (op : Nat) (m : Meter) : Meter :=
  match op with
  | 1 => m.openGroup m.page.toNat
  | 2 => m.commit
  | 3 => m.dropGroup
  | _ => m

/-! Counters on the port. -/

/-- The largest counter value (R281, R398). -/
def ctrMax : Nat := 2 ^ 56 - 1

/-- Word `k` of a counter window (R397). -/
def windowWord (val : Nat) (lost : Bool) (k : Nat) : Nat :=
  if k < 3 then val / 2 ^ (16 * k) % 65536
  else val / 2 ^ 48 % 256 + 256 * b2n lost + 512 * b2n (val == ctrMax)

/-- A read of a window word: word 0 latches the counter; the others give the latch while it is of the same counter (R397). -/
def windowRead (c k : Nat) (s : State) : State :=
  let m := s.meter
  if k = 0 then
    drive (windowWord (ctrVal s c) (ctrOf s c).lost 0)
      { s with meter := { m with winOf := c, winVal := ctrVal s c, winLost := (ctrOf s c).lost } }
  else if m.winOf = c then drive (windowWord m.winVal m.winLost k) s
  else drive (windowWord (ctrVal s c) (ctrOf s c).lost k) s

/-- An amount is added with saturation, and the counter is dirty (R282, R398). -/
def addCounter (c v : Nat) (s : State) : State :=
  let t := setLive c (min ((ctrOf s c).live + v) ctrMax) s
  { t with dirtyCtrs := if s.dirtyCtrs.contains c then s.dirtyCtrs else s.dirtyCtrs ++ [c] }

/-- Counters that may be dirty at once (R282). -/
def dirtyLimit : Nat := 64

/-- An increment (R398): both byte enables, no LOST counter, and the dirty limit, at which the counter that has been dirty longest is
written by force. -/
def increment (c v : Nat) (be : BitVec 2) (s : State) : State :=
  if be ≠ 3 then { s with meter := { s.meter with beErr := true } }
  else if (ctrOf s c).lost then s
  else if s.dirtyCtrs.contains c || s.dirtyCtrs.length < dirtyLimit then count 0x82 0 1 (addCounter c v s)
  else if s.meter.forcedBusy then event 0x0B02 c { s with meter := { s.meter with incDrop := true } }
  else count 0x82 0 1 (addCounter c v { s with meter := { s.meter with forcedBusy := true } })

/-! The ticket verdict. -/

/-- The reference's first word (R399). -/
def tvRef (m : Meter) : Nat := m.tvLo.toNat + 65536 * (m.tvHi.toNat % 16)

/-- Words compared (R399). -/
def tvWords (m : Meter) : Nat := m.tvLen.toNat % 32

/-- The verdict can be evaluated: TV_LEN is 1 to 16, and the reference lies in the words of one page (R400). -/
def tvValid (m : Meter) : Bool :=
  1 ≤ tvWords m && tvWords m ≤ 16 && tvRef m < 0x20000 && tvRef m % 128 + tvWords m ≤ 124

/-- All candidate words equal the reference, which is the mirror's, whatever its hiding (R394, R400). -/
def tvEqual (m : Meter) : Bool :=
  (List.range (tvWords m)).all fun i => (m.tvCand.getD i 0).toNat == mirrorWord m (tvRef m + i)

/-- A read of TV_VERDICT (R400). `spaced`: it comes 1 us or more after the previous evaluation. -/
def tvRead (spaced : Bool) (s : State) : State :=
  let m := s.meter
  if spaced && tvValid m then
    drive (if tvEqual m then 0x5A5A else 0xA5A5)
      { s with meter := { m with
          tvCand := List.replicate 16 0
          tvFails := if tvEqual m then m.tvFails else min (m.tvFails + 1) 65535 } }
  else drive 0 s

/-! Port registers. -/

/-- MP_STATUS (R393 to R398). -/
def mpStatus (s : State) : Nat :=
  let m := s.meter
  b2n m.torn + 2 * (m.level % 4) + 8 * b2n m.locked + 16 * b2n (s.lc == .retn) + 32 * b2n s.pwr.degraded
    + 64 * b2n (!s.dgu1.withdrawn) + 128 * b2n m.group.isSome + 256 * b2n m.groupLost + 512 * b2n m.gateFault
    + 1024 * b2n m.incDrop + 2048 * b2n m.beErr

/-- A port register other than TV_VERDICT as it reads; write-only and reserved words read zero (R6, R7, R399). -/
def mpReg (word : Nat) (s : State) : Nat :=
  let m := s.meter
  match word with
  | 0x28000 => mpStatus s
  | 0x28001 => m.hide
  | 0x28002 => m.page.toNat + 32768 * b2n (m.group == some m.page.toNat)
  | 0x28010 => m.tvLo.toNat
  | 0x28011 => m.tvHi.toNat % 16
  | 0x28012 => m.tvLen.toNat % 32
  | 0x28014 => m.tvFails
  | _ => 0

/-- The bits that the byte enables let through. -/
def beMask (be : BitVec 2) : BitVec 16 := (if be.getLsbD 0 then 0x00FF else 0) ||| (if be.getLsbD 1 then 0xFF00 else 0)

/-- A register's value after a write under byte enables (R391). -/
def merge (old data : BitVec 16) (be : BitVec 2) : BitVec 16 := (old &&& ~~~beMask be) ||| (data &&& beMask be)

/-- A write of a port register; read-only and reserved words ignore it (R6, R7, R394, R399). -/
def mpRegWrite (word : Nat) (data : BitVec 16) (be : BitVec 2) (m : Meter) : Meter :=
  let w := data &&& beMask be
  match word with
  | 0x28000 =>
    { m with
      groupLost := m.groupLost && !w.getLsbD 8, gateFault := m.gateFault && !w.getLsbD 9
      incDrop := m.incDrop && !w.getLsbD 10, beErr := m.beErr && !w.getLsbD 11 }
  | 0x28002 =>
    Meter.groupOp ((w >>> 12).setWidth 2).toNat { m with page := (merge (m.page.setWidth 16) data be).setWidth 10 }
  | 0x28010 => { m with tvLo := merge m.tvLo data be }
  | 0x28011 => { m with tvHi := merge m.tvHi data be &&& 0x000F }
  | 0x28012 => { m with tvLen := merge m.tvLen data be &&& 0x001F }
  | _ =>
    if 0x28020 ≤ word ∧ word < 0x28030 then
      { m with tvCand := modAt m.tvCand (word - 0x28020) (merge · data be) }
    else m

/-! Cycles. -/

/-- What a read cycle returns, by address (R388, R390). -/
def portRead (word : Nat) (s : State) : State :=
  if word < 0x20000 then drive (portWord s.meter word) s
  else if word < 0x24000 then windowRead ((word - 0x20000) / 4) (word % 4) s
  else if word = 0x28013 then tvRead (Config.freeBit s.free) (drew s)
  else if word < 0x28100 then drive (mpReg word s) s
  else dguPortRead (2 * (word - 0x2A000)) s

/-- What a write cycle changes, by address (R388, R391). -/
def portWrite (word : Nat) (data : BitVec 16) (be : BitVec 2) (s : State) : State :=
  if word < 0x20000 then { s with meter := portStore word data be s.meter }
  else if word < 0x28000 then increment (word - 0x24000) data.toNat be s
  else if word < 0x28100 then { s with meter := mpRegWrite word data be s.meter }
  else dguPortWrite (2 * (word - 0x2A000)) data be s

/-- METER_PORT_READ (R390). A read whose strobes are too short may return any data, and touches nothing (R374). A read of TV_VERDICT
by this row leaves its spacing open. -/
def execMeterPortRead (addr : BitVec 20) (strobesOk : Bool) (s : State) : Host.Outcome State Fault Refusal :=
  if strobesOk then .next (readCycle addr.toNat (portRead addr.toNat) s)
  else if mpUp s then .next (drew (drive ((Config.freeValue s.free).toNat % 65536) s))
  else .next s

/-- METER_PORT_WRITE (R391). A write with nMP_WE low for less than 10 ns, or rising less than 15 ns after the cycle began, is a cycle
not done (R374). -/
def execMeterPortWrite (addr : BitVec 20) (data : BitVec 16) (be : BitVec 2) (weLowNs weRiseNs : Nat) (s : State) :
    Host.Outcome State Fault Refusal :=
  if 10 ≤ weLowNs ∧ 15 ≤ weRiseNs then .next (writeCycle addr.toNat (portWrite addr.toNat data be) s) else .next s

/-- METER_INCREMENT (R398). There are 4,096 increment addresses. -/
def execMeterIncrement (ctr : Nat) (amount : BitVec 16) (be : BitVec 2) (s : State) : Host.Outcome State Fault Refusal :=
  if ctr < 4096 then .next (writeCycle (0x24000 + ctr) (increment ctr amount.toNat be) s) else .next s

/-- COUNTER_WINDOW_READ (R397). There are 4,096 windows. -/
def execCounterWindowRead (ctr : Nat) (s : State) : Host.Outcome State Fault Refusal :=
  if ctr < 4096 then .next (readCycle (0x20000 + 4 * ctr) (windowRead ctr 0) s) else .next s

/-- GROUP_OPEN (R394). -/
def execGroupOpen (page : BitVec 10) (s : State) : Host.Outcome State Fault Refusal :=
  .next (writeCycle 0x28002 (fun t => { t with meter := Meter.openGroup page.toNat { t.meter with page := page } }) s)

/-- GROUP_COMMIT (R394). -/
def execGroupCommit (s : State) : Host.Outcome State Fault Refusal :=
  .next (writeCycle 0x28002 (fun t => { t with meter := t.meter.commit }) s)

/-- GROUP_ABORT (R394). -/
def execGroupAbort (s : State) : Host.Outcome State Fault Refusal :=
  .next (writeCycle 0x28002 (fun t => { t with meter := t.meter.dropGroup }) s)

/-- TV_VERDICT (R400). -/
def execTvVerdict (spaced : Bool) (s : State) : Host.Outcome State Fault Refusal :=
  .next (readCycle 0x28013 (tvRead spaced) s)

/-! Host commands. -/

/-- The range of METER_READ and METER_WRITE (R401, R402). -/
def meterRangeBad (r : Req) : Option Nat :=
  let a := fld r 0 4
  let n := fld r 4 2
  firstBad [(decide (0x20000 ≤ a), 16), (n == 0 || decide (2036 < n) || decide (0x20000 < a + n), 20)]

/-- The words from an address on, as the mirror holds them (R401). -/
def mirrorWords (m : Meter) (a n : Nat) : Bytes := ((List.range n).map fun i => le 2 (mirrorWord m (a + i))).flatten

/-- METER_READ's own steps (R401). -/
def meterReadRun (r : Req) (s : State) : Reply :=
  match meterRangeBad r, fld r 6 2 with
  | some off, _ => .refuse s stMalformed off
  | none, 0 => .done s stOk 0 (slice r.body 0 8 ++ mirrorWords s.meter (fld r 0 4) (fld r 4 2))
  | none, _ => .refuse s stMalformed 22

/-- METER_READ (R401). -/
def execMeterRead (r : Req) (s : State) : Host.Outcome State Fault Refusal :=
  .next (command (.meterRead r) 0x0B02 r (some 8) (meterReadRun r) s)

/-- METER_WRITE's own steps (R402). -/
def meterWriteRun (r : Req) (s : State) : Reply :=
  let n := fld r 4 2
  if r.body.length < 8 then .refuse s stMalformed (lenDetail r 8)
  else match meterRangeBad r with
    | some off => .refuse s stMalformed off
    | none =>
      if r.body.length ≠ 8 + 2 * n then .refuse s stMalformed (lenDetail r (8 + 2 * n))
      else if fld r 6 2 ≠ 0 then .refuse s stMalformed 22
      else if s.lc = .retn then .refuse s stUnsupported 0
      else
        .done (eventX 0x0B04 (fld r 0 4) (le 2 n) { s with meter := hostStore s.meter (fld r 0 4) (r.body.drop 8) }) stOk 0 []

/-- METER_WRITE (R402). -/
def execMeterWrite (r : Req) (s : State) : Host.Outcome State Fault Refusal :=
  .next (command (.meterWrite r) 0x0B03 r none (meterWriteRun r) s)

/-- LEVEL and HIDE are put in force, with the G_MPT entries that follow from them (R395, R396). -/
def applyProtection (level hide : Nat) (s : State) : State :=
  setGate gMpt (mptEntries level hide) { s with meter := { s.meter with level := level, hide := hide } }

/-- METER_PROTECT's own steps (R396). -/
def meterProtectRun (r : Req) (s : State) : Reply :=
  let level := fld r 0 1
  let hide := fld r 1 1
  match firstBad [(decide (3 < level), 16), (decide (16 < hide) || (hide != 0 && level == 0), 17), (decide (1 < fld r 2 1), 18),
      (fld r 3 1 != 0, 19)] with
  | some off => .refuse s stMalformed off
  | none =>
    if s.meter.locked then .refuse s stBusyOwned 0
    else
      let lock := fld r 2 1 == 1
      let s1 := { s with
        nv := { s.nv with meterProt := AB.update s.nv.meterProt (level, hide) }
        meter := { s.meter with locked := lock } }
      let s2 := event 0x0B03 (level + 4 * hide + 128 * b2n lock) (bumpEpoch (applyProtection level hide s1))
      .done s2 stOk 0 (slice r.body 0 4 ++ le 8 s2.epoch)

/-- METER_PROTECT (R396). -/
def execMeterProtect (r : Req) (s : State) : Host.Outcome State Fault Refusal :=
  .next (command (.meterProtect r) 0x0B04 r (some 4) (meterProtectRun r) s)

end Sys2Proof.Machine
end

