-- ==== Sys2Proof/Machine/Mailbox.lean ====
section
/-! DEFINITION. Mailbox requests that arrive as bytes (a buffer after GO, a WR_MBX frame) or were held: the command that a request
spells, and its execution (R66, R121 to R125). -/

namespace Sys2Proof.Machine

/-- The state that a meaning answers. -/
def stateOf (s : State) : Host.Outcome State Fault Refusal → State
  | .next t => t
  | _ => s

/-- The request that bytes spell (R123). Bytes too few for a header count as a LEN that disagrees. `dma` is what a DMA read of the command
returns. -/
def reqFrom (p : Path) (fn mbx : Nat) (b : Bytes) (dma : ReadResult) : Req :=
  { path := p, fn := fn, mbx := mbx, tag := BitVec.ofNat 32 (num b 4 4), len := if b.length < 16 then 0 else num b 2 2
    rsv8 := BitVec.ofNat 16 (num b 8 2), rsv10 := BitVec.ofNat 16 (num b 10 2), rsv12 := BitVec.ofNat 32 (num b 12 4)
    body := b.drop 16, dma := dma }

/-- What a measurement of the capacitor finds, left open (notes/assumptions/58.md). -/
def openCap (s : State) : CapReading :=
  ⟨Config.freeNat s.free, Config.freeNat (s.free + 1), Config.freeNat (s.free + 2), Config.freeBit s.free⟩

/-- The command of an opcode (R125). What the environment finds while it executes is left open (notes/assumptions/58.md). -/
def instrOf (op : Nat) (r : Req) (s : State) : Instr :=
  match op with
  | 0x0101 => .devIdentity r
  | 0x0102 => .devStatus r
  | 0x0103 => .devStandby r
  | 0x0104 => .devChallenge r
  | 0x0105 => .devPubkeys r
  | 0x0201 => .fnConfig r
  | 0x0202 => .queueCreate r
  | 0x0203 => .queueDisable r
  | 0x0204 => .queueDelete r
  | 0x0205 => .queueQuery r
  | 0x0206 => .fnDisable r
  | 0x0207 => .fnEnable r
  | 0x0301 => .keyDerive r
  | 0x0302 => .keyImport r
  | 0x0303 => .keyInvalidate r
  | 0x0304 => .keyQuery r
  | 0x0401 => .drawSchedule r
  | 0x0402 => .drawClose r
  | 0x0403 => .drawRun r (Config.freeNat s.free)
  | 0x0404 => .drawCert r
  | 0x0405 => .instantBatch r (Config.freeNat s.free)
  | 0x0406 => .nbStatus r
  | 0x0501 => .journalStatus r
  | 0x0502 => .journalQuery r
  | 0x0503 => .journalExport r
  | 0x0504 => .journalReclaim r
  | 0x0505 => .journalSync r
  | 0x0506 => .journalClaimTime r
  | 0x0601 => .rulesetLoad r
  | 0x0602 => .rulesetQuery r
  | 0x0603 => .rulesetDelete r
  | 0x0701 => .lcStatus r
  | 0x0702 => .lcTransition r
  | 0x0703 => .lcFlagBurn r
  | 0x0704 => .dbgCertLoad r
  | 0x0801 => .fwStatus r
  | 0x0802 => .fwWrite r
  | 0x0803 => .fwVerify r
  | 0x0804 => .fwActivate r
  | 0x0805 => .fwCommit r
  | 0x0901 => .evtRead r
  | 0x0902 => .evtClear r
  | 0x0903 => .diagSelftest r (openCap s)
  | 0x0904 => .diagSchedule r
  | 0x0905 => .diagHealth r
  | 0x0906 => .pmonConfig r
  | 0x0A01 => .gateWrite r
  | 0x0A02 => .gateRead r
  | 0x0A03 => .gateLock r
  | 0x0A04 => .gateSync r
  | 0x0A05 => .gateFaults r
  | 0x0B01 => .ctrRead r
  | 0x0B02 => .meterRead r
  | 0x0B03 => .meterWrite r
  | 0x0B04 => .meterProtect r
  | _ => .mailboxUnknownOpcode r (BitVec.ofNat 16 op)

/-- A mailbox command runs. -/
def serve (i : Instr) (s : State) : State :=
  stateOf s (match i with
    | .devIdentity r => execDevIdentity r s
    | .devStatus r => execDevStatus r s
    | .devStandby r => execDevStandby r s
    | .devChallenge r => execDevChallenge r s
    | .devPubkeys r => execDevPubkeys r s
    | .fnConfig r => execFnConfig r s
    | .queueCreate r => execQueueCreate r s
    | .queueDisable r => execQueueDisable r s
    | .queueDelete r => execQueueDelete r s
    | .queueQuery r => execQueueQuery r s
    | .fnDisable r => execFnDisable r s
    | .fnEnable r => execFnEnable r s
    | .keyDerive r => execKeyDerive r s
    | .keyImport r => execKeyImport r s
    | .keyInvalidate r => execKeyInvalidate r s
    | .keyQuery r => execKeyQuery r s
    | .drawSchedule r => execDrawSchedule r s
    | .drawClose r => execDrawClose r s
    | .drawRun r k => execDrawRun r k s
    | .drawCert r => execDrawCert r s
    | .instantBatch r k => execInstantBatch r k s
    | .nbStatus r => execNbStatus r s
    | .journalStatus r => execJournalStatus r s
    | .journalQuery r => execJournalQuery r s
    | .journalExport r => execJournalExport r s
    | .journalReclaim r => execJournalReclaim r s
    | .journalSync r => execJournalSync r s
    | .journalClaimTime r => execJournalClaimTime r s
    | .rulesetLoad r => execRulesetLoad r s
    | .rulesetQuery r => execRulesetQuery r s
    | .rulesetDelete r => execRulesetDelete r s
    | .lcStatus r => execLcStatus r s
    | .lcTransition r => execLcTransition r s
    | .lcFlagBurn r => execLcFlagBurn r s
    | .dbgCertLoad r => execDbgCertLoad r s
    | .fwStatus r => execFwStatus r s
    | .fwWrite r => execFwWrite r s
    | .fwVerify r => execFwVerify r s
    | .fwActivate r => execFwActivate r s
    | .fwCommit r => execFwCommit r s
    | .evtRead r => execEvtRead r s
    | .evtClear r => execEvtClear r s
    | .diagSelftest r c => execDiagSelftest r c s
    | .diagSchedule r => execDiagSchedule r s
    | .diagHealth r => execDiagHealth r s
    | .pmonConfig r => execPmonConfig r s
    | .gateWrite r => execGateWrite r s
    | .gateRead r => execGateRead r s
    | .gateLock r => execGateLock r s
    | .gateSync r => execGateSync r s
    | .gateFaults r => execGateFaults r s
    | .ctrRead r => execCtrRead r s
    | .meterRead r => execMeterRead r s
    | .meterWrite r => execMeterWrite r s
    | .meterProtect r => execMeterProtect r s
    | .mailboxUnknownOpcode r op => execMailboxUnknownOpcode r op s
    | _ => .next s)

/-- Bytes that a DMA read of a command can return at most (R302, R361). -/
def dmaMost : Nat := 8192

/-- A request that a path delivered as bytes is executed (R122). Host memory that a DMA read reaches is open on this way
(notes/assumptions/58.md). -/
def runRequest (p : Path) (fn mbx : Nat) (b : Bytes) (s : State) : State :=
  let dma := ReadResult.data (openBytes s.free dmaMost)
  let t := { s with free := s.free + 4 }
  serve (instrOf (num b 0 2) (reqFrom p fn mbx b dma) t) { t with free := t.free + 3 }

end Sys2Proof.Machine
end

