-- ==== Sys2Proof/Machine/Frames.lean ====
section
/-! DEFINITION. The framed paths: SUBMIT frames on the USB vendor interface and the transactions of the quad-SPI target (R83 to R85, R108 to
R117, R374). -/

namespace Sys2Proof.Machine

/-! Submissions with inline source. -/

/-- An entry delivered with its source is judged and taken: decided at stage 1, or with its source at stages 2 and 3 (R111, R116, R145,
R146). `pool` says where its charge lies. -/
def takeFrame (qix : Nat) (e src : Bytes) (pool : Bool) (s : State) : State :=
  let q := queueOf s qix
  let w : Work := { qix := qix, fn := q.fn, ent := e, epoch := s.epoch, cto := s.link.cto }
  let w1 := match stage1 s q e with
    | some (st, det) => w.decided st det
    | none => takeSource src { w with charge := ingressCharge e, pooled := pool, stCharge := stagingCharge e }
  count 0x09 q.fn ((src.length + 63) / 64) (count 0x05 q.fn 1 (findContext qix q.fn (recharge { s with work := s.work ++ [w1] })))

/-- A queue of the path that a submission may name; another index has no queue there (R85; notes/assumptions/59.md). -/
def frameQueue (s : State) (p : Path) (qix : Nat) : Bool := (queueOf s qix).st != .free && (queueOf s qix).path == p

/-! USB vendor interface. -/

/-- Output that waits for bulk IN 0x81, in bytes (R112). -/
def usbWaiting (s : State) : Nat := (s.link.usbOut.map (·.length)).sum

/-- The COMPLETE frame of a refused SUBMIT (R84). -/
def usbRefusal (qix : Nat) (e : Bytes) (st : Nat) : Bytes :=
  usbHeader 2 qix 0 16 ++ le 4 (eHtag e) ++ zeros 6 ++ le 2 st ++ zeros 4

/-- The header is that of a SUBMIT frame (R109). -/
def submitHeader (f : Bytes) : Bool :=
  num f 0 2 == 1 && num f 2 2 == 0 && decide (num f 4 4 < 2 ^ 18) && num f 8 8 == 0

/-- The endpoint is flow-controlled: PF0's ingress credit is exhausted, 8 MiB of output wait, or nothing is fetched now (R33, R50, R66, R112). -/
def usbStalled (s : State) : Bool := !fetchOpen s || decide (8388608 ≤ usbWaiting s) || (creditFor s 0 64).isNone

/-- The frame is held back by flow control. An entry that stage 1 decides needs no credit (R112, R143, R145). -/
def usbHeldBack (s : State) (qix : Nat) (e : Bytes) : Bool :=
  usbStalled s || ((stage1 s (queueOf s qix) e).isNone
    && (notYet s e || (creditFor s 0 (ingressCharge e)).isNone || !stagingFits s 0 e))

/-- The USB function takes frames: configuration 1 is selected and the port reaches it (R84, R88, R108). -/
def usbUp (s : State) : Bool := linkUp s && s.link.usbConf && usbReached s.link

/-- A SUBMIT frame on bulk OUT 0x01 (R84, R109 to R112). One with another header is dropped without an answer (notes/assumptions/85.md); one held
back is not taken. -/
def usbSubmit (frame : Bytes) (s : State) : State :=
  let e := slice frame 16 32
  let qix := num frame 4 4 % 2 ^ 18
  if frame.length < 48 then event 0x0202 frame.length s
  else if !submitHeader frame then s
  else if s.link.hostPath ≠ some .usb then
    { s with link := { s.link with usbOut := s.link.usbOut ++ [usbRefusal qix e stBusyOwned] } }
  else if !frameQueue s .usb qix || usbHeldBack s qix e then s
  else takeFrame qix e (frame.drop 48) ((creditFor s 0 (ingressCharge e)).getD false) s

/-- The header is that of an MBX_REQ frame (R109). Mailbox 63 is answered BUSY_OWNED (R85). -/
def mbxReqHeader (f : Bytes) : Bool :=
  num f 0 2 == 3 && num f 2 2 == 0 && num f 4 4 == 0 && decide (num f 8 2 < 64) && num f 10 2 == 0 && num f 12 4 == f.length - 16

/-- USB_SUBMIT (R84, R109 to R112, R122). The frame ends where its transfer ends. An MBX_REQ frame, which comes on bulk OUT 0x02, delivers its
request; one with another header is dropped (notes/assumptions/85.md). -/
def execUsbSubmit (frame : Bytes) (s : State) : Host.Outcome State Fault Refusal :=
  if !usbUp s then .next s
  else if num frame 0 2 = 3 then
    (if mbxReqHeader frame then .next (runRequest .usb 0 (num frame 8 2) (slice frame 16 4096) s) else .next s)
  else .next (settle s (usbSubmit frame s))

/-! Quad-SPI target. -/

/-- The SPI target answers: it has been enabled and its bank is in band (R38, R66). -/
def spiUp (s : State) : Bool := linkUp s && s.pwr.ioGen

/-- Data driven on SPI_IO, with its CRC-32 (R113). -/
def spiSend (b : Bytes) (s : State) : State := { s with out := s.out ++ [.spi (b ++ le 4 (crc32 b).toNat)] }

/-- A transaction is ignored or discarded: CRC_ERR is set (R114, R116). -/
def spiDrop (s : State) : State := { s with spi := { s.spi with crcErr := true } }

/-- The data and its CRC agree, and no clock was too short (R113, R116, R374). -/
def spiGood (data : Bytes) (crc : BitVec 32) (timingOk : Bool) : Bool := timingOk && crc32 data == crc

/-- RD_STATUS (R114, R115). -/
def execRdStatus (s : State) : Host.Outcome State Fault Refusal :=
  if spiUp s then .next (spiSend (spiStatus s) { s with spi := { s.spi with crcErr := false } }) else .next s

/-- A frame with a valid CRC has been received (R101). -/
def spiSeen (s : State) : State := { s with link := { s.link with spiSeen := true } }

/-- WR_MBX (R114, R116): the request goes to mailbox 63. A response not read yet makes way for it (notes/assumptions/60.md). -/
def execWrMbx (arg : BitVec 32) (data : Bytes) (crc : BitVec 32) (timingOk : Bool) (s : State) :
    Host.Outcome State Fault Refusal :=
  if !spiUp s then .next s
  else if arg = 0 ∨ 4096 < arg.toNat ∨ data.length ≠ arg.toNat ∨ !spiGood data crc timingOk then .next (spiDrop s)
  else
    let s1 := spiSeen s
    let s2 := if (mbxOf s 0 63).busy then s1 else { s1 with spi := { s1.spi with resp := none } }
    .next (sleepIfDue (runRequest .spi 0 63 data s2))

/-- RD_MBX (R114): the length and the response of mailbox 63. The response stays, with RESP_READY, until the next request is taken; with none waiting
the length is 0 (notes/assumptions/60.md). -/
def execRdMbx (s : State) : Host.Outcome State Fault Refusal :=
  if spiUp s then
    let b := s.spi.resp.getD []
    .next (spiSend (le 4 b.length ++ b) s)
  else .next s

/-- SPI_SUBMIT (R114, R116). With no room for the entry, or while nothing is fetched, it is discarded, and so are data that hold no whole entry
(notes/assumptions/19.md). -/
def execSpiSubmit (arg : BitVec 32) (data : Bytes) (crc : BitVec 32) (timingOk : Bool) (s : State) :
    Host.Outcome State Fault Refusal :=
  let e := data.take 32
  let src := data.drop 32
  if !spiUp s then .next s
  else if 2 ^ 18 ≤ arg.toNat ∨ !spiGood data crc timingOk ∨ data.length < 32 then .next (spiDrop s)
  else if !fetchOpen s || submitFull s || !frameQueue s .spi arg.toNat then .next (spiDrop (spiSeen s))
  else if (stage1 s (queueOf s arg.toNat) e).isNone && spiFree s < ingressCharge e then .next (spiDrop (spiSeen s))
  else .next (settle s (takeFrame arg.toNat e src false (spiSeen s)))

/-- The 20 bytes and output of a completion as RD_COMPL returns it (R114). -/
def complBytes (c : Bytes × Bytes) : Bytes := c.1 ++ le 4 c.2.length ++ c.2

/-- RD_COMPL (R117). With nothing waiting the data are open (notes/assumptions/61.md). -/
def execRdCompl (ack : Bool) (s : State) : Host.Outcome State Fault Refusal :=
  if spiUp s then
    let q := if ack && s.spi.shown then s.spi.compl.drop 1 else s.spi.compl
    let t := { s with spi := { s.spi with compl := q, shown := q != [] } }
    match q with
    | c :: _ => .next (spiSend (complBytes c) t)
    | [] => .next (drew (spiSend (openBytes s.free 20) t))
  else .next s

/-- A command byte and argument that the table of R114 does not give. -/
def spiUnknown (cmd : BitVec 8) (arg : BitVec 32) : Bool :=
  match cmd.toNat with
  | 1 | 3 => arg != 0
  | 2 => arg == 0 || decide (4096 < arg.toNat)
  | 4 => decide (2 ^ 18 ≤ arg.toNat)
  | 5 => decide (1 < arg.toNat)
  | _ => true

/-- SPI_UNKNOWN_COMMAND (R114). -/
def execSpiUnknownCommand (cmd : BitVec 8) (arg : BitVec 32) (s : State) : Host.Outcome State Fault Refusal :=
  if spiUp s && spiUnknown cmd arg then .next (spiDrop s) else .next s

end Sys2Proof.Machine
end

