-- ==== Sys2Proof/Machine/ConfigSpace.lean ====
section
/-! DEFINITION. The endpoint's configuration space (R92 to R94, R99, R100, R105, R107): what a host reads there, and what its writes do. The
rules give the values and the capability offsets; the places of the registers within a capability are those of the base specification
(PRESUMED, notes/assumptions/78.md). -/

namespace Sys2Proof.Machine

/-! What a read returns. -/

/-- A 32-bit word from its upper and lower halves. -/
def halves (hi lo : Nat) : BitVec 32 := BitVec.ofNat 32 (65536 * hi + lo)

/-- Header of a capability below 0x100: ID, pointer to the next one, and the upper half. -/
def capHeader (id next upper : Nat) : BitVec 32 := halves upper (id + 256 * next)

/-- Header of an extended capability: ID, version 1, pointer to the next one. -/
def extHeader (id next : Nat) : BitVec 32 := BitVec.ofNat 32 (id + 0x10000 + 0x100000 * next)

/-- Class code and revision: encryption controller, other; the logic die revision (R92). -/
def classRev : BitVec 32 := BitVec.ofNat 32 (0x10800000 + Config.dieRev.toNat % 256)

/-- Subsystem IDs: those that OPERATOR writes at PROVISION, by a way that no rule gives; until then the default (R92; notes/assumptions/78.md). -/
def subsystem : BitVec 32 := halves 0x9412 0x1FD4

/-- A BAR register's low word: a 64-bit, non-prefetchable memory BAR of a size (R94). -/
def barLow (size : Nat) (v : BitVec 32) : BitVec 32 := (v &&& ~~~BitVec.ofNat 32 (size - 1)) ||| 4

/-- The MSI-X Message Control half: the number of vectors less one, Function Mask and MSI-X Enable (R92, R102). -/
def msixControl (f : Nat) (x : Fn) : Nat := (cfgOf x 0x50 >>> 16).toNat / 0x4000 * 0x4000 + (vectorsOf f - 1)

/-- Capabilities that PF0 and VFs share: MSI-X, PCI Express, AER, ARI (R92, R100). -/
def sharedRead (s : State) (f off : Nat) : BitVec 32 :=
  let x := fnOf s f
  match off with
  | 0x50 => capHeader 0x11 0x70 (msixControl f x)
  | 0x54 => if f = 0 then 0x80000 else 0x4000
  | 0x58 => if f = 0 then 0x88000 else 0x5000
  | 0x70 => capHeader 0x10 0 2
  | 0x74 => if f = 0 then 0x10008022 else 0x10008000
  | 0x78 => cfgOf x 0x78
  | 0x94 => if f = 0 then 0x00030000 else 0
  | 0x98 => cfgOf x 0x98
  | 0x100 => extHeader 0x01 0x148
  | 0x104 => cfgOf x 0x104
  | 0x108 => cfgOf x 0x108
  | 0x10C => cfgOf x 0x10C
  | 0x110 => cfgOf x 0x110
  | 0x114 => cfgOf x 0x114
  | 0x118 => if f = 0 then (cfgOf x 0x118 &&& 0x140) ||| 0xA0 else 0
  | 0x148 => extHeader 0x0E (if f = 0 then 0x150 else 0)
  | _ => 0

/-- The configuration space of PF0 (R92 to R94). -/
def pf0Read (s : State) (off : Nat) : BitVec 32 :=
  let x := fnOf s 0
  match off with
  | 0x00 => halves 0x9412 0x1FD4
  | 0x04 => halves 0x0010 ((cfgOf x 0x04).toNat % 65536 / 8 * 8 + 4 * b2n x.bme + 2 * b2n (memEnable s))
  | 0x08 => classRev
  | 0x10 => barLow 0x100000 (cfgOf x 0x10)
  | 0x14 => cfgOf x 0x14
  | 0x18 => barLow 0x100000 (cfgOf x 0x18)
  | 0x1C => cfgOf x 0x1C
  | 0x20 => barLow 0x10000 (cfgOf x 0x20)
  | 0x24 => cfgOf x 0x24
  | 0x2C => subsystem
  | 0x34 => 0x40
  | 0x40 => capHeader 0x01 0x50 3
  | 0x44 => if x.d3 then 3 else 0
  | 0x150 => extHeader 0x10 0x190
  | 0x158 => (cfgOf x 0x158 &&& 0x18) ||| BitVec.ofNat 32 (b2n s.link.vfEnable)
  | 0x15C => halves 15 15
  | 0x160 => halves 0 s.link.numVFs
  | 0x164 => halves 1 1
  | 0x168 => halves 0x9413 0
  | 0x16C => 0x1F
  | 0x170 => cfgOf x 0x170
  | 0x174 => barLow 0x10000 (cfgOf x 0x174)
  | 0x178 => cfgOf x 0x178
  | 0x17C => barLow 0x100000 (cfgOf x 0x17C)
  | 0x180 => cfgOf x 0x180
  | 0x190 => extHeader 0x03 0
  | 0x194 => Config.unitId.setWidth 32
  | 0x198 => (Config.unitId >>> 32).setWidth 32
  | _ => sharedRead s 0 off

/-- The configuration space of a VF (R92). -/
def vfRead (s : State) (f off : Nat) : BitVec 32 :=
  match off with
  | 0x00 => 0xFFFFFFFF
  | 0x04 => halves 0x0010 (4 * b2n (fnOf s f).bme)
  | 0x08 => classRev
  | 0x2C => subsystem
  | 0x34 => 0x50
  | _ => sharedRead s f off

/-- An aligned 32-bit word of a function's configuration space. What is not implemented reads zero. -/
def configRead (s : State) (f off : Nat) : BitVec 32 := if f = 0 then pf0Read s off else vfRead s f off

/-! What a write does. -/

/-- The bits of a register of a function that only hold what was written. -/
def cfgMask (f off : Nat) : BitVec 32 :=
  if f = 0 then
    match off with
    | 0x04 => 0x542
    | 0x10 | 0x18 => 0xFFF00000
    | 0x20 => 0xFFFF0000
    | 0x14 | 0x1C | 0x24 | 0x178 | 0x180 => 0xFFFFFFFF
    | 0x50 => 0xC0000000
    | 0x78 => 0x71FF
    | 0x98 => 0x1000
    | 0x108 | 0x10C => 0x007FF030
    | 0x114 => 0x0000F1C1
    | 0x118 => 0x140
    | 0x158 => 0x18
    | 0x170 => 0x1F
    | 0x174 => 0xFFFF0000
    | 0x17C => 0xFFF00000
    | _ => 0
  else
    match off with
    | 0x50 => 0xC0000000
    | 0x78 => 0x000F
    | _ => 0

/-- Registers of which ones written clear the flags (R107). -/
def cfgW1c (off : Nat) : Bool := off == 0x104 || off == 0x110

/-- The written bytes of a register: `m` has ones where the write has bytes. -/
def storeCfg (f off : Nat) (m v : BitVec 32) (s : State) : State :=
  let w := m &&& cfgMask f off
  { s with fns := modAt s.fns f fun x =>
      if cfgW1c off then x.setCfg off (cfgOf x off &&& ~~~(m &&& v))
      else if w = 0 then x
      else x.setCfg off ((cfgOf x off &&& ~~~w) ||| (v &&& w)) }

/-- A write of PF0's power state: D3hot acts as a function-level reset (R92, R105). -/
def writePower (v : BitVec 32) (s : State) : State :=
  if v.setWidth 2 = 3#2 then enterD3 s else if v.setWidth 2 = 0#2 then leaveD3 s else s

/-- A write of the SR-IOV control: VF Enable set brings the VFs up, cleared takes them away as by function-level resets (R93, R105). -/
def writeVfEnable (v : BitVec 32) (s : State) : State :=
  if v.getLsbD 0 then (if s.link.vfEnable then s else raiseVfs s.link.numVFs s)
  else if s.link.vfEnable then dropVfs ((List.range 15).foldl (fun t i => resetFn .flr (i + 1) t) s)
  else s

/-- What a write of an aligned register does beyond holding its bits (R84, R93, R105): the command register, the power state, a function-level
reset, VF Enable and NumVFs. A register that has a row of its own acts as that row says. -/
def cfgEffect (f off : Nat) (m v : BitVec 32) (s : State) : State :=
  match off with
  | 0x04 =>
    let s1 := if f = 0 ∧ m.getLsbD 0 ∧ v.getLsbD 1 then claimPcie s else s
    if !m.getLsbD 0 then s1
    else if v.getLsbD 2 then (if (fnOf s f).bme then s1 else masterOn f s1)
    else if (fnOf s f).bme then masterOff f s1 else s1
  | 0x44 => if f = 0 ∧ m.getLsbD 0 then writePower v s else s
  | 0x50 => sendPending f s
  | 0x78 => if m.getLsbD 8 ∧ v.getLsbD 15 then flr f s else s
  | 0x158 => if f = 0 ∧ m.getLsbD 0 then writeVfEnable v s else s
  | 0x160 =>
    if f = 0 ∧ m.getLsbD 0 ∧ !s.link.vfEnable ∧ v.toNat % 65536 ≤ 15 then
      { s with link := { s.link with numVFs := v.toNat % 65536 } } else s
  | _ => s

/-- The bytes of a register that a write of `size` bytes at byte `b` of it covers. -/
def byteMask (b size : Nat) : BitVec 32 := BitVec.ofNat 32 ((2 ^ (8 * size) - 1) * 2 ^ (8 * b))

/-- A configuration write of 1, 2 or 4 bytes within a register. -/
def configWrite (f off size : Nat) (v : BitVec 32) (s : State) : State :=
  let b := off % 4
  if (size = 1 ∨ size = 2 ∨ size = 4) ∧ b + size ≤ 4 then
    let m := byteMask b size
    let w := v <<< (8 * b)
    cfgEffect f (off - b) m w (storeCfg f (off - b) m w s)
  else s

end Sys2Proof.Machine
end

