-- ==== Sys2Proof/Machine/Registers.lean ====
section
/-! DEFINITION. Host accesses to the registers in the BARs and in configuration space: status block, mailboxes, MSI-X table, coalescing, link,
DGU1 and performance monitors (R6, R7, R92 to R104, R119 to R122, R404, R421). -/

namespace Sys2Proof.Machine

/-- The places of a function's registers in its BAR0 (R95, R96, R103, R121). -/
structure BarMap where
  mailboxes : Nat
  buffers : Nat
  table : Nat
  coal : Nat
  deriving DecidableEq, Repr

/-- The map of a function (R95, R96). -/
def barMap (f : Nat) : BarMap := if f = 0 then ⟨64, 0x40000, 0x80000, 0x8C000⟩ else ⟨8, 0x8000, 0x4000, 0x6000⟩

/-- Bits of DEV_EVENT and DEV_IRQ_EN that are implemented (R119). -/
def eventBits : BitVec 32 := 0x1F

/-- A write of DEV_EVENT clears the flags written as one (R119). -/
def clearDevEvent (f : Nat) (v : BitVec 32) (s : State) : State :=
  { s with fns := modAt s.fns f fun x => { x with devEvent := x.devEvent &&& ~~~v } }

/-- A write of DEV_IRQ_EN (R119). -/
def setIrqEn (f : Nat) (v : BitVec 32) (s : State) : State :=
  { s with fns := modAt s.fns f fun x => { x with irqEn := v &&& eventBits } }

/-- Bytes of the request in a mailbox buffer: as many as its LEN says, and the header at least, which carries OPCODE and TAG in any case (R122,
R123). -/
def bufRequest (m : Mbx) : Bytes := mreads m.buf 0 (max 16 (min (leVal (mreads m.buf 2 2)) 4096))

/-- A write of MBX_CTRL: DONE and OVERRUN are cleared by ones, IRQ_EN is set, and GO submits the request (R121, R122). What the path may not ask
is turned away, also while another path's command keeps the mailbox BUSY (R84, R85). -/
def writeMbxCtrl (f n : Nat) (v : BitVec 32) (s : State) : State :=
  let s1 := modMbx f n (fun m => { m with
    done := m.done && !v.getLsbD 2, irqEn := v.getLsbD 3, overrun := m.overrun && !v.getLsbD 4 }) s
  if v.getLsbD 0 then
    (if (mbxOf s1 f n).busy && s.link.hostPath == some .pcie && !(f == 0 && n == 63) then
      modMbx f n (fun m => { m with overrun := true }) s1
     else runRequest .pcie f n (bufRequest (mbxOf s1 f n)) s1)
  else s1

/-- A write into a mailbox buffer; while BUSY it is discarded and sets OVERRUN (R122). -/
def writeBuf (f n off : Nat) (b : Bytes) (s : State) : State :=
  modMbx f n (fun m => if m.busy then { m with overrun := true } else { m with buf := mwrites m.buf off b }) s

/-- A write of a word of the MSI-X table: address, data, vector control (R95, R102). -/
def writeMsix (f n word : Nat) (v : BitVec 32) (s : State) : State :=
  match word with
  | 0 => modVec f n (fun x => { x with addr := (x.addr &&& 0xFFFFFFFF00000000) ||| v.setWidth 64 }) s
  | 1 => modVec f n (fun x => { x with addr := (x.addr &&& 0x00000000FFFFFFFF) ||| (v.setWidth 64 <<< 32) }) s
  | 2 => modVec f n (fun x => { x with data := v }) s
  | _ => if v.getLsbD 0 then modVec f n (fun x => { x with masked := true }) s else unmask f n s

/-- An aligned 32-bit write in BAR0; what is read-only or reserved ignores it (R6, R7, R95, R96). -/
def write32 (f off : Nat) (v : BitVec 32) (s : State) : State :=
  let m := barMap f
  if off = 0x30 then clearDevEvent f v s
  else if off = 0x34 then setIrqEn f v s
  else if 0x100 ≤ off ∧ off < 0x100 + 64 * m.mailboxes then
    (if (off - 0x100) % 64 = 0 then writeMbxCtrl f ((off - 0x100) / 64) v s else s)
  else if off = 0x1104 ∧ f = 0 then setCto v s
  else if m.table ≤ off ∧ off < m.table + 16 * vectorsOf f then writeMsix f ((off - m.table) / 16) ((off - m.table) / 4 % 4) v s
  else if m.coal ≤ off ∧ off < m.coal + 4 * vectorsOf f then setCoal f ((off - m.coal) / 4) v s
  else s

/-- Bytes of a function's BAR0 (R94). -/
def bar0Size (f : Nat) : Nat := if f = 0 then 0x100000 else 0x10000

/-- A write in BAR0 (R97): registers take aligned 32-bit and 64-bit writes, mailbox buffers any naturally aligned one; another is an
Unsupported Request. -/
def writeBar0 (f off size : Nat) (v : BitVec 64) (s : State) : State :=
  let m := barMap f
  if bar0Size f ≤ off then s
  else if m.buffers ≤ off ∧ off < m.buffers + 4096 * m.mailboxes then
    (if (size = 1 ∨ size = 2 ∨ size = 4 ∨ size = 8) ∧ off % size = 0 then
      writeBuf f ((off - m.buffers) / 4096) ((off - m.buffers) % 4096) (le size v.toNat) s
     else aer f .unsupportedRequest s)
  else if size = 4 ∧ off % 4 = 0 then write32 f off (v.setWidth 32) s
  else if size = 8 ∧ off % 8 = 0 then write32 f (off + 4) ((v >>> 32).setWidth 32) (write32 f off (v.setWidth 32) s)
  else aer f .unsupportedRequest s

/-- A 32-bit write of a monitor register (R421). -/
def writePmon (off : Nat) (v : BitVec 32) (p : Pmon) : Pmon :=
  if off = 0x1000 then
    let q := { p with freeze := v.getLsbD 0 }
    if v.getLsbD 1 then q.clear else q
  else if off = 0x1004 then { p with ovf := p.ovf &&& ~~~v.setWidth 16 }
  else if 0x1040 ≤ off ∧ off < 0x1080 then { p with sel := modAt p.sel ((off - 0x1040) / 4) fun _ => v &&& 0x1FFF }
  else p

/-- A 32-bit write in BAR4 (R98). -/
def write4 (off : Nat) (v : BitVec 32) (s : State) : State :=
  if off < 0x1000 then
    (if off = 0x40 then modDgu (Dgu.by .host (Dgu.data (le 4 v.toNat))) s else modDgu (Dgu.write .host off v.toNat) s)
  else { s with pmon := writePmon off v s.pmon }

/-- A write in PF0's BAR4 (R98, R405). -/
def writeBar4 (off size : Nat) (v : BitVec 64) (s : State) : State :=
  if size = 8 ∧ off = 0x40 then modDgu (Dgu.by .host (Dgu.data (le 8 v.toNat))) s
  else if size = 4 ∧ off % 4 = 0 then write4 off (v.setWidth 32) s
  else if size = 8 ∧ off % 8 = 0 then write4 (off + 4) ((v >>> 32).setWidth 32) (write4 off (v.setWidth 32) s)
  else s

/-! Reads. -/

/-- The status block as a function reads it (R119). -/
def statusBlock (s : State) (f : Nat) : Bytes :=
  le 4 (devStatus s f) ++ zeros 4 ++ le 8 (if f = 0 then s.jrn.durable else 0) ++ le 8 s.opsec ++ le 4 s.pwrCyc ++ le 4 s.bootEpoch
    ++ unitIdBytes ++ le 4 (fnOf s f).devEvent.toNat ++ le 4 (fnOf s f).irqEn.toNat

/-- MBX_CTRL as it reads: GO reads 0 (R6, R121). -/
def mbxCtrl (m : Mbx) : Nat := 2 * b2n m.busy + 4 * b2n m.done + 8 * b2n m.irqEn + 16 * b2n m.overrun

/-- A word of the MSI-X table as it reads (R95, R102). -/
def readMsix (x : Vec) (word : Nat) : Nat :=
  match word with
  | 0 => x.addr.toNat % 2 ^ 32
  | 1 => x.addr.toNat / 2 ^ 32
  | 2 => x.data.toNat
  | _ => b2n x.masked

/-- Vector `v` of function `f`. -/
def vecOf (s : State) (f v : Nat) : Vec := tgetD s.vecs (2048 * f + v) {}

/-- A COAL register as it reads (R103). -/
def readCoal (x : Vec) : Nat := x.count.toNat + 256 * x.time.toNat

/-- Where the pending bit array lies (R95, R96). -/
def pbaBase (f : Nat) : Nat := if f = 0 then 0x88000 else 0x5000

/-- An aligned 32-bit read in BAR0; reserved offsets and write-only fields read zero (R6, R7, R95, R96, R101). -/
def read32 (s : State) (f off : Nat) : Nat :=
  let m := barMap f
  if off < 0x100 then num (statusBlock s f) off 4
  else if off < 0x100 + 64 * m.mailboxes then (if (off - 0x100) % 64 = 0 then mbxCtrl (mbxOf s f ((off - 0x100) / 64)) else 0)
  else if off = 0x1100 ∧ f = 0 then linkStatus s
  else if off = 0x1104 ∧ f = 0 then s.link.cto
  else if m.table ≤ off ∧ off < m.table + 16 * vectorsOf f then readMsix (vecOf s f ((off - m.table) / 16)) ((off - m.table) / 4 % 4)
  else if pbaBase f ≤ off ∧ off < pbaBase f + vectorsOf f / 8 then
    bits ((List.range 32).map fun i => (vecOf s f (8 * (off - pbaBase f) + i)).pend)
  else if m.coal ≤ off ∧ off < m.coal + 4 * vectorsOf f then readCoal (vecOf s f ((off - m.coal) / 4))
  else 0

/-- A read in a mailbox buffer; while BUSY it returns zero (R122). -/
def readBuf (m : Mbx) (off size : Nat) : Nat := if m.busy then 0 else leVal (mreads m.buf off size)

/-- The data of a read reach the host. -/
def returned (v : Nat) (s : State) : State := { s with out := s.out ++ [.reg v] }

/-- A read in BAR0 (R97): what is not accepted returns all ones and sets Unsupported Request. -/
def readBar0 (f off size : Nat) (s : State) : State :=
  let m := barMap f
  if bar0Size f ≤ off then s
  else if m.buffers ≤ off ∧ off < m.buffers + 4096 * m.mailboxes ∧ (size = 1 ∨ size = 2 ∨ size = 4 ∨ size = 8) ∧ off % size = 0 then
    returned (readBuf (mbxOf s f ((off - m.buffers) / 4096)) ((off - m.buffers) % 4096) size) s
  else if size = 4 ∧ off % 4 = 0 then returned (read32 s f off) s
  else if size = 8 ∧ off % 8 = 0 then returned (read32 s f off + 2 ^ 32 * read32 s f (off + 4)) s
  else returned (2 ^ (8 * size) - 1) (aer f .unsupportedRequest s)

/-- An aligned 32-bit read in BAR4 (R98, R404, R421): the value, and the monitors, whose low halves latch the high ones. A high half that no low half
latched is open (notes/assumptions/54.md). -/
def read4 (off : Nat) (s : State) : Nat × Pmon :=
  let p := s.pmon
  if off < 0x1000 then (s.dgu1.reg .host s.free off, p)
  else if off = 0x1000 then (pmonCtrl p, p)
  else if off = 0x1004 then (p.ovf.toNat, p)
  else if 0x1040 ≤ off ∧ off < 0x1080 then ((p.sel.getD ((off - 0x1040) / 4) 0).toNat, p)
  else if 0x1100 ≤ off ∧ off < 0x1180 then
    let n := (off - 0x1100) / 8
    let c := p.cnt.getD n 0
    if off % 8 = 0 then (c % 2 ^ 32, { p with latch := BitVec.ofNat 32 (c / 2 ^ 32), latchOf := n })
    else if p.latchOf = n then (p.latch.toNat, p)
    else (Config.freeNat s.free % 2 ^ 16, p)
  else (0, p)

/-- A read in PF0's BAR4: aligned 32-bit and 64-bit accesses, the latter atomic; what another one returns is open (R98, R421;
notes/assumptions/83.md). -/
def readBar4 (off size : Nat) (s : State) : State :=
  if size = 4 ∧ off % 4 = 0 then drew (returned (read4 off s).1 { s with pmon := (read4 off s).2 })
  else if size = 8 ∧ off % 8 = 0 then
    (if 0x1100 ≤ off ∧ off < 0x1180 then returned (s.pmon.cnt.getD ((off - 0x1100) / 8) 0) s
     else drew (returned ((read4 off s).1 + 2 ^ 32 * (read4 (off + 4) s).1) s))
  else drew (returned (Config.freeNat s.free % 2 ^ (8 * size)) s)

/-- A configuration read of 1, 2 or 4 bytes within a register (R92). -/
def readConfig (f off size : Nat) (s : State) : State :=
  if (size = 1 ∨ size = 2 ∨ size = 4) ∧ off % 4 + size ≤ 4 then
    returned ((configRead s f (off / 4 * 4)).toNat / 2 ^ (8 * (off % 4)) % 2 ^ (8 * size)) s
  else s

/-- A function's configuration space answers: the PCIe tunnel reaches the endpoint and the function is there (R88, R92, R93). -/
def configUp (s : State) (f : Nat) : Bool := linkUp s && s.link.pcieTun && (fnOf s f).present

/-! Meanings. -/

/-- A write (R6, R97, R98). A write of a doorbell that is not one aligned 32-bit write is discarded. -/
def hostRegWrite (fn : Nat) (space : Space) (off size : Nat) (v : BitVec 64) (s : State) : State :=
  match space with
  | .bar0 => writeBar0 fn off size v s
  | .bar2 => bar2Write fn (off / 4) (v.setWidth 32) (size == 4 && off % 4 == 0) s
  | .bar4 => writeBar4 off size v s
  | .config => configWrite fn off size (v.setWidth 32) s

/-- A read (R6, R7, R97, R98). Reads of BAR2 return zero. -/
def hostRegRead (fn : Nat) (space : Space) (off size : Nat) (s : State) : State :=
  match space with
  | .bar0 => readBar0 fn off size s
  | .bar2 => returned 0 s
  | .bar4 => readBar4 off size s
  | .config => readConfig fn off size s

/-- The space answers accesses of the function (R92, R94, R98). -/
def spaceUp (s : State) (fn : Nat) (space : Space) : Bool :=
  match space with
  | .bar0 | .bar2 => barUp s fn
  | .bar4 => barUp s 0 && fn == 0
  | .config => configUp s fn

/-- REGISTER_WRITE (R6, R97, R98); with no value it is a read, for which the table has no row (notes/assumptions/83.md). A register that has a row of
its own acts as that row says. -/
def execRegisterWrite (fn : Nat) (space : Space) (off size : Nat) (value : RegValue) (s : State) : Host.Outcome State Fault Refusal :=
  if spaceUp s fn space then
    match value with
    | some v => .next (settle s (hostRegWrite fn space off size v s))
    | none => .next (settle s (hostRegRead fn space off size s))
  else .next s

end Sys2Proof.Machine
end

