-- ==== Sys2Proof/Machine/Serve.lean ====
section
/-! DEFINITION. Mailbox ready, service complete and the end of standby: what becomes available, and the requests that waited (R50, R66,
R68, R128, R234). -/

namespace Sys2Proof.Machine

/-- A request that waited is taken up: its mailbox is free for it (R66). -/
def takeUp (i : Instr) (s : State) : State :=
  match reqOf i with
  | some r => serve i (modMbx r.fn r.mbx (fun m => { m with busy := false }) s)
  | none => s

/-- The requests that waited are answered, in the order in which they came (R66, R68, R128). -/
def serveHeld (s : State) : State := s.held.foldl (fun t i => takeUp i t) { s with held := [] }

/-- Every function that exists and that nothing keeps disabled is enabled for queue work (R119, R148). -/
def enableFns (s : State) : State :=
  { s with fns := s.fns.map fun x => { x with enabled := x.enabled || (x.present && x.causes.isEmpty && mayEnable s) } }

/-- Mailbox ready (R66, R68): functions are enabled, and DGU1's window opens while both digest units serve. -/
def becomeReady (s : State) : State :=
  let s1 := { s with pwr := { s.pwr with phase := .ready } }
  enableFns { s1 with dgu1 := { s1.dgu1 with withdrawn := !(s1.dgu0.inService && s1.dgu1.inService) } }

/-- MAILBOX_READY (R66). -/
def execMailboxReady (s : State) : Host.Outcome State Fault Refusal :=
  match s.pwr.phase with
  | .started => .next (serveHeld (settle s (becomeReady s)))
  | _ => .next s

/-- Service complete (R66, R68): committed draws resume, unless a response of class T3 or higher is in force (R234, R249). -/
def becomeComplete (s : State) : State :=
  let s1 := { s with pwr := { s.pwr with phase := .service } }
  if tamperHalt s1 then s1 else resumeDraws s1

/-- SERVICE_COMPLETE (R68). -/
def execServiceComplete (s : State) : Host.Outcome State Fault Refusal :=
  match s.pwr.phase with
  | .ready => .next (serveHeld (settle s (becomeComplete s)))
  | _ => .next s

/-- A domain that standby had switched off or kept in retention comes back (R48, R50). Lanes follow their state; the OTP and the PKE cores wait
for use. -/
def wakeDomain (s : State) (n : Nat) (d : DomState) : DomState :=
  if n = 4 ∨ n = 13 ∨ n = 14 ∨ (51 ≤ n ∧ n ≤ 55) ∨ n = 58 then d
  else if 16 ≤ n ∧ n ≤ 39 then
    (if (laneOf s ((n - 16) / 3)).st = .off ∨ (laneOf s ((n - 16) / 3)).st = .failed then .off else .on)
  else if 59 ≤ n ∧ n ≤ 61 then (if (bankOf s (n - 59)).st = .failed then .off else .on)
  else .on

/-- Standby ends (R50, R128): domains come back, the noise banks start, lanes are seeded, and full service resumes. -/
def leaveStandby (s : State) : State :=
  let s1 := { s with pwr := { s.pwr with standby := false, wake := false, domains := s.pwr.domains.mapIdx (wakeDomain s) } }
  let s2 := (List.range 3).foldl (fun t b => if (bankOf t b).st = .failed then t else startBank b t) s1
  let s3 := seedLanes s2
  runPending (event 0x010C 0 s3)

/-- STANDBY_EXIT (R50, R128). -/
def execStandbyExit (s : State) : Host.Outcome State Fault Refusal :=
  if powered s && s.pwr.standby && s.pwr.wake then .next (serveHeld (settle s (leaveStandby s))) else .next s

end Sys2Proof.Machine
end

