-- ==== Sys2Proof/Machine/Boot.lean ====
section
/-! DEFINITION. Steps 1 to 8 of a start: the capacitor test, the OTP decode, the counters, the event area, the tamper inputs that a start
finds, the meter store, MP_VALID and the choice of a firmware image (R57, R58, R65 to R75, R281 to R283, R353, R358, R381 to R386, R393,
R396, R411). -/

namespace Sys2Proof.Machine

/-! OTP decode. -/

/-- The state groups: word, group, state code (R356). -/
def stateGroups : List (Nat × Nat × Nat) :=
  [(96, 0, 1), (96, 1, 2), (96, 2, 3), (96, 3, 4), (97, 0, 5), (97, 1, 6), (97, 2, 15)]

/-- The flag groups: word, group (R356). -/
def flagGroups : List (Nat × Nat) := [(98, 0), (98, 1)]

/-- A state group reads as set: 12 bits or more (R358). -/
def groupSet (s : State) (word g : Nat) : Bool := decide (12 ≤ otpGroup s word g)

/-- The SCRAP group is set (R358). -/
def scrapSet (s : State) : Bool := groupSet s 97 1

/-- Some state group holds 5 to 11 bits, and the SCRAP group is not set: the unit is LOST (R358). -/
def lostBand (s : State) : Bool :=
  !scrapSet s && stateGroups.any fun x => decide (5 ≤ otpGroup s x.1 x.2.1) && decide (otpGroup s x.1 x.2.1 ≤ 11)

/-- The state beneath: the highest of TEST, PROVISION, CERTIFY and FIELD that is set, or RAW (R349). -/
def beneathOf (s : State) : Lc :=
  if groupSet s 96 3 then .field else if groupSet s 96 2 then .certify else if groupSet s 96 1 then .provision
  else if groupSet s 96 0 then .test else .raw

/-- The life-cycle state or condition that the OTP decodes as (R358). -/
def decodeLc (s : State) : Lc :=
  if scrapSet s then .scrap else if lostBand s then .lost else if groupSet s 97 0 then .retn
  else if groupSet s 97 2 then .tampered else beneathOf s

/-- State groups of 12 bits or more and flag groups of 5 or more are completed (R358). -/
def completeBurns (s : State) : State :=
  let s1 := stateGroups.foldl (fun t x => if groupSet s x.1 x.2.1 then burn x.1 (groupMask x.2.1) t else t) s
  flagGroups.foldl (fun t x => if 5 ≤ otpGroup s x.1 x.2 then burn x.1 (groupMask x.2) t else t) s1

/-- SOURCE of an LC_DECODE entry: the source state of the intent word, 0xF where that reads as no valid value (R358). -/
def intentSource (s : State) (code : Nat) : Nat :=
  let w := (tgetD s.otp (intentWord code) 0).toNat
  if w / 256 = 0xA55A3CC3F00F96 ∧ w / 16 % 16 = code then w % 16 else 15

/-- The body of an LC_DECODE entry (R364). -/
def decodeBody (word g count outcome source : Nat) : Bytes :=
  le 1 word ++ le 1 g ++ le 1 count ++ le 1 outcome ++ le 1 source ++ zeros 3

/-- The LC_DECODE entries: one for each group found with 1 to 15 bits. A flag group has no intent word (R358, R364;
notes/assumptions/62.md). -/
def decodeEntries (s : State) : List (Nat × Nat × Bytes) :=
  (stateGroups.filterMap fun x =>
      let n := otpGroup s x.1 x.2.1
      if 1 ≤ n ∧ n ≤ 15 then
        some (0x39, 3, decodeBody x.1 x.2.1 n (if n ≤ 4 then 0 else if 12 ≤ n then 1 else 2) (intentSource s x.2.2))
      else none)
    ++ (flagGroups.filterMap fun x =>
      let n := otpGroup s x.1 x.2
      if 1 ≤ n ∧ n ≤ 15 then some (0x39, 3, decodeBody x.1 x.2 n (if n ≤ 4 then 0 else 1) 15) else none)

/-- Step 4 of R65: the state is decoded and interrupted burns are finished; the LC_DECODE entries wait for START (R82, R358). -/
def decodeOtp (s : State) : State :=
  let t := completeBurns s
  { t with lc := decodeLc s, beneath := beneathOf s, jrn := { t.jrn with held := decodeEntries s } }

/-- The wipe of the start that follows the transition to PROVISION (R353). Firmware slots, the boot selector and the SAFE_HIGH counters
stay. -/
def wipeProvision (s : State) : State :=
  { s with
    nv := {
      bootSel := s.nv.bootSel, fwA := s.nv.fwA, fwB := s.nv.fwB, ctrs := s.nv.ctrs.filter (fun c => decide (c.1 < 64))
      ctrInit := s.nv.ctrInit, lastLc := s.nv.lastLc, rootDigest := s.nv.rootDigest }
    ev := { s.ev with latched := [], nextEvn := 0, clear := 0 } }

/-- The wipe, when this start is the first in PROVISION (R353). -/
def wipeIfProvision (s : State) : State := if s.lc = .provision ∧ s.nv.lastLc ≠ .provision then wipeProvision s else s

/-! Hardware counters. -/

/-- The largest of the values that read. -/
def largest : List (Option Nat) → Option Nat
  | [] => none
  | none :: xs => largest xs
  | some x :: xs => some (max x ((largest xs).getD 0))

/-- A copy with its cells read again: the cells listed, and the others of its W cells (R281). -/
def CtrCopy.reread (w : Nat) (c : CtrCopy) : CtrCopy :=
  { c with value := largest ((if c.cells.length < w then [c.base] else []) ++ c.cells.map (·.2)) }

/-- One copy of a counter is changed. -/
def Counter.modCopy (copy : Nat) (f : CtrCopy → CtrCopy) (c : Counter) : Counter :=
  match copy with
  | 0 => { c with c0 := f c.c0 }
  | 1 => { c with c1 := f c.c1 }
  | _ => { c with c2 := f c.c2 }

/-- One copy of a counter of the table is changed. -/
def modCopy (n copy : Nat) (f : CtrCopy → CtrCopy) (s : State) : State :=
  if ctrClass n = 0 then s
  else { s with nv := { s.nv with ctrs := tset s.nv.ctrs n (Counter.modCopy copy f (ctrOf s n)) } }

/-- Cells and copies as this start reads them: a cell, or every cell of a copy, reads a value or uncorrectable (R281). -/
def damageCounter (s : State) : Damage → State
  | .counterCopy n copy v => modCopy n copy (fun c => { c with value := v, base := v, cells := [] }) s
  | .counterCell n copy cell v =>
    modCopy n copy (fun c => CtrCopy.reread (ctrWidth n) { c with cells := tset c.cells (cell % ctrWidth n) v }) s
  | _ => s

/-- The readable copies (R281). -/
def Counter.readable (c : Counter) : List Nat := [c.c0.value, c.c1.value, c.c2.value].filterMap id

/-- Every copy is readable and they agree. -/
def Counter.agrees (c : Counter) : Bool := c.c0.value.isSome && c.c0.value == c.c1.value && c.c1.value == c.c2.value

/-- The middle one of three. -/
def median (a b c : Nat) : Nat := max (min a b) (min (max a b) c)

/-- The value that readable copies resolve to (R283). -/
def resolveCopies (safeHigh : Bool) : List Nat → Option Nat
  | [a, b, c] => some (if safeHigh then max a (max b c) else median a b c)
  | [a, b] => some (max a b)
  | [a] => some a
  | _ => none

/-- A counter as a start resolves it (R281, R283). -/
def Counter.resolve (safeHigh : Bool) (c : Counter) : Counter :=
  if c.agrees then { c with live := c.c0.value.getD 0, lost := false, split := false, splits := 0 }
  else
    match resolveCopies safeHigh c.readable with
    | some v =>
      { c0 := CtrCopy.fill v, c1 := CtrCopy.fill v, c2 := CtrCopy.fill v, live := v, split := true, splits := 1
        writes := c.writes + 1, wrote := c.wrote }
    | none => { c with live := 0, lost := true, split := false, splits := 1 }

/-- Every counter is resolved. -/
def resolveCounters (s : State) : State :=
  { s with nv := { s.nv with ctrs := s.nv.ctrs.map fun e => (e.1, Counter.resolve (ctrClass e.1 == 1) e.2) } }

/-- The counters that a start finds split, with their readable copies (R283). -/
def splitsFound (s : State) : List (Nat × Nat) :=
  s.nv.ctrs.filterMap fun e => if e.2.agrees then none else some (e.1, e.2.readable.length)

/-- The counters are first written: counter 0 with the value 1 (R262). -/
def firstCounters (s : State) : State :=
  if s.nv.ctrInit then s
  else { s with nv := { s.nv with
    ctrInit := true, ctrs := tset s.nv.ctrs 0 (Counter.write 256 1 s.opsec { live := 1 }) } }

/-- After a VBAT loss both PD00 counters come back from their copies (R47). -/
def restoreClocks (s : State) : State :=
  if s.pwr.pd00Lost then { s with opsec := ctrVal s 3, pwrCyc := ctrVal s 2 } else s

/-- The power-cycle counter advances, except at a start after nRESET, and no slot has been judged in the new cycle (R61, R129). -/
def nextCycle (s : State) : State :=
  if s.pwr.reason = .nreset then s
  else
    let n := (s.pwrCyc + 1) % 2 ^ 32
    setCtr 2 n { s with pwrCyc := n, boot := {} }

/-- The boot epoch advances, unless it is exhausted or its counter is LOST (R61, R70, R283; notes/assumptions/63.md). -/
def nextEpoch (s : State) : State :=
  if (ctrOf s 1).lost then { s with bootEpoch := 0 }
  else
    let e := ctrVal s 1
    if 0xFFFFFF ≤ e then { s with bootEpoch := 0xFFFFFF, epochOut := true }
    else setCtr 1 (e + 1) { s with bootEpoch := e + 1 }

/-! Event area. -/

/-- A record's stamp: power cycle, operating second (R408, R411). -/
def stampOf (b : Bytes) : Nat × Nat := (num b 12 4, num b 7 5)

/-- A stamp is lower than another (R411). -/
def stampLess (a b : Nat × Nat) : Bool := decide (a.1 < b.1) || (a.1 == b.1 && decide (a.2 < b.2))

/-- The scan of R411 from EVN `n`: the EVN after the last record accepted, its stamp, and whether a CHK failure ended the scan. `bad` are
the slots that fail CHK; an extension goes with its base record; a slot never written holds no record (notes/assumptions/64.md). -/
def scanArea (s : State) (bad : List Nat) : Nat → Nat → Bool → Nat × Nat → Nat × (Nat × Nat) × Bool
  | 0, n, _, st => (n, st, false)
  | fuel + 1, n, ext, st =>
    if bad.contains (n % eventSlots) then (n, st, true)
    else
      match tget s.nv.evArea (n % eventSlots) with
      | none => (n, st, false)
      | some r =>
        if num r.bytes 0 2 = 0xFFFF then (if ext then scanArea s bad fuel (n + 1) false st else (n, st, false))
        else if stampLess (stampOf r.bytes) st then (n, st, false)
        else scanArea s bad fuel (n + 1) (bit (num r.bytes 2 1) 4) (stampOf r.bytes)

/-- The slots that fail CHK at this start. -/
def badSlots (ds : List Damage) : List Nat :=
  ds.filterMap fun d => match d with
    | .eventSlot k => some (k % eventSlots)
    | _ => none

/-- The scan of this start (R411). -/
def areaScan (ds : List Damage) (s : State) : Nat × (Nat × Nat) × Bool :=
  let c := AB.value s.nv.evCtl {}
  scanArea s (badSlots ds) eventSlots c.firstEvn false (c.floorPwr, c.floorOpsec)

/-- EVT_TORN: where a CHK failure ended the scan, the slots that fail CHK among the 16 from there (R411). -/
def tornEvent (ds : List Damage) (r : Nat × (Nat × Nat) × Bool) (s : State) : State :=
  if r.2.2 then event 0x0903 ((List.range 16).filter fun i => (badSlots ds).contains ((r.1 + i) % eventSlots)).length s else s

/-- Event recovery (R411): the next EVN, the clear mark and the control record. -/
def recoverEvents (ds : List Damage) (s : State) : State :=
  let bad := badSlots ds
  let c := AB.value s.nv.evCtl {}
  let r := areaScan ds s
  let floor := if r.1 = c.firstEvn then (0, 0) else r.2.1
  { s with
    nv := { s.nv with
      evArea := bad.foldl (fun a k => tdel a k) s.nv.evArea
      evCtl := AB.update s.nv.evCtl { firstEvn := r.1, floorPwr := floor.1, floorOpsec := floor.2, clear := c.clear } }
    ev := { s.ev with nextEvn := r.1, clear := c.clear, latched := s.ev.latched.filter (fun n => decide (n < r.1)) } }

/-- A given event is recorded (R409). -/
def recordEvt (e : Evt) (s : State) : State :=
  let v := s.ev.record s.diag.rate s.opsec e
  { s with ev := v, pmon := s.pmon.count (if v.nextEvn = s.ev.nextEvn then 0x91 else 0x90) 0 1 }

/-- Events raised before step 5 are recorded, stamped with the counters resolved there (R409). -/
def recordHeld (s : State) : State :=
  s.ev.preHeld.foldl (fun t e => recordEvt { e with opsec := t.opsec, pwr := t.pwrCyc } t) { s with ev := { s.ev with preHeld := [] } }

/-! Tamper inputs at a start. -/

/-- T3 is in force for this start (R381). -/
def haltStart (s : State) : State :=
  { s with tamper := { s.tamper with t3 := true }, pwr := { s.pwr with fetchOff := true, mpValid := false } }

/-- The KEY_INVALIDATE entries of a T4 wait for START, once (R82, R382, R387). What each one carries is settled when it is written. -/
def holdInvalidates (s : State) : State :=
  if s.jrn.held.any (fun e => e.1 == 0x31) then s
  else { s with jrn := { s.jrn with held := s.jrn.held ++ [(0x31, 0, []), (0x31, 1, []), (0x31, 2, [])] } }

/-- The response of a class at a start (R67, R381, R382, R384). T4 burns TAMPERED and the start goes on in that condition; a reading that
persists leaves T3 in force too. In RETURN a T4 whose reading does not persist leaves the state RETURN and no response in force, so MP_VALID
rises (DESIGN CHOICE, notes/assumptions/75.md). -/
def startRespond (c : TClass) (persists : Bool) (note : Nat → Nat → State → State) (bits : Nat) (act : State → State) (s : State) : State :=
  match c with
  | .t1 => note 0x0D01 1 s
  | .t2 => act (note 0x0D01 2 s)
  | .t3 => haltStart (note 0x0D03 bits s)
  | .t4 =>
    let s1 := note 0x0D04 bits s
    if s.lc = .lost then haltStart s1
    else
      let s2 := holdInvalidates (burnTampered s1)
      let s3 := { s2 with
        lc := if s.lc = .retn then .retn else .tampered
        pwr := { s2.pwr with mpValid := false } }
      if persists then haltStart s3 else s3

/-- The input that a reading of R381 makes; its index names the unit that R414 numbers. -/
def readingIn (a : Sensor × Nat) : TamperIn :=
  { sensor := a.1
    reading := .attack
    quiet := false
    unit := match a.1 with
      | .clock => .clockDomain a.2
      | .laser => .lane a.2
      | .comparison => .slot a.2
      | .noiseBank => .bank a.2
      | _ => .powerDomain a.2 }

/-- An attack reading that the start finds, classed as in service (R376, R377, R381, R387). -/
def startInput (t : TamperIn) (s : State) : State :=
  match judgeInput s t with
  | none => s
  | some (alone, counts) =>
    let w := windowWith t counts false s
    let s1 := drew { s with tamper := { s.tamper with window := w } }
    let idx := (unitKey t.unit).2
    let bits := classBits alone s
    if (counts && decide (2 ≤ w.length)) || lastArray t s then
      startRespond (policyClass s 2) true (fun _ _ => event 0x0D02 (tamperArg (sensorCode t.sensor) idx bits)) bits id s1
    else
      startRespond alone true (fun code b => event code (tamperArg (sensorCode t.sensor) idx b)) bits (t2Action t) s1

/-- The sensor of a latched code (R384). -/
def latchSensor (code : Nat) : Sensor := if code = 7 then .cardigan else if code = 8 then .loopA else .loopB

/-- A reading that PD00 latched while unpowered: classed as R376 states, and recorded with UNPOWERED and its own stamp (R384, R409). -/
def startLatched (l : Nat × Nat × Nat) (s : State) : State :=
  match judgeInput s (readingIn (latchSensor l.1, l.2.1)) with
  | none => s
  | some (c, _) =>
    let stamp := fun code bits (t : State) =>
      recordEvt { mkEvt t code (tamperArg l.1 l.2.1 bits) [] with unp := true, opsec := s.tamper.offOpsec, pwr := l.2.2 } t
    startRespond c false stamp (classBits c s) id (drew s)

/-- The PD00 latch is read after step 4, and its records come first: their stamps are those of the power loss (R384, R409, R411). -/
def readLatch (s : State) : State :=
  s.tamper.latch.foldl (fun t l => startLatched l t) { s with tamper := { s.tamper with latch := [] } }

/-- The sensors are read after step 4 (R381, R386), and a VBAT loss is judged by the flag of R47 (R384). -/
def readSensors (attacks : List (Sensor × Nat)) (s : State) : State :=
  let s2 := if policyDamaged s then event 0x0702 0 s else s
  let s3 := if s2.pwr.pd00Lost then startInput (readingIn (.vbat, 0)) (event 0x0105 0 s2) else s2
  attacks.foldl (fun t a => startInput (readingIn a) t) s3

/-- The counters found split are recorded; a SAFE_HIGH counter without a copy stops fetching and is reported to the response logic
(R283; notes/assumptions/65.md). -/
def recordSplits (fs : List (Nat × Nat)) (s : State) : State :=
  fs.foldl (fun t f =>
    let t1 := event 0x0505 (f.1 + 4096 * f.2) t
    if f.2 = 0 ∧ ctrClass f.1 = 1 then
      startInput { sensor := .safeHigh, reading := .fault, unit := .powerDomain 48, quiet := false }
        { t1 with pwr := { t1.pwr with fetchOff := true, unitsFailed := t1.pwr.unitsFailed ++ [(4, 255)] } }
    else t1) s

/-- The boot epoch's events (R70). -/
def epochEvents (s : State) : State :=
  let s1 := if s.epochOut then event 0x010B 0 s else s
  if 0xFF0000 ≤ s1.bootEpoch then event 0x010A s1.bootEpoch s1 else s1

/-! Meter store. -/

/-- The words of a meter page that read uncorrectable load as zero, the page is sealed again, and METER_TORN names it (R393). -/
def tornMeterPage (p : Nat) (words : List Nat) (s : State) : State :=
  let ws := words.filter (fun w => decide (w < 31))
  let m := ws.foldl (fun m w => mwrites m (256 * p + 8 * w) (zeros 8)) s.meter.mirror
  let t := writeMeterPage p { s with meter := { s.meter with mirror := m, torn := true } }
  eventX 0x0B01 p (le 4 (ws.foldl (fun m w => m ||| 2 ^ w) 0)) t

/-- Step 6: the meter store is read into the mirror (R65, R393). LEVEL and HIDE apply before MP_VALID rises (R396). -/
def loadMeter (ds : List Damage) (s : State) : State :=
  let s1 := { s with meter := { s.meter with mirror := s.nv.meter } }
  let s2 := ds.foldl (fun t d => match d with
    | .meterPage p ws => if p < 1024 then tornMeterPage p ws t else t
    | _ => t) s1
  let pr := AB.value s2.nv.meterProt (0, 0)
  applyProtection pr.1 pr.2 s2

/-! Capacitor. -/

/-- The start-up test's result (R57, R58, R436): kept from a reset held through power good, or found now by the method that VHOLD chooses. VHOLD
is charged by it (R56). -/
def startCap (cap : CapReading) (s : State) : State :=
  let c := s.pwr.capKept.getD ⟨dischargeMethod s.pwr, cap⟩
  let s1 := noteCap c { drew s with
    pwr := { s.pwr with capKept := none, degraded := (startReason c).isSome, vhold := chargedVhold c.raw.reached s.free } }
  match startReason c with
  | some r => eventX 0x0107 r (capExt c) s1
  | none => s1

/-! Firmware image. -/

/-- A copy of the boot selector that fails its check (R74, R300). -/
def damageSel (s : State) : Damage → State
  | .bootSel b =>
    let p := s.nv.bootSel
    { s with nv := { s.nv with bootSel := if b then { p with b := .torn } else { p with a := .torn } } }
  | _ => s

/-- The boot ROM judges a slot (R73, R129). -/
def judgeSlot (b : Bool) (s : State) : Bool × State :=
  match imageCheck s (fwSlot s b) with
  | none => (true, setSlot b .verified 0 s)
  | some n => (false, setSlot b .failed n s)

/-- An image is entered (R75, R129). -/
def runImage (b : Bool) (m : FwMode) (s : State) : State :=
  setSlot b .running 0 { s with boot := { s.boot with runSlot := b, mode := m } }

/-- Recovery mode (R76). No slot reads RUNNING (R129). -/
def enterRecovery (s : State) : State :=
  let down := fun (x : FwState) => if x = .running then .verified else x
  event 0x0803 0 { s with boot := { s.boot with mode := .recovery, stA := down s.boot.stA, stB := down s.boot.stB } }

/-- The ACTIVE slot runs, or the other one, which then becomes ACTIVE, or neither (R75). -/
def selectActive (s : State) : State :=
  let a := (bootSel s).active
  let r := judgeSlot a s
  if r.1 then runImage a .normal r.2
  else
    let q := judgeSlot (!a) r.2
    if q.1 then setBootSel { bootSel q.2 with active := !a } (runImage (!a) .fallback (event 0x0802 (b2n (!a)) q.2))
    else enterRecovery q.2

/-- The boot ROM selects an image (R75). -/
def selectImage (s : State) : State :=
  let sel := bootSel s
  match sel.pend with
  | none => selectActive s
  | some p =>
    if sel.trial then selectActive (event 0x0801 (b2n p) (setBootSel { sel with pend := none, trial := false } s))
    else
      let r := judgeSlot p (setBootSel { sel with trial := true } s)
      if r.1 then runImage p .trial r.2 else selectActive r.2

/-! Steps 1 to 8. -/

/-- A page whose write was interrupted at word `w`: new words before it, the words of the pass before after it, and the word itself as it reads
(R255). -/
def tornAt (w : Nat) (r : WordRead) (was now : Page) : Page :=
  { bytes := now.bytes.take (8 * w) ++ slice (if r = .new then now.bytes else fit 256 was.bytes) (8 * w) 8 ++ (fit 256 was.bytes).drop (8 * w + 8)
    bad := (if r = .uncorrectable then [w] else []) ++ was.bad.filter fun k => decide (w < k)
    no := if w = 0 ∧ r = .old then was.no else now.no }

/-- The flush of the cycle before was cut in its step 3, after `n` of its ring pages, perhaps within the next one: the pages after it hold what
they held, and steps 4 to 8 were not reached (R255, R267, R278). A cut after the last ring page leaves the tail header of the cycle before. -/
def cutFlush (n : Nat) (word : Option (BitVec 5)) (r : WordRead) (s : State) : State :=
  match s.nv.preFlush with
  | none => s
  | some f =>
    let wrote := s.nv.lastPseq - f.lastPseq
    if wrote ≤ n then { s with nv := { s.nv with tail := f.tail } }
    else
      let was := fun (k : Nat) => tgetD f.pages (k % ringPages) {}
      let next := f.lastPseq + n + 1
      let undone := (List.range (wrote - n)).foldl (fun t i => tset t ((next + i) % ringPages) (was (next + i))) s.nv.pages
      let pages := match word with
        | some w => tset undone (next % ringPages) (tornAt w.toNat r (was next) (pageAt s next))
        | none => undone
      { s with nv := { s.nv with
        pages := pages, ctrs := f.ctrs, meter := f.meter, meterCnt := f.meterCnt, evArea := f.evArea, tail := f.tail } }

/-- A flush that was cut, as a start finds it. -/
def damageFlush (s : State) : Damage → State
  | .flushCut n w r => cutFlush n w r s
  | _ => s

/-- What a start makes of the power block before anything else: it runs now, and PD00's flag is taken (R47, R65). -/
def beginStart (temp : Nat) (s : State) : State :=
  { s with pwr := { s.pwr with
    phase := .started, everStarted := true, vbatLostStart := s.pwr.pd00Lost, tempNow := temp, tempMax := temp
    vbatLow := s.pwr.vbatLow || !s.pwr.vbatPresent
    mpValid := false, standby := false, standbyDue := false, wake := false, bridging := false, fetchOff := false, unitsFailed := [] },
           dgu1 := { s.dgu1 with withdrawn := true } }

/-- Steps 4 and 5: OTP, the wipe of R353, counters, power cycle and boot epoch. -/
def startCounters (ds : List Damage) (s : State) : State :=
  nextEpoch (nextCycle (restoreClocks (resolveCounters (ds.foldl damageCounter (firstCounters s)))))

/-- The counters that this start finds split. -/
def startSplits (ds : List Damage) (s : State) : List (Nat × Nat) := splitsFound (ds.foldl damageCounter (firstCounters s))

/-- MP_VALID rises at step 7 (R67). -/
def raiseMpValid (s : State) : State :=
  { s with pwr := { s.pwr with mpValid := s.lc != .lost && !tamperHalt s } }

/-- Steps 1 to 8 of R65. -/
def bootSteps (f : StartFacts) (s : State) : State :=
  let ds := f.damage
  let s0 := ds.foldl damageFlush (beginStart f.temp s)
  let s1 := wipeIfProvision (decodeOtp { s0 with nv := { s0.nv with preFlush := none } })
  let s2 := startCounters ds { s1 with diag := AB.value s1.nv.diag {} }
  let s3 := recordHeld (tornEvent ds (areaScan ds s2) (readLatch (recoverEvents ds s2)))
  let s4 := readSensors f.attacks s3
  let s5 := epochEvents (recordSplits (startSplits ds s1) s4)
  let s6 := startCap f.cap { s5 with pwr := { s5.pwr with pd00Lost := false } }
  selectImage (ds.foldl damageSel (raiseMpValid (loadMeter ds s6)))

end Sys2Proof.Machine
end

