-- ==== Sys2Proof/Machine/Recover.lean ====
section
/-! DEFINITION. Steps 9 to 14 of a start: journal recovery (R261, R262, R276, R279, R280), the tests of step 10 (R69, R188), the noise
banks (R214, R215), DRAM, and the unseal of the key store (R287, R288, R292, R300, R313, R314, R317). -/

namespace Sys2Proof.Machine

/-! Journal recovery. -/

/-- CHAIN₀ (R261). -/
def chainZero : BitVec 384 := sha384 (ascii "FLJ0" ++ unitIdBytes)

/-- A copy of the journal control record that fails its check (R280, R300). -/
def damageCtl (s : State) : Damage → State
  | .jctl b =>
    let p := s.nv.jctl
    { s with nv := { s.nv with jctl := if b then { p with b := .torn } else { p with a := .torn } } }
  | _ => s

/-- No control record is in force: the journal is initialised at this start, and has no previous cycle (R280;
notes/assumptions/67.md). -/
def firstJournal (s : State) : Bool := !(jctlOf s).init

/-- The control record of a journal that is initialised (R261, R280). -/
def initJournal (s : State) : State :=
  { s with nv := { s.nv with
    jctl := AB.update s.nv.jctl { init := true, ckPseq := s.nv.lastPseq, ckPos := s.nv.entryNo, reclaimed := s.nv.lastPseq
                                  ckChain := chainZero, oldChain := chainZero }
    ring := [], oldestPseq := s.nv.lastPseq } }

/-- The scan of the ring from page `p`: the last sealed page. A single failing page before one that is sealed with the PSEQ after next is a torn
page, and the scan goes on (R280). -/
def scanPages (s : State) : Nat → Nat → Nat
  | 0, p => p
  | fuel + 1, p =>
    if (pageAt s (p + 1)).sealed (p + 1) then scanPages s fuel (p + 1)
    else if (pageAt s (p + 2)).sealed (p + 2) then scanPages s fuel (p + 2)
    else p

/-- The last sealed page: the scan runs from the checkpoint (R280 step 2). -/
def lastSealed (s : State) : Nat := if firstJournal s then s.nv.lastPseq else scanPages s ringPages (jctlOf s).ckPseq

/-- The page after the last sealed page holds data written in this pass: it is torn (R280 step 3). -/
def tornFound (s : State) : Bool := !firstJournal s && (pageAt s (lastSealed s + 1)).no == lastSealed s + 1

/-- The tail header is valid: it seals, and its boot epoch is the one before (R279). -/
def tailOk (ds : List Damage) (s : State) : Bool :=
  s.nv.tail.valid && s.nv.tail.bootEpoch + 1 == s.bootEpoch && !ds.contains .tailHeader

/-- Highest SEQ found in the recovered journal (R258). -/
def prevLast (s : State) : Nat := s.nv.ring.foldl (fun m e => max m e.last) 0

/-- Steps 2, 3 and 6 of the recovery: the entries that the sealed pages hold whole stay; the others are dropped. A torn page is reported and takes
one PSEQ: the next page carries the last sealed PSEQ plus 2 (R280). -/
def scanJournal (s : State) : State :=
  let last := lastSealed s
  let t := { s with nv := { s.nv with ring := s.nv.ring.filter (fun e => decide (e.pageEnd ≤ last)), lastPseq := last } }
  if tornFound s then eventX 0x0504 0 (le 4 (last + 1)) { t with nv := { t.nv with lastPseq := last + 1 } } else t

/-- The sequence numbers of the cycle (R262). A LOST mark leaves none to assign (R283; notes/assumptions/65.md). -/
def firstSeq (s : State) : Nat := if (ctrOf s 0).lost then 2 ^ 48 else (ctrOf s 0).live

/-- The end of the series (R262, R446). -/
def seqEvents (s : State) : State :=
  let lost := (ctrOf s 0).lost
  let s1 := if !lost && decide (2 ^ 48 - 2 ^ 40 < s.jrn.nextSeq) then event 0x0507 0 s else s
  let s2 := if !lost && seqReserve s1 then event 0x010B 1 s1 else s1
  { s2 with
    jrn := { s2.jrn with seqOut := seqReserve s2 }
    pwr := { s2.pwr with fetchOff := s2.pwr.fetchOff || seqExhausted s2 } }

/-- Step 9: journal recovery, with the control record as it is found (R280). -/
def recoverJournal (ds : List Damage) (s0 : State) : State :=
  let first := firstJournal s0
  let ok := tailOk ds s0 && !first
  let n := firstSeq s0
  let s1 := if first then initJournal s0 else scanJournal s0
  let s2 := if !ok && !first then event 0x0508 0 s1 else s1
  seqEvents { s2 with
    nv := { s2.nv with tail := if ok then s2.nv.tail else {} }
    jrn := { s2.jrn with
      nextSeq := n, inOrder := n, cycleFirst := n, durable := n - 1, highest := n - 1, chain := chainBefore s2 s2.nv.ring.length
      recovered := if ok then s2.nv.tail.detail else [], recValid := ok, recLo := s2.nv.tail.lo, recGap := s2.nv.tail.gap, fill := jfill s2 } }

/-! Tests. -/

/-- A test of step 10 fails: TEST_FAILED (R69, R414). -/
def testFails (unit index : Nat) (s : State) : State := event 0x0109 (unitArg unit index) s

/-- A health-test failure or a low bound that the start finds is reported to the tamper response logic; the bank's own state follows from its rules
(R217, R218). -/
def startBankInput (b : Nat) (s : State) : State := startInput { readingIn (.noiseBank, b) with reading := .fault } s

/-- Step 11: a noise bank: its start-up test, at most twice, and its calibration (R69, R214, R215, R217, R222). -/
def startNoise (b : Nat) (f : BankFact) (s : State) : State :=
  let s1 := f.fails.foldl (fun t x => startBankInput b (healthFails b x.1 x.2 t)) (startBank b s)
  if 2 ≤ f.fails.length then bankDies b (testFails 0x11 b s1)
  else
    let s2 := modBank b (fun x => { x with
      st := .calibrating, bound := f.bound, streams := 0, calOpsec := s.opsec, calTemp := s.pwr.tempNow, low := if f.bound < 450 then 1 else 0 }) s1
    if 450 ≤ f.bound then bankServes b s2 else suspendBank b (startBankInput b s2)

/-- A lane's generator takes a seed of its own (R186). -/
def seedLane (n : Nat) (s : State) : State :=
  let x := takeSeed s
  laneDomains n .on (modLane n (fun l => { l with seeded := true, maskSeed := x.1 }) x.2)

/-- The lanes that passed fill the slots in ascending order, two for each; the others are cold spares (R188). Without a seed no lane
leaves OFF, and the slots wait (R186). -/
def fillSlots (pass : List Nat) (s : State) : State :=
  if condUp s 1 then
    [0, 1, 2].foldl (fun t p =>
      match pass[2 * p]?, pass[2 * p + 1]? with
      | some a, some b => fillSlot p a b (seedLane b (seedLane a t))
      | _, _ => t) s
  else { s with slots := s.slots.map fun x => { x with rebuilding := true } }

/-- Lanes that failed step 10 are FAILED (R69, R198). -/
def startLanes (lanes : BitVec 8) (s : State) : State :=
  let pass := (List.range 8).filter fun n => lanes.getLsbD n
  let s1 := (List.range 8).foldl (fun t n => if lanes.getLsbD n then t else testFails 0x10 n (laneDown .failed n t)) s
  fillSlots pass s1

/-- The digest units, the PKE cores and the DRBG (R69, R127). DGU1's window waits for mailbox ready (R68; notes/assumptions/68.md). -/
def startUnits (f : StartFacts) (s : State) : State :=
  let s1 := { s with
    dgu0 := { s.dgu0 with inService := f.dgus.getLsbD 0 }
    dgu1 := { s.dgu1 with inService := f.dgus.getLsbD 1, withdrawn := true }
    pkes := s.pkes.mapIdx fun k p => { p with inService := f.pkes.getLsbD k, on := true }
    lark := { s.lark with condOn := true, drbgOn := f.drbg } }
  let note := fun (bad : Bool) unit i (t : State) => if bad then testFails unit i t else t
  note (!f.drbg) 0x14 0 (note (!f.pkes.getLsbD 1) 0x12 1 (note (!f.pkes.getLsbD 0) 0x12 0
    (note (!f.dgus.getLsbD 1) 0x13 1 (note (!f.dgus.getLsbD 0) 0x13 0 s1))))

/-- Units of R33 that the start finds failed, the DRAM path apart (R69). -/
def startFailed (fs : List (Nat × Nat)) (s : State) : State :=
  (fs.filter fun u => [1, 4, 5, 6, 7, 8, 9].contains u.1).foldl (fun t u => unitFails u.1 u.2 t) s

/-- Steps 10 and 11. -/
def startTests (f : StartFacts) (s : State) : State :=
  startLanes f.lanes (startNoise 2 f.bank2 (startNoise 1 f.bank1 (startNoise 0 f.bank0 (startUnits f (startFailed f.failed s)))))

/-! The root. -/

/-- First word of a root slot (R356). -/
def rootWordOf (k : Nat) : Nat := 32 + 25 * k

/-- One copy of the root in a slot, its 64 bytes in order (notes/assumptions/23.md). -/
def rootCopy (s : State) (k c : Nat) : BitVec 512 :=
  BitVec.ofNat 512 (beVal ((List.range 8).map fun i => le 8 (tgetD s.otp (rootWordOf k + 8 * c + i) 0).toNat).flatten)

/-- Each root bit is the majority of its three copies (R288). -/
def rootIn (s : State) (k : Nat) : BitVec 512 :=
  let a := rootCopy s k 0
  let b := rootCopy s k 1
  let c := rootCopy s k 2
  (a &&& b) ||| (a &&& c) ||| (b &&& c)

/-- The check value of a root: the first 64 bits of HMAC-SHA-384 under it (R288). -/
def rootCheck (r : BitVec 512) : BitVec 64 :=
  BitVec.ofNat 64 (leVal ((h384 (hmac384 (be 64 r.toNat) (ascii "FLROOTCHK" ++ unitIdBytes))).take 8))

/-- All 25 words of a root slot read zero (R288). -/
def rootUnused (s : State) (k : Nat) : Bool := (List.range 25).all fun i => tgetD s.otp (rootWordOf k + i) 0 == 0

/-- A root slot is valid (R288). -/
def rootValid (s : State) (k : Nat) : Bool := !rootUnused s k && tgetD s.otp (rootWordOf k + 24) 0 == rootCheck (rootIn s k)

/-- The slot in use: 0 if valid, otherwise 1 (R288). -/
def rootSlotOf (s : State) : Option Nat := [0, 1].find? fun k => rootValid s k

/-- A new root of 512 bits of conditioned entropy is burnt into a slot, one word at a time (R287, R288). -/
def burnRoot (k : Nat) (s : State) : State :=
  let e := takeBlocks 4 s
  let r := BitVec.ofNat 512 (beVal e.1)
  let words := (List.range 3).flatMap fun _ => (chunks 8 (be 64 r.toNat)).map leVal
  let s1 := (words.zipIdx).foldl (fun t x => burn (rootWordOf k + x.2) (BitVec.ofNat 64 x.1) t) e.2
  burn (rootWordOf k + 24) (rootCheck r) s1

/-- The root of a slot is in force. -/
def useRoot (k : Nat) (s : State) : State :=
  { s with keys := { s.keys with root := some (rootIn s k), rootSlot := k, testRoot := false } }

/-- The test root is in force (R317). -/
def useTestRoot (s : State) : State :=
  { s with keys := { s.keys with root := some testRootValue, rootSlot := 255, testRoot := true } }

/-- The root in force at a start (R287, R288, R317, R348). In PROVISION it is generated as soon as conditioned entropy can be had. -/
def readRoot (s : State) : State :=
  match s.lc with
  | .raw | .test | .retn => useTestRoot s
  | .lost | .scrap => s
  | .provision =>
    match rootSlotOf s with
    | some k => useRoot k s
    | none =>
      match [0, 1].find? fun k => rootUnused s k with
      | some k => if condUp s 1 then useRoot k (burnRoot k s) else useTestRoot s
      | none => unitFails 0x01 0 s
  | .certify | .field | .tampered =>
    match rootSlotOf s with
    | some k => useRoot k s
    | none => unitFails 0x01 0 s

/-! Records. -/

/-- One copy of a record is torn. -/
def AB.tear {α : Type} (b : Bool) (p : AB α) : AB α := if b then { p with b := .torn } else { p with a := .torn }

/-- Copies of key and generation records and of seed records that fail, and count words that are unreadable (R231, R292, R300). -/
def damageKeys (s : State) : Damage → State
  | .keyCopy i b => { s with nv := { s.nv with keyRecs := tset s.nv.keyRecs (i % 4096) (AB.tear b (tgetD s.nv.keyRecs (i % 4096) ⟨.blank, .blank⟩)) } }
  | .genCopy i b => { s with nv := { s.nv with genRecs := tset s.nv.genRecs (i % 4096) (AB.tear b (tgetD s.nv.genRecs (i % 4096) ⟨.blank, .blank⟩)) } }
  | .countWord w => { s with nv := { s.nv with sessCnt := [0, 1, 2, 3].foldl (fun t j => tdel t (4 * w + j)) s.nv.sessCnt } }
  | .seedCopy id b => modDraw id.toNat (fun d => { d with seed := AB.tear b d.seed }) s
  | _ => s

/-- Indexes of a table whose copies are unusable (R300). -/
def unusableIn {α : Type} [DecidableEq α] (t : Tab (AB α)) : List Nat :=
  (t.filter fun e => AB.resolve e.2 = .unusable).map (·.1)

/-- RSEQ of an unusable record: that of both copies where both verify, and open otherwise (R320; notes/assumptions/69.md). -/
def splitRseq {α : Type} (s : State) (p : AB α) : Nat :=
  match p.a, p.b with
  | .good r _, .good _ _ => r
  | _, _ => (Config.freeValue s.free).toNat

/-- A KEY_SPLIT entry that waits for START (R82, R300, R320). -/
def splitEntry (index record rseq : Nat) : Nat × Nat × Bytes := (0x32, 4, le 2 index ++ le 1 record ++ zeros 1 ++ le 4 rseq ++ zeros 8)

/-- An unusable record: KEY_UNUSABLE, a T2 input and a KEY_SPLIT entry (R300, R376, R414). -/
def reportSplit {α : Type} (record i : Nat) (p : AB α) (s : State) : State :=
  let s1 := event 0x0301 (i + 4096 * record) s
  let s2 := startInput { sensor := .recordSplit, reading := .fault, unit := .powerDomain 5, quiet := false } s1
  { drew s2 with jrn := { s2.jrn with held := s2.jrn.held ++ [splitEntry i record (splitRseq s2 p)] } }

/-- The session creation counts that were lost (R292). -/
def reportCounts (ds : List Damage) (s : State) : State :=
  ds.foldl (fun t d => match d with
    | .countWord w => { t with jrn := { t.jrn with held := t.jrn.held ++ [splitEntry 0 2 (4 * w)] } }
    | _ => t) s

/-- The records are resolved; what is unusable is listed and reported. An unusable generation record of a domain is a failure of the
key store (R300, R314). -/
def resolveRecords (s : State) : State :=
  let gs := unusableIn s.nv.genRecs
  let ks := unusableIn s.nv.keyRecs
  let s1 := { s with keys := { s.keys with genUnusable := gs, unusable := ks } }
  let s2 := gs.foldl (fun t i => reportSplit 1 i (tgetD s.nv.genRecs i ⟨.blank, .blank⟩) t) s1
  let s3 := ks.foldl (fun t i => reportSplit 0 i (tgetD s.nv.keyRecs i ⟨.blank, .blank⟩) t) s2
  if gs.any (fun i => decide (i < 3)) then unitFails 0x01 0 s3 else s3

/-- A KEY_INVALIDATE entry that recovery finds: a NEW_GEN above the resolved generation is written (R313). -/
def redoInvalidate (s : State) (e : Entry) : State :=
  if num e.bytes 0 1 = 0x31 then
    let i := num e.bytes 16 4 % 4096
    let g := num e.bytes 24 4
    if genOf s i < g ∧ !genBad s i then setGen i g s else s
  else s

/-- The digest by which a change of root is seen (R314). -/
def rootMark (s : State) : BitVec 384 := sha384 ((rootBytes s).getD [])

/-- DEVICE_KEYS is due: the first start in PROVISION or in TAMPERED, or a root that differs from that of the START entry before
(R314, R382). -/
def deviceKeysDue (s : State) : Bool :=
  s.keys.root.isSome &&
    ((s.lc == .provision && s.nv.lastLc != .provision) || (s.lc == .tampered && s.nv.lastLc != .tampered)
      || (s.nv.rootDigest != 0 && s.nv.rootDigest != rootMark s))

/-- Step 13: unseal (R314). -/
def unsealKeys (ds : List Damage) (s : State) : State :=
  let s1 := reportCounts ds (resolveRecords (readRoot (ds.foldl damageKeys s)))
  freshWraps (s1.nv.ring.foldl redoInvalidate s1)

/-! Power domains. -/

/-- A domain as a start leaves it (R48): the OTP and the link domains wait for use, a lane's domains are on while it serves, PKE cores have
just been tested. -/
def startedDomain (s : State) (n : Nat) : DomState :=
  let on := fun (b : Bool) => if b then DomState.on else .off
  if n = 4 then .off
  else if 51 ≤ n ∧ n ≤ 55 then linkDomain s n
  else if 16 ≤ n ∧ n ≤ 39 then on ((laneOf s ((n - 16) / 3)).st == .serving)
  else if n = 58 then on s.pwr.ioMp
  else if 59 ≤ n ∧ n ≤ 61 then on (decide ((bankOf s (n - 59)).st ≠ .failed ∧ (bankOf s (n - 59)).st ≠ .off))
  else .on

/-- All domains. -/
def startDomains (s : State) : State := { s with pwr := { s.pwr with domains := (List.range 80).map (startedDomain s) } }

end Sys2Proof.Machine
end

