-- ==== Sys2Proof/Machine/Start.lean ====
section
/-! DEFINITION. Step 15 of a start, the gates as a start leaves them, the start in SCRAP, and the commands START and SCRAP_START (R65 to
R82, R258, R322, R335, R343, R350, R353, R444). -/

namespace Sys2Proof.Machine

/-! Gates (R322, R335, R343; the firmware entries are notes/assumptions/70.md). -/

/-- A firmware entry over internal space. -/
def fwEntry (first last rights colours : Nat) (lock : Bool) : GEntry :=
  { start := BitVec.ofNat 64 first, fin := BitVec.ofNat 64 (last - 31), rights := BitVec.ofNat 16 rights
    colours := BitVec.ofNat 16 colours, eflags := if lock then 5 else 1 }

/-- A table of entries from 0. -/
def entryTab (es : List GEntry) : Tab GEntry := es.zipIdx.map fun e => (e.2, e.1)

/-- A table of which every entry, valid or not, is locked (R343). -/
def lockedTab (es : List GEntry) : Tab GEntry := entryTab (es ++ List.replicate (64 - es.length) { eflags := 4 })

/-- Entry 16 of a queue DMA gate: all of host space for PF0 (R335). -/
def hostEntry : GEntry := { start := 0, fin := 0xFFFFFFFFFFFFFFE0, rights := 3, colours := 1, eflags := 3 }

/-- A queue DMA gate: queue contexts, large-message staging, journal export staging; host entries (R322, R335). -/
def qdmaGate : Tab GEntry :=
  entryTab [fwEntry 0x110000000 0x113FFFFFF 3 0xFFFF true, fwEntry 0x115800000 0x1957FFFFF 2 0xFFFF true,
    fwEntry 0x195800000 0x1D57FFFFF 1 1 true] ++ [(16, hostEntry)]

/-- An Aster core's gate: registers, shared SRAM, and what R322 lets the cores reach. -/
def coreGate : Tab GEntry :=
  entryTab [fwEntry 0 0xFFFFFFF 0xDB 0 false, fwEntry 0x40000000 0x401FFFFF 0xDB 0 false, fwEntry 0x80000000 0x85FFFFFF 0x49 0 true,
    fwEntry 0x86000000 0x863FFFFF 0x49 0 false, fwEntry 0x86800000 0x869FFFFF 0x40 0 true, fwEntry 0x86A00000 0x86BFFFFF 0xDB 0 true,
    fwEntry 0x86C00000 0x87BFFFFF 0xC0 0 true, fwEntry 0x87C00000 0x87C3FFFF 0x49 0 true, fwEntry 0x100000000 0x10FFFFFFF 0x1FF 0 false,
    fwEntry 0x1D5800000 0x2157FFFFF 0x49 0 true]

/-- A lane's gate: large-message staging. -/
def laneGate : Tab GEntry := entryTab [fwEntry 0x115800000 0x1957FFFFF 1 0xFFFF true]

/-- The draw engine's gate. -/
def drawGate : Tab GEntry := lockedTab [fwEntry 0x1D5800000 0x2157FFFFF 0x18 0 true]

/-- The journal writer's gate: ring, event area, counters, meter store, tail area, export staging. -/
def journalGate : Tab GEntry :=
  lockedTab [fwEntry 0x80000000 0x85FFFFFF 0x18 0 true, fwEntry 0x86000000 0x863FFFFF 0x18 0 true,
    fwEntry 0x86800000 0x869FFFFF 0x18 0 true, fwEntry 0x87C00000 0x87C3FFFF 0x18 0 true, fwEntry 0x87C40000 0x87D3FFFF 0x18 0 true,
    fwEntry 0x195800000 0x1D57FFFFF 0x18 0 true]

/-- The entries of a gate at a start. G_MPT has them since step 6; G_DBG is invalid without a certificate (R335). -/
def gateAtStart (g : Nat) (x : Gate) : Gate :=
  if g < 4 then { x with ents := qdmaGate }
  else if g < 8 then { x with ents := coreGate }
  else if g < 16 then { x with ents := laneGate }
  else if g = 17 then { x with ents := drawGate }
  else if g = 18 then { x with ents := journalGate }
  else x

/-- All gates. -/
def startGates (s : State) : State := { s with gates := s.gates.mapIdx gateAtStart }

/-! START entry. -/

/-- REASON (R258). -/
def reasonCode : StartReason → Nat
  | .powerGood => 1 | .npor => 2 | .nreset => 3 | .recovery => 4

/-- The REASON of this start: RECOVERY when it ends in recovery mode (R76, R258). -/
def startReasonCode (s : State) : Nat := if fwRuns s then reasonCode s.pwr.reason else 4

/-- A field of the running image, zero where none runs (R258). -/
def runField (s : State) (off len : Nat) : Nat := if fwRuns s then imgNum (fwSlot s s.boot.runSlot) off len else 0

/-- The body of the START entry (R258). `flags` is SFLAGS, `prev` PREV_LAST_SEQ. -/
def startBody (flags prev : Nat) (s : State) : Bytes :=
  let c := s.pwr.cap
  le 1 (startReasonCode s) ++ le 1 (runByte s) ++ le 1 (lcCode s.lc) ++ le 1 flags ++ le 2 Config.romRev.toNat ++ zeros 2
    ++ le 4 (runField s 8 4) ++ le 4 (runField s 0x0C 4) ++ le 4 (rollbackCtr s) ++ le 4 s.bootEpoch ++ le 4 s.pwrCyc
    ++ le 2 (capUf c) ++ le 2 (capMohm c) ++ le 2 c.raw.droop ++ zeros 6 ++ le 6 prev ++ zeros 2
    ++ (if fwRuns s then imgMeasure (fwSlot s s.boot.runSlot) else zeros 48)

/-- SFLAGS: DEGRADED, FLUSH_INCOMPLETE, TORN, VBAT_LOST (R258). `first` says that no tail header was expected, `torn` that a page is torn (R280). -/
def startFlags (torn first : Bool) (s : State) : Nat :=
  b2n s.pwr.degraded + 2 * b2n (!first && !s.jrn.recValid) + 4 * b2n torn + 8 * b2n s.pwr.vbatLostStart

/-- An entry that waited for START is written; the generation that a KEY_INVALIDATE entry of a T4 raises is written after it (R82, R382). -/
def writeOneHeld (t : State) (e : Nat × Nat × Bytes) : State :=
  if e.1 = 0x31 then invalidateDomain t e.2.1 else journalEntry e.1 false e.2.2 t

/-- The entries that waited for START take the SEQs that follow it, in the order in which they arose (R82). -/
def writeHeld (s : State) : State := s.jrn.held.foldl writeOneHeld { s with jrn := { s.jrn with held := [] } }

/-- The DEVICE_KEYS entry, where one is due (R314). -/
def writeDeviceKeys (s : State) : State :=
  let s1 := if deviceKeysDue s then journalEntry 0x33 false (deviceKeysBody s) s else s
  { s1 with nv := { s1.nv with rootDigest := if s.keys.root.isSome then rootMark s else s1.nv.rootDigest } }

/-- Draws after the loss: their states, and those whose key is gone (R226, R234, R249). Without a root no key is judged. -/
def startDraws (s : State) : State :=
  let t := recoverDraws s
  if t.keys.root.isSome then voidOrphaned t else t

/-- A start that ends in recovery mode: the START entry is the last one written (R76). A T4 applied here leaves the generations as they are
(notes/assumptions/71.md). -/
def endRecovery (flags prev : Nat) (s : State) : State :=
  let s1 := journalEntry 0x02 false (startBody flags prev s) s
  { s1 with
    pwr := { s1.pwr with phase := .recovery }
    jrn := { s1.jrn with held := [] }
    nv := { s1.nv with lastLc := s1.lc } }

/-- Step 14: the tail detail that recovery kept is copied into staging (R271, R280). -/
def restage (s : State) : State :=
  s.jrn.recovered.foldl (fun t l => { t with jrn := t.jrn.stage l }) { s with jrn := { s.jrn with recovered := [] } }

/-- The periods that operating seconds measure begin with the start (R208, R282, R328). -/
def startPeriods (s : State) : State :=
  { s with sched := { s.sched with laneAt := s.opsec, secondsAt := s.opsec, ckptAt := none, scrubAt := s.opsec } }

/-- Step 15: START, the entries that waited, and the draw table (R82). -/
def endStart (flags prev : Nat) (s : State) : State :=
  let s1 := writeHeld (journalEntry 0x02 false (startBody flags prev s) s)
  let s2 := startDraws (writeDeviceKeys s1)
  { s2 with nv := { s2.nv with lastLc := s2.lc } }

/-- The DRAM path or a memory engine fails (R69). -/
def dramFails (f : StartFacts) : Bool := !f.dram || f.failed.any fun u => u.1 == 2 || u.1 == 3

/-- Its failures are recorded: the units named, or the DRAM path as a whole (R33, R69, R414). -/
def failDram (f : StartFacts) (s : State) : State :=
  let us := f.failed.filter fun u => u.1 == 2 || u.1 == 3
  if us = [] then unitFails 0x03 0 s else us.foldl (fun t u => unitFails u.1 u.2 t) s

/-- Steps 9 to 15 (R65, R69, R76). A failure of DRAM training or of a memory engine ends the start in recovery mode. -/
def startSteps (f : StartFacts) (s : State) : State :=
  let ds := f.damage
  let b := bootSteps f s
  let c := ds.foldl damageCtl { b with link := { b.link with enabled := true } }
  let first := firstJournal c
  let s1 := startPeriods (recoverJournal ds c)
  let prev := if first then 0 else prevLast s1
  let flags := startFlags (tornFound c) first s1
  if !fwRuns s1 then endRecovery flags prev (startDomains { s1 with keys := { s1.keys with testRoot := bootTestRoot s1 } })
  else
    let s2 := startTests f s1
    if dramFails f then
      endRecovery flags prev (startDomains (enterRecovery (failDram f { s2 with keys := { s2.keys with testRoot := bootTestRoot s2 } })))
    else endStart flags prev (startGates (startDomains (restage (unsealKeys ds (engineKeys s2)))))
where
  /-- The root in force in recovery mode, as the state gives it (R317, R348). -/
  bootTestRoot (s : State) : Bool :=
    match s.lc with
    | .raw | .test | .retn => true
    | .provision => (rootSlotOf s).isNone
    | _ => false

/-! Meanings. -/

/-- The OTP decodes as SCRAP (R350, R358, R444). -/
def otpScrap (s : State) : Bool := scrapSet s

/-- START (R65). Only when power is good and no reset is held; in SCRAP the start is that of R444. -/
def execStart (facts : StartFacts) (s : State) : Host.Outcome State Fault Refusal :=
  match s.pwr.phase with
  | .startDue => if otpScrap s then .next s else .next (settle s (startSteps facts s))
  | _ => .next s

/-- OTP words that the SCRAP wipe leaves as they are: the unit ID with its check word, LC0, LC1 and the intent words (R353, R356). -/
def scrapKeeps (w : Nat) : Bool := (decide (16 ≤ w) && decide (w ≤ 18)) || w == 96 || w == 97 || (decide (100 ≤ w) && decide (w ≤ 106))

/-- The OTP of 256 words as the SCRAP wipe leaves it (R353, R356). -/
def scrapOtp (otp : Tab (BitVec 64)) : Tab (BitVec 64) :=
  ((List.range 256).map fun w => (w, if scrapKeeps w then tgetD otp w 0 else BitVec.allOnes 64)).filter fun e => e.2 ≠ 0

/-- The start in SCRAP (R444): MRAM, DRAM and OTP are wiped, the links are enabled, and no counter is resolved. Events are counted from 0. -/
def scrapSteps (cap : CapReading) (s : State) : State :=
  let s1 := startCap cap { completeBurns (beginStart s.pwr.tempNow s) with
    lc := .scrap, beneath := beneathOf s, nv := {}, dram := [], ev := {} }
  { s1 with
    pwr := { s1.pwr with phase := .scrap, pd00Lost := false }
    otp := scrapOtp s1.otp
    link := { s1.link with enabled := true }
    boot := { s1.boot with mode := .recovery }
    tamper := { s1.tamper with latch := [] } }

/-- SCRAP_START (R444). -/
def execScrapStart (cap : CapReading) (s : State) : Host.Outcome State Fault Refusal :=
  match s.pwr.phase with
  | .startDue => if otpScrap s then .next (settle s (scrapSteps cap s)) else .next s
  | _ => .next s

end Sys2Proof.Machine
end

