-- ==== Sys2Proof/Machine/Dispatch.lean ====
section
/-! DEFINITION. Which meaning each command has: one arm per constructor. -/

namespace Sys2Proof.Machine

/-- The effect of a command on everything but the queue. -/
def exec (i : Instr) (s : State) : Host.Outcome State Fault Refusal :=
  match i with
  | .powerGood feed => Sys2Proof.Machine.execPowerGood feed s
  | .start facts => Sys2Proof.Machine.execStart facts s
  | .scrapStart cap => Sys2Proof.Machine.execScrapStart cap s
  | .mailboxReady => Sys2Proof.Machine.execMailboxReady s
  | .serviceComplete => Sys2Proof.Machine.execServiceComplete s
  | .feedLoss feed => Sys2Proof.Machine.execFeedLoss feed s
  | .feedReturn feed => Sys2Proof.Machine.execFeedReturn feed s
  | .holdUpBridge => Sys2Proof.Machine.execHoldUpBridge s
  | .powerFailure => Sys2Proof.Machine.execPowerFailure s
  | .flushComplete => Sys2Proof.Machine.execFlushComplete s
  | .reset pin lowNs => Sys2Proof.Machine.execReset pin lowNs s
  | .resetRelease pin => Sys2Proof.Machine.execResetRelease pin s
  | .ioBankLoss bank => Sys2Proof.Machine.execIoBankLoss bank s
  | .ioBankReturn bank => Sys2Proof.Machine.execIoBankReturn bank s
  | .vbatLoss => Sys2Proof.Machine.execVbatLoss s
  | .capacitorMeasurement cap => Sys2Proof.Machine.execCapacitorMeasurement cap s
  | .vholdLowTimeout => Sys2Proof.Machine.execVholdLowTimeout s
  | .standbyExit => Sys2Proof.Machine.execStandbyExit s
  | .pkeIdleOff core => Sys2Proof.Machine.execPkeIdleOff core s
  | .usbAttach => Sys2Proof.Machine.execUsbAttach s
  | .usbDetach => Sys2Proof.Machine.execUsbDetach s
  | .hostPathClaim path => Sys2Proof.Machine.execHostPathClaim path s
  | .usbBusReset => Sys2Proof.Machine.execUsbBusReset s
  | .linkLane gen width => Sys2Proof.Machine.execLinkLane gen width s
  | .linkLoss cause => Sys2Proof.Machine.execLinkLoss cause s
  | .vfEnable numVFs => Sys2Proof.Machine.execVfEnable numVFs s
  | .vfFlr fn => Sys2Proof.Machine.execVfFlr fn s
  | .pf0Flr => Sys2Proof.Machine.execPf0Flr s
  | .busMasterDisable fn => Sys2Proof.Machine.execBusMasterDisable fn s
  | .d3hot fn => Sys2Proof.Machine.execD3hot fn s
  | .completionTimeout qix entry => Sys2Proof.Machine.execCompletionTimeout qix entry s
  | .doorbell fn qix value whole => Sys2Proof.Machine.execDoorbell fn qix value whole s
  | .linkCtrl value => Sys2Proof.Machine.execLinkCtrl value s
  | .coal fn vec value => Sys2Proof.Machine.execCoal fn vec value s
  | .coalesceTimeout fn vec => Sys2Proof.Machine.execCoalesceTimeout fn vec s
  | .vectorUnmask fn vec => Sys2Proof.Machine.execVectorUnmask fn vec s
  | .registerWrite fn space off size value => Sys2Proof.Machine.execRegisterWrite fn space off size value s
  | .fetch shard result => Sys2Proof.Machine.execFetch shard result s
  | .sourceArrived qix result => Sys2Proof.Machine.execSourceArrived qix result s
  | .dispatch => Sys2Proof.Machine.execDispatch s
  | .nop qix => Sys2Proof.Machine.execNop qix s
  | .accept seq => Sys2Proof.Machine.execAccept seq s
  | .sealMsg seq => Sys2Proof.Machine.execSealMsg seq s
  | .openMsg seq => Sys2Proof.Machine.execOpenMsg seq s
  | .xtsEnc seq => Sys2Proof.Machine.execXtsEnc seq s
  | .xtsDec seq => Sys2Proof.Machine.execXtsDec seq s
  | .outcome seq => Sys2Proof.Machine.execOutcome seq s
  | .verifyReceipt seq => Sys2Proof.Machine.execVerifyReceipt seq s
  | .unitRelease seq => Sys2Proof.Machine.execUnitRelease seq s
  | .queueStop qix => Sys2Proof.Machine.execQueueStop qix s
  | .nonceExhausted qix => Sys2Proof.Machine.execNonceExhausted qix s
  | .queueDrained qix => Sys2Proof.Machine.execQueueDrained qix s
  | .failover slot cause => Sys2Proof.Machine.execFailover slot cause s
  | .laneStartTestDone slot pass0 pass1 => Sys2Proof.Machine.execLaneStartTestDone slot pass0 pass1 s
  | .laneFullTestDone lane pass => Sys2Proof.Machine.execLaneFullTestDone lane pass s
  | .laggard slot measure later => Sys2Proof.Machine.execLaggard slot measure later s
  | .laggardDrainEnd slot => Sys2Proof.Machine.execLaggardDrainEnd slot s
  | .laneTestPeriodic => Sys2Proof.Machine.execLaneTestPeriodic s
  | .maskReseed lane => Sys2Proof.Machine.execMaskReseed lane s
  | .leafInOrder => Sys2Proof.Machine.execLeafInOrder s
  | .batchTimeout => Sys2Proof.Machine.execBatchTimeout s
  | .pageTimeout => Sys2Proof.Machine.execPageTimeout s
  | .pageSealed => Sys2Proof.Machine.execPageSealed s
  | .journalCheckpoint => Sys2Proof.Machine.execJournalCheckpoint s
  | .seqMarkRaise => Sys2Proof.Machine.execSeqMarkRaise s
  | .seqReservePoint => Sys2Proof.Machine.execSeqReservePoint s
  | .opsecCheckpoint => Sys2Proof.Machine.execOpsecCheckpoint s
  | .meterWriteBehind page => Sys2Proof.Machine.execMeterWriteBehind page s
  | .counterBackWrite ctr => Sys2Proof.Machine.execCounterBackWrite ctr s
  | .reservationMarkRaise drawId => Sys2Proof.Machine.execReservationMarkRaise drawId s
  | .nbStartupTestDone bank pass streams prop => Sys2Proof.Machine.execNbStartupTestDone bank pass streams prop s
  | .nbHealthFail bank stream prop => Sys2Proof.Machine.execNbHealthFail bank stream prop s
  | .nbCalibrationDone bank bound => Sys2Proof.Machine.execNbCalibrationDone bank bound s
  | .calPeriodic bank => Sys2Proof.Machine.execCalPeriodic bank s
  | .calTemperature bank temp => Sys2Proof.Machine.execCalTemperature bank temp s
  | .nbRestart bank => Sys2Proof.Machine.execNbRestart bank s
  | .drawDefineTimeout drawId => Sys2Proof.Machine.execDrawDefineTimeout drawId s
  | .drawCloseDrained drawId => Sys2Proof.Machine.execDrawCloseDrained drawId s
  | .drawCertSigned drawId => Sys2Proof.Machine.execDrawCertSigned drawId s
  | .rulesetDrainEnd => Sys2Proof.Machine.execRulesetDrainEnd s
  | .gateSyncRetired => Sys2Proof.Machine.execGateSyncRetired s
  | .keyImportTimeout fn mbx => Sys2Proof.Machine.execKeyImportTimeout fn mbx s
  | .challengeExpiry => Sys2Proof.Machine.execChallengeExpiry s
  | .dbgRightsExpiry => Sys2Proof.Machine.execDbgRightsExpiry s
  | .lcReset => Sys2Proof.Machine.execLcReset s
  | .tamperInput input newWindow => Sys2Proof.Machine.execTamperInput input newWindow s
  | .t4Reset => Sys2Proof.Machine.execT4Reset s
  | .unpoweredTamperLatch sensor => Sys2Proof.Machine.execUnpoweredTamperLatch sensor s
  | .loopResistanceMeasure ohmsA ohmsB => Sys2Proof.Machine.execLoopResistanceMeasure ohmsA ohmsB s
  | .unitFailed unit index => Sys2Proof.Machine.execUnitFailed unit index s
  | .dramUncorrectable line reader => Sys2Proof.Machine.execDramUncorrectable line reader s
  | .scrubPeriod corrected => Sys2Proof.Machine.execScrubPeriod corrected s
  | .mramRefresh => Sys2Proof.Machine.execMramRefresh s
  | .eventBufferWrite => Sys2Proof.Machine.execEventBufferWrite s
  | .evtSuppressed code => Sys2Proof.Machine.execEvtSuppressed code s
  | .meterPortRead addr strobesOk => Sys2Proof.Machine.execMeterPortRead addr strobesOk s
  | .meterPortWrite addr data be weLowNs weRiseNs => Sys2Proof.Machine.execMeterPortWrite addr data be weLowNs weRiseNs s
  | .meterIncrement ctr amount be => Sys2Proof.Machine.execMeterIncrement ctr amount be s
  | .counterWindowRead ctr => Sys2Proof.Machine.execCounterWindowRead ctr s
  | .groupOpen page => Sys2Proof.Machine.execGroupOpen page s
  | .groupCommit => Sys2Proof.Machine.execGroupCommit s
  | .groupAbort => Sys2Proof.Machine.execGroupAbort s
  | .tvVerdict spaced => Sys2Proof.Machine.execTvVerdict spaced s
  | .dgStart party alg => Sys2Proof.Machine.execDgStart party alg s
  | .dgFinish party alg => Sys2Proof.Machine.execDgFinish party alg s
  | .dgData party data busy => Sys2Proof.Machine.execDgData party data busy s
  | .dgOwn party value => Sys2Proof.Machine.execDgOwn party value s
  | .dgOwnerTimeout => Sys2Proof.Machine.execDgOwnerTimeout s
  | .dgLowWordRead off => Sys2Proof.Machine.execDgLowWordRead off s
  | .pmonFreeze value => Sys2Proof.Machine.execPmonFreeze value s
  | .pmonClear => Sys2Proof.Machine.execPmonClear s
  | .pmonCntRead n => Sys2Proof.Machine.execPmonCntRead n s
  | .rdStatus => Sys2Proof.Machine.execRdStatus s
  | .wrMbx arg data crc timingOk => Sys2Proof.Machine.execWrMbx arg data crc timingOk s
  | .rdMbx => Sys2Proof.Machine.execRdMbx s
  | .spiSubmit arg data crc timingOk => Sys2Proof.Machine.execSpiSubmit arg data crc timingOk s
  | .rdCompl ack => Sys2Proof.Machine.execRdCompl ack s
  | .spiUnknownCommand cmd arg => Sys2Proof.Machine.execSpiUnknownCommand cmd arg s
  | .usbSubmit frame => Sys2Proof.Machine.execUsbSubmit frame s
  | .mailboxUnknownOpcode r opcode => Sys2Proof.Machine.execMailboxUnknownOpcode r opcode s
  | .devIdentity r => Sys2Proof.Machine.execDevIdentity r s
  | .devStatus r => Sys2Proof.Machine.execDevStatus r s
  | .devStandby r => Sys2Proof.Machine.execDevStandby r s
  | .devChallenge r => Sys2Proof.Machine.execDevChallenge r s
  | .devPubkeys r => Sys2Proof.Machine.execDevPubkeys r s
  | .fnConfig r => Sys2Proof.Machine.execFnConfig r s
  | .queueCreate r => Sys2Proof.Machine.execQueueCreate r s
  | .queueDisable r => Sys2Proof.Machine.execQueueDisable r s
  | .queueDelete r => Sys2Proof.Machine.execQueueDelete r s
  | .queueQuery r => Sys2Proof.Machine.execQueueQuery r s
  | .fnDisable r => Sys2Proof.Machine.execFnDisable r s
  | .fnEnable r => Sys2Proof.Machine.execFnEnable r s
  | .keyDerive r => Sys2Proof.Machine.execKeyDerive r s
  | .keyImport r => Sys2Proof.Machine.execKeyImport r s
  | .keyInvalidate r => Sys2Proof.Machine.execKeyInvalidate r s
  | .keyQuery r => Sys2Proof.Machine.execKeyQuery r s
  | .drawSchedule r => Sys2Proof.Machine.execDrawSchedule r s
  | .drawClose r => Sys2Proof.Machine.execDrawClose r s
  | .drawRun r fails => Sys2Proof.Machine.execDrawRun r fails s
  | .drawCert r => Sys2Proof.Machine.execDrawCert r s
  | .instantBatch r fails => Sys2Proof.Machine.execInstantBatch r fails s
  | .nbStatus r => Sys2Proof.Machine.execNbStatus r s
  | .journalStatus r => Sys2Proof.Machine.execJournalStatus r s
  | .journalQuery r => Sys2Proof.Machine.execJournalQuery r s
  | .journalExport r => Sys2Proof.Machine.execJournalExport r s
  | .journalReclaim r => Sys2Proof.Machine.execJournalReclaim r s
  | .journalSync r => Sys2Proof.Machine.execJournalSync r s
  | .journalClaimTime r => Sys2Proof.Machine.execJournalClaimTime r s
  | .rulesetLoad r => Sys2Proof.Machine.execRulesetLoad r s
  | .rulesetQuery r => Sys2Proof.Machine.execRulesetQuery r s
  | .rulesetDelete r => Sys2Proof.Machine.execRulesetDelete r s
  | .lcStatus r => Sys2Proof.Machine.execLcStatus r s
  | .lcTransition r => Sys2Proof.Machine.execLcTransition r s
  | .lcFlagBurn r => Sys2Proof.Machine.execLcFlagBurn r s
  | .dbgCertLoad r => Sys2Proof.Machine.execDbgCertLoad r s
  | .fwStatus r => Sys2Proof.Machine.execFwStatus r s
  | .fwWrite r => Sys2Proof.Machine.execFwWrite r s
  | .fwVerify r => Sys2Proof.Machine.execFwVerify r s
  | .fwActivate r => Sys2Proof.Machine.execFwActivate r s
  | .fwCommit r => Sys2Proof.Machine.execFwCommit r s
  | .evtRead r => Sys2Proof.Machine.execEvtRead r s
  | .evtClear r => Sys2Proof.Machine.execEvtClear r s
  | .diagSelftest r cap => Sys2Proof.Machine.execDiagSelftest r cap s
  | .diagSchedule r => Sys2Proof.Machine.execDiagSchedule r s
  | .diagHealth r => Sys2Proof.Machine.execDiagHealth r s
  | .pmonConfig r => Sys2Proof.Machine.execPmonConfig r s
  | .gateWrite r => Sys2Proof.Machine.execGateWrite r s
  | .gateRead r => Sys2Proof.Machine.execGateRead r s
  | .gateLock r => Sys2Proof.Machine.execGateLock r s
  | .gateSync r => Sys2Proof.Machine.execGateSync r s
  | .gateFaults r => Sys2Proof.Machine.execGateFaults r s
  | .ctrRead r => Sys2Proof.Machine.execCtrRead r s
  | .meterRead r => Sys2Proof.Machine.execMeterRead r s
  | .meterWrite r => Sys2Proof.Machine.execMeterWrite r s
  | .meterProtect r => Sys2Proof.Machine.execMeterProtect r s
  | .tapReset => Sys2Proof.Machine.execTapReset s
  | .extest => Sys2Proof.Machine.execExtest s
  | .idcode => Sys2Proof.Machine.execIdcode s
  | .samplePreload cells => Sys2Proof.Machine.execSamplePreload cells s
  | .dbgStatus update => Sys2Proof.Machine.execDbgStatus update s
  | .dbgLoad package => Sys2Proof.Machine.execDbgLoad package s
  | .dbgMem write addr data => Sys2Proof.Machine.execDbgMem write addr data s
  | .dbgCore op => Sys2Proof.Machine.execDbgCore op s
  | .dbgTrace => Sys2Proof.Machine.execDbgTrace s
  | .dbgOtp word => Sys2Proof.Machine.execDbgOtp word s
  | .dbgScan chain => Sys2Proof.Machine.execDbgScan chain s
  | .bypass code => Sys2Proof.Machine.execBypass code s
  | .linkReturn gen width setup => Sys2Proof.Machine.execLinkReturn gen width setup s
  | .d3hotExit fn => Sys2Proof.Machine.execD3hotExit fn s
  | .busMasterEnable fn => Sys2Proof.Machine.execBusMasterEnable fn s
  | .vbatRecovery => Sys2Proof.Machine.execVbatRecovery s
  | .pkeTestDone core pass => Sys2Proof.Machine.execPkeTestDone core pass s
  | .receivedTlpError kind => Sys2Proof.Machine.execReceivedTlpError kind s
  | .usbBulkIn ep => Sys2Proof.Machine.execUsbBulkIn ep s
  | .pdMessage msg => Sys2Proof.Machine.execPdMessage msg s
  | .commandWaitTimeout fn mbx => Sys2Proof.Machine.execCommandWaitTimeout fn mbx s

end Sys2Proof.Machine
end

