-- ==== Sys2Proof/Machine/Tick.lean ====
section
/-! DEFINITION. What passes when no command waits: one operating second (DESIGN CHOICE, notes/assumptions/4.md). -/

namespace Sys2Proof.Machine

/-- A bucket one second later: RATE units, of 60 to a token, come back (R413). -/
def refill (rate : Nat) (taken : Tab Nat) : Tab Nat :=
  (taken.map fun e => (e.1, e.2 - rate)).filter fun e => e.2 ≠ 0

/-- VHOLD after another second of the bleed: below 1.0 V once two seconds have run (R56). The fall is left open. -/
def bledVhold (p : Power) (free : Nat) : Nat :=
  if 1 ≤ p.bled then min p.vhold (Config.freeNat free % 1000) else Config.freeNat free % (p.vhold + 1)

/-- A second after power-down: VHOLD bleeds (R56), and the counters stand (R46; notes/assumptions/4.md). -/
def offSecond (s : State) : State :=
  { s with
    pwr := { s.pwr with vhold := bledVhold s.pwr s.free, bled := s.pwr.bled + 1 }
    free := s.free + 1 }

/-- A dip that was bridged has recovered: the converter stops and the pump restores VHOLD (R51, R56; notes/assumptions/77.md). -/
def dipEnds (s : State) : State :=
  if s.pwr.bridging then
    { s with pwr := { s.pwr with bridging := false, vhold := chargedVhold true s.free }, free := s.free + 1 }
  else s

/-- One operating second passes: the operating-seconds counter counts, modulo 2^40, the event buckets refill, and the cycle monitors of CLK_CORE and
CLK_LANE count (R17, R46, R413, R422). A bridged dip has ended (R51). -/
def tick (s : State) : State :=
  match s.pwr.phase with
  | .off => offSecond s
  | _ =>
    let t := dipEnds s
    { t with
      opsec := (t.opsec + 1) % 2 ^ 40
      pmon := (t.pmon.count 0x01 0 1200000000).count 0x02 0 600000000
      ev := { t.ev with tokens := refill t.diag.rate t.ev.tokens } }

end Sys2Proof.Machine
end

