-- ==== Sys2Proof/Safety.lean ====
section
/-! DEFINITION. What counts as a safe run, and the terms the statements use: what a command completes in, what a request is answered with,
which states have nothing due, and what it means for a burnt bit to stay burnt. -/

namespace Sys2Proof.Machine

/-- The step answers a next state. -/
def Goes (s : State) : Prop := ∃ t, step s = .next t

/-- The command answers a next state, of which `P` holds. -/
def To (i : Instr) (s : State) (P : State → Prop) : Prop := ∃ t, exec i s = .next t ∧ P t

/-- Every byte memory of the state is in canonical form: addresses rising, no listed byte zero. -/
def State.memoriesWf (s : State) : Bool :=
  s.mbxs.all (fun e => Memory.wf e.2.buf) && Memory.wf s.meter.mirror && Memory.wf s.meter.shadow && Memory.wf s.nv.meter
    && Memory.wf s.nv.fwA && Memory.wf s.nv.fwB

/-- Bit `i` of OTP word `w` is burnt (R356). -/
def otpBit (s : State) (w i : Nat) : Bool := (tgetD s.otp w 0).getLsbD i

/-- Nothing is due by itself: no completion's turn has come, and the journal fill level is the one last reported (R140, R270). -/
def quiet (s : State) : Bool := s.work.all (fun w => !mayComplete s.jrn w) && s.jrn.fill == jfill s

/-- A function without its event flags. -/
def Fn.sansFlags (x : Fn) : Fn := { x with devEvent := 0 }

/-- `t` is `u` but for what telling the host of a change touches: DEV_EVENT flags, vectors and messages, the NOTIFY flags of USB, and the
performance counts (R104, R110, R120, R421). -/
def Notified (u t : State) : Prop :=
  t = { u with
      fns := t.fns, vecs := t.vecs, out := t.out, pmon := t.pmon
      link := { u.link with usbNotify := t.link.usbNotify } }
    ∧ t.fns.map Fn.sansFlags = u.fns.map Fn.sansFlags

/-- Mailbox ready has come and the device serves, in service or before service is complete (R66). -/
def serving (s : State) : Bool :=
  match s.pwr.phase with
  | .ready | .service => true
  | _ => false

/-- A request is taken at once: its mailbox exists and is free, its path may use it, and nothing makes the request wait (R50, R66, R84, R85,
R121). -/
def takes (op : Nat) (r : Req) (s : State) : Bool :=
  !unreachable r s && pathOk r s && !(mbxOf s r.fn r.mbx).busy && !mustHold op s

/-- A request is taken and passes every check of R445. `need` is the body length where the command fixes one. -/
def accepts (op : Nat) (r : Req) (need : Option Nat) (s : State) : Bool := takes op r s && (admission op r need s).isNone

/-- The request's path holds the response of R123: in the mailbox buffer with BUSY clear and DONE set, as the last MBX_RESP frame, or in
the SPI target. -/
def Answered (op : Nat) (r : Req) (status detail : Nat) (body : Bytes) (t : State) : Prop :=
  match r.path with
  | .pcie =>
    (mbxOf t r.fn r.mbx).busy = false ∧ (mbxOf t r.fn r.mbx).done = true
      ∧ mreads (mbxOf t r.fn r.mbx).buf 0 (16 + body.length) = mbxBytes op r.tag status detail body
  | .usb =>
    (mbxOf t r.fn r.mbx).busy = false
      ∧ t.link.usbMbx.getLast? = some (usbHeader 4 0 r.mbx (16 + body.length) ++ mbxBytes op r.tag status detail body)
  | .spi => (mbxOf t r.fn r.mbx).busy = false ∧ t.spi.resp = some (mbxBytes op r.tag status detail body)

/-- `t` is `u` but for the response of request `r` and what telling the host touches: no other mailbox, and nothing else, has changed. -/
def Responded (r : Req) (u t : State) : Prop :=
  t = { u with
      fns := t.fns, vecs := t.vecs, out := t.out, pmon := t.pmon, mbxs := t.mbxs, free := t.free
      link := { u.link with usbNotify := t.link.usbNotify, usbMbx := t.link.usbMbx }
      spi := { u.spi with resp := t.spi.resp } }
    ∧ t.fns.map Fn.sansFlags = u.fns.map Fn.sansFlags
    ∧ ∀ k, k ≠ 64 * r.fn + r.mbx → tget t.mbxs k = tget u.mbxs k

/-- The command is answered OK with a body and leaves the state `u`, but for the response. -/
def Does (i : Instr) (op : Nat) (r : Req) (s : State) (body : Bytes) (u : State) : Prop :=
  To i s fun t => Answered op r stOk 0 body t ∧ Responded r u t

/-- The package that a mailbox holds once a chunk request has been taken: the bytes received before, none for OFFSET 0, with the chunk's after them,
which stand in the request or are read by DMA. None where the request is refused or its read faults (R302, R361). -/
def chunkWhole (op limit : Nat) (r : Req) (s : State) : Option Bytes :=
  let c := fld r 8 4
  let before := if fld r 4 4 = 0 then [] else pkgOf op r s
  if 24 ≤ r.body.length ∧ chunkRange r = none ∧ r.body.length = (if bit (fld r 0 4) 0 then 24 else 24 + c)
      ∧ chunkBad r (pkgOf op r s).length = none ∧ fld r 4 4 + c ≤ limit then
    if bit (fld r 0 4) 0 then
      match r.dma with
      | .data b =>
        if r.path = .pcie ∧ (fnOf s r.fn).bme = true ∧ dmaFault r false (fld r 16 8) c s = none then some (before ++ fit c b) else none
      | .aerError _ => none
    else some (before ++ r.body.drop 24)
  else none

/-- The request waits for its answer: its mailbox is busy, and a waiter holds it for the object (R124). -/
def Waits (op : Nat) (r : Req) (obj : Nat) (t : State) : Prop :=
  (mbxOf t r.fn r.mbx).busy = true ∧ ∃ w ∈ t.waiters, w.req = r ∧ w.op = op ∧ w.obj = obj

/-- A standalone entry can be formed and written at once: nothing stops entries, and the ring has free pages for all that the pending ring area
holds (R251, R253, R254). -/
def ringTakes (s : State) : Bool := !entriesStop s && decide (63 ≤ freePages (makeRoom 2040 s))

/-- An entry of a type with a body has been formed with the next SEQ and stands in the journal ring (R256, R260, R264). -/
def Journalled (type : Nat) (body : Bytes) (s t : State) : Prop :=
  s.jrn.nextSeq < t.jrn.nextSeq
    ∧ ∃ e ∈ t.nv.ring, e.first = s.jrn.nextSeq ∧ e.last = s.jrn.nextSeq ∧ num e.bytes 0 1 = type ∧ slice e.bytes 16 body.length = body

end Sys2Proof.Machine
end

