-- ==== Sys2Proof/Certificates/Slice0/Obligations.lean ====
section
/-! DEFINITION. The statements for the provers: what the rules of the spec say the block does, one definition each. -/

open Sys2Proof Sys2Proof.Machine


/-- A step takes the command at the front of the queue and executes it with the queue's rest. -/
def Obligations.StepRunsFrontCommand : Prop :=
  ∀ (c : Instr) (rest : List Instr) (s : State),
    step { s with pending := c :: rest } = exec c { s with pending := rest }

/-- On an empty queue one operating second passes while the device has power: the counter of R46 counts modulo 2^40, the event buckets
refill, a bridged dip has ended, the cycle monitors count, and nothing else changes; unpowered, VHOLD bleeds, below 1.0 V from the second
second on (R56), and nothing else changes. That a second passes then is the model's choice (notes/assumptions/4.md and 77.md). -/
def Obligations.EmptyQueuePassesOneSecond : Prop :=
  ∀ s : State, s.pending = [] →
    (s.pwr.phase = .off →
        ∃ v, v ≤ s.pwr.vhold ∧ (1 ≤ s.pwr.bled → v < 1000)
          ∧ step s = .next { s with pwr := { s.pwr with vhold := v, bled := s.pwr.bled + 1 }, free := s.free + 1 })
      ∧ (s.pwr.phase ≠ .off →
          ∃ t, step s = .next t
            ∧ t.pwr = { s.pwr with bridging := false, vhold := t.pwr.vhold }
            ∧ (s.pwr.bridging = false → t.pwr.vhold = s.pwr.vhold)
            ∧ t = { s with
                pwr := t.pwr, pmon := t.pmon, free := t.free
                opsec := (s.opsec + 1) % 2 ^ 40
                ev := { s.ev with tokens := refill s.diag.rate s.ev.tokens } })

/-- No step stops the block: whatever waits and whatever the state, a step answers a next state. -/
def Obligations.EveryStepGoesOn : Prop := ∀ s : State, Goes s

/-- The OTP never loses a bit (R356, R357): in every step, a bit of a word that is burnt stays burnt. -/
def Obligations.BurntBitsStayBurnt : Prop :=
  ∀ (w i : Nat), w < 256 → ∀ s t : State, otpBit s w i = true → step s = .next t → otpBit t w i = true

/-- The byte memories of the mailbox buffers, the meter store, its mirror and shadow, and the firmware slots keep their canonical form in
every step: addresses strictly rising, and no listed byte equal to what an unlisted one reads as (notes/assumptions/3.md). -/
def Obligations.ByteMemoriesStayCanonical : Prop :=
  ∀ s t : State, s.memoriesWf = true → step s = .next t → t.memoriesWf = true

/-- Right after reset no command waits, the life-cycle words hold nothing (RAW), every byte memory is in canonical form, and the OTP holds
the words that the test equipment has burnt (R356; notes/assumptions/1.md and 14.md). -/
def Obligations.ResetIsRaw : Prop :=
  State.reset.pending = [] ∧ State.reset.lc = .raw ∧ State.reset.memoriesWf = true
    ∧ (∀ w, w ∈ [96, 97, 98, 100, 101, 102, 103, 104, 105, 106, 107] → tgetD State.reset.otp w 0 = 0)
    ∧ (∀ i, i < 16 → tgetD State.reset.otp i 0 = Config.trim i)
    ∧ tgetD State.reset.otp 16 0 = Config.unitId.setWidth 64
    ∧ ∀ b, b < 64 → otpBit State.reset 17 b = Config.unitId.getLsbD (64 + b)

/-- FEED_LOSS and FEED_RETURN (R42): with the other feed good, the feed falls below its loss threshold of 2,550 mV or reaches its
power-good threshold of 2,650 mV, the event of R414 is recorded, a lost feed asserts nALERT, and nothing else changes: service goes on.
IO_BANK_LOSS and IO_BANK_RETURN (R38, R48): the bank is disabled, or enabled again at the level that its supply selects, and the event is
recorded; while VDDIO_GEN is disabled the reset pins count as released, and while VDDIO_MP is disabled PD58 is off and the meter port
serves no cycle, so an open group and the cabinet controller's hold on DGU1 end (R394, R407). Nothing else changes. A supply outside both
bands leaves the bank disabled. A VDDIO_GEN that returns with a pin low is a reset (notes/assumptions/26.md), so that side asks for
released pins. -/
def Obligations.SuppliesComeAndGo : Prop :=
  (∀ (f : Feed) (s : State), powered s = true → quiet s = true →
      (feedOn f s.pwr = true → feedOn (otherFeed f) s.pwr = true →
        To (.feedLoss f) s fun t =>
          (∃ mv, mv < 2550 ∧ t.pwr = setFeed f false mv s.pwr) ∧ alert t = true
            ∧ Notified { s with pwr := t.pwr, ev := (event 0x0101 (feedNo f) s).ev, free := s.free + 1 } t)
      ∧ (feedOn f s.pwr = false →
        To (.feedReturn f) s fun t =>
          (∃ mv, 2650 ≤ mv ∧ t.pwr = setFeed f true mv s.pwr)
            ∧ Notified { s with pwr := t.pwr, ev := (event 0x0102 (feedNo f) s).ev, free := s.free + 1 } t))
    ∧ (∀ s : State, served s = true → quiet s = true →
      (s.pwr.ioGen = true →
        To (.ioBankLoss .gen) s fun t =>
          Notified { s with pwr := { s.pwr with ioGen := false }, ev := (event 0x0103 0 s).ev } t
            ∧ (s.pwr.tapHold = false → resetHeld t.pwr = false))
      ∧ (s.pwr.ioMp = true →
        To (.ioBankLoss .mp) s fun t =>
          Notified { s with
              pwr := { s.pwr with ioMp := false, domains := s.pwr.domains.set 58 .off }
              meter := { s.meter with group := none, shadow := [], shadowMask := [] }
              dgu1 := (releaseDgu .cabinet s).dgu1
              ev := (event 0x0103 1 s).ev } t
            ∧ mpUp t = false)
      ∧ (∀ mv hi, ioLevel mv = some hi → s.pwr.ioGen = false → s.pwr.porLow = false → s.pwr.resetLow = false →
        To (.ioBankReturn ⟨.gen, mv⟩) s fun t =>
          Notified { s with pwr := { s.pwr with ioGen := true, ioGen33 := hi }, ev := (event 0x0104 0 s).ev } t)
      ∧ (∀ mv hi, ioLevel mv = some hi → s.pwr.ioMp = false →
        To (.ioBankReturn ⟨.mp, mv⟩) s fun t =>
          Notified { s with
            pwr := { s.pwr with ioMp := true, ioMp33 := hi, domains := s.pwr.domains.set 58 .on }
            ev := (event 0x0104 1 s).ev } t)
      ∧ ∀ bank mv, (mv < 1620 ∨ 3600 < mv ∨ (1980 < mv ∧ mv < 3000)) → exec (.ioBankReturn ⟨bank, mv⟩) s = .next s)

/-- POWER_FAILURE (R47, R51, R52): from every phase in which the device serves, the flush is written to the MRAM, both feeds are down,
MP_VALID is low, everything volatile is lost, the loads that the flush does not need are off, and the always-on counters and the OTP keep
their values. In a reset, and before the start sequence that is due, the flush from VHOLD writes the always-on counters' copies and
nothing else. FLUSH_COMPLETE (R47, R52, R54, R56, R60): after a power failure the device powers down, with PD00 alone on and VHOLD no
lower than 3.0 V where it was above; without VBAT PD00 then loses its counters and its latch; with a feed good again a full start is due.
After a reset flush the start is due once no pin holds it. Nothing else changes. POWER_GOOD (R42, R54, R62): an unpowered device with no
reset held has a full start due with REASON POWER_GOOD; the feed is at its threshold of 2,650 mV or above, and MRAM, OTP and the always-on
counters keep their values. During a flush, in reset and while a start is due the feed is there again and nothing else changes; in service
its return is recorded. -/
def Obligations.PowerIsLostAndReturns : Prop :=
  (∀ s : State,
      ((served s = true ∨ s.pwr.phase = .recovery ∨ s.pwr.phase = .scrap) →
        To .powerFailure s fun t =>
          t.pwr.phase = .flushPower ∧ t.pwr.feedA = false ∧ t.pwr.feedB = false ∧ t.pwr.mpValid = false
            ∧ (∀ n, flushNeeds n = false → t.pwr.domains.getD n .off = .off)
            ∧ (∀ n, flushNeeds n = true → t.pwr.domains.getD n .off = s.pwr.domains.getD n .off)
            ∧ t.nv = (flush s).nv
            ∧ t.work = [] ∧ t.queues = [] ∧ t.mbxs = [] ∧ t.dram = [] ∧ t.keys = {} ∧ t.dbg = {} ∧ t.jrn = {}
            ∧ t.otp = s.otp ∧ t.opsec = s.opsec ∧ t.pwrCyc = s.pwrCyc)
      ∧ ((s.pwr.phase = .flushReset ∨ s.pwr.phase = .held ∨ s.pwr.phase = .startDue) →
        To .powerFailure s fun t =>
          t.pwr.phase = .flushPower ∧ t.pwr.feedA = false ∧ t.pwr.feedB = false ∧ t.pwr.mpValid = false
            ∧ t.nv = (copyClocks s).nv ∧ t.otp = s.otp ∧ t.opsec = s.opsec ∧ t.pwrCyc = s.pwrCyc))
    ∧ (∀ s : State,
      (s.pwr.phase = .flushPower → s.pwr.feedA = false → s.pwr.feedB = false →
        To .flushComplete s fun t =>
          t.pwr.phase = .off ∧ t.pwr.domains = .on :: List.replicate 79 .off
            ∧ t.pwr.vhold ≤ s.pwr.vhold ∧ (3000 ≤ s.pwr.vhold → 3000 ≤ t.pwr.vhold)
            ∧ (s.pwr.vbatPresent = true → t = { s with pwr := t.pwr, free := t.free })
            ∧ (s.pwr.vbatPresent = false →
                t.pwr.pd00Lost = true ∧ t.opsec < 2 ^ 40 ∧ t.pwrCyc < 2 ^ 32 ∧ t.tamper.latch = []
                  ∧ t = { s with
                      pwr := t.pwr, free := t.free, opsec := t.opsec, pwrCyc := t.pwrCyc
                      tamper := { s.tamper with latch := [] } }))
      ∧ (s.pwr.phase = .flushPower → (s.pwr.feedA = true ∨ s.pwr.feedB = true) → resetHeld s.pwr = false →
        To .flushComplete s fun t =>
          t.pwr.phase = .startDue ∧ t.pwr.reason = .powerGood ∧ t.pwr.everStarted = false
            ∧ t = { s with pwr := t.pwr, free := t.free })
      ∧ (s.pwr.phase = .flushReset →
        exec .flushComplete s = .next { s with pwr := { s.pwr with
          phase := if resetHeld s.pwr then .held else .startDue, domains := heldDomains s.pwr } }))
    ∧ (∀ (f : Feed) (s : State), feedOn f s.pwr = false →
      (s.pwr.phase = .off → resetHeld s.pwr = false →
        To (.powerGood f) s fun t =>
          t.pwr.phase = .startDue ∧ t.pwr.reason = .powerGood ∧ feedOn f t.pwr = true
            ∧ 2650 ≤ (match f with | .a => t.pwr.vinA | .b => t.pwr.vinB)
            ∧ t = { s with pwr := t.pwr, free := t.free })
      ∧ ((s.pwr.phase = .flushPower ∨ s.pwr.phase = .flushReset ∨ s.pwr.phase = .held ∨ s.pwr.phase = .startDue) →
        To (.powerGood f) s fun t =>
          (∃ mv, 2650 ≤ mv ∧ t.pwr = setFeed f true mv s.pwr) ∧ t = { s with pwr := t.pwr, free := t.free })
      ∧ (served s = true → quiet s = true →
        To (.powerGood f) s fun t =>
          (∃ mv, 2650 ≤ mv ∧ t.pwr = setFeed f true mv s.pwr)
            ∧ Notified { s with pwr := t.pwr, ev := (event 0x0102 (feedNo f) s).ev, free := s.free + 1 } t))

/-- RESET and RESET_RELEASE (R60, R61, R62): a pin low for 1 us or more resets a serving device: the flush is written from input power,
MP_VALID falls, volatile state is lost and the pin is low; below 100 ns nothing happens at all. Released, the pin no longer holds the
start. -/
def Obligations.ResetPinsAct : Prop :=
  ∀ (pin : ResetPin) (s : State),
    (∀ lowNs, 1000 ≤ lowNs → s.pwr.ioGen = true → served s = true →
      To (.reset pin lowNs) s fun t =>
        t.pwr.phase = .flushReset ∧ t.pwr.reason = (if pin = .npor then .npor else .nreset)
          ∧ resetHeld t.pwr = true ∧ t.pwr.mpValid = false
          ∧ t.work = [] ∧ t.queues = [] ∧ t.mbxs = [] ∧ t.keys = {} ∧ t.jrn = {}
          ∧ t.opsec = s.opsec ∧ t.pwrCyc = s.pwrCyc ∧ t.otp = s.otp)
    ∧ (∀ lowNs, lowNs < 100 → exec (.reset pin lowNs) s = .next s)
    ∧ (s.pwr.phase = .held → s.pwr.tapHold = false → (if pin = .npor then s.pwr.resetLow else s.pwr.porLow) = false →
      To (.resetRelease pin) s fun t =>
        t.pwr.phase = .startDue ∧ t.pwr.porLow = false ∧ t.pwr.resetLow = false ∧ t = { s with pwr := t.pwr })

/-- VBAT_LOSS and VBAT_RECOVERY (R46, R47, R417): with both feeds absent the loss of VBAT loses PD00: its counters hold open values within
their widths and the latch is empty, and the next start finds it so; with a feed present PD00 runs on and only the cell is gone. On
recovery the cell is present and ALERT_CAUSE[6] clears. HOLD_UP_BRIDGE, CAPACITOR_MEASUREMENT and VHOLD_LOW_TIMEOUT (R51, R57, R59, R436):
a bridged dip takes charge from VHOLD and changes nothing else; a measurement is due 3,600 operating seconds after the last one and is
kept for DIAG_HEALTH, and one in range leaves the device as it was; below 150 uF or above 500 mOhm, or with VHOLD low, the device runs
DEGRADED. In reset through power good the start-up test runs and its result is kept for the start. PKE_IDLE_OFF, MRAM_REFRESH and
EVENT_BUFFER_WRITE (R48, R410, R440): an idle core's domain goes off; the refresh that is due writes the MRAM again, leaves every counter
at its value and writes each readable counter that was idle for 8,760 hours in all three copies; the event buffer empties into the event
area once records are due. Nothing else changes. -/
def Obligations.AlwaysOnDomainAndHoldUp : Prop :=
  (∀ s : State,
      (s.pwr.phase = .off →
        To .vbatLoss s fun t =>
          t.pwr = { s.pwr with vbatPresent := false, pd00Lost := true } ∧ t.opsec < 2 ^ 40 ∧ t.pwrCyc < 2 ^ 32
            ∧ t = { s with
                pwr := t.pwr, free := t.free, opsec := t.opsec, pwrCyc := t.pwrCyc, tamper := { s.tamper with latch := [] } })
      ∧ (s.pwr.phase = .flushPower →
        exec .vbatLoss s = .next { s with pwr := { s.pwr with vbatPresent := false } })
      ∧ (s.pwr.phase ≠ .off → s.pwr.phase ≠ .flushPower → quiet s = true →
        To .vbatLoss s fun t => Notified { s with pwr := { s.pwr with vbatPresent := false, vbatLow := true } } t)
      ∧ (quiet s = true →
        To .vbatRecovery s fun t => Notified { s with pwr := { s.pwr with vbatPresent := true, vbatLow := false } } t))
    ∧ (∀ s : State,
      (s.pwr.phase ≠ .off → s.pwr.phase ≠ .flushPower →
        To .holdUpBridge s fun t =>
          t.pwr.vhold ≤ s.pwr.vhold
            ∧ t = { s with pwr := { s.pwr with bridging := true, vhold := t.pwr.vhold }, free := s.free + 1 })
      ∧ (∀ c : CapReading, served s = true → s.pwr.capOpsec + 3600 ≤ s.opsec →
          To (.capacitorMeasurement c) s fun t =>
            t.pwr.cap = ⟨true, c⟩ ∧ t.pwr.capOpsec = s.opsec
              ∧ t.pwr.degraded = (s.pwr.degraded || decide (capUf ⟨true, c⟩ < 150) || decide (500 < capMohm ⟨true, c⟩)))
      ∧ (∀ c : CapReading, s.pwr.phase = .held → s.pwr.everStarted = false → s.pwr.capKept = none →
          To (.capacitorMeasurement c) s fun t =>
            (c.reached = true → 10780 ≤ t.pwr.vhold ∧ t.pwr.vhold ≤ 11220)
              ∧ t = { s with
                  pwr := { s.pwr with capKept := some ⟨dischargeMethod s.pwr, c⟩, vhold := t.pwr.vhold }, free := s.free + 1 })
      ∧ (served s = true → s.pwr.degraded = false →
          To .vholdLowTimeout s fun t => t.pwr.degraded = true ∧ t.pwr.vhold < 10000 ∧ t.pwr.cap = s.pwr.cap))
    ∧ (∀ s : State,
      (∀ (core : Nat) (p : Pke), s.pkes[core]? = some p → p.on = true → p.testing = false → 13 + core < s.pwr.domains.length →
        To (.pkeIdleOff core) s fun t =>
          t.pwr.domains[13 + core]? = some .off ∧ (t.pkes[core]?).map (·.on) = some false
            ∧ t = { s with pwr := { s.pwr with domains := t.pwr.domains }, pkes := t.pkes }
            ∧ (∀ n, n ≠ 13 + core → t.pwr.domains[n]? = s.pwr.domains[n]?))
      ∧ (served s = true → s.pwr.degraded = false → s.nv.refreshAt + 31536000 ≤ s.opsec →
        To .mramRefresh s fun t =>
          t = { s with
              nv := { s.nv with ctrs := t.nv.ctrs, refreshAt := s.opsec }
              health := { s.health with mramCorr := t.health.mramCorr }, free := s.free + 1 }
            ∧ min 65535 s.health.mramCorr ≤ t.health.mramCorr ∧ t.health.mramCorr ≤ 65535
            ∧ (∀ n, ctrVal t n = ctrVal s n)
            ∧ ∀ n c, tget s.nv.ctrs n = some c → c.lost = false →
                (c.wrote + 31536000 ≤ s.opsec →
                  (ctrOf t n).c0.value = some (max c.live (c.c0.value.getD 0))
                    ∧ (ctrOf t n).c1.value = some (max c.live (c.c1.value.getD 0))
                    ∧ (ctrOf t n).c2.value = some (max c.live (c.c2.value.getD 0)) ∧ (ctrOf t n).wrote = s.opsec)
                ∧ (s.opsec < c.wrote + 31536000 → ctrOf t n = c))
      ∧ (served s = true → eventsDue s = true →
        To .eventBufferWrite s fun t =>
          t = { s with nv := { s.nv with evArea := t.nv.evArea }, ev := { s.ev with buf := [] } }
            ∧ ∀ r, s.ev.buf = [r] → tget t.nv.evArea (r.evn % 262144) = some r))

/-- START (R61, R65, R69, R76): a start that is due ends before mailbox ready, or in recovery mode, which is where it ends when no image
runs or the DRAM path has failed; the link interfaces are enabled. PD00's counters carry on, and the power-cycle counter advances unless
the reset was nRESET. SCRAP_START (R353, R356, R444): MRAM and DRAM hold nothing, every OTP word but the unit ID with its check word, LC0,
LC1 and the intent words reads all ones, and the device serves in SCRAP. -/
def Obligations.StartsEndWhereTheyShould : Prop :=
  (∀ (facts : StartFacts) (s : State), s.pwr.phase = .startDue → otpScrap s = false →
      To (.start facts) s fun t =>
        (t.pwr.phase = .started ∨ t.pwr.phase = .recovery) ∧ (t.pwr.phase = .recovery ↔ t.boot.mode = .recovery)
          ∧ (facts.dram = false → t.pwr.phase = .recovery) ∧ t.pwr.everStarted = true ∧ t.pwr.standby = false ∧ t.link.enabled = true
          ∧ (s.pwr.pd00Lost = false →
              t.opsec = s.opsec ∧ t.pwrCyc = (if s.pwr.reason = .nreset then s.pwrCyc else (s.pwrCyc + 1) % 2 ^ 32)))
    ∧ (∀ (cap : CapReading) (s : State), s.pwr.phase = .startDue → otpScrap s = true →
      To (.scrapStart cap) s fun t =>
        t.pwr.phase = .scrap ∧ t.lc = .scrap ∧ t.nv = {} ∧ t.dram = [] ∧ t.link.enabled = true
          ∧ (∀ w, w < 256 → scrapKeeps w = false → tgetD t.otp w 0 = BitVec.allOnes 64)
          ∧ (∀ w, w < 256 → scrapKeeps w = true → w ≠ 96 → w ≠ 97 → tgetD t.otp w 0 = tgetD s.otp w 0)
          ∧ t.opsec = s.opsec ∧ t.pwrCyc = s.pwrCyc)

/-- MAILBOX_READY and SERVICE_COMPLETE (R66, R68, R119, R234): at mailbox ready functions that nothing keeps disabled are enabled, DGU1's
window opens while both units serve, and a request that waited is answered; at service complete draws in ISSUING get their results from
their seeds, unless four comparisons of the sampler differ, which is left open (R239), and the rest of the key store and MRAM stays. -/
def Obligations.ServiceComesInTwoSteps : Prop :=
  ∀ s : State,
    (s.pwr.phase = .started → s.held = [] → s.fns.length = 16 →
      To .mailboxReady s fun t =>
        t.pwr = { s.pwr with phase := .ready } ∧ t.nv = s.nv ∧ t.keys = s.keys
          ∧ t.dgu1 = { s.dgu1 with withdrawn := !(s.dgu0.inService && s.dgu1.inService) }
          ∧ ∀ f, f < 16 → (fnOf t f).enabled
              = ((fnOf s f).enabled || ((fnOf s f).present && (fnOf s f).causes.isEmpty && !s.tamper.t3)))
    ∧ (∀ r : Req, s.pwr.phase = .started → s.held = [.lcStatus r] → r.fn = 0 → r.body = [] → mailboxExists r.path 0 r.mbx = true →
        (fnOf s 0).present = true → pathOk r s = true → headerBad r = none → s.lc ≠ .scrap → s.pwr.standby = false →
        s.pwr.standbyDue = false →
      To .mailboxReady s fun t => Answered 0x0701 r stOk 0 (lcStatusBody s) t ∧ t.held = [])
    ∧ (s.pwr.phase = .ready → s.held = [] → s.nv.draws.all (fun d => !mustResume d) = true →
      To .serviceComplete s fun t =>
        t.pwr = { s.pwr with phase := .service } ∧ t.nv = s.nv ∧ t.keys = s.keys ∧ t.mbxs = s.mbxs
          ∧ t.fns.map Fn.sansFlags = s.fns.map Fn.sansFlags)
    ∧ ∀ (d : Draw) (seed : Bytes), s.pwr.phase = .ready → s.held = [] → s.nv.draws = [d] → d.st = .issuing → d.results = none →
        s.lark.drbgOn = true → tamperHalt s = false → seedOf s d = some seed → sha384 (commitBlock d seed) = d.commit →
      To .serviceComplete s fun t =>
        t.pwr.phase = .service
          ∧ (if Config.freeNat s.free % 5 < 4 then t.nv = { s.nv with draws := [{ d with results := some (drawResult d.params seed) }] }
            else t.nv = s.nv ∧ t.lark.drbgOn = false)

/-- DEV_STANDBY and STANDBY_EXIT (R48, R50, R128): with nothing inside and no committed draw uncertified, standby is entered and the
command answers OK; otherwise fetching stops and it waits. In standby the lanes hold no keys and no seed and the banks are off. The exit
starts every bank that has not failed and ends standby. MRAM keeps its content. -/
def Obligations.StandbyIsEnteredAndLeft : Prop :=
  ∀ s : State,
    (∀ r : Req, accepts 0x0103 r (some 0) s = true →
      (s.work = [] → (s.tamper.t3 = true ∨ drawsUnderway s = false) →
        To (.devStandby r) s fun t =>
          t.pwr.standby = true ∧ t.pwr.standbyDue = false ∧ t.pwr.domains = s.pwr.domains.mapIdx standbyDomain
            ∧ (∀ l ∈ t.lanes, l.keys = [] ∧ l.seeded = false ∧ l.maskSeed = 0) ∧ (∀ b ∈ t.banks, b.st = .off ∨ b.st = .failed)
            ∧ t.nv = s.nv ∧ Answered 0x0103 r stOk 0 [] t)
      ∧ ((s.work ≠ [] ∨ (s.tamper.t3 = false ∧ drawsUnderway s = true)) → quiet s = true →
        To (.devStandby r) s fun t =>
          Waits 0x0103 r 0 t ∧ t.pwr.standby = false ∧ t.pwr.standbyDue = true ∧ t.work = s.work ∧ t.nv = s.nv))
    ∧ (powered s = true → s.pwr.standby = true → s.pwr.wake = true → s.held = [] → s.banks.length = 3 →
      To .standbyExit s fun t =>
        t.pwr.standby = false ∧ t.pwr.wake = false ∧ t.nv = s.nv
          ∧ ∀ b, b < 3 → (bankOf t b).st = if (bankOf s b).st = .failed then .failed else .starting)

/-- USB_ATTACH, HOST_PATH_CLAIM and USB_BUS_RESET (R84, R88, R89): with the interfaces enabled the port attaches; Memory Space Enable over
a PCIe tunnel, or configuration 1 of the USB function, is set, and the first of the two makes its path the host path; a later claim leaves
the path as it is; a claim of a path that does not reach the function does nothing. A bus reset gives up USB's host role. Nothing else
changes. PD_MESSAGE (R89): an attached port answers Discover Identity with product type peripheral, accepts Enter_USB and enters USB4
mode, answers alternate modes with Not_Supported, asks the source for 5 V at 100 mA, and turns a swap down; which message does so is left
open (notes/assumptions/81.md). LINK_LANE and RECEIVED_TLP_ERROR (R87, R90, R97, R101, R107): a lower rate or a dropped lane is recorded
and counted up to 0xFFFF, and service goes on at the new rate; a rise is not a fault; both lanes lost are a link loss; codes that no rate
or width has change nothing. A bad TLP is discarded and, while the PCIe tunnel is configured, reported at PF0, in its error log and its
status register. USB_BULK_IN (R108 to R112): the host takes the oldest frame of the endpoint, and the NOTIFY flags when any is set. -/
def Obligations.HostLinkEventsAct : Prop :=
  (∀ s : State, linkUp s = true →
      (To .usbAttach s fun t =>
        t.link = { s.link with attached := true } ∧ t = { s with link := t.link, pwr := { s.pwr with domains := t.pwr.domains } })
      ∧ (s.link.pcieTun = true → s.fns.length = 16 →
          To (.hostPathClaim .pcie) s fun t =>
            t.link = { s.link with hostPath := if s.link.hostPath = none then some .pcie else s.link.hostPath }
              ∧ memEnable t = true ∧ (∀ f, f ≠ 0 → fnOf t f = fnOf s f) ∧ (fnOf t 0).enabled = (fnOf s 0).enabled
              ∧ t = { s with link := t.link, fns := t.fns })
      ∧ ((s.link.usb3Tun = true ∨ (s.link.attached = true ∧ s.link.usb4Mode = false)) →
          exec (.hostPathClaim .usb) s = .next { s with link := { s.link with
            usbConf := true, hostPath := if s.link.hostPath = none then some .usb else s.link.hostPath } })
      ∧ (s.link.pcieTun = false → exec (.hostPathClaim .pcie) s = .next s)
      ∧ (s.link.usb3Tun = false → s.link.attached = false → exec (.hostPathClaim .usb) s = .next s)
      ∧ exec .usbBusReset s = .next { s with link := { s.link with
          usbConf := false, hostPath := if s.link.hostPath = some .usb then none else s.link.hostPath } })
    ∧ (∀ (m : PdMsg) (s : State), linkUp s = true → s.link.attached = true →
      To (.pdMessage m) s fun t =>
        (∃ a, t.out = s.out ++ [.cc a]
          ∧ match m with
            | .discoverIdentity => a = .peripheral
            | .enterUsb4 => a = .accept
            | .altMode => a = .notSupported
            | .sourceCaps => a = .request 5000 100
            | .prSwap | .drSwap => a = .reject ∨ a = .notSupported)
          ∧ t.link = { s.link with
              usb4Mode := s.link.usb4Mode || m == .enterUsb4, contract := s.link.contract || m == .sourceCaps }
          ∧ t = { s with out := t.out, link := t.link, free := t.free, pwr := { s.pwr with domains := t.pwr.domains } })
    ∧ (∀ s : State, linkUp s = true →
      (∀ gen width : BitVec 2, quiet s = true → s.link.gen ≠ 0 → linkCodes gen width = true →
        ((gen < s.link.gen ∨ width < s.link.width) →
          To (.linkLane gen width) s fun t =>
            Notified { s with
              link := { s.link with gen := gen, width := width, laneEvents := min (s.link.laneEvents + 1) 65535 }
              pwr := { s.pwr with domains := t.pwr.domains }
              ev := (event 0x0203 (gen.toNat + 4 * width.toNat) s).ev } t)
        ∧ (¬(gen < s.link.gen ∨ width < s.link.width) →
          To (.linkLane gen width) s fun t =>
            t = { s with
              link := { s.link with gen := gen, width := width }
              pwr := { s.pwr with domains := t.pwr.domains } }))
      ∧ (s.link.gen ≠ 0 → s.fns.length = 16 →
          To (.linkLane 0 0) s fun t =>
            t.link.hostPath = none ∧ t.link.gen = 0 ∧ t.link.width = 0 ∧ ∀ f, f < 16 → (fnOf t f).enabled = false)
      ∧ (∀ gen width : BitVec 2, linkCodes gen width = false → ¬(gen = 0 ∧ width = 0) → exec (.linkLane gen width) s = .next s)
      ∧ ∀ k : TlpError,
          To (.receivedTlpError k) s fun t =>
            t = { s with link := { s.link with aer := t.link.aer }, fns := t.fns }
              ∧ (s.link.pcieTun = true →
                  t.link.aer = s.link.aer ++ [(0, match k with
                    | .poisonedWrite => .poisonedWrite | .unexpectedCompletion => .unexpectedCompletion
                    | .ecrc => .ecrc | .malformed => .malformed)]
                  ∧ (∀ f, f ≠ 0 → fnOf t f = fnOf s f)
                  ∧ (s.fns.length = 16 → (cfgOf (fnOf t 0) 0x104).getLsbD (match k with
                    | .poisonedWrite => 12 | .unexpectedCompletion => 16 | .malformed => 18 | .ecrc => 19) = true))
              ∧ (s.link.pcieTun = false → t = s))
    ∧ (∀ (b : Bytes) (rest : List Bytes) (s : State), linkUp s = true →
      (s.link.usbOut = b :: rest →
        exec (.usbBulkIn .complete) s
          = .next { s with link := { s.link with usbOut := rest }, out := s.out ++ [.frame .complete b] })
      ∧ (s.link.usbMbx = b :: rest →
        exec (.usbBulkIn .mbxResp) s
          = .next { s with link := { s.link with usbMbx := rest }, out := s.out ++ [.frame .mbxResp b] })
      ∧ (s.link.usbNotify ≠ 0 →
        exec (.usbBulkIn .notify) s
          = .next { s with
              link := { s.link with usbNotify := 0 }
              out := s.out ++ [.frame .notify (le 2 5 ++ zeros 2 ++ le 4 s.link.usbNotify.toNat ++ le 2 0 ++ zeros 2 ++ le 4 0)] }))

/-- LINK_LOSS, USB_DETACH and LINK_RETURN (R84, R85, R87, R91, R148): a loss gives up the host role and disables PF0 and every VF, which
are gone; SPI queues, the journal's MRAM, the meter store and tamper sensing continue without change. After the link returns, with the
paths that the connection manager sets up, PF0 is enabled again where nothing else keeps it disabled. -/
def Obligations.LinkLossDisablesTheHostPath : Prop :=
  ∀ s : State, linkUp s = true → s.fns.length = 16 →
    (∀ c : LinkCause, (fnOf s 0).present = true → (fnOf s 0).causes = [] →
      To (.linkLoss c) s fun t =>
        t.link.hostPath = none ∧ (c ≠ .conventional → t.link.gen = 0 ∧ t.link.pcieTun = false ∧ t.link.usb3Tun = false)
          ∧ (∀ f, f < 16 → (fnOf t f).enabled = false)
          ∧ (∀ f, 1 ≤ f → f < 16 → (fnOf t f).present = false) ∧ (fnOf t 0).causes = [.link]
          ∧ (∀ q, (queueOf s q).path = .spi → (queueOf t q).st = (queueOf s q).st ∧ (queueOf t q).path = .spi)
          ∧ (quiet s = true → ∀ q, (queueOf s q).path = .spi → (queueOf s q).st ≠ .free → queueOf t q = queueOf s q)
          ∧ t.nv = s.nv ∧ t.meter = s.meter ∧ t.tamper = s.tamper ∧ t.opsec = s.opsec)
    ∧ (s.link.attached = true → (fnOf s 0).present = true → (fnOf s 0).causes = [] →
      To .usbDetach s fun t =>
        t.link.attached = false ∧ t.link.usb4Mode = false ∧ t.link.hostPath = none ∧ t.link.contract = false
          ∧ (∀ f, f < 16 → (fnOf t f).enabled = false) ∧ t.nv = s.nv ∧ t.meter = s.meter)
    ∧ (∀ (gen width : BitVec 2) (p : PathSetup), linkCodes gen width = true →
        (fnOf s 0).present = true → (fnOf s 0).causes = [.link] → mayEnable s = true →
      To (.linkReturn gen width p) s fun t =>
        t.link.gen = gen ∧ t.link.width = width ∧ t.link.usb3Tun = p.usb3 ∧ t.link.pcieTun = p.pcie ∧ t.link.tmu = p.tmu
          ∧ t.link.cl = p.cl ∧ (fnOf t 0).enabled = true ∧ (fnOf t 0).causes = [] ∧ t.nv = s.nv)

/-- VF_ENABLE (R93, R148): VFs 1 to NumVFs exist, and each that nothing keeps disabled is enabled once mailbox ready has come. Other
functions stay. VF_FLR, PF0_FLR and D3HOT (R105, R148): the function's registers return to reset and, with nothing of it in the lanes, its
queues on the host path are FREE. After an FLR it is enabled again, with no queues; in D3hot it stays disabled. VFs go with PF0.
BUS_MASTER_DISABLE, BUS_MASTER_ENABLE and D3HOT_EXIT (R105, R148): clearing Bus Master Enable disables the function; setting it again, or
leaving D3hot, ends that cause, and with no cause left the function is enabled. -/
def Obligations.FunctionsComeAndGo : Prop :=
  (∀ (n : Nat) (s : State), linkUp s = true → romServes s = false → s.link.vfEnable = false → n ≤ 15 → s.fns.length = 16 →
      To (.vfEnable n) s fun t =>
        t.link.vfEnable = true ∧ t.link.numVFs = n
          ∧ (∀ f, 1 ≤ f → f ≤ n →
              (fnOf t f).present = true
                ∧ ((fnOf s f).causes = [] → draining s f = false → mayEnable s = true → (fnOf t f).enabled = true))
          ∧ (∀ f, (f = 0 ∨ n < f) → f < 16 → (fnOf t f).present = (fnOf s f).present ∧ (fnOf t f).enabled = (fnOf s f).enabled)
          ∧ t.nv = s.nv)
    ∧ (∀ s : State, linkUp s = true → s.fns.length = 16 → s.queues.all (fun e => !e.2.byFn) = true →
      (∀ f, 1 ≤ f → f < 16 → (fnOf s f).present = true → (fnOf s f).causes = [] →
        s.work.all (fun w => (queueOf s w.qix).fn != f) = true →
        To (.vfFlr f) s fun t =>
          (fnOf t f).irqEn = 0 ∧ (fnOf t f).enabled = mayEnable s ∧ (fnOf t f).causes = []
            ∧ (∀ q, (queueOf s q).fn = f → (queueOf s q).path ≠ .spi → (queueOf t q).st = .free)
            ∧ (∀ m, m < 8 → mbxOf t f m = {}) ∧ t.nv = s.nv)
      ∧ ((fnOf s 0).present = true → (fnOf s 0).causes = [] → s.work = [] →
        To .pf0Flr s fun t =>
          (fnOf t 0).irqEn = 0 ∧ (fnOf t 0).enabled = mayEnable s ∧ (fnOf t 0).causes = []
            ∧ (∀ f, 1 ≤ f → f < 16 → (fnOf t f).present = false)
            ∧ (∀ q, (queueOf s q).fn < 16 → (queueOf s q).path ≠ .spi → (queueOf t q).st = .free
                ∨ (fnOf s (queueOf s q).fn).present = false)
            ∧ t.link.vfEnable = false ∧ t.nv = s.nv)
      ∧ ((fnOf s 0).present = true → (fnOf s 0).causes = [] →
        To (.d3hot 0) s fun t =>
          (fnOf t 0).d3 = true ∧ (fnOf t 0).enabled = false ∧ (fnOf t 0).causes = [.d3hot] ∧ t.nv = s.nv))
    ∧ (∀ s : State, linkUp s = true → s.fns.length = 16 →
      (∀ f, f < 16 → (fnOf s f).present = true → (fnOf s f).bme = true → (fnOf s f).causes = [] →
        To (.busMasterDisable f) s fun t =>
          (fnOf t f).bme = false ∧ (fnOf t f).enabled = false ∧ (fnOf t f).causes = [.busMaster] ∧ t.nv = s.nv)
      ∧ (∀ f, f < 16 → (fnOf s f).present = true → (fnOf s f).causes = [.busMaster] → mayEnable s = true →
        To (.busMasterEnable f) s fun t =>
          (fnOf t f).bme = true ∧ (fnOf t f).enabled = true ∧ (fnOf t f).causes = [] ∧ t.nv = s.nv)
      ∧ ((fnOf s 0).present = true → (fnOf s 0).causes = [.d3hot] → mayEnable s = true →
        To (.d3hotExit 0) s fun t =>
          (fnOf t 0).d3 = false ∧ (fnOf t 0).enabled = true ∧ (fnOf t 0).causes = [] ∧ t.nv = s.nv))

/-- DOORBELL (R16, R97, R134, R138): with the PCIe tunnel as the host path, a whole aligned write to an ACTIVE queue of the function sets
the tail and the head whose valid bits are set, and looks up the queue's context in its cache bank; where it is there nothing else
changes. A bad one, one to a queue that the function does not hold, and one to an SPI queue are discarded and recorded with the reason; a
write of another form, and every one while another path is the host path, is discarded and counted. Every other queue is unchanged. -/
def Obligations.DoorbellsMoveTheRings : Prop :=
  ∀ (f q : Nat) (v : BitVec 32) (s : State), barUp s f = true → quiet s = true → s.pwr.standby = false → s.pwr.standbyDue = false →
    (s.link.hostPath = some .pcie →
      ((queueOf s q).st = .active → (queueOf s q).fn = f → (queueOf s q).path ≠ .spi → doorbellBad (queueOf s q) v = false →
        To (.doorbell f q v true) s fun t =>
          Notified { s with
              queues := t.queues, cache := t.cache, work := t.work, dram := t.dram, ev := t.ev, free := t.free } t
            ∧ ((s.cache.getD (q % 8) []).contains q = true → Notified { s with queues := t.queues } t)
            ∧ (queueOf t q).sqTail = (if v.getLsbD 30 then (v.setWidth 12).toNat else (queueOf s q).sqTail)
            ∧ (queueOf t q).cqHead = (if v.getLsbD 31 then ((v >>> 16).setWidth 12).toNat else (queueOf s q).cqHead)
            ∧ queueOf t q = { queueOf s q with
                sqTail := (queueOf t q).sqTail, cqHead := (queueOf t q).cqHead, unreleased := (queueOf t q).unreleased }
            ∧ (q % 8 < s.cache.length → (t.cache.getD (q % 8) []).contains q = true)
            ∧ ∀ q', q' ≠ q → queueOf t q' = queueOf s q')
      ∧ ((queueOf s q).st = .active → (queueOf s q).fn = f → (queueOf s q).path ≠ .spi → doorbellBad (queueOf s q) v = true →
        To (.doorbell f q v true) s fun t => Notified { s with ev := (event 0x0201 (q + 2 ^ 18 * f + 2 ^ 22 * 2) s).ev } t)
      ∧ (((queueOf s q).st = .free ∨ (queueOf s q).fn ≠ f) →
        To (.doorbell f q v true) s fun t => Notified { s with ev := (event 0x0201 (q + 2 ^ 18 * f) s).ev } t)
      ∧ ((queueOf s q).st ≠ .free → (queueOf s q).fn = f → (queueOf s q).path = .spi →
        To (.doorbell f q v true) s fun t => Notified { s with ev := (event 0x0201 (q + 2 ^ 18 * f + 2 ^ 22) s).ev } t))
    ∧ (To (.doorbell f q v false) s fun t => t = { s with pmon := s.pmon.count 0x04 f 1 })
    ∧ (s.link.hostPath ≠ some .pcie → To (.doorbell f q v true) s fun t => t = { s with pmon := s.pmon.count 0x04 f 1 })

/-- LINK_CTRL, COAL, COALESCE_TIMEOUT and VECTOR_UNMASK (R100 to R105): CTO_MS takes 1 to 50; COAL sets COUNT and TIME; a message due is
sent when neither the vector nor the function is masked and the function may signal, and is pending while not; unmasking sends a pending
message. -/
def Obligations.VectorsSendTheirMessages : Prop :=
  ∀ s : State,
    (∀ v : BitVec 32, barUp s 0 = true →
      To (.linkCtrl v) s fun t =>
        t = { s with link := { s.link with cto := if 1 ≤ v.toNat % 64 ∧ v.toNat % 64 ≤ 50 then v.toNat % 64 else s.link.cto } })
    ∧ ∀ f n : Nat, f < 16 → n < vectorsOf f →
      (∀ v : BitVec 32, barUp s f = true →
        To (.coal f n v) s fun t =>
          (tgetD t.vecs (2048 * f + n) {}).count = v.setWidth 8 ∧ (tgetD t.vecs (2048 * f + n) {}).time = (v >>> 8).setWidth 16
            ∧ (∀ k, k ≠ 2048 * f + n → tget t.vecs k = tget s.vecs k)
            ∧ t = { s with vecs := t.vecs, out := t.out, pmon := t.pmon })
      ∧ ((tgetD s.vecs (2048 * f + n) {}).held ≠ 0 → (tgetD s.vecs (2048 * f + n) {}).masked = false → canSignal s f = true →
        To (.coalesceTimeout f n) s fun t =>
          t.out = s.out ++ [.msix f n] ∧ (tgetD t.vecs (2048 * f + n) {}).held = 0
            ∧ t = { s with vecs := t.vecs, out := t.out, pmon := t.pmon })
      ∧ ((tgetD s.vecs (2048 * f + n) {}).held ≠ 0 → ((tgetD s.vecs (2048 * f + n) {}).masked = true ∨ canSignal s f = false) →
        To (.coalesceTimeout f n) s fun t =>
          t.out = s.out ∧ (tgetD t.vecs (2048 * f + n) {}).pend = true ∧ t = { s with vecs := t.vecs })
      ∧ (barUp s f = true →
        To (.vectorUnmask f n) s fun t =>
          (tgetD t.vecs (2048 * f + n) {}).masked = false
            ∧ (tgetD t.vecs (2048 * f + n) {}).pend = ((tgetD s.vecs (2048 * f + n) {}).pend && !canSignal s f)
            ∧ t.out = s.out ++ (if (tgetD s.vecs (2048 * f + n) {}).pend && canSignal s f then [.msix f n] else [])
            ∧ t = { s with vecs := t.vecs, out := t.out, pmon := t.pmon })

/-- REGISTER_WRITE (R6, R92, R97, R98, R102, R119, R121, R122): DEV_IRQ_EN takes its five bits; ones written to DEV_EVENT clear those
flags; a byte written to a mailbox buffer is read back, unless the mailbox is BUSY, when it is discarded and sets OVERRUN; so does GO; a
read-only register ignores the write. A read returns the status block's word and zero from BAR2, and changes nothing; a misaligned read of
BAR0 returns ones and is reported; FREEZE of PMON_CTRL follows its bit. -/
def Obligations.RegisterWritesReachTheirRegister : Prop :=
  ∀ (f : Nat) (s : State), barUp s f = true → f < 16 → s.fns.length = 16 → quiet s = true →
    (∀ v : BitVec 64,
      (To (.registerWrite f .bar0 0x34 4 (some v)) s fun t =>
        (fnOf t f).irqEn = v.setWidth 32 &&& 0x1F ∧ Notified { s with fns := t.fns } t
          ∧ ∀ g, g ≠ f → (fnOf t g).irqEn = (fnOf s g).irqEn)
      ∧ (To (.registerWrite f .bar0 0x30 4 (some v)) s fun t =>
        (fnOf t f).devEvent = (fnOf s f).devEvent &&& ~~~v.setWidth 32 ∧ Notified { s with fns := t.fns } t)
      ∧ (To (.registerWrite f .bar0 0x00 4 (some v)) s fun t => Notified s t)
      ∧ (f = 0 → To (.registerWrite 0 .bar4 0x1000 4 (some (v &&& 1))) s fun t =>
        t.pmon = { s.pmon with freeze := v.getLsbD 0 } ∧ Notified s t))
    ∧ (∀ off, off < 0x40 → off % 4 = 0 →
      To (.registerWrite f .bar0 off 4 none) s fun t =>
        t.out = s.out ++ [.reg (num (statusBlock s f) off 4)] ∧ Notified s t)
    ∧ (∀ off size, To (.registerWrite f .bar2 off size none) s fun t => t.out = s.out ++ [.reg 0] ∧ Notified s t)
    ∧ (∀ off, off < 0x8000 → off % 4 ≠ 0 →
      To (.registerWrite f .bar0 off 4 none) s fun t =>
        t.out = s.out ++ [.reg 0xFFFFFFFF] ∧ t.link.aer = s.link.aer ++ [(f, .unsupportedRequest)])
    ∧ ∀ n off : Nat, n < (barMap f).mailboxes → off < 4096 → ∀ v : BitVec 64,
      ((mbxOf s f n).busy = false →
        (To (.registerWrite f .bar0 ((barMap f).buffers + 4096 * n + off) 1 (some v)) s fun t =>
          mread (mbxOf t f n).buf off = v.setWidth 8
            ∧ (∀ a, a ≠ off → mread (mbxOf t f n).buf a = mread (mbxOf s f n).buf a)
            ∧ Notified { s with mbxs := t.mbxs } t)
        ∧ (To (.registerWrite f .bar0 ((barMap f).buffers + 4096 * n + off) 1 none) s fun t =>
          t.out = s.out ++ [.reg (mread (mbxOf s f n).buf off).toNat] ∧ Notified s t))
      ∧ ((mbxOf s f n).busy = true →
        (To (.registerWrite f .bar0 ((barMap f).buffers + 4096 * n + off) 1 (some v)) s fun t =>
          mbxOf t f n = { mbxOf s f n with overrun := true } ∧ Notified { s with mbxs := t.mbxs } t)
        ∧ (To (.registerWrite f .bar0 ((barMap f).buffers + 4096 * n + off) 1 none) s fun t =>
          t.out = s.out ++ [.reg 0] ∧ Notified s t)
        ∧ (s.link.hostPath = some .pcie → (f = 0 → n ≠ 63) →
          To (.registerWrite f .bar0 (0x100 + 64 * n) 4 (some 1)) s fun t =>
            (mbxOf t f n).overrun = true ∧ (mbxOf t f n).buf = (mbxOf s f n).buf ∧ Notified { s with mbxs := t.mbxs } t))

/-- QUEUE_CREATE (R132, R133, R153, R298): for a FREE index whose nonce counter is not exhausted, with a current journal key and an
unbound session key of the function, the queue is ACTIVE with the request's fields, the session record is bound to it, and the response
gives the index and the boot epoch. Nothing else changes. QUEUE_DISABLE, QUEUE_DELETE and QUEUE_QUERY (R134, R147): an ACTIVE queue
becomes DISABLING and the command waits until it has drained; a DISABLED one answers at once (notes/assumptions/84.md), and deleted
returns to FREE; a query answers the queue's state and changes nothing. -/
def Obligations.QueueCommandsAct : Prop :=
  (∀ (r : Req) (s : State) (q i : Nat) (x : SessRec), accepts 0x0202 r (some 48) s = true → quiet s = true →
      createBad s r = none → fnUsable r.path r.fn s = true → sessionsRefused s = false →
      (s.queues.filter fun e => e.2.fn == r.fn).length < (fnOf s r.fn).quota →
      (r.path = .spi → (s.queues.filter fun e => e.2.path == .spi).length < 64) →
      (if bit (fld r 0 4) 31 then lowestFree s 262144 0 else some (fld r 0 4 % 2 ^ 18)) = some q →
      tget s.queues q = none → nonceOf s q < 2 ^ 54 - 1 →
      (∃ j k, nameOf s (fld r 28 4) = .persistent j ∧ currentKey s r.fn j [0x14] = some k) →
      nameOf s (fld r 24 4) = .session i → currentSess s r.fn i = some x → x.bound = none → (sessSecret s i).isSome = true →
      To (.queueCreate r) s fun t =>
        Answered 0x0202 r stOk 0 (le 4 q ++ le 4 s.bootEpoch) t
          ∧ Responded r { s with queues := t.queues, keys := { s.keys with sess := t.keys.sess } } t
          ∧ (let c := queueOf t q
             c.st = .active ∧ c.fn = r.fn ∧ c.path = r.path ∧ c.entries = fld r 4 2 ∧ c.vector = fld r 6 2
               ∧ c.sqBase.toNat = fld r 8 8 ∧ c.cqBase.toNat = fld r 16 8 ∧ c.skey.toNat = fld r 24 4 ∧ c.jkey.toNat = fld r 28 4
               ∧ c.ruleset = fld r 32 2 ∧ c.group = fld r 34 1 ∧ c.sqHead = 0 ∧ c.cqTail = 0 ∧ c.phase = true ∧ c.mark = 0)
          ∧ (∀ q', q' ≠ q → queueOf t q' = queueOf s q')
          ∧ (tget t.keys.sess i).map SessRec.bound = some (some q))
    ∧ (∀ (r : Req) (s : State), quiet s = true → fld r 0 4 < 2 ^ 18 → (queueOf s (fld r 0 4)).fn = r.fn →
      (accepts 0x0203 r (some 4) s = true → (queueOf s (fld r 0 4)).st = .active →
        To (.queueDisable r) s fun t =>
          (queueOf t (fld r 0 4)).st = .disabling ∧ Waits 0x0203 r (fld r 0 4) t ∧ t.nv = s.nv ∧ t.keys = s.keys
            ∧ (∀ w ∈ t.work, w.qix = fld r 0 4 → w.seq = 0 → w.stage = .done ∨ w.stage = .fetched)
            ∧ ∀ q, q ≠ fld r 0 4 → (queueOf t q).st = (queueOf s q).st)
      ∧ (accepts 0x0203 r (some 4) s = true → (queueOf s (fld r 0 4)).st = .disabling →
        To (.queueDisable r) s fun t => Waits 0x0203 r (fld r 0 4) t ∧ t.queues = s.queues ∧ t.work = s.work ∧ t.nv = s.nv)
      ∧ (accepts 0x0203 r (some 4) s = true → (queueOf s (fld r 0 4)).st = .disabled → Does (.queueDisable r) 0x0203 r s [] s)
      ∧ (accepts 0x0204 r (some 4) s = true → (queueOf s (fld r 0 4)).st = .disabled →
        To (.queueDelete r) s fun t =>
          Answered 0x0204 r stOk 0 [] t ∧ (queueOf t (fld r 0 4)).st = .free
            ∧ Responded r { s with queues := t.queues, keys := { s.keys with sess := t.keys.sess } } t
            ∧ ∀ q, q ≠ fld r 0 4 → queueOf t q = queueOf s q)
      ∧ (accepts 0x0205 r (some 4) s = true →
        let x := queueOf s (fld r 0 4)
        Does (.queueQuery r) 0x0205 r s
          (le 1 (match x.st with | .free => 0 | .active => 1 | .disabling => 2 | .disabled => 3) ++ le 1 x.group ++ le 2 x.entries
            ++ le 2 x.sqHead ++ le 2 x.cqTail ++ le 4 (s.work.filter (·.qix == fld r 0 4)).length ++ zeros 4
            ++ le 8 (tgetD s.nonces (fld r 0 4) 0) ++ zeros 8) s))

/-- FN_CONFIG, FN_DISABLE and FN_ENABLE (R131, R148): a function without queues takes the request's limits; a VF with no work in the lanes
is disabled at once, its queues FREE, and stays so until FN_ENABLE ends that cause. QUEUE_STOP, NONCE_EXHAUSTED and QUEUE_DRAINED (R133,
R134, R139, R147): an exhausted nonce counter stops the queue, and its queue-stop completion is written at once where a slot is free; a
queue stopped by a fault gets it, and the event, once nothing of it is outstanding; drained, it is DISABLED and the QUEUE_DISABLE that
waits is answered. -/
def Obligations.QueuesAndFunctionsStop : Prop :=
  (∀ (r : Req) (s : State), quiet s = true → s.fns.length = 16 →
      (accepts 0x0201 r (some 48) s = true → fnConfigBad s r = none → holdsQueue s (fld r 0 1) = false →
        Does (.fnConfig r) 0x0201 r s [] { s with
          fns := s.fns.modify (fld r 0 1) fun x => { x with
            weight := fld r 1 1, quota := fld r 4 4, inGuar := fld r 8 4, inCap := fld r 12 4, staging := fld r 16 4
            groupW := (List.range 16).map fun i => fld r (20 + i) 1 } })
      ∧ (accepts 0x0206 r (some 4) s = true → 1 ≤ fld r 0 1 → fld r 0 1 ≤ 15 → fld r 1 3 = 0 →
        (fnOf s (fld r 0 1)).present = true → (fnOf s (fld r 0 1)).causes = [] → s.work.all (fun w => w.fn != fld r 0 1) = true →
        s.work.all (fun w => (queueOf s w.qix).fn == w.fn) = true → s.queues.all (fun e => !e.2.byFn) = true → r.fn = 0 →
        To (.fnDisable r) s fun t =>
          Answered 0x0206 r stOk 0 [] t ∧ (fnOf t (fld r 0 1)).enabled = false ∧ (fnOf t (fld r 0 1)).causes = [.fnDisable]
            ∧ (∀ q, (queueOf s q).fn = fld r 0 1 → (queueOf t q).st = .free)
            ∧ (∀ q, (queueOf s q).fn ≠ fld r 0 1 → queueOf t q = queueOf s q) ∧ t.nv = s.nv ∧ t.work = s.work)
      ∧ (accepts 0x0207 r (some 4) s = true → 1 ≤ fld r 0 1 → fld r 0 1 ≤ 15 → fld r 1 3 = 0 →
        (fnOf s (fld r 0 1)).present = true → (fnOf s (fld r 0 1)).causes = [.fnDisable] → mayEnable s = true →
        To (.fnEnable r) s fun t =>
          Answered 0x0207 r stOk 0 [] t ∧ (fnOf t (fld r 0 1)).enabled = true ∧ (fnOf t (fld r 0 1)).causes = []
            ∧ Responded r { s with fns := t.fns } t))
    ∧ (∀ (q : Nat) (s : State), quiet s = true →
      (∀ why, (queueOf s q).stopDue = some why → (queueOf s q).path = .pcie → s.work = [] →
        (queueOf s q).unreleased < (queueOf s q).entries →
        judgeHost s.gates q (queueOf s q).fn true ((queueOf s q).cqBase.toNat + 16 * (queueOf s q).cqTail) 16 = none →
        To (.queueStop q) s fun t =>
          (queueOf t q).stopDue = none ∧ (queueOf t q).st = (queueOf s q).st
            ∧ (∃ more, t.out = s.out ++ .mem (queueOf s q).fn ((queueOf s q).cqBase.toNat + 16 * (queueOf s q).cqTail)
                (completionEntry (queueOf s q) 0 0 stQueueDisabled 1) :: more)
            ∧ t.ev = (event 0x0205 (q + 2 ^ 18 * (queueOf s q).fn + 2 ^ 22 * why) s).ev ∧ t.nv = s.nv
            ∧ ∀ q', q' ≠ q → queueOf t q' = queueOf s q')
      ∧ ((queueOf s q).st = .active → tgetD s.nonces q 0 = 2 ^ 54 - 1 →
        To (.nonceExhausted q) s fun t =>
          (queueOf t q).st = .disabling ∧ (queueOf t q).stopDue = (if slotFree s q then none else some 1)
            ∧ tgetD t.nonces q 0 = 2 ^ 54 - 1
            ∧ (∀ w ∈ t.work, w.qix = q → w.seq = 0 → w.stage = .done ∨ w.stage = .fetched) ∧ t.nv = s.nv)
      ∧ ((queueOf s q).st = .disabling → (queueOf s q).stopDue = none → s.work.all (fun w => w.qix != q) = true →
        (queueOf s q).byFn = false →
        To (.queueDrained q) s fun t =>
          (queueOf t q).st = .disabled ∧ (∀ w ∈ t.waiters, ¬(w.op = 0x0203 ∧ w.obj = q))
            ∧ (∀ q', q' ≠ q → queueOf t q' = queueOf s q') ∧ t.nv = s.nv ∧ t.work = s.work)
      ∧ ((queueOf s q).st = .disabling → (queueOf s q).stopDue = none → s.work.all (fun w => w.qix != q) = true →
        (queueOf s q).byFn = true →
        To (.queueDrained q) s fun t => (queueOf t q).st = .free ∧ (∀ q', q' ≠ q → queueOf t q' = queueOf s q')))

/-- FETCH (R107, R139, R142, R143, R144, R145): the entry that the shard's round robin picks is read, judged from the entry alone, charged
and taken, and the ring's head moves on by one, modulo ENTRIES; one for which there is no credit or no staging stays in the ring, and its
queue is passed over; an entry whose read ends in an error stops the queue and is not taken. SOURCE_ARRIVED and COMPLETION_TIMEOUT (R107,
R145, R147, R150, R152): the queue's oldest entry whose source is outstanding takes exactly its source byte count; when no check of its
head or length fails it is ready for dispatch. A read that ends in an error, or never, ends it with ACCESS_FAULT. On a queue that stops it
completes QUEUE_DISABLED however the read ends. COMPLETION_TIMEOUT of an entry's read stops the queue (R100, R107). -/
def Obligations.EntriesAreFetchedAndFed : Prop :=
  (∀ (sh : Nat) (p : FetchPick) (s : State), quiet s = true → fetchOpen s = true → fetchPick s sh = some p →
      judgeHost s.gates sh p.fn false ((queueOf s p.queue).sqBase.toNat + 32 * (queueOf s p.queue).sqHead) 32 = none →
      (∀ b : Bytes, b.length = 32 → stage1 s (queueOf s p.queue) b = none → notYet s b = false →
        ((creditFor s (queueOf s p.queue).fn (ingressCharge b)).isSome = true → stagingFits s (queueOf s p.queue).fn b = true →
          (eOpc b = 0 ∨ judgeHost s.gates sh (queueOf s p.queue).fn false (eSrc b) (srcCount b) = none) →
          To (.fetch sh (.data b)) s fun t =>
            (∃ w : Work, t.work = s.work ++ [w] ∧ w.ent = b ∧ w.qix = p.queue ∧ w.fn = (queueOf s p.queue).fn ∧ w.seq = 0
                ∧ w.charge = ingressCharge b ∧ w.stCharge = stagingCharge b ∧ w.stage = (if eOpc b = 0 then .arrived else .fetched))
              ∧ queueOf t p.queue = { queueOf s p.queue with
                  sqHead := ((queueOf s p.queue).sqHead + 1) % (queueOf s p.queue).entries }
              ∧ (∀ q', q' ≠ p.queue → queueOf t q' = queueOf s q') ∧ t.nv = s.nv ∧ t.jrn = s.jrn ∧ t.nonces = s.nonces)
        ∧ ((creditFor s (queueOf s p.queue).fn (ingressCharge b) = none ∨ stagingFits s (queueOf s p.queue).fn b = false) →
          To (.fetch sh (.data b)) s fun t =>
            t.work = s.work ∧ t.queues = s.queues ∧ t.nv = s.nv
              ∧ (sh < s.sched.passed.length → (t.sched.passed.getD sh []).contains p.queue = true)))
      ∧ (∀ k, (queueOf s p.queue).st = .active →
        To (.fetch sh (.aerError k)) s fun t =>
          queueOf t p.queue = { queueOf s p.queue with st := .disabling, stopDue := some 0 } ∧ t.work = s.work ∧ t.nv = s.nv
            ∧ (s.link.pcieTun = true → t.link.aer = s.link.aer ++ [((queueOf s p.queue).fn, .entryRead k)])
            ∧ ∀ q', q' ≠ p.queue → queueOf t q' = queueOf s q'))
    ∧ (∀ (q : Nat) (w : Work) (s : State), s.work = [w] → w.qix = q → w.stage = .fetched → w.seq = 0 → s.pwr.standbyDue = false →
      s.jrn.fill = jfill s → (queueOf s q).byFn = false →
      (∀ b : Bytes, overtaken s q = false → stage2 w.ent (fit (srcCount w.ent) b) = none →
        To (.sourceArrived q (.data b)) s fun t =>
          t.work = [{ w with
              src := b.take (srcCount w.ent) ++ List.replicate (srcCount w.ent - b.length) 0
              stage := .arrived
              charge := if staged w.ent then 64 else w.charge }]
            ∧ t.queues = s.queues ∧ t.nv = s.nv ∧ t.jrn = s.jrn)
      ∧ ((queueOf s q).path = .pcie →
        judgeHost s.gates q (queueOf s q).fn true ((queueOf s q).cqBase.toNat + 16 * (queueOf s q).cqTail) 16 = none →
        (∀ k, ∀ i ∈ [Instr.sourceArrived q (.aerError k), Instr.completionTimeout q false],
          To i s fun t =>
            t.work = [] ∧ t.nv = s.nv
              ∧ ∃ more, t.out = s.out ++ .mem (queueOf s q).fn ((queueOf s q).cqBase.toNat + 16 * (queueOf s q).cqTail)
                  (completionEntry (queueOf s q) (eHtag w.ent) 0 (if overtaken s q then stQueueDisabled else stAccessFault) 0) :: more)
        ∧ (∀ b, overtaken s q = true →
          To (.sourceArrived q (.data b)) s fun t =>
            t.work = [] ∧ t.nv = s.nv
              ∧ ∃ more, t.out = s.out ++ .mem (queueOf s q).fn ((queueOf s q).cqBase.toNat + 16 * (queueOf s q).cqTail)
                  (completionEntry (queueOf s q) (eHtag w.ent) 0 stQueueDisabled 0) :: more)))
    ∧ (∀ (q : Nat) (s : State), quiet s = true → fetchOpen s = true → queueReady s (q % 4) (q, queueOf s q) = true →
      To (.completionTimeout q true) s fun t =>
        queueOf t q = { queueOf s q with st := .disabling, stopDue := some 0 } ∧ t.work = s.work ∧ t.nv = s.nv)

/-- NOP (R136, R137, R139): it completes OK with SEQ 0 and DETAIL 0 in its slot of the completion ring. -/
def Obligations.NopCompletesInRingOrder : Prop :=
  ∀ (q : Nat) (w : Work) (s : State), s.work = [w] → w.qix = q → w.stage = .arrived → eOpc w.ent = 0 → w.seq = 0 →
    w.waitDur = false → (queueOf s q).path = .pcie → s.pwr.standbyDue = false → s.jrn.fill = jfill s →
    judgeHost s.gates q (queueOf s q).fn true ((queueOf s q).cqBase.toNat + 16 * (queueOf s q).cqTail) 16 = none →
    To (.nop q) s fun t =>
      t.work = [] ∧ t.nv = s.nv ∧ t.jrn = s.jrn
        ∧ (∃ more, t.out = s.out ++ .mem (queueOf s q).fn ((queueOf s q).cqBase.toNat + 16 * (queueOf s q).cqTail)
            (completionEntry (queueOf s q) (eHtag w.ent) 0 stOk 0) :: more)
        ∧ (queueOf t q).cqTail = (if (queueOf s q).entries ≤ (queueOf s q).cqTail + 1 then 0 else (queueOf s q).cqTail + 1)
        ∧ (queueOf t q).unreleased = (queueOf s q).unreleased + 1

/-- R159: at stage 3 the RLEN of a terminal record is compared with LEN; the header check comes first. -/
def Obligations.DeclaredLengthIsCompared : Prop :=
  ∀ (w : Work) (src : Bytes), eOpc w.ent = 1 → src.length = eLen w.ent → 32 ≤ src.length →
    (headBad w.ent src = none →
      (eLen w.ent < num src 4 4 → takeSource src w = w.decided stLenShort 0)
      ∧ (num src 4 4 < eLen w.ent → takeSource src w = w.decided stLenLong 0)
      ∧ (num src 4 4 = eLen w.ent → (takeSource src w).stage = .arrived ∧ (takeSource src w).src = src))
    ∧ (∀ off, headBad w.ent src = some off → takeSource src w = w.decided stMalformed (0x20 + off))

/-- DISPATCH of a unit that was taken back (R192, R196): it goes before any other, lowest SEQ first, keeps SEQ, nonce, epoch and, past the
first quantum, its saved state, and charges no allowance: no function's or queue's balance changes, but that one with nothing eligible
carries none. -/
def Obligations.TakenBackUnitsGoFirst : Prop :=
  ∀ (w : Work) (p : Nat) (s : State), sealingOn s = true → quiet s = true → w ∈ s.work → w.stage = .takenBack → w.revoked = false →
    (∀ v ∈ s.work, v.stage = .takenBack → v.revoked = false → v ≠ w → w.seq < v.seq) →
    (∀ v ∈ s.work, v.seq = w.seq → v = w) →
    bestSlot s (unitCost s w) = some p → hotRoom s (handlesOf s w) = true →
    (w.unit = 0 ∨ ((s.cache.getD (w.qix % 8) []).contains w.qix = true ∧ ∃ x, w.saved = some x ∧ x.wrapped = false)) →
    To .dispatch s fun t =>
      (∃ v ∈ t.work, v.seq = w.seq ∧ v.nonce = w.nonce ∧ v.epoch = w.epoch ∧ v.unit = w.unit ∧ v.saved = w.saved
          ∧ v.stage = .dispatched ∧ v.slot = p ∧ v.claim = (s.slots.getD p {}).claim)
        ∧ (∀ f, (fnOf t f).laneCredit = (fnOf s f).laneCredit ∨ (fnOf t f).laneCredit = 0)
        ∧ (∀ q, (queueOf t q).drr = (queueOf s q).drr ∨ (queueOf t q).drr = 0)
        ∧ (∀ q, { queueOf t q with drr := 0 } = { queueOf s q with drr := 0 })
        ∧ t.jrn.nextSeq = s.jrn.nextSeq ∧ t.nonces = s.nonces ∧ t.nv = s.nv

/-- DISPATCH of a first unit (R133, R153, R154, R189, R195, R197): once the balances of what has nothing eligible are dropped, the entry
that the arbitration picks takes the next SEQ, the next value of its queue's nonce counter, and the epoch and operating second in force;
its slot is charged; no other queue's counter moves. -/
def Obligations.DispatchFixesTheThreeValues : Prop :=
  ∀ (s u : State) (c : Choice) (w : Work) (cost p : Nat), sealingOn s = true → quiet s = true → firstTaken s.work = none →
    u = dropCarry (eligibleNow s) s → arbitrate u (eligibleNow u) = some c →
    (eligibleNow u).find? (fun x => x.1.qix == c.queue) = some (w, cost) →
    bestSlot u cost = some p → w.stage = .arrived → w.seq = 0 → eOpc w.ent ≠ 6 →
    To .dispatch s fun t =>
      (∃ v ∈ t.work, v.qix = w.qix ∧ v.ent = w.ent ∧ v.src = w.src ∧ v.seq = s.jrn.nextSeq
          ∧ v.nonce = s.bootEpoch * 2 ^ 72 + w.qix * 2 ^ 54 + tgetD s.nonces w.qix 0
          ∧ v.epoch = s.epoch ∧ v.opsec = s.opsec ∧ v.stage = .dispatched ∧ v.slot = p ∧ v.claim = (s.slots.getD p {}).claim)
        ∧ t.jrn.nextSeq = s.jrn.nextSeq + 1 ∧ tgetD t.nonces w.qix 0 = tgetD s.nonces w.qix 0 + 1
        ∧ (∀ q, q ≠ w.qix → tgetD t.nonces q 0 = tgetD s.nonces q 0) ∧ (s.jrn.nextSeq < seqMark s → t.nv = s.nv)

/-- R154: the nonce is the 96-bit value of boot epoch, queue index and counter, written as 12 bytes, most significant byte first; the
example of the rule. -/
def Obligations.NonceIsEpochQueueCounter : Prop :=
  (∀ epoch q ctr : Nat, epoch < 2 ^ 24 → q < 2 ^ 18 → ctr < 2 ^ 54 →
    nonceValue epoch q ctr = epoch * 2 ^ 72 + q * 2 ^ 54 + ctr
      ∧ (nonceBytes (nonceValue epoch q ctr)).length = 12
      ∧ beVal (nonceBytes (nonceValue epoch q ctr)) = nonceValue epoch q ctr
      ∧ ∀ epoch' q' ctr', epoch' < 2 ^ 24 → q' < 2 ^ 18 → ctr' < 2 ^ 54 →
          nonceBytes (nonceValue epoch q ctr) = nonceBytes (nonceValue epoch' q' ctr') → epoch = epoch' ∧ q = q' ∧ ctr = ctr')
    ∧ nonceBytes (nonceValue 0x000213 0x02C5A 0x1F3A0) = [0x00, 0x02, 0x13, 0x0B, 0x16, 0x80, 0x00, 0x00, 0x00, 0x01, 0xF3, 0xA0]

/-- ACCEPT, SEAL, OPEN, XTS_ENC, XTS_DEC, OUTCOME and VERIFY_RECEIPT in the lanes (R160, R165, R167, R168, R172, R173, R185, R190, R191,
R247): both lanes of the slot of an entry deliver the same result into their output buffers, once these have room; a status that the
checks at dispatch decided is the result of such an entry, and a key that is no longer at hand gives KEY_ORPHANED; nothing else of the
state changes. -/
def Obligations.LanesComputeTheirResult : Prop :=
  ∀ (seq : Nat) (s : State) (pre post : List Work) (w : Work) (p : Slot), s.work = pre ++ w :: post →
    pre.all (fun v => v.seq != seq) = true → w.seq = seq → seq ≠ 0 → w.stage = .dispatched → w.revoked = false →
    p = s.slots.getD w.slot {} →
    let done := fun (i : Instr) (st : Nat) (out : Bytes) =>
      (((s.lanes.getD p.l0 {}).out.map (·.out.length)).sum + out.length ≤ 131072 →
        ((s.lanes.getD p.l1 {}).out.map (·.out.length)).sum + out.length ≤ 131072 →
        To i s fun t => ∃ r : UnitResult, r.seq = seq ∧ r.unit = w.unit ∧ r.status = st ∧ r.out = out
          ∧ t = { s with
              lanes := (s.lanes.modify p.l0 (Lane.put r)).modify p.l1 (Lane.put r)
              work := pre ++ { w with stage := .computed } :: post })
    let q := queueOf s w.qix
    let byOp : List (Nat × Instr) := [(1, .accept seq), (2, .sealMsg seq), (3, .openMsg seq), (4, .xtsEnc seq), (5, .xtsDec seq),
      (6, .outcome seq), (7, .verifyReceipt seq)]
    (∀ op i, (op, i) ∈ byOp → eOpc w.ent = op → w.pre ≠ 0 → done i w.pre [])
    ∧ (w.pre = 0 →
      (∀ op i, (op, i) ∈ byOp → eOpc w.ent = op → op < 6 → opKey s w = none → done i stKeyOrphaned [])
      ∧ (∀ kid k rk, eOpc w.ent = 1 → opKey s w = some (kid, k) → receiptKeyOf s q = some rk →
        let opened := gcmOpen k (slice w.src 16 12) (w.src.take 32) (slice w.src 32 (w.src.length - 48)) (tagAt w.src (w.src.length - 16))
        let body := (w.rs.bind (ruleBody s q.ruleset)).getD []
        (opened = none → done (.accept seq) stAuthFail [])
        ∧ (∀ pt, opened = some pt → rulesVerdict w.draws body pt (num w.src 8 8) = none →
            done (.accept seq) stOk (receipt s w rk pt (w.rs.getD 0) ((drawNamed body pt).getD 0xFFFFFFFF)).1)
        ∧ (∀ pt st det, opened = some pt → rulesVerdict w.draws body pt (num w.src 8 8) = some (st, det) →
            done (.accept seq) st []))
      ∧ (∀ kid k, eOpc w.ent = 2 → opKey s w = some (kid, k) →
        let h := sealHeader s w kid
        let aad := h ++ w.src.take (eAadLen w.ent)
        let pt := w.src.drop (eAadLen w.ent)
        let c := gcmSeal k (nonceBytes w.nonce) aad pt
        let g := gcmPiece false k (nonceBytes w.nonce) (gcmAt k aad w)
          (slice pt (unitFrom w.ent w.unit) (unitTo w.ent w.src w.unit - unitFrom w.ent w.unit))
        (unitsOf w.ent w.src = 1 → done (.sealMsg seq) stOk (h ++ c.1 ++ tagBytes c.2))
        ∧ (unitsOf w.ent w.src ≠ 1 →
            done (.sealMsg seq) stOk ((if w.unit = 0 then h else []) ++ g.1
              ++ if lastUnit w then tagBytes (gcmEnd k (nonceBytes w.nonce) aad.length (eLen w.ent) g.2) else [])))
      ∧ (∀ kid k, eOpc w.ent = 3 → opKey s w = some (kid, k) →
        let h := slice w.src (eAadLen w.ent) 32
        let iv := slice h 12 12
        let aad := h ++ w.src.take (eAadLen w.ent)
        let ct := slice w.src (eAadLen w.ent + 32) (eLen w.ent)
        let tag := tagAt w.src (eAadLen w.ent + 32 + eLen w.ent)
        let g := gcmPiece true k iv (gcmAt k aad w)
          (slice ct (unitFrom w.ent w.unit) (unitTo w.ent w.src w.unit - unitFrom w.ent w.unit))
        (num h 24 4 ≠ kid → done (.openMsg seq) stAuthFail [])
        ∧ (num h 24 4 = kid → unitsOf w.ent w.src = 1 →
          (∀ pt, gcmOpen k iv aad ct tag = some pt → done (.openMsg seq) stOk pt)
          ∧ (gcmOpen k iv aad ct tag = none → needsHold s w = true → done (.openMsg seq) stAuthFailHeld [])
          ∧ (gcmOpen k iv aad ct tag = none → needsHold s w = false → done (.openMsg seq) stAuthFail (gcmCtr k iv ct)))
        ∧ (num h 24 4 = kid → unitsOf w.ent w.src ≠ 1 →
          ((lastUnit w = false ∨ gcmEnd k iv aad.length (eLen w.ent) g.2 = tag) → done (.openMsg seq) stOk g.1)
          ∧ (lastUnit w = true → gcmEnd k iv aad.length (eLen w.ent) g.2 ≠ tag → needsHold s w = false →
              done (.openMsg seq) stAuthFail g.1)))
      ∧ (∀ kid k, eOpc w.ent = 4 → opKey s w = some (kid, k) →
        done (.xtsEnc seq) stOk (xts false k (w.src.take 16) (w.src.drop 16)))
      ∧ (∀ kid k, eOpc w.ent = 5 → opKey s w = some (kid, k) →
        done (.xtsDec seq) stOk (xts true k (w.src.take 16) (w.src.drop 16)))
      ∧ (∀ rk d, eOpc w.ent = 6 → receiptKeyOf s q = some rk → drawOf s (num w.src 4 4) = some d →
        let body := sealBlock s w 0x0103 0xFFFF 0 (num w.src 4 4) ++ w.src ++ outcomeEntries d w.firstIdx (num w.src 3 1)
        done (.outcome seq) stOk (body ++ tagBytes (gmac rk (nonceBytes w.nonce) body)))
      ∧ (∀ rk, eOpc w.ent = 7 → receiptKeyOf s q = some rk →
        let good := num w.src 28 4 = jkeyId s q ∧ num w.src 2 2 = sflags s ∧
          (gcmOpen rk (slice w.src 16 12) (w.src.take 76) (slice w.src 76 (w.src.length - 92))
            (tagAt w.src (w.src.length - 16))).isSome = true
        (good → done (.verifyReceipt seq) stOk (verifyResult w.src)) ∧ (¬good → done (.verifyReceipt seq) stAuthFail [])))

/-- What SEAL writes, OPEN reads (R166, R167, R168): an OPEN of one unit, with the AAD of the SEAL and its output as source and a key that
is the same, ends OK with the SEAL's plaintext and tag. -/
def Obligations.OpenReadsWhatSealWrote : Prop :=
  ∀ (s s' : State) (w w' : Work) (kid : Nat) (k : Bytes), eOpc w.ent = 2 → eOpc w'.ent = 3 → opKey s w = some (kid, k) →
    opKey s' w' = some (kid, k) → kid < 2 ^ 32 → eAadLen w'.ent = eAadLen w.ent → eLen w'.ent = eLen w.ent →
    w.src.length = eAadLen w.ent + eLen w.ent → unitsOf w.ent w.src = 1 → unitsOf w'.ent w'.src = 1 →
    w'.src = w.src.take (eAadLen w.ent) ++ (sealUnit s w).out →
    (sealUnit s w).status = stOk ∧ (openUnit s' w').status = stOk
      ∧ (openUnit s' w').out = w.src.drop (eAadLen w.ent) ∧ (openUnit s' w').rtag = (sealUnit s w).rtag

/-- UNIT_RELEASE (R99, R140, R163, R175, R190, R192, R197): equal results of both lanes under the slot's claim number are released: the
last unit of a message whose status is OK has its output written at DST, its leaf handed to the journal writer, and its slot's charge
returned; an earlier one has its output written and leaves the saved state for the next quantum; one under a stale claim number is
discarded and taken back. -/
def Obligations.ReleaseWritesOutputAndLeaf : Prop :=
  ∀ (seq : Nat) (w : Work) (r : UnitResult) (s : State), s.work = [w] → releasable seq w = true → sealingOn s = true →
    unitsServe s w = true → inRingOrder s w = true → detailWaits s w = false → w.revoked = false →
    s.pwr.standbyDue = false → s.jrn.fill = jfill s →
    (w.claim = (s.slots.getD w.slot {}).claim → delivered s w = some r → (releaseStatus s (withVerdict r w)).1 = stOk →
      w.stage = .computed → (queueOf s w.qix).path = .pcie → (queueOf s w.qix).byFn = false →
      let written := (tlps r.out.length (maxPayload s) (eDst w.ent + r.pos) r.out).map fun p => Out.mem w.fn p.1 p.2
      let credit := if w.slot < s.slots.length then min 8192 ((s.slots.getD w.slot {}).credit + w.cost)
        else (s.slots.getD w.slot {}).credit
      (lastUnit w = true →
        To (.unitRelease seq) s fun t =>
          (∃ more, t.out = s.out ++ written ++ more)
            ∧ (∃ l ∈ t.jrn.waiting, l.seq = seq)
            ∧ (t.slots.getD w.slot {}).credit = credit
            ∧ t.nonces = s.nonces ∧ t.jrn.nextSeq = s.jrn.nextSeq)
      ∧ (lastUnit w = false →
        To (.unitRelease seq) s fun t =>
          t.out = s.out ++ written
            ∧ (∃ v, t.work = [v] ∧ v.stage = .between ∧ v.unit = w.unit + 1 ∧ v.seq = seq ∧ v.nonce = w.nonce
                ∧ v.saved = some { bytes := r.saved })
            ∧ (t.slots.getD w.slot {}).credit = credit
            ∧ t.nonces = s.nonces ∧ t.jrn = s.jrn ∧ t.nv = s.nv))
    ∧ (w.claim ≠ (s.slots.getD w.slot {}).claim →
      To (.unitRelease seq) s fun t =>
        t.work = [{ w with stage := .takenBack, cost := 0 }] ∧ t.out = s.out ∧ t.jrn = s.jrn ∧ t.nv = s.nv
          ∧ ∀ l ∈ t.lanes, ∀ x ∈ l.out, x.seq ≠ seq)

/-- R163: an ACCEPT whose status is not OK writes nothing and nothing of it leaves the lanes or stays in them; its leaf is still formed.
-/
def Obligations.FailedAcceptWritesNothing : Prop :=
  ∀ (w : Work) (r : UnitResult) (s : State), eOpc w.ent = 1 →
    ((releaseStatus s (withVerdict r w)).1 ≠ stOk →
      (releaseUnit w r s).out = s.out ∧ (releaseUnit w r s).link.usbOut = s.link.usbOut
        ∧ (releaseUnit w r s).spi.compl = s.spi.compl
        ∧ (∀ v ∈ (releaseUnit w r s).work, v.acc = w.acc ∨ ∃ u ∈ s.work, v.acc = u.acc)
        ∧ (∀ l ∈ (releaseUnit w r s).lanes, ∀ x ∈ l.out, x.seq ≠ w.seq)
        ∧ ∃ l ∈ (releaseUnit w r s).jrn.waiting, l.seq = w.seq)
    ∧ ((releaseStatus s (withVerdict r w)).1 = stOk → (queueOf s w.qix).path = .pcie → (queueOf s w.qix).byFn = false →
      (releaseUnit w r s).out = s.out ++ (tlps r.out.length (maxPayload s) (eDst w.ent + r.pos) r.out).map
        fun p => Out.mem w.fn p.1 p.2)

/-- R265: the completion of an operation that succeeds carries OK if its record was DURABLE when the completion was written, and
OK_BUFFERED otherwise; a failing status is carried as it is. -/
def Obligations.CompletionTellsDurability : Prop :=
  ∀ (j : Journal) (w : Work), w.seq ≠ 0 →
    (w.status = stOk → durableSeq j w.seq = true → finalStatus j w = stOk)
      ∧ (w.status = stOk → durableSeq j w.seq = false → finalStatus j w = stOkBuffered)
      ∧ (w.status ≠ stOk → finalStatus j w = w.status)

/-- FAILOVER (R189, R196, R199, R200): with no other counting tamper input at hand, the pair is withdrawn: its claim number advances by
one modulo 2^16, its lanes are isolated and serve no longer, every unit it held is taken back with its SEQ, nonce and epoch, and what its
lanes had delivered of them is gone. With two lanes OFF and a seed to be had, these start for the slot. LAGGARD and LAGGARD_DRAIN_END
(R204, R205): a marked slot gets no new units, its lanes drain, and the marking names the later lane of a skew or both; a marking by lag
is made only where a unit of the slot lags by more than 4,096 releases. Drained, the pair is withdrawn with an advance of the claim
number. Nothing else changes with the marking but its event. -/
def Obligations.PairsAreWithdrawn : Prop :=
  (∀ (p a b : Nat) (cause : FailCause) (s : State), served s = true → (slotOf s p).inService = true → p < 3 → s.slots.length = 3 →
      s.lanes.length = 8 → (slotOf s p).l0 = a → (slotOf s p).l1 = b → a < 8 → b < 8 → a ≠ b → (laneOf s a).st = .serving →
      (laneOf s b).st = .serving → lanesFor s p = [] → s.tamper.window = [] → s.lc ≠ .scrap → quiet s = true →
      To (.failover p cause) s fun t =>
        (slotOf t p).claim = ((slotOf s p).claim + 1) % 65536 ∧ (slotOf t p).inService = false
          ∧ (laneOf t a).st ≠ .serving ∧ (laneOf t b).st ≠ .serving ∧ (laneOf t a).isolated = true ∧ (laneOf t b).isolated = true
          ∧ t.work = s.work.map (fun w =>
              if w.slot = p ∧ (w.stage = .dispatched ∨ w.stage = .computed) then { w with stage := .takenBack, cost := 0 } else w)
          ∧ (∀ x y, sparePair s = some (x, y) →
              (laneOf t x).st = .starting ∧ (laneOf t y).st = .starting ∧ (laneOf t x).forSlot = some p ∧ (laneOf t y).forSlot = some p
                ∧ (slotOf t p).rebuilding = true)
          ∧ (∀ l ∈ t.lanes, ∀ r ∈ l.out, ∀ w ∈ s.work, w.slot = p → (w.stage = .dispatched ∨ w.stage = .computed) → w.seq ≠ r.seq)
          ∧ (∀ p', p' ≠ p → slotOf t p' = slotOf s p') ∧ t.nv = s.nv ∧ t.nonces = s.nonces)
    ∧ (∀ (p : Nat) (s : State), served s = true → p < 3 → s.slots.length = 3 → s.lanes.length = 8 → quiet s = true →
      (∀ (m : LagMeasure) (later : Nat), (slotOf s p).inService = true → (slotOf s p).laggard = false →
        (slotOf s p).l0 < 8 → (slotOf s p).l1 < 8 →
        ((m = .lag → ∃ w ∈ s.work, w.slot = p ∧ (w.stage = .dispatched ∨ w.stage = .computed) ∧ 4096 < w.lag) →
          To (.laggard p m later) s fun t =>
            (slotOf t p).laggard = true ∧ slotTakes t (slotOf t p) = false
              ∧ (slotOf t p).suspects = (if m = .skew ∧ (later = (slotOf s p).l0 ∨ later = (slotOf s p).l1) then [later]
                  else [(slotOf s p).l0, (slotOf s p).l1])
              ∧ (laneOf t (slotOf s p).l0).st = .draining ∧ (laneOf t (slotOf s p).l1).st = .draining
              ∧ (∀ n, n ∈ (slotOf t p).suspects → s.opsec ∈ (laneOf t n).marks)
              ∧ Notified { s with slots := t.slots, lanes := t.lanes, ev := t.ev } t)
        ∧ (m = .lag → (∀ w ∈ s.work, w.slot = p → w.lag ≤ 4096) → exec (.laggard p m later) s = .next s))
      ∧ ((slotOf s p).inService = true → (slotOf s p).laggard = true → lanesFor s p = [] →
        To (.laggardDrainEnd p) s fun t =>
          (slotOf t p).inService = false ∧ (slotOf t p).claim = ((slotOf s p).claim + 1) % 65536 ∧ t.nv = s.nv ∧ t.nonces = s.nonces))

/-- R206: a lane named as suspect in three LAGGARD markings within 3,600 operating seconds enters FAILED without a further test, when the
drain of its slot ends. -/
def Obligations.ThriceSuspectLaneFails : Prop :=
  ∀ (p n : Nat) (s : State), served s = true → p < 3 → s.slots.length = 3 → s.lanes.length = 8 → n < 8 →
    (slotOf s p).inService = true → (slotOf s p).laggard = true → ((slotOf s p).l0 = n ∨ (slotOf s p).l1 = n) →
    (laneOf s n).st = .draining → (laneOf s n).forSlot = none →
    3 ≤ ((laneOf s n).marks.filter fun m => s.opsec < m + 3600).length →
    To (.laggardDrainEnd p) s fun t => (laneOf t n).st = .failed

/-- LANE_START_TEST_DONE (R198, R200, R202, R208): two spare lanes that pass take over the slot with full credit, or, where its pair is
still in service, wait while that pair drains; one that fails is FAILED. LANE_FULL_TEST_DONE (R198, R203): a lane that passes powers down
to OFF, its seed and keys gone; one that fails is FAILED. LANE_TEST_PERIODIC and MASK_RESEED (R186, R188, R208, R210): a test that is due
waits while lanes are busy; with two spare lanes these start for the slot next in rotation, with three slots and no spare the slot drains
for its test, and the rotation moves on; with fewer slots and no spare the test is deferred and the rotation stays. A seeded lane takes a
new seed from the conditioner, where it serves, and nothing else of it changes. -/
def Obligations.LaneTestsRotateAndDecide : Prop :=
  (∀ (p a b : Nat) (s : State), s.lanes.length = 8 → s.slots.length = 3 → p < 3 → a < 8 → b < 8 → a ≠ b →
      ((lanesFor s p).filter fun n => (laneOf s n).st == .starting) = [a, b] → s.sched.testPending = false →
      ((slotOf s p).inService = false →
        To (.laneStartTestDone p true true) s fun t =>
          (slotOf t p).inService = true ∧ (slotOf t p).l0 = a ∧ (slotOf t p).l1 = b ∧ (slotOf t p).credit = 8192
            ∧ (slotOf t p).claim = (slotOf s p).claim ∧ (laneOf t a).st = .serving ∧ (laneOf t b).st = .serving
            ∧ (laneOf t a).isolated = false ∧ (laneOf t b).isolated = false ∧ (∀ p', p' ≠ p → slotOf t p' = slotOf s p') ∧ t.nv = s.nv)
      ∧ ((slotOf s p).inService = true → (slotOf s p).l0 < 8 → (slotOf s p).l1 < 8 → a ≠ (slotOf s p).l0 → a ≠ (slotOf s p).l1 →
          b ≠ (slotOf s p).l0 → b ≠ (slotOf s p).l1 →
        To (.laneStartTestDone p true true) s fun t =>
          slotOf t p = { slotOf s p with rotating := true } ∧ (laneOf t a).st = .serving ∧ (laneOf t b).st = .serving
            ∧ (laneOf t (slotOf s p).l0).st = .draining ∧ (laneOf t (slotOf s p).l1).st = .draining
            ∧ (∀ p', p' ≠ p → slotOf t p' = slotOf s p') ∧ t.nv = s.nv)
      ∧ (To (.laneStartTestDone p true false) s fun t => (laneOf t b).st = .failed ∧ (laneOf t b).seeded = false ∧ t.nv = s.nv))
    ∧ (∀ (n : Nat) (s : State), n < 8 → s.lanes.length = 8 → (laneOf s n).st = .testing → s.sched.laneTest = none →
      s.sched.testPending = false → s.slots.all (fun p => !p.rebuilding) = true →
      (To (.laneFullTestDone n true) s fun t =>
        (laneOf t n).st = .off ∧ (laneOf t n).seeded = false ∧ (laneOf t n).keys = []
          ∧ (∀ m, m ≠ n → laneOf t m = laneOf s m) ∧ t.slots = s.slots ∧ t.nv = s.nv)
      ∧ (To (.laneFullTestDone n false) s fun t =>
        (laneOf t n).st = .failed ∧ (∀ m, m ≠ n → laneOf t m = laneOf s m) ∧ t.slots = s.slots ∧ t.nv = s.nv))
    ∧ (∀ s : State, s.lanes.length = 8 → s.slots.length = 3 →
      (served s = true → s.sched.laneAt + s.diag.lanePer ≤ s.opsec →
        (lanesBusy s = true →
          exec .laneTestPeriodic s = .next { s with sched := { s.sched with testPending := true, laneAt := s.opsec } })
        ∧ (∀ p, lanesBusy s = false → s.pwr.standby = false → s.sched.laneTest = none → s.sched.rotation = p → p < 3 →
          (slotOf s p).inService = true →
          (∀ a b, sparePair s = some (a, b) →
            To .laneTestPeriodic s fun t =>
              (laneOf t a).st = .starting ∧ (laneOf t b).st = .starting ∧ (laneOf t a).forSlot = some p ∧ (laneOf t b).forSlot = some p
                ∧ t.sched.rotation = (p + 1) % 3 ∧ t.slots = s.slots ∧ t.nv = s.nv)
          ∧ (sparePair s = none → slotsIn s = 3 → (slotOf s p).l0 < 8 → (slotOf s p).l1 < 8 →
            To .laneTestPeriodic s fun t =>
              (slotOf t p).rotating = true ∧ (laneOf t (slotOf s p).l0).st = .draining ∧ (laneOf t (slotOf s p).l1).st = .draining
                ∧ t.sched.rotation = (p + 1) % 3 ∧ t.nv = s.nv)
          ∧ (sparePair s = none → slotsIn s < 3 →
            To .laneTestPeriodic s fun t => t.sched.rotation = p ∧ t.slots = s.slots ∧ t.lanes = s.lanes ∧ t.nv = s.nv)))
      ∧ (∀ n, n < 8 → (laneOf s n).seeded = true →
        To (.maskReseed n) s fun t =>
          laneOf t n = (if condUp s 1 then { laneOf s n with maskSeed := (takeSeed s).1 } else laneOf s n)
            ∧ (∀ m, m ≠ n → laneOf t m = laneOf s m) ∧ t.nv = s.nv ∧ t.slots = s.slots))

/-- NB_STARTUP_TEST_DONE and NB_CALIBRATION_DONE (R34, R214 to R217): a bank that passes its start-up test calibrates, once no other bank
does; one that fails repeats it once and then is FAILED; a bound of 0.450 bit or more puts the bank in SERVING, credited, with the bound,
the temperature and the second noted, and a lower one suspends it. NB_HEALTH_FAIL, NB_RESTART, CAL_PERIODIC and CAL_TEMPERATURE (R212,
R215, R216): a failing bank in SERVING or calibrating is suspended and its credit ends; after 60 operating seconds its start-up test runs
again; a calibration that is due, by its turn or by a temperature more than 20 degrees from the last one's, begins while two other banks
serve and is deferred otherwise; a temperature within 20 degrees is only noted. -/
def Obligations.NoiseBanksFollowTheirTests : Prop :=
  (∀ (b : Nat) (s : State), b < 3 → s.banks.length = 3 → s.lark.runWait = [] → (bankOf s b).deferred = false → (bankOf s b).wantCal = false →
      s.tamper.window = [] → s.lc ≠ .scrap →
      (∀ (streams : BitVec 32) (prop : Bool), (bankOf s b).st = .starting →
        (bankCalibrating s = false → (∀ c, c ≠ b → (bankOf s c).ready = false) →
          To (.nbStartupTestDone b true streams prop) s fun t => (bankOf t b).st = .calibrating ∧ t.nv = s.nv)
        ∧ (bankCalibrating s = true →
          To (.nbStartupTestDone b true streams prop) s fun t => (bankOf t b).st = .starting ∧ (bankOf t b).ready = true ∧ t.nv = s.nv)
        ∧ ((bankOf s b).retry = false →
          To (.nbStartupTestDone b false streams prop) s fun t => (bankOf t b).st = .starting ∧ (bankOf t b).retry = true ∧ t.nv = s.nv)
        ∧ ((bankOf s b).retry = true →
          To (.nbStartupTestDone b false streams prop) s fun t =>
            (bankOf t b).st = .failed ∧ (bankOf t b).credited = false ∧ t.nv = s.nv))
      ∧ ((bankOf s b).st = .calibrating →
        (∀ bound, 450 ≤ bound →
          To (.nbCalibrationDone b bound) s fun t =>
            (bankOf t b).st = .serving ∧ (bankOf t b).credited = true ∧ (bankOf t b).bound = bound ∧ (bankOf t b).calOpsec = s.opsec
              ∧ (bankOf t b).calTemp = s.pwr.tempNow ∧ (bankOf t b).low = 0 ∧ t.nv = s.nv)
        ∧ (∀ bound, bound < 450 →
          To (.nbCalibrationDone b bound) s fun t =>
            ((bankOf t b).st = .suspended ∨ (bankOf t b).st = .failed) ∧ (bankOf t b).credited = false
              ∧ ((2 ≤ (bankOf s b).low ∨ 2 ≤ ((bankOf s b).entries.filter fun e => s.opsec < e + 3600).length) ↔ (bankOf t b).st = .failed)
              ∧ t.nv = s.nv)))
    ∧ (∀ (b : Nat) (s : State), b < 3 → s.banks.length = 3 → s.lark.runWait = [] → s.tamper.window = [] → s.lc ≠ .scrap →
      (∀ (stream : Nat) (prop : Bool), stream < 32 → ((bankOf s b).st = .serving ∨ (bankOf s b).st = .calibrating) →
        (bankOf s b).wantCal = false →
        To (.nbHealthFail b stream prop) s fun t =>
          ((bankOf t b).st = .suspended ∨ (bankOf t b).st = .failed) ∧ (bankOf t b).credited = false
            ∧ (bankOf t b).streams.getLsbD stream = true ∧ s.opsec ∈ (bankOf t b).entries ∧ t.nv = s.nv)
      ∧ ((bankOf s b).st = .suspended → (bankOf s b).suspOpsec + 60 ≤ s.opsec →
        To (.nbRestart b) s fun t =>
          (bankOf t b).st = .starting ∧ (bankOf t b).retry = false ∧ (∀ c, c ≠ b → bankOf t c = bankOf s c) ∧ t.nv = s.nv)
      ∧ ((bankOf s b).st = .serving →
        (calTurnBank s = some b →
          (2 ≤ othersServing s b →
            To (.calPeriodic b) s fun t => (bankOf t b).st = .calibrating ∧ (∀ c, c ≠ b → bankOf t c = bankOf s c) ∧ t.nv = s.nv)
          ∧ (othersServing s b < 2 →
            To (.calPeriodic b) s fun t =>
              (bankOf t b).st = .serving ∧ (bankOf t b).deferred = true ∧ (∀ c, c ≠ b → bankOf t c = bankOf s c) ∧ t.nv = s.nv))
        ∧ ∀ temp, served s = true → (temp + 20 < (bankOf s b).calTemp ∨ (bankOf s b).calTemp + 20 < temp) →
          (2 ≤ othersServing s b →
            To (.calTemperature b temp) s fun t =>
              (bankOf t b).st = .calibrating ∧ t.pwr.tempNow = temp ∧ (∀ c, c ≠ b → bankOf t c = bankOf s c) ∧ t.nv = s.nv)
          ∧ (othersServing s b < 2 →
            To (.calTemperature b temp) s fun t =>
              (bankOf t b).st = .serving ∧ (bankOf t b).deferred = true ∧ t.pwr.tempNow = temp
                ∧ (∀ c, c ≠ b → bankOf t c = bankOf s c) ∧ t.nv = s.nv))
      ∧ (∀ temp, temp ≤ (bankOf s b).calTemp + 20 → (bankOf s b).calTemp ≤ temp + 20 →
        exec (.calTemperature b temp) s
          = .next { s with pwr := { s.pwr with tempNow := temp, tempMax := max s.pwr.tempMax temp } }))

/-- TAMPER_INPUT of class T1, T3 and T4 standing alone (R376, R379, R382, R319): T1 is recorded and nothing else follows. T3 stops
everything: MP_VALID falls, nothing is fetched, no function is enabled, entries inside are gone, and hot slots, session table, wrap keys
and PKE registers are zeroised, the root kept. T4 does so and burns the TAMPERED group and its intent word, and raises the generations of
indexes 0, 1 and 2, but in recovery mode (notes/assumptions/71.md). -/
def Obligations.TamperClassesRespond : Prop :=
  ∀ (i : TamperIn) (w : Bool) (c : TClass) (counts : Bool) (s : State), sensorsOn s = true → s.lc ≠ .scrap → s.lc ≠ .lost →
    judgeInput s i = some (c, counts) → s.tamper.window = [] → lastArray i s = false →
    ¬(i.sensor = .vbat ∧ i.reading = .fault) → quiet s = true → s.fns.length = 16 → s.tamper.t3 = false →
    (c = .t1 →
      To (.tamperInput i w) s fun t =>
        Notified { s with
          tamper := { s.tamper with window := t.tamper.window, windowAt := t.tamper.windowAt }
          ev := (event 0x0D01 (sensorCode i.sensor + 256 * ((unitKey i.unit).2 % 256) + 65536) s).ev
          free := s.free + 1 } t)
    ∧ ((c = .t3 ∨ c = .t4) →
      To (.tamperInput i w) s fun t =>
        t.tamper.t3 = true ∧ t.pwr.mpValid = false ∧ t.pwr.fetchOff = true ∧ t.work = [] ∧ (∀ f, f < 16 → (fnOf t f).present = true → (fnOf s f).causes = [] → (fnOf t f).enabled = false)
          ∧ t.keys.hot = [] ∧ t.keys.sess = [] ∧ t.keys.sessWrap = 0 ∧ t.keys.saveWrap = 0 ∧ t.keys.pkeKey = [false, false]
          ∧ t.keys.root = s.keys.root ∧ t.dbg.cert = none ∧ t.meter.group = none
          ∧ (c = .t3 → t.otp = s.otp ∧ t.tamper.t4Due = s.tamper.t4Due ∧ ∀ n, genOf t n = genOf s n)
          ∧ (c = .t4 → t.tamper.t4Due = true ∧ (∀ k, k < 16 → otpBit t 97 (4 * k + 2) = true)
              ∧ (∀ k, k < 64 → (intentValue (lcCode s.lc) 15).getLsbD k = true → otpBit t 106 k = true)
              ∧ (∀ n, n < 3 → genOf t n = genOf s n + (if s.pwr.phase = .recovery then 0 else 1))
              ∧ ∀ n, 3 ≤ n → genOf t n = genOf s n))

/-- UNIT_FAILED, T4_RESET, LC_RESET and PKE_TEST_DONE (R33, R352, R378, R382): a unit without a twin that fails stops fetching until the
next start; the resets that a T4 response and a life-cycle transition end in act as by nRESET; a PKE core under test returns to service if
it passes. UNPOWERED_TAMPER_LATCH and LOOP_RESISTANCE_MEASURE (R63, R372, R384, R431): unpowered with VBAT, in reset and after a
declaration, the first attack reading of a sensor is latched with the power-cycle count and stays; loops at or below 1 kOhm give no
reading, and one above it is latched there, and is an attack reading of its sensor while the response logic works. -/
def Obligations.UnitsFailAndResetsFollow : Prop :=
  (∀ s : State,
      (∀ unit index, sensorsOn s = true → 1 ≤ unit → unit ≤ 9 →
        To (.unitFailed unit index) s fun t =>
          t.pwr.fetchOff = true ∧ (unit, index) ∈ t.pwr.unitsFailed ∧ (∀ u, u ∈ s.pwr.unitsFailed → u ∈ t.pwr.unitsFailed)
            ∧ t.nv = s.nv ∧ t.keys = s.keys)
      ∧ (powered s = true → s.tamper.t4Due = true →
        To .t4Reset s fun t => t.pwr.phase = .flushReset ∧ t.pwr.reason = .nreset ∧ t.keys = {} ∧ t.nv = (flush s).nv ∧ t.otp = s.otp)
      ∧ (powered s = true → s.lcResetDue = true →
        To .lcReset s fun t => t.pwr.phase = .flushReset ∧ t.pwr.reason = .nreset ∧ t.keys = {} ∧ t.nv = (flush s).nv ∧ t.otp = s.otp)
      ∧ (∀ core pass (p : Pke), s.pkes[core]? = some p → p.testing = true →
        To (.pkeTestDone core pass) s fun t =>
          (t.pkes[core]?).map (fun x => (x.testing, x.inService)) = some (false, pass && !p.out)
            ∧ (∀ k, k ≠ core → t.pkes[k]? = s.pkes[k]?) ∧ t.nv = s.nv))
    ∧ (∀ s : State,
      (∀ (x : Sensor) (code : Nat), (x, code) ∈ [(Sensor.cardigan, 7), (.loopA, 8), (.loopB, 9)] →
        ((s.pwr.phase = .off ∧ s.pwr.vbatPresent = true) ∨ s.pwr.phase = .held ∨ s.pwr.phase = .startDue ∨ s.pwr.phase = .flushPower
          ∨ s.pwr.phase = .flushReset) →
        (s.tamper.latch.any (fun l => l.1 == code) = false →
          exec (.unpoweredTamperLatch x) s
            = .next { s with tamper := { s.tamper with
                latch := s.tamper.latch ++ [(code, 0, s.pwrCyc)]
                offOpsec := if s.pwr.phase = .off then s.tamper.offOpsec else s.opsec } })
        ∧ (s.tamper.latch.any (fun l => l.1 == code) = true → exec (.unpoweredTamperLatch x) s = .next s))
      ∧ (s.pwr.phase = .off → s.pwr.vbatPresent = false → ∀ x, exec (.unpoweredTamperLatch x) s = .next s)
      ∧ (∀ a b, a ≤ 1000 → b ≤ 1000 → quiet s = true → To (.loopResistanceMeasure a b) s fun t => Notified s t)
      ∧ (∀ a b, 1000 < a → b ≤ 1000 → s.pwr.phase = .off → s.pwr.vbatPresent = true → quiet s = true →
          s.tamper.latch.any (fun l => l.1 == 8) = false →
          To (.loopResistanceMeasure a b) s fun t =>
            Notified { s with tamper := { s.tamper with latch := s.tamper.latch ++ [(8, 0, s.pwrCyc)] } } t)
      ∧ (∀ a b, 1000 < a → b ≤ 1000 → sensorsOn s = true →
          exec (.loopResistanceMeasure a b) s = exec (.tamperInput ⟨.loopA, .attack, .powerDomain 0, false⟩ false) s))

/-- GATE_WRITE, GATE_READ and GATE_LOCK (R335, R341 to R344): a write of unlocked host entries of the queue DMA gates puts each in force
as the request spells it and advances the epoch by one; a read answers the reporting mode, the epoch and the entries and changes nothing;
a lock sets LOCK on the named entries. GATE 0x20 names the four queue DMA gates. No other entry and no other gate changes. A locked entry
is not written. GATE_FAULTS, GATE_SYNC and GATE_SYNC_RETIRED (R339, R340, R345): the fault records of a gate are answered, and cleared
where asked; a sync answers at once when every access of an earlier epoch has retired, waits otherwise, and is answered by the retirement.
-/
def Obligations.GateCommandsAct : Prop :=
  (∀ (r : Req) (s : State) (g first n : Nat), g = fld r 0 1 → first = fld r 1 1 → n = fld r 2 1 → quiet s = true → s.gates.length = 21 →
      (accepts 0x0A01 r none s = true → (g < 4 ∨ g = 0x20) → 16 ≤ first → 1 ≤ n → n ≤ 48 → first + n ≤ 64 → r.body.length = 8 + 32 * n →
        slice r.body 3 5 = zeros 5 → (∀ k, k < n → hostEntryBad (slice r.body (8 + 32 * k) 32) = none) →
        ((∀ q, q ∈ gatesNamed g → ∀ i, first ≤ i → i < first + n → (gateEntry s q i).lock = false) →
          To (.gateWrite r) s fun t =>
            Answered 0x0A01 r stOk 0 (le 8 (s.epoch + 1)) t
              ∧ Responded r { s with gates := t.gates, epoch := s.epoch + 1 } t
              ∧ (∀ q, q ∈ gatesNamed g →
                  (∀ k, k < n → gateEntry t q (first + k) = entryFrom (slice r.body (8 + 32 * k) 32))
                    ∧ ∀ i, (i < first ∨ first + n ≤ i) → gateEntry t q i = gateEntry s q i)
              ∧ ∀ q, q ∉ gatesNamed g → gateOf t q = gateOf s q)
        ∧ (∀ q i, q ∈ gatesNamed g → first ≤ i → i < first + n → (gateEntry s q i).lock = true →
          To (.gateWrite r) s fun t => Answered 0x0A01 r stBusyOwned 0 [] t ∧ Responded r s t))
      ∧ (accepts 0x0A02 r (some 4) s = true → g ≤ 0x14 → 1 ≤ n → n ≤ 64 → first + n ≤ gateSize g → fld r 3 1 = 0 →
        Does (.gateRead r) 0x0A02 r s
          (le 1 (b2n (gateOf s g).firstOnly) ++ le 1 (b2n (gateOf s g).mlock) ++ zeros 2 ++ le 8 s.epoch
            ++ ((List.range n).map fun k => (gateEntry s g (first + k)).bytes).flatten) s)
      ∧ (accepts 0x0A03 r (some 4) s = true → (g < 4 ∨ g = 0x20) → 16 ≤ first → 1 ≤ n → n ≤ 48 → first + n ≤ 64 → fld r 3 1 ≤ 1 →
        To (.gateLock r) s fun t =>
          Answered 0x0A03 r stOk 0 [] t
            ∧ Responded r { s with gates := t.gates, ev := (event 0x0A02 (g + 256 * first + 65536 * n) s).ev } t
            ∧ (∀ q, q ∈ gatesNamed g →
                (∀ i, first ≤ i → i < first + n → gateEntry t q i = { gateEntry s q i with eflags := (gateEntry s q i).eflags ||| 4 })
                  ∧ (∀ i, (i < first ∨ first + n ≤ i) → gateEntry t q i = gateEntry s q i)
                  ∧ (gateOf t q).mlock = ((gateOf s q).mlock || fld r 3 1 == 1))
            ∧ ∀ q, q ∉ gatesNamed g → gateOf t q = gateOf s q))
    ∧ (∀ (r : Req) (s : State), quiet s = true →
      (∀ g, g = fld r 0 1 → accepts 0x0A05 r (some 4) s = true → g ≤ 0x14 → s.gates.length = 21 → fld r 3 1 = 0 →
        (fld r 1 1 = 0 → fld r 2 1 = 0 → Does (.gateFaults r) 0x0A05 r s (faultsBody (gateOf s g)) s)
        ∧ (fld r 1 1 = 1 → fld r 2 1 = 0 →
          To (.gateFaults r) s fun t =>
            Answered 0x0A05 r stOk 0 (faultsBody (gateOf s g)) t ∧ Responded r { s with gates := t.gates } t
              ∧ gateOf t g = { gateOf s g with recs := [], lost := 0 } ∧ ∀ g', g' ≠ g → gateOf t g' = gateOf s g')
        ∧ (fld r 1 1 = 2 → fld r 2 1 ≤ 1 → (gateOf s g).mlock = false →
          To (.gateFaults r) s fun t =>
            gateOf t g = { gateOf s g with recs := [], lost := 0, firstOnly := fld r 2 1 == 1 }
              ∧ Answered 0x0A05 r stOk 0 (faultsBody (gateOf t g)) t ∧ Responded r { s with gates := t.gates } t
              ∧ ∀ g', g' ≠ g → gateOf t g' = gateOf s g')
        ∧ (fld r 1 1 = 2 → fld r 2 1 ≤ 1 → (gateOf s g).mlock = true →
          To (.gateFaults r) s fun t => Answered 0x0A05 r stBusyOwned 0 [] t ∧ Responded r s t))
      ∧ (∀ e, e = (if fld r 0 8 = 0 then s.epoch else fld r 0 8) → accepts 0x0A04 r (some 8) s = true → e ≤ s.epoch →
        (retired e s = true → Does (.gateSync r) 0x0A04 r s (le 8 e ++ le 4 0 ++ zeros 4) s)
        ∧ (retired e s = false →
          To (.gateSync r) s fun t => Waits 0x0A04 r e t ∧ t.nv = s.nv ∧ t.work = s.work ∧ t.gates = s.gates ∧ t.epoch = s.epoch))
      ∧ (∀ w : Waiter, s.waiters = [w] → w.op = 0x0A04 → w.orphan = false → retired w.obj s = true → 
        To .gateSyncRetired s fun t =>
          Answered 0x0A04 w.req stOk 0 (le 8 w.obj ++ le 4 0 ++ zeros 4) t ∧ Responded w.req { s with waiters := [] } t))

/-- METER_PORT_READ and METER_PORT_WRITE of store words, and GROUP_OPEN, GROUP_COMMIT, GROUP_ABORT (R388, R390, R391, R394): a read drives
the word that its two bytes make; a write changes the bytes its enables name and no other, in the mirror, or, while a group is open on the
page, for the cabinet controller's reads only, until the commit copies them into the mirror or the abort discards them. Words 124 to 127
of a page read zero and take no write. In RETURN a write is dropped (R350). A write cycle without its strobes, or while the port does not
serve, changes nothing; a read with short strobes touches nothing but what it drives (R374). -/
def Obligations.MeterWordsReadAsWritten : Prop :=
  ∀ (a : BitVec 20) (s : State), a.toNat < 0x20000 → quiet s = true →
    (mpUp s = true → mpFault a.toNat false s = none →
      To (.meterPortRead a true) s fun t =>
        t = { s with
          out := s.out ++ [.mp (if a.toNat % 128 < 124 then portByte s.meter (2 * a.toNat + 1) ++ portByte s.meter (2 * a.toNat) else 0)]
          pmon := s.pmon.count 0x80 0 1 })
    ∧ (mpUp s = true → To (.meterPortRead a false) s fun t => t = { s with out := t.out, free := s.free + 1 })
    ∧ (∀ (d : BitVec 16) (be : BitVec 2) (we rise : Nat), 10 ≤ we → 15 ≤ rise → mpUp s = true → mpFault a.toNat true s = none →
      s.lc ≠ .retn →
      To (.meterPortWrite a d be we rise) s fun t =>
        t = { s with meter := t.meter, pmon := s.pmon.count 0x81 0 1 }
          ∧ (a.toNat % 128 < 124 →
              (be.getLsbD 0 = true → portByte t.meter (2 * a.toNat) = d.setWidth 8)
                ∧ (be.getLsbD 1 = true → portByte t.meter (2 * a.toNat + 1) = (d >>> 8).setWidth 8)
                ∧ (s.meter.group ≠ some (a.toNat / 128) → be ≠ 0 → a.toNat / 128 ∈ t.meter.dirty))
          ∧ (124 ≤ a.toNat % 128 → t.meter = s.meter)
          ∧ (∀ b, ¬(b = 2 * a.toNat ∧ be.getLsbD 0 = true) → ¬(b = 2 * a.toNat + 1 ∧ be.getLsbD 1 = true) →
              portByte t.meter b = portByte s.meter b)
          ∧ (s.meter.group = some (a.toNat / 128) → t.meter.mirror = s.meter.mirror ∧ t.meter.dirty = s.meter.dirty)
          ∧ t.meter = { s.meter with
              mirror := t.meter.mirror, dirty := t.meter.dirty, shadow := t.meter.shadow, shadowMask := t.meter.shadowMask })
    ∧ (∀ (d : BitVec 16) (be : BitVec 2) (we rise : Nat), (we < 10 ∨ rise < 15 ∨ mpUp s = false ∨ (mpFault a.toNat true s = none ∧ s.lc = .retn)) →
      To (.meterPortWrite a d be we rise) s fun t => t = s)
    ∧ (mpUp s = true → mpFault 0x28002 true s = none → s.lc ≠ .retn →
      (∀ page : BitVec 10, To (.groupOpen page) s fun t =>
        t = { s with
          meter := { s.meter with
            page := page, group := some page.toNat, shadow := [], shadowMask := []
            groupLost := s.meter.groupLost || s.meter.group.isSome }
          pmon := s.pmon.count 0x81 0 1 })
      ∧ (s.meter.group.isSome = true →
        To .groupCommit s fun t =>
          (∀ b, mread t.meter.mirror b = if b ∈ s.meter.shadowMask then mread s.meter.shadow b else mread s.meter.mirror b)
            ∧ t = { s with
                meter := { s.meter with
                  mirror := t.meter.mirror, dirty := t.meter.dirty, group := none, shadow := [], shadowMask := [] }
                pmon := s.pmon.count 0x81 0 1 })
      ∧ (s.meter.group = none → To .groupCommit s fun t => t = { s with pmon := s.pmon.count 0x81 0 1 })
      ∧ To .groupAbort s fun t =>
          t = { s with meter := { s.meter with group := none, shadow := [], shadowMask := [] }, pmon := s.pmon.count 0x81 0 1 })

/-- METER_INCREMENT (R398): with both byte enables low, the amount is added to the counter, with saturation at 2^56 - 1, and the counter
is dirty; its copies and every other counter stay. Without an enable the write is dropped and sets BE_ERR; a LOST counter ignores it; a
65th dirty counter starts a forced write, and while one runs is dropped, sets INC_DROP and is recorded. COUNTER_WINDOW_READ and
METER_PORT_READ of a window (R397): a read of word 0 drives value [15:0] and latches value and status; words 1 to 3 then give the latch,
so that the four words spell one value of up to 56 bits, whatever increments came between. -/
def Obligations.CountersThroughTheMeterPort : Prop :=
  (∀ (c : Nat) (v : BitVec 16) (s : State), c < 4096 → s.lc ≠ .retn → mpUp s = true → mpFault (0x24000 + c) true s = none → quiet s = true →
      ((ctrOf s c).lost = false → (c ∈ s.dirtyCtrs ∨ s.dirtyCtrs.length < 64 ∨ s.meter.forcedBusy = false) →
        To (.meterIncrement c v 3) s fun t =>
          ctrOf t c = { ctrOf s c with live := min ((ctrOf s c).live + v.toNat) (2 ^ 56 - 1) } ∧ c ∈ t.dirtyCtrs
            ∧ (∀ n, n ≠ c → ctrOf t n = ctrOf s n ∧ (n ∈ t.dirtyCtrs ↔ n ∈ s.dirtyCtrs))
            ∧ t = { s with
                nv := { s.nv with ctrs := t.nv.ctrs }, dirtyCtrs := t.dirtyCtrs, pmon := t.pmon
                meter := { s.meter with
                  forcedBusy := s.meter.forcedBusy || (!s.dirtyCtrs.contains c && decide (64 ≤ s.dirtyCtrs.length)) } })
      ∧ (∀ be : BitVec 2, be ≠ 3 →
        To (.meterIncrement c v be) s fun t => t = { s with meter := { s.meter with beErr := true }, pmon := s.pmon.count 0x81 0 1 })
      ∧ ((ctrOf s c).lost = true → To (.meterIncrement c v 3) s fun t => t = { s with pmon := s.pmon.count 0x81 0 1 })
      ∧ ((ctrOf s c).lost = false → c ∉ s.dirtyCtrs → 64 ≤ s.dirtyCtrs.length → s.meter.forcedBusy = true →
        To (.meterIncrement c v 3) s fun t =>
          Notified { s with meter := { s.meter with incDrop := true }, ev := (event 0x0B02 c s).ev } t))
    ∧ (∀ (c : Nat) (s : State), c < 4096 → quiet s = true → mpUp s = true →
      (mpFault (0x20000 + 4 * c) false s = none →
        To (.counterWindowRead c) s fun t =>
          t = { s with
            meter := { s.meter with winOf := c, winVal := ctrVal s c, winLost := (ctrOf s c).lost }
            out := s.out ++ [.mp (BitVec.ofNat 16 (ctrVal s c % 65536))]
            pmon := s.pmon.count 0x80 0 1 })
      ∧ (∀ (k : Nat) (a : BitVec 20), 1 ≤ k → k ≤ 3 → a.toNat = 0x20000 + 4 * c + k → mpFault a.toNat false s = none → s.meter.winOf = c →
        To (.meterPortRead a true) s fun t =>
          t = { s with
            out := s.out ++ [.mp (BitVec.ofNat 16 (if k < 3 then s.meter.winVal / 2 ^ (16 * k) % 65536
              else s.meter.winVal / 2 ^ 48 % 256 + 256 * b2n s.meter.winLost + 512 * b2n (s.meter.winVal == 2 ^ 56 - 1)))]
            pmon := s.pmon.count 0x80 0 1 })
      ∧ ∀ v, v < 2 ^ 56 → ∀ lost : Bool,
          windowWord v lost 0 + 2 ^ 16 * windowWord v lost 1 + 2 ^ 32 * windowWord v lost 2 + 2 ^ 48 * (windowWord v lost 3 % 256) = v)

/-- TV_VERDICT (R400): 0x5A5A when every candidate word equals the reference, 0xA5A5 and a count of failures when one differs, and then
the candidate words are zero; read too soon, or with a length or a reference out of range, 0x0000 and nothing changes. -/
def Obligations.VerdictComparesEveryWord : Prop :=
  ∀ (n ref : Nat) (s : State), n = s.meter.tvLen.toNat % 32 → ref = s.meter.tvLo.toNat + 65536 * (s.meter.tvHi.toNat % 16) →
    mpUp s = true → mpFault 0x28013 false s = none → quiet s = true →
    (1 ≤ n → n ≤ 16 → ref < 0x20000 → ref % 128 + n ≤ 124 →
      ((∀ i, i < n → (s.meter.tvCand.getD i 0).toNat = mirrorWord s.meter (ref + i)) →
        To (.tvVerdict true) s fun t =>
          t = { s with
            meter := { s.meter with tvCand := List.replicate 16 0 }, out := s.out ++ [.mp 0x5A5A], pmon := s.pmon.count 0x80 0 1 })
      ∧ (∀ i, i < n → (s.meter.tvCand.getD i 0).toNat ≠ mirrorWord s.meter (ref + i) →
        To (.tvVerdict true) s fun t =>
          t = { s with
            meter := { s.meter with tvCand := List.replicate 16 0, tvFails := min (s.meter.tvFails + 1) 65535 }
            out := s.out ++ [.mp 0xA5A5], pmon := s.pmon.count 0x80 0 1 }))
    ∧ (∀ spaced : Bool, (spaced = false ∨ n = 0 ∨ 16 < n ∨ 0x20000 ≤ ref ∨ 124 < ref % 128 + n) →
      To (.tvVerdict spaced) s fun t => t = { s with out := s.out ++ [.mp 0], pmon := s.pmon.count 0x80 0 1 })

/-- METER_READ, METER_WRITE, METER_PROTECT and CTR_READ (R285, R395, R396, R401, R402): a read answers the words of the mirror and a
counter read its records, and neither changes anything; a write puts its words into the mirror, words 124 to 127 of a page skipped,
whatever LEVEL and HIDE are; METER_PROTECT puts LEVEL and HIDE in force, advances the epoch and locks them where asked; locked, it changes
nothing. -/
def Obligations.HostMeterCommandsAct : Prop :=
  ∀ (r : Req) (s : State), quiet s = true →
    (accepts 0x0B02 r (some 8) s = true → 1 ≤ fld r 4 2 → fld r 4 2 ≤ 2036 → fld r 0 4 + fld r 4 2 ≤ 0x20000 → fld r 6 2 = 0 →
      Does (.meterRead r) 0x0B02 r s
        (r.body.take 8 ++ ((List.range (fld r 4 2)).map fun i => le 2 (mirrorWord s.meter (fld r 0 4 + i))).flatten) s)
    ∧ (accepts 0x0B03 r none s = true → s.lc ≠ .retn → 1 ≤ fld r 4 2 → fld r 4 2 ≤ 2036 → fld r 0 4 + fld r 4 2 ≤ 0x20000 → fld r 6 2 = 0 →
      r.body.length = 8 + 2 * fld r 4 2 →
      To (.meterWrite r) s fun t =>
        Answered 0x0B03 r stOk 0 [] t
          ∧ Responded r { s with meter := t.meter, ev := (eventX 0x0B04 (fld r 0 4) (le 2 (fld r 4 2)) s).ev } t
          ∧ (∀ i, i < fld r 4 2 → (fld r 0 4 + i) % 128 < 124 → mirrorWord t.meter (fld r 0 4 + i) = num r.body (8 + 2 * i) 2)
          ∧ (∀ w, (w < fld r 0 4 ∨ fld r 0 4 + fld r 4 2 ≤ w ∨ 124 ≤ w % 128) →
              mread t.meter.mirror (2 * w) = mread s.meter.mirror (2 * w) ∧ mread t.meter.mirror (2 * w + 1) = mread s.meter.mirror (2 * w + 1))
          ∧ t.meter = { s.meter with mirror := t.meter.mirror, dirty := t.meter.dirty })
    ∧ (accepts 0x0B04 r (some 4) s = true → fld r 0 1 ≤ 3 → fld r 1 1 ≤ 16 → (fld r 1 1 ≠ 0 → fld r 0 1 ≠ 0) → fld r 2 1 ≤ 1 → fld r 3 1 = 0 →
      (s.meter.locked = false →
        To (.meterProtect r) s fun t =>
          Answered 0x0B04 r stOk 0 (r.body.take 4 ++ le 8 (s.epoch + 1)) t
            ∧ AB.value t.nv.meterProt (0, 0) = (fld r 0 1, fld r 1 1)
            ∧ Responded r { s with
                meter := { s.meter with level := fld r 0 1, hide := fld r 1 1, locked := fld r 2 1 == 1 }
                nv := { s.nv with meterProt := t.nv.meterProt }, gates := t.gates, epoch := s.epoch + 1, ev := t.ev } t
            ∧ ∀ g, g ≠ gMpt → gateOf t g = gateOf s g)
      ∧ (s.meter.locked = true → To (.meterProtect r) s fun t => Answered 0x0B04 r stBusyOwned 0 [] t ∧ Responded r s t))
    ∧ (accepts 0x0B01 r (some 4) s = true → 1 ≤ fld r 2 2 → fld r 2 2 ≤ 255 → fld r 0 2 + fld r 2 2 ≤ 4096 →
      Does (.ctrRead r) 0x0B01 r s ((List.range (fld r 2 2)).map fun i => ctrRecord s (fld r 0 2 + i)).flatten s)

/-- DG_START, DG_DATA, DG_FINISH, DG_OWN, DG_OWNER_TIMEOUT and DG_LOW_WORD_READ (R404 to R407): DGU1 serves its owner, through BAR4 or the
port: a claim takes a free unit; START begins a digest, DATA appends its bytes, or begins a new message after FINISH, FINISH shows the
digest of the whole blocks; another party's write is dropped and sets DENIED; a release zeroises the unit. A port read of a low word
drives it and latches the high word. -/
def Obligations.DigestUnitServesItsOwner : Prop :=
  ∀ (p : DgParty) (s : State) (m : Pmon),
    (match p with
      | .host => barUp s 0 = true
      | .cabinet => mpUp s = true ∧ s.lc ≠ .retn ∧ mpFault 0x2A000 true s = none ∧ mpFault 0x2A006 true s = none
          ∧ mpFault 0x2A020 true s = none) →
    m = (match p with | .host => s.pmon | .cabinet => s.pmon.count 0x81 0 1) → quiet s = true → s.dgu1.withdrawn = false →
    (s.dgu1.owner = ownerOf p →
      (∀ alg : BitVec 2, alg ≠ 3 →
        To (.dgStart p alg) s fun t =>
          t = { s with
            pmon := m
            dgu1 := { s.dgu1 with
              alg := alg, algRun := alg, msg := [], buf := [], done := false, count := 0, run := (s.dgu1.run + 1) % 256, running := true } })
      ∧ (∀ b : Bytes, dataWidthOk p b.length = true → s.dgu1.done = false →
        To (.dgData p b false) s fun t =>
          t.dgu1.msg ++ t.dgu1.buf = s.dgu1.msg ++ s.dgu1.buf ++ b ∧ t.dgu1.buf.length < s.dgu1.block
            ∧ t.dgu1 = { s.dgu1 with msg := t.dgu1.msg, buf := t.dgu1.buf, count := t.dgu1.count }
            ∧ t = { s with dgu1 := t.dgu1, pmon := t.pmon })
      ∧ (∀ b : Bytes, dataWidthOk p b.length = true → s.dgu1.done = true →
        To (.dgData p b false) s fun t =>
          t = { s with
            pmon := m
            dgu1 := { s.dgu1 with
              algRun := s.dgu1.alg, msg := [], buf := b, done := false, count := 0, run := (s.dgu1.run + 1) % 256, running := true } })
      ∧ (∀ alg : BitVec 2, alg ≠ 3 →
        To (.dgFinish p alg) s fun t =>
          t = { s with
              pmon := m
              dgu1 := { s.dgu1 with alg := alg, done := true, part := s.dgu1.part || s.dgu1.buf != [], buf := [] } }
            ∧ (s.dgu1.running = true → ∀ seed, t.dgu1.digest seed = fit 64 (shaChain s.dgu1.algRun s.dgu1.msg)))
      ∧ To (.dgOwn p 0) s fun t =>
          t = { s with
            pmon := m
            dgu1 := { s.dgu1 with owner := .free, msg := [], buf := [], done := false, count := 0, running := false } })
    ∧ (s.dgu1.owner = .free →
      To (.dgOwn p (match p with | .host => 1 | .cabinet => 2)) s fun t =>
        t = { s with pmon := m, dgu1 := { s.dgu1 with owner := ownerOf p } })
    ∧ (s.dgu1.owner ≠ ownerOf p → ∀ alg : BitVec 2,
      To (.dgStart p alg) s fun t => t = { s with pmon := m, dgu1 := { s.dgu1 with denied := true } })
    ∧ ((s.dgu1.owner = .host ∨ s.dgu1.owner = .cabinet) →
      To .dgOwnerTimeout s fun t =>
        t = { s with dgu1 := { s.dgu1 with owner := .free, msg := [], buf := [], done := false, count := 0, running := false } })
    ∧ (∀ off, off < 0x140 → off % 4 = 0 → mpUp s = true → mpFault (0x2A000 + off / 2) false s = none →
      To (.dgLowWordRead off) s fun t =>
        t = { s with
          pmon := s.pmon.count 0x80 0 1
          out := s.out ++ [.mp (BitVec.ofNat 16 (s.dgu1.reg .cabinet s.free off % 65536))]
          dgu1 := { s.dgu1 with latch := BitVec.ofNat 16 (s.dgu1.reg .cabinet s.free off / 65536), latchOf := off }
          free := s.free + 1 })

/-- RD_STATUS, WR_MBX, RD_MBX, SPI_SUBMIT, RD_COMPL, SPI_UNKNOWN_COMMAND and USB_SUBMIT (R84, R109 to R117): a status read drives the 16
bytes with their CRC and clears CRC_ERR; a transaction with a wrong CRC or an unknown command is dropped and sets it; a request through
WR_MBX is answered in the SPI target, and RD_MBX drives the response; a submission with its source is taken whole; RD_COMPL gives the
oldest completion, which ACK removes once it has been shown. A SUBMIT frame without the host role is refused; an MBX_REQ frame is answered
by an MBX_RESP frame. -/
def Obligations.FramedPathsAreServed : Prop :=
  ∀ s : State, quiet s = true →
    (spiUp s = true →
      (exec .rdStatus s = .next { s with
        spi := { s.spi with crcErr := false }, out := s.out ++ [.spi (spiStatus s ++ le 4 (crc32 (spiStatus s)).toNat)] })
      ∧ (∀ (arg : BitVec 32) (d : Bytes) (crc : BitVec 32), crc ≠ crc32 d →
        ∀ i ∈ [Instr.wrMbx arg d crc true, Instr.spiSubmit arg d crc true],
          exec i s = .next { s with spi := { s.spi with crcErr := true } })
      ∧ (∀ (cmd : BitVec 8) (arg : BitVec 32),
          (cmd = 0 ∨ 5 < cmd.toNat ∨ ((cmd = 1 ∨ cmd = 3) ∧ arg ≠ 0) ∨ (cmd = 2 ∧ (arg = 0 ∨ 4096 < arg.toNat)) ∨ (cmd = 4 ∧ 2 ^ 18 ≤ arg.toNat)
            ∨ (cmd = 5 ∧ 1 < arg.toNat)) →
          exec (.spiUnknownCommand cmd arg) s = .next { s with spi := { s.spi with crcErr := true } })
      ∧ (∀ d : Bytes, d.length = 16 → num d 0 2 = 0x0101 → num d 2 2 = 16 → allZero (d.drop 8) = true → (mbxOf s 0 63).busy = false →
          serving s = true → s.pwr.standby = false → s.pwr.standbyDue = false → modeRefusal 0x0101 s = none → (fnOf s 0).present = true →
        To (.wrMbx 16 d (crc32 d) true) s fun t =>
          t.spi.resp = some (mbxBytes 0x0101 (BitVec.ofNat 32 (num d 4 4)) stOk 0 (identityBody s 0))
            ∧ t = { s with
                spi := { s.spi with resp := t.spi.resp }, mbxs := t.mbxs, free := t.free, link := { s.link with spiSeen := true } })
      ∧ (∀ b : Bytes, s.spi.resp = some b →
        exec .rdMbx s = .next { s with out := s.out ++ [.spi (le 4 b.length ++ b ++ le 4 (crc32 (le 4 b.length ++ b)).toNat)] })
      ∧ (∀ (c d : Bytes × Bytes) (rest : List (Bytes × Bytes)), s.spi.compl = c :: d :: rest → ∀ ack : Bool,
        To (.rdCompl ack) s fun t =>
          t.spi.compl = (if ack && s.spi.shown then d :: rest else c :: d :: rest) ∧ t.spi.shown = true
            ∧ t.out = s.out ++ [.spi (complBytes (if ack && s.spi.shown then d else c)
                ++ le 4 (crc32 (complBytes (if ack && s.spi.shown then d else c))).toNat)]
            ∧ t = { s with spi := { s.spi with compl := t.spi.compl, shown := t.spi.shown }, out := t.out })
      ∧ (∀ (q : Nat) (d : Bytes), q < 2 ^ 18 → 32 ≤ d.length → fetchOpen s = true → submitFull s = false → frameQueue s .spi q = true →
          stage1 s (queueOf s q) (d.take 32) = none → stage2 (d.take 32) (d.drop 32) = none → ingressCharge (d.take 32) ≤ spiFree s →
        To (.spiSubmit (BitVec.ofNat 32 q) d (crc32 d) true) s fun t =>
          (∃ w : Work, t.work.getLast? = some w ∧ w.qix = q ∧ w.ent = d.take 32 ∧ w.src = d.drop 32 ∧ w.stage = .arrived ∧ w.seq = 0)
            ∧ t.work.length = s.work.length + 1 ∧ ((s.cache.getD (q % 8) []).contains q = true → t.work.dropLast = s.work)
            ∧ t.queues = s.queues ∧ t.nv = s.nv ∧ t.spi.crcErr = s.spi.crcErr ∧ t.out = s.out))
    ∧ (usbUp s = true →
      (∀ f : Bytes, num f 0 2 ≠ 3 → f.length < 48 →
        To (.usbSubmit f) s fun t => Notified { s with ev := (event 0x0202 f.length s).ev } t)
      ∧ (∀ f : Bytes, 48 ≤ f.length → submitHeader f = true →
        (s.link.hostPath ≠ some .usb →
          To (.usbSubmit f) s fun t =>
            t = { s with link := { s.link with
              usbOut := s.link.usbOut ++ [usbHeader 2 (num f 4 4) 0 16 ++ slice f 28 4 ++ zeros 6 ++ le 2 stBusyOwned ++ zeros 4] } })
        ∧ (s.link.hostPath = some .usb → frameQueue s .usb (num f 4 4) = true → usbHeldBack s (num f 4 4) (slice f 16 32) = false →
            stage1 s (queueOf s (num f 4 4)) (slice f 16 32) = none → stage2 (slice f 16 32) (f.drop 48) = none →
          To (.usbSubmit f) s fun t =>
            (∃ w : Work, t.work.getLast? = some w ∧ w.qix = num f 4 4 ∧ w.ent = slice f 16 32 ∧ w.src = f.drop 48 ∧ w.stage = .arrived
                ∧ w.seq = 0)
              ∧ t.work.length = s.work.length + 1 ∧ ((s.cache.getD (num f 4 4 % 8) []).contains (num f 4 4) = true → t.work.dropLast = s.work)
              ∧ t.queues = s.queues ∧ t.nv = s.nv ∧ t.link = s.link ∧ t.out = s.out))
      ∧ (∀ (f : Bytes) (m : Nat), f.length = 32 → num f 0 2 = 3 → num f 2 2 = 0 → num f 4 4 = 0 → m = num f 8 2 → m < 63 → num f 10 2 = 0 →
          num f 12 4 = 16 → num f 16 2 = 0x0101 → num f 18 2 = 16 → allZero (f.drop 24) = true → s.link.hostPath = some .usb →
          (mbxOf s 0 m).busy = false → serving s = true → s.pwr.standby = false → s.pwr.standbyDue = false → modeRefusal 0x0101 s = none →
          (fnOf s 0).present = true →
        To (.usbSubmit f) s fun t =>
          t.link.usbMbx.getLast? = some (usbHeader 4 0 m (16 + (identityBody s 0).length)
              ++ mbxBytes 0x0101 (BitVec.ofNat 32 (num f 20 4)) stOk 0 (identityBody s 0))
            ∧ t = { s with
                mbxs := t.mbxs, free := t.free
                link := { s.link with usbMbx := t.link.usbMbx, usbNotify := t.link.usbNotify } }))

/-- TAP_RESET, EXTEST, IDCODE, SAMPLE_PRELOAD, DBG_STATUS, DBG_LOAD, DBG_MEM, DBG_CORE, DBG_TRACE, DBG_OTP, DBG_SCAN and BYPASS (R346,
R367, R370): an instruction that needs no right acts; one whose right is in force acts; one whose right is not selects BYPASS, sets
RIGHT_ERR and does nothing else. A debug access that faults changes neither memory. What trace and scan shift out is open. -/
def Obligations.TapInstructionsNeedTheirRight : Prop :=
  ∀ s : State, tapOn s = true → s.pwr.tapHold = false → quiet s = true →
    (exec .tapReset s = .next { s with dbg := { s.dbg with ir := 1 } })
    ∧ (exec .idcode s = .next { s with dbg := { s.dbg with ir := 1 }, out := s.out ++ [.tdo (le 4 idcodeValue)] })
    ∧ (∀ cells : BitVec 128, To (.samplePreload cells) s fun t =>
        t.dbg = { s.dbg with ir := 2, bscan := cells } ∧ (∃ b : Bytes, b.length = 16 ∧ t.out = s.out ++ [.tdo b])
          ∧ t = { s with dbg := t.dbg, out := t.out, free := s.free + 1 })
    ∧ (∀ u : BitVec 32, exec (.dbgStatus u) s = .next { s with
        dbg := { s.dbg with
          ir := 0x10, gateErr := s.dbg.gateErr && !u.getLsbD 6, rightErr := s.dbg.rightErr && !u.getLsbD 7 }
        out := s.out ++ [.tdo (le 4 (dbgStatusValue s))] })
    ∧ (∀ p : Bytes, mailboxUp s = true → modeRefusal 0x0704 s = none → p.length ≤ 32768 →
        To (.dbgLoad p) s fun t =>
          t.dbg.ir = 0x11
            ∧ match certRefusal p { s with dbg := { s.dbg with ir := 0x11 } } with
              | some (st, det) =>
                t = { s with dbg := { s.dbg with ir := 0x11, loadResult := BitVec.ofNat 4 (
                  if st = stMalformed then (if det = 8 ∧ 24 ≤ p.length then 3 else 2) else if st = stAuthFail then 5
                  else if st = stUnsupported ∧ det = 0 then 4 else 6) } }
              | none => t.dbg.loadResult = 1 ∧ rightsNow t = num p 24 4 % 2 ^ 32)
    ∧ (∀ code : BitVec 8, ((3 ≤ code.toNat ∧ code.toNat ≤ 15) ∨ (0x16 ≤ code.toNat ∧ code.toNat ≤ 0x1F) ∨ 0x30 ≤ code.toNat) →
        exec (.bypass code) s = .next { s with dbg := { s.dbg with ir := 0xFF }, out := s.out ++ [.tdo [0]] })
    ∧ (∀ (mask : Nat) (i : Instr) (w : Bool) (a : BitVec 64) (b : Bytes) (op : CoreOp) (word : Nat) (chain : BitVec 4),
        (mask, i) ∈ [(0x40, Instr.extest), (0x26, .dbgMem w a b), (0x01, .dbgCore op), (0x08, .dbgTrace), (0x80, .dbgOtp word),
          (0x10, .dbgScan chain)] →
        hasRight s mask = false → exec i s = .next { s with dbg := { s.dbg with ir := 0xFF, rightErr := true } })
    ∧ (hasRight s 0x40 = true → served s = true → 
        To .extest s fun t =>
          t.pwr.phase = .flushReset ∧ t.pwr.tapHold = true ∧ resetHeld t.pwr = true ∧ t.dbg.ir = 0 ∧ t.keys = {} ∧ t.work = [])
    ∧ (hasRight s 0x26 = true → ∀ (a : BitVec 64) (b : Bytes), b ≠ [] → ∀ w : Bool,
        let acc : Acc := { host := false, first := a.toNat, last := a.toNat + b.length - 1, kind := if w then 1 else 0, level := 2, colour := 0 }
        (∀ f, judgeDebug s acc = some f →
          To (.dbgMem w a b) s fun t =>
            t.dbg.gateErr = true ∧ t.dram = s.dram ∧ t.nv = s.nv ∧ t.keys = s.keys
              ∧ (w = false → ∃ more, t.out = s.out ++ .tdo (zeros b.length) :: more))
        ∧ (judgeDebug s acc = none → w = false →
          To (.dbgMem w a b) s fun t =>
            t = { s with
              dbg := { s.dbg with ir := 0x12 }, free := s.free + 1
              out := s.out ++ [.tdo ((List.range b.length).map fun k => debugByte s (a.toNat + k))] })
        ∧ (judgeDebug s acc = none → w = true → 2 ^ 32 ≤ a.toNat → (∀ l, (tgetD s.dram l {}).data.length = 64 ∧ (tgetD s.dram l {}).bad = false) →
          To (.dbgMem w a b) s fun t =>
            (∀ k, k < b.length → debugByte t (a.toNat + k) = b.getD k 0)
              ∧ (∀ x, 2 ^ 32 ≤ x → (x < a.toNat ∨ a.toNat + b.length ≤ x) → debugByte t x = debugByte s x)
              ∧ t = { s with dbg := { s.dbg with ir := 0x12 }, dram := t.dram }))
    ∧ (hasRight s 0x01 = true →
        (exec (.dbgCore .halt) s = .next { s with dbg := { s.dbg with ir := 0x13, halted := true } })
        ∧ (exec (.dbgCore .step) s = .next { s with dbg := { s.dbg with ir := 0x13 } })
        ∧ (exec (.dbgCore .resume) s = .next { s with dbg := { s.dbg with ir := 0x13, halted := false } })
        ∧ ∀ n v, To (.dbgCore (.writeReg n v)) s fun t =>
            tget t.dbg.coreRegs n = some v ∧ (∀ k, k ≠ n → tget t.dbg.coreRegs k = tget s.dbg.coreRegs k)
              ∧ t = { s with dbg := { s.dbg with ir := 0x13, coreRegs := t.dbg.coreRegs } }
              ∧ (hasRight t 0x01 = true → To (.dbgCore (.readReg n)) t fun u => u.out = s.out ++ [.tdo (le 8 v.toNat)]))
    ∧ (hasRight s 0x08 = true →
        To .dbgTrace s fun t =>
          (∃ b : Bytes, b.length = 8 ∧ t.out = s.out ++ [.tdo b]) ∧ t = { s with dbg := { s.dbg with ir := 0x14 }, out := t.out, free := s.free + 1 })
    ∧ (hasRight s 0x80 = true → ∀ word,
        exec (.dbgOtp word) s = .next { s with
          dbg := { s.dbg with ir := 0x15 }
          out := s.out ++ [.tdo (le 8 (if (32 ≤ word ∧ word ≤ 81) ∨ 256 ≤ word then 0 else (tgetD s.otp word 0).toNat))] })
    ∧ (hasRight s 0x10 = true → ∀ chain,
        To (.dbgScan chain) s fun t =>
          t.dbg.sealStop = true ∧ t.keys.hot = [] ∧ t.keys.sess = [] ∧ t.keys.sessWrap = 0 ∧ t.keys.saveWrap = 0
            ∧ t.keys.root = s.keys.root ∧ t.otp = s.otp ∧ ∃ b : Bytes, b.length = 16 ∧ t.out = s.out ++ [.tdo b])

/-- DBG_CERT_LOAD and DBG_RIGHTS_EXPIRY (R302, R367 to R369): a chunk is kept; a whole certificate is refused, with nothing changed, or
comes into force with its ranges in G_DBG, a new epoch, its DBG_CERT entry and, with an invasive right, the test root; REVOKE, and the
operating second after OPSEC_LAST, end the rights: G_DBG is invalidated, the epoch advances, halted cores resume, DBG_END is recorded, and
the test root stays. Before that second, and with no certificate, the expiry does nothing; REVOKE with no certificate answers OK. -/
def Obligations.DebugRightsEnd : Prop :=
  ∀ (r : Req) (s : State), quiet s = true → s.gates.length = 21 →
    (∀ p : Bytes, accepts 0x0704 r none s = true → chunkWhole 0x0704 32768 r s = some p →
      (bit (fld r 0 4) 1 = false →
        To (.dbgCertLoad r) s fun t =>
          Answered 0x0704 r stOk 0 [] t ∧ Responded r s t ∧ (mbxOf t r.fn r.mbx).pkg = p ∧ (mbxOf t r.fn r.mbx).pkgOp = 0x0704)
      ∧ (bit (fld r 0 4) 1 = true →
        To (.dbgCertLoad r) s fun t =>
          match certRefusal p s with
          | some (st, det) => Answered 0x0704 r st det [] t ∧ Responded r s t
          | none =>
            ringTakes s = true → s.dbg.cert = none →
              t.dbg.cert = some ⟨BitVec.ofNat 32 (num p 24 4), num p 40 8, BitVec.ofNat 64 (num p 48 8)⟩ ∧ Journalled 0x3A (certEntry p) s t
                ∧ Answered 0x0704 r stOk 0 (slice p 24 4 ++ zeros 4 ++ le 8 t.epoch) t
                ∧ (invasive (num p 24 4) = false → t.epoch = s.epoch + 1 ∧ t.keys = s.keys
                    ∧ (gateOf t gDbg).ents = (List.range (num p 31 1)).map fun i => (i, entryFrom (slice p (64 + 32 * i) 32)))
                ∧ (invasive (num p 24 4) = true → t.keys.testRoot = true)))
    ∧ (∀ c : Cert, s.dbg.cert = some c → c.opsecLast < s.opsec → ringTakes s = true →
      To .dbgRightsExpiry s fun t =>
        t.dbg = { s.dbg with cert := none, halted := false } ∧ (gateOf t gDbg).ents = [] ∧ t.epoch = s.epoch + 1
          ∧ t.keys = s.keys ∧ Journalled 0x3B (le 1 1 ++ zeros 7) s t)
    ∧ ((∀ c : Cert, s.dbg.cert = some c → s.opsec ≤ c.opsecLast) → exec .dbgRightsExpiry s = .next s)
    ∧ (accepts 0x0704 r none s = true → r.body.length = 24 → fld r 0 4 = 6 → fld r 4 4 = 0 → fld r 8 4 = 0 → fld r 12 4 = 0 → fld r 16 8 = 0 →
      (s.dbg.cert = none → To (.dbgCertLoad r) s fun t => Answered 0x0704 r stOk 0 [] t ∧ Responded r s t)
      ∧ (s.dbg.cert.isSome = true → ringTakes s = true →
        To (.dbgCertLoad r) s fun t =>
          t.dbg = { s.dbg with cert := none, halted := false } ∧ (gateOf t gDbg).ents = [] ∧ t.epoch = s.epoch + 1
            ∧ t.keys = s.keys ∧ Journalled 0x3B (le 1 2 ++ zeros 7) s t ∧ Answered 0x0704 r stOk 0 [] t))

/-- EVT_READ, EVT_CLEAR, EVT_SUPPRESSED, DIAG_SCHEDULE, DIAG_HEALTH, PMON_CONFIG, PMON_FREEZE, PMON_CLEAR and PMON_CNT_READ (R413 to
R421): the oldest record from FROM_EVN is returned; a clear that its challenge and signature authorise moves the mark, and the challenge
is consumed either way; suppressed events are summed in two records; a schedule field of zero keeps its value; a counter read latches the
high half. DRAM_UNCORRECTABLE and SCRUB_PERIOD (R326 to R328): an uncorrectable line is counted and reads uncorrectable; the 17th within
3,600 operating seconds is a failure of the DRAM path: fetching stops and unit 0x03 has failed; a scrub that is due and finds no stray
colour counts what it corrected and changes nothing else; one that is not due, or in standby, does nothing. -/
def Obligations.EventsAndMonitorsAnswer : Prop :=
  (∀ (r : Req) (s : State), quiet s = true →
      (∀ (e : EvRec) (n : Nat), accepts 0x0901 r (some 16) s = true → s.ev.buf = [e] → e.evn = n → s.ev.nextEvn = n + 1 → 1 ≤ n → n < 262144 →
        fld r 0 6 = n → fld r 6 2 = 0 → 1 ≤ fld r 8 2 → fld r 8 2 ≤ 253 → fld r 11 1 ≤ 1 → fld r 12 4 = 0 →
        (fld r 11 1 = 1 ∨ s.ev.clear ≤ n) → fld r 10 1 ≤ num e.bytes 2 1 % 8 → bit (num e.bytes 2 1) 4 = false → num e.bytes 0 2 ≠ 0xFFFF →
        Does (.evtRead r) 0x0901 r s (le 8 n ++ le 8 (n + 1) ++ le 2 1 ++ le 2 0 ++ zeros 4 ++ e.bytes) s)
      ∧ (accepts 0x0902 r (some 3469) s = true → slice r.body 0 16 = unitIdBytes → s.ev.clear ≤ fld r 48 8 → fld r 48 8 ≤ s.ev.nextEvn →
          fld r 56 8 = 0 →
        To (.evtClear r) s fun t =>
          t.keys = { s.keys with challenge := none }
            ∧ (if challengeIs s (slice r.body 16 32) && operatorSigned s (slice r.body 0 64) (slice r.body 64 3405) then
                Answered 0x0902 r stOk 0 (le 8 (fld r 48 8)) t ∧ t.ev.clear = fld r 48 8
                  ∧ Responded r { s with keys := t.keys, ev := t.ev, nv := { s.nv with evCtl := t.nv.evCtl } } t
                  ∧ (AB.value t.nv.evCtl {}).clear = fld r 48 8
              else Answered 0x0902 r stAuthFail 0 [] t ∧ Responded r { s with keys := t.keys } t))
      ∧ (∀ code, served s = true → tgetD s.ev.supp code 0 ≠ 0 → tgetD s.ev.suppAt code 0 / 60 < s.opsec / 60 → s.ev.buf.length + 2 ≤ 4096 →
        To (.evtSuppressed code) s fun t =>
          tgetD t.ev.supp code 0 = 0 ∧ t.ev.nextEvn = s.ev.nextEvn + 2 ∧ (∀ c, c ≠ code → tgetD t.ev.supp c 0 = tgetD s.ev.supp c 0)
            ∧ Notified { s with ev := t.ev } t)
      ∧ (accepts 0x0904 r (some 16) s = true → (fld r 0 4 = 0 ∨ 60 ≤ fld r 0 4 ∧ fld r 0 4 ≤ 86400) →
          (fld r 4 4 = 0 ∨ 600 ≤ fld r 4 4 ∧ fld r 4 4 ≤ 86400) → (fld r 8 4 = 0 ∨ 3600 ≤ fld r 8 4 ∧ fld r 8 4 ≤ 86400) → fld r 13 3 = 0 →
        let d : Diag :=
          { lanePer := if fld r 0 4 = 0 then s.diag.lanePer else fld r 0 4
            calPer := if fld r 4 4 = 0 then s.diag.calPer else fld r 4 4
            scrubPer := if fld r 8 4 = 0 then s.diag.scrubPer else fld r 8 4
            rate := if fld r 12 1 = 0 then s.diag.rate else fld r 12 1 }
        Does (.diagSchedule r) 0x0904 r s (le 4 d.lanePer ++ le 4 d.calPer ++ le 4 d.scrubPer ++ le 1 d.rate ++ zeros 3)
          { s with diag := d, nv := { s.nv with diag := AB.update s.nv.diag d } })
      ∧ (accepts 0x0905 r (some 0) s = true → Does (.diagHealth r) 0x0905 r s (healthBody s) s)
      ∧ (accepts 0x0906 r (some 68) s = true → fld r 0 1 ≤ 4 → fld r 1 3 = 0 →
          (fld r 0 1 = 1 → ∀ i, i < 16 → fld r (4 + 4 * i) 4 < 2 ^ 13) →
        To (.pmonConfig r) s fun t =>
          Responded r s t
            ∧ t.pmon.freeze = (if fld r 0 1 = 2 then true else if fld r 0 1 = 3 then false else s.pmon.freeze)
            ∧ t.pmon.sel = (if fld r 0 1 = 1 then (List.range 16).map fun i => BitVec.ofNat 32 (fld r (4 + 4 * i) 4) else s.pmon.sel)
            ∧ (fld r 0 1 = 4 → Answered 0x0906 r stOk 0 (le 4 (b2n s.pmon.freeze) ++ le 4 0 ++ (List.replicate 16 (le 8 0)).flatten) t))
      ∧ (barUp s 0 = true →
        (∀ v, exec (.pmonFreeze v) s = .next { s with pmon := { s.pmon with freeze := v } })
        ∧ (exec .pmonClear s = .next { s with pmon := { s.pmon with cnt := List.replicate 16 0, ovf := 0 } })
        ∧ ∀ n, n < 16 → exec (.pmonCntRead n) s = .next { s with
            pmon := { s.pmon with latch := BitVec.ofNat 32 (s.pmon.cnt.getD n 0 / 2 ^ 32), latchOf := n }
            out := s.out ++ [.reg (s.pmon.cnt.getD n 0 % 2 ^ 32)] }))
    ∧ (∀ (line : Nat) (reader : LineReader) (s : State), served s = true →
      (16 ≤ (s.health.badTimes.filter fun t => s.opsec < t + 3600).length →
        To (.dramUncorrectable line reader) s fun t => t.pwr.fetchOff = true ∧ (0x03, 0) ∈ t.pwr.unitsFailed)
      ∧ (s.tamper.window = [] →
        To (.dramUncorrectable line reader) s fun t =>
          t.health.dramBad = min 65535 (s.health.dramBad + 1) ∧ s.opsec ∈ t.health.badTimes ∧ (tgetD t.dram line {}).bad = true
            ∧ ∀ l, l ≠ line → tget t.dram l = tget s.dram l)
      ∧ (∀ n, s.pwr.standby = false → quiet s = true → s.sched.scrubAt + s.diag.scrubPer ≤ s.opsec →
          (∀ l ∈ s.dram, colour0Region l.1 = true → l.2.colour = 0) →
        To (.scrubPeriod n) s fun t =>
          t = { s with
            pmon := t.pmon, sched := { s.sched with scrubAt := s.opsec }
            health := { s.health with dramCorr := min (2 ^ 32 - 1) (s.health.dramCorr + n) } })
      ∧ ∀ n, (s.pwr.standby = true ∨ s.opsec < s.sched.scrubAt + s.diag.scrubPer) → exec (.scrubPeriod n) s = .next s)

/-- KEY_DERIVE, KEY_IMPORT, KEY_INVALIDATE and KEY_QUERY (R289 to R304, R310 to R315): a derived session key stands at its index with its
secret sealed, and opens to the KDF's value; a derived persistent key has its record and its KEY_CREATE entry; an import chunk is kept, a
bad package or parent is refused, and a whole package, its challenge used up, gives AUTH_FAIL or a key of its kind; an invalidated session
key is gone, an invalidated persistent key's generation is one higher, with a KEY_INVALIDATE entry, and the epoch advances; a query
answers the key's attributes and changes nothing. -/
def Obligations.KeyCommandsAct : Prop :=
  ∀ (r : Req) (s : State), quiet s = true →
    (∀ (p i : Nat) (k : KeyRec), accepts 0x0301 r (some 64) s = true → deriveBad r = none → keyStoreUp s = true →
        findKey s r.fn (fld r 4 4) 0x02 = .key p k →
      (fld r 0 1 = 0x10 → placeSession s (fld r 8 4) = some i → i < 2 ^ 18 → s.keys.wrapSet = true →
        To (.keyDerive r) s fun t =>
          Answered 0x0301 r stOk 0 (le 4 (2 ^ 30 + (sessCount s i + 1) % 4096 * 2 ^ 18 + i) ++ le 4 (fld r 12 4) ++ le 6 0 ++ zeros 2) t
            ∧ (∃ x, tget t.keys.sess i = some x ∧ x.live = true ∧ x.owner = fld r 2 1 ∧ x.parent = p ∧ x.bound = none
                ∧ x.test = s.keys.testRoot ∧ x.keyId = BitVec.ofNat 32 (fld r 12 4))
            ∧ sessSecret t i = some (kdf ((operatorSecret s p).getD []) "FLDERIVE" (be 1 0x10 ++ zeros 3 ++ slice r.body 32 32) 256)
            ∧ sessCount t i = (sessCount s i + 1) % 4096
            ∧ (∀ j, j ≠ i → tget t.keys.sess j = tget s.keys.sess j ∧ sessCount t j = sessCount s j)
            ∧ t.nv = { s.nv with sessCnt := t.nv.sessCnt } ∧ t.queues = s.queues)
      ∧ (fld r 0 1 ≠ 0x10 → (r.fn = 0 ∨ pfKind (fld r 0 1) = false) → keyIdTaken s (fld r 12 4) = false →
          placePersistent s (fld r 8 4) = some i → entryRefusal false s = none → ringTakes s = true → condUp s 1 = true →
        To (.keyDerive r) s fun t =>
          Answered 0x0301 r stOk 0 (le 4 (handleOf s i) ++ le 4 (fld r 12 4) ++ le 6 s.jrn.nextSeq ++ zeros 2) t
            ∧ (∃ rseq x, keyRec t i = .ok rseq x ∧ x.kind = fld r 0 1 ∧ x.owner = fld r 2 1 ∧ x.parent = p ∧ x.gen = genOf s i
                ∧ x.keyId = BitVec.ofNat 32 (fld r 12 4) ∧ x.createSeq = s.jrn.nextSeq)
            ∧ (∀ j, j ≠ i → keyRec t j = keyRec s j) ∧ (∀ j, genOf t j = genOf s j)
            ∧ Journalled 0x30 (le 4 (handleOf s i) ++ le 4 (fld r 12 4) ++ le 1 (fld r 0 1) ++ le 1 0 ++ le 1 (fld r 2 1)
                ++ le 1 (b2n s.keys.testRoot) ++ le 4 (handleOf s p) ++ le 2 0 ++ zeros 6) s t))
    ∧ (∀ p : Bytes, accepts 0x0302 r none s = true → chunkWhole 0x0302 8192 r s = some p →
      (bit (fld r 0 4) 1 = false →
        To (.keyImport r) s fun t =>
          Answered 0x0302 r stOk 0 [] t ∧ Responded r s t ∧ (mbxOf t r.fn r.mbx).pkg = p ∧ (mbxOf t r.fn r.mbx).pkgOp = 0x0302)
      ∧ (∀ off, bit (fld r 0 4) 1 = true → importBad r.fn p = some off →
        To (.keyImport r) s fun t => Answered 0x0302 r stMalformed off [] t ∧ Responded r s t)
      ∧ (∀ st det, bit (fld r 0 4) 1 = true → importBad r.fn p = none → importParent r.fn p s = .error (st, det) →
        To (.keyImport r) s fun t => Answered 0x0302 r st det [] t ∧ Responded r s t)
      ∧ ∀ parent i : Nat, bit (fld r 0 4) 1 = true → importBad r.fn p = none → importParent r.fn p s = .ok parent → pkeUp s = true →
          keyStoreUp s = true →
          (if num p 4 1 = 0x10 then placeSession s (num p 12 4) = some i ∧ i < 2 ^ 18 ∧ s.keys.wrapSet = true
            else placePersistent s (num p 12 4) = some i ∧ keyIdTaken s (num p 16 4) = false ∧ entryRefusal false s = none
              ∧ ringTakes s = true ∧ condUp s 1 = true) →
        To (.keyImport r) s fun t =>
          t.keys.challenge = (if pkgSigned p then none else s.keys.challenge)
            ∧ match (if importSigned s p then importSecret s parent p else none) with
              | none => Answered 0x0302 r stAuthFail 0 [] t ∧ t.keys.sess = s.keys.sess ∧ t.nv = s.nv
              | some secret =>
                if num p 4 1 = 0x10 then
                  Answered 0x0302 r stOk 0 (le 4 (2 ^ 30 + (sessCount s i + 1) % 4096 * 2 ^ 18 + i) ++ le 4 (num p 16 4) ++ le 6 0 ++ zeros 2) t
                    ∧ sessSecret t i = some secret ∧ ∀ j, j ≠ i → tget t.keys.sess j = tget s.keys.sess j
                else
                  Answered 0x0302 r stOk 0 (le 4 (handleOf s i) ++ le 4 (num p 16 4) ++ le 6 s.jrn.nextSeq ++ zeros 2) t
                    ∧ (∃ rseq x, keyRec t i = .ok rseq x ∧ x.kind = num p 4 1 ∧ x.owner = num p 7 1 ∧ x.parent = parent ∧ x.gen = genOf s i
                        ∧ x.keyId = BitVec.ofNat 32 (num p 16 4) ∧ x.users.toNat = num p 20 2 ∧ x.createSeq = s.jrn.nextSeq)
                    ∧ (∀ j, j ≠ i → keyRec t j = keyRec s j)
                    ∧ Journalled 0x30 (le 4 (handleOf s i) ++ le 4 (num p 16 4) ++ le 1 (num p 4 1) ++ le 1 (num p 5 1) ++ le 1 (num p 7 1)
                        ++ le 1 (b2n s.keys.testRoot + 2) ++ le 4 (handleOf s parent) ++ slice p 20 2 ++ zeros 6) s t)
    ∧ (accepts 0x0303 r (some 3461) s = true → fld r 4 4 = 0 → unsignedBad r = none →
      (∀ i, nameOf s (fld r 0 4) = .session i → sessFree s i = false →
        To (.keyInvalidate r) s fun t =>
          tget t.keys.sess i = none ∧ t.epoch = s.epoch + 1 ∧ Answered 0x0303 r stOk 0 (zeros 16 ++ le 8 (s.epoch + 1)) t
            ∧ (∀ j, j ≠ i → tget t.keys.sess j = tget s.keys.sess j) ∧ t.nv = s.nv)
      ∧ (∀ i keyId, nameOf s (fld r 0 4) = .persistent i → 6 ≤ i → invalidTarget s i = some (keyId, false) → genOf s i < 0x3FFFF →
          drawsNeed s i = false → entryRefusal true s = none → ringTakes s = true →
        To (.keyInvalidate r) s fun t =>
          genOf t i = genOf s i + 1 ∧ (∀ j, j ≠ i → genOf t j = genOf s j) ∧ t.epoch = s.epoch + 1
            ∧ (∀ e ∈ t.keys.hot, ∀ c ∈ e.chain, c.1 ≠ i)
            ∧ Journalled 0x31 (le 4 (handleOf s i) ++ le 4 keyId ++ le 4 (genOf s i + 1) ++ le 1 1 ++ zeros 3) s t
            ∧ Answered 0x0303 r stOk 0 (le 4 (genOf s i + 1) ++ zeros 4 ++ le 6 s.jrn.nextSeq ++ zeros 2 ++ le 8 (s.epoch + 1)) t))
    ∧ (accepts 0x0304 r (some 8) s = true → fld r 4 4 = 0 → ∀ i, nameOf s (fld r 0 4) = .persistent i →
      (∀ rseq k, keyRec s i = .ok rseq k → mayUse s r.fn k = true →
        Does (.keyQuery r) 0x0304 r s
          (le 4 (handleOf s i) ++ le 4 k.keyId.toNat ++ le 1 k.kind ++ le 1 (keyState s i) ++ le 1 k.owner ++ le 1 k.flags
            ++ le 4 (k.parentGen % 2 ^ 18 * 4096 + k.parent) ++ le 4 k.gen ++ le 4 k.parentGen ++ le 2 k.users.toNat
            ++ le 2 ((hotSlot s (handleOf s i)).getD 0xFFFF) ++ le 4 (keyUse s (handleOf s i)) ++ le 6 k.createSeq ++ zeros 10) s)
      ∧ (keyRec s i = .blank →
        Does (.keyQuery r) 0x0304 r s
          (le 4 (handleOf s i) ++ zeros 22 ++ le 2 ((hotSlot s (handleOf s i)).getD 0xFFFF) ++ le 4 (keyUse s (handleOf s i)) ++ zeros 16) s))

/-- DEV_PUBKEYS, DEV_CHALLENGE, CHALLENGE_EXPIRY and KEY_IMPORT_TIMEOUT (R302, R316, R360): a device set is answered as the key store
holds it; a challenge is drawn, noted with its second, and answered; after 86,400 operating seconds it is gone; a partial package without
a chunk for 60 operating seconds is discarded. -/
def Obligations.ChallengesAndPackagesExpire : Prop :=
  ∀ (r : Req) (s : State), quiet s = true →
    (accepts 0x0105 r (some 8) s = true → fld r 0 1 < 3 → fld r 1 3 = 0 → fld r 4 4 = 0 → ∀ b, deviceSet s (fld r 0 1) = some b →
      Does (.devPubkeys r) 0x0105 r s b s)
    ∧ (accepts 0x0104 r (some 0) s = true → condUp s 1 = true →
      To (.devChallenge r) s fun t =>
        ∃ c : BitVec 256, t.keys = { s.keys with challenge := some (c, s.opsec) } ∧ t.nv = s.nv
          ∧ Answered 0x0104 r stOk 0 (be 32 c.toNat ++ unitIdBytes ++ le 8 s.opsec ++ le 4 s.pwrCyc ++ le 1 (lcCode s.lc) ++ zeros 3) t)
    ∧ (∀ c at_, s.keys.challenge = some (c, at_) →
      (at_ + 86400 ≤ s.opsec → exec .challengeExpiry s = .next { s with keys := { s.keys with challenge := none } })
      ∧ (s.opsec < at_ + 86400 → exec .challengeExpiry s = .next s))
    ∧ ∀ fn mbx, (mbxOf s fn mbx).pkg ≠ [] →
      ((mbxOf s fn mbx).pkgOpsec + 60 ≤ s.opsec →
        To (.keyImportTimeout fn mbx) s fun t =>
          mbxOf t fn mbx = { mbxOf s fn mbx with pkg := [], pkgOp := 0 } ∧ t = { s with mbxs := t.mbxs }
            ∧ ∀ k, k ≠ 64 * fn + mbx → tget t.mbxs k = tget s.mbxs k)
      ∧ (s.opsec < (mbxOf s fn mbx).pkgOpsec + 60 → exec (.keyImportTimeout fn mbx) s = .next s)

/-- DRAW_SCHEDULE, DRAW_DEFINE_TIMEOUT, DRAW_CLOSE and DRAW_CLOSE_DRAINED (R226 to R229): a first chunk puts the draw into DEFINING, a
definition that is complete opens it with a SCHEDULE entry, and one not continued for 60 operating seconds is removed; a close advances
the epoch, waits for units issued before, and then closes or cancels the draw with its entry. -/
def Obligations.DrawsAreDefinedAndClosed : Prop :=
  ∀ (r : Req) (s : State) (id : Nat), id = fld r 0 4 → quiet s = true →
    (accepts 0x0401 r none s = true → drawOf s id = none → id ≠ 0xFFFFFFFF → fld r 8 4 = 0 → 1 ≤ fld r 12 4 → fld r 12 4 ≤ 4048 →
        fld r 16 8 = 0 → r.body.length = 32 + fld r 12 4 → s.nv.draws.length < 512 → paramBytes s id + fld r 12 4 ≤ 1048576 →
      let d : Draw :=
        { id := BitVec.ofNat 32 id, sigkey := BitVec.ofNat 32 (fld r 24 4), jkey := BitVec.ofNat 32 (fld r 28 4)
          params := r.body.drop 32, opsec := s.opsec }
      (fld r 4 4 = 0 → Does (.drawSchedule r) 0x0401 r s [] { s with nv := { s.nv with draws := s.nv.draws ++ [d] } })
      ∧ (fld r 4 4 = 2 → finalBad s d = none → entryRefusal false s = none → ringTakes s = true →
        To (.drawSchedule r) s fun t =>
          (∃ d', drawOf t id = some d' ∧ d'.st = (if pInstant d.params then .ready else .opened) ∧ d'.params = d.params
              ∧ d'.sigkey = d.sigkey ∧ d'.jkey = d.jkey ∧ d'.lastSeq = s.jrn.nextSeq)
            ∧ (∀ n, n ≠ id → drawOf t n = drawOf s n)
            ∧ Journalled 0x10 (le 4 id ++ le 1 (num d.params 5 1) ++ zeros 3 ++ h384 (sha384 d.params)) s t
            ∧ Answered 0x0401 r stOk 0 (h384 (sha384 d.params) ++ le 6 s.jrn.nextSeq ++ zeros 2) t))
    ∧ (∀ (n : BitVec 32) (d : Draw), drawOf s n.toNat = some d → d.st = .defining → d.opsec + 60 ≤ s.opsec →
      To (.drawDefineTimeout n) s fun t =>
        t = { s with nv := { s.nv with draws := s.nv.draws.filter fun x => x.id ≠ n } } ∧ drawOf t n.toNat = none)
    ∧ (∀ (d : Draw) (cancel : Bool), drawOf s id = some d → d.st = .opened → entryRefusal true s = none →
        accepts 0x0402 r (some 8) s = true → fld r 4 4 = (if cancel then 1 else 0) →
      (drained s (s.epoch + 1) = true → ringTakes s = true →
        To (.drawClose r) s fun t =>
          (∃ d', drawOf t id = some d' ∧ d'.st = (if cancel then .cancelled else .closed) ∧ d'.closeEpoch = s.epoch + 1
              ∧ d'.params = d.params ∧ d'.sold = d.sold ∧ d'.lastSeq = s.jrn.nextSeq)
            ∧ (∀ n, n ≠ id → drawOf t n = drawOf s n) ∧ t.epoch = s.epoch + 1
            ∧ Journalled (if cancel then 0x12 else 0x11) (le 4 d.id.toNat ++ zeros 4 ++ le 8 (s.epoch + 1) ++ le 8 d.sold) s t
            ∧ Answered 0x0402 r stOk 0 (le 6 s.jrn.nextSeq ++ zeros 2 ++ le 8 (s.epoch + 1)) t)
      ∧ (drained s (s.epoch + 1) = false →
        To (.drawClose r) s fun t =>
          Waits 0x0402 r id t ∧ t.epoch = s.epoch + 1 ∧ t.work = s.work
            ∧ ∃ d', drawOf t id = some d' ∧ d'.st = .closing ∧ d'.closing = cancel ∧ d'.closeFrom = .opened ∧ d'.closeEpoch = s.epoch + 1))
    ∧ (∀ (n : BitVec 32) (d : Draw), drawOf s n.toNat = some d → d.st = .closing → drained s d.closeEpoch = true → ringTakes s = true →
      To (.drawCloseDrained n) s fun t =>
        (∃ d', drawOf t n.toNat = some d' ∧ d'.st = (if d.closing then .cancelled else .closed) ∧ d'.params = d.params)
          ∧ (∀ w ∈ t.waiters, ¬(w.op = 0x0402 ∧ w.obj = n.toNat)) ∧ t.epoch = s.epoch
          ∧ Journalled (if d.closing then 0x12 else 0x11) (le 4 d.id.toNat ++ zeros 4 ++ le 8 d.closeEpoch ++ le 8 d.sold) s t)

/-- DRAW_RUN, INSTANT_BATCH, RESERVATION_MARK_RAISE, DRAW_CERT_SIGNED, DRAW_CERT and NB_STATUS (R222, R231 to R244, R248, R282): a run
commits to a seed of 48 bytes by the digest of the commitment block, counts the commit, computes the result from parameters and seed, and
writes COMMIT and RESULT; a mark rises by 4,096 or to K; a certificate is signed once, with its entry, and its parts are answered. -/
def Obligations.DrawsCommitBeforeTheResult : Prop :=
  ∀ (r : Req) (s : State) (id : Nat) (d : Draw), id = fld r 0 4 → drawOf s id = some d → quiet s = true →
    (∀ fails : Nat, fails < 4 → fld r 4 4 = 0 → s.lark.drbgOn = true → condUp s 2 = true → handleActive s d.sigkey 0x13 = true →
        (seedWrap s (keyIndex d.sigkey)).isSome = true → seqReserve s = false → ringTakes s = true → (ctrOf s 5).lost = false →
      let ran := fun (op : Nat) (st : DrawSt) (t : State) =>
        ∃ (seed : Bytes) (d' : Draw), drawOf t id = some d' ∧ seed.length = 48 ∧ d'.st = st
          ∧ d'.commit = sha384 (le 4 0x4D434C46 ++ le 4 d.id.toNat ++ unitIdBytes ++ h384 (sha384 d.params) ++ seed)
          ∧ d'.results = some (drawResult d.params seed)
          ∧ d'.resultDigest = sha384 (resultBytes (drawResult d.params seed))
          ∧ d'.commitSeq = s.jrn.nextSeq ∧ d'.resultSeq = s.jrn.nextSeq + 1 ∧ d'.params = d.params
          ∧ ctrVal t 5 = ctrVal s 5 + 1
          ∧ Journalled 0x13 (le 4 d.id.toNat ++ zeros 4 ++ h384 d'.commit ++ h384 (sha384 d.params)) s t
          ∧ Answered op r stOk 0 (le 6 d'.commitSeq ++ le 6 d'.resultSeq ++ le 4 (pK d.params) ++ h384 d'.resultDigest
              ++ (if op == 0x0403 && decide (pK d.params ≤ 256) then resultBytes (drawResult d.params seed) else [])) t
      (accepts 0x0403 r (some 8) s = true → d.st = .closed → pInstant d.params = false → entryRefusal true s = none →
        To (.drawRun r fails) s (ran 0x0403 .resulted))
      ∧ (accepts 0x0405 r (some 8) s = true → d.st = .ready → pInstant d.params = true → entryRefusal false s = none →
          (freeBatchCtr s).isSome = true →
        To (.instantBatch r fails) s (ran 0x0405 .issuing)))
    ∧ (∀ c, d.ctr = some c → d.st = .issuing → batchMark s d ≤ d.nextIdx → batchMark s d < pK d.params → (ctrOf s c).lost = false →
      To (.reservationMarkRaise (BitVec.ofNat 32 id)) s fun t =>
        (ctrOf t c).live = (ctrOf s c).live / 2 ^ 24 * 2 ^ 24 + min (batchMark s d + 4096) (pK d.params)
          ∧ (∀ n, n ≠ c → ctrOf t n = ctrOf s n) ∧ t = { s with nv := { s.nv with ctrs := t.nv.ctrs } })
    ∧ (∀ seed, seedOf s d = some seed → certDue d = true → pkeUp s = true → tamperHalt s = false → s.pwr.phase = .service →
        ringTakes s = true → s.pwr.standbyDue = false →
      To (.drawCertSigned (BitVec.ofNat 32 id)) s fun t =>
        ∃ (d1 d' : Draw) (sig : Bytes), d1 = { d with issued := if pInstant d.params then batchMark s d else 0 }
          ∧ drawOf t id = some d' ∧ d'.st = .certified ∧ d'.cert = some (certBody s d1 seed ++ sig) ∧ d'.issued = d1.issued
          ∧ d'.results = d.results ∧ d'.lastSeq = s.jrn.nextSeq ∧ (∀ n, n ≠ id → drawOf t n = drawOf s n)
          ∧ Journalled 0x15 (le 4 d.id.toNat ++ zeros 4 ++ h384 (sha384 (certBody s d1 seed))) s t)
    ∧ (∀ part : Bytes, d.st = .certified → accepts 0x0404 r (some 24) s = true → fld r 6 2 = 0 → 1 ≤ fld r 12 4 → fld r 12 4 ≤ 4064 →
        fld r 16 8 = 0 → ((fld r 4 2 = 0 ∧ d.cert = some part) ∨ (fld r 4 2 = 1 ∧ (resultsOf s d).map resultBytes = some part)) →
      Does (.drawCert r) 0x0404 r s
        (le 4 part.length ++ le 4 (slice part (fld r 8 4) (fld r 12 4)).length ++ zeros 8 ++ slice part (fld r 8 4) (fld r 12 4)) s)
    ∧ (accepts 0x0406 r (some 0) s = true → Does (.nbStatus r) 0x0406 r s (nbBody s) s)

/-- LEAF_IN_ORDER, BATCH_TIMEOUT, PAGE_TIMEOUT, PAGE_SEALED and JOURNAL_CHECKPOINT (R253, R254, R259, R263 to R266, R280): the leaf at the
in-order point joins the open batch, which closes at its 4,096th leaf; a leaf with FLG.SYNC, or one that a JOURNAL_SYNC waits for, closes
it and has its page written; a time-out closes the batch or pads the page; a sealed page's entries are DURABLE; a checkpoint, once an
operating second, holds the chain after the last sealed entry. -/
def Obligations.LeavesFoldInSeqOrder : Prop :=
  ∀ s : State, writerOn s = true →
    (∀ l, leafAtPoint s.jrn = some l →
      let sync := bit (num l.desc 1 1) 0 || syncNeeds s l.seq
      let full := decide (4095 ≤ s.jrn.batch.length)
      To .leafInOrder s fun t =>
        (s.jrn.standalone.contains (l.seq + 1) = false → t.jrn.inOrder = l.seq + 1)
          ∧ t.jrn.waiting = s.jrn.waiting.filter (fun x => x.seq ≠ l.seq)
          ∧ (sync = false → full = false → t.jrn.batch = s.jrn.batch ++ [l] ∧ t.nv = s.nv)
          ∧ (sync = false → full = true → ringTakes s = true →
              t.jrn.batch = [] ∧ ∃ e ∈ t.jrn.unsealed ++ t.nv.ring, e.bytes = batchEntry s (s.jrn.batch ++ [l]))
          ∧ (sync = true → ringTakes s = true →
              t.jrn.batch = [] ∧ ∃ e ∈ t.nv.ring, e.bytes = batchEntry s (s.jrn.batch ++ [l])))
    ∧ (s.jrn.batch ≠ [] → ringTakes s = true →
      To .batchTimeout s fun t =>
        t.jrn.batch = [] ∧ t.jrn.nextSeq = s.jrn.nextSeq
          ∧ ∃ e ∈ t.jrn.unsealed ++ t.nv.ring, e.bytes = batchEntry s s.jrn.batch)
    ∧ (To .pageTimeout s fun t =>
        t = { s with jrn := { s.jrn with pending := s.jrn.pending ++ zeros ((248 - s.jrn.pending.length % 248) % 248) } })
    ∧ (248 ≤ s.jrn.pending.length → ringWorks s = true → 1 ≤ freePages s →
      To .pageSealed s fun t =>
        t.nv.lastPseq = s.nv.lastPseq + 1 ∧ t.jrn.pending = s.jrn.pending.drop 248
          ∧ tget t.nv.pages ((s.nv.lastPseq + 1) % 393216) = some (pageOf (s.nv.lastPseq + 1) (s.jrn.pending.take 248))
          ∧ t.nv.ring = s.nv.ring ++ s.jrn.unsealed.filter (fun e => decide (e.pageEnd ≤ s.nv.lastPseq + 1))
          ∧ ∀ e ∈ s.jrn.unsealed, e.pageEnd ≤ s.nv.lastPseq + 1 → ∀ q, e.first ≤ q → q ≤ e.last → durableSeq t.jrn q = true)
    ∧ (ringWorks s = true → s.sched.ckptAt ≠ some s.opsec →
      To .journalCheckpoint s fun t =>
        jctlOf t = { jctlOf s with
            ckPos := s.nv.entryNo + s.nv.ring.length, ckPseq := s.nv.lastPseq, ckChain := chainBefore s s.nv.ring.length }
          ∧ t = { s with
              nv := { s.nv with jctl := t.nv.jctl }, sched := { s.sched with ckptAt := some s.opsec }, pmon := t.pmon })
    ∧ (s.sched.ckptAt = some s.opsec → exec .journalCheckpoint s = .next s)

/-- SEQ_MARK_RAISE, SEQ_RESERVE_POINT, OPSEC_CHECKPOINT, COUNTER_BACK_WRITE and METER_WRITE_BEHIND (R20, R262, R282, R392, R446): the mark
rises by 2^24, never above 2^48 - 2^20; at the reserve point queue entries that hold no SEQ are decided; a through write puts the value
into all three copies, each of which reads as its largest cell (R281), and leaves every other counter alone; a written page equals the
mirror and is no longer dirty, and every other byte stays. -/
def Obligations.CountersAreWrittenThrough : Prop :=
  ∀ s : State,
    let holds := fun (a b : Counter) (v : Nat) =>
      b.c0.value = some (max v (a.c0.value.getD 0)) ∧ b.c1.value = some (max v (a.c1.value.getD 0))
        ∧ b.c2.value = some (max v (a.c2.value.getD 0))
    (writerOn s = true →
      (quiet s = true → (ctrOf s 0).lost = false → seqMark s ≤ s.jrn.nextSeq + 2 ^ 22 → seqMark s < 2 ^ 48 - 2 ^ 20 →
        To .seqMarkRaise s fun t =>
          (let v := min (seqMark s + 2 ^ 24) (2 ^ 48 - 2 ^ 20)
           seqMark t = v ∧ holds (ctrOf s 0) (ctrOf t 0) v)
            ∧ (∀ n, n ≠ 0 → ctrOf t n = ctrOf s n) ∧ Notified { s with nv := { s.nv with ctrs := t.nv.ctrs } } t)
      ∧ (seqReserve s = true → s.jrn.seqOut = false →
        To .seqReservePoint s fun t =>
          t.jrn.seqOut = true ∧ (∀ w ∈ t.work, w.seq = 0 → eOpc w.ent ≠ 0 → w.stage = .done ∨ w.stage = .fetched) ∧ t.nv = s.nv ∧ t.keys = s.keys
            ∧ t.jrn.nextSeq = s.jrn.nextSeq)
      ∧ ((ctrOf s 3).lost = false → s.sched.secondsAt + 3600 ≤ s.opsec →
        To .opsecCheckpoint s fun t =>
          ctrVal t 3 = s.opsec ∧ holds (ctrOf s 3) (ctrOf t 3) s.opsec
            ∧ (∀ n, n ≠ 3 → ctrOf t n = ctrOf s n)
            ∧ t = { s with nv := { s.nv with ctrs := t.nv.ctrs }, sched := { s.sched with secondsAt := s.opsec } })
      ∧ (s.opsec < s.sched.secondsAt + 3600 → exec .opsecCheckpoint s = .next s))
    ∧ (∀ c, powered s = true → s.dirtyCtrs.contains c = true → (ctrOf s c).lost = false →
      To (.counterBackWrite c) s fun t =>
        ctrVal t c = ctrVal s c ∧ holds (ctrOf s c) (ctrOf t c) (ctrVal s c) ∧ (∀ n, n ≠ c → ctrOf t n = ctrOf s n)
          ∧ t.dirtyCtrs = s.dirtyCtrs.filter (· ≠ c)
          ∧ t = { s with
              nv := { s.nv with ctrs := t.nv.ctrs }, dirtyCtrs := t.dirtyCtrs
              meter := { s.meter with forcedBusy := s.meter.forcedBusy && s.dirtyCtrs.head? != some c } })
    ∧ ∀ p, powered s = true → s.meter.dirty.contains p = true →
      To (.meterWriteBehind p) s fun t =>
        mreads t.nv.meter (256 * p) 248 = mreads s.meter.mirror (256 * p) 248
          ∧ (∀ a, a < 256 * p ∨ 256 * p + 248 ≤ a → mread t.nv.meter a = mread s.nv.meter a)
          ∧ tgetD t.nv.meterCnt p 0 = tgetD s.nv.meterCnt p 0 + 1
          ∧ t.meter = { s.meter with dirty := s.meter.dirty.filter (· ≠ p) }
          ∧ t = { s with
              nv := { s.nv with meter := t.nv.meter, meterCnt := t.nv.meterCnt }
              meter := t.meter, pmon := t.pmon }

/-- JOURNAL_STATUS, JOURNAL_QUERY, JOURNAL_SYNC and JOURNAL_CLAIM_TIME (R275 to R277): status and query answer and change nothing; a query
finds the record of a SEQ, or with the highest SEQ of a queue index and HTAG, that its function may find, or says that it holds none; a
sync closes the open batch, writes the pages, and answers DURABLE_SEQ, or waits until the SEQs assigned are DURABLE; a claimed time
becomes a CLAIM entry. JOURNAL_EXPORT and JOURNAL_RECLAIM (R272 to R274): a new segment takes the next number and begins with the entry
asked for, in host memory too where DMA is asked; with nothing left to export the body is zero; bytes of the held segment are returned as
they are, in the response or by DMA; a reclaim that names the held segment writes a RECLAIM entry and gives the entries up to the
segment's last back, and the control record then carries the chain before the oldest entry kept; one that names another is malformed. -/
def Obligations.JournalCommandsAct : Prop :=
  (∀ (r : Req) (s : State), quiet s = true →
      (accepts 0x0501 r (some 0) s = true → Does (.journalStatus r) 0x0501 r s (journalBody s) s)
      ∧ (accepts 0x0502 r (some 24) s = true → fld r 1 3 = 0 → fld r 4 4 < 2 ^ 18 → fld r 12 4 = 0 → fld r 22 2 = 0 →
        let dur := fun l => b2n (s.jrn.cycleFirst > l.seq || durableSeq s.jrn l.seq)
        let found := fun (l : Leaf) => if s.jrn.cycleFirst ≤ l.seq then 1 else 2
        (fld r 0 1 = 1 →
          (∀ l : Leaf, (heldDetail s.jrn).find? (fun l => l.seq == fld r 16 6 && findable r.fn l) = some l →
            Does (.journalQuery r) 0x0502 r s (le 1 (found l) ++ le 1 (dur l) ++ le 2 0 ++ zeros 12 ++ fit 64 (l.desc ++ tagBytes l.leaf)) s)
          ∧ ((heldDetail s.jrn).find? (fun l => l.seq == fld r 16 6 && findable r.fn l) = none →
            Does (.journalQuery r) 0x0502 r s
              (le 1 (if s.work.any fun w => w.inFlight && w.seq == fld r 16 6 && (r.fn == 0 || w.fn == r.fn) then 5
                else if s.jrn.highest < fld r 16 6 then 0 else 3) ++ zeros 79) s))
        ∧ (fld r 0 1 = 0 → ∀ hits, hits = matching r.fn (fld r 4 4) (fld r 8 4) (fld r 16 6) (heldDetail s.jrn) →
          (∀ l : Leaf, highestLeaf hits = some l →
            Does (.journalQuery r) 0x0502 r s
              (le 1 (found l) ++ le 1 (dur l) ++ le 2 (min hits.length 65535) ++ zeros 12 ++ fit 64 (l.desc ++ tagBytes l.leaf)) s)
          ∧ (hits = [] →
            Does (.journalQuery r) 0x0502 r s
              (le 1 (if s.work.any fun w => w.inFlight && w.qix == fld r 4 4 && decide (fld r 16 6 < w.seq) then 5
                else if searchComplete s (fld r 16 6) then 0 else 4) ++ zeros 79) s)))
      ∧ (accepts 0x0505 r (some 0) s = true → ringTakes s = true →
        (s.jrn.nextSeq - 1 ≤ (writePages (closeBatch s)).jrn.durable →
          To (.journalSync r) s fun t =>
            Answered 0x0505 r stOk 0 (le 6 t.jrn.durable ++ zeros 2) t ∧ s.jrn.nextSeq - 1 ≤ t.jrn.durable ∧ t.jrn.batch = []
              ∧ t.jrn.nextSeq = s.jrn.nextSeq)
        ∧ ((writePages (closeBatch s)).jrn.durable < s.jrn.nextSeq - 1 →
          To (.journalSync r) s fun t =>
            Waits 0x0505 r (s.jrn.nextSeq - 1) t ∧ t.jrn.batch = [] ∧ t.jrn.nextSeq = s.jrn.nextSeq
              ∧ (s.jrn.batch ≠ [] → ∃ e ∈ t.nv.ring, e.bytes = batchEntry s s.jrn.batch)))
      ∧ (accepts 0x0506 r (some 16) s = true → entryRefusal false s = none → ringTakes s = true →
        To (.journalClaimTime r) s fun t =>
          Journalled 0x04 r.body s t ∧ Answered 0x0506 r stOk 0 (le 6 s.jrn.nextSeq ++ zeros 2) t))
    ∧ (∀ (r : Req) (s : State), quiet s = true →
      (accepts 0x0503 r (some 32) s = true → exportBad s r = none → (bit (fld r 12 4) 0 = true → r.path = .pcie) →
        (bit (fld r 12 4) 2 = false → ∀ (k : Nat) (e : Entry) (rest : List Entry), exportFrom s (fld r 0 6) = some k →
            s.nv.ring.drop k = e :: rest → 160 + e.bytes.length + 3405 ≤ fld r 8 4 → pkeUp s = true → (journalPair s).isSome = true →
          To (.journalExport r) s fun t =>
            ∃ (g : Segment) (n flags : Nat), t.jrn.seg = some g ∧ g.no = s.jrn.segNo + 1 ∧ t.jrn.segNo = s.jrn.segNo + 1 ∧ g.first = e.first
              ∧ g.pos = s.nv.entryNo + k ∧ slice g.bytes 160 e.bytes.length = e.bytes ∧ t.nv = s.nv ∧ t.jrn.exported = g.last
              ∧ (bit (fld r 12 4) 1 = false → n = 0 ∧ flags = b2n s.keys.testRoot)
              ∧ (bit (fld r 12 4) 0 = false → Answered 0x0503 r stOk 0 (exportBody g n flags) t)
              ∧ (bit (fld r 12 4) 0 = true → (fnOf s r.fn).bme = true → dmaFault r true (fld r 16 8) g.bytes.length s = none →
                  Answered 0x0503 r stOk 0 (exportBody g n flags) t ∧ ∃ o, t.out = (hostWrite r.fn (fld r 16 8) g.bytes s).out ++ o))
        ∧ (bit (fld r 12 4) 2 = false → ∀ k, exportFrom s (fld r 0 6) = some k → s.nv.ring.drop k = [] →
          Does (.journalExport r) 0x0503 r s (zeros 80) s)
        ∧ (bit (fld r 12 4) 2 = true → ∀ g, s.jrn.seg = some g → ∀ b, b = slice g.bytes (fld r 24 4) (fld r 28 4) →
          (bit (fld r 12 4) 0 = false →
            Does (.journalExport r) 0x0503 r s (le 4 g.bytes.length ++ le 4 b.length ++ zeros 8 ++ b) s)
          ∧ (bit (fld r 12 4) 0 = true → (fnOf s r.fn).bme = true → dmaFault r true (fld r 16 8) b.length s = none →
            To (.journalExport r) s fun t =>
              Answered 0x0503 r stOk 0 (le 4 g.bytes.length ++ le 4 b.length ++ zeros 8) t ∧ Responded r s t
                ∧ ∃ o, t.out = (hostWrite r.fn (fld r 16 8) b s).out ++ o)))
      ∧ (accepts 0x0503 r (some 32) s = true → exportBad s r = none → bit (fld r 12 4) 0 = true → r.path ≠ .pcie →
        To (.journalExport r) s fun t => Answered 0x0503 r stUnsupported 0 [] t ∧ Responded r s t)
      ∧ (accepts 0x0504 r (some 56) s = true → ∀ g, s.jrn.seg = some g →
        (g.no = fld r 0 4 → h384 g.digest = slice r.body 8 48 → fld r 4 4 = 0 → g.pos ≤ s.nv.entryNo →
            g.pos + g.nEntries ≤ s.nv.entryNo + s.nv.ring.length → entryRefusal true s = none → ringTakes s = true →
          let n := g.pos + g.nEntries - s.nv.entryNo
          To (.journalReclaim r) s fun t =>
            Journalled 0x06 (le 6 g.last ++ zeros 2 ++ h384 g.digest) s t
              ∧ t.nv.ring.take (s.nv.ring.length - n) = s.nv.ring.drop n ∧ t.nv.entryNo = s.nv.entryNo + n
              ∧ (jctlOf t).oldChain = chainBefore s n ∧ t.jrn.seg = s.jrn.seg
              ∧ Answered 0x0504 r stOk 0
                  (le 4 (keepPage s n - 1 - s.nv.oldestPseq) ++ zeros 4 ++ le 6 s.jrn.nextSeq ++ zeros 2) t)
        ∧ ((g.no ≠ fld r 0 4 ∨ h384 g.digest ≠ slice r.body 8 48) →
          To (.journalReclaim r) s fun t => Answered 0x0504 r stMalformed 16 [] t ∧ Responded r s t)))

/-- RULESET_LOAD, RULESET_QUERY, RULESET_DELETE and RULESET_DRAIN_END (R183, R184): a load stores the set under a new epoch with a RULESET
entry and answers the body's SHA-384, at once or when the ACCEPTs issued before have passed their rule step; a query answers and changes
nothing; a set that no queue names is deleted with its entry, one that a queue names is not; the end of a drain answers the loads that
waited for it. -/
def Obligations.RuleSetCommandsAct : Prop :=
  ∀ (r : Req) (s : State), quiet s = true →
    (∀ id, id = num r.body 0 2 → accepts 0x0601 r none s = true → bodyBad s r.body = none →
        ((ruleSetOf s id).isSome = true ∨ s.nv.ruleSets.length < 128) → entryRefusal false s = none → ringTakes s = true →
      To (.rulesetLoad r) s fun t =>
        ruleSetOf t id = some { ver := num r.body 2 2, body := r.body, since := s.epoch + 1 } ∧ t.epoch = s.epoch + 1
          ∧ (∀ n, n ≠ id → ruleSetOf t n = ruleSetOf s n)
          ∧ Journalled 0x03 (le 2 id ++ le 2 (num r.body 2 2) ++ zeros 4 ++ h384 (sha384 r.body)) s t
          ∧ (s.work.any (ruleStepDue (s.epoch + 1)) = false → Answered 0x0601 r stOk 0 (h384 (sha384 r.body)) t)
          ∧ (s.work.any (ruleStepDue (s.epoch + 1)) = true → Waits 0x0601 r (s.epoch + 1) t ∧ s.epoch + 1 ∈ t.drains))
    ∧ (∀ e, e ∈ s.drains → s.work.any (ruleStepDue e) = false →
      To .rulesetDrainEnd s fun t =>
        e ∉ t.drains ∧ (∀ w ∈ t.waiters, ¬(w.op = 0x0601 ∧ w.obj = e)) ∧ t.nv = s.nv ∧ t.work = s.work
          ∧ (∀ e' ∈ s.drains, s.work.any (ruleStepDue e') = true → e' ∈ t.drains)
          ∧ ∀ w, s.waiters = [w] → w.op = 0x0601 → w.obj = e → w.orphan = false → Answered 0x0601 w.req stOk 0 w.body t)
    ∧ (∀ x, ruleSetOf s (fld r 0 2) = some x → fld r 2 2 = 0 →
      (accepts 0x0602 r (some 4) s = true →
        Does (.rulesetQuery r) 0x0602 r s
          (x.body.take 5 ++ [0] ++ slice x.body 6 2 ++ le 4 (ruleUses s (fld r 0 2)) ++ zeros 4 ++ h384 (sha384 x.body)) s)
      ∧ (accepts 0x0603 r (some 4) s = true →
        (ruleUses s (fld r 0 2) ≠ 0 →
          To (.rulesetDelete r) s fun t => Answered 0x0603 r stBusyOwned 0 [] t ∧ Responded r s t)
        ∧ (ruleUses s (fld r 0 2) = 0 → entryRefusal false s = none → ringTakes s = true →
          To (.rulesetDelete r) s fun t =>
            ruleSetOf t (fld r 0 2) = none ∧ (∀ n, n ≠ fld r 0 2 → ruleSetOf t n = ruleSetOf s n) ∧ t.epoch = s.epoch
              ∧ Journalled 0x03 (le 2 (fld r 0 2) ++ le 2 0 ++ zeros 4 ++ h384 (sha384 x.body)) s t
              ∧ Answered 0x0603 r stOk 0 [] t)))

/-- LC_STATUS, LC_TRANSITION and LC_FLAG_BURN (R352, R354, R357, R361, R363 to R365): status answers and changes nothing; a chunk that is
not the last is kept; a whole package in bad form is malformed; one in good form that is permitted consumes the challenge, and then, where
the signatures verify, burns: a transition its target group, with a reset due, a flag request its flag or its role key; where they do not,
AUTH_FAIL is answered and no OTP word changes. -/
def Obligations.LifeCycleRequestsAct : Prop :=
  ∀ (r : Req) (s : State) (p : Bytes), quiet s = true →
    (accepts 0x0701 r (some 0) s = true → Does (.lcStatus r) 0x0701 r s (lcStatusBody s) s)
    ∧ (accepts 0x0702 r none s = true → chunkWhole 0x0702 32768 r s = some p →
      (bit (fld r 0 4) 1 = false →
        To (.lcTransition r) s fun t =>
          (mbxOf t r.fn r.mbx).pkg = p ∧ (mbxOf t r.fn r.mbx).pkgOp = 0x0702 ∧ (mbxOf t r.fn r.mbx).pkgOpsec = s.opsec
            ∧ Answered 0x0702 r stOk 0 [] t ∧ Responded r s t)
      ∧ (∀ off, bit (fld r 0 4) 1 = true → lcFormBad s false p = some off →
        To (.lcTransition r) s fun t => Answered 0x0702 r stMalformed off [] t ∧ Responded r s t)
      ∧ (∀ need, bit (fld r 0 4) 1 = true → lcFormBad s false p = none → transitionPermit s p = some need →
          transitionRefusal s (num p 6 1) = none → 10000 ≤ s.pwr.vhold →
        To (.lcTransition r) s fun t =>
          t.keys = { s.keys with challenge := none }
            ∧ if lcAuthority s p need then
                t.lcResetDue = true ∧ (∀ k, k < 16 → otpBit t (groupOf (num p 6 1)).1 (4 * k + (groupOf (num p 6 1)).2) = true)
                  ∧ (∃ seq, Answered 0x0702 r stOk 0 (le 1 (num p 6 1) ++ zeros 7 ++ le 6 seq ++ zeros 2) t)
                  ∧ (ringTakes s = true → entryRefusal false s = none → s.lc ≠ .lost →
                      Journalled 0x38 (slice p 4 4 ++ slice p 104 2 ++ zeros 2 ++ h384 (sha384 (p.take (lcSigned p)))) s t)
              else Answered 0x0702 r stAuthFail 0 [] t ∧ t.otp = s.otp ∧ t.lcResetDue = s.lcResetDue ∧ t.nv = s.nv))
    ∧ (accepts 0x0703 r none s = true → chunkWhole 0x0703 32768 r s = some p →
      (bit (fld r 0 4) 1 = false →
        To (.lcFlagBurn r) s fun t =>
          (mbxOf t r.fn r.mbx).pkg = p ∧ (mbxOf t r.fn r.mbx).pkgOp = 0x0703 ∧ (mbxOf t r.fn r.mbx).pkgOpsec = s.opsec
            ∧ Answered 0x0703 r stOk 0 [] t ∧ Responded r s t)
      ∧ (∀ off, bit (fld r 0 4) 1 = true → lcFormBad s true p = some off →
        To (.lcFlagBurn r) s fun t => Answered 0x0703 r stMalformed off [] t ∧ Responded r s t)
      ∧ (∀ need, bit (fld r 0 4) 1 = true → lcFormBad s true p = none → flagPermit s p = some need → entryRefusal false s = none →
          ringTakes s = true →
        To (.lcFlagBurn r) s fun t =>
          t.keys = { s.keys with challenge := none } ∧ t.lcResetDue = s.lcResetDue
            ∧ if lcAuthority s p need then
                Answered 0x0703 r stOk 0 (le 1 (num p 6 1) ++ zeros 7 ++ le 6 s.jrn.nextSeq ++ zeros 2) t
                  ∧ Journalled 0x38 (slice p 4 4 ++ slice p 104 2 ++ zeros 2 ++ h384 (sha384 (p.take (lcSigned p)))) s t
                  ∧ (num p 4 1 = 2 → countersignRequired t = true)
                  ∧ (num p 4 1 = 3 → ∀ key slot, lcNewKey p (num p 6 1) = some key → roleFree s (num p 6 1) = some slot → ∀ i, i < 6 →
                      tgetD t.otp (roleWord (num p 6 1) slot + i) 0
                        = tgetD s.otp (roleWord (num p 6 1) slot + i) 0 ||| BitVec.ofNat 64 (num (h384 (sha384 key)) (8 * i) 8))
              else Answered 0x0703 r stAuthFail 0 [] t ∧ t.otp = s.otp ∧ t.nv = s.nv))

/-- FW_STATUS, FW_WRITE, FW_VERIFY, FW_ACTIVATE and FW_COMMIT (R77, R78, R129, R130): status answers and changes nothing; a write puts its
bytes into the inactive slot, which is then WRITTEN, and no other byte of it or of the other slot changes; a verification judges that slot
and answers its measurement or the first failing check; activation makes a VERIFIED slot the pending one; a commit raises the
anti-rollback counter, makes the trial slot ACTIVE, and answers OK. -/
def Obligations.FirmwareCommandsAct : Prop :=
  ∀ (r : Req) (s : State), quiet s = true →
    (accepts 0x0801 r (some 0) s = true → Does (.fwStatus r) 0x0801 r s (fwStatusBody s) s)
    ∧ (∀ b : Bytes, accepts 0x0802 r none s = true → fld r 4 4 = b.length → 16 ≤ b.length → b.length ≤ 4096 → b.length % 16 = 0 →
        fld r 0 4 % 16 = 0 → fld r 12 4 = 0 → fld r 0 4 + b.length ≤ 8388608 →
        (fld r 8 4 = 0 ∧ fld r 16 8 = 0 ∧ 24 ≤ r.body.length ∧ r.body.drop 24 = b
          ∨ fld r 8 4 = 1 ∧ r.body.length = 24 ∧ r.path = .pcie ∧ r.dma = .data b ∧ (fnOf s r.fn).bme = true
            ∧ dmaFault r false (fld r 16 8) b.length s = none) →
      (slotTaken s = true → To (.fwWrite r) s fun t => Answered 0x0802 r stBusyOwned 0 [] t ∧ Responded r s t)
      ∧ (slotTaken s = false →
        To (.fwWrite r) s fun t =>
          mreads (fwSlot t (inactive s)) (fld r 0 4) (fld r 4 4) = b
            ∧ (∀ a, a < fld r 0 4 ∨ fld r 0 4 + fld r 4 4 ≤ a → mread (fwSlot t (inactive s)) a = mread (fwSlot s (inactive s)) a)
            ∧ fwSlot t (!inactive s) = fwSlot s (!inactive s) ∧ slotState t (inactive s) = .written ∧ bootSel t = bootSel s
            ∧ Answered 0x0802 r stOk 0 [] t))
    ∧ (accepts 0x0803 r (some 0) s = true →
      To (.fwVerify r) s fun t =>
        t.nv = s.nv ∧ (slotState s (inactive s) = .running → t.boot = s.boot) ∧ match imageCheck s (fwSlot s (inactive s)) with
          | none =>
            (slotState s (inactive s) ≠ .running → slotState t (inactive s) = .verified)
              ∧ Answered 0x0803 r stOk 0 (imgMeasure (fwSlot s (inactive s))) t
          | some n =>
            (slotState s (inactive s) ≠ .running → slotState t (inactive s) = .failed ∧ slotCheck t (inactive s) = n)
              ∧ Answered 0x0803 r stMalformed n [] t)
    ∧ (accepts 0x0804 r (some 0) s = true →
      (slotState s (inactive s) = .verified →
        To (.fwActivate r) s fun t =>
          bootSel t = { bootSel s with pend := some (inactive s), trial := false } ∧ Answered 0x0804 r stOk 0 [] t
            ∧ t.nv = { s.nv with bootSel := t.nv.bootSel })
      ∧ (slotState s (inactive s) ≠ .verified →
        To (.fwActivate r) s fun t => Answered 0x0804 r stMalformed 0 [] t ∧ Responded r s t))
    ∧ (accepts 0x0805 r (some 0) s = true →
      (s.boot.mode = .trial → (ctrOf s 4).lost = false →
        To (.fwCommit r) s fun t =>
          rollbackCtr t = max (rollbackCtr s) (imgNum (fwSlot s s.boot.runSlot) 0x0C 4)
            ∧ (rollbackCtr s < rollbackCtr t →
                (ctrOf t 4).c0.value = some (max (rollbackCtr t) ((ctrOf s 4).c0.value.getD 0))
                  ∧ (ctrOf t 4).c1.value = some (max (rollbackCtr t) ((ctrOf s 4).c1.value.getD 0))
                  ∧ (ctrOf t 4).c2.value = some (max (rollbackCtr t) ((ctrOf s 4).c2.value.getD 0)))
            ∧ bootSel t = { active := s.boot.runSlot, pend := none, trial := false } ∧ Answered 0x0805 r stOk 0 [] t)
      ∧ (s.boot.mode ≠ .trial →
        To (.fwCommit r) s fun t => Answered 0x0805 r stUnsupported 0 [] t ∧ Responded r s t))

/-- DEV_IDENTITY, DEV_STATUS, an unknown opcode, DIAG_SELFTEST and COMMAND_WAIT_TIMEOUT (R57, R59, R125 to R127, R183, R209, R229, R277,
R345, R418, R445): identity and status answer and change nothing; an opcode outside the command set answers UNSUPPORTED; a capacitor
measurement is judged and answered at once, a test of a slot, a lane, a bank or a PKE core waits for its end or is deferred, and an
unknown TARGET answers UNSUPPORTED; a command at its bound answers BUSY_OWNED and waits no longer. -/
def Obligations.DeviceCommandsAct : Prop :=
  ∀ (r : Req) (s : State), quiet s = true →
    (accepts 0x0101 r (some 0) s = true → Does (.devIdentity r) 0x0101 r s (identityBody s r.fn) s)
    ∧ (accepts 0x0102 r (some 0) s = true → Does (.devStatus r) 0x0102 r s (devStatusBody s r.fn) s)
    ∧ (∀ op : BitVec 16, opcodeKnown op.toNat = false → takes op.toNat r s = true → headerBad r = none →
      To (.mailboxUnknownOpcode r op) s fun t => Answered op.toNat r stUnsupported 0 [] t ∧ Responded r s t)
    ∧ (∀ c : CapReading, accepts 0x0903 r (some 4) s = true → (fld r 0 1 = 0 ∨ 5 < fld r 0 1) →
      To (.diagSelftest r c) s fun t => Answered 0x0903 r stUnsupported 0 [] t ∧ Responded r s t)
    ∧ (∀ c : CapReading, accepts 0x0903 r (some 4) s = true → fld r 2 1 ≤ 1 → fld r 3 1 = 0 → lanesBusy s = false →
        s.sched.laneTest = none →
      (fld r 0 1 = 5 → fld r 1 1 = 0 → ∀ fail, fail = (decide (capUf ⟨true, c⟩ < 150) || decide (500 < capMohm ⟨true, c⟩)) →
        To (.diagSelftest r c) s fun t =>
          t.pwr.cap = ⟨true, c⟩ ∧ t.pwr.capOpsec = s.opsec ∧ t.pwr.degraded = (s.pwr.degraded || fail)
            ∧ ∃ d, Answered 0x0903 r stOk 0 (le 1 5 ++ le 1 0 ++ le 1 (b2n fail) ++ [0] ++ le 4 d) t)
      ∧ (∀ n, fld r 0 1 = 2 → fld r 1 1 = n → n < 8 → s.lanes.length = 8 →
        ((laneOf s n).st = .off → condUp s 1 = true →
          To (.diagSelftest r c) s fun t => Waits 0x0903 r (2 + 256 * n) t ∧ (laneOf t n).st = .testing ∧ t.nv = s.nv)
        ∧ ((laneOf s n).st = .failed →
          To (.diagSelftest r c) s fun t => Answered 0x0903 r stUnsupported 0 [] t ∧ Responded r s t))
      ∧ (∀ b, fld r 0 1 = 3 → fld r 1 1 = b → b < 3 → s.banks.length = 3 →
        (((bankOf s b).st = .off ∨ (bankOf s b).st = .suspended) →
          To (.diagSelftest r c) s fun t => Waits 0x0903 r (3 + 256 * b) t ∧ (bankOf t b).st = .starting ∧ t.nv = s.nv)
        ∧ ((bankOf s b).st = .serving → bankCalibrating s = false →
          ((2 ≤ othersServing s b ∨ fld r 2 1 = 1) →
            To (.diagSelftest r c) s fun t => Waits 0x0903 r (3 + 256 * b) t ∧ (bankOf t b).st = .calibrating ∧ t.nv = s.nv)
          ∧ (othersServing s b < 2 → fld r 2 1 = 0 →
            To (.diagSelftest r c) s fun t => Answered 0x0903 r stTestDeferred 0 [] t ∧ t.banks = s.banks)))
      ∧ (∀ k, fld r 0 1 = 4 → fld r 1 1 = k → k < 2 → s.pkes.length = 2 → (s.pkes.getD k {}).inService = true →
          (∀ p ∈ s.pkes, p.testing = false) →
        (((s.pkes.getD (1 - k) {}).inService = true ∨ fld r 2 1 = 1) →
          To (.diagSelftest r c) s fun t => Waits 0x0903 r (4 + 256 * k) t ∧ (t.pkes.getD k {}).testing = true)
        ∧ ((s.pkes.getD (1 - k) {}).inService = false → fld r 2 1 = 0 →
          To (.diagSelftest r c) s fun t => Answered 0x0903 r stTestDeferred 0 [] t ∧ t.pkes = s.pkes))
      ∧ (∀ p, fld r 0 1 = 1 → fld r 1 1 = p → p < 3 → (slotOf s p).inService = true →
        (wouldStarve s = true → fld r 2 1 = 0 →
          To (.diagSelftest r c) s fun t => Answered 0x0903 r stTestDeferred 0 [] t ∧ t.slots = s.slots ∧ t.lanes = s.lanes)
        ∧ ((wouldStarve s = false ∨ fld r 2 1 = 1) →
          To (.diagSelftest r c) s fun t =>
            Waits 0x0903 r (1 + 256 * p) t ∧ t.sched.laneTest = some ⟨[(slotOf s p).l0, (slotOf s p).l1], false⟩)))
    ∧ ∀ (w : Waiter) (fn mbx : Nat), s.waiters = [w] → w.req.fn = fn → w.req.mbx = mbx → w.orphan = false →
      (w.op = 0x0402 →
        To (.commandWaitTimeout fn mbx) s fun t => t.waiters = [] ∧ Answered 0x0402 w.req stBusyOwned 0 [] t ∧ Responded w.req { s with waiters := [] } t)
      ∧ (w.op = 0x0601 →
        To (.commandWaitTimeout fn mbx) s fun t => t.waiters = [] ∧ Answered 0x0601 w.req stBusyOwned 0 w.body t ∧ t.drains = s.drains)
      ∧ (w.op = 0x0505 →
        To (.commandWaitTimeout fn mbx) s fun t =>
          t.waiters = [] ∧ Answered 0x0505 w.req stBusyOwned 0 (le 6 s.jrn.durable ++ zeros 2) t)

/-- The first steps of R445, and R84, R85, R121, for every command of the mailbox: a request on a path that does not hold the host role,
or for a mailbox of another path, answers BUSY_OWNED, whatever the mailbox does; one for a mailbox that is BUSY is ignored and sets
OVERRUN; then one whose LEN or reserved header fields are wrong answers MALFORMED with the offset of the first; nothing else changes. -/
def Obligations.RefusedRequestsChangeNothing : Prop :=
  ∀ (i : Instr) (r : Req) (s : State), reqOf i = some r → (∀ op, i = .mailboxUnknownOpcode r op → opcodeKnown op.toNat = false) →
    unreachable r s = false → s.pwr.standby = false → s.pwr.standbyDue = false → quiet s = true →
    (pathOk r s = false →
      To i s fun t =>
        Responded r s t ∧ (mbxOf t r.fn r.mbx).busy = (mbxOf s r.fn r.mbx).busy
          ∧ ((mbxOf s r.fn r.mbx).busy = false → ∃ op, Answered op r stBusyOwned 0 [] t)
          ∧ (r.path = .usb → ∃ op, t.link.usbMbx.getLast? = some (usbHeader 4 0 r.mbx 16 ++ mbxBytes op r.tag stBusyOwned 0 [])))
    ∧ (pathOk r s = true → (mbxOf s r.fn r.mbx).busy = true →
      To i s fun t =>
        mbxOf t r.fn r.mbx = { mbxOf s r.fn r.mbx with overrun := true } ∧ t = { s with mbxs := t.mbxs }
          ∧ ∀ k, k ≠ 64 * r.fn + r.mbx → tget t.mbxs k = tget s.mbxs k)
    ∧ (∀ off, pathOk r s = true → (mbxOf s r.fn r.mbx).busy = false → s.pwr.phase = .service → headerBad r = some off →
      To i s fun t => ∃ op, Answered op r stMalformed off [] t ∧ Responded r s t)
end

