-- ==== Sys2Proof/Laws/State.lean ====
section
/-! SUPPORT. What each basic update of the state leaves in each field: one lemma per field and update, true by unfolding, so that no proof
unfolds a record update. -/

namespace Sys2Proof.Machine

@[simp] theorem count_pending (src fn n : Nat) (s : State) : (count src fn n s).pending = s.pending := rfl
@[simp] theorem count_pwr (src fn n : Nat) (s : State) : (count src fn n s).pwr = s.pwr := rfl
@[simp] theorem count_boot (src fn n : Nat) (s : State) : (count src fn n s).boot = s.boot := rfl
@[simp] theorem count_opsec (src fn n : Nat) (s : State) : (count src fn n s).opsec = s.opsec := rfl
@[simp] theorem count_pwrCyc (src fn n : Nat) (s : State) : (count src fn n s).pwrCyc = s.pwrCyc := rfl
@[simp] theorem count_bootEpoch (src fn n : Nat) (s : State) : (count src fn n s).bootEpoch = s.bootEpoch := rfl
@[simp] theorem count_epochOut (src fn n : Nat) (s : State) : (count src fn n s).epochOut = s.epochOut := rfl
@[simp] theorem count_lc (src fn n : Nat) (s : State) : (count src fn n s).lc = s.lc := rfl
@[simp] theorem count_beneath (src fn n : Nat) (s : State) : (count src fn n s).beneath = s.beneath := rfl
@[simp] theorem count_otp (src fn n : Nat) (s : State) : (count src fn n s).otp = s.otp := rfl
@[simp] theorem count_nv (src fn n : Nat) (s : State) : (count src fn n s).nv = s.nv := rfl
@[simp] theorem count_link (src fn n : Nat) (s : State) : (count src fn n s).link = s.link := rfl
@[simp] theorem count_fns (src fn n : Nat) (s : State) : (count src fn n s).fns = s.fns := rfl
@[simp] theorem count_vecs (src fn n : Nat) (s : State) : (count src fn n s).vecs = s.vecs := rfl
@[simp] theorem count_mbxs (src fn n : Nat) (s : State) : (count src fn n s).mbxs = s.mbxs := rfl
@[simp] theorem count_queues (src fn n : Nat) (s : State) : (count src fn n s).queues = s.queues := rfl
@[simp] theorem count_cache (src fn n : Nat) (s : State) : (count src fn n s).cache = s.cache := rfl
@[simp] theorem count_nonces (src fn n : Nat) (s : State) : (count src fn n s).nonces = s.nonces := rfl
@[simp] theorem count_work (src fn n : Nat) (s : State) : (count src fn n s).work = s.work := rfl
@[simp] theorem count_lanes (src fn n : Nat) (s : State) : (count src fn n s).lanes = s.lanes := rfl
@[simp] theorem count_slots (src fn n : Nat) (s : State) : (count src fn n s).slots = s.slots := rfl
@[simp] theorem count_sched (src fn n : Nat) (s : State) : (count src fn n s).sched = s.sched := rfl
@[simp] theorem count_drains (src fn n : Nat) (s : State) : (count src fn n s).drains = s.drains := rfl
@[simp] theorem count_oldRules (src fn n : Nat) (s : State) : (count src fn n s).oldRules = s.oldRules := rfl
@[simp] theorem count_jrn (src fn n : Nat) (s : State) : (count src fn n s).jrn = s.jrn := rfl
@[simp] theorem count_dirtyCtrs (src fn n : Nat) (s : State) : (count src fn n s).dirtyCtrs = s.dirtyCtrs := rfl
@[simp] theorem count_banks (src fn n : Nat) (s : State) : (count src fn n s).banks = s.banks := rfl
@[simp] theorem count_lark (src fn n : Nat) (s : State) : (count src fn n s).lark = s.lark := rfl
@[simp] theorem count_keys (src fn n : Nat) (s : State) : (count src fn n s).keys = s.keys := rfl
@[simp] theorem count_pkes (src fn n : Nat) (s : State) : (count src fn n s).pkes = s.pkes := rfl
@[simp] theorem count_gates (src fn n : Nat) (s : State) : (count src fn n s).gates = s.gates := rfl
@[simp] theorem count_epoch (src fn n : Nat) (s : State) : (count src fn n s).epoch = s.epoch := rfl
@[simp] theorem count_engine (src fn n : Nat) (s : State) : (count src fn n s).engine = s.engine := rfl
@[simp] theorem count_dram (src fn n : Nat) (s : State) : (count src fn n s).dram = s.dram := rfl
@[simp] theorem count_dbg (src fn n : Nat) (s : State) : (count src fn n s).dbg = s.dbg := rfl
@[simp] theorem count_lcResetDue (src fn n : Nat) (s : State) : (count src fn n s).lcResetDue = s.lcResetDue := rfl
@[simp] theorem count_tamper (src fn n : Nat) (s : State) : (count src fn n s).tamper = s.tamper := rfl
@[simp] theorem count_meter (src fn n : Nat) (s : State) : (count src fn n s).meter = s.meter := rfl
@[simp] theorem count_dgu0 (src fn n : Nat) (s : State) : (count src fn n s).dgu0 = s.dgu0 := rfl
@[simp] theorem count_dgu1 (src fn n : Nat) (s : State) : (count src fn n s).dgu1 = s.dgu1 := rfl
@[simp] theorem count_ev (src fn n : Nat) (s : State) : (count src fn n s).ev = s.ev := rfl
@[simp] theorem count_diag (src fn n : Nat) (s : State) : (count src fn n s).diag = s.diag := rfl
@[simp] theorem count_health (src fn n : Nat) (s : State) : (count src fn n s).health = s.health := rfl
@[simp] theorem count_pmon (src fn n : Nat) (s : State) : (count src fn n s).pmon = s.pmon.count src fn n := rfl
@[simp] theorem count_spi (src fn n : Nat) (s : State) : (count src fn n s).spi = s.spi := rfl
@[simp] theorem count_waiters (src fn n : Nat) (s : State) : (count src fn n s).waiters = s.waiters := rfl
@[simp] theorem count_held (src fn n : Nat) (s : State) : (count src fn n s).held = s.held := rfl
@[simp] theorem count_out (src fn n : Nat) (s : State) : (count src fn n s).out = s.out := rfl
@[simp] theorem count_free (src fn n : Nat) (s : State) : (count src fn n s).free = s.free := rfl

@[simp] theorem drew_pending (s : State) : (drew s).pending = s.pending := rfl
@[simp] theorem drew_pwr (s : State) : (drew s).pwr = s.pwr := rfl
@[simp] theorem drew_boot (s : State) : (drew s).boot = s.boot := rfl
@[simp] theorem drew_opsec (s : State) : (drew s).opsec = s.opsec := rfl
@[simp] theorem drew_pwrCyc (s : State) : (drew s).pwrCyc = s.pwrCyc := rfl
@[simp] theorem drew_bootEpoch (s : State) : (drew s).bootEpoch = s.bootEpoch := rfl
@[simp] theorem drew_epochOut (s : State) : (drew s).epochOut = s.epochOut := rfl
@[simp] theorem drew_lc (s : State) : (drew s).lc = s.lc := rfl
@[simp] theorem drew_beneath (s : State) : (drew s).beneath = s.beneath := rfl
@[simp] theorem drew_otp (s : State) : (drew s).otp = s.otp := rfl
@[simp] theorem drew_nv (s : State) : (drew s).nv = s.nv := rfl
@[simp] theorem drew_link (s : State) : (drew s).link = s.link := rfl
@[simp] theorem drew_fns (s : State) : (drew s).fns = s.fns := rfl
@[simp] theorem drew_vecs (s : State) : (drew s).vecs = s.vecs := rfl
@[simp] theorem drew_mbxs (s : State) : (drew s).mbxs = s.mbxs := rfl
@[simp] theorem drew_queues (s : State) : (drew s).queues = s.queues := rfl
@[simp] theorem drew_cache (s : State) : (drew s).cache = s.cache := rfl
@[simp] theorem drew_nonces (s : State) : (drew s).nonces = s.nonces := rfl
@[simp] theorem drew_work (s : State) : (drew s).work = s.work := rfl
@[simp] theorem drew_lanes (s : State) : (drew s).lanes = s.lanes := rfl
@[simp] theorem drew_slots (s : State) : (drew s).slots = s.slots := rfl
@[simp] theorem drew_sched (s : State) : (drew s).sched = s.sched := rfl
@[simp] theorem drew_drains (s : State) : (drew s).drains = s.drains := rfl
@[simp] theorem drew_oldRules (s : State) : (drew s).oldRules = s.oldRules := rfl
@[simp] theorem drew_jrn (s : State) : (drew s).jrn = s.jrn := rfl
@[simp] theorem drew_dirtyCtrs (s : State) : (drew s).dirtyCtrs = s.dirtyCtrs := rfl
@[simp] theorem drew_banks (s : State) : (drew s).banks = s.banks := rfl
@[simp] theorem drew_lark (s : State) : (drew s).lark = s.lark := rfl
@[simp] theorem drew_keys (s : State) : (drew s).keys = s.keys := rfl
@[simp] theorem drew_pkes (s : State) : (drew s).pkes = s.pkes := rfl
@[simp] theorem drew_gates (s : State) : (drew s).gates = s.gates := rfl
@[simp] theorem drew_epoch (s : State) : (drew s).epoch = s.epoch := rfl
@[simp] theorem drew_engine (s : State) : (drew s).engine = s.engine := rfl
@[simp] theorem drew_dram (s : State) : (drew s).dram = s.dram := rfl
@[simp] theorem drew_dbg (s : State) : (drew s).dbg = s.dbg := rfl
@[simp] theorem drew_lcResetDue (s : State) : (drew s).lcResetDue = s.lcResetDue := rfl
@[simp] theorem drew_tamper (s : State) : (drew s).tamper = s.tamper := rfl
@[simp] theorem drew_meter (s : State) : (drew s).meter = s.meter := rfl
@[simp] theorem drew_dgu0 (s : State) : (drew s).dgu0 = s.dgu0 := rfl
@[simp] theorem drew_dgu1 (s : State) : (drew s).dgu1 = s.dgu1 := rfl
@[simp] theorem drew_ev (s : State) : (drew s).ev = s.ev := rfl
@[simp] theorem drew_diag (s : State) : (drew s).diag = s.diag := rfl
@[simp] theorem drew_health (s : State) : (drew s).health = s.health := rfl
@[simp] theorem drew_pmon (s : State) : (drew s).pmon = s.pmon := rfl
@[simp] theorem drew_spi (s : State) : (drew s).spi = s.spi := rfl
@[simp] theorem drew_waiters (s : State) : (drew s).waiters = s.waiters := rfl
@[simp] theorem drew_held (s : State) : (drew s).held = s.held := rfl
@[simp] theorem drew_out (s : State) : (drew s).out = s.out := rfl
@[simp] theorem drew_free (s : State) : (drew s).free = s.free + 1 := rfl

@[simp] theorem setLive_pending (n v : Nat) (s : State) : (setLive n v s).pending = s.pending := rfl
@[simp] theorem setLive_pwr (n v : Nat) (s : State) : (setLive n v s).pwr = s.pwr := rfl
@[simp] theorem setLive_boot (n v : Nat) (s : State) : (setLive n v s).boot = s.boot := rfl
@[simp] theorem setLive_opsec (n v : Nat) (s : State) : (setLive n v s).opsec = s.opsec := rfl
@[simp] theorem setLive_pwrCyc (n v : Nat) (s : State) : (setLive n v s).pwrCyc = s.pwrCyc := rfl
@[simp] theorem setLive_bootEpoch (n v : Nat) (s : State) : (setLive n v s).bootEpoch = s.bootEpoch := rfl
@[simp] theorem setLive_epochOut (n v : Nat) (s : State) : (setLive n v s).epochOut = s.epochOut := rfl
@[simp] theorem setLive_lc (n v : Nat) (s : State) : (setLive n v s).lc = s.lc := rfl
@[simp] theorem setLive_beneath (n v : Nat) (s : State) : (setLive n v s).beneath = s.beneath := rfl
@[simp] theorem setLive_otp (n v : Nat) (s : State) : (setLive n v s).otp = s.otp := rfl
@[simp] theorem setLive_nv (n v : Nat) (s : State) : (setLive n v s).nv = { s.nv with ctrs := tset s.nv.ctrs n { ctrOf s n with live := v } } := rfl
@[simp] theorem setLive_link (n v : Nat) (s : State) : (setLive n v s).link = s.link := rfl
@[simp] theorem setLive_fns (n v : Nat) (s : State) : (setLive n v s).fns = s.fns := rfl
@[simp] theorem setLive_vecs (n v : Nat) (s : State) : (setLive n v s).vecs = s.vecs := rfl
@[simp] theorem setLive_mbxs (n v : Nat) (s : State) : (setLive n v s).mbxs = s.mbxs := rfl
@[simp] theorem setLive_queues (n v : Nat) (s : State) : (setLive n v s).queues = s.queues := rfl
@[simp] theorem setLive_cache (n v : Nat) (s : State) : (setLive n v s).cache = s.cache := rfl
@[simp] theorem setLive_nonces (n v : Nat) (s : State) : (setLive n v s).nonces = s.nonces := rfl
@[simp] theorem setLive_work (n v : Nat) (s : State) : (setLive n v s).work = s.work := rfl
@[simp] theorem setLive_lanes (n v : Nat) (s : State) : (setLive n v s).lanes = s.lanes := rfl
@[simp] theorem setLive_slots (n v : Nat) (s : State) : (setLive n v s).slots = s.slots := rfl
@[simp] theorem setLive_sched (n v : Nat) (s : State) : (setLive n v s).sched = s.sched := rfl
@[simp] theorem setLive_drains (n v : Nat) (s : State) : (setLive n v s).drains = s.drains := rfl
@[simp] theorem setLive_oldRules (n v : Nat) (s : State) : (setLive n v s).oldRules = s.oldRules := rfl
@[simp] theorem setLive_jrn (n v : Nat) (s : State) : (setLive n v s).jrn = s.jrn := rfl
@[simp] theorem setLive_dirtyCtrs (n v : Nat) (s : State) : (setLive n v s).dirtyCtrs = s.dirtyCtrs := rfl
@[simp] theorem setLive_banks (n v : Nat) (s : State) : (setLive n v s).banks = s.banks := rfl
@[simp] theorem setLive_lark (n v : Nat) (s : State) : (setLive n v s).lark = s.lark := rfl
@[simp] theorem setLive_keys (n v : Nat) (s : State) : (setLive n v s).keys = s.keys := rfl
@[simp] theorem setLive_pkes (n v : Nat) (s : State) : (setLive n v s).pkes = s.pkes := rfl
@[simp] theorem setLive_gates (n v : Nat) (s : State) : (setLive n v s).gates = s.gates := rfl
@[simp] theorem setLive_epoch (n v : Nat) (s : State) : (setLive n v s).epoch = s.epoch := rfl
@[simp] theorem setLive_engine (n v : Nat) (s : State) : (setLive n v s).engine = s.engine := rfl
@[simp] theorem setLive_dram (n v : Nat) (s : State) : (setLive n v s).dram = s.dram := rfl
@[simp] theorem setLive_dbg (n v : Nat) (s : State) : (setLive n v s).dbg = s.dbg := rfl
@[simp] theorem setLive_lcResetDue (n v : Nat) (s : State) : (setLive n v s).lcResetDue = s.lcResetDue := rfl
@[simp] theorem setLive_tamper (n v : Nat) (s : State) : (setLive n v s).tamper = s.tamper := rfl
@[simp] theorem setLive_meter (n v : Nat) (s : State) : (setLive n v s).meter = s.meter := rfl
@[simp] theorem setLive_dgu0 (n v : Nat) (s : State) : (setLive n v s).dgu0 = s.dgu0 := rfl
@[simp] theorem setLive_dgu1 (n v : Nat) (s : State) : (setLive n v s).dgu1 = s.dgu1 := rfl
@[simp] theorem setLive_ev (n v : Nat) (s : State) : (setLive n v s).ev = s.ev := rfl
@[simp] theorem setLive_diag (n v : Nat) (s : State) : (setLive n v s).diag = s.diag := rfl
@[simp] theorem setLive_health (n v : Nat) (s : State) : (setLive n v s).health = s.health := rfl
@[simp] theorem setLive_pmon (n v : Nat) (s : State) : (setLive n v s).pmon = s.pmon := rfl
@[simp] theorem setLive_spi (n v : Nat) (s : State) : (setLive n v s).spi = s.spi := rfl
@[simp] theorem setLive_waiters (n v : Nat) (s : State) : (setLive n v s).waiters = s.waiters := rfl
@[simp] theorem setLive_held (n v : Nat) (s : State) : (setLive n v s).held = s.held := rfl
@[simp] theorem setLive_out (n v : Nat) (s : State) : (setLive n v s).out = s.out := rfl
@[simp] theorem setLive_free (n v : Nat) (s : State) : (setLive n v s).free = s.free := rfl

@[simp] theorem modMbx_pending (f m : Nat) (g : Mbx → Mbx) (s : State) : (modMbx f m g s).pending = s.pending := rfl
@[simp] theorem modMbx_pwr (f m : Nat) (g : Mbx → Mbx) (s : State) : (modMbx f m g s).pwr = s.pwr := rfl
@[simp] theorem modMbx_boot (f m : Nat) (g : Mbx → Mbx) (s : State) : (modMbx f m g s).boot = s.boot := rfl
@[simp] theorem modMbx_opsec (f m : Nat) (g : Mbx → Mbx) (s : State) : (modMbx f m g s).opsec = s.opsec := rfl
@[simp] theorem modMbx_pwrCyc (f m : Nat) (g : Mbx → Mbx) (s : State) : (modMbx f m g s).pwrCyc = s.pwrCyc := rfl
@[simp] theorem modMbx_bootEpoch (f m : Nat) (g : Mbx → Mbx) (s : State) : (modMbx f m g s).bootEpoch = s.bootEpoch := rfl
@[simp] theorem modMbx_epochOut (f m : Nat) (g : Mbx → Mbx) (s : State) : (modMbx f m g s).epochOut = s.epochOut := rfl
@[simp] theorem modMbx_lc (f m : Nat) (g : Mbx → Mbx) (s : State) : (modMbx f m g s).lc = s.lc := rfl
@[simp] theorem modMbx_beneath (f m : Nat) (g : Mbx → Mbx) (s : State) : (modMbx f m g s).beneath = s.beneath := rfl
@[simp] theorem modMbx_otp (f m : Nat) (g : Mbx → Mbx) (s : State) : (modMbx f m g s).otp = s.otp := rfl
@[simp] theorem modMbx_nv (f m : Nat) (g : Mbx → Mbx) (s : State) : (modMbx f m g s).nv = s.nv := rfl
@[simp] theorem modMbx_link (f m : Nat) (g : Mbx → Mbx) (s : State) : (modMbx f m g s).link = s.link := rfl
@[simp] theorem modMbx_fns (f m : Nat) (g : Mbx → Mbx) (s : State) : (modMbx f m g s).fns = s.fns := rfl
@[simp] theorem modMbx_vecs (f m : Nat) (g : Mbx → Mbx) (s : State) : (modMbx f m g s).vecs = s.vecs := rfl
@[simp] theorem modMbx_mbxs (f m : Nat) (g : Mbx → Mbx) (s : State) : (modMbx f m g s).mbxs = tset s.mbxs (64 * f + m) (g (mbxOf s f m)) := rfl
@[simp] theorem modMbx_queues (f m : Nat) (g : Mbx → Mbx) (s : State) : (modMbx f m g s).queues = s.queues := rfl
@[simp] theorem modMbx_cache (f m : Nat) (g : Mbx → Mbx) (s : State) : (modMbx f m g s).cache = s.cache := rfl
@[simp] theorem modMbx_nonces (f m : Nat) (g : Mbx → Mbx) (s : State) : (modMbx f m g s).nonces = s.nonces := rfl
@[simp] theorem modMbx_work (f m : Nat) (g : Mbx → Mbx) (s : State) : (modMbx f m g s).work = s.work := rfl
@[simp] theorem modMbx_lanes (f m : Nat) (g : Mbx → Mbx) (s : State) : (modMbx f m g s).lanes = s.lanes := rfl
@[simp] theorem modMbx_slots (f m : Nat) (g : Mbx → Mbx) (s : State) : (modMbx f m g s).slots = s.slots := rfl
@[simp] theorem modMbx_sched (f m : Nat) (g : Mbx → Mbx) (s : State) : (modMbx f m g s).sched = s.sched := rfl
@[simp] theorem modMbx_drains (f m : Nat) (g : Mbx → Mbx) (s : State) : (modMbx f m g s).drains = s.drains := rfl
@[simp] theorem modMbx_oldRules (f m : Nat) (g : Mbx → Mbx) (s : State) : (modMbx f m g s).oldRules = s.oldRules := rfl
@[simp] theorem modMbx_jrn (f m : Nat) (g : Mbx → Mbx) (s : State) : (modMbx f m g s).jrn = s.jrn := rfl
@[simp] theorem modMbx_dirtyCtrs (f m : Nat) (g : Mbx → Mbx) (s : State) : (modMbx f m g s).dirtyCtrs = s.dirtyCtrs := rfl
@[simp] theorem modMbx_banks (f m : Nat) (g : Mbx → Mbx) (s : State) : (modMbx f m g s).banks = s.banks := rfl
@[simp] theorem modMbx_lark (f m : Nat) (g : Mbx → Mbx) (s : State) : (modMbx f m g s).lark = s.lark := rfl
@[simp] theorem modMbx_keys (f m : Nat) (g : Mbx → Mbx) (s : State) : (modMbx f m g s).keys = s.keys := rfl
@[simp] theorem modMbx_pkes (f m : Nat) (g : Mbx → Mbx) (s : State) : (modMbx f m g s).pkes = s.pkes := rfl
@[simp] theorem modMbx_gates (f m : Nat) (g : Mbx → Mbx) (s : State) : (modMbx f m g s).gates = s.gates := rfl
@[simp] theorem modMbx_epoch (f m : Nat) (g : Mbx → Mbx) (s : State) : (modMbx f m g s).epoch = s.epoch := rfl
@[simp] theorem modMbx_engine (f m : Nat) (g : Mbx → Mbx) (s : State) : (modMbx f m g s).engine = s.engine := rfl
@[simp] theorem modMbx_dram (f m : Nat) (g : Mbx → Mbx) (s : State) : (modMbx f m g s).dram = s.dram := rfl
@[simp] theorem modMbx_dbg (f m : Nat) (g : Mbx → Mbx) (s : State) : (modMbx f m g s).dbg = s.dbg := rfl
@[simp] theorem modMbx_lcResetDue (f m : Nat) (g : Mbx → Mbx) (s : State) : (modMbx f m g s).lcResetDue = s.lcResetDue := rfl
@[simp] theorem modMbx_tamper (f m : Nat) (g : Mbx → Mbx) (s : State) : (modMbx f m g s).tamper = s.tamper := rfl
@[simp] theorem modMbx_meter (f m : Nat) (g : Mbx → Mbx) (s : State) : (modMbx f m g s).meter = s.meter := rfl
@[simp] theorem modMbx_dgu0 (f m : Nat) (g : Mbx → Mbx) (s : State) : (modMbx f m g s).dgu0 = s.dgu0 := rfl
@[simp] theorem modMbx_dgu1 (f m : Nat) (g : Mbx → Mbx) (s : State) : (modMbx f m g s).dgu1 = s.dgu1 := rfl
@[simp] theorem modMbx_ev (f m : Nat) (g : Mbx → Mbx) (s : State) : (modMbx f m g s).ev = s.ev := rfl
@[simp] theorem modMbx_diag (f m : Nat) (g : Mbx → Mbx) (s : State) : (modMbx f m g s).diag = s.diag := rfl
@[simp] theorem modMbx_health (f m : Nat) (g : Mbx → Mbx) (s : State) : (modMbx f m g s).health = s.health := rfl
@[simp] theorem modMbx_pmon (f m : Nat) (g : Mbx → Mbx) (s : State) : (modMbx f m g s).pmon = s.pmon := rfl
@[simp] theorem modMbx_spi (f m : Nat) (g : Mbx → Mbx) (s : State) : (modMbx f m g s).spi = s.spi := rfl
@[simp] theorem modMbx_waiters (f m : Nat) (g : Mbx → Mbx) (s : State) : (modMbx f m g s).waiters = s.waiters := rfl
@[simp] theorem modMbx_held (f m : Nat) (g : Mbx → Mbx) (s : State) : (modMbx f m g s).held = s.held := rfl
@[simp] theorem modMbx_out (f m : Nat) (g : Mbx → Mbx) (s : State) : (modMbx f m g s).out = s.out := rfl
@[simp] theorem modMbx_free (f m : Nat) (g : Mbx → Mbx) (s : State) : (modMbx f m g s).free = s.free := rfl

@[simp] theorem modQueue_pending (q : Nat) (g : Queue → Queue) (s : State) : (modQueue q g s).pending = s.pending := rfl
@[simp] theorem modQueue_pwr (q : Nat) (g : Queue → Queue) (s : State) : (modQueue q g s).pwr = s.pwr := rfl
@[simp] theorem modQueue_boot (q : Nat) (g : Queue → Queue) (s : State) : (modQueue q g s).boot = s.boot := rfl
@[simp] theorem modQueue_opsec (q : Nat) (g : Queue → Queue) (s : State) : (modQueue q g s).opsec = s.opsec := rfl
@[simp] theorem modQueue_pwrCyc (q : Nat) (g : Queue → Queue) (s : State) : (modQueue q g s).pwrCyc = s.pwrCyc := rfl
@[simp] theorem modQueue_bootEpoch (q : Nat) (g : Queue → Queue) (s : State) : (modQueue q g s).bootEpoch = s.bootEpoch := rfl
@[simp] theorem modQueue_epochOut (q : Nat) (g : Queue → Queue) (s : State) : (modQueue q g s).epochOut = s.epochOut := rfl
@[simp] theorem modQueue_lc (q : Nat) (g : Queue → Queue) (s : State) : (modQueue q g s).lc = s.lc := rfl
@[simp] theorem modQueue_beneath (q : Nat) (g : Queue → Queue) (s : State) : (modQueue q g s).beneath = s.beneath := rfl
@[simp] theorem modQueue_otp (q : Nat) (g : Queue → Queue) (s : State) : (modQueue q g s).otp = s.otp := rfl
@[simp] theorem modQueue_nv (q : Nat) (g : Queue → Queue) (s : State) : (modQueue q g s).nv = s.nv := rfl
@[simp] theorem modQueue_link (q : Nat) (g : Queue → Queue) (s : State) : (modQueue q g s).link = s.link := rfl
@[simp] theorem modQueue_fns (q : Nat) (g : Queue → Queue) (s : State) : (modQueue q g s).fns = s.fns := rfl
@[simp] theorem modQueue_vecs (q : Nat) (g : Queue → Queue) (s : State) : (modQueue q g s).vecs = s.vecs := rfl
@[simp] theorem modQueue_mbxs (q : Nat) (g : Queue → Queue) (s : State) : (modQueue q g s).mbxs = s.mbxs := rfl
@[simp] theorem modQueue_queues (q : Nat) (g : Queue → Queue) (s : State) : (modQueue q g s).queues = tset s.queues q (g (queueOf s q)) := rfl
@[simp] theorem modQueue_cache (q : Nat) (g : Queue → Queue) (s : State) : (modQueue q g s).cache = s.cache := rfl
@[simp] theorem modQueue_nonces (q : Nat) (g : Queue → Queue) (s : State) : (modQueue q g s).nonces = s.nonces := rfl
@[simp] theorem modQueue_work (q : Nat) (g : Queue → Queue) (s : State) : (modQueue q g s).work = s.work := rfl
@[simp] theorem modQueue_lanes (q : Nat) (g : Queue → Queue) (s : State) : (modQueue q g s).lanes = s.lanes := rfl
@[simp] theorem modQueue_slots (q : Nat) (g : Queue → Queue) (s : State) : (modQueue q g s).slots = s.slots := rfl
@[simp] theorem modQueue_sched (q : Nat) (g : Queue → Queue) (s : State) : (modQueue q g s).sched = s.sched := rfl
@[simp] theorem modQueue_drains (q : Nat) (g : Queue → Queue) (s : State) : (modQueue q g s).drains = s.drains := rfl
@[simp] theorem modQueue_oldRules (q : Nat) (g : Queue → Queue) (s : State) : (modQueue q g s).oldRules = s.oldRules := rfl
@[simp] theorem modQueue_jrn (q : Nat) (g : Queue → Queue) (s : State) : (modQueue q g s).jrn = s.jrn := rfl
@[simp] theorem modQueue_dirtyCtrs (q : Nat) (g : Queue → Queue) (s : State) : (modQueue q g s).dirtyCtrs = s.dirtyCtrs := rfl
@[simp] theorem modQueue_banks (q : Nat) (g : Queue → Queue) (s : State) : (modQueue q g s).banks = s.banks := rfl
@[simp] theorem modQueue_lark (q : Nat) (g : Queue → Queue) (s : State) : (modQueue q g s).lark = s.lark := rfl
@[simp] theorem modQueue_keys (q : Nat) (g : Queue → Queue) (s : State) : (modQueue q g s).keys = s.keys := rfl
@[simp] theorem modQueue_pkes (q : Nat) (g : Queue → Queue) (s : State) : (modQueue q g s).pkes = s.pkes := rfl
@[simp] theorem modQueue_gates (q : Nat) (g : Queue → Queue) (s : State) : (modQueue q g s).gates = s.gates := rfl
@[simp] theorem modQueue_epoch (q : Nat) (g : Queue → Queue) (s : State) : (modQueue q g s).epoch = s.epoch := rfl
@[simp] theorem modQueue_engine (q : Nat) (g : Queue → Queue) (s : State) : (modQueue q g s).engine = s.engine := rfl
@[simp] theorem modQueue_dram (q : Nat) (g : Queue → Queue) (s : State) : (modQueue q g s).dram = s.dram := rfl
@[simp] theorem modQueue_dbg (q : Nat) (g : Queue → Queue) (s : State) : (modQueue q g s).dbg = s.dbg := rfl
@[simp] theorem modQueue_lcResetDue (q : Nat) (g : Queue → Queue) (s : State) : (modQueue q g s).lcResetDue = s.lcResetDue := rfl
@[simp] theorem modQueue_tamper (q : Nat) (g : Queue → Queue) (s : State) : (modQueue q g s).tamper = s.tamper := rfl
@[simp] theorem modQueue_meter (q : Nat) (g : Queue → Queue) (s : State) : (modQueue q g s).meter = s.meter := rfl
@[simp] theorem modQueue_dgu0 (q : Nat) (g : Queue → Queue) (s : State) : (modQueue q g s).dgu0 = s.dgu0 := rfl
@[simp] theorem modQueue_dgu1 (q : Nat) (g : Queue → Queue) (s : State) : (modQueue q g s).dgu1 = s.dgu1 := rfl
@[simp] theorem modQueue_ev (q : Nat) (g : Queue → Queue) (s : State) : (modQueue q g s).ev = s.ev := rfl
@[simp] theorem modQueue_diag (q : Nat) (g : Queue → Queue) (s : State) : (modQueue q g s).diag = s.diag := rfl
@[simp] theorem modQueue_health (q : Nat) (g : Queue → Queue) (s : State) : (modQueue q g s).health = s.health := rfl
@[simp] theorem modQueue_pmon (q : Nat) (g : Queue → Queue) (s : State) : (modQueue q g s).pmon = s.pmon := rfl
@[simp] theorem modQueue_spi (q : Nat) (g : Queue → Queue) (s : State) : (modQueue q g s).spi = s.spi := rfl
@[simp] theorem modQueue_waiters (q : Nat) (g : Queue → Queue) (s : State) : (modQueue q g s).waiters = s.waiters := rfl
@[simp] theorem modQueue_held (q : Nat) (g : Queue → Queue) (s : State) : (modQueue q g s).held = s.held := rfl
@[simp] theorem modQueue_out (q : Nat) (g : Queue → Queue) (s : State) : (modQueue q g s).out = s.out := rfl
@[simp] theorem modQueue_free (q : Nat) (g : Queue → Queue) (s : State) : (modQueue q g s).free = s.free := rfl

@[simp] theorem modVec_pending (f v : Nat) (g : Vec → Vec) (s : State) : (modVec f v g s).pending = s.pending := rfl
@[simp] theorem modVec_pwr (f v : Nat) (g : Vec → Vec) (s : State) : (modVec f v g s).pwr = s.pwr := rfl
@[simp] theorem modVec_boot (f v : Nat) (g : Vec → Vec) (s : State) : (modVec f v g s).boot = s.boot := rfl
@[simp] theorem modVec_opsec (f v : Nat) (g : Vec → Vec) (s : State) : (modVec f v g s).opsec = s.opsec := rfl
@[simp] theorem modVec_pwrCyc (f v : Nat) (g : Vec → Vec) (s : State) : (modVec f v g s).pwrCyc = s.pwrCyc := rfl
@[simp] theorem modVec_bootEpoch (f v : Nat) (g : Vec → Vec) (s : State) : (modVec f v g s).bootEpoch = s.bootEpoch := rfl
@[simp] theorem modVec_epochOut (f v : Nat) (g : Vec → Vec) (s : State) : (modVec f v g s).epochOut = s.epochOut := rfl
@[simp] theorem modVec_lc (f v : Nat) (g : Vec → Vec) (s : State) : (modVec f v g s).lc = s.lc := rfl
@[simp] theorem modVec_beneath (f v : Nat) (g : Vec → Vec) (s : State) : (modVec f v g s).beneath = s.beneath := rfl
@[simp] theorem modVec_otp (f v : Nat) (g : Vec → Vec) (s : State) : (modVec f v g s).otp = s.otp := rfl
@[simp] theorem modVec_nv (f v : Nat) (g : Vec → Vec) (s : State) : (modVec f v g s).nv = s.nv := rfl
@[simp] theorem modVec_link (f v : Nat) (g : Vec → Vec) (s : State) : (modVec f v g s).link = s.link := rfl
@[simp] theorem modVec_fns (f v : Nat) (g : Vec → Vec) (s : State) : (modVec f v g s).fns = s.fns := rfl
@[simp] theorem modVec_vecs (f v : Nat) (g : Vec → Vec) (s : State) : (modVec f v g s).vecs = tset s.vecs (2048 * f + v) (g (tgetD s.vecs (2048 * f + v) {})) := rfl
@[simp] theorem modVec_mbxs (f v : Nat) (g : Vec → Vec) (s : State) : (modVec f v g s).mbxs = s.mbxs := rfl
@[simp] theorem modVec_queues (f v : Nat) (g : Vec → Vec) (s : State) : (modVec f v g s).queues = s.queues := rfl
@[simp] theorem modVec_cache (f v : Nat) (g : Vec → Vec) (s : State) : (modVec f v g s).cache = s.cache := rfl
@[simp] theorem modVec_nonces (f v : Nat) (g : Vec → Vec) (s : State) : (modVec f v g s).nonces = s.nonces := rfl
@[simp] theorem modVec_work (f v : Nat) (g : Vec → Vec) (s : State) : (modVec f v g s).work = s.work := rfl
@[simp] theorem modVec_lanes (f v : Nat) (g : Vec → Vec) (s : State) : (modVec f v g s).lanes = s.lanes := rfl
@[simp] theorem modVec_slots (f v : Nat) (g : Vec → Vec) (s : State) : (modVec f v g s).slots = s.slots := rfl
@[simp] theorem modVec_sched (f v : Nat) (g : Vec → Vec) (s : State) : (modVec f v g s).sched = s.sched := rfl
@[simp] theorem modVec_drains (f v : Nat) (g : Vec → Vec) (s : State) : (modVec f v g s).drains = s.drains := rfl
@[simp] theorem modVec_oldRules (f v : Nat) (g : Vec → Vec) (s : State) : (modVec f v g s).oldRules = s.oldRules := rfl
@[simp] theorem modVec_jrn (f v : Nat) (g : Vec → Vec) (s : State) : (modVec f v g s).jrn = s.jrn := rfl
@[simp] theorem modVec_dirtyCtrs (f v : Nat) (g : Vec → Vec) (s : State) : (modVec f v g s).dirtyCtrs = s.dirtyCtrs := rfl
@[simp] theorem modVec_banks (f v : Nat) (g : Vec → Vec) (s : State) : (modVec f v g s).banks = s.banks := rfl
@[simp] theorem modVec_lark (f v : Nat) (g : Vec → Vec) (s : State) : (modVec f v g s).lark = s.lark := rfl
@[simp] theorem modVec_keys (f v : Nat) (g : Vec → Vec) (s : State) : (modVec f v g s).keys = s.keys := rfl
@[simp] theorem modVec_pkes (f v : Nat) (g : Vec → Vec) (s : State) : (modVec f v g s).pkes = s.pkes := rfl
@[simp] theorem modVec_gates (f v : Nat) (g : Vec → Vec) (s : State) : (modVec f v g s).gates = s.gates := rfl
@[simp] theorem modVec_epoch (f v : Nat) (g : Vec → Vec) (s : State) : (modVec f v g s).epoch = s.epoch := rfl
@[simp] theorem modVec_engine (f v : Nat) (g : Vec → Vec) (s : State) : (modVec f v g s).engine = s.engine := rfl
@[simp] theorem modVec_dram (f v : Nat) (g : Vec → Vec) (s : State) : (modVec f v g s).dram = s.dram := rfl
@[simp] theorem modVec_dbg (f v : Nat) (g : Vec → Vec) (s : State) : (modVec f v g s).dbg = s.dbg := rfl
@[simp] theorem modVec_lcResetDue (f v : Nat) (g : Vec → Vec) (s : State) : (modVec f v g s).lcResetDue = s.lcResetDue := rfl
@[simp] theorem modVec_tamper (f v : Nat) (g : Vec → Vec) (s : State) : (modVec f v g s).tamper = s.tamper := rfl
@[simp] theorem modVec_meter (f v : Nat) (g : Vec → Vec) (s : State) : (modVec f v g s).meter = s.meter := rfl
@[simp] theorem modVec_dgu0 (f v : Nat) (g : Vec → Vec) (s : State) : (modVec f v g s).dgu0 = s.dgu0 := rfl
@[simp] theorem modVec_dgu1 (f v : Nat) (g : Vec → Vec) (s : State) : (modVec f v g s).dgu1 = s.dgu1 := rfl
@[simp] theorem modVec_ev (f v : Nat) (g : Vec → Vec) (s : State) : (modVec f v g s).ev = s.ev := rfl
@[simp] theorem modVec_diag (f v : Nat) (g : Vec → Vec) (s : State) : (modVec f v g s).diag = s.diag := rfl
@[simp] theorem modVec_health (f v : Nat) (g : Vec → Vec) (s : State) : (modVec f v g s).health = s.health := rfl
@[simp] theorem modVec_pmon (f v : Nat) (g : Vec → Vec) (s : State) : (modVec f v g s).pmon = s.pmon := rfl
@[simp] theorem modVec_spi (f v : Nat) (g : Vec → Vec) (s : State) : (modVec f v g s).spi = s.spi := rfl
@[simp] theorem modVec_waiters (f v : Nat) (g : Vec → Vec) (s : State) : (modVec f v g s).waiters = s.waiters := rfl
@[simp] theorem modVec_held (f v : Nat) (g : Vec → Vec) (s : State) : (modVec f v g s).held = s.held := rfl
@[simp] theorem modVec_out (f v : Nat) (g : Vec → Vec) (s : State) : (modVec f v g s).out = s.out := rfl
@[simp] theorem modVec_free (f v : Nat) (g : Vec → Vec) (s : State) : (modVec f v g s).free = s.free := rfl

@[simp] theorem modLane_pending (n : Nat) (g : Lane → Lane) (s : State) : (modLane n g s).pending = s.pending := rfl
@[simp] theorem modLane_pwr (n : Nat) (g : Lane → Lane) (s : State) : (modLane n g s).pwr = s.pwr := rfl
@[simp] theorem modLane_boot (n : Nat) (g : Lane → Lane) (s : State) : (modLane n g s).boot = s.boot := rfl
@[simp] theorem modLane_opsec (n : Nat) (g : Lane → Lane) (s : State) : (modLane n g s).opsec = s.opsec := rfl
@[simp] theorem modLane_pwrCyc (n : Nat) (g : Lane → Lane) (s : State) : (modLane n g s).pwrCyc = s.pwrCyc := rfl
@[simp] theorem modLane_bootEpoch (n : Nat) (g : Lane → Lane) (s : State) : (modLane n g s).bootEpoch = s.bootEpoch := rfl
@[simp] theorem modLane_epochOut (n : Nat) (g : Lane → Lane) (s : State) : (modLane n g s).epochOut = s.epochOut := rfl
@[simp] theorem modLane_lc (n : Nat) (g : Lane → Lane) (s : State) : (modLane n g s).lc = s.lc := rfl
@[simp] theorem modLane_beneath (n : Nat) (g : Lane → Lane) (s : State) : (modLane n g s).beneath = s.beneath := rfl
@[simp] theorem modLane_otp (n : Nat) (g : Lane → Lane) (s : State) : (modLane n g s).otp = s.otp := rfl
@[simp] theorem modLane_nv (n : Nat) (g : Lane → Lane) (s : State) : (modLane n g s).nv = s.nv := rfl
@[simp] theorem modLane_link (n : Nat) (g : Lane → Lane) (s : State) : (modLane n g s).link = s.link := rfl
@[simp] theorem modLane_fns (n : Nat) (g : Lane → Lane) (s : State) : (modLane n g s).fns = s.fns := rfl
@[simp] theorem modLane_vecs (n : Nat) (g : Lane → Lane) (s : State) : (modLane n g s).vecs = s.vecs := rfl
@[simp] theorem modLane_mbxs (n : Nat) (g : Lane → Lane) (s : State) : (modLane n g s).mbxs = s.mbxs := rfl
@[simp] theorem modLane_queues (n : Nat) (g : Lane → Lane) (s : State) : (modLane n g s).queues = s.queues := rfl
@[simp] theorem modLane_cache (n : Nat) (g : Lane → Lane) (s : State) : (modLane n g s).cache = s.cache := rfl
@[simp] theorem modLane_nonces (n : Nat) (g : Lane → Lane) (s : State) : (modLane n g s).nonces = s.nonces := rfl
@[simp] theorem modLane_work (n : Nat) (g : Lane → Lane) (s : State) : (modLane n g s).work = s.work := rfl
@[simp] theorem modLane_lanes (n : Nat) (g : Lane → Lane) (s : State) : (modLane n g s).lanes = modAt s.lanes n g := rfl
@[simp] theorem modLane_slots (n : Nat) (g : Lane → Lane) (s : State) : (modLane n g s).slots = s.slots := rfl
@[simp] theorem modLane_sched (n : Nat) (g : Lane → Lane) (s : State) : (modLane n g s).sched = s.sched := rfl
@[simp] theorem modLane_drains (n : Nat) (g : Lane → Lane) (s : State) : (modLane n g s).drains = s.drains := rfl
@[simp] theorem modLane_oldRules (n : Nat) (g : Lane → Lane) (s : State) : (modLane n g s).oldRules = s.oldRules := rfl
@[simp] theorem modLane_jrn (n : Nat) (g : Lane → Lane) (s : State) : (modLane n g s).jrn = s.jrn := rfl
@[simp] theorem modLane_dirtyCtrs (n : Nat) (g : Lane → Lane) (s : State) : (modLane n g s).dirtyCtrs = s.dirtyCtrs := rfl
@[simp] theorem modLane_banks (n : Nat) (g : Lane → Lane) (s : State) : (modLane n g s).banks = s.banks := rfl
@[simp] theorem modLane_lark (n : Nat) (g : Lane → Lane) (s : State) : (modLane n g s).lark = s.lark := rfl
@[simp] theorem modLane_keys (n : Nat) (g : Lane → Lane) (s : State) : (modLane n g s).keys = s.keys := rfl
@[simp] theorem modLane_pkes (n : Nat) (g : Lane → Lane) (s : State) : (modLane n g s).pkes = s.pkes := rfl
@[simp] theorem modLane_gates (n : Nat) (g : Lane → Lane) (s : State) : (modLane n g s).gates = s.gates := rfl
@[simp] theorem modLane_epoch (n : Nat) (g : Lane → Lane) (s : State) : (modLane n g s).epoch = s.epoch := rfl
@[simp] theorem modLane_engine (n : Nat) (g : Lane → Lane) (s : State) : (modLane n g s).engine = s.engine := rfl
@[simp] theorem modLane_dram (n : Nat) (g : Lane → Lane) (s : State) : (modLane n g s).dram = s.dram := rfl
@[simp] theorem modLane_dbg (n : Nat) (g : Lane → Lane) (s : State) : (modLane n g s).dbg = s.dbg := rfl
@[simp] theorem modLane_lcResetDue (n : Nat) (g : Lane → Lane) (s : State) : (modLane n g s).lcResetDue = s.lcResetDue := rfl
@[simp] theorem modLane_tamper (n : Nat) (g : Lane → Lane) (s : State) : (modLane n g s).tamper = s.tamper := rfl
@[simp] theorem modLane_meter (n : Nat) (g : Lane → Lane) (s : State) : (modLane n g s).meter = s.meter := rfl
@[simp] theorem modLane_dgu0 (n : Nat) (g : Lane → Lane) (s : State) : (modLane n g s).dgu0 = s.dgu0 := rfl
@[simp] theorem modLane_dgu1 (n : Nat) (g : Lane → Lane) (s : State) : (modLane n g s).dgu1 = s.dgu1 := rfl
@[simp] theorem modLane_ev (n : Nat) (g : Lane → Lane) (s : State) : (modLane n g s).ev = s.ev := rfl
@[simp] theorem modLane_diag (n : Nat) (g : Lane → Lane) (s : State) : (modLane n g s).diag = s.diag := rfl
@[simp] theorem modLane_health (n : Nat) (g : Lane → Lane) (s : State) : (modLane n g s).health = s.health := rfl
@[simp] theorem modLane_pmon (n : Nat) (g : Lane → Lane) (s : State) : (modLane n g s).pmon = s.pmon := rfl
@[simp] theorem modLane_spi (n : Nat) (g : Lane → Lane) (s : State) : (modLane n g s).spi = s.spi := rfl
@[simp] theorem modLane_waiters (n : Nat) (g : Lane → Lane) (s : State) : (modLane n g s).waiters = s.waiters := rfl
@[simp] theorem modLane_held (n : Nat) (g : Lane → Lane) (s : State) : (modLane n g s).held = s.held := rfl
@[simp] theorem modLane_out (n : Nat) (g : Lane → Lane) (s : State) : (modLane n g s).out = s.out := rfl
@[simp] theorem modLane_free (n : Nat) (g : Lane → Lane) (s : State) : (modLane n g s).free = s.free := rfl

@[simp] theorem modSlot_pending (p : Nat) (g : Slot → Slot) (s : State) : (modSlot p g s).pending = s.pending := rfl
@[simp] theorem modSlot_pwr (p : Nat) (g : Slot → Slot) (s : State) : (modSlot p g s).pwr = s.pwr := rfl
@[simp] theorem modSlot_boot (p : Nat) (g : Slot → Slot) (s : State) : (modSlot p g s).boot = s.boot := rfl
@[simp] theorem modSlot_opsec (p : Nat) (g : Slot → Slot) (s : State) : (modSlot p g s).opsec = s.opsec := rfl
@[simp] theorem modSlot_pwrCyc (p : Nat) (g : Slot → Slot) (s : State) : (modSlot p g s).pwrCyc = s.pwrCyc := rfl
@[simp] theorem modSlot_bootEpoch (p : Nat) (g : Slot → Slot) (s : State) : (modSlot p g s).bootEpoch = s.bootEpoch := rfl
@[simp] theorem modSlot_epochOut (p : Nat) (g : Slot → Slot) (s : State) : (modSlot p g s).epochOut = s.epochOut := rfl
@[simp] theorem modSlot_lc (p : Nat) (g : Slot → Slot) (s : State) : (modSlot p g s).lc = s.lc := rfl
@[simp] theorem modSlot_beneath (p : Nat) (g : Slot → Slot) (s : State) : (modSlot p g s).beneath = s.beneath := rfl
@[simp] theorem modSlot_otp (p : Nat) (g : Slot → Slot) (s : State) : (modSlot p g s).otp = s.otp := rfl
@[simp] theorem modSlot_nv (p : Nat) (g : Slot → Slot) (s : State) : (modSlot p g s).nv = s.nv := rfl
@[simp] theorem modSlot_link (p : Nat) (g : Slot → Slot) (s : State) : (modSlot p g s).link = s.link := rfl
@[simp] theorem modSlot_fns (p : Nat) (g : Slot → Slot) (s : State) : (modSlot p g s).fns = s.fns := rfl
@[simp] theorem modSlot_vecs (p : Nat) (g : Slot → Slot) (s : State) : (modSlot p g s).vecs = s.vecs := rfl
@[simp] theorem modSlot_mbxs (p : Nat) (g : Slot → Slot) (s : State) : (modSlot p g s).mbxs = s.mbxs := rfl
@[simp] theorem modSlot_queues (p : Nat) (g : Slot → Slot) (s : State) : (modSlot p g s).queues = s.queues := rfl
@[simp] theorem modSlot_cache (p : Nat) (g : Slot → Slot) (s : State) : (modSlot p g s).cache = s.cache := rfl
@[simp] theorem modSlot_nonces (p : Nat) (g : Slot → Slot) (s : State) : (modSlot p g s).nonces = s.nonces := rfl
@[simp] theorem modSlot_work (p : Nat) (g : Slot → Slot) (s : State) : (modSlot p g s).work = s.work := rfl
@[simp] theorem modSlot_lanes (p : Nat) (g : Slot → Slot) (s : State) : (modSlot p g s).lanes = s.lanes := rfl
@[simp] theorem modSlot_slots (p : Nat) (g : Slot → Slot) (s : State) : (modSlot p g s).slots = modAt s.slots p g := rfl
@[simp] theorem modSlot_sched (p : Nat) (g : Slot → Slot) (s : State) : (modSlot p g s).sched = s.sched := rfl
@[simp] theorem modSlot_drains (p : Nat) (g : Slot → Slot) (s : State) : (modSlot p g s).drains = s.drains := rfl
@[simp] theorem modSlot_oldRules (p : Nat) (g : Slot → Slot) (s : State) : (modSlot p g s).oldRules = s.oldRules := rfl
@[simp] theorem modSlot_jrn (p : Nat) (g : Slot → Slot) (s : State) : (modSlot p g s).jrn = s.jrn := rfl
@[simp] theorem modSlot_dirtyCtrs (p : Nat) (g : Slot → Slot) (s : State) : (modSlot p g s).dirtyCtrs = s.dirtyCtrs := rfl
@[simp] theorem modSlot_banks (p : Nat) (g : Slot → Slot) (s : State) : (modSlot p g s).banks = s.banks := rfl
@[simp] theorem modSlot_lark (p : Nat) (g : Slot → Slot) (s : State) : (modSlot p g s).lark = s.lark := rfl
@[simp] theorem modSlot_keys (p : Nat) (g : Slot → Slot) (s : State) : (modSlot p g s).keys = s.keys := rfl
@[simp] theorem modSlot_pkes (p : Nat) (g : Slot → Slot) (s : State) : (modSlot p g s).pkes = s.pkes := rfl
@[simp] theorem modSlot_gates (p : Nat) (g : Slot → Slot) (s : State) : (modSlot p g s).gates = s.gates := rfl
@[simp] theorem modSlot_epoch (p : Nat) (g : Slot → Slot) (s : State) : (modSlot p g s).epoch = s.epoch := rfl
@[simp] theorem modSlot_engine (p : Nat) (g : Slot → Slot) (s : State) : (modSlot p g s).engine = s.engine := rfl
@[simp] theorem modSlot_dram (p : Nat) (g : Slot → Slot) (s : State) : (modSlot p g s).dram = s.dram := rfl
@[simp] theorem modSlot_dbg (p : Nat) (g : Slot → Slot) (s : State) : (modSlot p g s).dbg = s.dbg := rfl
@[simp] theorem modSlot_lcResetDue (p : Nat) (g : Slot → Slot) (s : State) : (modSlot p g s).lcResetDue = s.lcResetDue := rfl
@[simp] theorem modSlot_tamper (p : Nat) (g : Slot → Slot) (s : State) : (modSlot p g s).tamper = s.tamper := rfl
@[simp] theorem modSlot_meter (p : Nat) (g : Slot → Slot) (s : State) : (modSlot p g s).meter = s.meter := rfl
@[simp] theorem modSlot_dgu0 (p : Nat) (g : Slot → Slot) (s : State) : (modSlot p g s).dgu0 = s.dgu0 := rfl
@[simp] theorem modSlot_dgu1 (p : Nat) (g : Slot → Slot) (s : State) : (modSlot p g s).dgu1 = s.dgu1 := rfl
@[simp] theorem modSlot_ev (p : Nat) (g : Slot → Slot) (s : State) : (modSlot p g s).ev = s.ev := rfl
@[simp] theorem modSlot_diag (p : Nat) (g : Slot → Slot) (s : State) : (modSlot p g s).diag = s.diag := rfl
@[simp] theorem modSlot_health (p : Nat) (g : Slot → Slot) (s : State) : (modSlot p g s).health = s.health := rfl
@[simp] theorem modSlot_pmon (p : Nat) (g : Slot → Slot) (s : State) : (modSlot p g s).pmon = s.pmon := rfl
@[simp] theorem modSlot_spi (p : Nat) (g : Slot → Slot) (s : State) : (modSlot p g s).spi = s.spi := rfl
@[simp] theorem modSlot_waiters (p : Nat) (g : Slot → Slot) (s : State) : (modSlot p g s).waiters = s.waiters := rfl
@[simp] theorem modSlot_held (p : Nat) (g : Slot → Slot) (s : State) : (modSlot p g s).held = s.held := rfl
@[simp] theorem modSlot_out (p : Nat) (g : Slot → Slot) (s : State) : (modSlot p g s).out = s.out := rfl
@[simp] theorem modSlot_free (p : Nat) (g : Slot → Slot) (s : State) : (modSlot p g s).free = s.free := rfl

@[simp] theorem modBank_pending (b : Nat) (g : Bank → Bank) (s : State) : (modBank b g s).pending = s.pending := rfl
@[simp] theorem modBank_pwr (b : Nat) (g : Bank → Bank) (s : State) : (modBank b g s).pwr = s.pwr := rfl
@[simp] theorem modBank_boot (b : Nat) (g : Bank → Bank) (s : State) : (modBank b g s).boot = s.boot := rfl
@[simp] theorem modBank_opsec (b : Nat) (g : Bank → Bank) (s : State) : (modBank b g s).opsec = s.opsec := rfl
@[simp] theorem modBank_pwrCyc (b : Nat) (g : Bank → Bank) (s : State) : (modBank b g s).pwrCyc = s.pwrCyc := rfl
@[simp] theorem modBank_bootEpoch (b : Nat) (g : Bank → Bank) (s : State) : (modBank b g s).bootEpoch = s.bootEpoch := rfl
@[simp] theorem modBank_epochOut (b : Nat) (g : Bank → Bank) (s : State) : (modBank b g s).epochOut = s.epochOut := rfl
@[simp] theorem modBank_lc (b : Nat) (g : Bank → Bank) (s : State) : (modBank b g s).lc = s.lc := rfl
@[simp] theorem modBank_beneath (b : Nat) (g : Bank → Bank) (s : State) : (modBank b g s).beneath = s.beneath := rfl
@[simp] theorem modBank_otp (b : Nat) (g : Bank → Bank) (s : State) : (modBank b g s).otp = s.otp := rfl
@[simp] theorem modBank_nv (b : Nat) (g : Bank → Bank) (s : State) : (modBank b g s).nv = s.nv := rfl
@[simp] theorem modBank_link (b : Nat) (g : Bank → Bank) (s : State) : (modBank b g s).link = s.link := rfl
@[simp] theorem modBank_fns (b : Nat) (g : Bank → Bank) (s : State) : (modBank b g s).fns = s.fns := rfl
@[simp] theorem modBank_vecs (b : Nat) (g : Bank → Bank) (s : State) : (modBank b g s).vecs = s.vecs := rfl
@[simp] theorem modBank_mbxs (b : Nat) (g : Bank → Bank) (s : State) : (modBank b g s).mbxs = s.mbxs := rfl
@[simp] theorem modBank_queues (b : Nat) (g : Bank → Bank) (s : State) : (modBank b g s).queues = s.queues := rfl
@[simp] theorem modBank_cache (b : Nat) (g : Bank → Bank) (s : State) : (modBank b g s).cache = s.cache := rfl
@[simp] theorem modBank_nonces (b : Nat) (g : Bank → Bank) (s : State) : (modBank b g s).nonces = s.nonces := rfl
@[simp] theorem modBank_work (b : Nat) (g : Bank → Bank) (s : State) : (modBank b g s).work = s.work := rfl
@[simp] theorem modBank_lanes (b : Nat) (g : Bank → Bank) (s : State) : (modBank b g s).lanes = s.lanes := rfl
@[simp] theorem modBank_slots (b : Nat) (g : Bank → Bank) (s : State) : (modBank b g s).slots = s.slots := rfl
@[simp] theorem modBank_sched (b : Nat) (g : Bank → Bank) (s : State) : (modBank b g s).sched = s.sched := rfl
@[simp] theorem modBank_drains (b : Nat) (g : Bank → Bank) (s : State) : (modBank b g s).drains = s.drains := rfl
@[simp] theorem modBank_oldRules (b : Nat) (g : Bank → Bank) (s : State) : (modBank b g s).oldRules = s.oldRules := rfl
@[simp] theorem modBank_jrn (b : Nat) (g : Bank → Bank) (s : State) : (modBank b g s).jrn = s.jrn := rfl
@[simp] theorem modBank_dirtyCtrs (b : Nat) (g : Bank → Bank) (s : State) : (modBank b g s).dirtyCtrs = s.dirtyCtrs := rfl
@[simp] theorem modBank_banks (b : Nat) (g : Bank → Bank) (s : State) : (modBank b g s).banks = modAt s.banks b g := rfl
@[simp] theorem modBank_lark (b : Nat) (g : Bank → Bank) (s : State) : (modBank b g s).lark = s.lark := rfl
@[simp] theorem modBank_keys (b : Nat) (g : Bank → Bank) (s : State) : (modBank b g s).keys = s.keys := rfl
@[simp] theorem modBank_pkes (b : Nat) (g : Bank → Bank) (s : State) : (modBank b g s).pkes = s.pkes := rfl
@[simp] theorem modBank_gates (b : Nat) (g : Bank → Bank) (s : State) : (modBank b g s).gates = s.gates := rfl
@[simp] theorem modBank_epoch (b : Nat) (g : Bank → Bank) (s : State) : (modBank b g s).epoch = s.epoch := rfl
@[simp] theorem modBank_engine (b : Nat) (g : Bank → Bank) (s : State) : (modBank b g s).engine = s.engine := rfl
@[simp] theorem modBank_dram (b : Nat) (g : Bank → Bank) (s : State) : (modBank b g s).dram = s.dram := rfl
@[simp] theorem modBank_dbg (b : Nat) (g : Bank → Bank) (s : State) : (modBank b g s).dbg = s.dbg := rfl
@[simp] theorem modBank_lcResetDue (b : Nat) (g : Bank → Bank) (s : State) : (modBank b g s).lcResetDue = s.lcResetDue := rfl
@[simp] theorem modBank_tamper (b : Nat) (g : Bank → Bank) (s : State) : (modBank b g s).tamper = s.tamper := rfl
@[simp] theorem modBank_meter (b : Nat) (g : Bank → Bank) (s : State) : (modBank b g s).meter = s.meter := rfl
@[simp] theorem modBank_dgu0 (b : Nat) (g : Bank → Bank) (s : State) : (modBank b g s).dgu0 = s.dgu0 := rfl
@[simp] theorem modBank_dgu1 (b : Nat) (g : Bank → Bank) (s : State) : (modBank b g s).dgu1 = s.dgu1 := rfl
@[simp] theorem modBank_ev (b : Nat) (g : Bank → Bank) (s : State) : (modBank b g s).ev = s.ev := rfl
@[simp] theorem modBank_diag (b : Nat) (g : Bank → Bank) (s : State) : (modBank b g s).diag = s.diag := rfl
@[simp] theorem modBank_health (b : Nat) (g : Bank → Bank) (s : State) : (modBank b g s).health = s.health := rfl
@[simp] theorem modBank_pmon (b : Nat) (g : Bank → Bank) (s : State) : (modBank b g s).pmon = s.pmon := rfl
@[simp] theorem modBank_spi (b : Nat) (g : Bank → Bank) (s : State) : (modBank b g s).spi = s.spi := rfl
@[simp] theorem modBank_waiters (b : Nat) (g : Bank → Bank) (s : State) : (modBank b g s).waiters = s.waiters := rfl
@[simp] theorem modBank_held (b : Nat) (g : Bank → Bank) (s : State) : (modBank b g s).held = s.held := rfl
@[simp] theorem modBank_out (b : Nat) (g : Bank → Bank) (s : State) : (modBank b g s).out = s.out := rfl
@[simp] theorem modBank_free (b : Nat) (g : Bank → Bank) (s : State) : (modBank b g s).free = s.free := rfl

@[simp] theorem modDraw_pending (id : Nat) (g : Draw → Draw) (s : State) : (modDraw id g s).pending = s.pending := rfl
@[simp] theorem modDraw_pwr (id : Nat) (g : Draw → Draw) (s : State) : (modDraw id g s).pwr = s.pwr := rfl
@[simp] theorem modDraw_boot (id : Nat) (g : Draw → Draw) (s : State) : (modDraw id g s).boot = s.boot := rfl
@[simp] theorem modDraw_opsec (id : Nat) (g : Draw → Draw) (s : State) : (modDraw id g s).opsec = s.opsec := rfl
@[simp] theorem modDraw_pwrCyc (id : Nat) (g : Draw → Draw) (s : State) : (modDraw id g s).pwrCyc = s.pwrCyc := rfl
@[simp] theorem modDraw_bootEpoch (id : Nat) (g : Draw → Draw) (s : State) : (modDraw id g s).bootEpoch = s.bootEpoch := rfl
@[simp] theorem modDraw_epochOut (id : Nat) (g : Draw → Draw) (s : State) : (modDraw id g s).epochOut = s.epochOut := rfl
@[simp] theorem modDraw_lc (id : Nat) (g : Draw → Draw) (s : State) : (modDraw id g s).lc = s.lc := rfl
@[simp] theorem modDraw_beneath (id : Nat) (g : Draw → Draw) (s : State) : (modDraw id g s).beneath = s.beneath := rfl
@[simp] theorem modDraw_otp (id : Nat) (g : Draw → Draw) (s : State) : (modDraw id g s).otp = s.otp := rfl
@[simp] theorem modDraw_nv (id : Nat) (g : Draw → Draw) (s : State) : (modDraw id g s).nv = { s.nv with draws := s.nv.draws.map fun d => if d.id.toNat = id then g d else d } := rfl
@[simp] theorem modDraw_link (id : Nat) (g : Draw → Draw) (s : State) : (modDraw id g s).link = s.link := rfl
@[simp] theorem modDraw_fns (id : Nat) (g : Draw → Draw) (s : State) : (modDraw id g s).fns = s.fns := rfl
@[simp] theorem modDraw_vecs (id : Nat) (g : Draw → Draw) (s : State) : (modDraw id g s).vecs = s.vecs := rfl
@[simp] theorem modDraw_mbxs (id : Nat) (g : Draw → Draw) (s : State) : (modDraw id g s).mbxs = s.mbxs := rfl
@[simp] theorem modDraw_queues (id : Nat) (g : Draw → Draw) (s : State) : (modDraw id g s).queues = s.queues := rfl
@[simp] theorem modDraw_cache (id : Nat) (g : Draw → Draw) (s : State) : (modDraw id g s).cache = s.cache := rfl
@[simp] theorem modDraw_nonces (id : Nat) (g : Draw → Draw) (s : State) : (modDraw id g s).nonces = s.nonces := rfl
@[simp] theorem modDraw_work (id : Nat) (g : Draw → Draw) (s : State) : (modDraw id g s).work = s.work := rfl
@[simp] theorem modDraw_lanes (id : Nat) (g : Draw → Draw) (s : State) : (modDraw id g s).lanes = s.lanes := rfl
@[simp] theorem modDraw_slots (id : Nat) (g : Draw → Draw) (s : State) : (modDraw id g s).slots = s.slots := rfl
@[simp] theorem modDraw_sched (id : Nat) (g : Draw → Draw) (s : State) : (modDraw id g s).sched = s.sched := rfl
@[simp] theorem modDraw_drains (id : Nat) (g : Draw → Draw) (s : State) : (modDraw id g s).drains = s.drains := rfl
@[simp] theorem modDraw_oldRules (id : Nat) (g : Draw → Draw) (s : State) : (modDraw id g s).oldRules = s.oldRules := rfl
@[simp] theorem modDraw_jrn (id : Nat) (g : Draw → Draw) (s : State) : (modDraw id g s).jrn = s.jrn := rfl
@[simp] theorem modDraw_dirtyCtrs (id : Nat) (g : Draw → Draw) (s : State) : (modDraw id g s).dirtyCtrs = s.dirtyCtrs := rfl
@[simp] theorem modDraw_banks (id : Nat) (g : Draw → Draw) (s : State) : (modDraw id g s).banks = s.banks := rfl
@[simp] theorem modDraw_lark (id : Nat) (g : Draw → Draw) (s : State) : (modDraw id g s).lark = s.lark := rfl
@[simp] theorem modDraw_keys (id : Nat) (g : Draw → Draw) (s : State) : (modDraw id g s).keys = s.keys := rfl
@[simp] theorem modDraw_pkes (id : Nat) (g : Draw → Draw) (s : State) : (modDraw id g s).pkes = s.pkes := rfl
@[simp] theorem modDraw_gates (id : Nat) (g : Draw → Draw) (s : State) : (modDraw id g s).gates = s.gates := rfl
@[simp] theorem modDraw_epoch (id : Nat) (g : Draw → Draw) (s : State) : (modDraw id g s).epoch = s.epoch := rfl
@[simp] theorem modDraw_engine (id : Nat) (g : Draw → Draw) (s : State) : (modDraw id g s).engine = s.engine := rfl
@[simp] theorem modDraw_dram (id : Nat) (g : Draw → Draw) (s : State) : (modDraw id g s).dram = s.dram := rfl
@[simp] theorem modDraw_dbg (id : Nat) (g : Draw → Draw) (s : State) : (modDraw id g s).dbg = s.dbg := rfl
@[simp] theorem modDraw_lcResetDue (id : Nat) (g : Draw → Draw) (s : State) : (modDraw id g s).lcResetDue = s.lcResetDue := rfl
@[simp] theorem modDraw_tamper (id : Nat) (g : Draw → Draw) (s : State) : (modDraw id g s).tamper = s.tamper := rfl
@[simp] theorem modDraw_meter (id : Nat) (g : Draw → Draw) (s : State) : (modDraw id g s).meter = s.meter := rfl
@[simp] theorem modDraw_dgu0 (id : Nat) (g : Draw → Draw) (s : State) : (modDraw id g s).dgu0 = s.dgu0 := rfl
@[simp] theorem modDraw_dgu1 (id : Nat) (g : Draw → Draw) (s : State) : (modDraw id g s).dgu1 = s.dgu1 := rfl
@[simp] theorem modDraw_ev (id : Nat) (g : Draw → Draw) (s : State) : (modDraw id g s).ev = s.ev := rfl
@[simp] theorem modDraw_diag (id : Nat) (g : Draw → Draw) (s : State) : (modDraw id g s).diag = s.diag := rfl
@[simp] theorem modDraw_health (id : Nat) (g : Draw → Draw) (s : State) : (modDraw id g s).health = s.health := rfl
@[simp] theorem modDraw_pmon (id : Nat) (g : Draw → Draw) (s : State) : (modDraw id g s).pmon = s.pmon := rfl
@[simp] theorem modDraw_spi (id : Nat) (g : Draw → Draw) (s : State) : (modDraw id g s).spi = s.spi := rfl
@[simp] theorem modDraw_waiters (id : Nat) (g : Draw → Draw) (s : State) : (modDraw id g s).waiters = s.waiters := rfl
@[simp] theorem modDraw_held (id : Nat) (g : Draw → Draw) (s : State) : (modDraw id g s).held = s.held := rfl
@[simp] theorem modDraw_out (id : Nat) (g : Draw → Draw) (s : State) : (modDraw id g s).out = s.out := rfl
@[simp] theorem modDraw_free (id : Nat) (g : Draw → Draw) (s : State) : (modDraw id g s).free = s.free := rfl

@[simp] theorem dropDraw_pending (id : Nat) (s : State) : (dropDraw id s).pending = s.pending := rfl
@[simp] theorem dropDraw_pwr (id : Nat) (s : State) : (dropDraw id s).pwr = s.pwr := rfl
@[simp] theorem dropDraw_boot (id : Nat) (s : State) : (dropDraw id s).boot = s.boot := rfl
@[simp] theorem dropDraw_opsec (id : Nat) (s : State) : (dropDraw id s).opsec = s.opsec := rfl
@[simp] theorem dropDraw_pwrCyc (id : Nat) (s : State) : (dropDraw id s).pwrCyc = s.pwrCyc := rfl
@[simp] theorem dropDraw_bootEpoch (id : Nat) (s : State) : (dropDraw id s).bootEpoch = s.bootEpoch := rfl
@[simp] theorem dropDraw_epochOut (id : Nat) (s : State) : (dropDraw id s).epochOut = s.epochOut := rfl
@[simp] theorem dropDraw_lc (id : Nat) (s : State) : (dropDraw id s).lc = s.lc := rfl
@[simp] theorem dropDraw_beneath (id : Nat) (s : State) : (dropDraw id s).beneath = s.beneath := rfl
@[simp] theorem dropDraw_otp (id : Nat) (s : State) : (dropDraw id s).otp = s.otp := rfl
@[simp] theorem dropDraw_nv (id : Nat) (s : State) : (dropDraw id s).nv = { s.nv with draws := s.nv.draws.filter fun d => d.id.toNat ≠ id } := rfl
@[simp] theorem dropDraw_link (id : Nat) (s : State) : (dropDraw id s).link = s.link := rfl
@[simp] theorem dropDraw_fns (id : Nat) (s : State) : (dropDraw id s).fns = s.fns := rfl
@[simp] theorem dropDraw_vecs (id : Nat) (s : State) : (dropDraw id s).vecs = s.vecs := rfl
@[simp] theorem dropDraw_mbxs (id : Nat) (s : State) : (dropDraw id s).mbxs = s.mbxs := rfl
@[simp] theorem dropDraw_queues (id : Nat) (s : State) : (dropDraw id s).queues = s.queues := rfl
@[simp] theorem dropDraw_cache (id : Nat) (s : State) : (dropDraw id s).cache = s.cache := rfl
@[simp] theorem dropDraw_nonces (id : Nat) (s : State) : (dropDraw id s).nonces = s.nonces := rfl
@[simp] theorem dropDraw_work (id : Nat) (s : State) : (dropDraw id s).work = s.work := rfl
@[simp] theorem dropDraw_lanes (id : Nat) (s : State) : (dropDraw id s).lanes = s.lanes := rfl
@[simp] theorem dropDraw_slots (id : Nat) (s : State) : (dropDraw id s).slots = s.slots := rfl
@[simp] theorem dropDraw_sched (id : Nat) (s : State) : (dropDraw id s).sched = s.sched := rfl
@[simp] theorem dropDraw_drains (id : Nat) (s : State) : (dropDraw id s).drains = s.drains := rfl
@[simp] theorem dropDraw_oldRules (id : Nat) (s : State) : (dropDraw id s).oldRules = s.oldRules := rfl
@[simp] theorem dropDraw_jrn (id : Nat) (s : State) : (dropDraw id s).jrn = s.jrn := rfl
@[simp] theorem dropDraw_dirtyCtrs (id : Nat) (s : State) : (dropDraw id s).dirtyCtrs = s.dirtyCtrs := rfl
@[simp] theorem dropDraw_banks (id : Nat) (s : State) : (dropDraw id s).banks = s.banks := rfl
@[simp] theorem dropDraw_lark (id : Nat) (s : State) : (dropDraw id s).lark = s.lark := rfl
@[simp] theorem dropDraw_keys (id : Nat) (s : State) : (dropDraw id s).keys = s.keys := rfl
@[simp] theorem dropDraw_pkes (id : Nat) (s : State) : (dropDraw id s).pkes = s.pkes := rfl
@[simp] theorem dropDraw_gates (id : Nat) (s : State) : (dropDraw id s).gates = s.gates := rfl
@[simp] theorem dropDraw_epoch (id : Nat) (s : State) : (dropDraw id s).epoch = s.epoch := rfl
@[simp] theorem dropDraw_engine (id : Nat) (s : State) : (dropDraw id s).engine = s.engine := rfl
@[simp] theorem dropDraw_dram (id : Nat) (s : State) : (dropDraw id s).dram = s.dram := rfl
@[simp] theorem dropDraw_dbg (id : Nat) (s : State) : (dropDraw id s).dbg = s.dbg := rfl
@[simp] theorem dropDraw_lcResetDue (id : Nat) (s : State) : (dropDraw id s).lcResetDue = s.lcResetDue := rfl
@[simp] theorem dropDraw_tamper (id : Nat) (s : State) : (dropDraw id s).tamper = s.tamper := rfl
@[simp] theorem dropDraw_meter (id : Nat) (s : State) : (dropDraw id s).meter = s.meter := rfl
@[simp] theorem dropDraw_dgu0 (id : Nat) (s : State) : (dropDraw id s).dgu0 = s.dgu0 := rfl
@[simp] theorem dropDraw_dgu1 (id : Nat) (s : State) : (dropDraw id s).dgu1 = s.dgu1 := rfl
@[simp] theorem dropDraw_ev (id : Nat) (s : State) : (dropDraw id s).ev = s.ev := rfl
@[simp] theorem dropDraw_diag (id : Nat) (s : State) : (dropDraw id s).diag = s.diag := rfl
@[simp] theorem dropDraw_health (id : Nat) (s : State) : (dropDraw id s).health = s.health := rfl
@[simp] theorem dropDraw_pmon (id : Nat) (s : State) : (dropDraw id s).pmon = s.pmon := rfl
@[simp] theorem dropDraw_spi (id : Nat) (s : State) : (dropDraw id s).spi = s.spi := rfl
@[simp] theorem dropDraw_waiters (id : Nat) (s : State) : (dropDraw id s).waiters = s.waiters := rfl
@[simp] theorem dropDraw_held (id : Nat) (s : State) : (dropDraw id s).held = s.held := rfl
@[simp] theorem dropDraw_out (id : Nat) (s : State) : (dropDraw id s).out = s.out := rfl
@[simp] theorem dropDraw_free (id : Nat) (s : State) : (dropDraw id s).free = s.free := rfl

@[simp] theorem setDomain_pending (n : Nat) (d : DomState) (s : State) : (setDomain n d s).pending = s.pending := rfl
@[simp] theorem setDomain_pwr (n : Nat) (d : DomState) (s : State) : (setDomain n d s).pwr = { s.pwr with domains := s.pwr.domains.set n d } := rfl
@[simp] theorem setDomain_boot (n : Nat) (d : DomState) (s : State) : (setDomain n d s).boot = s.boot := rfl
@[simp] theorem setDomain_opsec (n : Nat) (d : DomState) (s : State) : (setDomain n d s).opsec = s.opsec := rfl
@[simp] theorem setDomain_pwrCyc (n : Nat) (d : DomState) (s : State) : (setDomain n d s).pwrCyc = s.pwrCyc := rfl
@[simp] theorem setDomain_bootEpoch (n : Nat) (d : DomState) (s : State) : (setDomain n d s).bootEpoch = s.bootEpoch := rfl
@[simp] theorem setDomain_epochOut (n : Nat) (d : DomState) (s : State) : (setDomain n d s).epochOut = s.epochOut := rfl
@[simp] theorem setDomain_lc (n : Nat) (d : DomState) (s : State) : (setDomain n d s).lc = s.lc := rfl
@[simp] theorem setDomain_beneath (n : Nat) (d : DomState) (s : State) : (setDomain n d s).beneath = s.beneath := rfl
@[simp] theorem setDomain_otp (n : Nat) (d : DomState) (s : State) : (setDomain n d s).otp = s.otp := rfl
@[simp] theorem setDomain_nv (n : Nat) (d : DomState) (s : State) : (setDomain n d s).nv = s.nv := rfl
@[simp] theorem setDomain_link (n : Nat) (d : DomState) (s : State) : (setDomain n d s).link = s.link := rfl
@[simp] theorem setDomain_fns (n : Nat) (d : DomState) (s : State) : (setDomain n d s).fns = s.fns := rfl
@[simp] theorem setDomain_vecs (n : Nat) (d : DomState) (s : State) : (setDomain n d s).vecs = s.vecs := rfl
@[simp] theorem setDomain_mbxs (n : Nat) (d : DomState) (s : State) : (setDomain n d s).mbxs = s.mbxs := rfl
@[simp] theorem setDomain_queues (n : Nat) (d : DomState) (s : State) : (setDomain n d s).queues = s.queues := rfl
@[simp] theorem setDomain_cache (n : Nat) (d : DomState) (s : State) : (setDomain n d s).cache = s.cache := rfl
@[simp] theorem setDomain_nonces (n : Nat) (d : DomState) (s : State) : (setDomain n d s).nonces = s.nonces := rfl
@[simp] theorem setDomain_work (n : Nat) (d : DomState) (s : State) : (setDomain n d s).work = s.work := rfl
@[simp] theorem setDomain_lanes (n : Nat) (d : DomState) (s : State) : (setDomain n d s).lanes = s.lanes := rfl
@[simp] theorem setDomain_slots (n : Nat) (d : DomState) (s : State) : (setDomain n d s).slots = s.slots := rfl
@[simp] theorem setDomain_sched (n : Nat) (d : DomState) (s : State) : (setDomain n d s).sched = s.sched := rfl
@[simp] theorem setDomain_drains (n : Nat) (d : DomState) (s : State) : (setDomain n d s).drains = s.drains := rfl
@[simp] theorem setDomain_oldRules (n : Nat) (d : DomState) (s : State) : (setDomain n d s).oldRules = s.oldRules := rfl
@[simp] theorem setDomain_jrn (n : Nat) (d : DomState) (s : State) : (setDomain n d s).jrn = s.jrn := rfl
@[simp] theorem setDomain_dirtyCtrs (n : Nat) (d : DomState) (s : State) : (setDomain n d s).dirtyCtrs = s.dirtyCtrs := rfl
@[simp] theorem setDomain_banks (n : Nat) (d : DomState) (s : State) : (setDomain n d s).banks = s.banks := rfl
@[simp] theorem setDomain_lark (n : Nat) (d : DomState) (s : State) : (setDomain n d s).lark = s.lark := rfl
@[simp] theorem setDomain_keys (n : Nat) (d : DomState) (s : State) : (setDomain n d s).keys = s.keys := rfl
@[simp] theorem setDomain_pkes (n : Nat) (d : DomState) (s : State) : (setDomain n d s).pkes = s.pkes := rfl
@[simp] theorem setDomain_gates (n : Nat) (d : DomState) (s : State) : (setDomain n d s).gates = s.gates := rfl
@[simp] theorem setDomain_epoch (n : Nat) (d : DomState) (s : State) : (setDomain n d s).epoch = s.epoch := rfl
@[simp] theorem setDomain_engine (n : Nat) (d : DomState) (s : State) : (setDomain n d s).engine = s.engine := rfl
@[simp] theorem setDomain_dram (n : Nat) (d : DomState) (s : State) : (setDomain n d s).dram = s.dram := rfl
@[simp] theorem setDomain_dbg (n : Nat) (d : DomState) (s : State) : (setDomain n d s).dbg = s.dbg := rfl
@[simp] theorem setDomain_lcResetDue (n : Nat) (d : DomState) (s : State) : (setDomain n d s).lcResetDue = s.lcResetDue := rfl
@[simp] theorem setDomain_tamper (n : Nat) (d : DomState) (s : State) : (setDomain n d s).tamper = s.tamper := rfl
@[simp] theorem setDomain_meter (n : Nat) (d : DomState) (s : State) : (setDomain n d s).meter = s.meter := rfl
@[simp] theorem setDomain_dgu0 (n : Nat) (d : DomState) (s : State) : (setDomain n d s).dgu0 = s.dgu0 := rfl
@[simp] theorem setDomain_dgu1 (n : Nat) (d : DomState) (s : State) : (setDomain n d s).dgu1 = s.dgu1 := rfl
@[simp] theorem setDomain_ev (n : Nat) (d : DomState) (s : State) : (setDomain n d s).ev = s.ev := rfl
@[simp] theorem setDomain_diag (n : Nat) (d : DomState) (s : State) : (setDomain n d s).diag = s.diag := rfl
@[simp] theorem setDomain_health (n : Nat) (d : DomState) (s : State) : (setDomain n d s).health = s.health := rfl
@[simp] theorem setDomain_pmon (n : Nat) (d : DomState) (s : State) : (setDomain n d s).pmon = s.pmon := rfl
@[simp] theorem setDomain_spi (n : Nat) (d : DomState) (s : State) : (setDomain n d s).spi = s.spi := rfl
@[simp] theorem setDomain_waiters (n : Nat) (d : DomState) (s : State) : (setDomain n d s).waiters = s.waiters := rfl
@[simp] theorem setDomain_held (n : Nat) (d : DomState) (s : State) : (setDomain n d s).held = s.held := rfl
@[simp] theorem setDomain_out (n : Nat) (d : DomState) (s : State) : (setDomain n d s).out = s.out := rfl
@[simp] theorem setDomain_free (n : Nat) (d : DomState) (s : State) : (setDomain n d s).free = s.free := rfl

@[simp] theorem burn_pending (w : Nat) (v : BitVec 64) (s : State) : (burn w v s).pending = s.pending := rfl
@[simp] theorem burn_pwr (w : Nat) (v : BitVec 64) (s : State) : (burn w v s).pwr = s.pwr := rfl
@[simp] theorem burn_boot (w : Nat) (v : BitVec 64) (s : State) : (burn w v s).boot = s.boot := rfl
@[simp] theorem burn_opsec (w : Nat) (v : BitVec 64) (s : State) : (burn w v s).opsec = s.opsec := rfl
@[simp] theorem burn_pwrCyc (w : Nat) (v : BitVec 64) (s : State) : (burn w v s).pwrCyc = s.pwrCyc := rfl
@[simp] theorem burn_bootEpoch (w : Nat) (v : BitVec 64) (s : State) : (burn w v s).bootEpoch = s.bootEpoch := rfl
@[simp] theorem burn_epochOut (w : Nat) (v : BitVec 64) (s : State) : (burn w v s).epochOut = s.epochOut := rfl
@[simp] theorem burn_lc (w : Nat) (v : BitVec 64) (s : State) : (burn w v s).lc = s.lc := rfl
@[simp] theorem burn_beneath (w : Nat) (v : BitVec 64) (s : State) : (burn w v s).beneath = s.beneath := rfl
@[simp] theorem burn_otp (w : Nat) (v : BitVec 64) (s : State) : (burn w v s).otp = tset s.otp w (tgetD s.otp w 0 ||| v) := rfl
@[simp] theorem burn_nv (w : Nat) (v : BitVec 64) (s : State) : (burn w v s).nv = s.nv := rfl
@[simp] theorem burn_link (w : Nat) (v : BitVec 64) (s : State) : (burn w v s).link = s.link := rfl
@[simp] theorem burn_fns (w : Nat) (v : BitVec 64) (s : State) : (burn w v s).fns = s.fns := rfl
@[simp] theorem burn_vecs (w : Nat) (v : BitVec 64) (s : State) : (burn w v s).vecs = s.vecs := rfl
@[simp] theorem burn_mbxs (w : Nat) (v : BitVec 64) (s : State) : (burn w v s).mbxs = s.mbxs := rfl
@[simp] theorem burn_queues (w : Nat) (v : BitVec 64) (s : State) : (burn w v s).queues = s.queues := rfl
@[simp] theorem burn_cache (w : Nat) (v : BitVec 64) (s : State) : (burn w v s).cache = s.cache := rfl
@[simp] theorem burn_nonces (w : Nat) (v : BitVec 64) (s : State) : (burn w v s).nonces = s.nonces := rfl
@[simp] theorem burn_work (w : Nat) (v : BitVec 64) (s : State) : (burn w v s).work = s.work := rfl
@[simp] theorem burn_lanes (w : Nat) (v : BitVec 64) (s : State) : (burn w v s).lanes = s.lanes := rfl
@[simp] theorem burn_slots (w : Nat) (v : BitVec 64) (s : State) : (burn w v s).slots = s.slots := rfl
@[simp] theorem burn_sched (w : Nat) (v : BitVec 64) (s : State) : (burn w v s).sched = s.sched := rfl
@[simp] theorem burn_drains (w : Nat) (v : BitVec 64) (s : State) : (burn w v s).drains = s.drains := rfl
@[simp] theorem burn_oldRules (w : Nat) (v : BitVec 64) (s : State) : (burn w v s).oldRules = s.oldRules := rfl
@[simp] theorem burn_jrn (w : Nat) (v : BitVec 64) (s : State) : (burn w v s).jrn = s.jrn := rfl
@[simp] theorem burn_dirtyCtrs (w : Nat) (v : BitVec 64) (s : State) : (burn w v s).dirtyCtrs = s.dirtyCtrs := rfl
@[simp] theorem burn_banks (w : Nat) (v : BitVec 64) (s : State) : (burn w v s).banks = s.banks := rfl
@[simp] theorem burn_lark (w : Nat) (v : BitVec 64) (s : State) : (burn w v s).lark = s.lark := rfl
@[simp] theorem burn_keys (w : Nat) (v : BitVec 64) (s : State) : (burn w v s).keys = s.keys := rfl
@[simp] theorem burn_pkes (w : Nat) (v : BitVec 64) (s : State) : (burn w v s).pkes = s.pkes := rfl
@[simp] theorem burn_gates (w : Nat) (v : BitVec 64) (s : State) : (burn w v s).gates = s.gates := rfl
@[simp] theorem burn_epoch (w : Nat) (v : BitVec 64) (s : State) : (burn w v s).epoch = s.epoch := rfl
@[simp] theorem burn_engine (w : Nat) (v : BitVec 64) (s : State) : (burn w v s).engine = s.engine := rfl
@[simp] theorem burn_dram (w : Nat) (v : BitVec 64) (s : State) : (burn w v s).dram = s.dram := rfl
@[simp] theorem burn_dbg (w : Nat) (v : BitVec 64) (s : State) : (burn w v s).dbg = s.dbg := rfl
@[simp] theorem burn_lcResetDue (w : Nat) (v : BitVec 64) (s : State) : (burn w v s).lcResetDue = s.lcResetDue := rfl
@[simp] theorem burn_tamper (w : Nat) (v : BitVec 64) (s : State) : (burn w v s).tamper = s.tamper := rfl
@[simp] theorem burn_meter (w : Nat) (v : BitVec 64) (s : State) : (burn w v s).meter = s.meter := rfl
@[simp] theorem burn_dgu0 (w : Nat) (v : BitVec 64) (s : State) : (burn w v s).dgu0 = s.dgu0 := rfl
@[simp] theorem burn_dgu1 (w : Nat) (v : BitVec 64) (s : State) : (burn w v s).dgu1 = s.dgu1 := rfl
@[simp] theorem burn_ev (w : Nat) (v : BitVec 64) (s : State) : (burn w v s).ev = s.ev := rfl
@[simp] theorem burn_diag (w : Nat) (v : BitVec 64) (s : State) : (burn w v s).diag = s.diag := rfl
@[simp] theorem burn_health (w : Nat) (v : BitVec 64) (s : State) : (burn w v s).health = s.health := rfl
@[simp] theorem burn_pmon (w : Nat) (v : BitVec 64) (s : State) : (burn w v s).pmon = s.pmon := rfl
@[simp] theorem burn_spi (w : Nat) (v : BitVec 64) (s : State) : (burn w v s).spi = s.spi := rfl
@[simp] theorem burn_waiters (w : Nat) (v : BitVec 64) (s : State) : (burn w v s).waiters = s.waiters := rfl
@[simp] theorem burn_held (w : Nat) (v : BitVec 64) (s : State) : (burn w v s).held = s.held := rfl
@[simp] theorem burn_out (w : Nat) (v : BitVec 64) (s : State) : (burn w v s).out = s.out := rfl
@[simp] theorem burn_free (w : Nat) (v : BitVec 64) (s : State) : (burn w v s).free = s.free := rfl

@[simp] theorem bumpEpoch_pending (s : State) : (bumpEpoch s).pending = s.pending := rfl
@[simp] theorem bumpEpoch_pwr (s : State) : (bumpEpoch s).pwr = s.pwr := rfl
@[simp] theorem bumpEpoch_boot (s : State) : (bumpEpoch s).boot = s.boot := rfl
@[simp] theorem bumpEpoch_opsec (s : State) : (bumpEpoch s).opsec = s.opsec := rfl
@[simp] theorem bumpEpoch_pwrCyc (s : State) : (bumpEpoch s).pwrCyc = s.pwrCyc := rfl
@[simp] theorem bumpEpoch_bootEpoch (s : State) : (bumpEpoch s).bootEpoch = s.bootEpoch := rfl
@[simp] theorem bumpEpoch_epochOut (s : State) : (bumpEpoch s).epochOut = s.epochOut := rfl
@[simp] theorem bumpEpoch_lc (s : State) : (bumpEpoch s).lc = s.lc := rfl
@[simp] theorem bumpEpoch_beneath (s : State) : (bumpEpoch s).beneath = s.beneath := rfl
@[simp] theorem bumpEpoch_otp (s : State) : (bumpEpoch s).otp = s.otp := rfl
@[simp] theorem bumpEpoch_nv (s : State) : (bumpEpoch s).nv = s.nv := rfl
@[simp] theorem bumpEpoch_link (s : State) : (bumpEpoch s).link = s.link := rfl
@[simp] theorem bumpEpoch_fns (s : State) : (bumpEpoch s).fns = s.fns := rfl
@[simp] theorem bumpEpoch_vecs (s : State) : (bumpEpoch s).vecs = s.vecs := rfl
@[simp] theorem bumpEpoch_mbxs (s : State) : (bumpEpoch s).mbxs = s.mbxs := rfl
@[simp] theorem bumpEpoch_queues (s : State) : (bumpEpoch s).queues = s.queues := rfl
@[simp] theorem bumpEpoch_cache (s : State) : (bumpEpoch s).cache = s.cache := rfl
@[simp] theorem bumpEpoch_nonces (s : State) : (bumpEpoch s).nonces = s.nonces := rfl
@[simp] theorem bumpEpoch_work (s : State) : (bumpEpoch s).work = s.work := rfl
@[simp] theorem bumpEpoch_lanes (s : State) : (bumpEpoch s).lanes = s.lanes := rfl
@[simp] theorem bumpEpoch_slots (s : State) : (bumpEpoch s).slots = s.slots := rfl
@[simp] theorem bumpEpoch_sched (s : State) : (bumpEpoch s).sched = s.sched := rfl
@[simp] theorem bumpEpoch_drains (s : State) : (bumpEpoch s).drains = s.drains := rfl
@[simp] theorem bumpEpoch_oldRules (s : State) : (bumpEpoch s).oldRules = s.oldRules := rfl
@[simp] theorem bumpEpoch_jrn (s : State) : (bumpEpoch s).jrn = s.jrn := rfl
@[simp] theorem bumpEpoch_dirtyCtrs (s : State) : (bumpEpoch s).dirtyCtrs = s.dirtyCtrs := rfl
@[simp] theorem bumpEpoch_banks (s : State) : (bumpEpoch s).banks = s.banks := rfl
@[simp] theorem bumpEpoch_lark (s : State) : (bumpEpoch s).lark = s.lark := rfl
@[simp] theorem bumpEpoch_keys (s : State) : (bumpEpoch s).keys = s.keys := rfl
@[simp] theorem bumpEpoch_pkes (s : State) : (bumpEpoch s).pkes = s.pkes := rfl
@[simp] theorem bumpEpoch_gates (s : State) : (bumpEpoch s).gates = s.gates := rfl
@[simp] theorem bumpEpoch_epoch (s : State) : (bumpEpoch s).epoch = s.epoch + 1 := rfl
@[simp] theorem bumpEpoch_engine (s : State) : (bumpEpoch s).engine = s.engine := rfl
@[simp] theorem bumpEpoch_dram (s : State) : (bumpEpoch s).dram = s.dram := rfl
@[simp] theorem bumpEpoch_dbg (s : State) : (bumpEpoch s).dbg = s.dbg := rfl
@[simp] theorem bumpEpoch_lcResetDue (s : State) : (bumpEpoch s).lcResetDue = s.lcResetDue := rfl
@[simp] theorem bumpEpoch_tamper (s : State) : (bumpEpoch s).tamper = s.tamper := rfl
@[simp] theorem bumpEpoch_meter (s : State) : (bumpEpoch s).meter = s.meter := rfl
@[simp] theorem bumpEpoch_dgu0 (s : State) : (bumpEpoch s).dgu0 = s.dgu0 := rfl
@[simp] theorem bumpEpoch_dgu1 (s : State) : (bumpEpoch s).dgu1 = s.dgu1 := rfl
@[simp] theorem bumpEpoch_ev (s : State) : (bumpEpoch s).ev = s.ev := rfl
@[simp] theorem bumpEpoch_diag (s : State) : (bumpEpoch s).diag = s.diag := rfl
@[simp] theorem bumpEpoch_health (s : State) : (bumpEpoch s).health = s.health := rfl
@[simp] theorem bumpEpoch_pmon (s : State) : (bumpEpoch s).pmon = s.pmon := rfl
@[simp] theorem bumpEpoch_spi (s : State) : (bumpEpoch s).spi = s.spi := rfl
@[simp] theorem bumpEpoch_waiters (s : State) : (bumpEpoch s).waiters = s.waiters := rfl
@[simp] theorem bumpEpoch_held (s : State) : (bumpEpoch s).held = s.held := rfl
@[simp] theorem bumpEpoch_out (s : State) : (bumpEpoch s).out = s.out := rfl
@[simp] theorem bumpEpoch_free (s : State) : (bumpEpoch s).free = s.free := rfl

@[simp] theorem setGate_pending (g : Nat) (es : Tab GEntry) (s : State) : (setGate g es s).pending = s.pending := rfl
@[simp] theorem setGate_pwr (g : Nat) (es : Tab GEntry) (s : State) : (setGate g es s).pwr = s.pwr := rfl
@[simp] theorem setGate_boot (g : Nat) (es : Tab GEntry) (s : State) : (setGate g es s).boot = s.boot := rfl
@[simp] theorem setGate_opsec (g : Nat) (es : Tab GEntry) (s : State) : (setGate g es s).opsec = s.opsec := rfl
@[simp] theorem setGate_pwrCyc (g : Nat) (es : Tab GEntry) (s : State) : (setGate g es s).pwrCyc = s.pwrCyc := rfl
@[simp] theorem setGate_bootEpoch (g : Nat) (es : Tab GEntry) (s : State) : (setGate g es s).bootEpoch = s.bootEpoch := rfl
@[simp] theorem setGate_epochOut (g : Nat) (es : Tab GEntry) (s : State) : (setGate g es s).epochOut = s.epochOut := rfl
@[simp] theorem setGate_lc (g : Nat) (es : Tab GEntry) (s : State) : (setGate g es s).lc = s.lc := rfl
@[simp] theorem setGate_beneath (g : Nat) (es : Tab GEntry) (s : State) : (setGate g es s).beneath = s.beneath := rfl
@[simp] theorem setGate_otp (g : Nat) (es : Tab GEntry) (s : State) : (setGate g es s).otp = s.otp := rfl
@[simp] theorem setGate_nv (g : Nat) (es : Tab GEntry) (s : State) : (setGate g es s).nv = s.nv := rfl
@[simp] theorem setGate_link (g : Nat) (es : Tab GEntry) (s : State) : (setGate g es s).link = s.link := rfl
@[simp] theorem setGate_fns (g : Nat) (es : Tab GEntry) (s : State) : (setGate g es s).fns = s.fns := rfl
@[simp] theorem setGate_vecs (g : Nat) (es : Tab GEntry) (s : State) : (setGate g es s).vecs = s.vecs := rfl
@[simp] theorem setGate_mbxs (g : Nat) (es : Tab GEntry) (s : State) : (setGate g es s).mbxs = s.mbxs := rfl
@[simp] theorem setGate_queues (g : Nat) (es : Tab GEntry) (s : State) : (setGate g es s).queues = s.queues := rfl
@[simp] theorem setGate_cache (g : Nat) (es : Tab GEntry) (s : State) : (setGate g es s).cache = s.cache := rfl
@[simp] theorem setGate_nonces (g : Nat) (es : Tab GEntry) (s : State) : (setGate g es s).nonces = s.nonces := rfl
@[simp] theorem setGate_work (g : Nat) (es : Tab GEntry) (s : State) : (setGate g es s).work = s.work := rfl
@[simp] theorem setGate_lanes (g : Nat) (es : Tab GEntry) (s : State) : (setGate g es s).lanes = s.lanes := rfl
@[simp] theorem setGate_slots (g : Nat) (es : Tab GEntry) (s : State) : (setGate g es s).slots = s.slots := rfl
@[simp] theorem setGate_sched (g : Nat) (es : Tab GEntry) (s : State) : (setGate g es s).sched = s.sched := rfl
@[simp] theorem setGate_drains (g : Nat) (es : Tab GEntry) (s : State) : (setGate g es s).drains = s.drains := rfl
@[simp] theorem setGate_oldRules (g : Nat) (es : Tab GEntry) (s : State) : (setGate g es s).oldRules = s.oldRules := rfl
@[simp] theorem setGate_jrn (g : Nat) (es : Tab GEntry) (s : State) : (setGate g es s).jrn = s.jrn := rfl
@[simp] theorem setGate_dirtyCtrs (g : Nat) (es : Tab GEntry) (s : State) : (setGate g es s).dirtyCtrs = s.dirtyCtrs := rfl
@[simp] theorem setGate_banks (g : Nat) (es : Tab GEntry) (s : State) : (setGate g es s).banks = s.banks := rfl
@[simp] theorem setGate_lark (g : Nat) (es : Tab GEntry) (s : State) : (setGate g es s).lark = s.lark := rfl
@[simp] theorem setGate_keys (g : Nat) (es : Tab GEntry) (s : State) : (setGate g es s).keys = s.keys := rfl
@[simp] theorem setGate_pkes (g : Nat) (es : Tab GEntry) (s : State) : (setGate g es s).pkes = s.pkes := rfl
@[simp] theorem setGate_gates (g : Nat) (es : Tab GEntry) (s : State) : (setGate g es s).gates = modAt s.gates g fun x => { x with ents := es } := rfl
@[simp] theorem setGate_epoch (g : Nat) (es : Tab GEntry) (s : State) : (setGate g es s).epoch = s.epoch := rfl
@[simp] theorem setGate_engine (g : Nat) (es : Tab GEntry) (s : State) : (setGate g es s).engine = s.engine := rfl
@[simp] theorem setGate_dram (g : Nat) (es : Tab GEntry) (s : State) : (setGate g es s).dram = s.dram := rfl
@[simp] theorem setGate_dbg (g : Nat) (es : Tab GEntry) (s : State) : (setGate g es s).dbg = s.dbg := rfl
@[simp] theorem setGate_lcResetDue (g : Nat) (es : Tab GEntry) (s : State) : (setGate g es s).lcResetDue = s.lcResetDue := rfl
@[simp] theorem setGate_tamper (g : Nat) (es : Tab GEntry) (s : State) : (setGate g es s).tamper = s.tamper := rfl
@[simp] theorem setGate_meter (g : Nat) (es : Tab GEntry) (s : State) : (setGate g es s).meter = s.meter := rfl
@[simp] theorem setGate_dgu0 (g : Nat) (es : Tab GEntry) (s : State) : (setGate g es s).dgu0 = s.dgu0 := rfl
@[simp] theorem setGate_dgu1 (g : Nat) (es : Tab GEntry) (s : State) : (setGate g es s).dgu1 = s.dgu1 := rfl
@[simp] theorem setGate_ev (g : Nat) (es : Tab GEntry) (s : State) : (setGate g es s).ev = s.ev := rfl
@[simp] theorem setGate_diag (g : Nat) (es : Tab GEntry) (s : State) : (setGate g es s).diag = s.diag := rfl
@[simp] theorem setGate_health (g : Nat) (es : Tab GEntry) (s : State) : (setGate g es s).health = s.health := rfl
@[simp] theorem setGate_pmon (g : Nat) (es : Tab GEntry) (s : State) : (setGate g es s).pmon = s.pmon := rfl
@[simp] theorem setGate_spi (g : Nat) (es : Tab GEntry) (s : State) : (setGate g es s).spi = s.spi := rfl
@[simp] theorem setGate_waiters (g : Nat) (es : Tab GEntry) (s : State) : (setGate g es s).waiters = s.waiters := rfl
@[simp] theorem setGate_held (g : Nat) (es : Tab GEntry) (s : State) : (setGate g es s).held = s.held := rfl
@[simp] theorem setGate_out (g : Nat) (es : Tab GEntry) (s : State) : (setGate g es s).out = s.out := rfl
@[simp] theorem setGate_free (g : Nat) (es : Tab GEntry) (s : State) : (setGate g es s).free = s.free := rfl

@[simp] theorem fenceAll_pending (p : Work → Bool) (s : State) : (fenceAll p s).pending = s.pending := rfl
@[simp] theorem fenceAll_pwr (p : Work → Bool) (s : State) : (fenceAll p s).pwr = s.pwr := rfl
@[simp] theorem fenceAll_boot (p : Work → Bool) (s : State) : (fenceAll p s).boot = s.boot := rfl
@[simp] theorem fenceAll_opsec (p : Work → Bool) (s : State) : (fenceAll p s).opsec = s.opsec := rfl
@[simp] theorem fenceAll_pwrCyc (p : Work → Bool) (s : State) : (fenceAll p s).pwrCyc = s.pwrCyc := rfl
@[simp] theorem fenceAll_bootEpoch (p : Work → Bool) (s : State) : (fenceAll p s).bootEpoch = s.bootEpoch := rfl
@[simp] theorem fenceAll_epochOut (p : Work → Bool) (s : State) : (fenceAll p s).epochOut = s.epochOut := rfl
@[simp] theorem fenceAll_lc (p : Work → Bool) (s : State) : (fenceAll p s).lc = s.lc := rfl
@[simp] theorem fenceAll_beneath (p : Work → Bool) (s : State) : (fenceAll p s).beneath = s.beneath := rfl
@[simp] theorem fenceAll_otp (p : Work → Bool) (s : State) : (fenceAll p s).otp = s.otp := rfl
@[simp] theorem fenceAll_nv (p : Work → Bool) (s : State) : (fenceAll p s).nv = s.nv := rfl
@[simp] theorem fenceAll_link (p : Work → Bool) (s : State) : (fenceAll p s).link = s.link := rfl
@[simp] theorem fenceAll_fns (p : Work → Bool) (s : State) : (fenceAll p s).fns = s.fns := rfl
@[simp] theorem fenceAll_vecs (p : Work → Bool) (s : State) : (fenceAll p s).vecs = s.vecs := rfl
@[simp] theorem fenceAll_mbxs (p : Work → Bool) (s : State) : (fenceAll p s).mbxs = s.mbxs := rfl
@[simp] theorem fenceAll_queues (p : Work → Bool) (s : State) : (fenceAll p s).queues = s.queues := rfl
@[simp] theorem fenceAll_cache (p : Work → Bool) (s : State) : (fenceAll p s).cache = s.cache := rfl
@[simp] theorem fenceAll_nonces (p : Work → Bool) (s : State) : (fenceAll p s).nonces = s.nonces := rfl
@[simp] theorem fenceAll_work (p : Work → Bool) (s : State) : (fenceAll p s).work = s.work.map fun w => if w.inFlight && p w then { w with revoked := true, saved := none } else w := rfl
@[simp] theorem fenceAll_lanes (p : Work → Bool) (s : State) : (fenceAll p s).lanes = s.lanes := rfl
@[simp] theorem fenceAll_slots (p : Work → Bool) (s : State) : (fenceAll p s).slots = s.slots := rfl
@[simp] theorem fenceAll_sched (p : Work → Bool) (s : State) : (fenceAll p s).sched = s.sched := rfl
@[simp] theorem fenceAll_drains (p : Work → Bool) (s : State) : (fenceAll p s).drains = s.drains := rfl
@[simp] theorem fenceAll_oldRules (p : Work → Bool) (s : State) : (fenceAll p s).oldRules = s.oldRules := rfl
@[simp] theorem fenceAll_jrn (p : Work → Bool) (s : State) : (fenceAll p s).jrn = s.jrn := rfl
@[simp] theorem fenceAll_dirtyCtrs (p : Work → Bool) (s : State) : (fenceAll p s).dirtyCtrs = s.dirtyCtrs := rfl
@[simp] theorem fenceAll_banks (p : Work → Bool) (s : State) : (fenceAll p s).banks = s.banks := rfl
@[simp] theorem fenceAll_lark (p : Work → Bool) (s : State) : (fenceAll p s).lark = s.lark := rfl
@[simp] theorem fenceAll_keys (p : Work → Bool) (s : State) : (fenceAll p s).keys = s.keys := rfl
@[simp] theorem fenceAll_pkes (p : Work → Bool) (s : State) : (fenceAll p s).pkes = s.pkes := rfl
@[simp] theorem fenceAll_gates (p : Work → Bool) (s : State) : (fenceAll p s).gates = s.gates := rfl
@[simp] theorem fenceAll_epoch (p : Work → Bool) (s : State) : (fenceAll p s).epoch = s.epoch := rfl
@[simp] theorem fenceAll_engine (p : Work → Bool) (s : State) : (fenceAll p s).engine = s.engine := rfl
@[simp] theorem fenceAll_dram (p : Work → Bool) (s : State) : (fenceAll p s).dram = s.dram := rfl
@[simp] theorem fenceAll_dbg (p : Work → Bool) (s : State) : (fenceAll p s).dbg = s.dbg := rfl
@[simp] theorem fenceAll_lcResetDue (p : Work → Bool) (s : State) : (fenceAll p s).lcResetDue = s.lcResetDue := rfl
@[simp] theorem fenceAll_tamper (p : Work → Bool) (s : State) : (fenceAll p s).tamper = s.tamper := rfl
@[simp] theorem fenceAll_meter (p : Work → Bool) (s : State) : (fenceAll p s).meter = s.meter := rfl
@[simp] theorem fenceAll_dgu0 (p : Work → Bool) (s : State) : (fenceAll p s).dgu0 = s.dgu0 := rfl
@[simp] theorem fenceAll_dgu1 (p : Work → Bool) (s : State) : (fenceAll p s).dgu1 = s.dgu1 := rfl
@[simp] theorem fenceAll_ev (p : Work → Bool) (s : State) : (fenceAll p s).ev = s.ev := rfl
@[simp] theorem fenceAll_diag (p : Work → Bool) (s : State) : (fenceAll p s).diag = s.diag := rfl
@[simp] theorem fenceAll_health (p : Work → Bool) (s : State) : (fenceAll p s).health = s.health := rfl
@[simp] theorem fenceAll_pmon (p : Work → Bool) (s : State) : (fenceAll p s).pmon = s.pmon := rfl
@[simp] theorem fenceAll_spi (p : Work → Bool) (s : State) : (fenceAll p s).spi = s.spi := rfl
@[simp] theorem fenceAll_waiters (p : Work → Bool) (s : State) : (fenceAll p s).waiters = s.waiters := rfl
@[simp] theorem fenceAll_held (p : Work → Bool) (s : State) : (fenceAll p s).held = s.held := rfl
@[simp] theorem fenceAll_out (p : Work → Bool) (s : State) : (fenceAll p s).out = s.out := rfl
@[simp] theorem fenceAll_free (p : Work → Bool) (s : State) : (fenceAll p s).free = s.free := rfl

@[simp] theorem consumeChallenge_pending (s : State) : (consumeChallenge s).pending = s.pending := rfl
@[simp] theorem consumeChallenge_pwr (s : State) : (consumeChallenge s).pwr = s.pwr := rfl
@[simp] theorem consumeChallenge_boot (s : State) : (consumeChallenge s).boot = s.boot := rfl
@[simp] theorem consumeChallenge_opsec (s : State) : (consumeChallenge s).opsec = s.opsec := rfl
@[simp] theorem consumeChallenge_pwrCyc (s : State) : (consumeChallenge s).pwrCyc = s.pwrCyc := rfl
@[simp] theorem consumeChallenge_bootEpoch (s : State) : (consumeChallenge s).bootEpoch = s.bootEpoch := rfl
@[simp] theorem consumeChallenge_epochOut (s : State) : (consumeChallenge s).epochOut = s.epochOut := rfl
@[simp] theorem consumeChallenge_lc (s : State) : (consumeChallenge s).lc = s.lc := rfl
@[simp] theorem consumeChallenge_beneath (s : State) : (consumeChallenge s).beneath = s.beneath := rfl
@[simp] theorem consumeChallenge_otp (s : State) : (consumeChallenge s).otp = s.otp := rfl
@[simp] theorem consumeChallenge_nv (s : State) : (consumeChallenge s).nv = s.nv := rfl
@[simp] theorem consumeChallenge_link (s : State) : (consumeChallenge s).link = s.link := rfl
@[simp] theorem consumeChallenge_fns (s : State) : (consumeChallenge s).fns = s.fns := rfl
@[simp] theorem consumeChallenge_vecs (s : State) : (consumeChallenge s).vecs = s.vecs := rfl
@[simp] theorem consumeChallenge_mbxs (s : State) : (consumeChallenge s).mbxs = s.mbxs := rfl
@[simp] theorem consumeChallenge_queues (s : State) : (consumeChallenge s).queues = s.queues := rfl
@[simp] theorem consumeChallenge_cache (s : State) : (consumeChallenge s).cache = s.cache := rfl
@[simp] theorem consumeChallenge_nonces (s : State) : (consumeChallenge s).nonces = s.nonces := rfl
@[simp] theorem consumeChallenge_work (s : State) : (consumeChallenge s).work = s.work := rfl
@[simp] theorem consumeChallenge_lanes (s : State) : (consumeChallenge s).lanes = s.lanes := rfl
@[simp] theorem consumeChallenge_slots (s : State) : (consumeChallenge s).slots = s.slots := rfl
@[simp] theorem consumeChallenge_sched (s : State) : (consumeChallenge s).sched = s.sched := rfl
@[simp] theorem consumeChallenge_drains (s : State) : (consumeChallenge s).drains = s.drains := rfl
@[simp] theorem consumeChallenge_oldRules (s : State) : (consumeChallenge s).oldRules = s.oldRules := rfl
@[simp] theorem consumeChallenge_jrn (s : State) : (consumeChallenge s).jrn = s.jrn := rfl
@[simp] theorem consumeChallenge_dirtyCtrs (s : State) : (consumeChallenge s).dirtyCtrs = s.dirtyCtrs := rfl
@[simp] theorem consumeChallenge_banks (s : State) : (consumeChallenge s).banks = s.banks := rfl
@[simp] theorem consumeChallenge_lark (s : State) : (consumeChallenge s).lark = s.lark := rfl
@[simp] theorem consumeChallenge_keys (s : State) : (consumeChallenge s).keys = { s.keys with challenge := none } := rfl
@[simp] theorem consumeChallenge_pkes (s : State) : (consumeChallenge s).pkes = s.pkes := rfl
@[simp] theorem consumeChallenge_gates (s : State) : (consumeChallenge s).gates = s.gates := rfl
@[simp] theorem consumeChallenge_epoch (s : State) : (consumeChallenge s).epoch = s.epoch := rfl
@[simp] theorem consumeChallenge_engine (s : State) : (consumeChallenge s).engine = s.engine := rfl
@[simp] theorem consumeChallenge_dram (s : State) : (consumeChallenge s).dram = s.dram := rfl
@[simp] theorem consumeChallenge_dbg (s : State) : (consumeChallenge s).dbg = s.dbg := rfl
@[simp] theorem consumeChallenge_lcResetDue (s : State) : (consumeChallenge s).lcResetDue = s.lcResetDue := rfl
@[simp] theorem consumeChallenge_tamper (s : State) : (consumeChallenge s).tamper = s.tamper := rfl
@[simp] theorem consumeChallenge_meter (s : State) : (consumeChallenge s).meter = s.meter := rfl
@[simp] theorem consumeChallenge_dgu0 (s : State) : (consumeChallenge s).dgu0 = s.dgu0 := rfl
@[simp] theorem consumeChallenge_dgu1 (s : State) : (consumeChallenge s).dgu1 = s.dgu1 := rfl
@[simp] theorem consumeChallenge_ev (s : State) : (consumeChallenge s).ev = s.ev := rfl
@[simp] theorem consumeChallenge_diag (s : State) : (consumeChallenge s).diag = s.diag := rfl
@[simp] theorem consumeChallenge_health (s : State) : (consumeChallenge s).health = s.health := rfl
@[simp] theorem consumeChallenge_pmon (s : State) : (consumeChallenge s).pmon = s.pmon := rfl
@[simp] theorem consumeChallenge_spi (s : State) : (consumeChallenge s).spi = s.spi := rfl
@[simp] theorem consumeChallenge_waiters (s : State) : (consumeChallenge s).waiters = s.waiters := rfl
@[simp] theorem consumeChallenge_held (s : State) : (consumeChallenge s).held = s.held := rfl
@[simp] theorem consumeChallenge_out (s : State) : (consumeChallenge s).out = s.out := rfl
@[simp] theorem consumeChallenge_free (s : State) : (consumeChallenge s).free = s.free := rfl

@[simp] theorem setGen_pending (i g : Nat) (s : State) : (setGen i g s).pending = s.pending := rfl
@[simp] theorem setGen_pwr (i g : Nat) (s : State) : (setGen i g s).pwr = s.pwr := rfl
@[simp] theorem setGen_boot (i g : Nat) (s : State) : (setGen i g s).boot = s.boot := rfl
@[simp] theorem setGen_opsec (i g : Nat) (s : State) : (setGen i g s).opsec = s.opsec := rfl
@[simp] theorem setGen_pwrCyc (i g : Nat) (s : State) : (setGen i g s).pwrCyc = s.pwrCyc := rfl
@[simp] theorem setGen_bootEpoch (i g : Nat) (s : State) : (setGen i g s).bootEpoch = s.bootEpoch := rfl
@[simp] theorem setGen_epochOut (i g : Nat) (s : State) : (setGen i g s).epochOut = s.epochOut := rfl
@[simp] theorem setGen_lc (i g : Nat) (s : State) : (setGen i g s).lc = s.lc := rfl
@[simp] theorem setGen_beneath (i g : Nat) (s : State) : (setGen i g s).beneath = s.beneath := rfl
@[simp] theorem setGen_otp (i g : Nat) (s : State) : (setGen i g s).otp = s.otp := rfl
@[simp] theorem setGen_nv (i g : Nat) (s : State) : (setGen i g s).nv = { s.nv with genRecs := tset s.nv.genRecs i (AB.update (tgetD s.nv.genRecs i ⟨.blank, .blank⟩) g) } := rfl
@[simp] theorem setGen_link (i g : Nat) (s : State) : (setGen i g s).link = s.link := rfl
@[simp] theorem setGen_fns (i g : Nat) (s : State) : (setGen i g s).fns = s.fns := rfl
@[simp] theorem setGen_vecs (i g : Nat) (s : State) : (setGen i g s).vecs = s.vecs := rfl
@[simp] theorem setGen_mbxs (i g : Nat) (s : State) : (setGen i g s).mbxs = s.mbxs := rfl
@[simp] theorem setGen_queues (i g : Nat) (s : State) : (setGen i g s).queues = s.queues := rfl
@[simp] theorem setGen_cache (i g : Nat) (s : State) : (setGen i g s).cache = s.cache := rfl
@[simp] theorem setGen_nonces (i g : Nat) (s : State) : (setGen i g s).nonces = s.nonces := rfl
@[simp] theorem setGen_work (i g : Nat) (s : State) : (setGen i g s).work = s.work := rfl
@[simp] theorem setGen_lanes (i g : Nat) (s : State) : (setGen i g s).lanes = s.lanes := rfl
@[simp] theorem setGen_slots (i g : Nat) (s : State) : (setGen i g s).slots = s.slots := rfl
@[simp] theorem setGen_sched (i g : Nat) (s : State) : (setGen i g s).sched = s.sched := rfl
@[simp] theorem setGen_drains (i g : Nat) (s : State) : (setGen i g s).drains = s.drains := rfl
@[simp] theorem setGen_oldRules (i g : Nat) (s : State) : (setGen i g s).oldRules = s.oldRules := rfl
@[simp] theorem setGen_jrn (i g : Nat) (s : State) : (setGen i g s).jrn = s.jrn := rfl
@[simp] theorem setGen_dirtyCtrs (i g : Nat) (s : State) : (setGen i g s).dirtyCtrs = s.dirtyCtrs := rfl
@[simp] theorem setGen_banks (i g : Nat) (s : State) : (setGen i g s).banks = s.banks := rfl
@[simp] theorem setGen_lark (i g : Nat) (s : State) : (setGen i g s).lark = s.lark := rfl
@[simp] theorem setGen_keys (i g : Nat) (s : State) : (setGen i g s).keys = s.keys := rfl
@[simp] theorem setGen_pkes (i g : Nat) (s : State) : (setGen i g s).pkes = s.pkes := rfl
@[simp] theorem setGen_gates (i g : Nat) (s : State) : (setGen i g s).gates = s.gates := rfl
@[simp] theorem setGen_epoch (i g : Nat) (s : State) : (setGen i g s).epoch = s.epoch := rfl
@[simp] theorem setGen_engine (i g : Nat) (s : State) : (setGen i g s).engine = s.engine := rfl
@[simp] theorem setGen_dram (i g : Nat) (s : State) : (setGen i g s).dram = s.dram := rfl
@[simp] theorem setGen_dbg (i g : Nat) (s : State) : (setGen i g s).dbg = s.dbg := rfl
@[simp] theorem setGen_lcResetDue (i g : Nat) (s : State) : (setGen i g s).lcResetDue = s.lcResetDue := rfl
@[simp] theorem setGen_tamper (i g : Nat) (s : State) : (setGen i g s).tamper = s.tamper := rfl
@[simp] theorem setGen_meter (i g : Nat) (s : State) : (setGen i g s).meter = s.meter := rfl
@[simp] theorem setGen_dgu0 (i g : Nat) (s : State) : (setGen i g s).dgu0 = s.dgu0 := rfl
@[simp] theorem setGen_dgu1 (i g : Nat) (s : State) : (setGen i g s).dgu1 = s.dgu1 := rfl
@[simp] theorem setGen_ev (i g : Nat) (s : State) : (setGen i g s).ev = s.ev := rfl
@[simp] theorem setGen_diag (i g : Nat) (s : State) : (setGen i g s).diag = s.diag := rfl
@[simp] theorem setGen_health (i g : Nat) (s : State) : (setGen i g s).health = s.health := rfl
@[simp] theorem setGen_pmon (i g : Nat) (s : State) : (setGen i g s).pmon = s.pmon := rfl
@[simp] theorem setGen_spi (i g : Nat) (s : State) : (setGen i g s).spi = s.spi := rfl
@[simp] theorem setGen_waiters (i g : Nat) (s : State) : (setGen i g s).waiters = s.waiters := rfl
@[simp] theorem setGen_held (i g : Nat) (s : State) : (setGen i g s).held = s.held := rfl
@[simp] theorem setGen_out (i g : Nat) (s : State) : (setGen i g s).out = s.out := rfl
@[simp] theorem setGen_free (i g : Nat) (s : State) : (setGen i g s).free = s.free := rfl

@[simp] theorem setBootSel_pending (b : BootSel) (s : State) : (setBootSel b s).pending = s.pending := rfl
@[simp] theorem setBootSel_pwr (b : BootSel) (s : State) : (setBootSel b s).pwr = s.pwr := rfl
@[simp] theorem setBootSel_boot (b : BootSel) (s : State) : (setBootSel b s).boot = s.boot := rfl
@[simp] theorem setBootSel_opsec (b : BootSel) (s : State) : (setBootSel b s).opsec = s.opsec := rfl
@[simp] theorem setBootSel_pwrCyc (b : BootSel) (s : State) : (setBootSel b s).pwrCyc = s.pwrCyc := rfl
@[simp] theorem setBootSel_bootEpoch (b : BootSel) (s : State) : (setBootSel b s).bootEpoch = s.bootEpoch := rfl
@[simp] theorem setBootSel_epochOut (b : BootSel) (s : State) : (setBootSel b s).epochOut = s.epochOut := rfl
@[simp] theorem setBootSel_lc (b : BootSel) (s : State) : (setBootSel b s).lc = s.lc := rfl
@[simp] theorem setBootSel_beneath (b : BootSel) (s : State) : (setBootSel b s).beneath = s.beneath := rfl
@[simp] theorem setBootSel_otp (b : BootSel) (s : State) : (setBootSel b s).otp = s.otp := rfl
@[simp] theorem setBootSel_nv (b : BootSel) (s : State) : (setBootSel b s).nv = { s.nv with bootSel := AB.update s.nv.bootSel b } := rfl
@[simp] theorem setBootSel_link (b : BootSel) (s : State) : (setBootSel b s).link = s.link := rfl
@[simp] theorem setBootSel_fns (b : BootSel) (s : State) : (setBootSel b s).fns = s.fns := rfl
@[simp] theorem setBootSel_vecs (b : BootSel) (s : State) : (setBootSel b s).vecs = s.vecs := rfl
@[simp] theorem setBootSel_mbxs (b : BootSel) (s : State) : (setBootSel b s).mbxs = s.mbxs := rfl
@[simp] theorem setBootSel_queues (b : BootSel) (s : State) : (setBootSel b s).queues = s.queues := rfl
@[simp] theorem setBootSel_cache (b : BootSel) (s : State) : (setBootSel b s).cache = s.cache := rfl
@[simp] theorem setBootSel_nonces (b : BootSel) (s : State) : (setBootSel b s).nonces = s.nonces := rfl
@[simp] theorem setBootSel_work (b : BootSel) (s : State) : (setBootSel b s).work = s.work := rfl
@[simp] theorem setBootSel_lanes (b : BootSel) (s : State) : (setBootSel b s).lanes = s.lanes := rfl
@[simp] theorem setBootSel_slots (b : BootSel) (s : State) : (setBootSel b s).slots = s.slots := rfl
@[simp] theorem setBootSel_sched (b : BootSel) (s : State) : (setBootSel b s).sched = s.sched := rfl
@[simp] theorem setBootSel_drains (b : BootSel) (s : State) : (setBootSel b s).drains = s.drains := rfl
@[simp] theorem setBootSel_oldRules (b : BootSel) (s : State) : (setBootSel b s).oldRules = s.oldRules := rfl
@[simp] theorem setBootSel_jrn (b : BootSel) (s : State) : (setBootSel b s).jrn = s.jrn := rfl
@[simp] theorem setBootSel_dirtyCtrs (b : BootSel) (s : State) : (setBootSel b s).dirtyCtrs = s.dirtyCtrs := rfl
@[simp] theorem setBootSel_banks (b : BootSel) (s : State) : (setBootSel b s).banks = s.banks := rfl
@[simp] theorem setBootSel_lark (b : BootSel) (s : State) : (setBootSel b s).lark = s.lark := rfl
@[simp] theorem setBootSel_keys (b : BootSel) (s : State) : (setBootSel b s).keys = s.keys := rfl
@[simp] theorem setBootSel_pkes (b : BootSel) (s : State) : (setBootSel b s).pkes = s.pkes := rfl
@[simp] theorem setBootSel_gates (b : BootSel) (s : State) : (setBootSel b s).gates = s.gates := rfl
@[simp] theorem setBootSel_epoch (b : BootSel) (s : State) : (setBootSel b s).epoch = s.epoch := rfl
@[simp] theorem setBootSel_engine (b : BootSel) (s : State) : (setBootSel b s).engine = s.engine := rfl
@[simp] theorem setBootSel_dram (b : BootSel) (s : State) : (setBootSel b s).dram = s.dram := rfl
@[simp] theorem setBootSel_dbg (b : BootSel) (s : State) : (setBootSel b s).dbg = s.dbg := rfl
@[simp] theorem setBootSel_lcResetDue (b : BootSel) (s : State) : (setBootSel b s).lcResetDue = s.lcResetDue := rfl
@[simp] theorem setBootSel_tamper (b : BootSel) (s : State) : (setBootSel b s).tamper = s.tamper := rfl
@[simp] theorem setBootSel_meter (b : BootSel) (s : State) : (setBootSel b s).meter = s.meter := rfl
@[simp] theorem setBootSel_dgu0 (b : BootSel) (s : State) : (setBootSel b s).dgu0 = s.dgu0 := rfl
@[simp] theorem setBootSel_dgu1 (b : BootSel) (s : State) : (setBootSel b s).dgu1 = s.dgu1 := rfl
@[simp] theorem setBootSel_ev (b : BootSel) (s : State) : (setBootSel b s).ev = s.ev := rfl
@[simp] theorem setBootSel_diag (b : BootSel) (s : State) : (setBootSel b s).diag = s.diag := rfl
@[simp] theorem setBootSel_health (b : BootSel) (s : State) : (setBootSel b s).health = s.health := rfl
@[simp] theorem setBootSel_pmon (b : BootSel) (s : State) : (setBootSel b s).pmon = s.pmon := rfl
@[simp] theorem setBootSel_spi (b : BootSel) (s : State) : (setBootSel b s).spi = s.spi := rfl
@[simp] theorem setBootSel_waiters (b : BootSel) (s : State) : (setBootSel b s).waiters = s.waiters := rfl
@[simp] theorem setBootSel_held (b : BootSel) (s : State) : (setBootSel b s).held = s.held := rfl
@[simp] theorem setBootSel_out (b : BootSel) (s : State) : (setBootSel b s).out = s.out := rfl
@[simp] theorem setBootSel_free (b : BootSel) (s : State) : (setBootSel b s).free = s.free := rfl

@[simp] theorem writeEvents_pending (s : State) : (writeEvents s).pending = s.pending := rfl
@[simp] theorem writeEvents_pwr (s : State) : (writeEvents s).pwr = s.pwr := rfl
@[simp] theorem writeEvents_boot (s : State) : (writeEvents s).boot = s.boot := rfl
@[simp] theorem writeEvents_opsec (s : State) : (writeEvents s).opsec = s.opsec := rfl
@[simp] theorem writeEvents_pwrCyc (s : State) : (writeEvents s).pwrCyc = s.pwrCyc := rfl
@[simp] theorem writeEvents_bootEpoch (s : State) : (writeEvents s).bootEpoch = s.bootEpoch := rfl
@[simp] theorem writeEvents_epochOut (s : State) : (writeEvents s).epochOut = s.epochOut := rfl
@[simp] theorem writeEvents_lc (s : State) : (writeEvents s).lc = s.lc := rfl
@[simp] theorem writeEvents_beneath (s : State) : (writeEvents s).beneath = s.beneath := rfl
@[simp] theorem writeEvents_otp (s : State) : (writeEvents s).otp = s.otp := rfl
@[simp] theorem writeEvents_nv (s : State) : (writeEvents s).nv = { s.nv with evArea := s.ev.buf.foldl (fun a r => tset a (r.evn % eventSlots) r) s.nv.evArea } := rfl
@[simp] theorem writeEvents_link (s : State) : (writeEvents s).link = s.link := rfl
@[simp] theorem writeEvents_fns (s : State) : (writeEvents s).fns = s.fns := rfl
@[simp] theorem writeEvents_vecs (s : State) : (writeEvents s).vecs = s.vecs := rfl
@[simp] theorem writeEvents_mbxs (s : State) : (writeEvents s).mbxs = s.mbxs := rfl
@[simp] theorem writeEvents_queues (s : State) : (writeEvents s).queues = s.queues := rfl
@[simp] theorem writeEvents_cache (s : State) : (writeEvents s).cache = s.cache := rfl
@[simp] theorem writeEvents_nonces (s : State) : (writeEvents s).nonces = s.nonces := rfl
@[simp] theorem writeEvents_work (s : State) : (writeEvents s).work = s.work := rfl
@[simp] theorem writeEvents_lanes (s : State) : (writeEvents s).lanes = s.lanes := rfl
@[simp] theorem writeEvents_slots (s : State) : (writeEvents s).slots = s.slots := rfl
@[simp] theorem writeEvents_sched (s : State) : (writeEvents s).sched = s.sched := rfl
@[simp] theorem writeEvents_drains (s : State) : (writeEvents s).drains = s.drains := rfl
@[simp] theorem writeEvents_oldRules (s : State) : (writeEvents s).oldRules = s.oldRules := rfl
@[simp] theorem writeEvents_jrn (s : State) : (writeEvents s).jrn = s.jrn := rfl
@[simp] theorem writeEvents_dirtyCtrs (s : State) : (writeEvents s).dirtyCtrs = s.dirtyCtrs := rfl
@[simp] theorem writeEvents_banks (s : State) : (writeEvents s).banks = s.banks := rfl
@[simp] theorem writeEvents_lark (s : State) : (writeEvents s).lark = s.lark := rfl
@[simp] theorem writeEvents_keys (s : State) : (writeEvents s).keys = s.keys := rfl
@[simp] theorem writeEvents_pkes (s : State) : (writeEvents s).pkes = s.pkes := rfl
@[simp] theorem writeEvents_gates (s : State) : (writeEvents s).gates = s.gates := rfl
@[simp] theorem writeEvents_epoch (s : State) : (writeEvents s).epoch = s.epoch := rfl
@[simp] theorem writeEvents_engine (s : State) : (writeEvents s).engine = s.engine := rfl
@[simp] theorem writeEvents_dram (s : State) : (writeEvents s).dram = s.dram := rfl
@[simp] theorem writeEvents_dbg (s : State) : (writeEvents s).dbg = s.dbg := rfl
@[simp] theorem writeEvents_lcResetDue (s : State) : (writeEvents s).lcResetDue = s.lcResetDue := rfl
@[simp] theorem writeEvents_tamper (s : State) : (writeEvents s).tamper = s.tamper := rfl
@[simp] theorem writeEvents_meter (s : State) : (writeEvents s).meter = s.meter := rfl
@[simp] theorem writeEvents_dgu0 (s : State) : (writeEvents s).dgu0 = s.dgu0 := rfl
@[simp] theorem writeEvents_dgu1 (s : State) : (writeEvents s).dgu1 = s.dgu1 := rfl
@[simp] theorem writeEvents_ev (s : State) : (writeEvents s).ev = { s.ev with buf := [] } := rfl
@[simp] theorem writeEvents_diag (s : State) : (writeEvents s).diag = s.diag := rfl
@[simp] theorem writeEvents_health (s : State) : (writeEvents s).health = s.health := rfl
@[simp] theorem writeEvents_pmon (s : State) : (writeEvents s).pmon = s.pmon := rfl
@[simp] theorem writeEvents_spi (s : State) : (writeEvents s).spi = s.spi := rfl
@[simp] theorem writeEvents_waiters (s : State) : (writeEvents s).waiters = s.waiters := rfl
@[simp] theorem writeEvents_held (s : State) : (writeEvents s).held = s.held := rfl
@[simp] theorem writeEvents_out (s : State) : (writeEvents s).out = s.out := rfl
@[simp] theorem writeEvents_free (s : State) : (writeEvents s).free = s.free := rfl

@[simp] theorem shiftOut_pending (b : Bytes) (s : State) : (shiftOut b s).pending = s.pending := rfl
@[simp] theorem shiftOut_pwr (b : Bytes) (s : State) : (shiftOut b s).pwr = s.pwr := rfl
@[simp] theorem shiftOut_boot (b : Bytes) (s : State) : (shiftOut b s).boot = s.boot := rfl
@[simp] theorem shiftOut_opsec (b : Bytes) (s : State) : (shiftOut b s).opsec = s.opsec := rfl
@[simp] theorem shiftOut_pwrCyc (b : Bytes) (s : State) : (shiftOut b s).pwrCyc = s.pwrCyc := rfl
@[simp] theorem shiftOut_bootEpoch (b : Bytes) (s : State) : (shiftOut b s).bootEpoch = s.bootEpoch := rfl
@[simp] theorem shiftOut_epochOut (b : Bytes) (s : State) : (shiftOut b s).epochOut = s.epochOut := rfl
@[simp] theorem shiftOut_lc (b : Bytes) (s : State) : (shiftOut b s).lc = s.lc := rfl
@[simp] theorem shiftOut_beneath (b : Bytes) (s : State) : (shiftOut b s).beneath = s.beneath := rfl
@[simp] theorem shiftOut_otp (b : Bytes) (s : State) : (shiftOut b s).otp = s.otp := rfl
@[simp] theorem shiftOut_nv (b : Bytes) (s : State) : (shiftOut b s).nv = s.nv := rfl
@[simp] theorem shiftOut_link (b : Bytes) (s : State) : (shiftOut b s).link = s.link := rfl
@[simp] theorem shiftOut_fns (b : Bytes) (s : State) : (shiftOut b s).fns = s.fns := rfl
@[simp] theorem shiftOut_vecs (b : Bytes) (s : State) : (shiftOut b s).vecs = s.vecs := rfl
@[simp] theorem shiftOut_mbxs (b : Bytes) (s : State) : (shiftOut b s).mbxs = s.mbxs := rfl
@[simp] theorem shiftOut_queues (b : Bytes) (s : State) : (shiftOut b s).queues = s.queues := rfl
@[simp] theorem shiftOut_cache (b : Bytes) (s : State) : (shiftOut b s).cache = s.cache := rfl
@[simp] theorem shiftOut_nonces (b : Bytes) (s : State) : (shiftOut b s).nonces = s.nonces := rfl
@[simp] theorem shiftOut_work (b : Bytes) (s : State) : (shiftOut b s).work = s.work := rfl
@[simp] theorem shiftOut_lanes (b : Bytes) (s : State) : (shiftOut b s).lanes = s.lanes := rfl
@[simp] theorem shiftOut_slots (b : Bytes) (s : State) : (shiftOut b s).slots = s.slots := rfl
@[simp] theorem shiftOut_sched (b : Bytes) (s : State) : (shiftOut b s).sched = s.sched := rfl
@[simp] theorem shiftOut_drains (b : Bytes) (s : State) : (shiftOut b s).drains = s.drains := rfl
@[simp] theorem shiftOut_oldRules (b : Bytes) (s : State) : (shiftOut b s).oldRules = s.oldRules := rfl
@[simp] theorem shiftOut_jrn (b : Bytes) (s : State) : (shiftOut b s).jrn = s.jrn := rfl
@[simp] theorem shiftOut_dirtyCtrs (b : Bytes) (s : State) : (shiftOut b s).dirtyCtrs = s.dirtyCtrs := rfl
@[simp] theorem shiftOut_banks (b : Bytes) (s : State) : (shiftOut b s).banks = s.banks := rfl
@[simp] theorem shiftOut_lark (b : Bytes) (s : State) : (shiftOut b s).lark = s.lark := rfl
@[simp] theorem shiftOut_keys (b : Bytes) (s : State) : (shiftOut b s).keys = s.keys := rfl
@[simp] theorem shiftOut_pkes (b : Bytes) (s : State) : (shiftOut b s).pkes = s.pkes := rfl
@[simp] theorem shiftOut_gates (b : Bytes) (s : State) : (shiftOut b s).gates = s.gates := rfl
@[simp] theorem shiftOut_epoch (b : Bytes) (s : State) : (shiftOut b s).epoch = s.epoch := rfl
@[simp] theorem shiftOut_engine (b : Bytes) (s : State) : (shiftOut b s).engine = s.engine := rfl
@[simp] theorem shiftOut_dram (b : Bytes) (s : State) : (shiftOut b s).dram = s.dram := rfl
@[simp] theorem shiftOut_dbg (b : Bytes) (s : State) : (shiftOut b s).dbg = s.dbg := rfl
@[simp] theorem shiftOut_lcResetDue (b : Bytes) (s : State) : (shiftOut b s).lcResetDue = s.lcResetDue := rfl
@[simp] theorem shiftOut_tamper (b : Bytes) (s : State) : (shiftOut b s).tamper = s.tamper := rfl
@[simp] theorem shiftOut_meter (b : Bytes) (s : State) : (shiftOut b s).meter = s.meter := rfl
@[simp] theorem shiftOut_dgu0 (b : Bytes) (s : State) : (shiftOut b s).dgu0 = s.dgu0 := rfl
@[simp] theorem shiftOut_dgu1 (b : Bytes) (s : State) : (shiftOut b s).dgu1 = s.dgu1 := rfl
@[simp] theorem shiftOut_ev (b : Bytes) (s : State) : (shiftOut b s).ev = s.ev := rfl
@[simp] theorem shiftOut_diag (b : Bytes) (s : State) : (shiftOut b s).diag = s.diag := rfl
@[simp] theorem shiftOut_health (b : Bytes) (s : State) : (shiftOut b s).health = s.health := rfl
@[simp] theorem shiftOut_pmon (b : Bytes) (s : State) : (shiftOut b s).pmon = s.pmon := rfl
@[simp] theorem shiftOut_spi (b : Bytes) (s : State) : (shiftOut b s).spi = s.spi := rfl
@[simp] theorem shiftOut_waiters (b : Bytes) (s : State) : (shiftOut b s).waiters = s.waiters := rfl
@[simp] theorem shiftOut_held (b : Bytes) (s : State) : (shiftOut b s).held = s.held := rfl
@[simp] theorem shiftOut_out (b : Bytes) (s : State) : (shiftOut b s).out = s.out ++ [.tdo b] := rfl
@[simp] theorem shiftOut_free (b : Bytes) (s : State) : (shiftOut b s).free = s.free := rfl

@[simp] theorem spiSend_pending (b : Bytes) (s : State) : (spiSend b s).pending = s.pending := rfl
@[simp] theorem spiSend_pwr (b : Bytes) (s : State) : (spiSend b s).pwr = s.pwr := rfl
@[simp] theorem spiSend_boot (b : Bytes) (s : State) : (spiSend b s).boot = s.boot := rfl
@[simp] theorem spiSend_opsec (b : Bytes) (s : State) : (spiSend b s).opsec = s.opsec := rfl
@[simp] theorem spiSend_pwrCyc (b : Bytes) (s : State) : (spiSend b s).pwrCyc = s.pwrCyc := rfl
@[simp] theorem spiSend_bootEpoch (b : Bytes) (s : State) : (spiSend b s).bootEpoch = s.bootEpoch := rfl
@[simp] theorem spiSend_epochOut (b : Bytes) (s : State) : (spiSend b s).epochOut = s.epochOut := rfl
@[simp] theorem spiSend_lc (b : Bytes) (s : State) : (spiSend b s).lc = s.lc := rfl
@[simp] theorem spiSend_beneath (b : Bytes) (s : State) : (spiSend b s).beneath = s.beneath := rfl
@[simp] theorem spiSend_otp (b : Bytes) (s : State) : (spiSend b s).otp = s.otp := rfl
@[simp] theorem spiSend_nv (b : Bytes) (s : State) : (spiSend b s).nv = s.nv := rfl
@[simp] theorem spiSend_link (b : Bytes) (s : State) : (spiSend b s).link = s.link := rfl
@[simp] theorem spiSend_fns (b : Bytes) (s : State) : (spiSend b s).fns = s.fns := rfl
@[simp] theorem spiSend_vecs (b : Bytes) (s : State) : (spiSend b s).vecs = s.vecs := rfl
@[simp] theorem spiSend_mbxs (b : Bytes) (s : State) : (spiSend b s).mbxs = s.mbxs := rfl
@[simp] theorem spiSend_queues (b : Bytes) (s : State) : (spiSend b s).queues = s.queues := rfl
@[simp] theorem spiSend_cache (b : Bytes) (s : State) : (spiSend b s).cache = s.cache := rfl
@[simp] theorem spiSend_nonces (b : Bytes) (s : State) : (spiSend b s).nonces = s.nonces := rfl
@[simp] theorem spiSend_work (b : Bytes) (s : State) : (spiSend b s).work = s.work := rfl
@[simp] theorem spiSend_lanes (b : Bytes) (s : State) : (spiSend b s).lanes = s.lanes := rfl
@[simp] theorem spiSend_slots (b : Bytes) (s : State) : (spiSend b s).slots = s.slots := rfl
@[simp] theorem spiSend_sched (b : Bytes) (s : State) : (spiSend b s).sched = s.sched := rfl
@[simp] theorem spiSend_drains (b : Bytes) (s : State) : (spiSend b s).drains = s.drains := rfl
@[simp] theorem spiSend_oldRules (b : Bytes) (s : State) : (spiSend b s).oldRules = s.oldRules := rfl
@[simp] theorem spiSend_jrn (b : Bytes) (s : State) : (spiSend b s).jrn = s.jrn := rfl
@[simp] theorem spiSend_dirtyCtrs (b : Bytes) (s : State) : (spiSend b s).dirtyCtrs = s.dirtyCtrs := rfl
@[simp] theorem spiSend_banks (b : Bytes) (s : State) : (spiSend b s).banks = s.banks := rfl
@[simp] theorem spiSend_lark (b : Bytes) (s : State) : (spiSend b s).lark = s.lark := rfl
@[simp] theorem spiSend_keys (b : Bytes) (s : State) : (spiSend b s).keys = s.keys := rfl
@[simp] theorem spiSend_pkes (b : Bytes) (s : State) : (spiSend b s).pkes = s.pkes := rfl
@[simp] theorem spiSend_gates (b : Bytes) (s : State) : (spiSend b s).gates = s.gates := rfl
@[simp] theorem spiSend_epoch (b : Bytes) (s : State) : (spiSend b s).epoch = s.epoch := rfl
@[simp] theorem spiSend_engine (b : Bytes) (s : State) : (spiSend b s).engine = s.engine := rfl
@[simp] theorem spiSend_dram (b : Bytes) (s : State) : (spiSend b s).dram = s.dram := rfl
@[simp] theorem spiSend_dbg (b : Bytes) (s : State) : (spiSend b s).dbg = s.dbg := rfl
@[simp] theorem spiSend_lcResetDue (b : Bytes) (s : State) : (spiSend b s).lcResetDue = s.lcResetDue := rfl
@[simp] theorem spiSend_tamper (b : Bytes) (s : State) : (spiSend b s).tamper = s.tamper := rfl
@[simp] theorem spiSend_meter (b : Bytes) (s : State) : (spiSend b s).meter = s.meter := rfl
@[simp] theorem spiSend_dgu0 (b : Bytes) (s : State) : (spiSend b s).dgu0 = s.dgu0 := rfl
@[simp] theorem spiSend_dgu1 (b : Bytes) (s : State) : (spiSend b s).dgu1 = s.dgu1 := rfl
@[simp] theorem spiSend_ev (b : Bytes) (s : State) : (spiSend b s).ev = s.ev := rfl
@[simp] theorem spiSend_diag (b : Bytes) (s : State) : (spiSend b s).diag = s.diag := rfl
@[simp] theorem spiSend_health (b : Bytes) (s : State) : (spiSend b s).health = s.health := rfl
@[simp] theorem spiSend_pmon (b : Bytes) (s : State) : (spiSend b s).pmon = s.pmon := rfl
@[simp] theorem spiSend_spi (b : Bytes) (s : State) : (spiSend b s).spi = s.spi := rfl
@[simp] theorem spiSend_waiters (b : Bytes) (s : State) : (spiSend b s).waiters = s.waiters := rfl
@[simp] theorem spiSend_held (b : Bytes) (s : State) : (spiSend b s).held = s.held := rfl
@[simp] theorem spiSend_out (b : Bytes) (s : State) : (spiSend b s).out = s.out ++ [.spi (b ++ le 4 (crc32 b).toNat)] := rfl
@[simp] theorem spiSend_free (b : Bytes) (s : State) : (spiSend b s).free = s.free := rfl

@[simp] theorem noteCap_pending (c : CapResult) (s : State) : (noteCap c s).pending = s.pending := rfl
@[simp] theorem noteCap_pwr (c : CapResult) (s : State) : (noteCap c s).pwr = { s.pwr with cap := c, capOpsec := s.opsec } := rfl
@[simp] theorem noteCap_boot (c : CapResult) (s : State) : (noteCap c s).boot = s.boot := rfl
@[simp] theorem noteCap_opsec (c : CapResult) (s : State) : (noteCap c s).opsec = s.opsec := rfl
@[simp] theorem noteCap_pwrCyc (c : CapResult) (s : State) : (noteCap c s).pwrCyc = s.pwrCyc := rfl
@[simp] theorem noteCap_bootEpoch (c : CapResult) (s : State) : (noteCap c s).bootEpoch = s.bootEpoch := rfl
@[simp] theorem noteCap_epochOut (c : CapResult) (s : State) : (noteCap c s).epochOut = s.epochOut := rfl
@[simp] theorem noteCap_lc (c : CapResult) (s : State) : (noteCap c s).lc = s.lc := rfl
@[simp] theorem noteCap_beneath (c : CapResult) (s : State) : (noteCap c s).beneath = s.beneath := rfl
@[simp] theorem noteCap_otp (c : CapResult) (s : State) : (noteCap c s).otp = s.otp := rfl
@[simp] theorem noteCap_nv (c : CapResult) (s : State) : (noteCap c s).nv = s.nv := rfl
@[simp] theorem noteCap_link (c : CapResult) (s : State) : (noteCap c s).link = s.link := rfl
@[simp] theorem noteCap_fns (c : CapResult) (s : State) : (noteCap c s).fns = s.fns := rfl
@[simp] theorem noteCap_vecs (c : CapResult) (s : State) : (noteCap c s).vecs = s.vecs := rfl
@[simp] theorem noteCap_mbxs (c : CapResult) (s : State) : (noteCap c s).mbxs = s.mbxs := rfl
@[simp] theorem noteCap_queues (c : CapResult) (s : State) : (noteCap c s).queues = s.queues := rfl
@[simp] theorem noteCap_cache (c : CapResult) (s : State) : (noteCap c s).cache = s.cache := rfl
@[simp] theorem noteCap_nonces (c : CapResult) (s : State) : (noteCap c s).nonces = s.nonces := rfl
@[simp] theorem noteCap_work (c : CapResult) (s : State) : (noteCap c s).work = s.work := rfl
@[simp] theorem noteCap_lanes (c : CapResult) (s : State) : (noteCap c s).lanes = s.lanes := rfl
@[simp] theorem noteCap_slots (c : CapResult) (s : State) : (noteCap c s).slots = s.slots := rfl
@[simp] theorem noteCap_sched (c : CapResult) (s : State) : (noteCap c s).sched = s.sched := rfl
@[simp] theorem noteCap_drains (c : CapResult) (s : State) : (noteCap c s).drains = s.drains := rfl
@[simp] theorem noteCap_oldRules (c : CapResult) (s : State) : (noteCap c s).oldRules = s.oldRules := rfl
@[simp] theorem noteCap_jrn (c : CapResult) (s : State) : (noteCap c s).jrn = s.jrn := rfl
@[simp] theorem noteCap_dirtyCtrs (c : CapResult) (s : State) : (noteCap c s).dirtyCtrs = s.dirtyCtrs := rfl
@[simp] theorem noteCap_banks (c : CapResult) (s : State) : (noteCap c s).banks = s.banks := rfl
@[simp] theorem noteCap_lark (c : CapResult) (s : State) : (noteCap c s).lark = s.lark := rfl
@[simp] theorem noteCap_keys (c : CapResult) (s : State) : (noteCap c s).keys = s.keys := rfl
@[simp] theorem noteCap_pkes (c : CapResult) (s : State) : (noteCap c s).pkes = s.pkes := rfl
@[simp] theorem noteCap_gates (c : CapResult) (s : State) : (noteCap c s).gates = s.gates := rfl
@[simp] theorem noteCap_epoch (c : CapResult) (s : State) : (noteCap c s).epoch = s.epoch := rfl
@[simp] theorem noteCap_engine (c : CapResult) (s : State) : (noteCap c s).engine = s.engine := rfl
@[simp] theorem noteCap_dram (c : CapResult) (s : State) : (noteCap c s).dram = s.dram := rfl
@[simp] theorem noteCap_dbg (c : CapResult) (s : State) : (noteCap c s).dbg = s.dbg := rfl
@[simp] theorem noteCap_lcResetDue (c : CapResult) (s : State) : (noteCap c s).lcResetDue = s.lcResetDue := rfl
@[simp] theorem noteCap_tamper (c : CapResult) (s : State) : (noteCap c s).tamper = s.tamper := rfl
@[simp] theorem noteCap_meter (c : CapResult) (s : State) : (noteCap c s).meter = s.meter := rfl
@[simp] theorem noteCap_dgu0 (c : CapResult) (s : State) : (noteCap c s).dgu0 = s.dgu0 := rfl
@[simp] theorem noteCap_dgu1 (c : CapResult) (s : State) : (noteCap c s).dgu1 = s.dgu1 := rfl
@[simp] theorem noteCap_ev (c : CapResult) (s : State) : (noteCap c s).ev = s.ev := rfl
@[simp] theorem noteCap_diag (c : CapResult) (s : State) : (noteCap c s).diag = s.diag := rfl
@[simp] theorem noteCap_health (c : CapResult) (s : State) : (noteCap c s).health = s.health := rfl
@[simp] theorem noteCap_pmon (c : CapResult) (s : State) : (noteCap c s).pmon = s.pmon := rfl
@[simp] theorem noteCap_spi (c : CapResult) (s : State) : (noteCap c s).spi = s.spi := rfl
@[simp] theorem noteCap_waiters (c : CapResult) (s : State) : (noteCap c s).waiters = s.waiters := rfl
@[simp] theorem noteCap_held (c : CapResult) (s : State) : (noteCap c s).held = s.held := rfl
@[simp] theorem noteCap_out (c : CapResult) (s : State) : (noteCap c s).out = s.out := rfl
@[simp] theorem noteCap_free (c : CapResult) (s : State) : (noteCap c s).free = s.free := rfl

@[simp] theorem withPost_pending (s : State) (p : Post) : (s.withPost p).pending = s.pending := rfl
@[simp] theorem withPost_pwr (s : State) (p : Post) : (s.withPost p).pwr = s.pwr := rfl
@[simp] theorem withPost_boot (s : State) (p : Post) : (s.withPost p).boot = s.boot := rfl
@[simp] theorem withPost_opsec (s : State) (p : Post) : (s.withPost p).opsec = s.opsec := rfl
@[simp] theorem withPost_pwrCyc (s : State) (p : Post) : (s.withPost p).pwrCyc = s.pwrCyc := rfl
@[simp] theorem withPost_bootEpoch (s : State) (p : Post) : (s.withPost p).bootEpoch = s.bootEpoch := rfl
@[simp] theorem withPost_epochOut (s : State) (p : Post) : (s.withPost p).epochOut = s.epochOut := rfl
@[simp] theorem withPost_lc (s : State) (p : Post) : (s.withPost p).lc = s.lc := rfl
@[simp] theorem withPost_beneath (s : State) (p : Post) : (s.withPost p).beneath = s.beneath := rfl
@[simp] theorem withPost_otp (s : State) (p : Post) : (s.withPost p).otp = s.otp := rfl
@[simp] theorem withPost_nv (s : State) (p : Post) : (s.withPost p).nv = s.nv := rfl
@[simp] theorem withPost_link (s : State) (p : Post) : (s.withPost p).link = s.link := rfl
@[simp] theorem withPost_fns (s : State) (p : Post) : (s.withPost p).fns = s.fns := rfl
@[simp] theorem withPost_vecs (s : State) (p : Post) : (s.withPost p).vecs = p.vecs := rfl
@[simp] theorem withPost_mbxs (s : State) (p : Post) : (s.withPost p).mbxs = s.mbxs := rfl
@[simp] theorem withPost_queues (s : State) (p : Post) : (s.withPost p).queues = s.queues := rfl
@[simp] theorem withPost_cache (s : State) (p : Post) : (s.withPost p).cache = s.cache := rfl
@[simp] theorem withPost_nonces (s : State) (p : Post) : (s.withPost p).nonces = s.nonces := rfl
@[simp] theorem withPost_work (s : State) (p : Post) : (s.withPost p).work = s.work := rfl
@[simp] theorem withPost_lanes (s : State) (p : Post) : (s.withPost p).lanes = s.lanes := rfl
@[simp] theorem withPost_slots (s : State) (p : Post) : (s.withPost p).slots = s.slots := rfl
@[simp] theorem withPost_sched (s : State) (p : Post) : (s.withPost p).sched = s.sched := rfl
@[simp] theorem withPost_drains (s : State) (p : Post) : (s.withPost p).drains = s.drains := rfl
@[simp] theorem withPost_oldRules (s : State) (p : Post) : (s.withPost p).oldRules = s.oldRules := rfl
@[simp] theorem withPost_jrn (s : State) (p : Post) : (s.withPost p).jrn = s.jrn := rfl
@[simp] theorem withPost_dirtyCtrs (s : State) (p : Post) : (s.withPost p).dirtyCtrs = s.dirtyCtrs := rfl
@[simp] theorem withPost_banks (s : State) (p : Post) : (s.withPost p).banks = s.banks := rfl
@[simp] theorem withPost_lark (s : State) (p : Post) : (s.withPost p).lark = s.lark := rfl
@[simp] theorem withPost_keys (s : State) (p : Post) : (s.withPost p).keys = s.keys := rfl
@[simp] theorem withPost_pkes (s : State) (p : Post) : (s.withPost p).pkes = s.pkes := rfl
@[simp] theorem withPost_gates (s : State) (p : Post) : (s.withPost p).gates = s.gates := rfl
@[simp] theorem withPost_epoch (s : State) (p : Post) : (s.withPost p).epoch = s.epoch := rfl
@[simp] theorem withPost_engine (s : State) (p : Post) : (s.withPost p).engine = s.engine := rfl
@[simp] theorem withPost_dram (s : State) (p : Post) : (s.withPost p).dram = s.dram := rfl
@[simp] theorem withPost_dbg (s : State) (p : Post) : (s.withPost p).dbg = s.dbg := rfl
@[simp] theorem withPost_lcResetDue (s : State) (p : Post) : (s.withPost p).lcResetDue = s.lcResetDue := rfl
@[simp] theorem withPost_tamper (s : State) (p : Post) : (s.withPost p).tamper = s.tamper := rfl
@[simp] theorem withPost_meter (s : State) (p : Post) : (s.withPost p).meter = s.meter := rfl
@[simp] theorem withPost_dgu0 (s : State) (p : Post) : (s.withPost p).dgu0 = s.dgu0 := rfl
@[simp] theorem withPost_dgu1 (s : State) (p : Post) : (s.withPost p).dgu1 = s.dgu1 := rfl
@[simp] theorem withPost_ev (s : State) (p : Post) : (s.withPost p).ev = s.ev := rfl
@[simp] theorem withPost_diag (s : State) (p : Post) : (s.withPost p).diag = s.diag := rfl
@[simp] theorem withPost_health (s : State) (p : Post) : (s.withPost p).health = s.health := rfl
@[simp] theorem withPost_pmon (s : State) (p : Post) : (s.withPost p).pmon = p.pmon := rfl
@[simp] theorem withPost_spi (s : State) (p : Post) : (s.withPost p).spi = s.spi := rfl
@[simp] theorem withPost_waiters (s : State) (p : Post) : (s.withPost p).waiters = s.waiters := rfl
@[simp] theorem withPost_held (s : State) (p : Post) : (s.withPost p).held = s.held := rfl
@[simp] theorem withPost_out (s : State) (p : Post) : (s.withPost p).out = p.out := rfl
@[simp] theorem withPost_free (s : State) (p : Post) : (s.withPost p).free = s.free := rfl

@[simp] theorem settle_pending (s0 s : State) : (settle s0 s).pending = s.pending := rfl
@[simp] theorem settle_pwr (s0 s : State) : (settle s0 s).pwr = s.pwr := rfl
@[simp] theorem settle_boot (s0 s : State) : (settle s0 s).boot = s.boot := rfl
@[simp] theorem settle_opsec (s0 s : State) : (settle s0 s).opsec = s.opsec := rfl
@[simp] theorem settle_pwrCyc (s0 s : State) : (settle s0 s).pwrCyc = s.pwrCyc := rfl
@[simp] theorem settle_bootEpoch (s0 s : State) : (settle s0 s).bootEpoch = s.bootEpoch := rfl
@[simp] theorem settle_epochOut (s0 s : State) : (settle s0 s).epochOut = s.epochOut := rfl
@[simp] theorem settle_lc (s0 s : State) : (settle s0 s).lc = s.lc := rfl
@[simp] theorem settle_beneath (s0 s : State) : (settle s0 s).beneath = s.beneath := rfl
@[simp] theorem settle_otp (s0 s : State) : (settle s0 s).otp = s.otp := rfl
@[simp] theorem settle_nv (s0 s : State) : (settle s0 s).nv = s.nv := rfl
@[simp] theorem settle_mbxs (s0 s : State) : (settle s0 s).mbxs = s.mbxs := rfl
@[simp] theorem settle_cache (s0 s : State) : (settle s0 s).cache = s.cache := rfl
@[simp] theorem settle_nonces (s0 s : State) : (settle s0 s).nonces = s.nonces := rfl
@[simp] theorem settle_lanes (s0 s : State) : (settle s0 s).lanes = s.lanes := rfl
@[simp] theorem settle_slots (s0 s : State) : (settle s0 s).slots = s.slots := rfl
@[simp] theorem settle_sched (s0 s : State) : (settle s0 s).sched = s.sched := rfl
@[simp] theorem settle_drains (s0 s : State) : (settle s0 s).drains = s.drains := rfl
@[simp] theorem settle_oldRules (s0 s : State) : (settle s0 s).oldRules = s.oldRules := rfl
@[simp] theorem settle_dirtyCtrs (s0 s : State) : (settle s0 s).dirtyCtrs = s.dirtyCtrs := rfl
@[simp] theorem settle_banks (s0 s : State) : (settle s0 s).banks = s.banks := rfl
@[simp] theorem settle_lark (s0 s : State) : (settle s0 s).lark = s.lark := rfl
@[simp] theorem settle_keys (s0 s : State) : (settle s0 s).keys = s.keys := rfl
@[simp] theorem settle_pkes (s0 s : State) : (settle s0 s).pkes = s.pkes := rfl
@[simp] theorem settle_epoch (s0 s : State) : (settle s0 s).epoch = s.epoch := rfl
@[simp] theorem settle_engine (s0 s : State) : (settle s0 s).engine = s.engine := rfl
@[simp] theorem settle_dram (s0 s : State) : (settle s0 s).dram = s.dram := rfl
@[simp] theorem settle_dbg (s0 s : State) : (settle s0 s).dbg = s.dbg := rfl
@[simp] theorem settle_lcResetDue (s0 s : State) : (settle s0 s).lcResetDue = s.lcResetDue := rfl
@[simp] theorem settle_tamper (s0 s : State) : (settle s0 s).tamper = s.tamper := rfl
@[simp] theorem settle_meter (s0 s : State) : (settle s0 s).meter = s.meter := rfl
@[simp] theorem settle_dgu0 (s0 s : State) : (settle s0 s).dgu0 = s.dgu0 := rfl
@[simp] theorem settle_dgu1 (s0 s : State) : (settle s0 s).dgu1 = s.dgu1 := rfl
@[simp] theorem settle_diag (s0 s : State) : (settle s0 s).diag = s.diag := rfl
@[simp] theorem settle_health (s0 s : State) : (settle s0 s).health = s.health := rfl
@[simp] theorem settle_waiters (s0 s : State) : (settle s0 s).waiters = s.waiters := rfl
@[simp] theorem settle_held (s0 s : State) : (settle s0 s).held = s.held := rfl
@[simp] theorem settle_free (s0 s : State) : (settle s0 s).free = s.free := rfl
end Sys2Proof.Machine
end

