-- ==== Sys2Proof/Laws/Shared.lean ====
section
/-! SUPPORT. What each shared operation can change: it leaves the state it was given but for the fields its lemma names, and so each other
field as it was. -/

namespace Sys2Proof.Machine

/-- What the start of a fold has and every step of it keeps, its end has. -/
theorem foldl_keeps {α : Type} {P : State → Prop} (g : State → α → State) (l : List α) (s : State) (h0 : P s)
    (h : ∀ t x, P t → P (g t x)) : P (l.foldl g s) := by
  induction l generalizing s with
  | nil => exact h0
  | cons a l ih => exact ih _ (h _ _ h0)

theorem eventX_only (code arg : Nat) (ext : Bytes) (s : State) :
    eventX code arg ext s = { s with
      ev := (eventX code arg ext s).ev, pmon := (eventX code arg ext s).pmon } := by
  unfold eventX
  split <;> rfl

@[simp] theorem eventX_pending (code arg : Nat) (ext : Bytes) (s : State) : (eventX code arg ext s).pending = s.pending := by rw
    [eventX_only]
@[simp] theorem eventX_pwr (code arg : Nat) (ext : Bytes) (s : State) : (eventX code arg ext s).pwr = s.pwr := by rw [eventX_only]
@[simp] theorem eventX_boot (code arg : Nat) (ext : Bytes) (s : State) : (eventX code arg ext s).boot = s.boot := by rw [eventX_only]
@[simp] theorem eventX_opsec (code arg : Nat) (ext : Bytes) (s : State) : (eventX code arg ext s).opsec = s.opsec := by rw [eventX_only]
@[simp] theorem eventX_pwrCyc (code arg : Nat) (ext : Bytes) (s : State) : (eventX code arg ext s).pwrCyc = s.pwrCyc := by rw [eventX_only]
@[simp] theorem eventX_bootEpoch (code arg : Nat) (ext : Bytes) (s : State) : (eventX code arg ext s).bootEpoch = s.bootEpoch := by rw
    [eventX_only]
@[simp] theorem eventX_epochOut (code arg : Nat) (ext : Bytes) (s : State) : (eventX code arg ext s).epochOut = s.epochOut := by rw
    [eventX_only]
@[simp] theorem eventX_lc (code arg : Nat) (ext : Bytes) (s : State) : (eventX code arg ext s).lc = s.lc := by rw [eventX_only]
@[simp] theorem eventX_beneath (code arg : Nat) (ext : Bytes) (s : State) : (eventX code arg ext s).beneath = s.beneath := by rw
    [eventX_only]
@[simp] theorem eventX_otp (code arg : Nat) (ext : Bytes) (s : State) : (eventX code arg ext s).otp = s.otp := by rw [eventX_only]
@[simp] theorem eventX_nv (code arg : Nat) (ext : Bytes) (s : State) : (eventX code arg ext s).nv = s.nv := by rw [eventX_only]
@[simp] theorem eventX_link (code arg : Nat) (ext : Bytes) (s : State) : (eventX code arg ext s).link = s.link := by rw [eventX_only]
@[simp] theorem eventX_fns (code arg : Nat) (ext : Bytes) (s : State) : (eventX code arg ext s).fns = s.fns := by rw [eventX_only]
@[simp] theorem eventX_vecs (code arg : Nat) (ext : Bytes) (s : State) : (eventX code arg ext s).vecs = s.vecs := by rw [eventX_only]
@[simp] theorem eventX_mbxs (code arg : Nat) (ext : Bytes) (s : State) : (eventX code arg ext s).mbxs = s.mbxs := by rw [eventX_only]
@[simp] theorem eventX_queues (code arg : Nat) (ext : Bytes) (s : State) : (eventX code arg ext s).queues = s.queues := by rw [eventX_only]
@[simp] theorem eventX_cache (code arg : Nat) (ext : Bytes) (s : State) : (eventX code arg ext s).cache = s.cache := by rw [eventX_only]
@[simp] theorem eventX_nonces (code arg : Nat) (ext : Bytes) (s : State) : (eventX code arg ext s).nonces = s.nonces := by rw [eventX_only]
@[simp] theorem eventX_work (code arg : Nat) (ext : Bytes) (s : State) : (eventX code arg ext s).work = s.work := by rw [eventX_only]
@[simp] theorem eventX_lanes (code arg : Nat) (ext : Bytes) (s : State) : (eventX code arg ext s).lanes = s.lanes := by rw [eventX_only]
@[simp] theorem eventX_slots (code arg : Nat) (ext : Bytes) (s : State) : (eventX code arg ext s).slots = s.slots := by rw [eventX_only]
@[simp] theorem eventX_sched (code arg : Nat) (ext : Bytes) (s : State) : (eventX code arg ext s).sched = s.sched := by rw [eventX_only]
@[simp] theorem eventX_drains (code arg : Nat) (ext : Bytes) (s : State) : (eventX code arg ext s).drains = s.drains := by rw [eventX_only]
@[simp] theorem eventX_oldRules (code arg : Nat) (ext : Bytes) (s : State) : (eventX code arg ext s).oldRules = s.oldRules := by rw
    [eventX_only]
@[simp] theorem eventX_jrn (code arg : Nat) (ext : Bytes) (s : State) : (eventX code arg ext s).jrn = s.jrn := by rw [eventX_only]
@[simp] theorem eventX_dirtyCtrs (code arg : Nat) (ext : Bytes) (s : State) : (eventX code arg ext s).dirtyCtrs = s.dirtyCtrs := by rw
    [eventX_only]
@[simp] theorem eventX_banks (code arg : Nat) (ext : Bytes) (s : State) : (eventX code arg ext s).banks = s.banks := by rw [eventX_only]
@[simp] theorem eventX_lark (code arg : Nat) (ext : Bytes) (s : State) : (eventX code arg ext s).lark = s.lark := by rw [eventX_only]
@[simp] theorem eventX_keys (code arg : Nat) (ext : Bytes) (s : State) : (eventX code arg ext s).keys = s.keys := by rw [eventX_only]
@[simp] theorem eventX_pkes (code arg : Nat) (ext : Bytes) (s : State) : (eventX code arg ext s).pkes = s.pkes := by rw [eventX_only]
@[simp] theorem eventX_gates (code arg : Nat) (ext : Bytes) (s : State) : (eventX code arg ext s).gates = s.gates := by rw [eventX_only]
@[simp] theorem eventX_epoch (code arg : Nat) (ext : Bytes) (s : State) : (eventX code arg ext s).epoch = s.epoch := by rw [eventX_only]
@[simp] theorem eventX_engine (code arg : Nat) (ext : Bytes) (s : State) : (eventX code arg ext s).engine = s.engine := by rw [eventX_only]
@[simp] theorem eventX_dram (code arg : Nat) (ext : Bytes) (s : State) : (eventX code arg ext s).dram = s.dram := by rw [eventX_only]
@[simp] theorem eventX_dbg (code arg : Nat) (ext : Bytes) (s : State) : (eventX code arg ext s).dbg = s.dbg := by rw [eventX_only]
@[simp] theorem eventX_lcResetDue (code arg : Nat) (ext : Bytes) (s : State) : (eventX code arg ext s).lcResetDue = s.lcResetDue := by rw
    [eventX_only]
@[simp] theorem eventX_tamper (code arg : Nat) (ext : Bytes) (s : State) : (eventX code arg ext s).tamper = s.tamper := by rw [eventX_only]
@[simp] theorem eventX_meter (code arg : Nat) (ext : Bytes) (s : State) : (eventX code arg ext s).meter = s.meter := by rw [eventX_only]
@[simp] theorem eventX_dgu0 (code arg : Nat) (ext : Bytes) (s : State) : (eventX code arg ext s).dgu0 = s.dgu0 := by rw [eventX_only]
@[simp] theorem eventX_dgu1 (code arg : Nat) (ext : Bytes) (s : State) : (eventX code arg ext s).dgu1 = s.dgu1 := by rw [eventX_only]
@[simp] theorem eventX_diag (code arg : Nat) (ext : Bytes) (s : State) : (eventX code arg ext s).diag = s.diag := by rw [eventX_only]
@[simp] theorem eventX_health (code arg : Nat) (ext : Bytes) (s : State) : (eventX code arg ext s).health = s.health := by rw [eventX_only]
@[simp] theorem eventX_spi (code arg : Nat) (ext : Bytes) (s : State) : (eventX code arg ext s).spi = s.spi := by rw [eventX_only]
@[simp] theorem eventX_waiters (code arg : Nat) (ext : Bytes) (s : State) : (eventX code arg ext s).waiters = s.waiters := by rw
    [eventX_only]
@[simp] theorem eventX_held (code arg : Nat) (ext : Bytes) (s : State) : (eventX code arg ext s).held = s.held := by rw [eventX_only]
@[simp] theorem eventX_out (code arg : Nat) (ext : Bytes) (s : State) : (eventX code arg ext s).out = s.out := by rw [eventX_only]
@[simp] theorem eventX_free (code arg : Nat) (ext : Bytes) (s : State) : (eventX code arg ext s).free = s.free := by rw [eventX_only]

theorem event_only (code arg : Nat) (s : State) :
    event code arg s = { s with
      ev := (event code arg s).ev, pmon := (event code arg s).pmon } := by
  exact eventX_only code arg [] s

@[simp] theorem event_pending (code arg : Nat) (s : State) : (event code arg s).pending = s.pending := by rw [event_only]
@[simp] theorem event_pwr (code arg : Nat) (s : State) : (event code arg s).pwr = s.pwr := by rw [event_only]
@[simp] theorem event_boot (code arg : Nat) (s : State) : (event code arg s).boot = s.boot := by rw [event_only]
@[simp] theorem event_opsec (code arg : Nat) (s : State) : (event code arg s).opsec = s.opsec := by rw [event_only]
@[simp] theorem event_pwrCyc (code arg : Nat) (s : State) : (event code arg s).pwrCyc = s.pwrCyc := by rw [event_only]
@[simp] theorem event_bootEpoch (code arg : Nat) (s : State) : (event code arg s).bootEpoch = s.bootEpoch := by rw [event_only]
@[simp] theorem event_epochOut (code arg : Nat) (s : State) : (event code arg s).epochOut = s.epochOut := by rw [event_only]
@[simp] theorem event_lc (code arg : Nat) (s : State) : (event code arg s).lc = s.lc := by rw [event_only]
@[simp] theorem event_beneath (code arg : Nat) (s : State) : (event code arg s).beneath = s.beneath := by rw [event_only]
@[simp] theorem event_otp (code arg : Nat) (s : State) : (event code arg s).otp = s.otp := by rw [event_only]
@[simp] theorem event_nv (code arg : Nat) (s : State) : (event code arg s).nv = s.nv := by rw [event_only]
@[simp] theorem event_link (code arg : Nat) (s : State) : (event code arg s).link = s.link := by rw [event_only]
@[simp] theorem event_fns (code arg : Nat) (s : State) : (event code arg s).fns = s.fns := by rw [event_only]
@[simp] theorem event_vecs (code arg : Nat) (s : State) : (event code arg s).vecs = s.vecs := by rw [event_only]
@[simp] theorem event_mbxs (code arg : Nat) (s : State) : (event code arg s).mbxs = s.mbxs := by rw [event_only]
@[simp] theorem event_queues (code arg : Nat) (s : State) : (event code arg s).queues = s.queues := by rw [event_only]
@[simp] theorem event_cache (code arg : Nat) (s : State) : (event code arg s).cache = s.cache := by rw [event_only]
@[simp] theorem event_nonces (code arg : Nat) (s : State) : (event code arg s).nonces = s.nonces := by rw [event_only]
@[simp] theorem event_work (code arg : Nat) (s : State) : (event code arg s).work = s.work := by rw [event_only]
@[simp] theorem event_lanes (code arg : Nat) (s : State) : (event code arg s).lanes = s.lanes := by rw [event_only]
@[simp] theorem event_slots (code arg : Nat) (s : State) : (event code arg s).slots = s.slots := by rw [event_only]
@[simp] theorem event_sched (code arg : Nat) (s : State) : (event code arg s).sched = s.sched := by rw [event_only]
@[simp] theorem event_drains (code arg : Nat) (s : State) : (event code arg s).drains = s.drains := by rw [event_only]
@[simp] theorem event_oldRules (code arg : Nat) (s : State) : (event code arg s).oldRules = s.oldRules := by rw [event_only]
@[simp] theorem event_jrn (code arg : Nat) (s : State) : (event code arg s).jrn = s.jrn := by rw [event_only]
@[simp] theorem event_dirtyCtrs (code arg : Nat) (s : State) : (event code arg s).dirtyCtrs = s.dirtyCtrs := by rw [event_only]
@[simp] theorem event_banks (code arg : Nat) (s : State) : (event code arg s).banks = s.banks := by rw [event_only]
@[simp] theorem event_lark (code arg : Nat) (s : State) : (event code arg s).lark = s.lark := by rw [event_only]
@[simp] theorem event_keys (code arg : Nat) (s : State) : (event code arg s).keys = s.keys := by rw [event_only]
@[simp] theorem event_pkes (code arg : Nat) (s : State) : (event code arg s).pkes = s.pkes := by rw [event_only]
@[simp] theorem event_gates (code arg : Nat) (s : State) : (event code arg s).gates = s.gates := by rw [event_only]
@[simp] theorem event_epoch (code arg : Nat) (s : State) : (event code arg s).epoch = s.epoch := by rw [event_only]
@[simp] theorem event_engine (code arg : Nat) (s : State) : (event code arg s).engine = s.engine := by rw [event_only]
@[simp] theorem event_dram (code arg : Nat) (s : State) : (event code arg s).dram = s.dram := by rw [event_only]
@[simp] theorem event_dbg (code arg : Nat) (s : State) : (event code arg s).dbg = s.dbg := by rw [event_only]
@[simp] theorem event_lcResetDue (code arg : Nat) (s : State) : (event code arg s).lcResetDue = s.lcResetDue := by rw [event_only]
@[simp] theorem event_tamper (code arg : Nat) (s : State) : (event code arg s).tamper = s.tamper := by rw [event_only]
@[simp] theorem event_meter (code arg : Nat) (s : State) : (event code arg s).meter = s.meter := by rw [event_only]
@[simp] theorem event_dgu0 (code arg : Nat) (s : State) : (event code arg s).dgu0 = s.dgu0 := by rw [event_only]
@[simp] theorem event_dgu1 (code arg : Nat) (s : State) : (event code arg s).dgu1 = s.dgu1 := by rw [event_only]
@[simp] theorem event_diag (code arg : Nat) (s : State) : (event code arg s).diag = s.diag := by rw [event_only]
@[simp] theorem event_health (code arg : Nat) (s : State) : (event code arg s).health = s.health := by rw [event_only]
@[simp] theorem event_spi (code arg : Nat) (s : State) : (event code arg s).spi = s.spi := by rw [event_only]
@[simp] theorem event_waiters (code arg : Nat) (s : State) : (event code arg s).waiters = s.waiters := by rw [event_only]
@[simp] theorem event_held (code arg : Nat) (s : State) : (event code arg s).held = s.held := by rw [event_only]
@[simp] theorem event_out (code arg : Nat) (s : State) : (event code arg s).out = s.out := by rw [event_only]
@[simp] theorem event_free (code arg : Nat) (s : State) : (event code arg s).free = s.free := by rw [event_only]

theorem quietFault_only (gate : Nat) (s : State) :
    quietFault gate s = { s with
      ev := (quietFault gate s).ev, pmon := (quietFault gate s).pmon } := by
  unfold quietFault
  (repeat' split) <;> first | rfl | exact event_only _ _ s


theorem gateFault_only (f : GateFault) (s : State) :
    gateFault f s = { s with
      gates := (gateFault f s).gates, ev := (gateFault f s).ev, pmon := (gateFault f s).pmon } := by
  unfold gateFault
  simp only []
  rw [quietFault_only, eventX_only]
  rfl

@[simp] theorem gateFault_pending (f : GateFault) (s : State) : (gateFault f s).pending = s.pending := by rw [gateFault_only]
@[simp] theorem gateFault_pwr (f : GateFault) (s : State) : (gateFault f s).pwr = s.pwr := by rw [gateFault_only]
@[simp] theorem gateFault_boot (f : GateFault) (s : State) : (gateFault f s).boot = s.boot := by rw [gateFault_only]
@[simp] theorem gateFault_opsec (f : GateFault) (s : State) : (gateFault f s).opsec = s.opsec := by rw [gateFault_only]
@[simp] theorem gateFault_pwrCyc (f : GateFault) (s : State) : (gateFault f s).pwrCyc = s.pwrCyc := by rw [gateFault_only]
@[simp] theorem gateFault_bootEpoch (f : GateFault) (s : State) : (gateFault f s).bootEpoch = s.bootEpoch := by rw [gateFault_only]
@[simp] theorem gateFault_epochOut (f : GateFault) (s : State) : (gateFault f s).epochOut = s.epochOut := by rw [gateFault_only]
@[simp] theorem gateFault_lc (f : GateFault) (s : State) : (gateFault f s).lc = s.lc := by rw [gateFault_only]
@[simp] theorem gateFault_beneath (f : GateFault) (s : State) : (gateFault f s).beneath = s.beneath := by rw [gateFault_only]
@[simp] theorem gateFault_otp (f : GateFault) (s : State) : (gateFault f s).otp = s.otp := by rw [gateFault_only]
@[simp] theorem gateFault_nv (f : GateFault) (s : State) : (gateFault f s).nv = s.nv := by rw [gateFault_only]
@[simp] theorem gateFault_link (f : GateFault) (s : State) : (gateFault f s).link = s.link := by rw [gateFault_only]
@[simp] theorem gateFault_fns (f : GateFault) (s : State) : (gateFault f s).fns = s.fns := by rw [gateFault_only]
@[simp] theorem gateFault_vecs (f : GateFault) (s : State) : (gateFault f s).vecs = s.vecs := by rw [gateFault_only]
@[simp] theorem gateFault_mbxs (f : GateFault) (s : State) : (gateFault f s).mbxs = s.mbxs := by rw [gateFault_only]
@[simp] theorem gateFault_queues (f : GateFault) (s : State) : (gateFault f s).queues = s.queues := by rw [gateFault_only]
@[simp] theorem gateFault_cache (f : GateFault) (s : State) : (gateFault f s).cache = s.cache := by rw [gateFault_only]
@[simp] theorem gateFault_nonces (f : GateFault) (s : State) : (gateFault f s).nonces = s.nonces := by rw [gateFault_only]
@[simp] theorem gateFault_work (f : GateFault) (s : State) : (gateFault f s).work = s.work := by rw [gateFault_only]
@[simp] theorem gateFault_lanes (f : GateFault) (s : State) : (gateFault f s).lanes = s.lanes := by rw [gateFault_only]
@[simp] theorem gateFault_slots (f : GateFault) (s : State) : (gateFault f s).slots = s.slots := by rw [gateFault_only]
@[simp] theorem gateFault_sched (f : GateFault) (s : State) : (gateFault f s).sched = s.sched := by rw [gateFault_only]
@[simp] theorem gateFault_drains (f : GateFault) (s : State) : (gateFault f s).drains = s.drains := by rw [gateFault_only]
@[simp] theorem gateFault_oldRules (f : GateFault) (s : State) : (gateFault f s).oldRules = s.oldRules := by rw [gateFault_only]
@[simp] theorem gateFault_jrn (f : GateFault) (s : State) : (gateFault f s).jrn = s.jrn := by rw [gateFault_only]
@[simp] theorem gateFault_dirtyCtrs (f : GateFault) (s : State) : (gateFault f s).dirtyCtrs = s.dirtyCtrs := by rw [gateFault_only]
@[simp] theorem gateFault_banks (f : GateFault) (s : State) : (gateFault f s).banks = s.banks := by rw [gateFault_only]
@[simp] theorem gateFault_lark (f : GateFault) (s : State) : (gateFault f s).lark = s.lark := by rw [gateFault_only]
@[simp] theorem gateFault_keys (f : GateFault) (s : State) : (gateFault f s).keys = s.keys := by rw [gateFault_only]
@[simp] theorem gateFault_pkes (f : GateFault) (s : State) : (gateFault f s).pkes = s.pkes := by rw [gateFault_only]
@[simp] theorem gateFault_epoch (f : GateFault) (s : State) : (gateFault f s).epoch = s.epoch := by rw [gateFault_only]
@[simp] theorem gateFault_engine (f : GateFault) (s : State) : (gateFault f s).engine = s.engine := by rw [gateFault_only]
@[simp] theorem gateFault_dram (f : GateFault) (s : State) : (gateFault f s).dram = s.dram := by rw [gateFault_only]
@[simp] theorem gateFault_dbg (f : GateFault) (s : State) : (gateFault f s).dbg = s.dbg := by rw [gateFault_only]
@[simp] theorem gateFault_lcResetDue (f : GateFault) (s : State) : (gateFault f s).lcResetDue = s.lcResetDue := by rw [gateFault_only]
@[simp] theorem gateFault_tamper (f : GateFault) (s : State) : (gateFault f s).tamper = s.tamper := by rw [gateFault_only]
@[simp] theorem gateFault_meter (f : GateFault) (s : State) : (gateFault f s).meter = s.meter := by rw [gateFault_only]
@[simp] theorem gateFault_dgu0 (f : GateFault) (s : State) : (gateFault f s).dgu0 = s.dgu0 := by rw [gateFault_only]
@[simp] theorem gateFault_dgu1 (f : GateFault) (s : State) : (gateFault f s).dgu1 = s.dgu1 := by rw [gateFault_only]
@[simp] theorem gateFault_diag (f : GateFault) (s : State) : (gateFault f s).diag = s.diag := by rw [gateFault_only]
@[simp] theorem gateFault_health (f : GateFault) (s : State) : (gateFault f s).health = s.health := by rw [gateFault_only]
@[simp] theorem gateFault_spi (f : GateFault) (s : State) : (gateFault f s).spi = s.spi := by rw [gateFault_only]
@[simp] theorem gateFault_waiters (f : GateFault) (s : State) : (gateFault f s).waiters = s.waiters := by rw [gateFault_only]
@[simp] theorem gateFault_held (f : GateFault) (s : State) : (gateFault f s).held = s.held := by rw [gateFault_only]
@[simp] theorem gateFault_out (f : GateFault) (s : State) : (gateFault f s).out = s.out := by rw [gateFault_only]
@[simp] theorem gateFault_free (f : GateFault) (s : State) : (gateFault f s).free = s.free := by rw [gateFault_only]

theorem setCtr_only (n v : Nat) (s : State) :
    setCtr n v s = { s with nv := (setCtr n v s).nv } := by
  unfold setCtr
  simp only []
  split <;> rfl

@[simp] theorem setCtr_pending (n v : Nat) (s : State) : (setCtr n v s).pending = s.pending := by rw [setCtr_only]
@[simp] theorem setCtr_pwr (n v : Nat) (s : State) : (setCtr n v s).pwr = s.pwr := by rw [setCtr_only]
@[simp] theorem setCtr_boot (n v : Nat) (s : State) : (setCtr n v s).boot = s.boot := by rw [setCtr_only]
@[simp] theorem setCtr_opsec (n v : Nat) (s : State) : (setCtr n v s).opsec = s.opsec := by rw [setCtr_only]
@[simp] theorem setCtr_pwrCyc (n v : Nat) (s : State) : (setCtr n v s).pwrCyc = s.pwrCyc := by rw [setCtr_only]
@[simp] theorem setCtr_bootEpoch (n v : Nat) (s : State) : (setCtr n v s).bootEpoch = s.bootEpoch := by rw [setCtr_only]
@[simp] theorem setCtr_epochOut (n v : Nat) (s : State) : (setCtr n v s).epochOut = s.epochOut := by rw [setCtr_only]
@[simp] theorem setCtr_lc (n v : Nat) (s : State) : (setCtr n v s).lc = s.lc := by rw [setCtr_only]
@[simp] theorem setCtr_beneath (n v : Nat) (s : State) : (setCtr n v s).beneath = s.beneath := by rw [setCtr_only]
@[simp] theorem setCtr_otp (n v : Nat) (s : State) : (setCtr n v s).otp = s.otp := by rw [setCtr_only]
@[simp] theorem setCtr_link (n v : Nat) (s : State) : (setCtr n v s).link = s.link := by rw [setCtr_only]
@[simp] theorem setCtr_fns (n v : Nat) (s : State) : (setCtr n v s).fns = s.fns := by rw [setCtr_only]
@[simp] theorem setCtr_vecs (n v : Nat) (s : State) : (setCtr n v s).vecs = s.vecs := by rw [setCtr_only]
@[simp] theorem setCtr_mbxs (n v : Nat) (s : State) : (setCtr n v s).mbxs = s.mbxs := by rw [setCtr_only]
@[simp] theorem setCtr_queues (n v : Nat) (s : State) : (setCtr n v s).queues = s.queues := by rw [setCtr_only]
@[simp] theorem setCtr_cache (n v : Nat) (s : State) : (setCtr n v s).cache = s.cache := by rw [setCtr_only]
@[simp] theorem setCtr_nonces (n v : Nat) (s : State) : (setCtr n v s).nonces = s.nonces := by rw [setCtr_only]
@[simp] theorem setCtr_work (n v : Nat) (s : State) : (setCtr n v s).work = s.work := by rw [setCtr_only]
@[simp] theorem setCtr_lanes (n v : Nat) (s : State) : (setCtr n v s).lanes = s.lanes := by rw [setCtr_only]
@[simp] theorem setCtr_slots (n v : Nat) (s : State) : (setCtr n v s).slots = s.slots := by rw [setCtr_only]
@[simp] theorem setCtr_sched (n v : Nat) (s : State) : (setCtr n v s).sched = s.sched := by rw [setCtr_only]
@[simp] theorem setCtr_drains (n v : Nat) (s : State) : (setCtr n v s).drains = s.drains := by rw [setCtr_only]
@[simp] theorem setCtr_oldRules (n v : Nat) (s : State) : (setCtr n v s).oldRules = s.oldRules := by rw [setCtr_only]
@[simp] theorem setCtr_jrn (n v : Nat) (s : State) : (setCtr n v s).jrn = s.jrn := by rw [setCtr_only]
@[simp] theorem setCtr_dirtyCtrs (n v : Nat) (s : State) : (setCtr n v s).dirtyCtrs = s.dirtyCtrs := by rw [setCtr_only]
@[simp] theorem setCtr_banks (n v : Nat) (s : State) : (setCtr n v s).banks = s.banks := by rw [setCtr_only]
@[simp] theorem setCtr_lark (n v : Nat) (s : State) : (setCtr n v s).lark = s.lark := by rw [setCtr_only]
@[simp] theorem setCtr_keys (n v : Nat) (s : State) : (setCtr n v s).keys = s.keys := by rw [setCtr_only]
@[simp] theorem setCtr_pkes (n v : Nat) (s : State) : (setCtr n v s).pkes = s.pkes := by rw [setCtr_only]
@[simp] theorem setCtr_gates (n v : Nat) (s : State) : (setCtr n v s).gates = s.gates := by rw [setCtr_only]
@[simp] theorem setCtr_epoch (n v : Nat) (s : State) : (setCtr n v s).epoch = s.epoch := by rw [setCtr_only]
@[simp] theorem setCtr_engine (n v : Nat) (s : State) : (setCtr n v s).engine = s.engine := by rw [setCtr_only]
@[simp] theorem setCtr_dram (n v : Nat) (s : State) : (setCtr n v s).dram = s.dram := by rw [setCtr_only]
@[simp] theorem setCtr_dbg (n v : Nat) (s : State) : (setCtr n v s).dbg = s.dbg := by rw [setCtr_only]
@[simp] theorem setCtr_lcResetDue (n v : Nat) (s : State) : (setCtr n v s).lcResetDue = s.lcResetDue := by rw [setCtr_only]
@[simp] theorem setCtr_tamper (n v : Nat) (s : State) : (setCtr n v s).tamper = s.tamper := by rw [setCtr_only]
@[simp] theorem setCtr_meter (n v : Nat) (s : State) : (setCtr n v s).meter = s.meter := by rw [setCtr_only]
@[simp] theorem setCtr_dgu0 (n v : Nat) (s : State) : (setCtr n v s).dgu0 = s.dgu0 := by rw [setCtr_only]
@[simp] theorem setCtr_dgu1 (n v : Nat) (s : State) : (setCtr n v s).dgu1 = s.dgu1 := by rw [setCtr_only]
@[simp] theorem setCtr_ev (n v : Nat) (s : State) : (setCtr n v s).ev = s.ev := by rw [setCtr_only]
@[simp] theorem setCtr_diag (n v : Nat) (s : State) : (setCtr n v s).diag = s.diag := by rw [setCtr_only]
@[simp] theorem setCtr_health (n v : Nat) (s : State) : (setCtr n v s).health = s.health := by rw [setCtr_only]
@[simp] theorem setCtr_pmon (n v : Nat) (s : State) : (setCtr n v s).pmon = s.pmon := by rw [setCtr_only]
@[simp] theorem setCtr_spi (n v : Nat) (s : State) : (setCtr n v s).spi = s.spi := by rw [setCtr_only]
@[simp] theorem setCtr_waiters (n v : Nat) (s : State) : (setCtr n v s).waiters = s.waiters := by rw [setCtr_only]
@[simp] theorem setCtr_held (n v : Nat) (s : State) : (setCtr n v s).held = s.held := by rw [setCtr_only]
@[simp] theorem setCtr_out (n v : Nat) (s : State) : (setCtr n v s).out = s.out := by rw [setCtr_only]
@[simp] theorem setCtr_free (n v : Nat) (s : State) : (setCtr n v s).free = s.free := by rw [setCtr_only]

theorem message_only (f v : Nat) (s : State) :
    message f v s = { s with
      vecs := (message f v s).vecs, pmon := (message f v s).pmon, out := (message f v s).out } := by
  rfl

@[simp] theorem message_pending (f v : Nat) (s : State) : (message f v s).pending = s.pending := by rw [message_only]
@[simp] theorem message_pwr (f v : Nat) (s : State) : (message f v s).pwr = s.pwr := by rw [message_only]
@[simp] theorem message_boot (f v : Nat) (s : State) : (message f v s).boot = s.boot := by rw [message_only]
@[simp] theorem message_opsec (f v : Nat) (s : State) : (message f v s).opsec = s.opsec := by rw [message_only]
@[simp] theorem message_pwrCyc (f v : Nat) (s : State) : (message f v s).pwrCyc = s.pwrCyc := by rw [message_only]
@[simp] theorem message_bootEpoch (f v : Nat) (s : State) : (message f v s).bootEpoch = s.bootEpoch := by rw [message_only]
@[simp] theorem message_epochOut (f v : Nat) (s : State) : (message f v s).epochOut = s.epochOut := by rw [message_only]
@[simp] theorem message_lc (f v : Nat) (s : State) : (message f v s).lc = s.lc := by rw [message_only]
@[simp] theorem message_beneath (f v : Nat) (s : State) : (message f v s).beneath = s.beneath := by rw [message_only]
@[simp] theorem message_otp (f v : Nat) (s : State) : (message f v s).otp = s.otp := by rw [message_only]
@[simp] theorem message_nv (f v : Nat) (s : State) : (message f v s).nv = s.nv := by rw [message_only]
@[simp] theorem message_link (f v : Nat) (s : State) : (message f v s).link = s.link := by rw [message_only]
@[simp] theorem message_fns (f v : Nat) (s : State) : (message f v s).fns = s.fns := by rw [message_only]
@[simp] theorem message_mbxs (f v : Nat) (s : State) : (message f v s).mbxs = s.mbxs := by rw [message_only]
@[simp] theorem message_queues (f v : Nat) (s : State) : (message f v s).queues = s.queues := by rw [message_only]
@[simp] theorem message_cache (f v : Nat) (s : State) : (message f v s).cache = s.cache := by rw [message_only]
@[simp] theorem message_nonces (f v : Nat) (s : State) : (message f v s).nonces = s.nonces := by rw [message_only]
@[simp] theorem message_work (f v : Nat) (s : State) : (message f v s).work = s.work := by rw [message_only]
@[simp] theorem message_lanes (f v : Nat) (s : State) : (message f v s).lanes = s.lanes := by rw [message_only]
@[simp] theorem message_slots (f v : Nat) (s : State) : (message f v s).slots = s.slots := by rw [message_only]
@[simp] theorem message_sched (f v : Nat) (s : State) : (message f v s).sched = s.sched := by rw [message_only]
@[simp] theorem message_drains (f v : Nat) (s : State) : (message f v s).drains = s.drains := by rw [message_only]
@[simp] theorem message_oldRules (f v : Nat) (s : State) : (message f v s).oldRules = s.oldRules := by rw [message_only]
@[simp] theorem message_jrn (f v : Nat) (s : State) : (message f v s).jrn = s.jrn := by rw [message_only]
@[simp] theorem message_dirtyCtrs (f v : Nat) (s : State) : (message f v s).dirtyCtrs = s.dirtyCtrs := by rw [message_only]
@[simp] theorem message_banks (f v : Nat) (s : State) : (message f v s).banks = s.banks := by rw [message_only]
@[simp] theorem message_lark (f v : Nat) (s : State) : (message f v s).lark = s.lark := by rw [message_only]
@[simp] theorem message_keys (f v : Nat) (s : State) : (message f v s).keys = s.keys := by rw [message_only]
@[simp] theorem message_pkes (f v : Nat) (s : State) : (message f v s).pkes = s.pkes := by rw [message_only]
@[simp] theorem message_gates (f v : Nat) (s : State) : (message f v s).gates = s.gates := by rw [message_only]
@[simp] theorem message_epoch (f v : Nat) (s : State) : (message f v s).epoch = s.epoch := by rw [message_only]
@[simp] theorem message_engine (f v : Nat) (s : State) : (message f v s).engine = s.engine := by rw [message_only]
@[simp] theorem message_dram (f v : Nat) (s : State) : (message f v s).dram = s.dram := by rw [message_only]
@[simp] theorem message_dbg (f v : Nat) (s : State) : (message f v s).dbg = s.dbg := by rw [message_only]
@[simp] theorem message_lcResetDue (f v : Nat) (s : State) : (message f v s).lcResetDue = s.lcResetDue := by rw [message_only]
@[simp] theorem message_tamper (f v : Nat) (s : State) : (message f v s).tamper = s.tamper := by rw [message_only]
@[simp] theorem message_meter (f v : Nat) (s : State) : (message f v s).meter = s.meter := by rw [message_only]
@[simp] theorem message_dgu0 (f v : Nat) (s : State) : (message f v s).dgu0 = s.dgu0 := by rw [message_only]
@[simp] theorem message_dgu1 (f v : Nat) (s : State) : (message f v s).dgu1 = s.dgu1 := by rw [message_only]
@[simp] theorem message_ev (f v : Nat) (s : State) : (message f v s).ev = s.ev := by rw [message_only]
@[simp] theorem message_diag (f v : Nat) (s : State) : (message f v s).diag = s.diag := by rw [message_only]
@[simp] theorem message_health (f v : Nat) (s : State) : (message f v s).health = s.health := by rw [message_only]
@[simp] theorem message_spi (f v : Nat) (s : State) : (message f v s).spi = s.spi := by rw [message_only]
@[simp] theorem message_waiters (f v : Nat) (s : State) : (message f v s).waiters = s.waiters := by rw [message_only]
@[simp] theorem message_held (f v : Nat) (s : State) : (message f v s).held = s.held := by rw [message_only]
@[simp] theorem message_free (f v : Nat) (s : State) : (message f v s).free = s.free := by rw [message_only]

theorem devEvent_only (f b : Nat) (s : State) :
    devEvent f b s = { s with
      link := (devEvent f b s).link, fns := (devEvent f b s).fns, vecs := (devEvent f b s).vecs, pmon := (devEvent f b s).pmon
      out := (devEvent f b s).out } := by
  unfold devEvent
  simp only []
  split <;> rfl

@[simp] theorem devEvent_pending (f b : Nat) (s : State) : (devEvent f b s).pending = s.pending := by rw [devEvent_only]
@[simp] theorem devEvent_pwr (f b : Nat) (s : State) : (devEvent f b s).pwr = s.pwr := by rw [devEvent_only]
@[simp] theorem devEvent_boot (f b : Nat) (s : State) : (devEvent f b s).boot = s.boot := by rw [devEvent_only]
@[simp] theorem devEvent_opsec (f b : Nat) (s : State) : (devEvent f b s).opsec = s.opsec := by rw [devEvent_only]
@[simp] theorem devEvent_pwrCyc (f b : Nat) (s : State) : (devEvent f b s).pwrCyc = s.pwrCyc := by rw [devEvent_only]
@[simp] theorem devEvent_bootEpoch (f b : Nat) (s : State) : (devEvent f b s).bootEpoch = s.bootEpoch := by rw [devEvent_only]
@[simp] theorem devEvent_epochOut (f b : Nat) (s : State) : (devEvent f b s).epochOut = s.epochOut := by rw [devEvent_only]
@[simp] theorem devEvent_lc (f b : Nat) (s : State) : (devEvent f b s).lc = s.lc := by rw [devEvent_only]
@[simp] theorem devEvent_beneath (f b : Nat) (s : State) : (devEvent f b s).beneath = s.beneath := by rw [devEvent_only]
@[simp] theorem devEvent_otp (f b : Nat) (s : State) : (devEvent f b s).otp = s.otp := by rw [devEvent_only]
@[simp] theorem devEvent_nv (f b : Nat) (s : State) : (devEvent f b s).nv = s.nv := by rw [devEvent_only]
@[simp] theorem devEvent_mbxs (f b : Nat) (s : State) : (devEvent f b s).mbxs = s.mbxs := by rw [devEvent_only]
@[simp] theorem devEvent_queues (f b : Nat) (s : State) : (devEvent f b s).queues = s.queues := by rw [devEvent_only]
@[simp] theorem devEvent_cache (f b : Nat) (s : State) : (devEvent f b s).cache = s.cache := by rw [devEvent_only]
@[simp] theorem devEvent_nonces (f b : Nat) (s : State) : (devEvent f b s).nonces = s.nonces := by rw [devEvent_only]
@[simp] theorem devEvent_work (f b : Nat) (s : State) : (devEvent f b s).work = s.work := by rw [devEvent_only]
@[simp] theorem devEvent_lanes (f b : Nat) (s : State) : (devEvent f b s).lanes = s.lanes := by rw [devEvent_only]
@[simp] theorem devEvent_slots (f b : Nat) (s : State) : (devEvent f b s).slots = s.slots := by rw [devEvent_only]
@[simp] theorem devEvent_sched (f b : Nat) (s : State) : (devEvent f b s).sched = s.sched := by rw [devEvent_only]
@[simp] theorem devEvent_drains (f b : Nat) (s : State) : (devEvent f b s).drains = s.drains := by rw [devEvent_only]
@[simp] theorem devEvent_oldRules (f b : Nat) (s : State) : (devEvent f b s).oldRules = s.oldRules := by rw [devEvent_only]
@[simp] theorem devEvent_jrn (f b : Nat) (s : State) : (devEvent f b s).jrn = s.jrn := by rw [devEvent_only]
@[simp] theorem devEvent_dirtyCtrs (f b : Nat) (s : State) : (devEvent f b s).dirtyCtrs = s.dirtyCtrs := by rw [devEvent_only]
@[simp] theorem devEvent_banks (f b : Nat) (s : State) : (devEvent f b s).banks = s.banks := by rw [devEvent_only]
@[simp] theorem devEvent_lark (f b : Nat) (s : State) : (devEvent f b s).lark = s.lark := by rw [devEvent_only]
@[simp] theorem devEvent_keys (f b : Nat) (s : State) : (devEvent f b s).keys = s.keys := by rw [devEvent_only]
@[simp] theorem devEvent_pkes (f b : Nat) (s : State) : (devEvent f b s).pkes = s.pkes := by rw [devEvent_only]
@[simp] theorem devEvent_gates (f b : Nat) (s : State) : (devEvent f b s).gates = s.gates := by rw [devEvent_only]
@[simp] theorem devEvent_epoch (f b : Nat) (s : State) : (devEvent f b s).epoch = s.epoch := by rw [devEvent_only]
@[simp] theorem devEvent_engine (f b : Nat) (s : State) : (devEvent f b s).engine = s.engine := by rw [devEvent_only]
@[simp] theorem devEvent_dram (f b : Nat) (s : State) : (devEvent f b s).dram = s.dram := by rw [devEvent_only]
@[simp] theorem devEvent_dbg (f b : Nat) (s : State) : (devEvent f b s).dbg = s.dbg := by rw [devEvent_only]
@[simp] theorem devEvent_lcResetDue (f b : Nat) (s : State) : (devEvent f b s).lcResetDue = s.lcResetDue := by rw [devEvent_only]
@[simp] theorem devEvent_tamper (f b : Nat) (s : State) : (devEvent f b s).tamper = s.tamper := by rw [devEvent_only]
@[simp] theorem devEvent_meter (f b : Nat) (s : State) : (devEvent f b s).meter = s.meter := by rw [devEvent_only]
@[simp] theorem devEvent_dgu0 (f b : Nat) (s : State) : (devEvent f b s).dgu0 = s.dgu0 := by rw [devEvent_only]
@[simp] theorem devEvent_dgu1 (f b : Nat) (s : State) : (devEvent f b s).dgu1 = s.dgu1 := by rw [devEvent_only]
@[simp] theorem devEvent_ev (f b : Nat) (s : State) : (devEvent f b s).ev = s.ev := by rw [devEvent_only]
@[simp] theorem devEvent_diag (f b : Nat) (s : State) : (devEvent f b s).diag = s.diag := by rw [devEvent_only]
@[simp] theorem devEvent_health (f b : Nat) (s : State) : (devEvent f b s).health = s.health := by rw [devEvent_only]
@[simp] theorem devEvent_spi (f b : Nat) (s : State) : (devEvent f b s).spi = s.spi := by rw [devEvent_only]
@[simp] theorem devEvent_waiters (f b : Nat) (s : State) : (devEvent f b s).waiters = s.waiters := by rw [devEvent_only]
@[simp] theorem devEvent_held (f b : Nat) (s : State) : (devEvent f b s).held = s.held := by rw [devEvent_only]
@[simp] theorem devEvent_free (f b : Nat) (s : State) : (devEvent f b s).free = s.free := by rw [devEvent_only]

theorem devEventAll_only (b : Nat) (s : State) :
    devEventAll b s = { s with
      link := (devEventAll b s).link, fns := (devEventAll b s).fns, vecs := (devEventAll b s).vecs, pmon := (devEventAll b s).pmon
      out := (devEventAll b s).out } := by
  unfold devEventAll
  refine foldl_keeps (P := fun t => t = { s with
          link := (t).link, fns := (t).fns, vecs := (t).vecs, pmon := (t).pmon, out := (t).out }) _ _ _ rfl fun t x h => ?_
  split
  · rw [devEvent_only, h]
  · exact h


theorem takeSeq_only (s : State) :
    takeSeq s = { s with nv := (takeSeq s).nv, jrn := (takeSeq s).jrn } := by
  unfold takeSeq raiseMark
  simp only []
  split
  · rfl
  · rw [setCtr_only]

@[simp] theorem takeSeq_pending (s : State) : (takeSeq s).pending = s.pending := by rw [takeSeq_only]
@[simp] theorem takeSeq_pwr (s : State) : (takeSeq s).pwr = s.pwr := by rw [takeSeq_only]
@[simp] theorem takeSeq_boot (s : State) : (takeSeq s).boot = s.boot := by rw [takeSeq_only]
@[simp] theorem takeSeq_opsec (s : State) : (takeSeq s).opsec = s.opsec := by rw [takeSeq_only]
@[simp] theorem takeSeq_pwrCyc (s : State) : (takeSeq s).pwrCyc = s.pwrCyc := by rw [takeSeq_only]
@[simp] theorem takeSeq_bootEpoch (s : State) : (takeSeq s).bootEpoch = s.bootEpoch := by rw [takeSeq_only]
@[simp] theorem takeSeq_epochOut (s : State) : (takeSeq s).epochOut = s.epochOut := by rw [takeSeq_only]
@[simp] theorem takeSeq_lc (s : State) : (takeSeq s).lc = s.lc := by rw [takeSeq_only]
@[simp] theorem takeSeq_beneath (s : State) : (takeSeq s).beneath = s.beneath := by rw [takeSeq_only]
@[simp] theorem takeSeq_otp (s : State) : (takeSeq s).otp = s.otp := by rw [takeSeq_only]
@[simp] theorem takeSeq_link (s : State) : (takeSeq s).link = s.link := by rw [takeSeq_only]
@[simp] theorem takeSeq_fns (s : State) : (takeSeq s).fns = s.fns := by rw [takeSeq_only]
@[simp] theorem takeSeq_vecs (s : State) : (takeSeq s).vecs = s.vecs := by rw [takeSeq_only]
@[simp] theorem takeSeq_mbxs (s : State) : (takeSeq s).mbxs = s.mbxs := by rw [takeSeq_only]
@[simp] theorem takeSeq_queues (s : State) : (takeSeq s).queues = s.queues := by rw [takeSeq_only]
@[simp] theorem takeSeq_cache (s : State) : (takeSeq s).cache = s.cache := by rw [takeSeq_only]
@[simp] theorem takeSeq_nonces (s : State) : (takeSeq s).nonces = s.nonces := by rw [takeSeq_only]
@[simp] theorem takeSeq_work (s : State) : (takeSeq s).work = s.work := by rw [takeSeq_only]
@[simp] theorem takeSeq_lanes (s : State) : (takeSeq s).lanes = s.lanes := by rw [takeSeq_only]
@[simp] theorem takeSeq_slots (s : State) : (takeSeq s).slots = s.slots := by rw [takeSeq_only]
@[simp] theorem takeSeq_sched (s : State) : (takeSeq s).sched = s.sched := by rw [takeSeq_only]
@[simp] theorem takeSeq_drains (s : State) : (takeSeq s).drains = s.drains := by rw [takeSeq_only]
@[simp] theorem takeSeq_oldRules (s : State) : (takeSeq s).oldRules = s.oldRules := by rw [takeSeq_only]
@[simp] theorem takeSeq_dirtyCtrs (s : State) : (takeSeq s).dirtyCtrs = s.dirtyCtrs := by rw [takeSeq_only]
@[simp] theorem takeSeq_banks (s : State) : (takeSeq s).banks = s.banks := by rw [takeSeq_only]
@[simp] theorem takeSeq_lark (s : State) : (takeSeq s).lark = s.lark := by rw [takeSeq_only]
@[simp] theorem takeSeq_keys (s : State) : (takeSeq s).keys = s.keys := by rw [takeSeq_only]
@[simp] theorem takeSeq_pkes (s : State) : (takeSeq s).pkes = s.pkes := by rw [takeSeq_only]
@[simp] theorem takeSeq_gates (s : State) : (takeSeq s).gates = s.gates := by rw [takeSeq_only]
@[simp] theorem takeSeq_epoch (s : State) : (takeSeq s).epoch = s.epoch := by rw [takeSeq_only]
@[simp] theorem takeSeq_engine (s : State) : (takeSeq s).engine = s.engine := by rw [takeSeq_only]
@[simp] theorem takeSeq_dram (s : State) : (takeSeq s).dram = s.dram := by rw [takeSeq_only]
@[simp] theorem takeSeq_dbg (s : State) : (takeSeq s).dbg = s.dbg := by rw [takeSeq_only]
@[simp] theorem takeSeq_lcResetDue (s : State) : (takeSeq s).lcResetDue = s.lcResetDue := by rw [takeSeq_only]
@[simp] theorem takeSeq_tamper (s : State) : (takeSeq s).tamper = s.tamper := by rw [takeSeq_only]
@[simp] theorem takeSeq_meter (s : State) : (takeSeq s).meter = s.meter := by rw [takeSeq_only]
@[simp] theorem takeSeq_dgu0 (s : State) : (takeSeq s).dgu0 = s.dgu0 := by rw [takeSeq_only]
@[simp] theorem takeSeq_dgu1 (s : State) : (takeSeq s).dgu1 = s.dgu1 := by rw [takeSeq_only]
@[simp] theorem takeSeq_ev (s : State) : (takeSeq s).ev = s.ev := by rw [takeSeq_only]
@[simp] theorem takeSeq_diag (s : State) : (takeSeq s).diag = s.diag := by rw [takeSeq_only]
@[simp] theorem takeSeq_health (s : State) : (takeSeq s).health = s.health := by rw [takeSeq_only]
@[simp] theorem takeSeq_pmon (s : State) : (takeSeq s).pmon = s.pmon := by rw [takeSeq_only]
@[simp] theorem takeSeq_spi (s : State) : (takeSeq s).spi = s.spi := by rw [takeSeq_only]
@[simp] theorem takeSeq_waiters (s : State) : (takeSeq s).waiters = s.waiters := by rw [takeSeq_only]
@[simp] theorem takeSeq_held (s : State) : (takeSeq s).held = s.held := by rw [takeSeq_only]
@[simp] theorem takeSeq_out (s : State) : (takeSeq s).out = s.out := by rw [takeSeq_only]
@[simp] theorem takeSeq_free (s : State) : (takeSeq s).free = s.free := by rw [takeSeq_only]

theorem sealPages_only (n : Nat) (s : State) :
    sealPages n s = { s with
      nv := (sealPages n s).nv, jrn := (sealPages n s).jrn, pmon := (sealPages n s).pmon } := by
  rfl


theorem makeRoom_only (n : Nat) (s : State) :
    makeRoom n s = { s with
      nv := (makeRoom n s).nv, jrn := (makeRoom n s).jrn, pmon := (makeRoom n s).pmon } := by
  unfold makeRoom
  split
  · rfl
  · rw [sealPages_only]


theorem writePages_only (s : State) :
    writePages s = { s with
      nv := (writePages s).nv, jrn := (writePages s).jrn, pmon := (writePages s).pmon } := by
  rfl

@[simp] theorem writePages_pending (s : State) : (writePages s).pending = s.pending := by rw [writePages_only]
@[simp] theorem writePages_pwr (s : State) : (writePages s).pwr = s.pwr := by rw [writePages_only]
@[simp] theorem writePages_boot (s : State) : (writePages s).boot = s.boot := by rw [writePages_only]
@[simp] theorem writePages_opsec (s : State) : (writePages s).opsec = s.opsec := by rw [writePages_only]
@[simp] theorem writePages_pwrCyc (s : State) : (writePages s).pwrCyc = s.pwrCyc := by rw [writePages_only]
@[simp] theorem writePages_bootEpoch (s : State) : (writePages s).bootEpoch = s.bootEpoch := by rw [writePages_only]
@[simp] theorem writePages_epochOut (s : State) : (writePages s).epochOut = s.epochOut := by rw [writePages_only]
@[simp] theorem writePages_lc (s : State) : (writePages s).lc = s.lc := by rw [writePages_only]
@[simp] theorem writePages_beneath (s : State) : (writePages s).beneath = s.beneath := by rw [writePages_only]
@[simp] theorem writePages_otp (s : State) : (writePages s).otp = s.otp := by rw [writePages_only]
@[simp] theorem writePages_link (s : State) : (writePages s).link = s.link := by rw [writePages_only]
@[simp] theorem writePages_fns (s : State) : (writePages s).fns = s.fns := by rw [writePages_only]
@[simp] theorem writePages_vecs (s : State) : (writePages s).vecs = s.vecs := by rw [writePages_only]
@[simp] theorem writePages_mbxs (s : State) : (writePages s).mbxs = s.mbxs := by rw [writePages_only]
@[simp] theorem writePages_queues (s : State) : (writePages s).queues = s.queues := by rw [writePages_only]
@[simp] theorem writePages_cache (s : State) : (writePages s).cache = s.cache := by rw [writePages_only]
@[simp] theorem writePages_nonces (s : State) : (writePages s).nonces = s.nonces := by rw [writePages_only]
@[simp] theorem writePages_work (s : State) : (writePages s).work = s.work := by rw [writePages_only]
@[simp] theorem writePages_lanes (s : State) : (writePages s).lanes = s.lanes := by rw [writePages_only]
@[simp] theorem writePages_slots (s : State) : (writePages s).slots = s.slots := by rw [writePages_only]
@[simp] theorem writePages_sched (s : State) : (writePages s).sched = s.sched := by rw [writePages_only]
@[simp] theorem writePages_drains (s : State) : (writePages s).drains = s.drains := by rw [writePages_only]
@[simp] theorem writePages_oldRules (s : State) : (writePages s).oldRules = s.oldRules := by rw [writePages_only]
@[simp] theorem writePages_dirtyCtrs (s : State) : (writePages s).dirtyCtrs = s.dirtyCtrs := by rw [writePages_only]
@[simp] theorem writePages_banks (s : State) : (writePages s).banks = s.banks := by rw [writePages_only]
@[simp] theorem writePages_lark (s : State) : (writePages s).lark = s.lark := by rw [writePages_only]
@[simp] theorem writePages_keys (s : State) : (writePages s).keys = s.keys := by rw [writePages_only]
@[simp] theorem writePages_pkes (s : State) : (writePages s).pkes = s.pkes := by rw [writePages_only]
@[simp] theorem writePages_gates (s : State) : (writePages s).gates = s.gates := by rw [writePages_only]
@[simp] theorem writePages_epoch (s : State) : (writePages s).epoch = s.epoch := by rw [writePages_only]
@[simp] theorem writePages_engine (s : State) : (writePages s).engine = s.engine := by rw [writePages_only]
@[simp] theorem writePages_dram (s : State) : (writePages s).dram = s.dram := by rw [writePages_only]
@[simp] theorem writePages_dbg (s : State) : (writePages s).dbg = s.dbg := by rw [writePages_only]
@[simp] theorem writePages_lcResetDue (s : State) : (writePages s).lcResetDue = s.lcResetDue := by rw [writePages_only]
@[simp] theorem writePages_tamper (s : State) : (writePages s).tamper = s.tamper := by rw [writePages_only]
@[simp] theorem writePages_meter (s : State) : (writePages s).meter = s.meter := by rw [writePages_only]
@[simp] theorem writePages_dgu0 (s : State) : (writePages s).dgu0 = s.dgu0 := by rw [writePages_only]
@[simp] theorem writePages_dgu1 (s : State) : (writePages s).dgu1 = s.dgu1 := by rw [writePages_only]
@[simp] theorem writePages_ev (s : State) : (writePages s).ev = s.ev := by rw [writePages_only]
@[simp] theorem writePages_diag (s : State) : (writePages s).diag = s.diag := by rw [writePages_only]
@[simp] theorem writePages_health (s : State) : (writePages s).health = s.health := by rw [writePages_only]
@[simp] theorem writePages_spi (s : State) : (writePages s).spi = s.spi := by rw [writePages_only]
@[simp] theorem writePages_waiters (s : State) : (writePages s).waiters = s.waiters := by rw [writePages_only]
@[simp] theorem writePages_held (s : State) : (writePages s).held = s.held := by rw [writePages_only]
@[simp] theorem writePages_out (s : State) : (writePages s).out = s.out := by rw [writePages_only]
@[simp] theorem writePages_free (s : State) : (writePages s).free = s.free := by rw [writePages_only]

theorem journalEntry_only (type : Nat) (claimed : Bool) (body : Bytes) (s : State) :
    journalEntry type claimed body s = { s with
      nv := (journalEntry type claimed body s).nv, jrn := (journalEntry type claimed body s).jrn
      pmon := (journalEntry type claimed body s).pmon } := by
  unfold journalEntry
  simp only []
  split
  · rfl
  · rw [writePages_only, takeSeq_only, makeRoom_only]

@[simp] theorem journalEntry_pending (type : Nat) (claimed : Bool) (body : Bytes) (s : State) : (journalEntry type claimed body s).pending
    = s.pending := by rw [journalEntry_only]
@[simp] theorem journalEntry_pwr (type : Nat) (claimed : Bool) (body : Bytes) (s : State) : (journalEntry type claimed body s).pwr = s.pwr
    := by rw [journalEntry_only]
@[simp] theorem journalEntry_boot (type : Nat) (claimed : Bool) (body : Bytes) (s : State) : (journalEntry type claimed body s).boot =
    s.boot := by rw [journalEntry_only]
@[simp] theorem journalEntry_opsec (type : Nat) (claimed : Bool) (body : Bytes) (s : State) : (journalEntry type claimed body s).opsec =
    s.opsec := by rw [journalEntry_only]
@[simp] theorem journalEntry_pwrCyc (type : Nat) (claimed : Bool) (body : Bytes) (s : State) : (journalEntry type claimed body s).pwrCyc =
    s.pwrCyc := by rw [journalEntry_only]
@[simp] theorem journalEntry_bootEpoch (type : Nat) (claimed : Bool) (body : Bytes) (s : State) : (journalEntry type claimed body
    s).bootEpoch = s.bootEpoch := by rw [journalEntry_only]
@[simp] theorem journalEntry_epochOut (type : Nat) (claimed : Bool) (body : Bytes) (s : State) : (journalEntry type claimed body
    s).epochOut = s.epochOut := by rw [journalEntry_only]
@[simp] theorem journalEntry_lc (type : Nat) (claimed : Bool) (body : Bytes) (s : State) : (journalEntry type claimed body s).lc = s.lc :=
    by rw [journalEntry_only]
@[simp] theorem journalEntry_beneath (type : Nat) (claimed : Bool) (body : Bytes) (s : State) : (journalEntry type claimed body s).beneath
    = s.beneath := by rw [journalEntry_only]
@[simp] theorem journalEntry_otp (type : Nat) (claimed : Bool) (body : Bytes) (s : State) : (journalEntry type claimed body s).otp = s.otp
    := by rw [journalEntry_only]
@[simp] theorem journalEntry_link (type : Nat) (claimed : Bool) (body : Bytes) (s : State) : (journalEntry type claimed body s).link =
    s.link := by rw [journalEntry_only]
@[simp] theorem journalEntry_fns (type : Nat) (claimed : Bool) (body : Bytes) (s : State) : (journalEntry type claimed body s).fns = s.fns
    := by rw [journalEntry_only]
@[simp] theorem journalEntry_vecs (type : Nat) (claimed : Bool) (body : Bytes) (s : State) : (journalEntry type claimed body s).vecs =
    s.vecs := by rw [journalEntry_only]
@[simp] theorem journalEntry_mbxs (type : Nat) (claimed : Bool) (body : Bytes) (s : State) : (journalEntry type claimed body s).mbxs =
    s.mbxs := by rw [journalEntry_only]
@[simp] theorem journalEntry_queues (type : Nat) (claimed : Bool) (body : Bytes) (s : State) : (journalEntry type claimed body s).queues =
    s.queues := by rw [journalEntry_only]
@[simp] theorem journalEntry_cache (type : Nat) (claimed : Bool) (body : Bytes) (s : State) : (journalEntry type claimed body s).cache =
    s.cache := by rw [journalEntry_only]
@[simp] theorem journalEntry_nonces (type : Nat) (claimed : Bool) (body : Bytes) (s : State) : (journalEntry type claimed body s).nonces =
    s.nonces := by rw [journalEntry_only]
@[simp] theorem journalEntry_work (type : Nat) (claimed : Bool) (body : Bytes) (s : State) : (journalEntry type claimed body s).work =
    s.work := by rw [journalEntry_only]
@[simp] theorem journalEntry_lanes (type : Nat) (claimed : Bool) (body : Bytes) (s : State) : (journalEntry type claimed body s).lanes =
    s.lanes := by rw [journalEntry_only]
@[simp] theorem journalEntry_slots (type : Nat) (claimed : Bool) (body : Bytes) (s : State) : (journalEntry type claimed body s).slots =
    s.slots := by rw [journalEntry_only]
@[simp] theorem journalEntry_sched (type : Nat) (claimed : Bool) (body : Bytes) (s : State) : (journalEntry type claimed body s).sched =
    s.sched := by rw [journalEntry_only]
@[simp] theorem journalEntry_drains (type : Nat) (claimed : Bool) (body : Bytes) (s : State) : (journalEntry type claimed body s).drains =
    s.drains := by rw [journalEntry_only]
@[simp] theorem journalEntry_oldRules (type : Nat) (claimed : Bool) (body : Bytes) (s : State) : (journalEntry type claimed body
    s).oldRules = s.oldRules := by rw [journalEntry_only]
@[simp] theorem journalEntry_dirtyCtrs (type : Nat) (claimed : Bool) (body : Bytes) (s : State) : (journalEntry type claimed body
    s).dirtyCtrs = s.dirtyCtrs := by rw [journalEntry_only]
@[simp] theorem journalEntry_banks (type : Nat) (claimed : Bool) (body : Bytes) (s : State) : (journalEntry type claimed body s).banks =
    s.banks := by rw [journalEntry_only]
@[simp] theorem journalEntry_lark (type : Nat) (claimed : Bool) (body : Bytes) (s : State) : (journalEntry type claimed body s).lark =
    s.lark := by rw [journalEntry_only]
@[simp] theorem journalEntry_keys (type : Nat) (claimed : Bool) (body : Bytes) (s : State) : (journalEntry type claimed body s).keys =
    s.keys := by rw [journalEntry_only]
@[simp] theorem journalEntry_pkes (type : Nat) (claimed : Bool) (body : Bytes) (s : State) : (journalEntry type claimed body s).pkes =
    s.pkes := by rw [journalEntry_only]
@[simp] theorem journalEntry_gates (type : Nat) (claimed : Bool) (body : Bytes) (s : State) : (journalEntry type claimed body s).gates =
    s.gates := by rw [journalEntry_only]
@[simp] theorem journalEntry_epoch (type : Nat) (claimed : Bool) (body : Bytes) (s : State) : (journalEntry type claimed body s).epoch =
    s.epoch := by rw [journalEntry_only]
@[simp] theorem journalEntry_engine (type : Nat) (claimed : Bool) (body : Bytes) (s : State) : (journalEntry type claimed body s).engine =
    s.engine := by rw [journalEntry_only]
@[simp] theorem journalEntry_dram (type : Nat) (claimed : Bool) (body : Bytes) (s : State) : (journalEntry type claimed body s).dram =
    s.dram := by rw [journalEntry_only]
@[simp] theorem journalEntry_dbg (type : Nat) (claimed : Bool) (body : Bytes) (s : State) : (journalEntry type claimed body s).dbg = s.dbg
    := by rw [journalEntry_only]
@[simp] theorem journalEntry_lcResetDue (type : Nat) (claimed : Bool) (body : Bytes) (s : State) : (journalEntry type claimed body
    s).lcResetDue = s.lcResetDue := by rw [journalEntry_only]
@[simp] theorem journalEntry_tamper (type : Nat) (claimed : Bool) (body : Bytes) (s : State) : (journalEntry type claimed body s).tamper =
    s.tamper := by rw [journalEntry_only]
@[simp] theorem journalEntry_meter (type : Nat) (claimed : Bool) (body : Bytes) (s : State) : (journalEntry type claimed body s).meter =
    s.meter := by rw [journalEntry_only]
@[simp] theorem journalEntry_dgu0 (type : Nat) (claimed : Bool) (body : Bytes) (s : State) : (journalEntry type claimed body s).dgu0 =
    s.dgu0 := by rw [journalEntry_only]
@[simp] theorem journalEntry_dgu1 (type : Nat) (claimed : Bool) (body : Bytes) (s : State) : (journalEntry type claimed body s).dgu1 =
    s.dgu1 := by rw [journalEntry_only]
@[simp] theorem journalEntry_ev (type : Nat) (claimed : Bool) (body : Bytes) (s : State) : (journalEntry type claimed body s).ev = s.ev :=
    by rw [journalEntry_only]
@[simp] theorem journalEntry_diag (type : Nat) (claimed : Bool) (body : Bytes) (s : State) : (journalEntry type claimed body s).diag =
    s.diag := by rw [journalEntry_only]
@[simp] theorem journalEntry_health (type : Nat) (claimed : Bool) (body : Bytes) (s : State) : (journalEntry type claimed body s).health =
    s.health := by rw [journalEntry_only]
@[simp] theorem journalEntry_spi (type : Nat) (claimed : Bool) (body : Bytes) (s : State) : (journalEntry type claimed body s).spi = s.spi
    := by rw [journalEntry_only]
@[simp] theorem journalEntry_waiters (type : Nat) (claimed : Bool) (body : Bytes) (s : State) : (journalEntry type claimed body s).waiters
    = s.waiters := by rw [journalEntry_only]
@[simp] theorem journalEntry_held (type : Nat) (claimed : Bool) (body : Bytes) (s : State) : (journalEntry type claimed body s).held =
    s.held := by rw [journalEntry_only]
@[simp] theorem journalEntry_out (type : Nat) (claimed : Bool) (body : Bytes) (s : State) : (journalEntry type claimed body s).out = s.out
    := by rw [journalEntry_only]
@[simp] theorem journalEntry_free (type : Nat) (claimed : Bool) (body : Bytes) (s : State) : (journalEntry type claimed body s).free =
    s.free := by rw [journalEntry_only]

theorem closeBatch_only (s : State) :
    closeBatch s = { s with
      nv := (closeBatch s).nv, jrn := (closeBatch s).jrn, pmon := (closeBatch s).pmon } := by
  unfold closeBatch
  simp only []
  split
  · rfl
  · split
    · rw [writePages_only, makeRoom_only]
    · rw [makeRoom_only]

@[simp] theorem closeBatch_pending (s : State) : (closeBatch s).pending = s.pending := by rw [closeBatch_only]
@[simp] theorem closeBatch_pwr (s : State) : (closeBatch s).pwr = s.pwr := by rw [closeBatch_only]
@[simp] theorem closeBatch_boot (s : State) : (closeBatch s).boot = s.boot := by rw [closeBatch_only]
@[simp] theorem closeBatch_opsec (s : State) : (closeBatch s).opsec = s.opsec := by rw [closeBatch_only]
@[simp] theorem closeBatch_pwrCyc (s : State) : (closeBatch s).pwrCyc = s.pwrCyc := by rw [closeBatch_only]
@[simp] theorem closeBatch_bootEpoch (s : State) : (closeBatch s).bootEpoch = s.bootEpoch := by rw [closeBatch_only]
@[simp] theorem closeBatch_epochOut (s : State) : (closeBatch s).epochOut = s.epochOut := by rw [closeBatch_only]
@[simp] theorem closeBatch_lc (s : State) : (closeBatch s).lc = s.lc := by rw [closeBatch_only]
@[simp] theorem closeBatch_beneath (s : State) : (closeBatch s).beneath = s.beneath := by rw [closeBatch_only]
@[simp] theorem closeBatch_otp (s : State) : (closeBatch s).otp = s.otp := by rw [closeBatch_only]
@[simp] theorem closeBatch_link (s : State) : (closeBatch s).link = s.link := by rw [closeBatch_only]
@[simp] theorem closeBatch_fns (s : State) : (closeBatch s).fns = s.fns := by rw [closeBatch_only]
@[simp] theorem closeBatch_vecs (s : State) : (closeBatch s).vecs = s.vecs := by rw [closeBatch_only]
@[simp] theorem closeBatch_mbxs (s : State) : (closeBatch s).mbxs = s.mbxs := by rw [closeBatch_only]
@[simp] theorem closeBatch_queues (s : State) : (closeBatch s).queues = s.queues := by rw [closeBatch_only]
@[simp] theorem closeBatch_cache (s : State) : (closeBatch s).cache = s.cache := by rw [closeBatch_only]
@[simp] theorem closeBatch_nonces (s : State) : (closeBatch s).nonces = s.nonces := by rw [closeBatch_only]
@[simp] theorem closeBatch_work (s : State) : (closeBatch s).work = s.work := by rw [closeBatch_only]
@[simp] theorem closeBatch_lanes (s : State) : (closeBatch s).lanes = s.lanes := by rw [closeBatch_only]
@[simp] theorem closeBatch_slots (s : State) : (closeBatch s).slots = s.slots := by rw [closeBatch_only]
@[simp] theorem closeBatch_sched (s : State) : (closeBatch s).sched = s.sched := by rw [closeBatch_only]
@[simp] theorem closeBatch_drains (s : State) : (closeBatch s).drains = s.drains := by rw [closeBatch_only]
@[simp] theorem closeBatch_oldRules (s : State) : (closeBatch s).oldRules = s.oldRules := by rw [closeBatch_only]
@[simp] theorem closeBatch_dirtyCtrs (s : State) : (closeBatch s).dirtyCtrs = s.dirtyCtrs := by rw [closeBatch_only]
@[simp] theorem closeBatch_banks (s : State) : (closeBatch s).banks = s.banks := by rw [closeBatch_only]
@[simp] theorem closeBatch_lark (s : State) : (closeBatch s).lark = s.lark := by rw [closeBatch_only]
@[simp] theorem closeBatch_keys (s : State) : (closeBatch s).keys = s.keys := by rw [closeBatch_only]
@[simp] theorem closeBatch_pkes (s : State) : (closeBatch s).pkes = s.pkes := by rw [closeBatch_only]
@[simp] theorem closeBatch_gates (s : State) : (closeBatch s).gates = s.gates := by rw [closeBatch_only]
@[simp] theorem closeBatch_epoch (s : State) : (closeBatch s).epoch = s.epoch := by rw [closeBatch_only]
@[simp] theorem closeBatch_engine (s : State) : (closeBatch s).engine = s.engine := by rw [closeBatch_only]
@[simp] theorem closeBatch_dram (s : State) : (closeBatch s).dram = s.dram := by rw [closeBatch_only]
@[simp] theorem closeBatch_dbg (s : State) : (closeBatch s).dbg = s.dbg := by rw [closeBatch_only]
@[simp] theorem closeBatch_lcResetDue (s : State) : (closeBatch s).lcResetDue = s.lcResetDue := by rw [closeBatch_only]
@[simp] theorem closeBatch_tamper (s : State) : (closeBatch s).tamper = s.tamper := by rw [closeBatch_only]
@[simp] theorem closeBatch_meter (s : State) : (closeBatch s).meter = s.meter := by rw [closeBatch_only]
@[simp] theorem closeBatch_dgu0 (s : State) : (closeBatch s).dgu0 = s.dgu0 := by rw [closeBatch_only]
@[simp] theorem closeBatch_dgu1 (s : State) : (closeBatch s).dgu1 = s.dgu1 := by rw [closeBatch_only]
@[simp] theorem closeBatch_ev (s : State) : (closeBatch s).ev = s.ev := by rw [closeBatch_only]
@[simp] theorem closeBatch_diag (s : State) : (closeBatch s).diag = s.diag := by rw [closeBatch_only]
@[simp] theorem closeBatch_health (s : State) : (closeBatch s).health = s.health := by rw [closeBatch_only]
@[simp] theorem closeBatch_spi (s : State) : (closeBatch s).spi = s.spi := by rw [closeBatch_only]
@[simp] theorem closeBatch_waiters (s : State) : (closeBatch s).waiters = s.waiters := by rw [closeBatch_only]
@[simp] theorem closeBatch_held (s : State) : (closeBatch s).held = s.held := by rw [closeBatch_only]
@[simp] theorem closeBatch_out (s : State) : (closeBatch s).out = s.out := by rw [closeBatch_only]
@[simp] theorem closeBatch_free (s : State) : (closeBatch s).free = s.free := by rw [closeBatch_only]

theorem foldLeaf_only (l : Leaf) (s : State) :
    foldLeaf l s = { s with
      nv := (foldLeaf l s).nv, jrn := (foldLeaf l s).jrn, pmon := (foldLeaf l s).pmon } := by
  unfold foldLeaf
  simp only []
  (repeat' split)
  · rw [writePages_only, closeBatch_only]
  · rw [closeBatch_only]
  · rfl


theorem foldAll_only (fuel : Nat) (s : State) :
    foldAll fuel s = { s with
      nv := (foldAll fuel s).nv, jrn := (foldAll fuel s).jrn, pmon := (foldAll fuel s).pmon } := by
  induction fuel generalizing s with
  | zero => rfl
  | succ n ih =>
    unfold foldAll
    split
    · rfl
    · rw [ih, foldLeaf_only]


theorem abandonAll_only (s : State) :
    abandonAll s = { s with work := (abandonAll s).work, jrn := (abandonAll s).jrn } := by
  rfl


theorem flushJournal_only (s : State) :
    flushJournal s = { s with
      nv := (flushJournal s).nv, work := (flushJournal s).work, jrn := (flushJournal s).jrn, pmon := (flushJournal s).pmon } := by
  unfold flushJournal
  simp only []
  rw [writePages_only, closeBatch_only, foldAll_only, abandonAll_only]

@[simp] theorem flushJournal_pending (s : State) : (flushJournal s).pending = s.pending := by rw [flushJournal_only]
@[simp] theorem flushJournal_pwr (s : State) : (flushJournal s).pwr = s.pwr := by rw [flushJournal_only]
@[simp] theorem flushJournal_boot (s : State) : (flushJournal s).boot = s.boot := by rw [flushJournal_only]
@[simp] theorem flushJournal_opsec (s : State) : (flushJournal s).opsec = s.opsec := by rw [flushJournal_only]
@[simp] theorem flushJournal_pwrCyc (s : State) : (flushJournal s).pwrCyc = s.pwrCyc := by rw [flushJournal_only]
@[simp] theorem flushJournal_bootEpoch (s : State) : (flushJournal s).bootEpoch = s.bootEpoch := by rw [flushJournal_only]
@[simp] theorem flushJournal_epochOut (s : State) : (flushJournal s).epochOut = s.epochOut := by rw [flushJournal_only]
@[simp] theorem flushJournal_lc (s : State) : (flushJournal s).lc = s.lc := by rw [flushJournal_only]
@[simp] theorem flushJournal_beneath (s : State) : (flushJournal s).beneath = s.beneath := by rw [flushJournal_only]
@[simp] theorem flushJournal_otp (s : State) : (flushJournal s).otp = s.otp := by rw [flushJournal_only]
@[simp] theorem flushJournal_link (s : State) : (flushJournal s).link = s.link := by rw [flushJournal_only]
@[simp] theorem flushJournal_fns (s : State) : (flushJournal s).fns = s.fns := by rw [flushJournal_only]
@[simp] theorem flushJournal_vecs (s : State) : (flushJournal s).vecs = s.vecs := by rw [flushJournal_only]
@[simp] theorem flushJournal_mbxs (s : State) : (flushJournal s).mbxs = s.mbxs := by rw [flushJournal_only]
@[simp] theorem flushJournal_queues (s : State) : (flushJournal s).queues = s.queues := by rw [flushJournal_only]
@[simp] theorem flushJournal_cache (s : State) : (flushJournal s).cache = s.cache := by rw [flushJournal_only]
@[simp] theorem flushJournal_nonces (s : State) : (flushJournal s).nonces = s.nonces := by rw [flushJournal_only]
@[simp] theorem flushJournal_lanes (s : State) : (flushJournal s).lanes = s.lanes := by rw [flushJournal_only]
@[simp] theorem flushJournal_slots (s : State) : (flushJournal s).slots = s.slots := by rw [flushJournal_only]
@[simp] theorem flushJournal_sched (s : State) : (flushJournal s).sched = s.sched := by rw [flushJournal_only]
@[simp] theorem flushJournal_drains (s : State) : (flushJournal s).drains = s.drains := by rw [flushJournal_only]
@[simp] theorem flushJournal_oldRules (s : State) : (flushJournal s).oldRules = s.oldRules := by rw [flushJournal_only]
@[simp] theorem flushJournal_dirtyCtrs (s : State) : (flushJournal s).dirtyCtrs = s.dirtyCtrs := by rw [flushJournal_only]
@[simp] theorem flushJournal_banks (s : State) : (flushJournal s).banks = s.banks := by rw [flushJournal_only]
@[simp] theorem flushJournal_lark (s : State) : (flushJournal s).lark = s.lark := by rw [flushJournal_only]
@[simp] theorem flushJournal_keys (s : State) : (flushJournal s).keys = s.keys := by rw [flushJournal_only]
@[simp] theorem flushJournal_pkes (s : State) : (flushJournal s).pkes = s.pkes := by rw [flushJournal_only]
@[simp] theorem flushJournal_gates (s : State) : (flushJournal s).gates = s.gates := by rw [flushJournal_only]
@[simp] theorem flushJournal_epoch (s : State) : (flushJournal s).epoch = s.epoch := by rw [flushJournal_only]
@[simp] theorem flushJournal_engine (s : State) : (flushJournal s).engine = s.engine := by rw [flushJournal_only]
@[simp] theorem flushJournal_dram (s : State) : (flushJournal s).dram = s.dram := by rw [flushJournal_only]
@[simp] theorem flushJournal_dbg (s : State) : (flushJournal s).dbg = s.dbg := by rw [flushJournal_only]
@[simp] theorem flushJournal_lcResetDue (s : State) : (flushJournal s).lcResetDue = s.lcResetDue := by rw [flushJournal_only]
@[simp] theorem flushJournal_tamper (s : State) : (flushJournal s).tamper = s.tamper := by rw [flushJournal_only]
@[simp] theorem flushJournal_meter (s : State) : (flushJournal s).meter = s.meter := by rw [flushJournal_only]
@[simp] theorem flushJournal_dgu0 (s : State) : (flushJournal s).dgu0 = s.dgu0 := by rw [flushJournal_only]
@[simp] theorem flushJournal_dgu1 (s : State) : (flushJournal s).dgu1 = s.dgu1 := by rw [flushJournal_only]
@[simp] theorem flushJournal_ev (s : State) : (flushJournal s).ev = s.ev := by rw [flushJournal_only]
@[simp] theorem flushJournal_diag (s : State) : (flushJournal s).diag = s.diag := by rw [flushJournal_only]
@[simp] theorem flushJournal_health (s : State) : (flushJournal s).health = s.health := by rw [flushJournal_only]
@[simp] theorem flushJournal_spi (s : State) : (flushJournal s).spi = s.spi := by rw [flushJournal_only]
@[simp] theorem flushJournal_waiters (s : State) : (flushJournal s).waiters = s.waiters := by rw [flushJournal_only]
@[simp] theorem flushJournal_held (s : State) : (flushJournal s).held = s.held := by rw [flushJournal_only]
@[simp] theorem flushJournal_out (s : State) : (flushJournal s).out = s.out := by rw [flushJournal_only]
@[simp] theorem flushJournal_free (s : State) : (flushJournal s).free = s.free := by rw [flushJournal_only]

theorem backWrite_only (n : Nat) (s : State) :
    backWrite n s = { s with
      nv := (backWrite n s).nv, dirtyCtrs := (backWrite n s).dirtyCtrs } := by
  unfold backWrite
  rw [setCtr_only]


theorem flushCounters_only (s : State) :
    flushCounters s = { s with
      nv := (flushCounters s).nv, dirtyCtrs := (flushCounters s).dirtyCtrs } := by
  unfold flushCounters
  refine foldl_keeps (P := fun t => t = { s with nv := (t).nv, dirtyCtrs := (t).dirtyCtrs }) _ _ _ (by rw [setCtr_only, setCtr_only]) fun t x h => ?_
  rw [backWrite_only, h]


theorem flushMeter_only (s : State) :
    flushMeter s = { s with
      nv := (flushMeter s).nv, meter := (flushMeter s).meter, pmon := (flushMeter s).pmon } := by
  unfold flushMeter
  refine foldl_keeps (P := fun t => t = { s with nv := (t).nv, meter := (t).meter, pmon := (t).pmon }) _ _ _ rfl fun t x h => ?_
  rw [h]
  rfl


theorem suppressedSummary_only (code : Nat) (s : State) :
    suppressedSummary code s = { s with
      ev := (suppressedSummary code s).ev, pmon := (suppressedSummary code s).pmon } := by
  unfold suppressedSummary
  simp only []
  rw [eventX_only]


theorem allSummaries_only (s : State) :
    allSummaries s = { s with ev := (allSummaries s).ev, pmon := (allSummaries s).pmon } := by
  unfold allSummaries
  refine foldl_keeps (P := fun t => t = { s with ev := (t).ev, pmon := (t).pmon }) _ _ _ rfl fun t x h => ?_
  rw [suppressedSummary_only, h]


theorem flush_only (s : State) :
    flush s = { s with
      nv := (flush s).nv, work := (flush s).work, jrn := (flush s).jrn, dirtyCtrs := (flush s).dirtyCtrs, meter := (flush s).meter
      ev := (flush s).ev, pmon := (flush s).pmon } := by
  unfold flush writeTail writeEvents markFlush
  simp only []
  have h1 := allSummaries_only s
  generalize allSummaries s = a at h1 ⊢
  generalize hm : ({ a with nv := _ } : State) = m
  have h2 := flushJournal_only m
  generalize flushJournal m = b at h2 ⊢
  have h3 := flushCounters_only b
  generalize flushCounters b = c at h3 ⊢
  have h4 := flushMeter_only c
  generalize flushMeter c = d at h4 ⊢
  rw [h4, h3, h2, ← hm, h1]


theorem respond_only (op : Nat) (r : Req) (status detail : Nat) (body : Bytes) (s : State) :
    respond op r status detail body s = { s with
      link := (respond op r status detail body s).link, vecs := (respond op r status detail body s).vecs
      mbxs := (respond op r status detail body s).mbxs, pmon := (respond op r status detail body s).pmon
      spi := (respond op r status detail body s).spi, out := (respond op r status detail body s).out
      free := (respond op r status detail body s).free } := by
  unfold respond
  simp only []
  split
  · split
    · rw [message_only]
      rfl
    · rfl
  · rfl
  · rfl

@[simp] theorem respond_pending (op : Nat) (r : Req) (status detail : Nat) (body : Bytes) (s : State) : (respond op r status detail body
    s).pending = s.pending := by rw [respond_only]
@[simp] theorem respond_pwr (op : Nat) (r : Req) (status detail : Nat) (body : Bytes) (s : State) : (respond op r status detail body
    s).pwr = s.pwr := by rw [respond_only]
@[simp] theorem respond_boot (op : Nat) (r : Req) (status detail : Nat) (body : Bytes) (s : State) : (respond op r status detail body
    s).boot = s.boot := by rw [respond_only]
@[simp] theorem respond_opsec (op : Nat) (r : Req) (status detail : Nat) (body : Bytes) (s : State) : (respond op r status detail body
    s).opsec = s.opsec := by rw [respond_only]
@[simp] theorem respond_pwrCyc (op : Nat) (r : Req) (status detail : Nat) (body : Bytes) (s : State) : (respond op r status detail body
    s).pwrCyc = s.pwrCyc := by rw [respond_only]
@[simp] theorem respond_bootEpoch (op : Nat) (r : Req) (status detail : Nat) (body : Bytes) (s : State) : (respond op r status detail body
    s).bootEpoch = s.bootEpoch := by rw [respond_only]
@[simp] theorem respond_epochOut (op : Nat) (r : Req) (status detail : Nat) (body : Bytes) (s : State) : (respond op r status detail body
    s).epochOut = s.epochOut := by rw [respond_only]
@[simp] theorem respond_lc (op : Nat) (r : Req) (status detail : Nat) (body : Bytes) (s : State) : (respond op r status detail body s).lc
    = s.lc := by rw [respond_only]
@[simp] theorem respond_beneath (op : Nat) (r : Req) (status detail : Nat) (body : Bytes) (s : State) : (respond op r status detail body
    s).beneath = s.beneath := by rw [respond_only]
@[simp] theorem respond_otp (op : Nat) (r : Req) (status detail : Nat) (body : Bytes) (s : State) : (respond op r status detail body
    s).otp = s.otp := by rw [respond_only]
@[simp] theorem respond_nv (op : Nat) (r : Req) (status detail : Nat) (body : Bytes) (s : State) : (respond op r status detail body s).nv
    = s.nv := by rw [respond_only]
@[simp] theorem respond_fns (op : Nat) (r : Req) (status detail : Nat) (body : Bytes) (s : State) : (respond op r status detail body
    s).fns = s.fns := by rw [respond_only]
@[simp] theorem respond_queues (op : Nat) (r : Req) (status detail : Nat) (body : Bytes) (s : State) : (respond op r status detail body
    s).queues = s.queues := by rw [respond_only]
@[simp] theorem respond_cache (op : Nat) (r : Req) (status detail : Nat) (body : Bytes) (s : State) : (respond op r status detail body
    s).cache = s.cache := by rw [respond_only]
@[simp] theorem respond_nonces (op : Nat) (r : Req) (status detail : Nat) (body : Bytes) (s : State) : (respond op r status detail body
    s).nonces = s.nonces := by rw [respond_only]
@[simp] theorem respond_work (op : Nat) (r : Req) (status detail : Nat) (body : Bytes) (s : State) : (respond op r status detail body
    s).work = s.work := by rw [respond_only]
@[simp] theorem respond_lanes (op : Nat) (r : Req) (status detail : Nat) (body : Bytes) (s : State) : (respond op r status detail body
    s).lanes = s.lanes := by rw [respond_only]
@[simp] theorem respond_slots (op : Nat) (r : Req) (status detail : Nat) (body : Bytes) (s : State) : (respond op r status detail body
    s).slots = s.slots := by rw [respond_only]
@[simp] theorem respond_sched (op : Nat) (r : Req) (status detail : Nat) (body : Bytes) (s : State) : (respond op r status detail body
    s).sched = s.sched := by rw [respond_only]
@[simp] theorem respond_drains (op : Nat) (r : Req) (status detail : Nat) (body : Bytes) (s : State) : (respond op r status detail body
    s).drains = s.drains := by rw [respond_only]
@[simp] theorem respond_oldRules (op : Nat) (r : Req) (status detail : Nat) (body : Bytes) (s : State) : (respond op r status detail body
    s).oldRules = s.oldRules := by rw [respond_only]
@[simp] theorem respond_jrn (op : Nat) (r : Req) (status detail : Nat) (body : Bytes) (s : State) : (respond op r status detail body
    s).jrn = s.jrn := by rw [respond_only]
@[simp] theorem respond_dirtyCtrs (op : Nat) (r : Req) (status detail : Nat) (body : Bytes) (s : State) : (respond op r status detail body
    s).dirtyCtrs = s.dirtyCtrs := by rw [respond_only]
@[simp] theorem respond_banks (op : Nat) (r : Req) (status detail : Nat) (body : Bytes) (s : State) : (respond op r status detail body
    s).banks = s.banks := by rw [respond_only]
@[simp] theorem respond_lark (op : Nat) (r : Req) (status detail : Nat) (body : Bytes) (s : State) : (respond op r status detail body
    s).lark = s.lark := by rw [respond_only]
@[simp] theorem respond_keys (op : Nat) (r : Req) (status detail : Nat) (body : Bytes) (s : State) : (respond op r status detail body
    s).keys = s.keys := by rw [respond_only]
@[simp] theorem respond_pkes (op : Nat) (r : Req) (status detail : Nat) (body : Bytes) (s : State) : (respond op r status detail body
    s).pkes = s.pkes := by rw [respond_only]
@[simp] theorem respond_gates (op : Nat) (r : Req) (status detail : Nat) (body : Bytes) (s : State) : (respond op r status detail body
    s).gates = s.gates := by rw [respond_only]
@[simp] theorem respond_epoch (op : Nat) (r : Req) (status detail : Nat) (body : Bytes) (s : State) : (respond op r status detail body
    s).epoch = s.epoch := by rw [respond_only]
@[simp] theorem respond_engine (op : Nat) (r : Req) (status detail : Nat) (body : Bytes) (s : State) : (respond op r status detail body
    s).engine = s.engine := by rw [respond_only]
@[simp] theorem respond_dram (op : Nat) (r : Req) (status detail : Nat) (body : Bytes) (s : State) : (respond op r status detail body
    s).dram = s.dram := by rw [respond_only]
@[simp] theorem respond_dbg (op : Nat) (r : Req) (status detail : Nat) (body : Bytes) (s : State) : (respond op r status detail body
    s).dbg = s.dbg := by rw [respond_only]
@[simp] theorem respond_lcResetDue (op : Nat) (r : Req) (status detail : Nat) (body : Bytes) (s : State) : (respond op r status detail
    body s).lcResetDue = s.lcResetDue := by rw [respond_only]
@[simp] theorem respond_tamper (op : Nat) (r : Req) (status detail : Nat) (body : Bytes) (s : State) : (respond op r status detail body
    s).tamper = s.tamper := by rw [respond_only]
@[simp] theorem respond_meter (op : Nat) (r : Req) (status detail : Nat) (body : Bytes) (s : State) : (respond op r status detail body
    s).meter = s.meter := by rw [respond_only]
@[simp] theorem respond_dgu0 (op : Nat) (r : Req) (status detail : Nat) (body : Bytes) (s : State) : (respond op r status detail body
    s).dgu0 = s.dgu0 := by rw [respond_only]
@[simp] theorem respond_dgu1 (op : Nat) (r : Req) (status detail : Nat) (body : Bytes) (s : State) : (respond op r status detail body
    s).dgu1 = s.dgu1 := by rw [respond_only]
@[simp] theorem respond_ev (op : Nat) (r : Req) (status detail : Nat) (body : Bytes) (s : State) : (respond op r status detail body s).ev
    = s.ev := by rw [respond_only]
@[simp] theorem respond_diag (op : Nat) (r : Req) (status detail : Nat) (body : Bytes) (s : State) : (respond op r status detail body
    s).diag = s.diag := by rw [respond_only]
@[simp] theorem respond_health (op : Nat) (r : Req) (status detail : Nat) (body : Bytes) (s : State) : (respond op r status detail body
    s).health = s.health := by rw [respond_only]
@[simp] theorem respond_waiters (op : Nat) (r : Req) (status detail : Nat) (body : Bytes) (s : State) : (respond op r status detail body
    s).waiters = s.waiters := by rw [respond_only]
@[simp] theorem respond_held (op : Nat) (r : Req) (status detail : Nat) (body : Bytes) (s : State) : (respond op r status detail body
    s).held = s.held := by rw [respond_only]

theorem answerWaiter_only (w : Waiter) (status detail : Nat) (body : Bytes) (s : State) :
    answerWaiter w status detail body s = { s with
      link := (answerWaiter w status detail body s).link, vecs := (answerWaiter w status detail body s).vecs
      mbxs := (answerWaiter w status detail body s).mbxs, ev := (answerWaiter w status detail body s).ev
      pmon := (answerWaiter w status detail body s).pmon, spi := (answerWaiter w status detail body s).spi
      out := (answerWaiter w status detail body s).out, free := (answerWaiter w status detail body s).free } := by
  unfold answerWaiter
  split
  · rw [eventX_only]
  · rw [respond_only]


theorem answerAll_only (p : Waiter → Bool) (reply : Waiter → Nat × Nat × Bytes) (s : State) :
    answerAll p reply s = { s with
      link := (answerAll p reply s).link, vecs := (answerAll p reply s).vecs, mbxs := (answerAll p reply s).mbxs
      ev := (answerAll p reply s).ev, pmon := (answerAll p reply s).pmon, spi := (answerAll p reply s).spi
      waiters := (answerAll p reply s).waiters, out := (answerAll p reply s).out, free := (answerAll p reply s).free } := by
  unfold answerAll
  simp only []
  refine foldl_keeps (P := fun t => t = { s with
          link := (t).link, vecs := (t).vecs, mbxs := (t).mbxs, ev := (t).ev, pmon := (t).pmon, spi := (t).spi
          waiters := (t).waiters, out := (t).out, free := (t).free }) _ _ _ rfl fun t x h => ?_
  rw [answerWaiter_only, h]

@[simp] theorem answerAll_pending (p : Waiter → Bool) (reply : Waiter → Nat × Nat × Bytes) (s : State) : (answerAll p reply s).pending =
    s.pending := by rw [answerAll_only]
@[simp] theorem answerAll_pwr (p : Waiter → Bool) (reply : Waiter → Nat × Nat × Bytes) (s : State) : (answerAll p reply s).pwr = s.pwr :=
    by rw [answerAll_only]
@[simp] theorem answerAll_boot (p : Waiter → Bool) (reply : Waiter → Nat × Nat × Bytes) (s : State) : (answerAll p reply s).boot = s.boot
    := by rw [answerAll_only]
@[simp] theorem answerAll_opsec (p : Waiter → Bool) (reply : Waiter → Nat × Nat × Bytes) (s : State) : (answerAll p reply s).opsec =
    s.opsec := by rw [answerAll_only]
@[simp] theorem answerAll_pwrCyc (p : Waiter → Bool) (reply : Waiter → Nat × Nat × Bytes) (s : State) : (answerAll p reply s).pwrCyc =
    s.pwrCyc := by rw [answerAll_only]
@[simp] theorem answerAll_bootEpoch (p : Waiter → Bool) (reply : Waiter → Nat × Nat × Bytes) (s : State) : (answerAll p reply s).bootEpoch
    = s.bootEpoch := by rw [answerAll_only]
@[simp] theorem answerAll_epochOut (p : Waiter → Bool) (reply : Waiter → Nat × Nat × Bytes) (s : State) : (answerAll p reply s).epochOut =
    s.epochOut := by rw [answerAll_only]
@[simp] theorem answerAll_lc (p : Waiter → Bool) (reply : Waiter → Nat × Nat × Bytes) (s : State) : (answerAll p reply s).lc = s.lc := by
    rw [answerAll_only]
@[simp] theorem answerAll_beneath (p : Waiter → Bool) (reply : Waiter → Nat × Nat × Bytes) (s : State) : (answerAll p reply s).beneath =
    s.beneath := by rw [answerAll_only]
@[simp] theorem answerAll_otp (p : Waiter → Bool) (reply : Waiter → Nat × Nat × Bytes) (s : State) : (answerAll p reply s).otp = s.otp :=
    by rw [answerAll_only]
@[simp] theorem answerAll_nv (p : Waiter → Bool) (reply : Waiter → Nat × Nat × Bytes) (s : State) : (answerAll p reply s).nv = s.nv := by
    rw [answerAll_only]
@[simp] theorem answerAll_fns (p : Waiter → Bool) (reply : Waiter → Nat × Nat × Bytes) (s : State) : (answerAll p reply s).fns = s.fns :=
    by rw [answerAll_only]
@[simp] theorem answerAll_queues (p : Waiter → Bool) (reply : Waiter → Nat × Nat × Bytes) (s : State) : (answerAll p reply s).queues =
    s.queues := by rw [answerAll_only]
@[simp] theorem answerAll_cache (p : Waiter → Bool) (reply : Waiter → Nat × Nat × Bytes) (s : State) : (answerAll p reply s).cache =
    s.cache := by rw [answerAll_only]
@[simp] theorem answerAll_nonces (p : Waiter → Bool) (reply : Waiter → Nat × Nat × Bytes) (s : State) : (answerAll p reply s).nonces =
    s.nonces := by rw [answerAll_only]
@[simp] theorem answerAll_work (p : Waiter → Bool) (reply : Waiter → Nat × Nat × Bytes) (s : State) : (answerAll p reply s).work = s.work
    := by rw [answerAll_only]
@[simp] theorem answerAll_lanes (p : Waiter → Bool) (reply : Waiter → Nat × Nat × Bytes) (s : State) : (answerAll p reply s).lanes =
    s.lanes := by rw [answerAll_only]
@[simp] theorem answerAll_slots (p : Waiter → Bool) (reply : Waiter → Nat × Nat × Bytes) (s : State) : (answerAll p reply s).slots =
    s.slots := by rw [answerAll_only]
@[simp] theorem answerAll_sched (p : Waiter → Bool) (reply : Waiter → Nat × Nat × Bytes) (s : State) : (answerAll p reply s).sched =
    s.sched := by rw [answerAll_only]
@[simp] theorem answerAll_drains (p : Waiter → Bool) (reply : Waiter → Nat × Nat × Bytes) (s : State) : (answerAll p reply s).drains =
    s.drains := by rw [answerAll_only]
@[simp] theorem answerAll_oldRules (p : Waiter → Bool) (reply : Waiter → Nat × Nat × Bytes) (s : State) : (answerAll p reply s).oldRules =
    s.oldRules := by rw [answerAll_only]
@[simp] theorem answerAll_jrn (p : Waiter → Bool) (reply : Waiter → Nat × Nat × Bytes) (s : State) : (answerAll p reply s).jrn = s.jrn :=
    by rw [answerAll_only]
@[simp] theorem answerAll_dirtyCtrs (p : Waiter → Bool) (reply : Waiter → Nat × Nat × Bytes) (s : State) : (answerAll p reply s).dirtyCtrs
    = s.dirtyCtrs := by rw [answerAll_only]
@[simp] theorem answerAll_banks (p : Waiter → Bool) (reply : Waiter → Nat × Nat × Bytes) (s : State) : (answerAll p reply s).banks =
    s.banks := by rw [answerAll_only]
@[simp] theorem answerAll_lark (p : Waiter → Bool) (reply : Waiter → Nat × Nat × Bytes) (s : State) : (answerAll p reply s).lark = s.lark
    := by rw [answerAll_only]
@[simp] theorem answerAll_keys (p : Waiter → Bool) (reply : Waiter → Nat × Nat × Bytes) (s : State) : (answerAll p reply s).keys = s.keys
    := by rw [answerAll_only]
@[simp] theorem answerAll_pkes (p : Waiter → Bool) (reply : Waiter → Nat × Nat × Bytes) (s : State) : (answerAll p reply s).pkes = s.pkes
    := by rw [answerAll_only]
@[simp] theorem answerAll_gates (p : Waiter → Bool) (reply : Waiter → Nat × Nat × Bytes) (s : State) : (answerAll p reply s).gates =
    s.gates := by rw [answerAll_only]
@[simp] theorem answerAll_epoch (p : Waiter → Bool) (reply : Waiter → Nat × Nat × Bytes) (s : State) : (answerAll p reply s).epoch =
    s.epoch := by rw [answerAll_only]
@[simp] theorem answerAll_engine (p : Waiter → Bool) (reply : Waiter → Nat × Nat × Bytes) (s : State) : (answerAll p reply s).engine =
    s.engine := by rw [answerAll_only]
@[simp] theorem answerAll_dram (p : Waiter → Bool) (reply : Waiter → Nat × Nat × Bytes) (s : State) : (answerAll p reply s).dram = s.dram
    := by rw [answerAll_only]
@[simp] theorem answerAll_dbg (p : Waiter → Bool) (reply : Waiter → Nat × Nat × Bytes) (s : State) : (answerAll p reply s).dbg = s.dbg :=
    by rw [answerAll_only]
@[simp] theorem answerAll_lcResetDue (p : Waiter → Bool) (reply : Waiter → Nat × Nat × Bytes) (s : State) : (answerAll p reply
    s).lcResetDue = s.lcResetDue := by rw [answerAll_only]
@[simp] theorem answerAll_tamper (p : Waiter → Bool) (reply : Waiter → Nat × Nat × Bytes) (s : State) : (answerAll p reply s).tamper =
    s.tamper := by rw [answerAll_only]
@[simp] theorem answerAll_meter (p : Waiter → Bool) (reply : Waiter → Nat × Nat × Bytes) (s : State) : (answerAll p reply s).meter =
    s.meter := by rw [answerAll_only]
@[simp] theorem answerAll_dgu0 (p : Waiter → Bool) (reply : Waiter → Nat × Nat × Bytes) (s : State) : (answerAll p reply s).dgu0 = s.dgu0
    := by rw [answerAll_only]
@[simp] theorem answerAll_dgu1 (p : Waiter → Bool) (reply : Waiter → Nat × Nat × Bytes) (s : State) : (answerAll p reply s).dgu1 = s.dgu1
    := by rw [answerAll_only]
@[simp] theorem answerAll_diag (p : Waiter → Bool) (reply : Waiter → Nat × Nat × Bytes) (s : State) : (answerAll p reply s).diag = s.diag
    := by rw [answerAll_only]
@[simp] theorem answerAll_health (p : Waiter → Bool) (reply : Waiter → Nat × Nat × Bytes) (s : State) : (answerAll p reply s).health =
    s.health := by rw [answerAll_only]
@[simp] theorem answerAll_held (p : Waiter → Bool) (reply : Waiter → Nat × Nat × Bytes) (s : State) : (answerAll p reply s).held = s.held
    := by rw [answerAll_only]

theorem dropSess_only (h : Nat) (s : State) :
    dropSess h s = { s with keys := (dropSess h s).keys } := by
  unfold dropSess
  split <;> rfl


theorem freeQueue_only (q : Nat) (s : State) :
    freeQueue q s = { s with
      queues := (freeQueue q s).queues, cache := (freeQueue q s).cache, keys := (freeQueue q s).keys, dram := (freeQueue q s).dram } := by
  unfold freeQueue
  rw [dropSess_only]


theorem recharge_only (s : State) :
    recharge s = { s with fns := (recharge s).fns, spi := (recharge s).spi } := by
  rfl

@[simp] theorem recharge_pending (s : State) : (recharge s).pending = s.pending := by rw [recharge_only]
@[simp] theorem recharge_pwr (s : State) : (recharge s).pwr = s.pwr := by rw [recharge_only]
@[simp] theorem recharge_boot (s : State) : (recharge s).boot = s.boot := by rw [recharge_only]
@[simp] theorem recharge_opsec (s : State) : (recharge s).opsec = s.opsec := by rw [recharge_only]
@[simp] theorem recharge_pwrCyc (s : State) : (recharge s).pwrCyc = s.pwrCyc := by rw [recharge_only]
@[simp] theorem recharge_bootEpoch (s : State) : (recharge s).bootEpoch = s.bootEpoch := by rw [recharge_only]
@[simp] theorem recharge_epochOut (s : State) : (recharge s).epochOut = s.epochOut := by rw [recharge_only]
@[simp] theorem recharge_lc (s : State) : (recharge s).lc = s.lc := by rw [recharge_only]
@[simp] theorem recharge_beneath (s : State) : (recharge s).beneath = s.beneath := by rw [recharge_only]
@[simp] theorem recharge_otp (s : State) : (recharge s).otp = s.otp := by rw [recharge_only]
@[simp] theorem recharge_nv (s : State) : (recharge s).nv = s.nv := by rw [recharge_only]
@[simp] theorem recharge_link (s : State) : (recharge s).link = s.link := by rw [recharge_only]
@[simp] theorem recharge_vecs (s : State) : (recharge s).vecs = s.vecs := by rw [recharge_only]
@[simp] theorem recharge_mbxs (s : State) : (recharge s).mbxs = s.mbxs := by rw [recharge_only]
@[simp] theorem recharge_queues (s : State) : (recharge s).queues = s.queues := by rw [recharge_only]
@[simp] theorem recharge_cache (s : State) : (recharge s).cache = s.cache := by rw [recharge_only]
@[simp] theorem recharge_nonces (s : State) : (recharge s).nonces = s.nonces := by rw [recharge_only]
@[simp] theorem recharge_work (s : State) : (recharge s).work = s.work := by rw [recharge_only]
@[simp] theorem recharge_lanes (s : State) : (recharge s).lanes = s.lanes := by rw [recharge_only]
@[simp] theorem recharge_slots (s : State) : (recharge s).slots = s.slots := by rw [recharge_only]
@[simp] theorem recharge_sched (s : State) : (recharge s).sched = s.sched := by rw [recharge_only]
@[simp] theorem recharge_drains (s : State) : (recharge s).drains = s.drains := by rw [recharge_only]
@[simp] theorem recharge_oldRules (s : State) : (recharge s).oldRules = s.oldRules := by rw [recharge_only]
@[simp] theorem recharge_jrn (s : State) : (recharge s).jrn = s.jrn := by rw [recharge_only]
@[simp] theorem recharge_dirtyCtrs (s : State) : (recharge s).dirtyCtrs = s.dirtyCtrs := by rw [recharge_only]
@[simp] theorem recharge_banks (s : State) : (recharge s).banks = s.banks := by rw [recharge_only]
@[simp] theorem recharge_lark (s : State) : (recharge s).lark = s.lark := by rw [recharge_only]
@[simp] theorem recharge_keys (s : State) : (recharge s).keys = s.keys := by rw [recharge_only]
@[simp] theorem recharge_pkes (s : State) : (recharge s).pkes = s.pkes := by rw [recharge_only]
@[simp] theorem recharge_gates (s : State) : (recharge s).gates = s.gates := by rw [recharge_only]
@[simp] theorem recharge_epoch (s : State) : (recharge s).epoch = s.epoch := by rw [recharge_only]
@[simp] theorem recharge_engine (s : State) : (recharge s).engine = s.engine := by rw [recharge_only]
@[simp] theorem recharge_dram (s : State) : (recharge s).dram = s.dram := by rw [recharge_only]
@[simp] theorem recharge_dbg (s : State) : (recharge s).dbg = s.dbg := by rw [recharge_only]
@[simp] theorem recharge_lcResetDue (s : State) : (recharge s).lcResetDue = s.lcResetDue := by rw [recharge_only]
@[simp] theorem recharge_tamper (s : State) : (recharge s).tamper = s.tamper := by rw [recharge_only]
@[simp] theorem recharge_meter (s : State) : (recharge s).meter = s.meter := by rw [recharge_only]
@[simp] theorem recharge_dgu0 (s : State) : (recharge s).dgu0 = s.dgu0 := by rw [recharge_only]
@[simp] theorem recharge_dgu1 (s : State) : (recharge s).dgu1 = s.dgu1 := by rw [recharge_only]
@[simp] theorem recharge_ev (s : State) : (recharge s).ev = s.ev := by rw [recharge_only]
@[simp] theorem recharge_diag (s : State) : (recharge s).diag = s.diag := by rw [recharge_only]
@[simp] theorem recharge_health (s : State) : (recharge s).health = s.health := by rw [recharge_only]
@[simp] theorem recharge_pmon (s : State) : (recharge s).pmon = s.pmon := by rw [recharge_only]
@[simp] theorem recharge_waiters (s : State) : (recharge s).waiters = s.waiters := by rw [recharge_only]
@[simp] theorem recharge_held (s : State) : (recharge s).held = s.held := by rw [recharge_only]
@[simp] theorem recharge_out (s : State) : (recharge s).out = s.out := by rw [recharge_only]
@[simp] theorem recharge_free (s : State) : (recharge s).free = s.free := by rw [recharge_only]

theorem stopQueues_only (qs : List Nat) (s : State) :
    stopQueues qs s = { s with
      fns := (stopQueues qs s).fns, queues := (stopQueues qs s).queues, cache := (stopQueues qs s).cache
      work := (stopQueues qs s).work, keys := (stopQueues qs s).keys, dram := (stopQueues qs s).dram, spi := (stopQueues qs s).spi } := by
  unfold stopQueues
  simp only []
  rw [recharge_only]
  have h : ∀ t : State, t = { s with
          fns := (t).fns, queues := (t).queues, cache := (t).cache, work := (t).work, keys := (t).keys, dram := (t).dram
          spi := (t).spi } → recharge t = { s with
          fns := (recharge t).fns, queues := (recharge t).queues, cache := (recharge t).cache, work := (recharge t).work
          keys := (recharge t).keys, dram := (recharge t).dram, spi := (recharge t).spi } := fun t h => by rw [recharge_only, h]
  refine h _ (foldl_keeps (P := fun t => t = { s with
          fns := (t).fns, queues := (t).queues, cache := (t).cache, work := (t).work, keys := (t).keys, dram := (t).dram
          spi := (t).spi }) _ _ _ rfl fun t x h => ?_)
  split
  · rw [h]
    rfl
  · rw [freeQueue_only, h]


theorem dropRequests_only (f : Nat) (s : State) :
    dropRequests f s = { s with
      mbxs := (dropRequests f s).mbxs, waiters := (dropRequests f s).waiters, held := (dropRequests f s).held } := by
  rfl


theorem resetFnRegs_only (f : Nat) (s : State) :
    resetFnRegs f s = { s with
      fns := (resetFnRegs f s).fns, vecs := (resetFnRegs f s).vecs, mbxs := (resetFnRegs f s).mbxs
      waiters := (resetFnRegs f s).waiters, held := (resetFnRegs f s).held } := by
  rfl


theorem disableFn_only (cause : FnCause) (f : Nat) (s : State) :
    disableFn cause f s = { s with
      fns := (disableFn cause f s).fns, queues := (disableFn cause f s).queues, cache := (disableFn cause f s).cache
      work := (disableFn cause f s).work, keys := (disableFn cause f s).keys, dram := (disableFn cause f s).dram
      ev := (disableFn cause f s).ev, pmon := (disableFn cause f s).pmon, spi := (disableFn cause f s).spi } := by
  unfold disableFn
  simp only []
  split
  · rfl
  · rw [event_only, stopQueues_only]

@[simp] theorem disableFn_pending (cause : FnCause) (f : Nat) (s : State) : (disableFn cause f s).pending = s.pending := by rw
    [disableFn_only]
@[simp] theorem disableFn_pwr (cause : FnCause) (f : Nat) (s : State) : (disableFn cause f s).pwr = s.pwr := by rw [disableFn_only]
@[simp] theorem disableFn_boot (cause : FnCause) (f : Nat) (s : State) : (disableFn cause f s).boot = s.boot := by rw [disableFn_only]
@[simp] theorem disableFn_opsec (cause : FnCause) (f : Nat) (s : State) : (disableFn cause f s).opsec = s.opsec := by rw [disableFn_only]
@[simp] theorem disableFn_pwrCyc (cause : FnCause) (f : Nat) (s : State) : (disableFn cause f s).pwrCyc = s.pwrCyc := by rw [disableFn_only]
@[simp] theorem disableFn_bootEpoch (cause : FnCause) (f : Nat) (s : State) : (disableFn cause f s).bootEpoch = s.bootEpoch := by rw
    [disableFn_only]
@[simp] theorem disableFn_epochOut (cause : FnCause) (f : Nat) (s : State) : (disableFn cause f s).epochOut = s.epochOut := by rw
    [disableFn_only]
@[simp] theorem disableFn_lc (cause : FnCause) (f : Nat) (s : State) : (disableFn cause f s).lc = s.lc := by rw [disableFn_only]
@[simp] theorem disableFn_beneath (cause : FnCause) (f : Nat) (s : State) : (disableFn cause f s).beneath = s.beneath := by rw
    [disableFn_only]
@[simp] theorem disableFn_otp (cause : FnCause) (f : Nat) (s : State) : (disableFn cause f s).otp = s.otp := by rw [disableFn_only]
@[simp] theorem disableFn_nv (cause : FnCause) (f : Nat) (s : State) : (disableFn cause f s).nv = s.nv := by rw [disableFn_only]
@[simp] theorem disableFn_link (cause : FnCause) (f : Nat) (s : State) : (disableFn cause f s).link = s.link := by rw [disableFn_only]
@[simp] theorem disableFn_vecs (cause : FnCause) (f : Nat) (s : State) : (disableFn cause f s).vecs = s.vecs := by rw [disableFn_only]
@[simp] theorem disableFn_mbxs (cause : FnCause) (f : Nat) (s : State) : (disableFn cause f s).mbxs = s.mbxs := by rw [disableFn_only]
@[simp] theorem disableFn_nonces (cause : FnCause) (f : Nat) (s : State) : (disableFn cause f s).nonces = s.nonces := by rw [disableFn_only]
@[simp] theorem disableFn_lanes (cause : FnCause) (f : Nat) (s : State) : (disableFn cause f s).lanes = s.lanes := by rw [disableFn_only]
@[simp] theorem disableFn_slots (cause : FnCause) (f : Nat) (s : State) : (disableFn cause f s).slots = s.slots := by rw [disableFn_only]
@[simp] theorem disableFn_sched (cause : FnCause) (f : Nat) (s : State) : (disableFn cause f s).sched = s.sched := by rw [disableFn_only]
@[simp] theorem disableFn_drains (cause : FnCause) (f : Nat) (s : State) : (disableFn cause f s).drains = s.drains := by rw [disableFn_only]
@[simp] theorem disableFn_oldRules (cause : FnCause) (f : Nat) (s : State) : (disableFn cause f s).oldRules = s.oldRules := by rw
    [disableFn_only]
@[simp] theorem disableFn_jrn (cause : FnCause) (f : Nat) (s : State) : (disableFn cause f s).jrn = s.jrn := by rw [disableFn_only]
@[simp] theorem disableFn_dirtyCtrs (cause : FnCause) (f : Nat) (s : State) : (disableFn cause f s).dirtyCtrs = s.dirtyCtrs := by rw
    [disableFn_only]
@[simp] theorem disableFn_banks (cause : FnCause) (f : Nat) (s : State) : (disableFn cause f s).banks = s.banks := by rw [disableFn_only]
@[simp] theorem disableFn_lark (cause : FnCause) (f : Nat) (s : State) : (disableFn cause f s).lark = s.lark := by rw [disableFn_only]
@[simp] theorem disableFn_pkes (cause : FnCause) (f : Nat) (s : State) : (disableFn cause f s).pkes = s.pkes := by rw [disableFn_only]
@[simp] theorem disableFn_gates (cause : FnCause) (f : Nat) (s : State) : (disableFn cause f s).gates = s.gates := by rw [disableFn_only]
@[simp] theorem disableFn_epoch (cause : FnCause) (f : Nat) (s : State) : (disableFn cause f s).epoch = s.epoch := by rw [disableFn_only]
@[simp] theorem disableFn_engine (cause : FnCause) (f : Nat) (s : State) : (disableFn cause f s).engine = s.engine := by rw [disableFn_only]
@[simp] theorem disableFn_dbg (cause : FnCause) (f : Nat) (s : State) : (disableFn cause f s).dbg = s.dbg := by rw [disableFn_only]
@[simp] theorem disableFn_lcResetDue (cause : FnCause) (f : Nat) (s : State) : (disableFn cause f s).lcResetDue = s.lcResetDue := by rw
    [disableFn_only]
@[simp] theorem disableFn_tamper (cause : FnCause) (f : Nat) (s : State) : (disableFn cause f s).tamper = s.tamper := by rw [disableFn_only]
@[simp] theorem disableFn_meter (cause : FnCause) (f : Nat) (s : State) : (disableFn cause f s).meter = s.meter := by rw [disableFn_only]
@[simp] theorem disableFn_dgu0 (cause : FnCause) (f : Nat) (s : State) : (disableFn cause f s).dgu0 = s.dgu0 := by rw [disableFn_only]
@[simp] theorem disableFn_dgu1 (cause : FnCause) (f : Nat) (s : State) : (disableFn cause f s).dgu1 = s.dgu1 := by rw [disableFn_only]
@[simp] theorem disableFn_diag (cause : FnCause) (f : Nat) (s : State) : (disableFn cause f s).diag = s.diag := by rw [disableFn_only]
@[simp] theorem disableFn_health (cause : FnCause) (f : Nat) (s : State) : (disableFn cause f s).health = s.health := by rw [disableFn_only]
@[simp] theorem disableFn_waiters (cause : FnCause) (f : Nat) (s : State) : (disableFn cause f s).waiters = s.waiters := by rw
    [disableFn_only]
@[simp] theorem disableFn_held (cause : FnCause) (f : Nat) (s : State) : (disableFn cause f s).held = s.held := by rw [disableFn_only]
@[simp] theorem disableFn_out (cause : FnCause) (f : Nat) (s : State) : (disableFn cause f s).out = s.out := by rw [disableFn_only]
@[simp] theorem disableFn_free (cause : FnCause) (f : Nat) (s : State) : (disableFn cause f s).free = s.free := by rw [disableFn_only]

theorem resetFn_only (cause : FnCause) (f : Nat) (s : State) :
    resetFn cause f s = { s with
      fns := (resetFn cause f s).fns, vecs := (resetFn cause f s).vecs, mbxs := (resetFn cause f s).mbxs
      queues := (resetFn cause f s).queues, cache := (resetFn cause f s).cache, work := (resetFn cause f s).work
      keys := (resetFn cause f s).keys, dram := (resetFn cause f s).dram, ev := (resetFn cause f s).ev
      pmon := (resetFn cause f s).pmon, spi := (resetFn cause f s).spi, waiters := (resetFn cause f s).waiters
      held := (resetFn cause f s).held } := by
  unfold resetFn
  split
  · rw [disableFn_only, resetFnRegs_only]
  · rfl


theorem endCause_only (cause : FnCause) (f : Nat) (s : State) :
    endCause cause f s = { s with fns := (endCause cause f s).fns } := by
  rfl


theorem endCauseAll_only (cause : FnCause) (s : State) :
    endCauseAll cause s = { s with fns := (endCauseAll cause s).fns } := by
  unfold endCauseAll
  refine foldl_keeps (P := fun t => t = { s with fns := (t).fns }) _ _ _ rfl fun t x h => ?_
  split
  · rw [endCause_only, h]
  · exact h


theorem disableAll_only (cause : FnCause) (s : State) :
    disableAll cause s = { s with
      fns := (disableAll cause s).fns, queues := (disableAll cause s).queues, cache := (disableAll cause s).cache
      work := (disableAll cause s).work, keys := (disableAll cause s).keys, dram := (disableAll cause s).dram
      ev := (disableAll cause s).ev, pmon := (disableAll cause s).pmon, spi := (disableAll cause s).spi } := by
  unfold disableAll
  refine foldl_keeps (P := fun t => t = { s with
          fns := (t).fns, queues := (t).queues, cache := (t).cache, work := (t).work, keys := (t).keys, dram := (t).dram
          ev := (t).ev, pmon := (t).pmon, spi := (t).spi }) _ _ _ rfl fun t x h => ?_
  rw [disableFn_only, h]

@[simp] theorem disableAll_pending (cause : FnCause) (s : State) : (disableAll cause s).pending = s.pending := by rw [disableAll_only]
@[simp] theorem disableAll_pwr (cause : FnCause) (s : State) : (disableAll cause s).pwr = s.pwr := by rw [disableAll_only]
@[simp] theorem disableAll_boot (cause : FnCause) (s : State) : (disableAll cause s).boot = s.boot := by rw [disableAll_only]
@[simp] theorem disableAll_opsec (cause : FnCause) (s : State) : (disableAll cause s).opsec = s.opsec := by rw [disableAll_only]
@[simp] theorem disableAll_pwrCyc (cause : FnCause) (s : State) : (disableAll cause s).pwrCyc = s.pwrCyc := by rw [disableAll_only]
@[simp] theorem disableAll_bootEpoch (cause : FnCause) (s : State) : (disableAll cause s).bootEpoch = s.bootEpoch := by rw [disableAll_only]
@[simp] theorem disableAll_epochOut (cause : FnCause) (s : State) : (disableAll cause s).epochOut = s.epochOut := by rw [disableAll_only]
@[simp] theorem disableAll_lc (cause : FnCause) (s : State) : (disableAll cause s).lc = s.lc := by rw [disableAll_only]
@[simp] theorem disableAll_beneath (cause : FnCause) (s : State) : (disableAll cause s).beneath = s.beneath := by rw [disableAll_only]
@[simp] theorem disableAll_otp (cause : FnCause) (s : State) : (disableAll cause s).otp = s.otp := by rw [disableAll_only]
@[simp] theorem disableAll_nv (cause : FnCause) (s : State) : (disableAll cause s).nv = s.nv := by rw [disableAll_only]
@[simp] theorem disableAll_link (cause : FnCause) (s : State) : (disableAll cause s).link = s.link := by rw [disableAll_only]
@[simp] theorem disableAll_vecs (cause : FnCause) (s : State) : (disableAll cause s).vecs = s.vecs := by rw [disableAll_only]
@[simp] theorem disableAll_mbxs (cause : FnCause) (s : State) : (disableAll cause s).mbxs = s.mbxs := by rw [disableAll_only]
@[simp] theorem disableAll_nonces (cause : FnCause) (s : State) : (disableAll cause s).nonces = s.nonces := by rw [disableAll_only]
@[simp] theorem disableAll_lanes (cause : FnCause) (s : State) : (disableAll cause s).lanes = s.lanes := by rw [disableAll_only]
@[simp] theorem disableAll_slots (cause : FnCause) (s : State) : (disableAll cause s).slots = s.slots := by rw [disableAll_only]
@[simp] theorem disableAll_sched (cause : FnCause) (s : State) : (disableAll cause s).sched = s.sched := by rw [disableAll_only]
@[simp] theorem disableAll_drains (cause : FnCause) (s : State) : (disableAll cause s).drains = s.drains := by rw [disableAll_only]
@[simp] theorem disableAll_oldRules (cause : FnCause) (s : State) : (disableAll cause s).oldRules = s.oldRules := by rw [disableAll_only]
@[simp] theorem disableAll_jrn (cause : FnCause) (s : State) : (disableAll cause s).jrn = s.jrn := by rw [disableAll_only]
@[simp] theorem disableAll_dirtyCtrs (cause : FnCause) (s : State) : (disableAll cause s).dirtyCtrs = s.dirtyCtrs := by rw [disableAll_only]
@[simp] theorem disableAll_banks (cause : FnCause) (s : State) : (disableAll cause s).banks = s.banks := by rw [disableAll_only]
@[simp] theorem disableAll_lark (cause : FnCause) (s : State) : (disableAll cause s).lark = s.lark := by rw [disableAll_only]
@[simp] theorem disableAll_pkes (cause : FnCause) (s : State) : (disableAll cause s).pkes = s.pkes := by rw [disableAll_only]
@[simp] theorem disableAll_gates (cause : FnCause) (s : State) : (disableAll cause s).gates = s.gates := by rw [disableAll_only]
@[simp] theorem disableAll_epoch (cause : FnCause) (s : State) : (disableAll cause s).epoch = s.epoch := by rw [disableAll_only]
@[simp] theorem disableAll_engine (cause : FnCause) (s : State) : (disableAll cause s).engine = s.engine := by rw [disableAll_only]
@[simp] theorem disableAll_dbg (cause : FnCause) (s : State) : (disableAll cause s).dbg = s.dbg := by rw [disableAll_only]
@[simp] theorem disableAll_lcResetDue (cause : FnCause) (s : State) : (disableAll cause s).lcResetDue = s.lcResetDue := by rw
    [disableAll_only]
@[simp] theorem disableAll_tamper (cause : FnCause) (s : State) : (disableAll cause s).tamper = s.tamper := by rw [disableAll_only]
@[simp] theorem disableAll_meter (cause : FnCause) (s : State) : (disableAll cause s).meter = s.meter := by rw [disableAll_only]
@[simp] theorem disableAll_dgu0 (cause : FnCause) (s : State) : (disableAll cause s).dgu0 = s.dgu0 := by rw [disableAll_only]
@[simp] theorem disableAll_dgu1 (cause : FnCause) (s : State) : (disableAll cause s).dgu1 = s.dgu1 := by rw [disableAll_only]
@[simp] theorem disableAll_diag (cause : FnCause) (s : State) : (disableAll cause s).diag = s.diag := by rw [disableAll_only]
@[simp] theorem disableAll_health (cause : FnCause) (s : State) : (disableAll cause s).health = s.health := by rw [disableAll_only]
@[simp] theorem disableAll_waiters (cause : FnCause) (s : State) : (disableAll cause s).waiters = s.waiters := by rw [disableAll_only]
@[simp] theorem disableAll_held (cause : FnCause) (s : State) : (disableAll cause s).held = s.held := by rw [disableAll_only]
@[simp] theorem disableAll_out (cause : FnCause) (s : State) : (disableAll cause s).out = s.out := by rw [disableAll_only]
@[simp] theorem disableAll_free (cause : FnCause) (s : State) : (disableAll cause s).free = s.free := by rw [disableAll_only]

theorem releaseDgu_only (p : DgOwner) (s : State) :
    releaseDgu p s = { s with dgu1 := (releaseDgu p s).dgu1 } := by
  unfold releaseDgu
  split <;> rfl


theorem mpFalls_only (s : State) :
    mpFalls s = { s with meter := (mpFalls s).meter, dgu1 := (mpFalls s).dgu1 } := by
  unfold mpFalls
  rw [releaseDgu_only]


theorem endDebug_only (reason : Nat) (s : State) :
    endDebug reason s = { s with
      nv := (endDebug reason s).nv, jrn := (endDebug reason s).jrn, gates := (endDebug reason s).gates
      epoch := (endDebug reason s).epoch, dbg := (endDebug reason s).dbg, pmon := (endDebug reason s).pmon } := by
  unfold endDebug
  split
  · rfl
  · rw [journalEntry_only]
    rfl

@[simp] theorem endDebug_pending (reason : Nat) (s : State) : (endDebug reason s).pending = s.pending := by rw [endDebug_only]
@[simp] theorem endDebug_pwr (reason : Nat) (s : State) : (endDebug reason s).pwr = s.pwr := by rw [endDebug_only]
@[simp] theorem endDebug_boot (reason : Nat) (s : State) : (endDebug reason s).boot = s.boot := by rw [endDebug_only]
@[simp] theorem endDebug_opsec (reason : Nat) (s : State) : (endDebug reason s).opsec = s.opsec := by rw [endDebug_only]
@[simp] theorem endDebug_pwrCyc (reason : Nat) (s : State) : (endDebug reason s).pwrCyc = s.pwrCyc := by rw [endDebug_only]
@[simp] theorem endDebug_bootEpoch (reason : Nat) (s : State) : (endDebug reason s).bootEpoch = s.bootEpoch := by rw [endDebug_only]
@[simp] theorem endDebug_epochOut (reason : Nat) (s : State) : (endDebug reason s).epochOut = s.epochOut := by rw [endDebug_only]
@[simp] theorem endDebug_lc (reason : Nat) (s : State) : (endDebug reason s).lc = s.lc := by rw [endDebug_only]
@[simp] theorem endDebug_beneath (reason : Nat) (s : State) : (endDebug reason s).beneath = s.beneath := by rw [endDebug_only]
@[simp] theorem endDebug_otp (reason : Nat) (s : State) : (endDebug reason s).otp = s.otp := by rw [endDebug_only]
@[simp] theorem endDebug_link (reason : Nat) (s : State) : (endDebug reason s).link = s.link := by rw [endDebug_only]
@[simp] theorem endDebug_fns (reason : Nat) (s : State) : (endDebug reason s).fns = s.fns := by rw [endDebug_only]
@[simp] theorem endDebug_vecs (reason : Nat) (s : State) : (endDebug reason s).vecs = s.vecs := by rw [endDebug_only]
@[simp] theorem endDebug_mbxs (reason : Nat) (s : State) : (endDebug reason s).mbxs = s.mbxs := by rw [endDebug_only]
@[simp] theorem endDebug_queues (reason : Nat) (s : State) : (endDebug reason s).queues = s.queues := by rw [endDebug_only]
@[simp] theorem endDebug_cache (reason : Nat) (s : State) : (endDebug reason s).cache = s.cache := by rw [endDebug_only]
@[simp] theorem endDebug_nonces (reason : Nat) (s : State) : (endDebug reason s).nonces = s.nonces := by rw [endDebug_only]
@[simp] theorem endDebug_work (reason : Nat) (s : State) : (endDebug reason s).work = s.work := by rw [endDebug_only]
@[simp] theorem endDebug_lanes (reason : Nat) (s : State) : (endDebug reason s).lanes = s.lanes := by rw [endDebug_only]
@[simp] theorem endDebug_slots (reason : Nat) (s : State) : (endDebug reason s).slots = s.slots := by rw [endDebug_only]
@[simp] theorem endDebug_sched (reason : Nat) (s : State) : (endDebug reason s).sched = s.sched := by rw [endDebug_only]
@[simp] theorem endDebug_drains (reason : Nat) (s : State) : (endDebug reason s).drains = s.drains := by rw [endDebug_only]
@[simp] theorem endDebug_oldRules (reason : Nat) (s : State) : (endDebug reason s).oldRules = s.oldRules := by rw [endDebug_only]
@[simp] theorem endDebug_dirtyCtrs (reason : Nat) (s : State) : (endDebug reason s).dirtyCtrs = s.dirtyCtrs := by rw [endDebug_only]
@[simp] theorem endDebug_banks (reason : Nat) (s : State) : (endDebug reason s).banks = s.banks := by rw [endDebug_only]
@[simp] theorem endDebug_lark (reason : Nat) (s : State) : (endDebug reason s).lark = s.lark := by rw [endDebug_only]
@[simp] theorem endDebug_keys (reason : Nat) (s : State) : (endDebug reason s).keys = s.keys := by rw [endDebug_only]
@[simp] theorem endDebug_pkes (reason : Nat) (s : State) : (endDebug reason s).pkes = s.pkes := by rw [endDebug_only]
@[simp] theorem endDebug_engine (reason : Nat) (s : State) : (endDebug reason s).engine = s.engine := by rw [endDebug_only]
@[simp] theorem endDebug_dram (reason : Nat) (s : State) : (endDebug reason s).dram = s.dram := by rw [endDebug_only]
@[simp] theorem endDebug_lcResetDue (reason : Nat) (s : State) : (endDebug reason s).lcResetDue = s.lcResetDue := by rw [endDebug_only]
@[simp] theorem endDebug_tamper (reason : Nat) (s : State) : (endDebug reason s).tamper = s.tamper := by rw [endDebug_only]
@[simp] theorem endDebug_meter (reason : Nat) (s : State) : (endDebug reason s).meter = s.meter := by rw [endDebug_only]
@[simp] theorem endDebug_dgu0 (reason : Nat) (s : State) : (endDebug reason s).dgu0 = s.dgu0 := by rw [endDebug_only]
@[simp] theorem endDebug_dgu1 (reason : Nat) (s : State) : (endDebug reason s).dgu1 = s.dgu1 := by rw [endDebug_only]
@[simp] theorem endDebug_ev (reason : Nat) (s : State) : (endDebug reason s).ev = s.ev := by rw [endDebug_only]
@[simp] theorem endDebug_diag (reason : Nat) (s : State) : (endDebug reason s).diag = s.diag := by rw [endDebug_only]
@[simp] theorem endDebug_health (reason : Nat) (s : State) : (endDebug reason s).health = s.health := by rw [endDebug_only]
@[simp] theorem endDebug_spi (reason : Nat) (s : State) : (endDebug reason s).spi = s.spi := by rw [endDebug_only]
@[simp] theorem endDebug_waiters (reason : Nat) (s : State) : (endDebug reason s).waiters = s.waiters := by rw [endDebug_only]
@[simp] theorem endDebug_held (reason : Nat) (s : State) : (endDebug reason s).held = s.held := by rw [endDebug_only]
@[simp] theorem endDebug_out (reason : Nat) (s : State) : (endDebug reason s).out = s.out := by rw [endDebug_only]
@[simp] theorem endDebug_free (reason : Nat) (s : State) : (endDebug reason s).free = s.free := by rw [endDebug_only]

theorem aer_only (f : Nat) (e : AerError) (s : State) :
    aer f e s = { s with link := (aer f e s).link, fns := (aer f e s).fns } := by
  unfold aer
  split <;> rfl


theorem unitFails_only (unit index : Nat) (s : State) :
    unitFails unit index s = { s with
      pwr := (unitFails unit index s).pwr, link := (unitFails unit index s).link, fns := (unitFails unit index s).fns
      ev := (unitFails unit index s).ev, pmon := (unitFails unit index s).pmon } := by
  unfold unitFails
  rw [aer_only, event_only]


theorem enterDegraded_only (reason : Nat) (s : State) :
    enterDegraded reason s = { s with
      pwr := (enterDegraded reason s).pwr, nv := (enterDegraded reason s).nv, work := (enterDegraded reason s).work
      jrn := (enterDegraded reason s).jrn, ev := (enterDegraded reason s).ev, pmon := (enterDegraded reason s).pmon } := by
  unfold enterDegraded
  simp only []
  generalize le 1 reason ++ zeros 1 ++ le 2 (capUf s.pwr.cap) ++ le 2 (capMohm s.pwr.cap) ++ zeros 2 = body
  have h1 := journalEntry_only 0x05 false body s
  generalize journalEntry 0x05 false body s = a at h1 ⊢
  have h2 := closeBatch_only a
  generalize closeBatch a = b at h2 ⊢
  have h3 := writePages_only b
  generalize writePages b = d at h3 ⊢
  rw [eventX_only, h3, h2, h1]


theorem zeroiseConditioner_only (s : State) :
    zeroiseConditioner s = { s with
      banks := (zeroiseConditioner s).banks, free := (zeroiseConditioner s).free } := by
  rfl


theorem zeroiseSecrets_only (s : State) :
    zeroiseSecrets s = { s with
      nv := (zeroiseSecrets s).nv, lanes := (zeroiseSecrets s).lanes, banks := (zeroiseSecrets s).banks
      keys := (zeroiseSecrets s).keys, engine := (zeroiseSecrets s).engine, free := (zeroiseSecrets s).free } := by
  unfold zeroiseSecrets
  simp only []
  rw [zeroiseConditioner_only]


theorem takeFrom_only (b : Nat) (s : State) :
    (takeFrom b s).2 = { s with
      banks := ((takeFrom b s).2).banks, pmon := ((takeFrom b s).2).pmon, free := ((takeFrom b s).2).free } := by
  unfold takeFrom
  rfl


theorem takeMany_only (b n : Nat) (s : State) :
    (takeMany b n s).2 = { s with
      banks := ((takeMany b n s).2).banks, pmon := ((takeMany b n s).2).pmon, free := ((takeMany b n s).2).free } := by
  induction n generalizing s with
  | zero => rfl
  | succ n ih =>
    unfold takeMany
    simp only []
    rw [ih, takeFrom_only]


theorem takeBlock_only (s : State) :
    (takeBlock s).2 = { s with
      banks := ((takeBlock s).2).banks, lark := ((takeBlock s).2).lark, pmon := ((takeBlock s).2).pmon
      free := ((takeBlock s).2).free } := by
  unfold takeBlock
  split
  · simp only []
    rw [takeFrom_only]
  · rfl


theorem takeBlocks_only (n : Nat) (s : State) :
    (takeBlocks n s).2 = { s with
      banks := ((takeBlocks n s).2).banks, lark := ((takeBlocks n s).2).lark, pmon := ((takeBlocks n s).2).pmon
      free := ((takeBlocks n s).2).free } := by
  induction n generalizing s with
  | zero => rfl
  | succ n ih =>
    unfold takeBlocks
    simp only []
    rw [ih, takeBlock_only]


theorem takeSeed_only (s : State) :
    (takeSeed s).2 = { s with
      banks := ((takeSeed s).2).banks, lark := ((takeSeed s).2).lark, pmon := ((takeSeed s).2).pmon, free := ((takeSeed s).2).free } := by
  exact takeBlocks_only 2 s


theorem freshWraps_only (s : State) :
    freshWraps s = { s with
      banks := (freshWraps s).banks, lark := (freshWraps s).lark, keys := (freshWraps s).keys, pmon := (freshWraps s).pmon
      free := (freshWraps s).free } := by
  unfold freshWraps
  simp only []
  split
  · rw [takeSeed_only, takeSeed_only]
  · rfl


theorem toTestRoot_only (s : State) :
    toTestRoot s = { s with
      nv := (toTestRoot s).nv, fns := (toTestRoot s).fns, queues := (toTestRoot s).queues, cache := (toTestRoot s).cache
      work := (toTestRoot s).work, jrn := (toTestRoot s).jrn, banks := (toTestRoot s).banks, lark := (toTestRoot s).lark
      keys := (toTestRoot s).keys, dram := (toTestRoot s).dram, ev := (toTestRoot s).ev, pmon := (toTestRoot s).pmon
      spi := (toTestRoot s).spi, free := (toTestRoot s).free } := by
  have key : ∀ (t : State) (body : Bytes), t = { s with
          fns := t.fns, queues := t.queues, cache := t.cache, dram := t.dram, work := t.work, keys := t.keys, ev := t.ev, pmon := t.pmon
          spi := t.spi, free := t.free, banks := t.banks, lark := t.lark } → endCauseAll .testRoot (journalEntry 0x33 false body t)
        = { s with
          nv := (endCauseAll .testRoot (journalEntry 0x33 false body t)).nv
          fns := (endCauseAll .testRoot (journalEntry 0x33 false body t)).fns
          queues := (endCauseAll .testRoot (journalEntry 0x33 false body t)).queues
          cache := (endCauseAll .testRoot (journalEntry 0x33 false body t)).cache
          work := (endCauseAll .testRoot (journalEntry 0x33 false body t)).work
          jrn := (endCauseAll .testRoot (journalEntry 0x33 false body t)).jrn
          banks := (endCauseAll .testRoot (journalEntry 0x33 false body t)).banks
          lark := (endCauseAll .testRoot (journalEntry 0x33 false body t)).lark
          keys := (endCauseAll .testRoot (journalEntry 0x33 false body t)).keys
          dram := (endCauseAll .testRoot (journalEntry 0x33 false body t)).dram
          ev := (endCauseAll .testRoot (journalEntry 0x33 false body t)).ev
          pmon := (endCauseAll .testRoot (journalEntry 0x33 false body t)).pmon
          spi := (endCauseAll .testRoot (journalEntry 0x33 false body t)).spi
          free := (endCauseAll .testRoot (journalEntry 0x33 false body t)).free } := by
    intro t body h
    have h2 := journalEntry_only 0x33 false body t
    generalize journalEntry 0x33 false body t = b at h2 ⊢
    rw [endCauseAll_only, h2, h]
  unfold toTestRoot
  simp only []
  split
  · rfl
  · refine key _ _ ?_
    have h1 := disableAll_only .testRoot s
    generalize disableAll .testRoot s = a at h1 ⊢
    rw [freshWraps_only]
    unfold fenceAll
    simp only []
    rw [h1]


theorem haltWaiters_only (s : State) :
    haltWaiters s = { s with
      link := (haltWaiters s).link, vecs := (haltWaiters s).vecs, mbxs := (haltWaiters s).mbxs, ev := (haltWaiters s).ev
      pmon := (haltWaiters s).pmon, spi := (haltWaiters s).spi, waiters := (haltWaiters s).waiters, out := (haltWaiters s).out
      free := (haltWaiters s).free } := by
  exact answerAll_only _ _ s


theorem burnTampered_only (s : State) :
    burnTampered s = { s with otp := (burnTampered s).otp } := by
  rfl


end Sys2Proof.Machine
end

