-- ==== Sys2Proof/Laws/Tables.lean ====
section
/-! SUPPORT. What tables, byte strings, byte memories and two-copy records do: a read after a write, and that a write leaves every other
place alone and keeps the canonical form. -/

namespace Sys2Proof.Machine

/-! Tables. -/

@[simp] theorem tget_nil {α : Type} (k : Nat) : tget ([] : Tab α) k = none := rfl

@[simp] theorem tget_tset_self {α : Type} (t : Tab α) (k : Nat) (v : α) : tget (tset t k v) k = some v := by
  induction t with
  | nil => simp [tset, tget]
  | cons e t ih =>
    obtain ⟨k', v'⟩ := e
    unfold tset
    split
    · simp [tget]
    · split
      · simp [tget]
      · rename_i h; simp [tget, h, ih]

@[simp] theorem tget_tset_ne {α : Type} (t : Tab α) {j k : Nat} (v : α) (h : j ≠ k) : tget (tset t k v) j = tget t j := by
  induction t with
  | nil => simp [tset, tget, h]
  | cons e t ih =>
    obtain ⟨k', v'⟩ := e
    unfold tset
    split
    · simp [tget, h]
    · split
      · rename_i h'; subst h'; simp [tget, h]
      · simp [tget, ih]

@[simp] theorem tgetD_tset_self {α : Type} (t : Tab α) (k : Nat) (v d : α) : tgetD (tset t k v) k d = v := by
  simp [tgetD]

@[simp] theorem tgetD_tset_ne {α : Type} (t : Tab α) {j k : Nat} (v d : α) (h : j ≠ k) : tgetD (tset t k v) j d = tgetD t j d := by
  simp [tgetD, h]

@[simp] theorem tget_tdel_self {α : Type} (t : Tab α) (k : Nat) : tget (tdel t k) k = none := by
  induction t with
  | nil => rfl
  | cons e t ih =>
    obtain ⟨k', v'⟩ := e
    by_cases h : k' = k
    · simpa [tdel, List.filter_cons, h] using ih
    · have : tdel ((k', v') :: t) k = (k', v') :: tdel t k := by simp [tdel, h]
      rw [this]; simp [tget, Ne.symm h, ih]

@[simp] theorem tget_tdel_ne {α : Type} (t : Tab α) {j k : Nat} (h : j ≠ k) : tget (tdel t k) j = tget t j := by
  induction t with
  | nil => rfl
  | cons e t ih =>
    obtain ⟨k', v'⟩ := e
    by_cases h' : k' = k
    · have : tdel ((k', v') :: t) k = tdel t k := by simp [tdel, h']
      rw [this, ih]; subst h'; simp [tget, h]
    · have : tdel ((k', v') :: t) k = (k', v') :: tdel t k := by simp [tdel, h']
      rw [this]; simp [tget, ih]

@[simp] theorem tgetD_tdel_self {α : Type} (t : Tab α) (k : Nat) (d : α) : tgetD (tdel t k) k d = d := by simp [tgetD]

@[simp] theorem tgetD_tdel_ne {α : Type} (t : Tab α) {j k : Nat} (d : α) (h : j ≠ k) : tgetD (tdel t k) j d = tgetD t j d := by
  simp [tgetD, h]

/-! Byte memories: reading. -/

@[simp] theorem mread_mwrite_self (m : Memory) (a : Nat) (b : Byte) : mread (mwrite m a b) a = b := by
  unfold mwrite mread; split <;> simp_all

@[simp] theorem mread_mwrite_ne (m : Memory) {a x : Nat} (b : Byte) (h : x ≠ a) : mread (mwrite m a b) x = mread m x := by
  unfold mwrite mread; split <;> simp [h]

theorem mread_mwrites_out (b : Bytes) : ∀ (m : Memory) (a x : Nat), x < a ∨ a + b.length ≤ x → mread (mwrites m a b) x = mread m x := by
  induction b with
  | nil => intro m a x _; rfl
  | cons c b ih =>
    intro m a x h
    simp only [List.length_cons] at h
    rw [mwrites, ih _ _ _ (by omega), mread_mwrite_ne _ _ (by omega)]

theorem mread_mwrites_in (b : Bytes) : ∀ (m : Memory) (a i : Nat) (h : i < b.length), mread (mwrites m a b) (a + i) = b[i] := by
  induction b with
  | nil => intro m a i h; simp at h
  | cons c b ih =>
    intro m a i h
    rw [mwrites]
    cases i with
    | zero => rw [mread_mwrites_out _ _ _ _ (by omega)]; simp
    | succ i =>
      have := ih (mwrite m a c) (a + 1) i (by simpa using h)
      rw [show a + (i + 1) = a + 1 + i by omega, this]; simp

@[simp] theorem length_mreads (m : Memory) : ∀ (n a : Nat), (mreads m a n).length = n := by
  intro n; induction n with
  | zero => intro a; rfl
  | succ n ih => intro a; simp [mreads, ih]

theorem mreads_get (m : Memory) : ∀ (n a i : Nat) (h : i < (mreads m a n).length), (mreads m a n)[i] = mread m (a + i) := by
  intro n; induction n with
  | zero => intro a i h; simp at h
  | succ n ih =>
    intro a i h
    cases i with
    | zero => rfl
    | succ i =>
      have := ih (a + 1) i (by simpa using h)
      simp only [mreads, List.getElem_cons_succ]; rw [this]; congr 1; omega

theorem mreads_eq (m : Memory) (a : Nat) (b : Bytes) (h : ∀ i (hi : i < b.length), mread m (a + i) = b[i]) :
    mreads m a b.length = b := by
  apply List.ext_getElem (by simp)
  intro i h1 h2
  rw [mreads_get, h i h2]

theorem mreads_congr (m m' : Memory) : ∀ (n a : Nat), (∀ i, i < n → mread m (a + i) = mread m' (a + i)) → mreads m a n = mreads m' a n := by
  intro n; induction n with
  | zero => intro a _; rfl
  | succ n ih =>
    intro a h
    simp only [mreads]
    rw [show mread m a = mread m' a by simpa using h 0 (by omega),
      ih (a + 1) (fun i hi => by have := h (i + 1) (by omega); rwa [show a + (i + 1) = a + 1 + i by omega] at this)]

theorem mreads_mwrites (m : Memory) (a : Nat) (b : Bytes) : mreads (mwrites m a b) a b.length = b :=
  mreads_eq _ _ _ fun i hi => mread_mwrites_in b m a i hi

/-! Byte memories: the canonical form. -/

theorem tset_keys_ge {α : Type} (t : Tab α) (k lo : Nat) (v : α) (h : ∀ e ∈ t, lo < e.1) (hk : lo < k) : ∀ e ∈ tset t k v, lo < e.1 := by
  induction t with
  | nil => simp [tset, hk]
  | cons e t ih =>
    obtain ⟨k', v'⟩ := e
    unfold tset
    split
    · simpa [hk] using h
    · split
      · intro x hx
        rcases List.mem_cons.mp hx with rfl | hx
        · exact hk
        · exact h x (List.mem_cons_of_mem _ hx)
      · intro x hx
        rcases List.mem_cons.mp hx with rfl | hx
        · exact h _ (by simp)
        · exact ih (fun e he => h e (List.mem_cons_of_mem _ he)) x hx

theorem tset_sorted {α : Type} (t : Tab α) (k : Nat) (v : α) (h : t.Pairwise fun a b => a.1 < b.1) :
    (tset t k v).Pairwise fun a b => a.1 < b.1 := by
  induction t with
  | nil => simp [tset]
  | cons e t ih =>
    obtain ⟨k', v'⟩ := e
    rw [List.pairwise_cons] at h
    unfold tset
    split
    · rename_i hk
      refine List.pairwise_cons.mpr ⟨?_, List.pairwise_cons.mpr h⟩
      intro x hx
      rcases List.mem_cons.mp hx with rfl | hx
      · exact hk
      · exact Nat.lt_trans hk (h.1 x hx)
    · split
      · rename_i hk; subst hk
        exact List.pairwise_cons.mpr ⟨fun x hx => h.1 x hx, h.2⟩
      · rename_i h1 h2
        exact List.pairwise_cons.mpr ⟨tset_keys_ge t k k' v h.1 (by omega), ih h.2⟩

theorem mem_tset {α : Type} (t : Tab α) (k : Nat) (v : α) {e : Nat × α} (h : e ∈ tset t k v) : e = (k, v) ∨ e ∈ t := by
  induction t with
  | nil => left; simpa [tset] using h
  | cons x t ih =>
    obtain ⟨k', v'⟩ := x
    unfold tset at h
    split at h
    · rcases List.mem_cons.mp h with h | h
      · exact .inl h
      · exact .inr h
    · split at h
      · rcases List.mem_cons.mp h with h | h
        · exact .inl h
        · exact .inr (List.mem_cons_of_mem _ h)
      · rcases List.mem_cons.mp h with h | h
        · exact .inr (h ▸ List.mem_cons_self)
        · rcases ih h with h | h
          · exact .inl h
          · exact .inr (List.mem_cons_of_mem _ h)

/-- The canonical form, entry by entry. -/
theorem Memory.wf_iff (m : Memory) : Memory.wf m = true ↔ (m.Pairwise fun a b => a.1 < b.1) ∧ ∀ e ∈ m, e.2 ≠ 0 := by
  simp only [Memory.wf, Bool.and_eq_true, decide_eq_true_eq, List.all_eq_true, List.pairwise_map]

@[simp] theorem Memory.wf_nil : Memory.wf [] = true := by decide

theorem Memory.wf_mwrite (m : Memory) (a : Nat) (b : Byte) (h : Memory.wf m = true) : Memory.wf (mwrite m a b) = true := by
  rw [Memory.wf_iff] at h ⊢
  unfold mwrite
  split
  · exact ⟨h.1.filter _, fun e he => h.2 e (List.mem_of_mem_filter he)⟩
  · rename_i hb
    refine ⟨tset_sorted m a b h.1, fun e he => ?_⟩
    rcases mem_tset m a b he with rfl | he
    · exact hb
    · exact h.2 e he

theorem Memory.wf_mwrites (b : Bytes) : ∀ (m : Memory) (a : Nat), Memory.wf m = true → Memory.wf (mwrites m a b) = true := by
  induction b with
  | nil => intro m a h; exact h
  | cons c b ih => intro m a h; exact ih _ _ (Memory.wf_mwrite m a c h)

/-! The memory that a byte string makes. -/

theorem zipIdx_sorted {α : Type} (b : List α) (n : Nat) : (b.zipIdx n).Pairwise fun x y => x.2 < y.2 := by
  induction b generalizing n with
  | nil => simp
  | cons c b ih =>
    rw [List.zipIdx_cons, List.pairwise_cons]
    refine ⟨fun x hx => ?_, ih (n + 1)⟩
    have := List.le_snd_of_mem_zipIdx hx
    simp only; omega

theorem Memory.wf_loadBytes (b : Bytes) : Memory.wf (loadBytes b) = true := by
  rw [Memory.wf_iff]
  unfold loadBytes
  constructor
  · rw [List.pairwise_map]
    exact (zipIdx_sorted b 0).filter _
  · intro e he
    simp only [List.mem_map, List.mem_filter, decide_eq_true_eq] at he
    obtain ⟨x, ⟨_, hx⟩, rfl⟩ := he
    simpa using hx

theorem mread_loadFrom (b : Bytes) : ∀ (n i : Nat), mread (((b.zipIdx n).filter fun x => x.1 ≠ 0).map fun x => (x.2, x.1)) (n + i)
    = (b[i]?).getD 0 := by
  induction b with
  | nil => intro n i; simp [mread, tgetD]
  | cons c b ih =>
    intro n i
    rw [List.zipIdx_cons]
    have step : ∀ j, mread (((b.zipIdx (n + 1)).filter fun x => x.1 ≠ 0).map fun x => (x.2, x.1)) (n + 1 + j) = (b[j]?).getD 0 := ih (n + 1)
    have zero : mread (((b.zipIdx (n + 1)).filter fun x => x.1 ≠ 0).map fun x => (x.2, x.1)) n = 0 := by
      unfold mread tgetD
      have : ∀ (t : Memory), (∀ e ∈ t, n < e.1) → tget t n = none := by
        intro t; induction t with
        | nil => intro _; rfl
        | cons e t ih2 =>
          intro h; obtain ⟨k, v⟩ := e
          have := h (k, v) (by simp)
          simp only [tget]; rw [if_neg (by simp only at this; omega)]
          exact ih2 fun e he => h e (List.mem_cons_of_mem _ he)
      rw [this]; · rfl
      intro e he
      simp only [List.mem_map, List.mem_filter] at he
      obtain ⟨x, ⟨hx, _⟩, rfl⟩ := he
      have := List.le_snd_of_mem_zipIdx hx
      simp only; omega
    by_cases hc : c = 0
    · simp only [List.filter_cons, hc, ne_eq, not_true_eq_false, decide_false, Bool.false_eq_true, if_false]
      cases i with
      | zero => simpa using zero
      | succ i => rw [show n + (i + 1) = n + 1 + i by omega]; simpa using step i
    · simp only [List.filter_cons, hc, ne_eq, not_false_eq_true, decide_true, if_true, List.map_cons]
      cases i with
      | zero => simp [mread, tgetD, tget]
      | succ i =>
        have := step i
        unfold mread tgetD at this ⊢
        simp only [tget]
        rw [if_neg (by omega), show n + (i + 1) = n + 1 + i by omega, this]; simp

theorem mread_loadBytes (b : Bytes) (i : Nat) : mread (loadBytes b) i = (b[i]?).getD 0 := by
  have := mread_loadFrom b 0 i
  simpa [loadBytes] using this

/-- A byte string that has been loaded is read back, whatever follows it. -/
theorem mreads_loadBytes (b c : Bytes) : mreads (loadBytes (b ++ c)) 0 b.length = b := by
  apply mreads_eq
  intro i hi
  rw [mread_loadBytes, Nat.zero_add, List.getElem?_append_left hi, List.getElem?_eq_getElem hi]; rfl

/-! Records with two copies (R299, R300). -/

theorem AB.resolve_both {α : Type} [DecidableEq α] (ra rb : Nat) (y z : α) :
    (⟨.good ra y, .good rb z⟩ : AB α).resolve = if ra % 2 ^ 32 = rb % 2 ^ 32 then (if y = z then .ok ra y else .unusable)
      else if rseqLater ra rb then .ok ra y else .ok rb z := rfl

theorem AB.resolve_later_b {α : Type} [DecidableEq α] (ra : Nat) (x y : α) :
    (⟨.good ra y, .good ((ra + 1) % 2 ^ 32) x⟩ : AB α).resolve = .ok ((ra + 1) % 2 ^ 32) x := by
  have h1 : ¬ra % 2 ^ 32 = (ra + 1) % 2 ^ 32 % 2 ^ 32 := by omega
  have h2 : rseqLater ra ((ra + 1) % 2 ^ 32) = false := by simp only [rseqLater, decide_eq_false_iff_not]; omega
  rw [AB.resolve_both, if_neg h1, h2]; rfl

theorem AB.resolve_later_a {α : Type} [DecidableEq α] (rb : Nat) (x y : α) :
    (⟨.good ((rb + 1) % 2 ^ 32) x, .good rb y⟩ : AB α).resolve = .ok ((rb + 1) % 2 ^ 32) x := by
  have h1 : ¬(rb + 1) % 2 ^ 32 % 2 ^ 32 = rb % 2 ^ 32 := by omega
  have h2 : rseqLater ((rb + 1) % 2 ^ 32) rb = true := by simp only [rseqLater, decide_eq_true_eq]; omega
  rw [AB.resolve_both, if_neg h1, h2]; rfl

theorem AB.resolve_update {α : Type} [DecidableEq α] (p : AB α) (x : α) : ∃ r, (AB.update p x).resolve = .ok r x := by
  obtain ⟨a, b⟩ := p
  cases a with
  | good ra y =>
    cases b with
    | good rb z =>
      by_cases h1 : ra % 2 ^ 32 = rb % 2 ^ 32
      · by_cases h2 : y = z
        · have hr : (⟨.good ra y, .good rb z⟩ : AB α).resolve = .ok ra y := by rw [AB.resolve_both, if_pos h1, if_pos h2]
          exact ⟨_, by simp only [AB.update, AB.inA, AB.nextRseq, hr, beq_self_eq_true, if_true]; exact AB.resolve_later_b ra x y⟩
        · have hr : (⟨.good ra y, .good rb z⟩ : AB α).resolve = .unusable := by rw [AB.resolve_both, if_pos h1, if_neg h2]
          refine ⟨(ra + 1) % 2 ^ 32, ?_⟩
          have : (⟨.good ((ra + 1) % 2 ^ 32) x, .good rb z⟩ : AB α).resolve = .ok ((ra + 1) % 2 ^ 32) x := by
            have h3 : ¬(ra + 1) % 2 ^ 32 % 2 ^ 32 = rb % 2 ^ 32 := by omega
            have h4 : rseqLater ((ra + 1) % 2 ^ 32) rb = true := by simp only [rseqLater, decide_eq_true_eq]; omega
            rw [AB.resolve_both, if_neg h3, h4]; rfl
          simpa [AB.update, AB.inA, AB.nextRseq, hr] using this
      · cases h2 : rseqLater ra rb with
        | true =>
          have hr : (⟨.good ra y, .good rb z⟩ : AB α).resolve = .ok ra y := by rw [AB.resolve_both, if_neg h1, h2]; rfl
          exact ⟨_, by simp only [AB.update, AB.inA, AB.nextRseq, hr, beq_self_eq_true, if_true]; exact AB.resolve_later_b ra x y⟩
        | false =>
          have hr : (⟨.good ra y, .good rb z⟩ : AB α).resolve = .ok rb z := by rw [AB.resolve_both, if_neg h1, h2]; rfl
          have hne : (ra == rb) = false := by rw [beq_eq_false_iff_ne]; rintro rfl; exact h1 rfl
          exact ⟨_, by simp only [AB.update, AB.inA, AB.nextRseq, hr, hne, Bool.false_eq_true, if_false]; exact AB.resolve_later_a rb x z⟩
    | blank =>
      have hr : (⟨.good ra y, .blank⟩ : AB α).resolve = .ok ra y := rfl
      exact ⟨_, by simp only [AB.update, AB.inA, AB.nextRseq, hr, beq_self_eq_true, if_true]; exact AB.resolve_later_b ra x y⟩
    | torn =>
      have hr : (⟨.good ra y, .torn⟩ : AB α).resolve = .ok ra y := rfl
      exact ⟨_, by simp only [AB.update, AB.inA, AB.nextRseq, hr, beq_self_eq_true, if_true]; exact AB.resolve_later_b ra x y⟩
  | blank =>
    cases b with
    | good rb z => exact ⟨_, AB.resolve_later_a rb x z⟩
    | blank => exact ⟨_, rfl⟩
    | torn => exact ⟨_, rfl⟩
  | torn =>
    cases b with
    | good rb z => exact ⟨_, AB.resolve_later_a rb x z⟩
    | blank => exact ⟨_, rfl⟩
    | torn => exact ⟨_, rfl⟩

@[simp] theorem AB.value_update {α : Type} [DecidableEq α] (p : AB α) (x d : α) : (AB.update p x).value d = x := by
  obtain ⟨r, h⟩ := AB.resolve_update p x
  simp [AB.value, h]

/-! Byte strings. -/

@[simp] theorem length_le (n : Nat) : ∀ v, (le n v).length = n := by
  induction n with
  | zero => intro v; rfl
  | succ n ih => intro v; simp [le, ih]

@[simp] theorem length_zeros (n : Nat) : (zeros n).length = n := by simp [zeros]

theorem leVal_le (n : Nat) : ∀ v, leVal (le n v) = v % 256 ^ n := by
  induction n with
  | zero => intro v; simp [le, leVal, Nat.mod_one]
  | succ n ih =>
    intro v
    have h : v % 256 ^ (n + 1) = v % 256 + 256 * (v / 256 % 256 ^ n) := by rw [Nat.pow_succ, Nat.mul_comm, Nat.mod_mul]
    rw [le, leVal, ih, BitVec.toNat_ofNat, h]

theorem slice_append (a b : Bytes) : slice (a ++ b) a.length b.length = b := by simp [slice]

end Sys2Proof.Machine
end

