-- ==== Sys2Proof/Laws/Command.lean ====
section
/-! SUPPORT. What telling the host of a change touches (Notified), what follows from a command when nothing is due (settle_quiet), and
what a mailbox command that is accepted ends in: its response and no more (command_does), or a waiter (command_waits). -/

namespace Sys2Proof.Machine

/-! Lists and functions. -/

theorem map_modAt {α β : Type} (l : List α) (i : Nat) (f : α → α) (g : α → β) (h : ∀ x, g (f x) = g x) :
    (modAt l i f).map g = l.map g := by
  unfold modAt
  apply List.ext_getElem?
  intro n
  simp only [List.getElem?_map, List.getElem?_modify]
  cases l[n]? with
  | none => rfl
  | some x =>
    simp only [Option.map_some]
    split <;> simp [h]

/-- What a change that leaves everything but the flags leaves in each function. -/
theorem fnOf_of_sansFlags {s t : State} (h : t.fns.map Fn.sansFlags = s.fns.map Fn.sansFlags) (f : Nat) :
    (fnOf t f).sansFlags = (fnOf s f).sansFlags := by
  have key : ∀ l : List Fn, (l.getD f {}).sansFlags = (l.map Fn.sansFlags).getD f {} := by
    intro l
    simp only [List.getD_eq_getElem?_getD, List.getElem?_map]
    cases l[f]? <;> rfl
  unfold fnOf
  rw [key, key, h]

/-! Notified. -/

theorem notified_refl (s : State) : Notified s s := ⟨rfl, rfl⟩

theorem notified_trans {s t u : State} (h1 : Notified s t) (h2 : Notified t u) : Notified s u := by
  obtain ⟨e1, f1⟩ := h1
  obtain ⟨e2, f2⟩ := h2
  refine ⟨?_, f2.trans f1⟩
  rw [e2, e1]

theorem message_notified (f v : Nat) (s : State) : Notified s (message f v s) := ⟨rfl, rfl⟩

/-- Setting a DEV_EVENT flag touches that flag, a message and the NOTIFY flags of USB (R120). -/
theorem devEvent_notified (f b : Nat) (s : State) : Notified s (devEvent f b s) := by
  have h : (modAt s.fns f fun x => { x with devEvent := x.devEvent ||| (1#32 <<< b) }).map Fn.sansFlags = s.fns.map Fn.sansFlags :=
    map_modAt _ _ _ _ fun x => rfl
  unfold devEvent
  simp only []
  split <;> exact ⟨rfl, h⟩

theorem devEventAll_notified (b : Nat) (s : State) : Notified s (devEventAll b s) := by
  unfold devEventAll
  refine foldl_keeps (P := Notified s) _ _ _ (notified_refl s) fun t f h => ?_
  split
  · exact notified_trans h (devEvent_notified f b t)
  · exact h

/-- The DEV_EVENT flags of a change are told and nothing else happens (R119, R120). -/
theorem noteChanges_notified (s0 s : State) : Notified s (noteChanges s0 s) := by
  have step : ∀ (p : Prop) [Decidable p] (b : Nat) (t : State), Notified s t → Notified s (if p then devEventAll b t else t) := by
    intro p _ b t h
    split
    · exact notified_trans h (devEventAll_notified b t)
    · exact h
  unfold noteChanges
  simp only []
  refine foldl_keeps (P := Notified s) _ _ _ ?_ fun t f h => ?_
  · exact step _ _ _ (step _ _ _ (step _ _ _ (notified_refl s)))
  · split
    · exact notified_trans h (devEvent_notified f 3 t)
    · exact h

/-! settle. -/

/-- With no completion's turn come, a delivery pass changes nothing (R140). -/
theorem deliverAll_quiet (gates : List Gate) (j : Journal) :
    ∀ (ws : List Work) (blocked : List Nat) (d : Deliver), ws.all (fun w => !mayComplete j w) = true →
      deliverAll gates j ws blocked d = (ws, d) := by
  intro ws
  induction ws with
  | nil => intros; rfl
  | cons w ws ih =>
    intro blocked d h
    simp only [List.all_cons, Bool.and_eq_true, Bool.not_eq_true'] at h
    unfold deliverAll
    simp [h.1, ih _ _ h.2]

theorem deliver_quiet {s : State} (h : quiet s = true) : deliver s = s := by
  simp only [quiet, Bool.and_eq_true] at h
  unfold deliver
  rw [deliverAll_quiet _ _ _ _ _ h.1]
  simp

/-- At the level last reported no journal fill event follows (R270). -/
theorem fillEvents_quiet {s : State} (h : quiet s = true) : fillEvents s = s := by
  simp only [quiet, Bool.and_eq_true, beq_iff_eq] at h
  have hf : s.jrn.fill = jfill s := h.2
  have no : ∀ l, ¬(jfill s < l ∧ l ≤ jfill s) := fun l => by omega
  unfold fillEvents
  split
  · rfl
  · simp only [hf, no, if_false]
    rw [← hf]

/-- When nothing is due by itself, all that follows from a command is that the host is told. -/
theorem settle_quiet (s0 : State) {s : State} (h : quiet s = true) : Notified s (settle s0 s) := by
  unfold settle
  simp only []
  rw [deliver_quiet h, fillEvents_quiet h]
  obtain ⟨e, f⟩ := noteChanges_notified s0 s
  generalize noteChanges s0 s = t at e f ⊢
  refine ⟨?_, f⟩
  rw [e]

/-- What a mailbox command touches in answering leaves nothing due that was not. -/
theorem quiet_congr {s t : State} (h1 : t.work = s.work) (h2 : t.jrn = s.jrn) (h3 : jfill t = jfill s) : quiet t = quiet s := by
  simp only [quiet, h1, h2, h3]

@[simp] theorem jfill_respond (op : Nat) (r : Req) (status detail : Nat) (body : Bytes) (s : State) :
    jfill (respond op r status detail body s) = jfill s := by
  unfold jfill ringUsed
  simp

@[simp] theorem quiet_respond (op : Nat) (r : Req) (status detail : Nat) (body : Bytes) (s : State) :
    quiet (respond op r status detail body s) = quiet s :=
  quiet_congr (by simp) (by simp) (by simp)

/-! Responses. -/

@[simp] theorem length_mbxBytes (op : Nat) (tag : BitVec 32) (status detail : Nat) (body : Bytes) :
    (mbxBytes op tag status detail body).length = 16 + body.length := by
  simp [mbxBytes]
  omega

/-- The response of R123 stands on the request's path. -/
theorem answered_respond (op : Nat) (r : Req) (status detail : Nat) (body : Bytes) (s : State) :
    Answered op r status detail body (respond op r status detail body s) := by
  have read : ∀ pad : Bytes, mreads (loadBytes (mbxBytes op r.tag status detail body ++ pad)) 0 (16 + body.length)
      = mbxBytes op r.tag status detail body := fun pad => by
    rw [← length_mbxBytes op r.tag status detail body]
    exact mreads_loadBytes _ _
  unfold Answered respond
  simp only []
  cases r.path with
  | pcie =>
    simp only []
    split <;> simp [message, modMbx, State.withPost, drew, mbxOf, read]
  | usb => simp [modMbx, mbxOf]
  | spi => simp [modMbx, mbxOf]

/-- A response touches nothing but its path and what telling the host touches. -/
theorem responded_respond (op : Nat) (r : Req) (status detail : Nat) (body : Bytes) (s : State) :
    Responded r s (respond op r status detail body s) := by
  have other : ∀ (m : Mbx) (k : Nat), k ≠ 64 * r.fn + r.mbx → tget (tset s.mbxs (64 * r.fn + r.mbx) m) k = tget s.mbxs k :=
    fun m k h => tget_tset_ne _ _ h
  unfold respond
  simp only []
  cases r.path with
  | pcie =>
    simp only []
    split <;> exact ⟨rfl, rfl, other _⟩
  | usb => exact ⟨rfl, rfl, other _⟩
  | spi => exact ⟨rfl, rfl, other _⟩

/-- Telling the host of a change leaves a response where it stands. -/
theorem answered_of_notified {op : Nat} {r : Req} {status detail : Nat} {body : Bytes} {u t : State}
    (ha : Answered op r status detail body u) (hn : Notified u t) : Answered op r status detail body t := by
  have h1 : t.mbxs = u.mbxs := by rw [hn.1]
  have h2 : t.link.usbMbx = u.link.usbMbx := by rw [hn.1]
  have h3 : t.spi = u.spi := by rw [hn.1]
  unfold Answered at ha ⊢
  rw [h2, h3]
  unfold mbxOf at ha ⊢
  rw [h1]
  exact ha

theorem responded_of_notified {r : Req} {s u t : State} (hr : Responded r s u) (hn : Notified u t) : Responded r s t := by
  obtain ⟨e1, f1, m1⟩ := hr
  obtain ⟨e2, f2⟩ := hn
  refine ⟨?_, f2.trans f1, fun k hk => ?_⟩
  · rw [e2, e1]
  · have : t.mbxs = u.mbxs := by rw [e2]
    rw [this, m1 k hk]

/-! Mailbox commands. -/

/-- A request that is taken and passes every check runs its command's own steps (R121, R445). -/
theorem command_accepts {op : Nat} {r : Req} {need : Option Nat} {s : State} (h : accepts op r need s = true) (i : Instr)
    (run : State → Reply) : command i op r need run s = settle s (runCommand op r need run s) := by
  simp only [accepts, takes, Bool.and_eq_true, Bool.not_eq_true'] at h
  unfold command
  simp [h.1.1.1.1, h.1.1.1.2, h.1.1.2, h.1.2]

theorem admission_of_accepts {op : Nat} {r : Req} {need : Option Nat} {s : State} (h : accepts op r need s = true) :
    admission op r need s = none := by
  simp only [accepts, Bool.and_eq_true, Option.isNone_iff_eq_none] at h
  exact h.2

/-- An accepted command whose steps end in a state with nothing due is answered, and leaves that state but for the response. -/
theorem command_answers {op : Nat} {r : Req} {need : Option Nat} {s : State} (h : accepts op r need s = true) {run : State → Reply}
    {u : State} {status detail : Nat} {body : Bytes} (hr : run s = .done u status detail body) (hq : quiet u = true) (i : Instr) :
    Answered op r status detail body (command i op r need run s) ∧ Responded r u (command i op r need run s) := by
  rw [command_accepts h, runCommand, admission_of_accepts h, hr]
  have hn := settle_quiet s (s := respond op r status detail body u) (by simpa using hq)
  exact ⟨answered_of_notified (answered_respond op r status detail body u) hn,
    responded_of_notified (responded_respond op r status detail body u) hn⟩

/-- A request that a check refuses is answered with the refusal, and nothing else changes (R445). -/
theorem command_refuses {op : Nat} {r : Req} {need : Option Nat} {s : State} (ht : takes op r s = true) {status detail : Nat}
    (ha : admission op r need s = some (status, detail)) (hq : quiet s = true) (i : Instr) (run : State → Reply) :
    Answered op r status detail [] (command i op r need run s) ∧ Responded r s (command i op r need run s) := by
  simp only [takes, Bool.and_eq_true, Bool.not_eq_true'] at ht
  unfold command
  simp only [ht.1.1.1, ht.1.1.2, ht.1.2, ht.2, Bool.not_true, Bool.false_eq_true, if_false]
  rw [runCommand, ha]
  have hn := settle_quiet s (s := respond op r status detail [] s) (by simpa using hq)
  exact ⟨answered_of_notified (answered_respond op r status detail [] s) hn,
    responded_of_notified (responded_respond op r status detail [] s) hn⟩

/-- An accepted command that waits is held busy, with a waiter for its object (R124). -/
theorem command_waits {op : Nat} {r : Req} {need : Option Nat} {s : State} (h : accepts op r need s = true) {run : State → Reply}
    {u : State} {obj : Nat} {body : Bytes} (hr : run s = .wait u obj body) (i : Instr) :
    Waits op r obj (command i op r need run s) := by
  rw [command_accepts h, runCommand, admission_of_accepts h, hr]
  refine ⟨?_, ⟨_, List.mem_append_right _ (List.mem_singleton.2 rfl), rfl, rfl, rfl⟩⟩
  simp [mbxOf, modMbx]

/-- While a request's mailbox is busy, nothing happens but its OVERRUN flag (R121). -/
theorem command_busy {op : Nat} {r : Req} {s : State} (hu : unreachable r s = false) (hp : pathOk r s = true)
    (hb : (mbxOf s r.fn r.mbx).busy = true) (i : Instr)
    (need : Option Nat) (run : State → Reply) :
    command i op r need run s = modMbx r.fn r.mbx (fun m => { m with overrun := true }) s := by
  unfold command
  simp [hu, hp, hb]

end Sys2Proof.Machine
end

