-- ==== Sys2Proof/Laws/Crypto.lean ====
section
/-! SUPPORT. AES-GCM: what was sealed opens again under the same key, IV and associated data. -/

namespace Sys2Proof.Machine

/-! Byte strings. -/

@[simp] theorem length_xorB (a b : Bytes) : (xorB a b).length = min a.length b.length := by simp [xorB]

/-- The same string added twice leaves what was there. -/
theorem xorB_twice (a k : Bytes) (h : a.length ≤ k.length) : xorB (xorB a k) k = a := by
  apply List.ext_getElem
  · simp
    omega
  · intro i h1 h2
    simp [xorB]

/-- Fuel beyond the length of the string makes no difference to its pieces. -/
theorem chunksAux_fuel {n : Nat} (hn : 0 < n) : ∀ (f : Nat) (b : Bytes), b.length ≤ f → chunksAux f n b = chunks n b := by
  have key : ∀ (f g : Nat) (b : Bytes), b.length ≤ f → b.length ≤ g → chunksAux f n b = chunksAux g n b := by
    intro f
    induction f with
    | zero =>
      intro g b hf hg
      have : b = [] := List.length_eq_zero_iff.1 (by omega)
      subst this
      cases g <;> simp [chunksAux]
    | succ f ih =>
      intro g b hf hg
      cases g with
      | zero =>
        have : b = [] := List.length_eq_zero_iff.1 (by omega)
        subst this
        simp [chunksAux]
      | succ g =>
        unfold chunksAux
        split
        · rfl
        · rw [ih g (b.drop n) (by simp; omega) (by simp; omega)]
  exact fun f b h => key f b.length b h (Nat.le_refl _)

theorem chunks_nil (n : Nat) : chunks n [] = [] := rfl

/-- A string is its first piece and the pieces of the rest. -/
theorem chunks_step {n : Nat} (hn : 0 < n) (b : Bytes) (h : b ≠ []) : chunks n b = b.take n :: chunks n (b.drop n) := by
  cases b with
  | nil => exact absurd rfl h
  | cons x xs =>
    show chunksAux (xs.length + 1) n (x :: xs) = _
    unfold chunksAux
    simp only [List.isEmpty_cons, Bool.false_eq_true, if_false]
    rw [chunksAux_fuel hn]
    simp
    omega

/-! AES. -/

/-- Every word of a key schedule has 4 bytes, and there is one more for each step. -/
theorem aesWords_words : ∀ (n : Nat) (ws : List Bytes) (rc : Byte), 8 ≤ ws.length → (∀ w ∈ ws, w.length = 4) →
    (aesWords n ws rc).length = ws.length + n ∧ ∀ w ∈ aesWords n ws rc, w.length = 4 := by
  intro n
  induction n with
  | zero => exact fun ws rc h k => ⟨rfl, k⟩
  | succ n ih =>
    intro ws rc h k
    unfold aesWords
    simp only []
    have h0 : (ws.headD []).length = 4 := by
      cases ws with
      | nil => simp at h
      | cons w ws => exact k w (List.mem_cons_self ..)
    have h7 : (ws.getD 7 []).length = 4 := by
      rw [List.getD_eq_getElem?_getD, List.getElem?_eq_getElem (by omega), Option.getD_some]
      exact k _ (List.getElem_mem _)
    have hr : ∀ t : Bytes, t.length = 4 → 8 ≤ (xorB (ws.getD 7 []) t :: ws).length
        ∧ ∀ w ∈ xorB (ws.getD 7 []) t :: ws, w.length = 4 := by
      intro t ht
      refine ⟨by simp; omega, fun w hw => ?_⟩
      rcases List.mem_cons.1 hw with e | e
      · subst e
        rw [length_xorB, h7, ht]
        rfl
      · exact k w e
    generalize htt : (if ws.length % 8 = 0 then xorB (List.map sbox (List.drop 1 (ws.headD []) ++ List.take 1 (ws.headD []))) [rc, 0, 0, 0]
      else if ws.length % 8 = 4 then List.map sbox (ws.headD []) else ws.headD []) = t
    have ht : t.length = 4 := by
      subst htt
      generalize ws.headD [] = hd at h0
      (repeat' split)
      · simp [h0]
      · simpa using h0
      · exact h0
    obtain ⟨a, b⟩ := ih _ (if ws.length % 8 = 0 then xtime rc else rc) (hr t ht).1 (hr t ht).2
    refine ⟨?_, b⟩
    rw [a]
    simp
    omega

/-- The pieces of a string of `k` whole pieces. -/
theorem chunks_whole {n : Nat} (hn : 0 < n) : ∀ (k : Nat) (b : Bytes), b.length = n * k →
    (chunks n b).length = k ∧ ∀ p ∈ chunks n b, p.length = n := by
  intro k
  induction k with
  | zero =>
    intro b h
    have : b = [] := List.length_eq_zero_iff.1 (by simpa using h)
    subst this
    simp [chunks_nil]
  | succ k ih =>
    intro b h
    rw [Nat.mul_succ] at h
    have hb : b ≠ [] := fun e => by
      subst e
      simp at h
      omega
    rw [chunks_step hn b hb]
    obtain ⟨x, y⟩ := ih (b.drop n) (by simp; omega)
    refine ⟨by simp [x], fun p hp => ?_⟩
    rcases List.mem_cons.1 hp with e | e
    · subst e
      simp
      omega
    · exact y p e

theorem length_flatten_words (ws : List Bytes) (h : ∀ w ∈ ws, w.length = 4) : ws.flatten.length = 4 * ws.length := by
  induction ws with
  | nil => rfl
  | cons w ws ih =>
    have h1 := h w (List.mem_cons_self ..)
    have h2 := ih fun v hv => h v (List.mem_cons_of_mem _ hv)
    simp only [List.flatten_cons, List.length_append, List.length_cons, h1, h2]
    omega

theorem length_fit (n : Nat) (b : Bytes) : (fit n b).length = n := by
  simp [fit]
  omega

/-- The last round key has 16 bytes. -/
theorem length_lastKey (key : Bytes) : ((aesKeys key).getD 14 []).length = 16 := by
  have h1 := chunks_whole (n := 4) (by omega) 8 (fit 32 key) (length_fit 32 key)
  have h2 := aesWords_words 52 (chunks 4 (fit 32 key)).reverse 1 (by simp [h1.1]) (fun w hw => h1.2 w (List.mem_reverse.1 hw))
  have h3 := chunks_whole (n := 16) (by omega) 15 (aesWords 52 (chunks 4 (fit 32 key)).reverse 1).reverse.flatten (by
    rw [length_flatten_words _ (fun w hw => h2.2 w (List.mem_reverse.1 hw)), List.length_reverse, h2.1, List.length_reverse, h1.1])
  unfold aesKeys
  rw [List.getD_eq_getElem?_getD, List.getElem?_eq_getElem (by rw [h3.1]; omega), Option.getD_some]
  exact h3.2 _ (List.getElem_mem _)

/-- A block of key stream has 16 bytes. -/
theorem length_aesEncWith (ks : List Bytes) (b : Bytes) (h : (ks.getD 14 []).length = 16) : (aesEncWith ks b).length = 16 := by
  unfold aesEncWith
  simp only []
  rw [length_xorB, h]
  simp [shiftRows]

/-! GCM. -/

/-- Counter mode twice gives the string back. -/
theorem ctrXor_twice (ks : List Bytes) (iv : Bytes) (hk : (ks.getD 14 []).length = 16) :
    ∀ (n : Nat) (pt : Bytes) (c : Nat), pt.length ≤ n → ctrXor ks iv c (chunks 16 (ctrXor ks iv c (chunks 16 pt))) = pt := by
  intro n
  induction n with
  | zero =>
    intro pt c h
    have : pt = [] := List.length_eq_zero_iff.1 (by omega)
    subst this
    rfl
  | succ n ih =>
    intro pt c h
    by_cases e : pt = []
    · subst e
      rfl
    · have hpos : 0 < pt.length := List.length_pos_iff.2 e
      have hs := length_aesEncWith ks (iv ++ be 4 c) hk
      rw [chunks_step (by omega) pt e, ctrXor]
      generalize hk' : aesEncWith ks (iv ++ be 4 c) = k at hs
      have ha : (xorB (pt.take 16) k).length = min 16 pt.length := by
        simp [hs]
      have hne : xorB (pt.take 16) k ++ ctrXor ks iv (c + 1) (chunks 16 (pt.drop 16)) ≠ [] := fun z => by
        have := congrArg List.length z
        simp only [List.length_append, ha, List.length_nil] at this
        omega
      have back : xorB (xorB (pt.take 16) k) k = pt.take 16 := xorB_twice _ _ (by simp [hs])
      rw [chunks_step (by omega) _ hne]
      by_cases hl : pt.length ≤ 16
      · have hd : pt.drop 16 = [] := List.drop_eq_nil_of_le hl
        rw [hd, chunks_nil, ctrXor, List.append_nil, List.take_of_length_le (l := xorB _ _) (by omega),
          List.drop_eq_nil_of_le (as := xorB _ _) (by omega), chunks_nil, ctrXor, ctrXor, List.append_nil]
        rw [hk', back, List.take_of_length_le hl]
      · have hfull : (xorB (pt.take 16) k).length = 16 := by omega
        generalize xorB (pt.take 16) k = x at hfull back ⊢
        rw [List.take_append_of_le_length (by omega), List.drop_append_of_le_length (by omega), List.take_of_length_le (l := x) (by omega),
          List.drop_eq_nil_of_le (as := x) (by omega), List.nil_append, ctrXor, ih _ _ (by simp; omega), hk', back, List.take_append_drop]

/-- Counter mode keeps the length. -/
theorem length_ctrXor (ks : List Bytes) (iv : Bytes) (hk : (ks.getD 14 []).length = 16) :
    ∀ (n : Nat) (pt : Bytes) (c : Nat), pt.length ≤ n → (ctrXor ks iv c (chunks 16 pt)).length = pt.length := by
  intro n
  induction n with
  | zero =>
    intro pt c h
    have : pt = [] := List.length_eq_zero_iff.1 (by omega)
    subst this
    rfl
  | succ n ih =>
    intro pt c h
    by_cases e : pt = []
    · subst e
      rfl
    · have hpos : 0 < pt.length := List.length_pos_iff.2 e
      rw [chunks_step (by omega) pt e, ctrXor, List.length_append, length_xorB, length_aesEncWith ks _ hk,
        ih _ _ (by simp; omega)]
      simp
      omega

/-- What was sealed opens again under the same key, IV and associated data. -/
theorem gcmOpen_gcmSeal (key iv aad pt : Bytes) :
    gcmOpen key iv aad (gcmSeal key iv aad pt).1 (gcmSeal key iv aad pt).2 = some pt := by
  unfold gcmOpen gcmSeal
  simp only [if_true]
  rw [ctrXor_twice _ _ (length_lastKey key) pt.length pt 2 (Nat.le_refl _)]

@[simp] theorem length_gcmSeal (key iv aad pt : Bytes) : (gcmSeal key iv aad pt).1.length = pt.length := by
  unfold gcmSeal
  exact length_ctrXor _ _ (length_lastKey key) pt.length pt 2 (Nat.le_refl _)

/-- The counter-mode part alone recovers the plaintext. -/
theorem gcmCtr_gcmSeal (key iv aad pt : Bytes) : gcmCtr key iv (gcmSeal key iv aad pt).1 = pt := by
  unfold gcmCtr gcmSeal
  exact ctrXor_twice _ _ (length_lastKey key) pt.length pt 2 (Nat.le_refl _)

end Sys2Proof.Machine
end

