-- ==== Sys2Proof/Laws/Gates.lean ====
section
/-! SUPPORT. What the firmware entries of a start grant: the masters inside the block reach their own regions, so that their traffic raises no
gate fault (R12, R322, R335, R343). -/

namespace Sys2Proof.Machine

/-- An access that holds one entry alone and that the entry grants passes its gate (R336). -/
theorem judge_of_single (g i : Nat) (gate : Gate) (e : GEntry) (a : Acc) (h : gate.ents.filter (fun x => x.2.hit a) = [(i, e)])
    (hold : e.holds a = true) (grant : e.grants g a = true) (colour : colourGate g = true → e.colours.getLsbD a.colour = true) :
    judge g gate a = none := by
  unfold judge
  simp only [h, List.find?_cons, hold, grant]
  cases hc : colourGate g <;> simp_all

/-- The regions of the masters inside, each with its gate, privilege level, kind of access and colour: the journal writer (18) reads and writes the
ring, the event area, the counters, the tail, the meter store and the export staging; the draw engine (17) reads and writes its working memory;
the queue DMA shards read and write queue contexts, write staging and read the export staging; the lanes read staging. -/
def ownRegions : List (Nat × Acc) :=
  (([(0x80000000, 0x85FFFFFF), (0x86000000, 0x863FFFFF), (0x86800000, 0x869FFFFF), (0x87C00000, 0x87C3FFFF), (0x87C40000, 0x87D3FFFF),
      (0x195800000, 0x1D57FFFFF)] : List (Nat × Nat)).map fun r => [0, 1].map fun k => (18, (⟨false, r.1, r.2, k, 1, 0⟩ : Acc))).flatten
    ++ [0, 1].map (fun k => (17, ⟨false, 0x1D5800000, 0x2157FFFFF, k, 1, 0⟩))
    ++ ((List.range 4).map fun q => [(q, (⟨false, 0x110000000, 0x113FFFFFF, 0, 0, 15⟩ : Acc)), (q, ⟨false, 0x110000000, 0x113FFFFFF, 1, 0, 15⟩),
        (q, ⟨false, 0x115800000, 0x1957FFFFF, 1, 0, 15⟩), (q, ⟨false, 0x195800000, 0x1D57FFFFF, 0, 0, 0⟩)]).flatten
    ++ (List.range 8).map fun l => (8 + l, ⟨false, 0x115800000, 0x1957FFFFF, 0, 0, 15⟩)

theorem startGates_grant_own_regions : ∀ x ∈ ownRegions, judge x.1 (gateAtStart x.1 {}) x.2 = none := by decide +kernel

end Sys2Proof.Machine
end

