-- ==== Sys2Proof/Laws/Journal.lean ====
section
/-! SUPPORT. What forming an entry leaves in the journal: the entry stands in the ring, durable, under the next SEQ. -/

namespace Sys2Proof.Machine

/-! The bytes of an entry. -/

/-- An entry's header without its body (R256). -/
def entryHead (s : State) (type : Nat) (claimed : Bool) (seq : Nat) (body : Bytes) : Bytes :=
  le 1 type ++ le 1 (b2n s.keys.testRoot + 2 * b2n claimed) ++ le 1 ((16 + body.length + 7) / 8) ++ [0] ++ le 6 seq ++ le 5 s.opsec ++ [0]

theorem length_entryHead (s : State) (type : Nat) (claimed : Bool) (seq : Nat) (body : Bytes) :
    (entryHead s type claimed seq body).length = 16 := by
  simp [entryHead]

/-- An entry is its header, its body and padding to whole words (R256). -/
theorem entryBytes_eq (s : State) (type : Nat) (claimed : Bool) (seq : Nat) (body : Bytes) :
    entryBytes s type claimed seq body
      = entryHead s type claimed seq body ++ (body ++ zeros (8 * ((16 + body.length + 7) / 8) - (16 + body.length))) := by
  have h := length_entryHead s type claimed seq body
  unfold entryBytes fit
  simp only [entryHead] at h ⊢
  simp only [List.length_append] at h ⊢
  rw [List.take_of_length_le (by simp; omega)]
  simp

theorem entryBytes_type (s : State) {type : Nat} (claimed : Bool) (seq : Nat) (body : Bytes) (ht : type < 256) :
    num (entryBytes s type claimed seq body) 0 1 = type := by
  rw [entryBytes_eq]
  simp [num, slice, entryHead, le, leVal]
  omega

theorem entryBytes_body (s : State) (type : Nat) (claimed : Bool) (seq : Nat) (body : Bytes) :
    slice (entryBytes s type claimed seq body) 16 body.length = body := by
  rw [entryBytes_eq, slice, ← length_entryHead s type claimed seq body, List.drop_left, List.take_left]

theorem length_entryBytes (s : State) (type : Nat) (claimed : Bool) (seq : Nat) (body : Bytes) :
    0 < (entryBytes s type claimed seq body).length := by
  rw [entryBytes_eq]
  simp [length_entryHead]

theorem entryBytes_len (s : State) (type : Nat) (claimed : Bool) (seq : Nat) {body : Bytes} (hb : body.length ≤ 2024) :
    (entryBytes s type claimed seq body).length ≤ 2040 := by
  rw [entryBytes_eq]
  simp only [List.length_append, length_entryHead, zeros, List.length_replicate]
  omega

/-! Pages. -/

/-- Pages written (R253). -/
def sealed (n : Nat) (s : State) : Nat := if ringWorks s then min n (freePages s) else 0

/-- Sealing appends to the ring and takes nothing from it (R253). -/
theorem sealPages_ring (n : Nat) (s : State) :
    (sealPages n s).nv.ring = s.nv.ring ++ s.jrn.unsealed.filter (·.pageEnd ≤ s.nv.lastPseq + sealed n s) := rfl

theorem sealPages_nv (n : Nat) (s : State) :
    (sealPages n s).nv = { s.nv with
        pages := (sealPages n s).nv.pages, ring := (sealPages n s).nv.ring, lastPseq := (sealPages n s).nv.lastPseq } := rfl

theorem makeRoom_nv (n : Nat) (s : State) :
    (makeRoom n s).nv = { s.nv with
        pages := (makeRoom n s).nv.pages, ring := (makeRoom n s).nv.ring, lastPseq := (makeRoom n s).nv.lastPseq } := by
  unfold makeRoom
  split <;> rfl

/-- Making room takes nothing out of the ring (R251). -/
theorem makeRoom_ring (n : Nat) (s : State) : ∃ l, (makeRoom n s).nv.ring = s.nv.ring ++ l := by
  unfold makeRoom
  split
  · exact ⟨[], (List.append_nil _).symm⟩
  · exact ⟨_, rfl⟩

@[simp] theorem makeRoom_nextSeq (n : Nat) (s : State) : (makeRoom n s).jrn.nextSeq = s.jrn.nextSeq := by
  unfold makeRoom
  split <;> rfl

@[simp] theorem makeRoom_pwr (n : Nat) (s : State) : (makeRoom n s).pwr = s.pwr := by rw [makeRoom_only]

theorem takeSeq_nextSeq (s : State) : (takeSeq s).jrn.nextSeq = s.jrn.nextSeq + 1 := rfl

theorem setCtr_nv (n v : Nat) (s : State) : (setCtr n v s).nv = { s.nv with ctrs := (setCtr n v s).nv.ctrs } := by
  unfold setCtr
  simp only []
  split <;> rfl

/-- Assigning a SEQ leaves MRAM as it was but for the counters (R262). -/
theorem takeSeq_nv (s : State) : (takeSeq s).nv = { s.nv with ctrs := (takeSeq s).nv.ctrs } := by
  unfold takeSeq raiseMark
  simp only []
  split
  · rfl
  · exact setCtr_nv _ _ s

theorem takeSeq_jrn (s : State) : (takeSeq s).jrn = { s.jrn with nextSeq := s.jrn.nextSeq + 1, highest := s.jrn.nextSeq } := by
  unfold takeSeq raiseMark
  simp only []
  split
  · rfl
  · rw [setCtr_jrn]

/-- Writing the open pages takes the entry just placed into the ring, while the ring has free pages for all of the pending ring area (R251,
R254). -/
theorem writePages_takes (s : State) (j : Journal) (bytes : Bytes) (first last : Nat) (hb : 0 < bytes.length) (hw : ringWorks s = true)
    (hp : j.pending.length + bytes.length ≤ pendingCap) (hf : 63 ≤ freePages s) :
    ∃ e ∈ (writePages { s with jrn := Journal.skip (j.place s.nv.lastPseq bytes first last) }).nv.ring,
      e.bytes = bytes ∧ e.first = first ∧ e.last = last := by
  refine ⟨{ bytes := bytes, first := first, last := last, page := s.nv.lastPseq + 1 + j.pending.length / pagePayload
            pageEnd := s.nv.lastPseq + 1 + (j.pending.length + bytes.length - 1) / pagePayload }, ?_, rfl, rfl, rfl⟩
  unfold writePages
  simp only []
  rw [sealPages_ring]
  refine List.mem_append_right _ (List.mem_filter.2 ⟨List.mem_append_right _ (List.mem_singleton.2 rfl), ?_⟩)
  refine decide_eq_true ?_
  have hl : (fit ((j.pending.length + bytes.length + pagePayload - 1) / pagePayload * pagePayload) (j.pending ++ bytes)).length
      = (j.pending.length + bytes.length + pagePayload - 1) / pagePayload * pagePayload := by
    simp [fit]
    omega
  have hs : ∀ (m : Nat) (k : Journal), sealed m { s with jrn := k } = min m (freePages s) := fun m k => if_pos hw
  rw [hs]
  simp only [Journal.pad, Journal.skip, Journal.place, List.length_append, hl]
  unfold pagePayload pendingCap at *
  omega

theorem freePages_takeSeq (s : State) : freePages (takeSeq s) = freePages s := by
  unfold freePages ringUsed
  rw [takeSeq_nv]

theorem ringWorks_takeSeq (s : State) : ringWorks (takeSeq s) = ringWorks s := by
  unfold ringWorks
  rw [takeSeq_only]

theorem ringTakes_parts {s : State} (h : ringTakes s = true) : entriesStop s = false ∧ 63 ≤ freePages (makeRoom 2040 s) := by
  simp only [ringTakes, Bool.and_eq_true, Bool.not_eq_true', decide_eq_true_eq] at h
  exact h

/-- An entry formed while the ring takes it stands in the ring under the next SEQ, with its type and body (R256, R260, R264). -/
theorem journalEntry_journalled (type : Nat) (claimed : Bool) (body : Bytes) (s : State) (ht : type < 256) (hb : body.length ≤ 2024)
    (hs : ringTakes s = true) : Journalled type body s (journalEntry type claimed body s) := by
  obtain ⟨h1, h2⟩ := ringTakes_parts hs
  have h3 : ringWorks (makeRoom 2040 s) = true ∧ (makeRoom 2040 s).jrn.pending.length + 2040 ≤ pendingCap := by
    unfold ringWorks
    rw [makeRoom_pwr]
    simp only [entriesStop, Bool.or_eq_false_iff, Bool.not_eq_false', roomForEntry, decide_eq_true_eq] at h1
    exact ⟨h1.1.2, h1.2⟩
  unfold journalEntry
  simp only [h1, Bool.false_eq_true, if_false]
  have hn : (takeSeq (makeRoom 2040 s)).jrn = { (makeRoom 2040 s).jrn with
      nextSeq := s.jrn.nextSeq + 1, highest := (makeRoom 2040 s).jrn.nextSeq } := by
    rw [takeSeq_jrn, makeRoom_nextSeq]
  refine ⟨?_, ?_⟩
  · simp [writePages, sealPages, Journal.cover, Journal.pad, Journal.skip, Journal.place, hn]
  · have hlen := entryBytes_len s type claimed s.jrn.nextSeq hb
    have hroom : (takeSeq (makeRoom 2040 s)).jrn.pending.length + (entryBytes s type claimed s.jrn.nextSeq body).length ≤ pendingCap := by
      have h := h3.2
      have hp : (takeSeq (makeRoom 2040 s)).jrn.pending = (makeRoom 2040 s).jrn.pending := by rw [hn]
      rw [hp]
      omega
    have h4 := ringWorks_takeSeq (makeRoom 2040 s)
    have h5 := freePages_takeSeq (makeRoom 2040 s)
    have h6 := length_entryBytes s type claimed s.jrn.nextSeq body
    have h7 := entryBytes_type s claimed s.jrn.nextSeq body ht
    have h8 := entryBytes_body s type claimed s.jrn.nextSeq body
    rw [h3.1] at h4
    rw [← h5] at h2
    generalize entryBytes s type claimed s.jrn.nextSeq body = b at hroom h6 h7 h8 ⊢
    generalize takeSeq (makeRoom 2040 s) = u at hroom h2 h4 ⊢
    obtain ⟨e, he, hb', hf, hl⟩ := writePages_takes u { u.jrn with standalone := u.jrn.standalone ++ [s.jrn.nextSeq] } b s.jrn.nextSeq
      s.jrn.nextSeq h6 h4 hroom h2
    exact ⟨e, he, hf, hl, hb' ▸ h7, hb' ▸ h8⟩

/-- Forming an entry takes nothing out of the ring, and leaves the rest of MRAM but for its counters, its pages and the PSEQ (R253). -/
theorem journalEntry_nv (type : Nat) (claimed : Bool) (body : Bytes) (s : State) :
    (journalEntry type claimed body s).nv = { s.nv with
        ctrs := (journalEntry type claimed body s).nv.ctrs, pages := (journalEntry type claimed body s).nv.pages
        ring := (journalEntry type claimed body s).nv.ring, lastPseq := (journalEntry type claimed body s).nv.lastPseq } := by
  unfold journalEntry
  split
  · rfl
  · unfold writePages
    simp only []
    rw [sealPages_nv]
    simp only []
    generalize (sealPages _ _).nv = x
    rw [takeSeq_nv, makeRoom_nv]

theorem journalEntry_ring (type : Nat) (claimed : Bool) (body : Bytes) (s : State) :
    ∃ l, (journalEntry type claimed body s).nv.ring = s.nv.ring ++ l := by
  unfold journalEntry
  split
  · exact ⟨[], (List.append_nil _).symm⟩
  · obtain ⟨l, hl⟩ := makeRoom_ring 2040 s
    simp only [writePages, sealPages_ring]
    rw [takeSeq_nv]
    simp only [hl]
    exact ⟨_, List.append_assoc _ _ _⟩

end Sys2Proof.Machine
end

