-- ==== Sys2Proof/Laws/Otp.lean ====
section
/-! SUPPORT. The OTP (R356): what every operation leaves of it. An operation that burns nothing leaves it as it was; one that burns only ever
adds bits to it (Grows). Events of the environment and steps of the queue are not covered here. -/

namespace Sys2Proof.Machine

/-- The state that a command's own steps leave. -/
def Reply.after : Reply → State
  | .done s _ _ _ => s
  | .wait s _ _ => s

@[simp] theorem after_done (s : State) (status detail : Nat) (body : Bytes) : (Reply.done s status detail body).after = s := rfl
@[simp] theorem after_wait (s : State) (obj : Nat) (body : Bytes) : (Reply.wait s obj body).after = s := rfl
@[simp] theorem after_refuse (s : State) (status detail : Nat) : (Reply.refuse s status detail).after = s := rfl

/-- Every bit of a word of `a` is a bit of that word of `b`. -/
structure Grows (a b : Tab (BitVec 64)) : Prop where
  get : ∀ w i, w < 256 → (tgetD a w 0).getLsbD i = true → (tgetD b w 0).getLsbD i = true

theorem Grows.refl (a : Tab (BitVec 64)) : Grows a a := ⟨fun _ _ _ h => h⟩

theorem Grows.trans {a b c : Tab (BitVec 64)} (h : Grows a b) (k : Grows b c) : Grows a c :=
  ⟨fun w i x y => k.get w i x (h.get w i x y)⟩

@[simp] theorem ite_otp {c : Prop} [Decidable c] (a b : State) : (if c then a else b).otp = if c then a.otp else b.otp := by
  split <;> rfl

theorem foldl_otp {α : Type} (g : State → α → State) (l : List α) (s : State) (h : ∀ t x, (g t x).otp = t.otp) :
    (l.foldl g s).otp = s.otp :=
  foldl_keeps (P := fun t => t.otp = s.otp) g l s rfl fun t x k => (h t x).trans k

theorem foldl_grows {α : Type} (a : Tab (BitVec 64)) (g : State → α → State) (l : List α) (s : State)
    (h : ∀ t x, Grows t.otp (g t x).otp) (h0 : Grows a s.otp) : Grows a (l.foldl g s).otp :=
  foldl_keeps (P := fun t => Grows a t.otp) g l s h0 fun t x k => k.trans (h t x)

@[simp] theorem quietFault_otp (gate : Nat) (s : State) : (quietFault gate s).otp = s.otp := by
  simp [quietFault]

@[simp] theorem State_withPost_otp (s : State) (p : Post) : (State.withPost s p).otp = s.otp := by
  simp [State.withPost]

@[simp] theorem hostWrite_otp (fn addr : Nat) (b : Bytes) (s : State) : (hostWrite fn addr b s).otp = s.otp := by
  simp [hostWrite]

@[simp] theorem hostRead_otp (fn addr len : Nat) (entry : Bool) (s : State) : (hostRead fn addr len entry s).otp = s.otp := by
  simp [hostRead]

@[simp] theorem devEventAll_otp (b : Nat) (s : State) : (devEventAll b s).otp = s.otp := by
  unfold devEventAll
  simp [foldl_otp]

@[simp] theorem deliver_otp (s : State) : (deliver s).otp = s.otp := by
  unfold deliver
  simp [foldl_otp]

@[simp] theorem fillEvents_otp (s : State) : (fillEvents s).otp = s.otp := by
  simp [fillEvents]

@[simp] theorem noteChanges_otp (s0 s : State) : (noteChanges s0 s).otp = s.otp := by
  unfold noteChanges
  simp [foldl_otp]

@[simp] theorem Reply_refuse_otp (s : State) (status detail : Nat) : (Reply.refuse s status detail).after.otp = s.otp := by
  simp [Reply.refuse]

@[simp] theorem runCommand_otp (op : Nat) (r : Req) (need : Option Nat) (run : State → Reply) (s : State) (h3 : ∀ (x3_0 :
    State), (run x3_0).after.otp = x3_0.otp) : (runCommand op r need run s).otp = s.otp := by
  unfold runCommand
  split
  · simp
  · have := h3 s
    split <;> rename_i e <;> rw [e] at this <;> simp at this <;> simp [this]

@[simp] theorem turnAway_otp (op : Nat) (r : Req) (s : State) : (turnAway op r s).otp = s.otp := by
  simp [turnAway]

@[simp] theorem command_otp (i : Instr) (op : Nat) (r : Req) (need : Option Nat) (run : State → Reply) (s : State) (h4 : ∀ (x4_0 :
    State), (run x4_0).after.otp = x4_0.otp) : (command i op r need run s).otp = s.otp := by
  unfold command
  simp_all

@[simp] theorem bankServes_otp (b : Nat) (s : State) : (bankServes b s).otp = s.otp := by
  simp [bankServes]

@[simp] theorem zeroiseConditioner_otp (s : State) : (zeroiseConditioner s).otp = s.otp := by
  simp [zeroiseConditioner]

@[simp] theorem takeFrom_otp (b : Nat) (s : State) : (takeFrom b s).2.otp = s.otp := by
  unfold takeFrom
  (repeat' split) <;> simp

@[simp] theorem takeMany_otp (a0 a1 : Nat) (a2 : State) : (takeMany a0 a1 a2).2.otp = a2.otp := by
  induction a1 generalizing a2 with
  | zero => rfl
  | succ n ih => simp [takeMany, ih]

@[simp] theorem takeBlock_otp (s : State) : (takeBlock s).2.otp = s.otp := by
  unfold takeBlock
  (repeat' split) <;> simp

@[simp] theorem takeBlocks_otp (a0 : Nat) (a1 : State) : (takeBlocks a0 a1).2.otp = a1.otp := by
  induction a0 generalizing a1 with
  | zero => rfl
  | succ n ih => simp [takeBlocks, ih]

@[simp] theorem takeSeed_otp (s : State) : (takeSeed s).2.otp = s.otp := by
  simp [takeSeed]

@[simp] theorem formSeed_otp (s : State) : (formSeed s).2.otp = s.otp := by
  unfold formSeed
  generalize (List.range 3).filter _ = l
  generalize zeros 48 = z
  induction l generalizing s z with
  | nil => rfl
  | cons b l ih => simp [ih]

@[simp] theorem freshWraps_otp (s : State) : (freshWraps s).otp = s.otp := by
  simp [freshWraps]

@[simp] theorem engineKeys_otp (s : State) : (engineKeys s).otp = s.otp := by
  simp [engineKeys]

@[simp] theorem drawWaiting_otp (s : State) : (drawWaiting s).otp = s.otp := by
  simp [drawWaiting]

@[simp] theorem raiseMark_otp (s : State) : (raiseMark s).otp = s.otp := by
  simp [raiseMark]

@[simp] theorem sealPages_otp (m : Nat) (s : State) : (sealPages m s).otp = s.otp := by
  simp [sealPages]

@[simp] theorem makeRoom_otp (len : Nat) (s : State) : (makeRoom len s).otp = s.otp := by
  simp [makeRoom]

@[simp] theorem foldLeaf_otp (l : Leaf) (s : State) : (foldLeaf l s).otp = s.otp := by
  simp [foldLeaf]

@[simp] theorem foldAll_otp (a0 : Nat) (a1 : State) : (foldAll a0 a1).otp = a1.otp := by
  induction a0 generalizing a1 with
  | zero => rfl
  | succ n ih => unfold foldAll; split <;> simp [ih]

@[simp] theorem abandonAll_otp (s : State) : (abandonAll s).otp = s.otp := by
  simp [abandonAll]

@[simp] theorem backWrite_otp (n : Nat) (s : State) : (backWrite n s).otp = s.otp := by
  simp [backWrite]

@[simp] theorem flushCounters_otp (s : State) : (flushCounters s).otp = s.otp := by
  unfold flushCounters
  simp [foldl_otp]

@[simp] theorem writeMeterPage_otp (p : Nat) (s : State) : (writeMeterPage p s).otp = s.otp := by
  simp [writeMeterPage]

@[simp] theorem flushMeter_otp (s : State) : (flushMeter s).otp = s.otp := by
  unfold flushMeter
  simp [foldl_otp]

@[simp] theorem suppressedSummary_otp (code : Nat) (s : State) : (suppressedSummary code s).otp = s.otp := by
  simp [suppressedSummary]

@[simp] theorem allSummaries_otp (s : State) : (allSummaries s).otp = s.otp := by
  unfold allSummaries
  simp [foldl_otp]

@[simp] theorem writeTail_otp (s : State) : (writeTail s).otp = s.otp := by
  simp [writeTail]

@[simp] theorem markFlush_otp (s : State) : (markFlush s).otp = s.otp := by
  simp [markFlush]

@[simp] theorem flush_otp (s : State) : (flush s).otp = s.otp := by
  simp [flush]

@[simp] theorem answerWaiter_otp (w : Waiter) (status detail : Nat) (body : Bytes) (s : State) :
    (answerWaiter w status detail body s).otp = s.otp := by
  simp [answerWaiter]

@[simp] theorem placeHot_otp (keep : HotSlot → Bool) (e : HotSlot) (s : State) : (placeHot keep e s).otp = s.otp := by
  unfold placeHot
  (repeat' split) <;> simp

@[simp] theorem touchHot_otp (a0 : HotSlot → Bool) (a1 : Nat) (a2 : List (Nat × Nat)) (a3 : List (BitVec 256)) (a4 : State) :
    (touchHot a0 a1 a2 a3 a4).otp = a4.otp := by
  unfold touchHot
  simp [foldl_otp]

@[simp] theorem dropSess_otp (a0 : Nat) (a1 : State) : (dropSess a0 a1).otp = a1.otp := by
  unfold dropSess
  (repeat' split) <;> simp

@[simp] theorem freeQueue_otp (q : Nat) (s : State) : (freeQueue q s).otp = s.otp := by
  simp [freeQueue]

@[simp] theorem stopQueues_otp (qs : List Nat) (s : State) : (stopQueues qs s).otp = s.otp := by
  unfold stopQueues
  simp [foldl_otp]

@[simp] theorem dropRequests_otp (f : Nat) (s : State) : (dropRequests f s).otp = s.otp := by
  simp [dropRequests]

@[simp] theorem resetFnRegs_otp (f : Nat) (s : State) : (resetFnRegs f s).otp = s.otp := by
  simp [resetFnRegs]

@[simp] theorem dropHeldMessages_otp (f : Nat) (s : State) : (dropHeldMessages f s).otp = s.otp := by
  simp [dropHeldMessages]

@[simp] theorem resetFn_otp (cause : FnCause) (f : Nat) (s : State) : (resetFn cause f s).otp = s.otp := by
  simp [resetFn]

@[simp] theorem endCause_otp (cause : FnCause) (f : Nat) (s : State) : (endCause cause f s).otp = s.otp := by
  simp [endCause]

@[simp] theorem endCauseAll_otp (cause : FnCause) (s : State) : (endCauseAll cause s).otp = s.otp := by
  unfold endCauseAll
  simp [foldl_otp]

@[simp] theorem releaseDgu_otp (p : DgOwner) (s : State) : (releaseDgu p s).otp = s.otp := by
  simp [releaseDgu]

@[simp] theorem mpFalls_otp (s : State) : (mpFalls s).otp = s.otp := by
  simp [mpFalls]

@[simp] theorem aer_otp (f : Nat) (e : AerError) (s : State) : (aer f e s).otp = s.otp := by
  simp [aer]

@[simp] theorem unitFails_otp (unit index : Nat) (s : State) : (unitFails unit index s).otp = s.otp := by
  simp [unitFails]

@[simp] theorem enterDegraded_otp (reason : Nat) (s : State) : (enterDegraded reason s).otp = s.otp := by
  simp [enterDegraded]

@[simp] theorem zeroiseSecrets_otp (s0 : State) : (zeroiseSecrets s0).otp = s0.otp := by
  simp [zeroiseSecrets]

@[simp] theorem toTestRoot_otp (s : State) : (toTestRoot s).otp = s.otp := by
  simp [toTestRoot]

@[simp] theorem haltWaiters_otp (s : State) : (haltWaiters s).otp = s.otp := by
  simp [haltWaiters]

@[simp] theorem respondT3_otp (s : State) : (respondT3 s).otp = s.otp := by
  simp [respondT3]

/-- A burn adds bits (R356). -/
theorem tset_grows {a t : Tab (BitVec 64)} (w : Nat) (v : BitVec 64) (h : Grows a t) : Grows a (tset t w (tgetD t w 0 ||| v)) := by
  refine h.trans ⟨fun k i _ hb => ?_⟩
  by_cases e : k = w
  · subst e
    rw [tgetD_tset_self, BitVec.getLsbD_or, hb]
    rfl
  · rw [tgetD_tset_ne _ _ _ e]
    exact hb

theorem burn_grows {a} (w : Nat) (v : BitVec 64) (s : State) (h : Grows a s.otp) : Grows a (burn w v s).otp := tset_grows w v h

theorem burnTampered_grows {a} (s : State) (h : Grows a s.otp) : Grows a (burnTampered s).otp := by
  unfold burnTampered
  (repeat' split) <;> (try simp [-burn_otp]) <;>
    repeat' first
      | with_reducible exact Grows.refl _ | assumption | with_reducible apply foldl_grows | split | intro _
      | with_reducible apply burn_grows | simp [-burn_otp]

@[simp] theorem invalidateDomain_otp (t : State) (i : Nat) : (invalidateDomain t i).otp = t.otp := by
  simp [invalidateDomain]

@[simp] theorem invalidateDomains_otp (s : State) : (invalidateDomains s).otp = s.otp := by
  simp [invalidateDomains]

theorem respondT4_grows {a} (s : State) (h : Grows a s.otp) : Grows a (respondT4 s).otp := by
  unfold respondT4
  (repeat' split) <;> (try simp [-burn_otp]) <;>
    repeat' first
      | with_reducible exact Grows.refl _ | assumption | with_reducible apply foldl_grows | split | intro _
      | with_reducible apply burnTampered_grows | simp [-burn_otp]

@[simp] theorem loseVolatile_otp (s : State) : (loseVolatile s).otp = s.otp := by
  simp [loseVolatile]

@[simp] theorem feedsOut_otp (s : State) : (feedsOut s).otp = s.otp := by
  simp [feedsOut]

@[simp] theorem declareFailure_otp (s : State) : (declareFailure s).otp = s.otp := by
  simp [declareFailure]

@[simp] theorem copyClocks_otp (s : State) : (copyClocks s).otp = s.otp := by
  simp [copyClocks]

@[simp] theorem beginReset_otp (por : Bool) (s : State) : (beginReset por s).otp = s.otp := by
  simp [beginReset]

@[simp] theorem losePd00_otp (s : State) : (losePd00 s).otp = s.otp := by
  simp [losePd00]

@[simp] theorem powerDown_otp (s : State) : (powerDown s).otp = s.otp := by
  simp [powerDown]

@[simp] theorem recognisedReset_otp (pin : ResetPin) (s : State) : (recognisedReset pin s).otp = s.otp := by
  unfold recognisedReset
  (repeat' split) <;> simp

@[simp] theorem feedBack_otp (feed : Feed) (s : State) : (feedBack feed s).otp = s.otp := by
  simp [feedBack]

@[simp] theorem mpDomain_otp (on : Bool) (s : State) : (mpDomain on s).otp = s.otp := by
  unfold mpDomain
  (repeat' split) <;> simp

@[simp] theorem judgeCap_otp (c : CapResult) (s : State) : (judgeCap c s).otp = s.otp := by
  unfold judgeCap
  simp only []
  (repeat' split) <;> simp

@[simp] theorem evtReadRun_otp (r : Req) (s : State) : (evtReadRun r s).after.otp = s.otp := by
  unfold evtReadRun
  (repeat' split) <;> simp

@[simp] theorem evtClearRun_otp (r : Req) (s : State) : (evtClearRun r s).after.otp = s.otp := by
  unfold evtClearRun
  dsimp only
  (repeat' split) <;> simp

@[simp] theorem diagScheduleRun_otp (r : Req) (s : State) : (diagScheduleRun r s).after.otp = s.otp := by
  unfold diagScheduleRun
  (repeat' split) <;> simp

@[simp] theorem pmonConfigRun_otp (r : Req) (s : State) : (pmonConfigRun r s).after.otp = s.otp := by
  unfold pmonConfigRun
  (repeat' split) <;> simp

@[simp] theorem linkDomains_otp (s : State) : (linkDomains s).otp = s.otp := by
  simp [linkDomains]

@[simp] theorem resetDone_otp (f : Nat) (s : State) : (resetDone f s).otp = s.otp := by
  simp [resetDone]

@[simp] theorem dropVfs_otp (s : State) : (dropVfs s).otp = s.otp := by
  simp [dropVfs]

@[simp] theorem resetPf0_otp (cause : FnCause) (s : State) : (resetPf0 cause s).otp = s.otp := by
  unfold resetPf0
  simp [foldl_otp]

@[simp] theorem losePath_otp (cause : LinkCause) (s : State) : (losePath cause s).otp = s.otp := by
  unfold losePath; simp

@[simp] theorem claimPcie_otp (s : State) : (claimPcie s).otp = s.otp := by
  simp [claimPcie]

@[simp] theorem claimUsb_otp (s : State) : (claimUsb s).otp = s.otp := by
  simp [claimUsb]

@[simp] theorem raiseVfs_otp (n : Nat) (s : State) : (raiseVfs n s).otp = s.otp := by
  simp [raiseVfs]

@[simp] theorem flr_otp (f : Nat) (s : State) : (flr f s).otp = s.otp := by
  simp [flr]

@[simp] theorem sendPending_otp (f : Nat) (s : State) : (sendPending f s).otp = s.otp := by
  unfold sendPending
  simp [foldl_otp]

@[simp] theorem masterOff_otp (fn : Nat) (s : State) : (masterOff fn s).otp = s.otp := by
  simp [masterOff]

@[simp] theorem masterOn_otp (fn : Nat) (s : State) : (masterOn fn s).otp = s.otp := by
  simp [masterOn]

@[simp] theorem enterD3_otp (s : State) : (enterD3 s).otp = s.otp := by
  simp [enterD3]

@[simp] theorem leaveD3_otp (s : State) : (leaveD3 s).otp = s.otp := by
  simp [leaveD3]

@[simp] theorem dropDoorbell_otp (fn qix why : Nat) (s : State) : (dropDoorbell fn qix why s).otp = s.otp := by
  simp [dropDoorbell]

@[simp] theorem wrapSaved_otp (q : Nat) (s : State) : (wrapSaved q s).otp = s.otp := by
  unfold wrapSaved
  (repeat' split) <;> simp

@[simp] theorem unwrapSaved_otp (q : Nat) (s : State) : (unwrapSaved q s).otp = s.otp := by
  unfold unwrapSaved
  (repeat' split) <;> simp

@[simp] theorem findContext_otp (q fn : Nat) (s : State) : (findContext q fn s).otp = s.otp := by
  simp [findContext]

@[simp] theorem ring_otp (fn qix : Nat) (v : BitVec 32) (s : State) : (ring fn qix v s).otp = s.otp := by
  simp [ring]

@[simp] theorem bar2Write_otp (fn qix : Nat) (v : BitVec 32) (whole : Bool) (s : State) : (bar2Write fn qix v whole s).otp = s.otp := by
  simp [bar2Write]

@[simp] theorem setCto_otp (v : BitVec 32) (s : State) : (setCto v s).otp = s.otp := by
  simp [setCto]

@[simp] theorem setCoal_otp (f v : Nat) (value : BitVec 32) (s : State) : (setCoal f v value s).otp = s.otp := by
  simp [setCoal]

@[simp] theorem unmask_otp (f v : Nat) (s : State) : (unmask f v s).otp = s.otp := by
  simp [unmask]

@[simp] theorem modWork_otp (p : Work → Bool) (f : Work → Work) (s : State) : (modWork p f s).otp = s.otp := by
  simp [modWork]

@[simp] theorem enterStandby_otp (s : State) : (enterStandby s).otp = s.otp := by
  simp [enterStandby]

@[simp] theorem sleepIfDue_otp (s : State) : (sleepIfDue s).otp = s.otp := by
  simp [sleepIfDue]

@[simp] theorem standAt_otp (sh : Nat) (p : FetchPick) (s : State) : (standAt sh p s).otp = s.otp := by
  simp [standAt]

@[simp] theorem passOver_otp (sh q : Nat) (s : State) : (passOver sh q s).otp = s.otp := by
  simp [passOver]

@[simp] theorem spend_otp (sh f n : Nat) (s : State) : (spend sh f n s).otp = s.otp := by
  simp [spend]

@[simp] theorem stopQueue_otp (q why : Nat) (s : State) : (stopQueue q why s).otp = s.otp := by
  simp [stopQueue]

@[simp] theorem consume_otp (q : Nat) (w : Work) (s : State) : (consume q w s).otp = s.otp := by
  simp [consume]

@[simp] theorem judgeEntry_otp (sh qix : Nat) (e : Bytes) (s : State) : (judgeEntry sh qix e s).otp = s.otp := by
  unfold judgeEntry
  dsimp only
  (repeat' split) <;> simp

@[simp] theorem entryFails_otp (q : Nat) (k : ReadError) (s : State) : (entryFails q k s).otp = s.otp := by
  simp [entryFails]

@[simp] theorem dropWork_otp (p : Work → Bool) (s : State) : (dropWork p s).otp = s.otp := by
  simp [dropWork]

@[simp] theorem sourceEnds_otp (q : Nat) (result : ReadResult) (s : State) : (sourceEnds q result s).otp = s.otp := by
  unfold sourceEnds
  (repeat' split) <;> simp

@[simp] theorem cancelUnscheduled_otp (q : Nat) (s : State) : (cancelUnscheduled q s).otp = s.otp := by
  simp [cancelUnscheduled]

@[simp] theorem writeStop_otp (qix why : Nat) (s : State) : (writeStop qix why s).otp = s.otp := by
  unfold writeStop
  simp [foldl_otp]

@[simp] theorem stopIfFree_otp (qix : Nat) (s : State) : (stopIfFree qix s).otp = s.otp := by
  unfold stopIfFree
  (repeat' split) <;> simp

@[simp] theorem answerFnDisable_otp (f : Nat) (s : State) : (answerFnDisable f s).otp = s.otp := by
  simp [answerFnDisable]

@[simp] theorem fnConfigRun_otp (r : Req) (s : State) : (fnConfigRun r s).after.otp = s.otp := by
  unfold fnConfigRun
  dsimp only
  (repeat' split) <;> simp

@[simp] theorem bindSess_otp (i q : Nat) (s : State) : (bindSess i q s).otp = s.otp := by
  unfold bindSess
  (repeat' split) <;> simp

@[simp] theorem queueCreateRun_otp (r : Req) (s : State) : (queueCreateRun r s).after.otp = s.otp := by
  unfold queueCreateRun
  dsimp only
  (repeat' split) <;> simp

@[simp] theorem queueDisableRun_otp (r : Req) (s : State) : (queueDisableRun r s).after.otp = s.otp := by
  unfold queueDisableRun
  dsimp only
  (repeat' split) <;> simp

@[simp] theorem queueDeleteRun_otp (r : Req) (s : State) : (queueDeleteRun r s).after.otp = s.otp := by
  unfold queueDeleteRun
  (repeat' split) <;> simp

@[simp] theorem queueQueryRun_otp (r : Req) (s : State) : (queueQueryRun r s).after.otp = s.otp := by
  unfold queueQueryRun
  (repeat' split) <;> simp

@[simp] theorem fnDisableRun_otp (r : Req) (s : State) : (fnDisableRun r s).after.otp = s.otp := by
  unfold fnDisableRun
  dsimp only
  (repeat' split) <;> simp

@[simp] theorem fnEnableRun_otp (r : Req) (s : State) : (fnEnableRun r s).after.otp = s.otp := by
  unfold fnEnableRun
  (repeat' split) <;> simp

@[simp] theorem raiseReservation_otp (d : Draw) (s : State) : (raiseReservation d s).otp = s.otp := by
  unfold raiseReservation
  (repeat' split) <;> simp

@[simp] theorem dropCarry_otp (el : List (Work × Nat)) (s : State) : (dropCarry el s).otp = s.otp := by
  simp [dropCarry]

@[simp] theorem loadKeys_otp (hs : List Nat) (p : Slot) (s : State) : (loadKeys hs p s).otp = s.otp := by
  unfold loadKeys
  simp [foldl_otp]

@[simp] theorem assignOutcomes_otp (w : Work) (s : State) : (assignOutcomes w s).otp = s.otp := by
  unfold assignOutcomes
  dsimp only
  (repeat' split) <;> simp

@[simp] theorem fixValues_otp (w : Work) (s : State) : (fixValues w s).2.otp = s.otp := by
  unfold fixValues
  dsimp only
  (repeat' split) <;> simp

@[simp] theorem placeUnit_otp (w : Work) (p cost : Nat) (s : State) : (placeUnit w p cost s).otp = s.otp := by
  simp [placeUnit]

@[simp] theorem resume_otp (w : Work) (s : State) : (resume w s).2.otp = s.otp := by
  unfold resume
  (repeat' split) <;> simp

@[simp] theorem placeAgain_otp (w : Work) (s : State) : (placeAgain w s).otp = s.otp := by
  unfold placeAgain
  dsimp only
  (repeat' split) <;> simp

theorem arbitrate_otp {s : State} {el : List (Work × Nat)} {c : Choice} (h : arbitrate s el = some c) : c.state.otp = s.otp := by
  unfold arbitrate at h
  split at h <;> try cases h
  split at h <;> try cases h
  split at h <;> cases h
  rfl

@[simp] theorem dispatchDue_otp (s : State) : (dispatchDue s).otp = s.otp := by
  unfold dispatchDue
  dsimp only
  (repeat' split) <;> simp_all <;> exact arbitrate_otp (by assumption)

@[simp] theorem dispatchOne_otp (s : State) : (dispatchOne s).otp = s.otp := by
  unfold dispatchOne
  simp only []
  (repeat' split) <;> simp_all <;> exact arbitrate_otp (by assumption)

@[simp] theorem lanesFinish_otp (seq : Nat) (ops : List Nat) (f : State → Work → UnitResult) (s : State) :
    (lanesFinish seq ops f s).otp = s.otp := by
  unfold lanesFinish
  (repeat' split) <;> simp

@[simp] theorem writeOutput_otp (w : Work) (r : UnitResult) (s : State) : (writeOutput w r s).otp = s.otp := by
  unfold writeOutput
  dsimp only
  (repeat' split) <;> simp

@[simp] theorem returnCredit_otp (w : Work) (s : State) : (returnCredit w s).otp = s.otp := by
  simp [returnCredit]

@[simp] theorem countLag_otp (p : Nat) (s : State) : (countLag p s).otp = s.otp := by
  simp [countLag]

@[simp] theorem clearOut_otp (seq : Nat) (s : State) : (clearOut seq s).otp = s.otp := by
  simp [clearOut]

@[simp] theorem countUnit_otp (w : Work) (s : State) : (countUnit w s).otp = s.otp := by
  simp [countUnit]

@[simp] theorem releaseMiddle_otp (w : Work) (r : UnitResult) (s : State) : (releaseMiddle w r s).otp = s.otp := by
  simp [releaseMiddle]

@[simp] theorem raiseReplay_otp (w : Work) (s : State) : (raiseReplay w s).otp = s.otp := by
  unfold raiseReplay
  (repeat' split) <;> simp

@[simp] theorem countSold_otp (w : Work) (status : Nat) (s : State) : (countSold w status s).otp = s.otp := by
  unfold countSold
  (repeat' split) <;> simp

@[simp] theorem releaseLast_otp (w : Work) (r : UnitResult) (s : State) : (releaseLast w r s).otp = s.otp := by
  simp [releaseLast]

@[simp] theorem releaseUnit_otp (w : Work) (r : UnitResult) (s : State) : (releaseUnit w r s).otp = s.otp := by
  simp [releaseUnit]

@[simp] theorem discardStale_otp (w : Work) (s : State) : (discardStale w s).otp = s.otp := by
  simp [discardStale]

@[simp] theorem takeUnit_otp (w : Work) (s : State) : (takeUnit w s).otp = s.otp := by
  unfold takeUnit
  (repeat' split) <;> simp

theorem respondTo_grows {a} (c : TClass) (sensor idx bits : Nat) (act : State → State) (s : State) (h4 : ∀ (x4_0 :
    State), Grows x4_0.otp (act x4_0).otp) (h : Grows a s.otp) : Grows a (respondTo c sensor idx bits act s).otp := by
  unfold respondTo
  (repeat' split) <;> (try simp [-burn_otp]) <;>
    repeat' first
      | with_reducible exact Grows.refl _ | assumption | with_reducible apply foldl_grows | split | intro _
      | refine Grows.trans ?_ (h4 _) | with_reducible apply respondT4_grows | simp [-burn_otp]

theorem senseInput_grows {a} (act : State → State) (t : TamperIn) (fresh : Bool) (s : State) (h0 : ∀ (x0_0 :
    State), Grows x0_0.otp (act x0_0).otp) (h : Grows a s.otp) : Grows a (senseInput act t fresh s).otp := by
  unfold senseInput
  (repeat' split) <;> (try simp [-burn_otp]) <;>
    repeat' first
      | with_reducible exact Grows.refl _ | assumption | with_reducible apply foldl_grows | split | intro _
      | refine Grows.trans ?_ (h0 _) | with_reducible apply respondTo_grows | simp [-burn_otp]

theorem raiseInput_grows {a} (act : State → State) (sensor : Sensor) (unit : CUnit) (s : State) (h0 : ∀ (x0_0 :
    State), Grows x0_0.otp (act x0_0).otp) (h : Grows a s.otp) : Grows a (raiseInput act sensor unit s).otp := by
  unfold raiseInput
  (repeat' split) <;> (try simp [-burn_otp]) <;>
    repeat' first
      | with_reducible exact Grows.refl _ | assumption | with_reducible apply foldl_grows | split | intro _
      | refine Grows.trans ?_ (h0 _) | with_reducible apply senseInput_grows | simp [-burn_otp]

@[simp] theorem laneDomains_otp (n : Nat) (d : DomState) (s : State) : (laneDomains n d s).otp = s.otp := by
  simp [laneDomains]

@[simp] theorem laneDown_otp (st : LaneSt) (n : Nat) (s : State) : (laneDown st n s).otp = s.otp := by
  simp [laneDown]

@[simp] theorem laneFails_otp (n : Nat) (s : State) : (laneFails n s).otp = s.otp := by
  simp [laneFails]

@[simp] theorem startLane_otp (p n : Nat) (s : State) : (startLane p n s).otp = s.otp := by
  simp [startLane]

@[simp] theorem reseedLane_otp (n : Nat) (s : State) : (reseedLane n s).otp = s.otp := by
  simp [reseedLane]

@[simp] theorem seedLanes_otp (s : State) : (seedLanes s).otp = s.otp := by
  unfold seedLanes
  simp [foldl_otp]

@[simp] theorem withdrawLane_otp (st : LaneSt) (n : Nat) (s : State) : (withdrawLane st n s).otp = s.otp := by
  simp [withdrawLane]

@[simp] theorem dropResults_otp (p : Nat) (s : State) : (dropResults p s).otp = s.otp := by
  simp [dropResults]

@[simp] theorem takeBack_otp (p : Nat) (s : State) : (takeBack p s).otp = s.otp := by
  simp [takeBack]

@[simp] theorem claimEvent_otp (p cause old : Nat) (new : Option (Nat × Nat)) (s : State) : (claimEvent p cause old new s).otp = s.otp := by
  simp [claimEvent]

@[simp] theorem withdraw_otp (p cause : Nat) (new : Option (Nat × Nat)) (s : State) : (withdraw p cause new s).otp = s.otp := by
  simp [withdraw]

@[simp] theorem fillSlot_otp (a0 a1 a2 : Nat) (a3 : State) : (fillSlot a0 a1 a2 a3).otp = a3.otp := by
  simp [fillSlot]

@[simp] theorem beginRebuild_otp (p : Nat) (s : State) : (beginRebuild p s).otp = s.otp := by
  unfold beginRebuild
  (repeat' split) <;> simp

@[simp] theorem drainSlot_otp (p : Nat) (s : State) : (drainSlot p s).otp = s.otp := by
  simp [drainSlot]

@[simp] theorem beginTest_otp (p : Nat) (s : State) : (beginTest p s).otp = s.otp := by
  unfold beginTest
  (repeat' split) <;> simp

@[simp] theorem testDeferred_otp (target unit : Nat) (s : State) : (testDeferred target unit s).otp = s.otp := by
  simp [testDeferred]

@[simp] theorem rotationStays_otp (p : Nat) (s : State) : (rotationStays p s).otp = s.otp := by
  simp [rotationStays]

@[simp] theorem periodicTest_otp (s : State) : (periodicTest s).otp = s.otp := by
  simp [periodicTest]

@[simp] theorem runPending_otp (s : State) : (runPending s).otp = s.otp := by
  simp [runPending]

@[simp] theorem answerTests_otp (target : Nat) (fail : Bool) (s : State) : (answerTests target fail s).otp = s.otp := by
  simp [answerTests]

@[simp] theorem noteTest_otp (n : Nat) (pass : Bool) (s : State) : (noteTest n pass s).otp = s.otp := by
  unfold noteTest
  (repeat' split) <;> simp

@[simp] theorem testLane_otp (n : Nat) (s : State) : (testLane n s).otp = s.otp := by
  simp [testLane]

@[simp] theorem rebuildSlots_otp (s : State) : (rebuildSlots s).otp = s.otp := by
  simp [rebuildSlots]

@[simp] theorem failover_otp (slot : Nat) (cause : FailCause) (s : State) : (failover slot cause s).otp = s.otp := by
  unfold failover
  dsimp only
  (repeat' split) <;> simp

@[simp] theorem dmaRead_otp (r : Req) (addr len : Nat) (s : State) : (dmaRead r addr len s).2.otp = s.otp := by
  unfold dmaRead
  (repeat' split) <;> simp

@[simp] theorem dmaWrite_otp (r : Req) (addr : Nat) (b : Bytes) (s : State) : (dmaWrite r addr b s).2.otp = s.otp := by
  unfold dmaWrite
  (repeat' split) <;> simp

@[simp] theorem usedPke_otp (s : State) : (usedPke s).otp = s.otp := by
  unfold usedPke
  (repeat' split) <;> simp

@[simp] theorem signed_otp (s : State) : (signed s).otp = s.otp := by
  simp [signed]

@[simp] theorem answerFor_otp (op obj status detail : Nat) (body : Bytes) (s : State) :
    (answerFor op obj status detail body s).otp = s.otp := by
  simp [answerFor]

@[simp] theorem putDraw_otp (d : Draw) (s : State) : (putDraw d s).otp = s.otp := by
  simp [putDraw]

@[simp] theorem dropDefining_otp (id : Nat) (s : State) : (dropDefining id s).otp = s.otp := by
  unfold dropDefining
  (repeat' split) <;> simp

@[simp] theorem scheduleFails_otp (s : State) (id status detail : Nat) : (scheduleFails s id status detail).after.otp = s.otp := by
  simp [scheduleFails]

@[simp] theorem scheduleFinal_otp (d : Draw) (s : State) : (scheduleFinal d s).after.otp = s.otp := by
  unfold scheduleFinal
  (repeat' split) <;> simp

@[simp] theorem drawScheduleRun_otp (r : Req) (s : State) : (drawScheduleRun r s).after.otp = s.otp := by
  unfold drawScheduleRun
  dsimp only
  (repeat' split) <;> simp

@[simp] theorem finishClose_otp (d : Draw) (s : State) : (finishClose d s).otp = s.otp := by
  simp [finishClose]

@[simp] theorem beginClose_otp (d : Draw) (cancel : Bool) (s : State) : (beginClose d cancel s).2.otp = s.otp := by
  simp [beginClose]

@[simp] theorem drawCloseRun_otp (r : Req) (s : State) : (drawCloseRun r s).after.otp = s.otp := by
  unfold drawCloseRun
  dsimp only
  (repeat' split) <;> simp

@[simp] theorem commitDraw_otp (d : Draw) (s : State) : (commitDraw d s).otp = s.otp := by
  unfold commitDraw
  dsimp only
  (repeat' split) <;> simp

@[simp] theorem countWords_otp (params seed : Bytes) (times : Nat) (s : State) : (countWords params seed times s).otp = s.otp := by
  simp [countWords]

@[simp] theorem resultDraw_otp (d : Draw) (seed : Bytes) (s : State) : (resultDraw d seed s).otp = s.otp := by
  simp [resultDraw]

@[simp] theorem mismatches_otp (id n : Nat) (s : State) : (mismatches id n s).otp = s.otp := by
  unfold mismatches
  simp [foldl_otp]

@[simp] theorem computeDraw_otp (id fails : Nat) (s : State) : (computeDraw id fails s).otp = s.otp := by
  unfold computeDraw
  (repeat' split) <;> simp

@[simp] theorem runDraw_otp (d : Draw) (fails : Nat) (s : State) : (runDraw d fails s).otp = s.otp := by
  simp [runDraw]

@[simp] theorem startRun_otp (d : Draw) (op fails : Nat) (s : State) : (startRun d op fails s).after.otp = s.otp := by
  unfold startRun
  (repeat' split) <;> simp

@[simp] theorem runByState_otp (d : Draw) (fails : Nat) (s : State) : (runByState d fails s).after.otp = s.otp := by
  unfold runByState
  (repeat' split) <;> simp

@[simp] theorem drawRunRun_otp (r : Req) (fails : Nat) (s : State) : (drawRunRun r fails s).after.otp = s.otp := by
  unfold drawRunRun
  (repeat' split) <;> simp

@[simp] theorem batchByState_otp (d : Draw) (fails : Nat) (s : State) : (batchByState d fails s).after.otp = s.otp := by
  unfold batchByState
  (repeat' split) <;> simp

@[simp] theorem instantBatchRun_otp (r : Req) (fails : Nat) (s : State) : (instantBatchRun r fails s).after.otp = s.otp := by
  unfold instantBatchRun
  (repeat' split) <;> simp

@[simp] theorem resumeWaiting_otp (x : Nat × Nat × Nat) (s : State) : (resumeWaiting x s).otp = s.otp := by
  unfold resumeWaiting
  split
  · simp
  · split <;> rename_i e <;> split at e <;> have h := congrArg (fun z => z.after.otp) e <;> simp at h <;> simp [h]

@[simp] theorem serveRuns_otp (s : State) : (serveRuns s).otp = s.otp := by
  unfold serveRuns
  simp [foldl_otp]

@[simp] theorem certify_otp (d : Draw) (seed : Bytes) (s : State) : (certify d seed s).otp = s.otp := by
  simp [certify]

@[simp] theorem certPart_otp (r : Req) (part : Bytes) (s : State) : (certPart r part s).after.otp = s.otp := by
  unfold certPart
  dsimp only
  (repeat' split) <;> simp

@[simp] theorem certificate_otp (r : Req) (d : Draw) (s : State) : (certificate r d s).after.otp = s.otp := by
  unfold certificate
  (repeat' split) <;> simp

@[simp] theorem drawCertRun_otp (r : Req) (s : State) : (drawCertRun r s).after.otp = s.otp := by
  unfold drawCertRun
  (repeat' split) <;> simp

@[simp] theorem voidDraw_otp (d : Draw) (reason : Nat) (s : State) : (voidDraw d reason s).otp = s.otp := by
  simp [voidDraw]

@[simp] theorem voidOrphaned_otp (s : State) : (voidOrphaned s).otp = s.otp := by
  unfold voidOrphaned
  simp [foldl_otp]

@[simp] theorem discardSeeds_otp (s : State) : (discardSeeds s).otp = s.otp := by
  unfold discardSeeds
  simp [foldl_otp]

@[simp] theorem recoverDraws_otp (s : State) : (recoverDraws s).otp = s.otp := by
  simp [recoverDraws]

@[simp] theorem recomputeBatch_otp (d : Draw) (seed : Bytes) (fails : Nat) (s : State) : (recomputeBatch d seed fails s).otp = s.otp := by
  simp [recomputeBatch]

@[simp] theorem resumeDraw_otp (d : Draw) (s : State) : (resumeDraw d s).otp = s.otp := by
  unfold resumeDraw
  (repeat' split) <;> simp

@[simp] theorem resumeDraws_otp (s : State) : (resumeDraws s).otp = s.otp := by
  unfold resumeDraws
  simp [foldl_otp]

@[simp] theorem bankAnswer_otp (b : Nat) (fail : Bool) (s : State) : (bankAnswer b fail s).otp = s.otp := by
  simp [bankAnswer]

@[simp] theorem bankDies_otp (b : Nat) (s : State) : (bankDies b s).otp = s.otp := by
  simp [bankDies]

@[simp] theorem suspendBank_otp (b : Nat) (s : State) : (suspendBank b s).otp = s.otp := by
  simp [suspendBank]

@[simp] theorem calibrate_otp (b : Nat) (s : State) : (calibrate b s).otp = s.otp := by
  simp [calibrate]

@[simp] theorem calibrateNext_otp (s : State) : (calibrateNext s).otp = s.otp := by
  unfold calibrateNext
  (repeat' split) <;> simp

@[simp] theorem startDeferred_otp (s : State) : (startDeferred s).otp = s.otp := by
  unfold startDeferred
  (repeat' split) <;> simp

@[simp] theorem bankChanged_otp (s : State) : (bankChanged s).otp = s.otp := by
  simp [bankChanged]

@[simp] theorem calibrationDue_otp (b : Nat) (s : State) : (calibrationDue b s).otp = s.otp := by
  simp [calibrationDue]

@[simp] theorem healthFails_otp (b : Nat) (streams : BitVec 32) (prop : Bool) (s : State) : (healthFails b streams prop s).otp = s.otp := by
  unfold healthFails
  simp [foldl_otp]

@[simp] theorem startBank_otp (b : Nat) (s : State) : (startBank b s).otp = s.otp := by
  simp [startBank]

theorem bankInput_grows {a} (b : Nat) (s : State) (h : Grows a s.otp) : Grows a (bankInput b s).otp := by
  unfold bankInput
  (repeat' split) <;> (try simp [-burn_otp]) <;>
    repeat' first
      | with_reducible exact Grows.refl _ | assumption | with_reducible apply foldl_grows | split | intro _
      | with_reducible apply raiseInput_grows | simp [-burn_otp]

@[simp] theorem noteTemp_otp (t : Nat) (s : State) : (noteTemp t s).otp = s.otp := by
  simp [noteTemp]

@[simp] theorem pkeLeaves_otp (k : Nat) (s : State) : (pkeLeaves k s).otp = s.otp := by
  simp [pkeLeaves]

@[simp] theorem dguLeaves_otp (k : Nat) (s : State) : (dguLeaves k s).otp = s.otp := by
  simp [dguLeaves]

@[simp] theorem startAgain_otp (p n : Nat) (s : State) : (startAgain p n s).otp = s.otp := by
  simp [startAgain]

@[simp] theorem laneClockOut_otp (s : State) : (laneClockOut s).otp = s.otp := by
  simp [laneClockOut]

@[simp] theorem laneLeavesFor_otp (cause : FailCause) (n : Nat) (s : State) : (laneLeavesFor cause n s).otp = s.otp := by
  unfold laneLeavesFor
  (repeat' split) <;> simp

@[simp] theorem domainLeaves_otp (n : Nat) (s : State) : (domainLeaves n s).otp = s.otp := by
  simp [domainLeaves]

@[simp] theorem t2Action_otp (t : TamperIn) (s : State) : (t2Action t s).otp = s.otp := by
  unfold t2Action
  (repeat' split) <;> simp

@[simp] theorem vbatFalls_otp (s : State) : (vbatFalls s).otp = s.otp := by
  simp [vbatFalls]

theorem takeInput_grows {a} (t : TamperIn) (fresh : Bool) (s : State) (h : Grows a s.otp) : Grows a (takeInput t fresh s).otp := by
  unfold takeInput
  (repeat' split) <;> (try simp [-burn_otp]) <;>
    repeat' first
      | with_reducible exact Grows.refl _ | assumption | with_reducible apply foldl_grows | split | intro _
      | with_reducible apply senseInput_grows | simp [-burn_otp]

theorem inFlush_grows {a} (t : TamperIn) (alone : TClass) (counts fresh : Bool) (s : State) (h : Grows a s.otp) :
    Grows a (inFlush t alone counts fresh s).otp := by
  unfold inFlush
  (repeat' split) <;> (try simp [-burn_otp]) <;>
    repeat' first
      | with_reducible exact Grows.refl _ | assumption | with_reducible apply foldl_grows | split | intro _
      | with_reducible apply burnTampered_grows | simp [-burn_otp]

@[simp] theorem latchReading_otp (code : Nat) (s : State) : (latchReading code s).otp = s.otp := by
  simp [latchReading]

theorem loopReading_grows {a} (sensor : Sensor) (ohms : Nat) (s : State) (h : Grows a s.otp) : Grows a (loopReading sensor ohms s).otp := by
  unfold loopReading
  (repeat' split) <;> (try simp [-burn_otp]) <;>
    repeat' first
      | with_reducible exact Grows.refl _ | assumption | with_reducible apply foldl_grows | split | intro _
      | with_reducible apply takeInput_grows | simp [-burn_otp]

@[simp] theorem writeGates_otp (g first : Nat) (es : List Bytes) (s : State) : (writeGates g first es s).otp = s.otp := by
  simp [writeGates]

@[simp] theorem gateWriteRun_otp (r : Req) (s : State) : (gateWriteRun r s).after.otp = s.otp := by
  unfold gateWriteRun
  dsimp only
  (repeat' split) <;> simp

@[simp] theorem gateReadRun_otp (r : Req) (s : State) : (gateReadRun r s).after.otp = s.otp := by
  unfold gateReadRun
  dsimp only
  (repeat' split) <;> simp

@[simp] theorem lockGates_otp (g first count : Nat) (mode : Bool) (s : State) : (lockGates g first count mode s).otp = s.otp := by
  unfold lockGates
  simp [foldl_otp]

@[simp] theorem gateLockRun_otp (r : Req) (s : State) : (gateLockRun r s).after.otp = s.otp := by
  unfold gateLockRun
  dsimp only
  (repeat' split) <;> simp

@[simp] theorem gateFaultsRun_otp (r : Req) (s : State) : (gateFaultsRun r s).after.otp = s.otp := by
  unfold gateFaultsRun
  dsimp only
  (repeat' split) <;> simp

@[simp] theorem gateSyncRun_otp (r : Req) (s : State) : (gateSyncRun r s).after.otp = s.otp := by
  unfold gateSyncRun
  dsimp only
  (repeat' split) <;> simp

@[simp] theorem lineEffect_otp (line : Nat) (reader : LineReader) (s : State) : (lineEffect line reader s).otp = s.otp := by
  unfold lineEffect
  (repeat' split) <;> simp

@[simp] theorem setPkg_otp (op : Nat) (r : Req) (b : Bytes) (s : State) : (setPkg op r b s).otp = s.otp := by
  simp [setPkg]

@[simp] theorem dropPkg_otp (r : Req) (s : State) : (dropPkg r s).otp = s.otp := by
  simp [dropPkg]

@[simp] theorem chunkRun_otp (op limit : Nat) (final : Bytes → State → Reply) (r : Req) (s : State) (h2 : ∀ (x2_0 : Bytes) (x2_1 :
    State), (final x2_0 x2_1).after.otp = x2_1.otp) : (chunkRun op limit final r s).after.otp = s.otp := by
  unfold chunkRun
  dsimp only
  (repeat' split) <;> simp_all

theorem burnRole_grows {a} (role slot : Nat) (key : Bytes) (s : State) (h : Grows a s.otp) : Grows a (burnRole role slot key s).otp := by
  unfold burnRole
  exact burn_grows _ _ _ (foldl_grows _ _ _ _ (fun t x => burn_grows _ _ _ (Grows.refl _)) h)

theorem burnRoles_grows {a} (p : Bytes) (s : State) (h : Grows a s.otp) : Grows a (burnRoles p s).otp := by
  unfold burnRoles
  refine foldl_grows _ _ _ _ (fun t x => ?_) h
  split
  · exact burnRole_grows _ _ _ _ (Grows.refl _)
  · exact Grows.refl _

theorem burnPolicy_grows {a} (p : Bytes) (s : State) (h : Grows a s.otp) : Grows a (burnPolicy p s).otp := by
  unfold burnPolicy
  (repeat' split) <;> (try simp [-burn_otp]) <;>
    repeat' first
      | with_reducible exact Grows.refl _ | assumption | with_reducible apply foldl_grows | split | intro _
      | with_reducible apply burn_grows | simp [-burn_otp]

theorem burnFlags_grows {a} (b : Nat) (s : State) (h : Grows a s.otp) : Grows a (burnFlags b s).otp := by
  unfold burnFlags
  (repeat' split) <;> (try simp [-burn_otp]) <;>
    repeat' first
      | with_reducible exact Grows.refl _ | assumption | with_reducible apply foldl_grows | split | intro _
      | with_reducible apply burn_grows | simp [-burn_otp]

theorem burnTransition_grows {a} (p : Bytes) (s : State) (h : Grows a s.otp) : Grows a (burnTransition p s).otp := by
  unfold burnTransition
  (repeat' split) <;> (try simp [-burn_otp]) <;>
    repeat' first
      | with_reducible exact Grows.refl _ | assumption | with_reducible apply foldl_grows | split | intro _
      | with_reducible apply burn_grows | with_reducible apply burnFlags_grows | with_reducible apply burnPolicy_grows
      | with_reducible apply burnRoles_grows | simp [-burn_otp]

theorem burnRequest_grows {a} (p : Bytes) (s : State) (h : Grows a s.otp) : Grows a (burnRequest p s).otp := by
  unfold burnRequest
  (repeat' split) <;> (try simp [-burn_otp]) <;>
    repeat' first
      | with_reducible exact Grows.refl _ | assumption | with_reducible apply foldl_grows | split | intro _
      | with_reducible apply burnFlags_grows | with_reducible apply burnRoles_grows | simp [-burn_otp]

@[simp] theorem recordRequest_otp (p : Bytes) (scrap : Bool) (s : State) : (recordRequest p scrap s).2.otp = s.otp := by
  unfold recordRequest
  (repeat' split) <;> simp

theorem transitionFinal_grows {a} (p : Bytes) (s : State) (h : Grows a s.otp) : Grows a (transitionFinal p s).after.otp := by
  unfold transitionFinal
  (repeat' split) <;> (try simp [-burn_otp]) <;>
    repeat' first
      | with_reducible exact Grows.refl _ | assumption | with_reducible apply foldl_grows | split | intro _
      | with_reducible apply burnTransition_grows | simp [-burn_otp]

theorem flagFinal_grows {a} (p : Bytes) (s : State) (h : Grows a s.otp) : Grows a (flagFinal p s).after.otp := by
  unfold flagFinal
  (repeat' split) <;> (try simp [-burn_otp]) <;>
    repeat' first
      | with_reducible exact Grows.refl _ | assumption | with_reducible apply foldl_grows | split | intro _
      | with_reducible apply burnRequest_grows | simp [-burn_otp]

theorem chunkRun_grows {a} {op l f r s} (hf : ∀ b t, Grows t.otp (f b t : Reply).after.otp) (h : Grows a s.otp) : Grows a (chunkRun op l f r s).after.otp := by
  unfold chunkRun
  dsimp only
  (repeat' split) <;> (try simp) <;> first | exact h | (refine Grows.trans ?_ (hf _ _); simpa using h) | skip

theorem lcTransitionRun_grows {a} (r : Req) (s : State) (h : Grows a s.otp) : Grows a (lcTransitionRun r s).after.otp := by
  unfold lcTransitionRun
  exact chunkRun_grows (fun x t => transitionFinal_grows _ _ (Grows.refl _)) h

@[simp] theorem acceptCert_otp (p : Bytes) (s : State) : (acceptCert p s).otp = s.otp := by
  simp [acceptCert]

@[simp] theorem certFinal_otp (p : Bytes) (s : State) : (certFinal p s).after.otp = s.otp := by
  unfold certFinal
  (repeat' split) <;> simp

@[simp] theorem dbgCertLoadRun_otp (r : Req) (s : State) : (dbgCertLoadRun r s).after.otp = s.otp := by
  unfold dbgCertLoadRun
  (repeat' split) <;> simp

@[simp] theorem leaveExtest_otp (s : State) : (leaveExtest s).otp = s.otp := by
  simp [leaveExtest]

@[simp] theorem selectIr_otp (code : Nat) (s : State) : (selectIr code s).otp = s.otp := by
  simp [selectIr]

@[simp] theorem selectBypassErr_otp (s : State) : (selectBypassErr s).otp = s.otp := by
  simp [selectBypassErr]

@[simp] theorem withRight_otp (mask code : Nat) (run : State → State) (s : State) (h2 : ∀ (x2_0 : State), (run x2_0).otp = x2_0.otp) :
    (withRight mask code run s).otp = s.otp := by
  unfold withRight
  simp_all

@[simp] theorem debugDenied_otp (a0 : Acc) (a1 a2 a3 : Nat) (a4 : State) : (debugDenied a0 a1 a2 a3 a4).otp = a4.otp := by
  simp [debugDenied]

@[simp] theorem debugAccess_otp (write : Bool) (addr : Nat) (data : Bytes) (s : State) : (debugAccess write addr data s).otp = s.otp := by
  unfold debugAccess
  dsimp only
  (repeat' split) <;> simp

@[simp] theorem coreStep_otp (op : CoreOp) (s : State) : (coreStep op s).otp = s.otp := by
  unfold coreStep
  (repeat' split) <;> simp

@[simp] theorem selectScan_otp (s : State) : (selectScan s).otp = s.otp := by
  simp [selectScan]

@[simp] theorem setSlot_otp (b : Bool) (st : FwState) (chk : Nat) (s : State) : (setSlot b st chk s).otp = s.otp := by
  simp [setSlot]

@[simp] theorem writeSlot_otp (off : Nat) (b : Bytes) (s : State) : (writeSlot off b s).otp = s.otp := by
  simp [writeSlot]

@[simp] theorem fwWriteRun_otp (r : Req) (s : State) : (fwWriteRun r s).after.otp = s.otp := by
  unfold fwWriteRun
  dsimp only
  (repeat' split) <;> first | (simp; done) | (rename_i e; have h := congrArg (fun z => z.2.otp) e; simp only [dmaRead_otp] at h; simp [h]; done) | (simp_all; done)

@[simp] theorem fwVerifyRun_otp (s : State) : (fwVerifyRun s).after.otp = s.otp := by
  unfold fwVerifyRun; dsimp only; split <;> (by_cases h : (slotState s (inactive s) == FwState.running) = true) <;> simp [h]

@[simp] theorem fwActivateRun_otp (s : State) : (fwActivateRun s).after.otp = s.otp := by
  unfold fwActivateRun
  dsimp only
  (repeat' split) <;> simp

@[simp] theorem fwCommitRun_otp (s : State) : (fwCommitRun s).after.otp = s.otp := by
  unfold fwCommitRun
  (repeat' split) <;> simp

@[simp] theorem storeRules_otp (b : Bytes) (s : State) : (storeRules b s).otp = s.otp := by
  simp [storeRules]

@[simp] theorem pruneOld_otp (s : State) : (pruneOld s).otp = s.otp := by
  simp [pruneOld]

@[simp] theorem rulesetLoadRun_otp (r : Req) (s : State) : (rulesetLoadRun r s).after.otp = s.otp := by
  unfold rulesetLoadRun
  dsimp only
  (repeat' split) <;> simp

@[simp] theorem rulesetQueryRun_otp (r : Req) (s : State) : (rulesetQueryRun r s).after.otp = s.otp := by
  unfold rulesetQueryRun
  (repeat' split) <;> simp

@[simp] theorem rulesetDeleteRun_otp (r : Req) (s : State) : (rulesetDeleteRun r s).after.otp = s.otp := by
  unfold rulesetDeleteRun
  dsimp only
  (repeat' split) <;> simp

@[simp] theorem answerSync_otp (s : State) : (answerSync s).otp = s.otp := by
  simp [answerSync]

@[simp] theorem ctrReadRun_otp (r : Req) (s : State) : (ctrReadRun r s).after.otp = s.otp := by
  unfold ctrReadRun
  (repeat' split) <;> simp

@[simp] theorem journalQueryRun_otp (r : Req) (s : State) : (journalQueryRun r s).after.otp = s.otp := by
  unfold journalQueryRun
  (repeat' split) <;> simp

@[simp] theorem buildSegment_otp (r : Req) (k : Nat) (s : State) : (buildSegment r k s).after.otp = s.otp := by
  unfold buildSegment
  dsimp only
  (repeat' split) <;> simp

@[simp] theorem readSegment_otp (r : Req) (seg : Bytes) (s : State) : (readSegment r seg s).after.otp = s.otp := by
  unfold readSegment
  dsimp only
  (repeat' split) <;> simp

@[simp] theorem journalExportRun_otp (r : Req) (s : State) : (journalExportRun r s).after.otp = s.otp := by
  unfold journalExportRun
  (repeat' split) <;> simp

@[simp] theorem retireDraws_otp (s : State) : (retireDraws s).otp = s.otp := by
  simp [retireDraws]

@[simp] theorem reclaim_otp (seg : Segment) (n : Nat) (s : State) : (reclaim seg n s).otp = s.otp := by
  simp [reclaim]

@[simp] theorem journalReclaimRun_otp (r : Req) (s : State) : (journalReclaimRun r s).after.otp = s.otp := by
  unfold journalReclaimRun
  (repeat' split) <;> simp

@[simp] theorem journalSyncRun_otp (s : State) : (journalSyncRun s).after.otp = s.otp := by
  unfold journalSyncRun
  dsimp only
  (repeat' split) <;> simp

@[simp] theorem journalClaimRun_otp (r : Req) (s : State) : (journalClaimRun r s).after.otp = s.otp := by
  unfold journalClaimRun
  (repeat' split) <;> simp

@[simp] theorem deferTest_otp (target unit : Nat) (s : State) : (deferTest target unit s).after.otp = s.otp := by
  simp [deferTest]

@[simp] theorem testSlot_otp (target unit p : Nat) (force : Bool) (s : State) : (testSlot target unit p force s).after.otp = s.otp := by
  unfold testSlot
  (repeat' split) <;> simp

@[simp] theorem testOfLane_otp (n : Nat) (force : Bool) (s : State) : (testOfLane n force s).after.otp = s.otp := by
  unfold testOfLane
  (repeat' split) <;> simp

@[simp] theorem testOfBank_otp (b : Nat) (force : Bool) (s : State) : (testOfBank b force s).after.otp = s.otp := by
  unfold testOfBank
  (repeat' split) <;> simp

@[simp] theorem testOfPke_otp (k : Nat) (force : Bool) (s : State) : (testOfPke k force s).after.otp = s.otp := by
  unfold testOfPke
  dsimp only
  (repeat' split) <;> simp

@[simp] theorem testOfCap_otp (cap : CapReading) (s : State) : (testOfCap cap s).after.otp = s.otp := by
  simp [testOfCap]

@[simp] theorem selftestRun_otp (r : Req) (cap : CapReading) (s : State) : (selftestRun r cap s).after.otp = s.otp := by
  unfold selftestRun
  dsimp only
  (repeat' split) <;> simp

@[simp] theorem drive_otp (w : Nat) (s : State) : (drive w s).otp = s.otp := by
  simp [drive]

theorem mpFaulted_grows {a} (f : GateFault) (write : Bool) (s : State) (h : Grows a s.otp) : Grows a (mpFaulted f write s).otp := by
  unfold mpFaulted
  (repeat' split) <;> (try simp [-burn_otp]) <;>
    repeat' first
      | with_reducible exact Grows.refl _ | assumption | with_reducible apply foldl_grows | split | intro _
      | with_reducible apply raiseInput_grows | simp [-burn_otp]

theorem mpCycle_grows {a} (word : Nat) (write : Bool) (f : State → State) (s : State) (h2 : ∀ (x2_0 :
    State), Grows x2_0.otp (f x2_0).otp) (h : Grows a s.otp) : Grows a (mpCycle word write f s).otp := by
  unfold mpCycle
  (repeat' split) <;> (try simp [-burn_otp]) <;>
    repeat' first
      | with_reducible exact Grows.refl _ | assumption | with_reducible apply foldl_grows | split | intro _
      | refine Grows.trans ?_ (h2 _) | with_reducible apply mpFaulted_grows | simp [-burn_otp]

theorem readCycle_grows {a} (word : Nat) (f : State → State) (s : State) (h1 : ∀ (x1_0 : State), Grows x1_0.otp (f x1_0).otp) (h :
    Grows a s.otp) : Grows a (readCycle word f s).otp := by
  unfold readCycle
  (repeat' split) <;> (try simp [-burn_otp]) <;>
    repeat' first
      | with_reducible exact Grows.refl _ | assumption | with_reducible apply foldl_grows | split | intro _
      | refine Grows.trans ?_ (h1 _) | with_reducible apply mpCycle_grows | simp [-burn_otp]

theorem writeCycle_grows {a} (word : Nat) (f : State → State) (s : State) (h1 : ∀ (x1_0 : State), Grows x1_0.otp (f x1_0).otp) (h :
    Grows a s.otp) : Grows a (writeCycle word f s).otp := by
  unfold writeCycle
  (repeat' split) <;> (try simp [-burn_otp]) <;>
    repeat' first
      | with_reducible exact Grows.refl _ | assumption | with_reducible apply foldl_grows | split | intro _
      | refine Grows.trans ?_ (h1 _) | with_reducible apply mpCycle_grows | simp [-burn_otp]

@[simp] theorem modDgu_otp (f : Dgu → Dgu) (s : State) : (modDgu f s).otp = s.otp := by
  simp [modDgu]

theorem dguAccess_grows {a} (p : DgParty) (off : Nat) (f : Dgu → Dgu) (s : State) (h : Grows a s.otp) :
    Grows a (dguAccess p off f s).otp := by
  unfold dguAccess
  (repeat' split) <;> (try simp [-burn_otp]) <;>
    repeat' first
      | with_reducible exact Grows.refl _ | assumption | with_reducible apply foldl_grows | split | intro _
      | with_reducible apply writeCycle_grows | simp [-burn_otp]

@[simp] theorem dguPortWrite_otp (off : Nat) (data : BitVec 16) (be : BitVec 2) (s : State) : (dguPortWrite off data be s).otp = s.otp := by
  simp [dguPortWrite]

@[simp] theorem dguPortRead_otp (off : Nat) (s : State) : (dguPortRead off s).otp = s.otp := by
  simp [dguPortRead]

@[simp] theorem writeKey_otp (n : NewKey) (i : Nat) (s : State) : (writeKey n i s).otp = s.otp := by
  simp [writeKey]

@[simp] theorem writeSession_otp (n : NewKey) (i : Nat) (s : State) : (writeSession n i s).otp = s.otp := by
  simp [writeSession]

@[simp] theorem createKey_otp (n : NewKey) (s : State) : (createKey n s).after.otp = s.otp := by
  unfold createKey
  (repeat' split) <;> simp

@[simp] theorem keyDeriveRun_otp (r : Req) (s : State) : (keyDeriveRun r s).after.otp = s.otp := by
  unfold keyDeriveRun
  dsimp only
  (repeat' split) <;> simp

@[simp] theorem importFinal_otp (r : Req) (p : Bytes) (s : State) : (importFinal r p s).after.otp = s.otp := by
  unfold importFinal
  (repeat' split) <;> simp

@[simp] theorem dropHot_otp (p : HotSlot → Bool) (s : State) : (dropHot p s).otp = s.otp := by
  simp [dropHot]

@[simp] theorem invalidateKey_otp (i keyId : Nat) (s : State) : (invalidateKey i keyId s).otp = s.otp := by
  simp [invalidateKey]

@[simp] theorem invalidateSession_otp (a0 a1 : Nat) (a2 : State) : (invalidateSession a0 a1 a2).otp = a2.otp := by
  simp [invalidateSession]

@[simp] theorem invalidatePersistent_otp (r : Req) (i : Nat) (s : State) : (invalidatePersistent r i s).after.otp = s.otp := by
  unfold invalidatePersistent
  (repeat' split) <;> simp

@[simp] theorem keyInvalidateRun_otp (r : Req) (s : State) : (keyInvalidateRun r s).after.otp = s.otp := by
  unfold keyInvalidateRun
  dsimp only
  (repeat' split) <;> simp

@[simp] theorem keyQueryRun_otp (r : Req) (s : State) : (keyQueryRun r s).after.otp = s.otp := by
  unfold keyQueryRun
  dsimp only
  (repeat' split) <;> simp

@[simp] theorem devPubkeysRun_otp (r : Req) (s : State) : (devPubkeysRun r s).after.otp = s.otp := by
  unfold devPubkeysRun
  dsimp only
  (repeat' split) <;> simp

@[simp] theorem devChallengeRun_otp (s : State) : (devChallengeRun s).after.otp = s.otp := by
  unfold devChallengeRun
  (repeat' split) <;> simp

@[simp] theorem windowRead_otp (c k : Nat) (s : State) : (windowRead c k s).otp = s.otp := by
  simp [windowRead]

@[simp] theorem addCounter_otp (c v : Nat) (s : State) : (addCounter c v s).otp = s.otp := by
  simp [addCounter]

@[simp] theorem increment_otp (c v : Nat) (be : BitVec 2) (s : State) : (increment c v be s).otp = s.otp := by
  simp [increment]

@[simp] theorem tvRead_otp (spaced : Bool) (s : State) : (tvRead spaced s).otp = s.otp := by
  simp [tvRead]

@[simp] theorem portRead_otp (word : Nat) (s : State) : (portRead word s).otp = s.otp := by
  simp [portRead]

@[simp] theorem portWrite_otp (word : Nat) (data : BitVec 16) (be : BitVec 2) (s : State) : (portWrite word data be s).otp = s.otp := by
  simp [portWrite]

@[simp] theorem meterReadRun_otp (r : Req) (s : State) : (meterReadRun r s).after.otp = s.otp := by
  unfold meterReadRun
  (repeat' split) <;> simp

@[simp] theorem meterWriteRun_otp (r : Req) (s : State) : (meterWriteRun r s).after.otp = s.otp := by
  unfold meterWriteRun
  dsimp only
  (repeat' split) <;> simp

@[simp] theorem applyProtection_otp (level hide : Nat) (s : State) : (applyProtection level hide s).otp = s.otp := by
  simp [applyProtection]

@[simp] theorem meterProtectRun_otp (r : Req) (s : State) : (meterProtectRun r s).after.otp = s.otp := by
  unfold meterProtectRun
  dsimp only
  (repeat' split) <;> simp

@[simp] theorem takeFrame_otp (qix : Nat) (e src : Bytes) (pool : Bool) (s : State) : (takeFrame qix e src pool s).otp = s.otp := by
  simp [takeFrame]

@[simp] theorem usbSubmit_otp (frame : Bytes) (s : State) : (usbSubmit frame s).otp = s.otp := by
  simp [usbSubmit]

@[simp] theorem spiDrop_otp (s : State) : (spiDrop s).otp = s.otp := by
  simp [spiDrop]

@[simp] theorem spiSeen_otp (s : State) : (spiSeen s).otp = s.otp := by
  simp [spiSeen]

@[simp] theorem storeCfg_otp (f off : Nat) (m v : BitVec 32) (s : State) : (storeCfg f off m v s).otp = s.otp := by
  simp [storeCfg]

@[simp] theorem writePower_otp (v : BitVec 32) (s : State) : (writePower v s).otp = s.otp := by
  simp [writePower]

@[simp] theorem writeVfEnable_otp (v : BitVec 32) (s : State) : (writeVfEnable v s).otp = s.otp := by
  unfold writeVfEnable
  simp [foldl_otp]

@[simp] theorem cfgEffect_otp (f off : Nat) (m v : BitVec 32) (s : State) : (cfgEffect f off m v s).otp = s.otp := by
  unfold cfgEffect
  (repeat' split) <;> simp

@[simp] theorem configWrite_otp (f off size : Nat) (v : BitVec 32) (s : State) : (configWrite f off size v s).otp = s.otp := by
  simp [configWrite]

@[simp] theorem clearDevEvent_otp (f : Nat) (v : BitVec 32) (s : State) : (clearDevEvent f v s).otp = s.otp := by
  simp [clearDevEvent]

@[simp] theorem setIrqEn_otp (f : Nat) (v : BitVec 32) (s : State) : (setIrqEn f v s).otp = s.otp := by
  simp [setIrqEn]

@[simp] theorem writeBuf_otp (f n off : Nat) (b : Bytes) (s : State) : (writeBuf f n off b s).otp = s.otp := by
  simp [writeBuf]

@[simp] theorem writeMsix_otp (f n word : Nat) (v : BitVec 32) (s : State) : (writeMsix f n word v s).otp = s.otp := by
  unfold writeMsix
  (repeat' split) <;> simp

@[simp] theorem write4_otp (off : Nat) (v : BitVec 32) (s : State) : (write4 off v s).otp = s.otp := by
  simp [write4]

@[simp] theorem writeBar4_otp (off size : Nat) (v : BitVec 64) (s : State) : (writeBar4 off size v s).otp = s.otp := by
  simp [writeBar4]

@[simp] theorem returned_otp (v : Nat) (s : State) : (returned v s).otp = s.otp := by
  simp [returned]

@[simp] theorem readBar0_otp (f off size : Nat) (s : State) : (readBar0 f off size s).otp = s.otp := by
  simp [readBar0]

@[simp] theorem readBar4_otp (off size : Nat) (s : State) : (readBar4 off size s).otp = s.otp := by
  simp [readBar4]

@[simp] theorem readConfig_otp (f off size : Nat) (s : State) : (readConfig f off size s).otp = s.otp := by
  simp [readConfig]

@[simp] theorem hostRegRead_otp (fn : Nat) (space : Space) (off size : Nat) (s : State) :
    (hostRegRead fn space off size s).otp = s.otp := by
  unfold hostRegRead
  (repeat' split) <;> simp

@[simp] theorem enableFns_otp (s : State) : (enableFns s).otp = s.otp := by
  simp [enableFns]

@[simp] theorem becomeReady_otp (s : State) : (becomeReady s).otp = s.otp := by
  simp [becomeReady]

@[simp] theorem becomeComplete_otp (s : State) : (becomeComplete s).otp = s.otp := by
  simp [becomeComplete]

@[simp] theorem leaveStandby_otp (s : State) : (leaveStandby s).otp = s.otp := by
  unfold leaveStandby
  simp [foldl_otp]

theorem completeBurns_grows {a} (s : State) (h : Grows a s.otp) : Grows a (completeBurns s).otp := by
  unfold completeBurns
  (repeat' split) <;> (try simp [-burn_otp]) <;>
    repeat' first
      | with_reducible exact Grows.refl _ | assumption | with_reducible apply foldl_grows | split | intro _
      | with_reducible apply burn_grows | simp [-burn_otp]

theorem decodeOtp_grows {a} (s : State) (h : Grows a s.otp) : Grows a (decodeOtp s).otp := by
  unfold decodeOtp
  (repeat' split) <;> (try simp [-burn_otp]) <;>
    repeat' first
      | with_reducible exact Grows.refl _ | assumption | with_reducible apply foldl_grows | split | intro _
      | with_reducible apply completeBurns_grows | simp [-burn_otp]

@[simp] theorem wipeProvision_otp (s : State) : (wipeProvision s).otp = s.otp := by
  simp [wipeProvision]

@[simp] theorem wipeIfProvision_otp (s : State) : (wipeIfProvision s).otp = s.otp := by
  simp [wipeIfProvision]

@[simp] theorem modCopy_otp (n copy : Nat) (f : CtrCopy → CtrCopy) (s : State) : (modCopy n copy f s).otp = s.otp := by
  simp [modCopy]

@[simp] theorem damageCounter_otp (a0 : State) (a1 : Damage) : (damageCounter a0 a1).otp = a0.otp := by
  unfold damageCounter
  (repeat' split) <;> simp

@[simp] theorem resolveCounters_otp (s : State) : (resolveCounters s).otp = s.otp := by
  simp [resolveCounters]

@[simp] theorem firstCounters_otp (s : State) : (firstCounters s).otp = s.otp := by
  simp [firstCounters]

@[simp] theorem restoreClocks_otp (s : State) : (restoreClocks s).otp = s.otp := by
  simp [restoreClocks]

@[simp] theorem nextCycle_otp (s : State) : (nextCycle s).otp = s.otp := by
  simp [nextCycle]

@[simp] theorem nextEpoch_otp (s : State) : (nextEpoch s).otp = s.otp := by
  simp [nextEpoch]

@[simp] theorem tornEvent_otp (ds : List Damage) (r : Nat × (Nat × Nat) × Bool) (s : State) : (tornEvent ds r s).otp = s.otp := by
  simp [tornEvent]

@[simp] theorem recoverEvents_otp (ds : List Damage) (s : State) : (recoverEvents ds s).otp = s.otp := by
  simp [recoverEvents]

@[simp] theorem recordEvt_otp (e : Evt) (s : State) : (recordEvt e s).otp = s.otp := by
  simp [recordEvt]

@[simp] theorem recordHeld_otp (s : State) : (recordHeld s).otp = s.otp := by
  unfold recordHeld
  simp [foldl_otp]

@[simp] theorem haltStart_otp (s : State) : (haltStart s).otp = s.otp := by
  simp [haltStart]

@[simp] theorem holdInvalidates_otp (s : State) : (holdInvalidates s).otp = s.otp := by
  simp [holdInvalidates]

theorem startRespond_grows {a} (c : TClass) (persists : Bool) (note : Nat → Nat → State → State) (bits : Nat) (act : State → State) (s :
    State) (h2 : ∀ (x2_0 x2_1 : Nat) (x2_2 : State), Grows x2_2.otp (note x2_0 x2_1 x2_2).otp) (h4 : ∀ (x4_0 : State), Grows x4_0.otp (act x4_0).otp) (h : Grows a s.otp) : Grows a (startRespond c persists note bits act s).otp := by
  unfold startRespond
  (repeat' split) <;> (try simp [-burn_otp]) <;>
    repeat' first
      | with_reducible exact Grows.refl _ | assumption | with_reducible apply foldl_grows | split | intro _
      | refine Grows.trans ?_ (h2 _ _ _) | refine Grows.trans ?_ (h4 _) | with_reducible apply burnTampered_grows | simp [-burn_otp]

theorem startInput_grows {a} (t : TamperIn) (s : State) (h : Grows a s.otp) : Grows a (startInput t s).otp := by
  unfold startInput
  (repeat' split) <;> (try simp [-burn_otp]) <;>
    repeat' first
      | with_reducible exact Grows.refl _ | assumption | with_reducible apply foldl_grows | split | intro _
      | with_reducible apply startRespond_grows | simp [-burn_otp]

theorem startLatched_grows {a} (l : Nat × Nat × Nat) (s : State) (h : Grows a s.otp) : Grows a (startLatched l s).otp := by
  unfold startLatched
  (repeat' split) <;> (try simp [-burn_otp]) <;>
    repeat' first
      | with_reducible exact Grows.refl _ | assumption | with_reducible apply foldl_grows | split | intro _
      | with_reducible apply startRespond_grows | simp [-burn_otp]

theorem readLatch_grows {a} (s : State) (h : Grows a s.otp) : Grows a (readLatch s).otp := by
  unfold readLatch
  (repeat' split) <;> (try simp [-burn_otp]) <;>
    repeat' first
      | with_reducible exact Grows.refl _ | assumption | with_reducible apply foldl_grows | split | intro _
      | with_reducible apply startLatched_grows | simp [-burn_otp]

theorem readSensors_grows {a} (attacks : List (Sensor × Nat)) (s : State) (h : Grows a s.otp) : Grows a (readSensors attacks s).otp := by
  unfold readSensors
  (repeat' split) <;> (try simp [-burn_otp]) <;>
    repeat' first
      | with_reducible exact Grows.refl _ | assumption | with_reducible apply foldl_grows | split | intro _
      | with_reducible apply startInput_grows | simp [-burn_otp]

theorem recordSplits_grows {a} (fs : List (Nat × Nat)) (s : State) (h : Grows a s.otp) : Grows a (recordSplits fs s).otp := by
  unfold recordSplits
  (repeat' split) <;> (try simp [-burn_otp]) <;>
    repeat' first
      | with_reducible exact Grows.refl _ | assumption | with_reducible apply foldl_grows | split | intro _
      | with_reducible apply startInput_grows | simp [-burn_otp]

@[simp] theorem epochEvents_otp (s : State) : (epochEvents s).otp = s.otp := by
  simp [epochEvents]

@[simp] theorem tornMeterPage_otp (p : Nat) (words : List Nat) (s : State) : (tornMeterPage p words s).otp = s.otp := by
  simp [tornMeterPage]

@[simp] theorem loadMeter_otp (ds : List Damage) (s : State) : (loadMeter ds s).otp = s.otp := by
  unfold loadMeter
  simp only []
  rw [applyProtection_otp]
  refine (foldl_otp _ _ _ fun t x => ?_).trans rfl
  (repeat' split) <;> simp

@[simp] theorem startCap_otp (cap : CapReading) (s : State) : (startCap cap s).otp = s.otp := by
  unfold startCap
  dsimp only
  (repeat' split) <;> simp

@[simp] theorem damageSel_otp (a0 : State) (a1 : Damage) : (damageSel a0 a1).otp = a0.otp := by
  unfold damageSel
  (repeat' split) <;> simp

@[simp] theorem judgeSlot_otp (b : Bool) (s : State) : (judgeSlot b s).2.otp = s.otp := by
  unfold judgeSlot
  (repeat' split) <;> simp

@[simp] theorem runImage_otp (b : Bool) (m : FwMode) (s : State) : (runImage b m s).otp = s.otp := by
  simp [runImage]

@[simp] theorem enterRecovery_otp (s : State) : (enterRecovery s).otp = s.otp := by
  simp [enterRecovery]

@[simp] theorem selectActive_otp (s : State) : (selectActive s).otp = s.otp := by
  simp [selectActive]

@[simp] theorem selectImage_otp (s : State) : (selectImage s).otp = s.otp := by
  unfold selectImage
  dsimp only
  (repeat' split) <;> simp

@[simp] theorem cutFlush_otp (n : Nat) (word : Option (BitVec 5)) (r : WordRead) (s : State) : (cutFlush n word r s).otp = s.otp := by
  unfold cutFlush
  (repeat' split) <;> simp

@[simp] theorem damageFlush_otp (a0 : State) (a1 : Damage) : (damageFlush a0 a1).otp = a0.otp := by
  unfold damageFlush
  (repeat' split) <;> simp

@[simp] theorem beginStart_otp (temp : Nat) (s : State) : (beginStart temp s).otp = s.otp := by
  simp [beginStart]

@[simp] theorem startCounters_otp (ds : List Damage) (s : State) : (startCounters ds s).otp = s.otp := by
  unfold startCounters
  simp [foldl_otp]

@[simp] theorem raiseMpValid_otp (s : State) : (raiseMpValid s).otp = s.otp := by
  simp [raiseMpValid]

theorem bootSteps_grows {a} (f : StartFacts) (s : State) (h : Grows a s.otp) : Grows a (bootSteps f s).otp := by
  unfold bootSteps
  (repeat' split) <;> (try simp [-burn_otp]) <;>
    repeat' first
      | with_reducible exact Grows.refl _ | assumption | with_reducible apply foldl_grows | split | intro _
      | with_reducible apply decodeOtp_grows | with_reducible apply readLatch_grows | with_reducible apply readSensors_grows
      | with_reducible apply recordSplits_grows | simp [-burn_otp]

@[simp] theorem damageCtl_otp (a0 : State) (a1 : Damage) : (damageCtl a0 a1).otp = a0.otp := by
  unfold damageCtl
  (repeat' split) <;> simp

@[simp] theorem initJournal_otp (s : State) : (initJournal s).otp = s.otp := by
  simp [initJournal]

@[simp] theorem scanJournal_otp (s : State) : (scanJournal s).otp = s.otp := by
  simp [scanJournal]

@[simp] theorem seqEvents_otp (s : State) : (seqEvents s).otp = s.otp := by
  simp [seqEvents]

@[simp] theorem recoverJournal_otp (ds : List Damage) (s0 : State) : (recoverJournal ds s0).otp = s0.otp := by
  unfold recoverJournal
  simp [foldl_otp]

@[simp] theorem testFails_otp (unit index : Nat) (s : State) : (testFails unit index s).otp = s.otp := by
  simp [testFails]

theorem startBankInput_grows {a} (b : Nat) (s : State) (h : Grows a s.otp) : Grows a (startBankInput b s).otp := by
  unfold startBankInput
  (repeat' split) <;> (try simp [-burn_otp]) <;>
    repeat' first
      | with_reducible exact Grows.refl _ | assumption | with_reducible apply foldl_grows | split | intro _
      | with_reducible apply startInput_grows | simp [-burn_otp]

theorem startNoise_grows {a} (b : Nat) (f : BankFact) (s : State) (h : Grows a s.otp) : Grows a (startNoise b f s).otp := by
  unfold startNoise
  (repeat' split) <;> (try simp [-burn_otp]) <;>
    repeat' first
      | with_reducible exact Grows.refl _ | assumption | with_reducible apply foldl_grows | split | intro _
      | with_reducible apply startBankInput_grows | simp [-burn_otp]

@[simp] theorem seedLane_otp (n : Nat) (s : State) : (seedLane n s).otp = s.otp := by
  simp [seedLane]

@[simp] theorem fillSlots_otp (pass : List Nat) (s : State) : (fillSlots pass s).otp = s.otp := by
  unfold fillSlots; split
  · rw [foldl_otp]; intros; split <;> simp
  · rfl

@[simp] theorem startLanes_otp (lanes : BitVec 8) (s : State) : (startLanes lanes s).otp = s.otp := by
  unfold startLanes
  simp [foldl_otp]

@[simp] theorem startUnits_otp (f : StartFacts) (s : State) : (startUnits f s).otp = s.otp := by
  simp [startUnits]

@[simp] theorem startFailed_otp (fs : List (Nat × Nat)) (s : State) : (startFailed fs s).otp = s.otp := by
  unfold startFailed
  simp [foldl_otp]

theorem startTests_grows {a} (f : StartFacts) (s : State) (h : Grows a s.otp) : Grows a (startTests f s).otp := by
  unfold startTests
  (repeat' split) <;> (try simp [-burn_otp]) <;>
    repeat' first
      | with_reducible exact Grows.refl _ | assumption | with_reducible apply foldl_grows | split | intro _
      | with_reducible apply startNoise_grows | simp [-burn_otp]

theorem burnRoot_grows {a} (k : Nat) (s : State) (h : Grows a s.otp) : Grows a (burnRoot k s).otp := by
  unfold burnRoot
  refine burn_grows _ _ _ (foldl_grows _ _ _ _ (fun t x => burn_grows _ _ _ (Grows.refl _)) ?_)
  simpa using h

@[simp] theorem useRoot_otp (k : Nat) (s : State) : (useRoot k s).otp = s.otp := by
  simp [useRoot]

@[simp] theorem useTestRoot_otp (s : State) : (useTestRoot s).otp = s.otp := by
  simp [useTestRoot]

theorem readRoot_grows {a} (s : State) (h : Grows a s.otp) : Grows a (readRoot s).otp := by
  unfold readRoot
  (repeat' split) <;> (try simp only [useTestRoot_otp, useRoot_otp, unitFails_otp]) <;> first | with_reducible exact h | with_reducible exact burnRoot_grows _ _ h

@[simp] theorem damageKeys_otp (a0 : State) (a1 : Damage) : (damageKeys a0 a1).otp = a0.otp := by
  unfold damageKeys
  (repeat' split) <;> simp

theorem reportSplit_grows {a} (α : Type) (record i : Nat) (p : AB α) (s : State) (h : Grows a s.otp) :
    Grows a (reportSplit record i p s).otp := by
  unfold reportSplit; dsimp only
  exact startInput_grows _ _ (by simpa using h)

@[simp] theorem reportCounts_otp (ds : List Damage) (s : State) : (reportCounts ds s).otp = s.otp := by
  unfold reportCounts
  refine foldl_otp _ _ _ fun t x => ?_
  split <;> rfl

theorem resolveRecords_grows {a} (s : State) (h : Grows a s.otp) : Grows a (resolveRecords s).otp := by
  unfold resolveRecords
  simp only []
  split <;> (try rw [unitFails_otp]) <;>
    refine foldl_grows _ _ _ _ (fun t x => ?_) (foldl_grows _ _ _ _ (fun t x => ?_) h) <;>
    beta_reduce <;>
    exact reportSplit_grows _ _ _ _ _ (Grows.refl _)

@[simp] theorem redoInvalidate_otp (s : State) (e : Entry) : (redoInvalidate s e).otp = s.otp := by
  simp [redoInvalidate]

theorem unsealKeys_grows {a} (ds : List Damage) (s : State) (h : Grows a s.otp) : Grows a (unsealKeys ds s).otp := by
  unfold unsealKeys
  (repeat' split) <;> (try simp [-burn_otp]) <;>
    repeat' first
      | with_reducible exact Grows.refl _ | assumption | with_reducible apply foldl_grows | split | intro _
      | with_reducible apply resolveRecords_grows | with_reducible apply readRoot_grows | simp [-burn_otp]

@[simp] theorem startDomains_otp (s : State) : (startDomains s).otp = s.otp := by
  simp [startDomains]

@[simp] theorem startGates_otp (s : State) : (startGates s).otp = s.otp := by
  simp [startGates]

@[simp] theorem writeOneHeld_otp (t : State) (e : Nat × Nat × Bytes) : (writeOneHeld t e).otp = t.otp := by
  simp [writeOneHeld]

@[simp] theorem writeHeld_otp (s : State) : (writeHeld s).otp = s.otp := by
  unfold writeHeld
  simp [foldl_otp]

@[simp] theorem writeDeviceKeys_otp (s : State) : (writeDeviceKeys s).otp = s.otp := by
  simp [writeDeviceKeys]

@[simp] theorem startDraws_otp (s : State) : (startDraws s).otp = s.otp := by
  simp [startDraws]

@[simp] theorem endRecovery_otp (flags prev : Nat) (s : State) : (endRecovery flags prev s).otp = s.otp := by
  simp [endRecovery]

@[simp] theorem restage_otp (s : State) : (restage s).otp = s.otp := by
  unfold restage
  simp [foldl_otp]

@[simp] theorem startPeriods_otp (s : State) : (startPeriods s).otp = s.otp := by
  simp [startPeriods]

@[simp] theorem endStart_otp (flags prev : Nat) (s : State) : (endStart flags prev s).otp = s.otp := by
  simp [endStart]

@[simp] theorem failDram_otp (f : StartFacts) (s : State) : (failDram f s).otp = s.otp := by
  unfold failDram
  simp [foldl_otp]

theorem startSteps_grows {a} (f : StartFacts) (s : State) (h : Grows a s.otp) : Grows a (startSteps f s).otp := by
  unfold startSteps
  (repeat' split) <;> (try simp [-burn_otp]) <;>
    repeat' first
      | with_reducible exact Grows.refl _ | assumption | with_reducible apply foldl_grows | split | intro _
      | with_reducible apply bootSteps_grows | with_reducible apply startTests_grows | with_reducible apply unsealKeys_grows | simp [-burn_otp]

theorem scrapOtp_grows (o : Tab (BitVec 64)) : Grows o (scrapOtp o) := by
  refine ⟨fun w i hw hb => ?_⟩
  have key : ∀ (l : List Nat) (f : Nat → BitVec 64), l.Nodup → w ∈ l → tgetD ((l.map fun k => (k, f k)).filter fun e => e.2 ≠ 0) w 0 = f w := by
    intro l f hn hm
    induction l with
    | nil => simp at hm
    | cons k l ih =>
      simp only [List.map_cons, List.filter_cons]
      by_cases e : w = k
      · subst e
        have hno : w ∉ l := (List.nodup_cons.1 hn).1
        by_cases z : f w = 0
        · simp only [z, ne_eq, not_true_eq_false, decide_false, Bool.false_eq_true, if_false]
          have : ∀ l : List Nat, w ∉ l → tget ((l.map fun k => (k, f k)).filter fun e => e.2 ≠ 0) w = none := by
            intro l hl
            induction l with
            | nil => rfl
            | cons k l ih =>
              simp only [List.mem_cons, not_or] at hl
              simp only [List.map_cons, List.filter_cons]
              split
              · simp [tget, hl.1]; simpa using ih hl.2
              · exact ih hl.2
          simp [tgetD]
          have := this l hno
          simp at this
          simp [this]
        · have z' : ¬ f w = 0#64 := z
          simp [z', tgetD, tget]
      · have hm' : w ∈ l := by simpa [e] using hm
        have := ih (List.nodup_cons.1 hn).2 hm'
        split
        · simp only [tgetD, tget, if_neg e]; exact this
        · exact this
  unfold scrapOtp
  rw [key _ (fun w => if scrapKeeps w then tgetD o w 0 else BitVec.allOnes 64) List.nodup_range (List.mem_range.2 hw)]
  split
  · exact hb
  · rw [BitVec.getLsbD_allOnes]
    have : i < 64 := by
      by_contra hc
      rw [BitVec.getLsbD_of_ge _ _ (by omega)] at hb; cases hb
    simpa using this

theorem scrapSteps_grows {a} (cap : CapReading) (s : State) (h : Grows a s.otp) : Grows a (scrapSteps cap s).otp := by
  unfold scrapSteps; dsimp only
  refine Grows.trans (b := (completeBurns (beginStart s.pwr.tempNow s)).otp) (completeBurns_grows _ (by simpa using h)) ?_
  refine Grows.trans ?_ (scrapOtp_grows _)
  rw [startCap_otp]
  exact Grows.refl _

@[simp] theorem offSecond_otp (s : State) : (offSecond s).otp = s.otp := by
  simp [offSecond]

@[simp] theorem dipEnds_otp (s : State) : (dipEnds s).otp = s.otp := by
  simp [dipEnds]

@[simp] theorem tick_otp (s : State) : (tick s).otp = s.otp := by
  unfold tick
  (repeat' split) <;> simp

@[simp] theorem State_withFetchWord_otp (s : State) (nbits w : Nat) : (State.withFetchWord s nbits w).otp = s.otp := by
  unfold State.withFetchWord
  (repeat' split) <;> simp

end Sys2Proof.Machine
end

