-- ==== Sys2Proof/Machine/Views.lean ====
section
/-! DEFINITION. What stands in the memory dies and what shows at the balls and on the USB control endpoint: the stored form of a DRAM line and of
an MRAM word (R14, R25, R31, R253, R323 to R325, R392), the pins (R36, R63), the USB descriptors (R108). All of it is computed from the state. -/

namespace Sys2Proof.Machine

/-! DRAM lines (R25, R323 to R325). -/

/-- Ciphertext of a line: one XTS data unit, its tweak the line's internal address divided by 64 (R324 step 1). -/
def lineCipher (e : Engine) (line : Nat) (data : Bytes) : Bytes :=
  xts false (be 64 e.xts.toNat) (le 16 ((2 ^ 32 + 64 * line) / 64)) (fit 64 data)

/-- The 28-bit MAC of a line over its address, its colour and its ciphertext (R324 step 2). -/
def lineMac (e : Engine) (line : Nat) (colour : BitVec 4) (cipher : Bytes) : Nat :=
  (cmac (be 32 e.mac.toNat) (le 8 (2 ^ 32 + 64 * line) ++ le 1 colour.toNat ++ cipher)).toNat % 2 ^ 28

/-- The check bits of a line: 12 for each 64-bit word of the ciphertext (R323, R324 step 3). -/
def lineCheck (cipher : Bytes) : Nat :=
  ((List.range 8).map fun w => 2 ^ (12 * w) * (Config.symbolCheck (BitVec.ofNat 64 (num cipher (8 * w) 8))).toNat).sum

/-- What a DRAM die holds of a line: 64 bytes of ciphertext and 16 bytes of metadata, CHECK, COLOUR and MAC. No plain byte leaves the logic die
(R14, R25, R323). -/
def storedLine (s : State) (line : Nat) : Bytes :=
  let l := tgetD s.dram line {}
  let c := lineCipher s.engine line l.data
  c ++ le 16 (lineCheck c + 2 ^ 96 * l.colour.toNat + 2 ^ 100 * lineMac s.engine line l.colour c)

/-- A 64-bit word with one of its 19 four-bit symbols changed by `x`; symbols 16 to 18 are the check bits (R325). -/
def flipSymbol (k x : Nat) (w : BitVec 64 × BitVec 12) : BitVec 64 × BitVec 12 :=
  if k < 16 then (w.1 ^^^ (BitVec.ofNat 64 x <<< (4 * k)), w.2) else (w.1, w.2 ^^^ (BitVec.ofNat 12 x <<< (4 * (k - 16))))

/-- A word and its check bits decoded: the word, with at most one symbol corrected, or none (R325 step 1). -/
def decodeSymbols (w : BitVec 64 × BitVec 12) : Option (BitVec 64) :=
  if Config.symbolCheck w.1 = w.2 then some w.1
  else
    ((List.range 19).flatMap fun k => (List.range 15).map fun x => flipSymbol k (x + 1) w).findSome? fun v =>
      if Config.symbolCheck v.1 = v.2 then some v.1 else none

/-- What a read of a line gives (R325, R331). -/
inductive LineRead where
  /-- Data, after correction. -/
  | data (b : Bytes)
  /-- Uncorrectable: a word does not decode, or the MAC fails. -/
  | uncorrectable
  /-- The colour is another than the access colour. -/
  | colourFault
  deriving DecidableEq, Repr

/-- A read of a stored line at an access colour: decode, MAC, colour, decrypt, in this order (R325). -/
def readLine (e : Engine) (line : Nat) (colour : BitVec 4) (stored : Bytes) : LineRead :=
  let meta_ := num stored 64 16
  let ws := (List.range 8).map fun w => decodeSymbols (BitVec.ofNat 64 (num stored (8 * w) 8), BitVec.ofNat 12 (meta_ / 2 ^ (12 * w)))
  if ws.any (·.isNone) then .uncorrectable
  else
    let cipher := (ws.map fun w => le 8 (w.getD 0).toNat).flatten
    let held : BitVec 4 := BitVec.ofNat 4 (meta_ / 2 ^ 96)
    if lineMac e line held cipher ≠ meta_ / 2 ^ 100 % 2 ^ 28 then .uncorrectable
    else if held ≠ colour then .colourFault
    else .data (xts true (be 64 e.xts.toNat) (le 16 ((2 ^ 32 + 64 * line) / 64)) cipher)

/-! MRAM words and pages (R31, R253, R392). -/

/-- A 64-bit MRAM word with its 8 check bits (R31). -/
def mramWord (v : BitVec 64) : BitVec 64 × BitVec 8 := (v, Config.secDed v)

/-- A stored word read: the word, one bit in error corrected, or uncorrectable; whether it was corrected is told (R31, R32). -/
def mramRead (w : BitVec 64 × BitVec 8) : Option (BitVec 64 × Bool) :=
  if Config.secDed w.1 = w.2 then some (w.1, false)
  else
    ((List.range 64).map (fun k => (w.1 ^^^ (1#64 <<< k), w.2)) ++ (List.range 8).map fun k => (w.1, w.2 ^^^ (1#8 <<< k))).findSome?
      fun v => if Config.secDed v.1 = v.2 then some (v.1, true) else none

/-- The 32 words of a page of 256 bytes as they are stored (R31, R253). -/
def mramPage (b : Bytes) : List (BitVec 64 × BitVec 8) := (List.range 32).map fun k => mramWord (BitVec.ofNat 64 (num b (8 * k) 8))

/-! Pins (R36, R63). -/

/-- What a group of balls shows. -/
inductive BallState where
  | highZ | low | high
  /-- An open-drain output that does not pull. -/
  | released
  /-- The block serves its interface there. -/
  | active
  /-- An input that is not looked at. -/
  | ignored
  /-- CC without Rd. -/
  | opened
  /-- Driven and sensed, the tamper loops. -/
  | sensed
  deriving DecidableEq, Repr

/-- The groups of signal balls. -/
inductive Ball where
  | usb4 | usb2 | cc | sbu | vbusDet | crystal | nAlert | tckTmsTdi | tdo | loops | nSpiIrq | spiIn | spiIo | mpIn | mpD | mpValid
  deriving DecidableEq, Repr

/-- In reset, or past a declaration (R36, R63). -/
def inReset (s : State) : Bool :=
  match s.pwr.phase with
  | .held | .startDue | .flushPower | .flushReset => true
  | _ => false

/-- The state of a group of balls (R36, R38, R63, R64). A bank that is disabled drives nothing and looks at nothing (R38). Between reset and
power-down a running block serves its interfaces. -/
def ballState (b : Ball) (s : State) : BallState :=
  let off := s.pwr.phase == .off
  let rst := inReset s
  let up := linkUp s
  match b with
  | .usb4 | .usb2 | .sbu => if !off && !rst && up then .active else .highZ
  | .cc => if !off && !rst && up then .active else .opened
  | .vbusDet => if off then .highZ else if rst then .ignored else .active
  | .crystal => if off || (rst && s.pwr.reason != .nreset) then .low else .active
  | .nAlert => if off || !s.pwr.ioGen then .highZ else if alert s then .low else .released
  | .tckTmsTdi => if off || !s.pwr.ioGen then .highZ else if tapOn s then .active else .ignored
  | .tdo => if tapOn s then .active else .highZ
  | .loops => if off && !s.pwr.vbatPresent then .opened else .sensed
  | .nSpiIrq => if off || !s.pwr.ioGen then .highZ else if spiIrq s then .low else .released
  | .spiIn => if off || !s.pwr.ioGen then .highZ else if rst then .ignored else .active
  | .spiIo => if off || rst || !s.pwr.ioGen then .highZ else .active
  | .mpIn => if off || !s.pwr.ioMp then .highZ else if rst then .ignored else .active
  | .mpD => if off || rst || !s.pwr.ioMp then .highZ else .active
  | .mpValid => if off || !s.pwr.ioMp then .highZ else if s.pwr.mpValid then .high else .low

/-! USB descriptors (R108). The form of a descriptor is that of the base specification (PRESUMED, notes/assumptions/78.md). -/

/-- bcdUSB: 3.20 at SuperSpeed and above, 2.10 at high speed (R108). -/
def bcdUsb (superSpeed : Bool) : Nat := if superSpeed then 0x0320 else 0x0210

/-- The device descriptor (R108). -/
def deviceDescriptor (superSpeed : Bool) : Bytes :=
  [18, 1] ++ le 2 (bcdUsb superSpeed) ++ [0, 0, 0] ++ le 1 (if superSpeed then 9 else 64) ++ le 2 0x1FD4 ++ le 2 0x9412
    ++ le 2 Config.dieRev.toNat ++ [0, 0, 1, 1]

/-- One endpoint descriptor: address, transfer type, packet size, interval (R108). -/
def endpointDescriptor (addr type size interval : Nat) : Bytes := [7, 5] ++ le 1 addr ++ le 1 type ++ le 2 size ++ le 1 interval

/-- The SuperSpeed companion of an endpoint, with its burst less one (R108). -/
def companion (superSpeed : Bool) (burst bytes : Nat) : Bytes := if superSpeed then [6, 0x30] ++ le 1 (burst - 1) ++ [0] ++ le 2 bytes else []

/-- The endpoints: two bulk pairs and the interrupt endpoint, which is polled every 125 us (R108). -/
def endpoints (superSpeed : Bool) : Bytes :=
  let bulk := fun (addr burst : Nat) => endpointDescriptor addr 2 (if superSpeed then 1024 else 512) 0 ++ companion superSpeed burst 0
  bulk 0x01 16 ++ bulk 0x81 16 ++ bulk 0x02 4 ++ bulk 0x82 4 ++ endpointDescriptor 0x83 3 16 1 ++ companion superSpeed 1 16

/-- The configuration descriptor with its one interface, of class 0xFF, subclass 0x46 and protocol 0x01 (R108). -/
def configDescriptor (superSpeed : Bool) : Bytes :=
  let tail := [9, 4, 0, 0, 5, 0xFF, 0x46, 0x01, 0] ++ endpoints superSpeed
  [9, 2] ++ le 2 (9 + tail.length) ++ [1, 1, 0, 0xC0, 0] ++ tail

/-- The unit ID as 32 capital hexadecimal digits (R108). -/
def serialDigits : Bytes :=
  (List.range 32).map fun i =>
    let d := Config.unitId.toNat / 16 ^ (31 - i) % 16
    BitVec.ofNat 8 (if d < 10 then 48 + d else 55 + d)

/-- The serial number string descriptor (R108). -/
def serialDescriptor : Bytes := le 1 (2 + 2 * serialDigits.length) ++ [3] ++ serialDigits.flatMap fun c => [c, 0]

/-- The answer of the control endpoint to a request with its first byte, request code and value: the descriptor asked for, or a STALL where
the request is no standard one or no such descriptor exists (R108). -/
def controlReply (superSpeed : Bool) (reqType request value : Nat) : Option Bytes :=
  if reqType / 32 % 4 ≠ 0 then none
  else if request = 6 then
    match value / 256, value % 256 with
    | 1, 0 => some (deviceDescriptor superSpeed)
    | 2, 0 => some (configDescriptor superSpeed)
    | 3, 0 => some [4, 3, 9, 4]
    | 3, 1 => some serialDescriptor
    | _, _ => none
  else if request ≤ 12 then some []
  else none

end Sys2Proof.Machine
end

