-- ==== Sys2Proof/WellFormed.lean ====
section
/-! DEFINITION. Well-formed commands: every index a command carries names a unit, function, register or address that the rules
give the block. A meaning is total: on an index that names nothing the command has nothing to act on. -/

namespace Sys2Proof

/-- A mailbox request names one of the 16 functions and one of the 64 mailboxes (R121). -/
def Req.wellFormed (r : Req) : Bool := r.fn < 16 && r.mbx < 64

/-- Every index that a command carries is in its range. -/
def Instr.wellFormed : Instr → Bool
  | .start f => f.temp < 256
  | .pkeIdleOff core => core < 2
  | .vfEnable n => n ≤ 15
  | .vfFlr f => 1 ≤ f && f < 16
  | .busMasterDisable f | .d3hot f | .d3hotExit f | .busMasterEnable f => f < 16
  | .completionTimeout q _ => q < 262144
  | .doorbell f q _ _ => f < 16 && q < 262144
  | .coal f v _ | .coalesceTimeout f v | .vectorUnmask f v => f < 16 && v < 2048
  | .registerWrite f sp o z _ =>
    f < 16 && o < 1048576 && 1 ≤ z && z ≤ 8 && (sp != .config || (o < 4096 && (z == 1 || z == 2 || z == 4) && o % 4 + z ≤ 4))
  | .fetch sh _ => sh < 4
  | .sourceArrived q _ | .nop q | .queueStop q | .nonceExhausted q | .queueDrained q => q < 262144
  | .accept q | .sealMsg q | .openMsg q | .xtsEnc q | .xtsDec q | .outcome q | .verifyReceipt q | .unitRelease q =>
    0 < q && q < 281474976710656
  | .failover sl _ => sl < 3
  | .laneStartTestDone sl _ _ => sl < 3
  | .laneFullTestDone l _ => l < 8
  | .laggard sl _ l => sl < 3 && l < 8
  | .laggardDrainEnd sl => sl < 3
  | .maskReseed l => l < 8
  | .meterWriteBehind p => p < 1024
  | .counterBackWrite c => 64 ≤ c && c < 4096
  | .nbStartupTestDone b _ _ _ => b < 3
  | .nbHealthFail b st _ => b < 3 && st < 32
  | .nbCalibrationDone b _ => b < 3
  | .calPeriodic b | .nbRestart b => b < 3
  | .calTemperature b t => b < 3 && t < 256
  | .keyImportTimeout f m => f < 16 && m < 64
  | .dramUncorrectable l _ => l < 107364352
  | .evtSuppressed c => 0 < c && c < 65535
  | .meterIncrement c _ _ => 64 ≤ c && c < 4096
  | .counterWindowRead c => c < 4096
  | .dgLowWordRead o => o < 4096
  | .pmonCntRead n => n < 16
  | .dbgOtp w => w < 256
  | .pkeTestDone core _ => core < 2
  | .commandWaitTimeout f m => f < 16 && m < 64
  | .mailboxUnknownOpcode r _ | .devIdentity r | .devStatus r | .devStandby r | .devChallenge r | .devPubkeys r
  | .fnConfig r | .queueCreate r | .queueDisable r | .queueDelete r | .queueQuery r | .fnDisable r | .fnEnable r
  | .keyDerive r | .keyImport r | .keyInvalidate r | .keyQuery r | .drawSchedule r | .drawClose r | .drawRun r _
  | .drawCert r | .instantBatch r _ | .nbStatus r | .journalStatus r | .journalQuery r | .journalExport r
  | .journalReclaim r | .journalSync r | .journalClaimTime r | .rulesetLoad r | .rulesetQuery r | .rulesetDelete r
  | .lcStatus r | .lcTransition r | .lcFlagBurn r | .dbgCertLoad r | .fwStatus r | .fwWrite r | .fwVerify r
  | .fwActivate r | .fwCommit r | .evtRead r | .evtClear r | .diagSelftest r _ | .diagSchedule r | .diagHealth r
  | .pmonConfig r | .gateWrite r | .gateRead r | .gateLock r | .gateSync r | .gateFaults r | .ctrRead r | .meterRead r
  | .meterWrite r | .meterProtect r => r.wellFormed
  | .powerGood _ | .scrapStart _ | .mailboxReady | .serviceComplete | .feedLoss _ | .feedReturn _ | .holdUpBridge
  | .powerFailure | .flushComplete | .reset _ _ | .resetRelease _ | .ioBankLoss _ | .ioBankReturn _ | .vbatLoss
  | .capacitorMeasurement _ | .vholdLowTimeout | .standbyExit | .usbAttach | .usbDetach | .hostPathClaim _
  | .usbBusReset | .linkLane _ _ | .linkLoss _ | .pf0Flr | .linkCtrl _ | .dispatch | .laneTestPeriodic | .leafInOrder
  | .batchTimeout | .pageTimeout | .pageSealed | .journalCheckpoint | .seqMarkRaise | .seqReservePoint
  | .opsecCheckpoint | .reservationMarkRaise _ | .drawDefineTimeout _ | .drawCloseDrained _ | .drawCertSigned _
  | .rulesetDrainEnd | .gateSyncRetired | .challengeExpiry | .dbgRightsExpiry | .lcReset | .tamperInput _ _ | .t4Reset
  | .unpoweredTamperLatch _ | .loopResistanceMeasure _ _ | .unitFailed _ _ | .scrubPeriod _ | .mramRefresh
  | .eventBufferWrite | .meterPortRead _ _ | .meterPortWrite _ _ _ _ _ | .groupOpen _ | .groupCommit | .groupAbort
  | .tvVerdict _ | .dgStart _ _ | .dgFinish _ _ | .dgData _ _ _ | .dgOwn _ _ | .dgOwnerTimeout | .pmonFreeze _
  | .pmonClear | .rdStatus | .wrMbx _ _ _ _ | .rdMbx | .spiSubmit _ _ _ _ | .rdCompl _ | .spiUnknownCommand _ _
  | .usbSubmit _ | .tapReset | .extest | .idcode | .samplePreload _ | .dbgStatus _ | .dbgLoad _ | .dbgMem _ _ _
  | .dbgCore _ | .dbgTrace | .dbgScan _ | .bypass _ | .linkReturn _ _ _ | .vbatRecovery | .receivedTlpError _ | .usbBulkIn _
  | .pdMessage _ => true

end Sys2Proof
end

