-- ==== Sys2Proof/Tests/Slice0.lean ====
section
/-! SUPPORT. Small tests. The ill-formed commands that WellFormed refuses; for each statement a state and operands that meet its hypotheses
(theorems test_asks_...); and a few single steps with results written out from the rules. -/

namespace Sys2Proof.Tests

open Sys2Proof Sys2Proof.Machine

set_option Elab.async false

/-! A unit in service, small: three pairs, three banks, everything tested, nothing in memory. -/

/-- Power, all domains on, in service. -/
def upPower : Power :=
  { phase := .service, everStarted := true, mpValid := true, vhold := 12000, domains := List.replicate 80 .on,
    cap := ⟨true, 400000, 40, 10, true⟩ }

/-- A lane of a pair in service. -/
def lane : Lane := { st := .serving, seeded := true }

/-- A noise bank that serves. -/
def bank : Bank := { st := .serving, entries := List.replicate 32 900, bound := 900, credited := true, streams := 0xFFFFFFFF }

/-- PF0 as a host has set it up: memory space, VF memory space, MSI-X and bus mastering enabled. -/
def pf0 : Fn :=
  { present := true, enabled := true, bme := true, quota := 262144, cfg := [(0x04, 6), (0x50, 0x80000000), (0x158, 9)] }

/-- A unit in service on the PCIe tunnel, in FIELD, with PF0 enabled. -/
def up : State :=
  { pwr := upPower
    lc := .field
    otp := []
    link := { hostPath := some .pcie, enabled := true, attached := true, usb4Mode := true, pcieTun := true, gen := 2, width := 2 }
    fns := pf0 :: List.replicate 15 {}
    lanes := List.replicate 6 lane ++ [{}, {}]
    slots := [{ inService := true, l0 := 0, l1 := 1 }, { inService := true, l0 := 2, l1 := 3 }, { inService := true, l0 := 4, l1 := 5 }]
    banks := List.replicate 3 bank
    lark := { condOn := true, drbgOn := true }
    pkes := List.replicate 2 { inService := true }
    dgu0 := { inService := true }
    dgu1 := { inService := true }
    nv := { ctrs := [(0, { c0 := ⟨some 0x1000000, 0, none, []⟩, c1 := ⟨some 0x1000000, 0, none, []⟩, c2 := ⟨some 0x1000000, 0, none, []⟩, live := 0x1000000 })], ctrInit := true } }

/-- A mailbox request of function 0, mailbox 0 on the PCIe tunnel. -/
def ask (body : Bytes) (dma : ReadResult := .data []) : Req := ⟨.pcie, 0, 0, 7, 16 + body.length, 0, 0, 0, body, dma⟩

/-- The unit with another phase. -/
def inPhase (p : Phase) : State := { up with pwr := { upPower with phase := p } }

/-- A queue on the PCIe tunnel. -/
def aQueue : Queue := { st := .active, entries := 64, vector := 1, sqBase := 0x10000, cqBase := 0x20000 }

/-- The unit with one queue of function 0. -/
def withQueue (q : Nat) (x : Queue) (s : State) : State := { s with queues := [(q, x)] }

/-- A gate entry over all of host space with every right, for every colour. -/
def openEntry : GEntry := { start := 0, fin := 0xFFFFFFFFE0, rights := 0xFFFF, colours := 0xFFFF, eflags := 3 }

/-- The unit with the shards' gates open to the host. -/
def upGates (s : State) : State := { s with gates := List.replicate 4 { ents := [(0, openEntry)] } ++ List.replicate 17 {} }

/-! WellFormed refuses what names nothing. -/

theorem test_wellFormed_refuses_request_fn : (Instr.devStatus { Req.blank with fn := 16 }).wellFormed = false := by decide
theorem test_wellFormed_refuses_request_mbx : (Instr.devStatus { Req.blank with mbx := 64 }).wellFormed = false := by decide
theorem test_wellFormed_refuses_unit :
    (Instr.pkeIdleOff 2).wellFormed = false ∧ (Instr.laneFullTestDone 8 true).wellFormed = false
      ∧ (Instr.laggardDrainEnd 3).wellFormed = false ∧ (Instr.maskReseed 8).wellFormed = false
      ∧ (Instr.calPeriodic 3).wellFormed = false ∧ (Instr.pkeTestDone 2 true).wellFormed = false := by decide
theorem test_wellFormed_refuses_function :
    (Instr.vfEnable 16).wellFormed = false ∧ (Instr.vfFlr 0).wellFormed = false ∧ (Instr.vfFlr 16).wellFormed = false
      ∧ (Instr.d3hot 16).wellFormed = false ∧ (Instr.busMasterEnable 16).wellFormed = false
      ∧ (Instr.keyImportTimeout 16 0).wellFormed = false ∧ (Instr.commandWaitTimeout 0 64).wellFormed = false := by decide
theorem test_wellFormed_refuses_queue :
    (Instr.doorbell 0 262144 0 true).wellFormed = false ∧ (Instr.queueStop 262144).wellFormed = false
      ∧ (Instr.nop 262144).wellFormed = false ∧ (Instr.fetch 4 (.data [])).wellFormed = false := by decide
theorem test_wellFormed_refuses_register :
    (Instr.coal 0 2048 0).wellFormed = false ∧ (Instr.registerWrite 0 .config 4096 4 none).wellFormed = false
      ∧ (Instr.registerWrite 0 .bar0 1048576 4 (some 0)).wellFormed = false ∧ (Instr.registerWrite 0 .bar0 0 9 (some 0)).wellFormed = false := by decide
theorem test_wellFormed_refuses_seq :
    (Instr.accept 0).wellFormed = false ∧ (Instr.unitRelease 281474976710656).wellFormed = false := by decide
theorem test_wellFormed_refuses_store :
    (Instr.meterWriteBehind 1024).wellFormed = false ∧ (Instr.counterBackWrite 63).wellFormed = false
      ∧ (Instr.counterWindowRead 4096).wellFormed = false ∧ (Instr.dgLowWordRead 4096).wellFormed = false
      ∧ (Instr.pmonCntRead 16).wellFormed = false ∧ (Instr.dbgOtp 256).wellFormed = false
      ∧ (Instr.dramUncorrectable 107364352 .firmware).wellFormed = false ∧ (Instr.evtSuppressed 0).wellFormed = false := by decide
theorem test_wellFormed_refuses_reading :
    (Instr.calTemperature 0 256).wellFormed = false ∧ (Instr.nbHealthFail 0 32 true).wellFormed = false
      ∧ (Instr.nbStartupTestDone 3 true 0 false).wellFormed = false ∧ (Instr.laggard 0 .skew 8).wellFormed = false
      ∧ (Instr.registerWrite 0 .config 3 2 none).wellFormed = false ∧ (Instr.coalesceTimeout 0 2048).wellFormed = false := by decide
theorem test_wellFormed_takes :
    (Instr.devStatus Req.blank).wellFormed = true ∧ (Instr.vfFlr 15).wellFormed = true ∧ (Instr.queueStop 262143).wellFormed = true
      ∧ (Instr.accept 1).wellFormed = true ∧ (Instr.counterBackWrite 64).wellFormed = true := by decide


/-! Steps, reset and the whole state. -/

theorem test_asks_EmptyQueuePassesOneSecond :
    up.pending = [] ∧ up.pwr.phase ≠ .off ∧ (inPhase .off).pending = [] ∧ (inPhase .off).pwr.phase = .off := by decide
theorem test_step_idle : (stateOf up (step up)).opsec = 1 := by decide
theorem test_asks_BurntBitsStayBurnt : otpBit { up with otp := [(96, 1)] } 96 0 = true ∧ otpBit { up with otp := [(255, 1#64 <<< 63)] } 255 63 = true := by decide
theorem test_asks_ByteMemoriesStayCanonical : up.memoriesWf = true ∧ State.reset.memoriesWf = true := by decide

/-! Power. -/

/-- The unit with other supplies. -/
def withPower (f : Power → Power) (s : State) : State := { s with pwr := f s.pwr }

theorem test_asks_SuppliesComeAndGo :
    (powered up = true ∧ quiet up = true ∧ feedOn .a up.pwr = true ∧ feedOn .b up.pwr = true)
      ∧ (let s := withPower (fun p => { p with feedA := false }) up; powered s = true ∧ quiet s = true ∧ feedOn .a s.pwr = false)
      ∧ (let s := withPower (fun p => { p with feedB := false }) up; powered s = true ∧ quiet s = true ∧ feedOn .b s.pwr = false)
      ∧ (served up = true ∧ quiet up = true ∧ up.pwr.ioGen = true ∧ up.pwr.ioMp = true)
      ∧ (let s := withPower (fun p => { p with ioGen := false, ioMp := false }) up
         served s = true ∧ quiet s = true ∧ s.pwr.ioGen = false ∧ s.pwr.ioMp = false ∧ s.pwr.porLow = false ∧ s.pwr.resetLow = false
           ∧ ioLevel 1620 = some false ∧ ioLevel 1980 = some false ∧ ioLevel 3000 = some true ∧ ioLevel 3600 = some true) := by decide
theorem test_asks_PowerIsLostAndReturns :
    served up = true ∧ (inPhase .recovery).pwr.phase = .recovery ∧ (inPhase .scrap).pwr.phase = .scrap
      ∧ (inPhase .flushReset).pwr.phase = .flushReset ∧ (inPhase .held).pwr.phase = .held ∧ (inPhase .startDue).pwr.phase = .startDue
      ∧ (let s := withPower (fun p => { p with feedA := false, feedB := false, vbatPresent := false }) (inPhase .flushPower)
         s.pwr.phase = .flushPower ∧ s.pwr.feedA = false ∧ s.pwr.feedB = false ∧ s.pwr.vbatPresent = false)
      ∧ (let s := inPhase .flushPower; s.pwr.phase = .flushPower ∧ s.pwr.feedA = true ∧ resetHeld s.pwr = false)
      ∧ (let s := withPower (fun p => { p with feedA := false }) (inPhase .off)
         feedOn .a s.pwr = false ∧ s.pwr.phase = .off ∧ resetHeld s.pwr = false)
      ∧ (let s := withPower (fun p => { p with feedB := false }) (inPhase .held); feedOn .b s.pwr = false ∧ s.pwr.phase = .held)
      ∧ (let s := withPower (fun p => { p with feedA := false }) up; feedOn .a s.pwr = false ∧ served s = true ∧ quiet s = true) := by decide
theorem test_asks_ResetPinsAct :
    (1000 ≤ 1000 ∧ up.pwr.ioGen = true ∧ served up = true) ∧ (99 < 100)
      ∧ ((inPhase .held).pwr.phase = .held ∧ (inPhase .held).pwr.tapHold = false ∧ (inPhase .held).pwr.resetLow = false
        ∧ (inPhase .held).pwr.porLow = false) := by decide
theorem test_asks_AlwaysOnDomainAndHoldUp :
    (inPhase .off).pwr.phase = .off ∧ (inPhase .flushPower).pwr.phase = .flushPower
      ∧ (up.pwr.phase ≠ .off ∧ up.pwr.phase ≠ .flushPower ∧ quiet up = true)
      ∧ (let s := { up with opsec := 3600 }; served s = true ∧ s.pwr.capOpsec + 3600 ≤ s.opsec)
      ∧ (let s := withPower (fun p => { p with everStarted := false }) (inPhase .held)
         s.pwr.phase = .held ∧ s.pwr.everStarted = false ∧ s.pwr.capKept = none)
      ∧ (served up = true ∧ up.pwr.degraded = false)
      ∧ (let s := { up with pkes := [{ inService := true, on := true }, {}] }
         s.pkes[0]? = some { inService := true, on := true } ∧ 13 + 0 < s.pwr.domains.length)
      ∧ (let s := { up with opsec := 31536000 }
         served s = true ∧ s.pwr.degraded = false ∧ s.nv.refreshAt + 31536000 ≤ s.opsec
           ∧ ∃ c, tget s.nv.ctrs 0 = some c ∧ c.lost = false ∧ c.wrote + 31536000 ≤ s.opsec)
      ∧ (let s := { up with opsec := 60, ev := { up.ev with buf := [⟨262144, zeros 16⟩] } }
         served s = true ∧ eventsDue s = true ∧ s.ev.buf = [⟨262144, zeros 16⟩]) := by
  refine ⟨by decide, by decide, by decide, by decide, by decide, by decide, by decide, ⟨by decide, by decide, by decide, ⟨_, rfl, by decide⟩⟩,
    by decide⟩
theorem test_capacitance : capUf ⟨true, ⟨316000, 0, 0, true⟩⟩ = 158 ∧ capMohm ⟨true, ⟨0, 200, 0, true⟩⟩ = 500 := by decide

/-! Starts and service. -/

/-- A start that is due. -/
def due : State := { up with pwr := { upPower with phase := .startDue } }

/-- A draw whose results are to come. -/
def issuing : Draw := { id := 5, st := .issuing }

theorem test_asks_StartsEndWhereTheyShould :
    (due.pwr.phase = .startDue ∧ otpScrap due = false ∧ due.pwr.pd00Lost = false)
      ∧ (let s := { due with otp := [(97, 0x2222222222222222)] }; s.pwr.phase = .startDue ∧ otpScrap s = true)
      ∧ (let s := { due with otp := [(97, 0x0000222222222222)] }; otpScrap s = true) := by decide
theorem test_asks_ServiceComesInTwoSteps :
    ((inPhase .started).pwr.phase = .started ∧ (inPhase .started).held = [] ∧ (inPhase .started).fns.length = 16)
      ∧ (let r := ask []
         let s := { inPhase .started with held := [.lcStatus r] }
         s.pwr.phase = .started ∧ s.held = [.lcStatus r] ∧ r.fn = 0 ∧ r.body = [] ∧ mailboxExists r.path 0 r.mbx = true
           ∧ (fnOf s 0).present = true ∧ pathOk r s = true ∧ headerBad r = none ∧ s.lc ≠ .scrap ∧ s.pwr.standby = false
           ∧ s.pwr.standbyDue = false)
      ∧ ((inPhase .ready).pwr.phase = .ready ∧ (inPhase .ready).held = []
        ∧ (inPhase .ready).nv.draws.all (fun d => d.st != .committed && d.st != .issuing) = true) := by decide
theorem test_asks_StandbyIsEnteredAndLeft :
    (accepts 0x0103 (ask []) (some 0) up = true ∧ up.work = [] ∧ drawsUnderway up = false)
      ∧ (let s := { up with work := [{ stage := .fetched }] }; accepts 0x0103 (ask []) (some 0) s = true ∧ s.work ≠ [] ∧ quiet s = true)
      ∧ (let s := { up with pwr := { upPower with standby := true, wake := true } }
         powered s = true ∧ s.pwr.standby = true ∧ s.pwr.wake = true ∧ s.held = [] ∧ s.banks.length = 3) := by decide

/-! The host link. -/

/-- The unit with another link. -/
def withLink (f : Link → Link) (s : State) : State := { s with link := f s.link }

theorem test_asks_HostLinkEventsAct :
    (linkUp up = true ∧ up.link.pcieTun = true ∧ up.fns.length = 16 ∧ up.link.attached = true ∧ quiet up = true)
      ∧ (let s := withLink (fun l => { l with hostPath := none, usb3Tun := true }) up
         linkUp s = true ∧ s.link.hostPath = none ∧ s.link.usb3Tun = true)
      ∧ (let s := withLink (fun l => { l with pcieTun := false, attached := false, hostPath := some .usb }) up
         linkUp s = true ∧ s.link.pcieTun = false ∧ s.link.usb3Tun = false ∧ s.link.attached = false ∧ s.link.hostPath = some .usb)
      ∧ (up.link.gen ≠ 0 ∧ linkCodes 1 2 = true ∧ linkCodes 2 1 = true ∧ (1#2 < up.link.gen) ∧ (1#2 < up.link.width)
        ∧ ¬(2#2 < up.link.gen ∨ 2#2 < up.link.width) ∧ linkCodes 3 1 = false ∧ linkCodes 1 3 = false)
      ∧ (let s := withLink (fun l => { l with usbOut := [[1]], usbMbx := [[2]], usbNotify := 1 }) up
         linkUp s = true ∧ s.link.usbOut = [[1]] ∧ s.link.usbMbx = [[2]] ∧ s.link.usbNotify ≠ 0) := by decide
/-- The unit with PF0 disabled for a cause. -/
def pf0Off (c : FnCause) : State :=
  { up with fns := { pf0 with enabled := false, causes := [c] } :: List.replicate 15 {} }
theorem test_asks_LinkLossDisablesTheHostPath :
    (linkUp up = true ∧ up.fns.length = 16 ∧ (fnOf up 0).present = true ∧ (fnOf up 0).causes = [] ∧ up.link.attached = true)
      ∧ (linkUp (pf0Off .link) = true ∧ linkCodes 1 1 = true ∧ linkCodes 2 2 = true ∧ (fnOf (pf0Off .link) 0).present = true
        ∧ (fnOf (pf0Off .link) 0).causes = [.link] ∧ mayEnable (pf0Off .link) = true) := by decide
/-- The unit with VF15 there and enabled. -/
def upVf : State :=
  { up with fns := up.fns.set 15 { present := true, enabled := true, bme := true, quota := 64, cfg := [(0x50, 0x80000000)] } }
theorem test_asks_FunctionsComeAndGo :
    (linkUp up = true ∧ romServes up = false ∧ up.link.vfEnable = false ∧ 15 ≤ 15 ∧ up.fns.length = 16
      ∧ (fnOf up 15).causes = [] ∧ draining up 15 = false ∧ mayEnable up = true)
      ∧ (linkUp upVf = true ∧ upVf.fns.length = 16 ∧ upVf.queues.all (fun e => !e.2.byFn) = true ∧ (fnOf upVf 15).present = true
        ∧ (fnOf upVf 15).causes = [] ∧ upVf.work.all (fun w => (queueOf upVf w.qix).fn != 15) = true)
      ∧ ((fnOf up 0).present = true ∧ (fnOf up 0).causes = [] ∧ up.work = [] ∧ (fnOf up 0).bme = true)
      ∧ ((fnOf (pf0Off .busMaster) 0).causes = [.busMaster] ∧ (fnOf (pf0Off .busMaster) 0).present = true
        ∧ mayEnable (pf0Off .busMaster) = true ∧ linkUp (pf0Off .busMaster) = true)
      ∧ ((fnOf (pf0Off .d3hot) 0).causes = [.d3hot] ∧ (fnOf (pf0Off .d3hot) 0).present = true ∧ (pf0Off .d3hot).fns.length = 16) := by decide

/-! Registers. -/

theorem test_asks_DoorbellsMoveTheRings :
    (barUp up 0 = true ∧ quiet up = true ∧ up.pwr.standby = false ∧ up.pwr.standbyDue = false ∧ up.link.hostPath = some .pcie)
      ∧ (let s := { withQueue 262143 aQueue up with cache := List.replicate 7 [] ++ [[262143]] }
         (queueOf s 262143).st = .active ∧ (queueOf s 262143).fn = 0 ∧ (queueOf s 262143).path ≠ .spi
           ∧ doorbellBad (queueOf s 262143) 0x4000003F = false ∧ doorbellBad (queueOf s 262143) 0x40000040 = true
           ∧ (s.cache.getD (262143 % 8) []).contains 262143 = true)
      ∧ (queueOf up 0).st = .free ∧ (queueOf (withQueue 0 { aQueue with fn := 1 } up) 0).fn ≠ 0
      ∧ (let s := withQueue 0 { aQueue with path := .spi } up; (queueOf s 0).st ≠ .free ∧ (queueOf s 0).path = .spi)
      ∧ (let s := withLink (fun l => { l with hostPath := some .usb }) up
         barUp s 0 = true ∧ quiet s = true ∧ s.link.hostPath ≠ some .pcie) := by decide
theorem test_doorbell_sets_tail :
    (queueOf (stateOf up (exec (.doorbell 0 4 0x4000003F true) (withQueue 4 aQueue up))) 4).sqTail = 63 := by decide
theorem test_asks_VectorsSendTheirMessages :
    (barUp up 0 = true ∧ 2047 < vectorsOf 0 ∧ barUp upVf 15 = true ∧ 127 < vectorsOf 15)
      ∧ (let s := { up with vecs := [(2047, { held := 1, masked := false })] }
         (tgetD s.vecs 2047 {}).held ≠ 0 ∧ (tgetD s.vecs 2047 {}).masked = false ∧ canSignal s 0 = true)
      ∧ (let s := { up with vecs := [(2047, { held := 1 })] }
         (tgetD s.vecs 2047 {}).held ≠ 0 ∧ (tgetD s.vecs 2047 {}).masked = true)
      ∧ (let s := { up with vecs := [(2047, { held := 1, masked := false })], fns := { pf0 with bme := false } :: List.replicate 15 {} }
         (tgetD s.vecs 2047 {}).held ≠ 0 ∧ canSignal s 0 = false) := by decide
theorem test_asks_RegisterWritesReachTheirRegister :
    (barUp upVf 15 = true ∧ upVf.fns.length = 16 ∧ quiet upVf = true ∧ 7 < (barMap 15).mailboxes ∧ (mbxOf upVf 15 7).busy = false)
      ∧ (let s := { up with mbxs := [(62, { busy := true })] }
         barUp s 0 = true ∧ quiet s = true ∧ 62 < (barMap 0).mailboxes ∧ (mbxOf s 0 62).busy = true ∧ s.link.hostPath = some .pcie) := by decide
theorem test_irqEn_takes_five_bits :
    (fnOf (stateOf up (exec (.registerWrite 0 .bar0 0x34 4 (some 0xFFFFFFFF)) up)) 0).irqEn = 0x1F := by decide
theorem test_version_reads : (stateOf up (exec (.registerWrite 0 .bar0 0 4 none) up)).out = [.reg (num (statusBlock up 0) 0 4)] := by decide
/-! Keys: a unit whose key store holds an OPERATOR key (index 16) and, under it, a journal key (17), a storage key (18), a record key (19)
and a DRAW key (20), and one session key at index 0. Their secrets are sealed as R296 and R298 say, so that they open again. -/

/-- The unit with a root and no keys. -/
def rooted : State := { up with keys := { root := some 0, sessWrap := 1 } }

/-- The secret of the OPERATOR key. -/
def opSecret : Bytes := List.replicate 32 1

/-- The OPERATOR key's record, unsealed. -/
def opHead : KeyRec := { kind := 0x02, keyId := 1, parent := 1, users := 0xFFFF }

/-- The secret of the OPERATOR domain (R291). -/
def opDomain : Bytes := kdf (be 64 (0 : BitVec 512).toNat) "FLDOMAIN" (unitIdBytes ++ be 1 1 ++ be 4 0) 256

/-- The wrap key of the OPERATOR domain. -/
def opWrap : Bytes := wrapKey opDomain 1 0

/-- A record with its secret sealed under a wrap key (R296). -/
def sealedRec (wrap : Bytes) (i : Nat) (k : KeyRec) (secret : Bytes) : KeyRec :=
  { k with
    secret := (gcmSeal wrap (be 12 k.iv.toNat) (keyRecHead 1 i k) secret).1
    tag := (gcmSeal wrap (be 12 k.iv.toNat) (keyRecHead 1 i k) secret).2 }

/-- A key under the OPERATOR key, unsealed. -/
def childHead (kind : Nat) : KeyRec := { kind := kind, keyId := 2, parent := 16, owner := 0 }

/-- The secret of a key under the OPERATOR key. -/
def childSecret (kind : Nat) : Bytes := List.replicate (secretLen kind) 2

/-- The record of a key under the OPERATOR key. -/
def child (i kind : Nat) : AB KeyRec := ⟨.good 1 (sealedRec (wrapKey opSecret 16 0) i (childHead kind) (childSecret kind)), .blank⟩

/-- The session key's record. -/
def sessRec (bound : Option Nat) : SessRec := { live := true, bound := bound, parent := 16, keyId := 9 }

/-- The secret of the session key. -/
def sessKey : Bytes := List.replicate 32 3

/-- A draw that has its results. -/
def draw5 : Draw := { id := 5, st := .resulted, sigkey := 20, jkey := 17 }

/-- The unit with its keys; the session key is bound to a queue, or free. -/
def keyedTo (bound : Option Nat) : State :=
  { rooted with
    nv := { up.nv with
      keyRecs := [(16, ⟨.good 1 (sealedRec opWrap 16 opHead opSecret), .blank⟩), (17, child 17 0x14), (18, child 18 0x12),
        (19, child 19 0x11), (20, child 20 0x13)]
      draws := [draw5] }
    keys := { rooted.keys with wrapSet := true, sess := [(0, sealSess rooted 0 (sessRec bound) 0 sessKey)] } }

/-- The unit with its keys, the session key free. -/
def keyed : State := keyedTo none

theorem openRec_sealedRec (wrap : Bytes) (i : Nat) (k : KeyRec) (secret : Bytes) (h : secret.length = secretLen k.kind) :
    openRec wrap i 1 (sealedRec wrap i k secret) = some secret := by
  have e : keyRecHead 1 i (sealedRec wrap i k secret) = keyRecHead 1 i k := rfl
  unfold openRec
  rw [e]
  show (gcmOpen wrap (be 12 k.iv.toNat) _ _ _).map _ = _
  unfold sealedRec
  simp only []
  rw [gcmOpen_gcmSeal]
  simp [List.take_of_length_le, h]

theorem keyRec_op (b : Option Nat) : keyRec (keyedTo b) 16 = .ok 1 (sealedRec opWrap 16 opHead opSecret) := rfl

theorem domain_keyed (b : Option Nat) : domainSecret (keyedTo b) 1 = some opDomain := by
  have hr : rootBytes (keyedTo b) = some (be 64 (0 : BitVec 512).toNat) := rfl
  have hg : genUsed (keyedTo b) 1 = 0 := rfl
  unfold domainSecret
  rw [hr, hg]
  rfl

theorem operatorSecret_sealed {s : State} {i : Nat} {k : KeyRec} {secret d : Bytes} (hd : domainSecret s 1 = some d)
    (hr : keyRec s i = .ok 1 (sealedRec (wrapKey d 1 0) i k secret)) (hk : k.kind = 0x02) (hp : k.parentGen = 0)
    (hl : secret.length = secretLen k.kind) : operatorSecret s i = some secret := by
  have e1 : (sealedRec (wrapKey d 1 0) i k secret).kind = k.kind := rfl
  have e2 : (sealedRec (wrapKey d 1 0) i k secret).parentGen = k.parentGen := rfl
  unfold operatorSecret
  rw [hr]
  simp only [e1, hk, if_true, hd, Option.bind_some, e2, hp]
  exact openRec_sealedRec _ i k secret hl

theorem operatorSecret_keyed (b : Option Nat) : operatorSecret (keyedTo b) 16 = some opSecret :=
  operatorSecret_sealed (domain_keyed b) (keyRec_op b) rfl rfl rfl

theorem secretOf_sealed {s : State} {i : Nat} {k : KeyRec} {secret p : Bytes} (hp : operatorSecret s k.parent = some p)
    (hr : keyRec s i = .ok 1 (sealedRec (wrapKey p k.parent k.parentGen) i k secret)) (hk : k.kind ≠ 0x02)
    (hl : secret.length = secretLen k.kind) : secretOf s i = some secret := by
  have e1 : (sealedRec (wrapKey p k.parent k.parentGen) i k secret).kind = k.kind := rfl
  have e2 : (sealedRec (wrapKey p k.parent k.parentGen) i k secret).parent = k.parent := rfl
  have e3 : (sealedRec (wrapKey p k.parent k.parentGen) i k secret).parentGen = k.parentGen := rfl
  unfold secretOf
  rw [hr]
  simp only [e1, hk, if_false, e2, e3, hp, Option.bind_some]
  exact openRec_sealedRec _ i k secret hl

theorem keyRec_child (b : Option Nat) (i kind : Nat) (h : (i, kind) ∈ [(17, 0x14), (18, 0x12), (19, 0x11), (20, 0x13)]) :
    keyRec (keyedTo b) i = .ok 1 (sealedRec (wrapKey opSecret 16 0) i (childHead kind) (childSecret kind)) := by
  simp only [List.mem_cons, List.not_mem_nil, or_false, Prod.mk.injEq] at h
  rcases h with ⟨rfl, rfl⟩ | ⟨rfl, rfl⟩ | ⟨rfl, rfl⟩ | ⟨rfl, rfl⟩ <;> rfl

theorem secretOf_keyed (b : Option Nat) (i kind : Nat) (h : (i, kind) ∈ [(17, 0x14), (18, 0x12), (19, 0x11), (20, 0x13)]) :
    secretOf (keyedTo b) i = some (childSecret kind) := by
  have hk : ¬ kind = 0x02 := by
    simp only [List.mem_cons, List.not_mem_nil, or_false, Prod.mk.injEq] at h
    omega
  exact secretOf_sealed (k := childHead kind) (operatorSecret_keyed b) (keyRec_child b i kind h) hk (by simp [childSecret, childHead])

theorem sessSecret_sealed {s u : State} {i : Nat} {x : SessRec} {iv : BitVec 96} {secret : Bytes}
    (h : tget s.keys.sess i = some (sealSess u i x iv secret)) (hw : s.keys.sessWrap = u.keys.sessWrap) (hl : x.live = true) :
    sessSecret s i = some secret := by
  have e1 : (sealSess u i x iv secret).live = x.live := rfl
  have e2 : sessHead i (sealSess u i x iv secret) = sessHead i x := rfl
  have e3 : (sealSess u i x iv secret).iv = iv := rfl
  unfold sessSecret
  rw [h]
  simp only [e1, hl, if_true, e2, e3, hw]
  unfold sealSess
  simp only []
  rw [gcmOpen_gcmSeal]

theorem sessSecret_keyed (b : Option Nat) : sessSecret (keyedTo b) 0 = some sessKey :=
  sessSecret_sealed (u := rooted) (x := sessRec b) (iv := 0) rfl rfl rfl

/-- The handles of the keys. -/
theorem test_handles : nameOf keyed 17 = .persistent 17 ∧ nameOf keyed (2 ^ 30) = .session 0 := by
  refine ⟨?_, ?_⟩ <;> rfl

theorem currentKey_keyed (b : Option Nat) (i kind : Nat) (h : (i, kind) ∈ [(17, 0x14), (18, 0x12), (19, 0x11), (20, 0x13)]) :
    currentKey (keyedTo b) 0 i [kind] = some (sealedRec (wrapKey opSecret 16 0) i (childHead kind) (childSecret kind)) := by
  unfold currentKey
  rw [keyRec_child b i kind h]
  simp only [List.mem_cons, List.not_mem_nil, or_false, Prod.mk.injEq] at h
  rcases h with ⟨rfl, rfl⟩ | ⟨rfl, rfl⟩ | ⟨rfl, rfl⟩ | ⟨rfl, rfl⟩ <;> rfl

/-! Queues and functions. -/

/-- A QUEUE_CREATE body: index or bit 31, the session key, the journal key. -/
def createAsk (q : Nat) : Bytes :=
  le 4 q ++ le 2 64 ++ le 2 1 ++ le 8 0x10000 ++ le 8 0x20000 ++ le 4 (2 ^ 30) ++ le 4 17 ++ le 2 0xFFFF ++ zeros 14

theorem test_asks_QueueCreate (q : Nat) (h : q = 262143 ∨ q = 2 ^ 31) :
    accepts 0x0202 (ask (createAsk q)) (some 48) keyed = true ∧ quiet keyed = true ∧ createBad keyed (ask (createAsk q)) = none
      ∧ fnUsable .pcie 0 keyed = true ∧ sessionsRefused keyed = false
      ∧ (keyed.queues.filter fun e => e.2.fn == 0).length < (fnOf keyed 0).quota
      ∧ (if bit (fld (ask (createAsk q)) 0 4) 31 then lowestFree keyed 262144 0 else some (fld (ask (createAsk q)) 0 4 % 2 ^ 18))
          = some (if q = 262143 then 262143 else 0)
      ∧ tget keyed.queues (if q = 262143 then 262143 else 0) = none ∧ nonceOf keyed (if q = 262143 then 262143 else 0) < 2 ^ 54 - 1 := by
  rcases h with rfl | rfl <;> decide
theorem test_asks_QueueCreate_keys :
    (∃ j k, nameOf keyed 17 = .persistent j ∧ currentKey keyed 0 j [0x14] = some k)
      ∧ nameOf keyed (2 ^ 30) = .session 0 ∧ (∃ x, currentSess keyed 0 0 = some x ∧ x.bound = none) ∧ (sessSecret keyed 0).isSome = true := by
  refine ⟨⟨17, _, rfl, currentKey_keyed none 17 0x14 (by decide)⟩, rfl, ⟨_, rfl, rfl⟩, ?_⟩
  have h := sessSecret_keyed none
  unfold keyed
  rw [h]
  rfl
theorem test_asks_QueueCommandsAct :
    (let s := withQueue 262143 aQueue up
     let r := ask (le 4 262143)
     quiet s = true ∧ fld r 0 4 < 2 ^ 18 ∧ (queueOf s (fld r 0 4)).fn = r.fn ∧ accepts 0x0203 r (some 4) s = true
       ∧ (queueOf s (fld r 0 4)).st = .active ∧ accepts 0x0205 r (some 4) s = true)
      ∧ (let s := withQueue 0 { aQueue with st := .disabled } up
         let r := ask (le 4 0)
         quiet s = true ∧ (queueOf s (fld r 0 4)).fn = r.fn ∧ accepts 0x0203 r (some 4) s = true ∧ accepts 0x0204 r (some 4) s = true
           ∧ (queueOf s (fld r 0 4)).st = .disabled) := by decide
theorem test_asks_QueuesAndFunctionsStop_functions :
    (let r := ask (le 1 15 ++ le 1 255 ++ le 2 0 ++ le 4 262080 ++ le 4 128 ++ le 4 1024 ++ le 4 16 ++ List.replicate 16 1 ++ zeros 12)
     let s := { up with fns := { present := true, enabled := true, quota := 64 } :: List.replicate 15 {} }
     quiet s = true ∧ s.fns.length = 16 ∧ accepts 0x0201 r (some 48) s = true ∧ fnConfigBad s r = none ∧ holdsQueue s (fld r 0 1) = false)
      ∧ (let r := ask (le 4 15)
         accepts 0x0206 r (some 4) upVf = true ∧ fld r 0 1 = 15 ∧ fld r 1 3 = 0 ∧ (fnOf upVf 15).present = true ∧ (fnOf upVf 15).causes = []
           ∧ upVf.work.all (fun w => w.fn != 15) = true ∧ upVf.work.all (fun w => (queueOf upVf w.qix).fn == w.fn) = true
           ∧ upVf.queues.all (fun e => !e.2.byFn) = true ∧ r.fn = 0)
      ∧ (let r := ask (le 4 15)
         let s := { up with fns := up.fns.set 15 { present := true, causes := [.fnDisable] } }
         accepts 0x0207 r (some 4) s = true ∧ (fnOf s 15).present = true ∧ (fnOf s 15).causes = [.fnDisable] ∧ mayEnable s = true) := by
  decide
theorem test_asks_QueuesAndFunctionsStop_queues :
    (let s := upGates (withQueue 262143 { aQueue with st := .disabling, stopDue := some 1, unreleased := 63 } up)
     quiet s = true ∧ (queueOf s 262143).stopDue = some 1 ∧ (queueOf s 262143).path = .pcie ∧ s.work = []
       ∧ (queueOf s 262143).unreleased < (queueOf s 262143).entries
       ∧ judgeHost s.gates 262143 0 true ((queueOf s 262143).cqBase.toNat + 16 * (queueOf s 262143).cqTail) 16 = none)
      ∧ (let s := { withQueue 0 aQueue up with nonces := [(0, 2 ^ 54 - 1)] }
         (queueOf s 0).st = .active ∧ tgetD s.nonces 0 0 = 2 ^ 54 - 1)
      ∧ (let s := withQueue 0 { aQueue with st := .disabling } up
         (queueOf s 0).st = .disabling ∧ (queueOf s 0).stopDue = none ∧ s.work.all (fun w => w.qix != 0) = true ∧ (queueOf s 0).byFn = false)
      ∧ (let s := withQueue 0 { aQueue with st := .disabling, byFn := true } up
         (queueOf s 0).st = .disabling ∧ (queueOf s 0).byFn = true) := by decide

/-! Entries. -/

/-- A NOP entry. -/
def nopEnt : Bytes := zeros 12 ++ le 4 0xABCD ++ zeros 16

/-- An XTS_ENC entry of 512 bytes with the storage key at index 18. -/
def xtsEnt : Bytes := le 1 4 ++ le 1 0 ++ le 2 18 ++ le 3 512 ++ le 2 0 ++ zeros 3 ++ le 4 0xABCD ++ le 8 0x30000 ++ le 8 0x40000

/-- A queue with its keys and a rule set. -/
def keyedQueue : Queue := { aQueue with skey := BitVec.ofNat 32 (2 ^ 30), jkey := 17, ruleset := 3 }

/-- A rule set of one rule that a message of 16 bytes fails (R181). -/
def rejectSet : Bytes := zeros 4 ++ [1] ++ zeros 11 ++ [8] ++ zeros 7 ++ le 8 17 ++ le 8 20

/-- The unit with its keys and two queues; queue 4 has an entry to fetch, queue 5 holds its messages (FLG.HOLD). -/
def keyedRing : State :=
  { upGates (keyedTo (some 4)) with
    queues := [(4, { keyedQueue with sqTail := 1 }), (5, { keyedQueue with hold := true })]
    oldRules := [(3, { ver := 1, body := rejectSet })] }

theorem test_asks_Fetch :
    ∃ p, quiet keyedRing = true ∧ fetchOpen keyedRing = true ∧ fetchPick keyedRing 0 = some p ∧ p.queue = 4 ∧ p.fn = 0
      ∧ judgeHost keyedRing.gates 0 0 false ((queueOf keyedRing 4).sqBase.toNat + 32 * (queueOf keyedRing 4).sqHead) 32 = none
      ∧ (∀ b ∈ [nopEnt, xtsEnt], b.length = 32 ∧ notYet keyedRing b = false
        ∧ (creditFor keyedRing (queueOf keyedRing 4).fn (ingressCharge b)).isSome = true
        ∧ stagingFits keyedRing (queueOf keyedRing 4).fn b = true)
      ∧ judgeHost keyedRing.gates 0 0 false (eSrc xtsEnt) (srcCount xtsEnt) = none ∧ (queueOf keyedRing 4).st = .active
      ∧ stage1 keyedRing (queueOf keyedRing 4) nopEnt = none ∧ queueReady keyedRing 0 (4, queueOf keyedRing 4) = true := by
  refine ⟨_, by decide +kernel, by decide +kernel, rfl, by decide +kernel, by decide +kernel, by decide +kernel, by decide +kernel,
    by decide +kernel, by decide +kernel, by decide +kernel, by decide +kernel⟩
theorem test_asks_Fetch_no_credit :
    (let s := { keyedRing with fns := { pf0 with inGuar := 0, inCap := 0 } :: List.replicate 15 {} }
     (fetchPick s 0).isSome = true ∧ creditFor s 0 (ingressCharge nopEnt) = none ∧ stage1 s (queueOf s 4) nopEnt = none
       ∧ notYet s nopEnt = false) := by decide +kernel

/-- A fetched entry of queue 4. -/
def fetched (e : Bytes) : Work := { qix := 4, ent := e, stage := .fetched, charge := 640 }

theorem test_asks_SourceArrives :
    (let s := { keyedRing with work := [fetched xtsEnt] }
     s.work = [fetched xtsEnt] ∧ (fetched xtsEnt).stage = .fetched ∧ s.pwr.standbyDue = false ∧ s.jrn.fill = jfill s
       ∧ (queueOf s 4).byFn = false ∧ overtaken s 4 = false
       ∧ overtaken { s with queues := [(4, { keyedQueue with st := .disabling })] } 4 = true
       ∧ stage2 xtsEnt (fit (srcCount xtsEnt) (zeros 528)) = none ∧ (queueOf s 4).path = .pcie
       ∧ judgeHost s.gates 4 (queueOf s 4).fn true ((queueOf s 4).cqBase.toNat + 16 * (queueOf s 4).cqTail) 16 = none) := by decide +kernel
theorem test_asks_NopCompletesInRingOrder :
    (let w : Work := { fetched nopEnt with stage := .arrived }
     let s := { keyedRing with work := [w] }
     s.work = [w] ∧ w.stage = .arrived ∧ eOpc w.ent = 0 ∧ w.seq = 0 ∧ w.waitDur = false ∧ (queueOf s 4).path = .pcie
       ∧ s.pwr.standbyDue = false ∧ s.jrn.fill = jfill s
       ∧ judgeHost s.gates 4 (queueOf s 4).fn true ((queueOf s 4).cqBase.toNat + 16 * (queueOf s 4).cqTail) 16 = none) := by decide

/-- An ACCEPT entry of 64 bytes. -/
def acceptEnt : Bytes := le 1 1 ++ zeros 3 ++ le 3 64 ++ zeros 5 ++ le 4 7 ++ le 8 0x30000 ++ le 8 0x40000

/-- A terminal record of 64 bytes that declares `n`. -/
def termRec (n : Nat) : Bytes := le 2 0x5754 ++ [1, 0] ++ le 4 n ++ zeros 56

theorem test_asks_DeclaredLengthIsCompared :
    let w : Work := { ent := acceptEnt, stage := .arrived }
    eOpc w.ent = 1 ∧ (∀ n ∈ [63, 64, 65], (termRec n).length = eLen w.ent ∧ headBad w.ent (termRec n) = none)
      ∧ eLen w.ent < num (termRec 65) 4 4 ∧ num (termRec 63) 4 4 < eLen w.ent ∧ num (termRec 64) 4 4 = eLen w.ent
      ∧ headBad w.ent (zeros 64) = some 0 ∧ (zeros 64).length = eLen w.ent := by decide
theorem test_declared_length_short :
    (takeSource (termRec 65) { ent := acceptEnt }).status = stLenShort ∧ (takeSource (termRec 63) { ent := acceptEnt }).status = stLenLong := by
  decide

/-! Dispatch. -/

/-- An XTS unit of queue 4 that waits for dispatch. -/
def xtsWork : Work := { qix := 4, ent := xtsEnt, src := zeros 528, stage := .arrived, charge := 640 }

theorem test_asks_TakenBackUnitsGoFirst :
    (let w : Work := { xtsWork with stage := .takenBack, seq := 9, nonce := 5, epoch := 1 }
     let v : Work := { w with seq := 11 }
     let s := { keyedRing with work := [v, xtsWork, w] }
     sealingOn s = true ∧ quiet s = true ∧ w ∈ s.work ∧ w.stage = .takenBack ∧ w.revoked = false
       ∧ (∀ x ∈ s.work, x.stage = .takenBack → x.revoked = false → x ≠ w → w.seq < x.seq)
       ∧ bestSlot s (unitCost s w) = some 0) := by decide +kernel
theorem test_asks_DispatchFixesTheThreeValues :
    (let s := { keyedRing with work := [xtsWork] }
     sealingOn s = true ∧ quiet s = true ∧ firstTaken s.work = none
       ∧ (arbitrate s ((eligible s [] s.work).filter fun x => (bestSlot s x.2).isSome)).map Choice.queue = some 4
       ∧ ((eligible s [] s.work).filter fun x => (bestSlot s x.2).isSome).find? (fun x => x.1.qix == 4) = some (xtsWork, 56)
       ∧ bestSlot s 56 = some 0 ∧ xtsWork.stage = .arrived ∧ xtsWork.seq = 0 ∧ eOpc xtsWork.ent ≠ 6 ∧ s.jrn.nextSeq < seqMark s) := by
  decide +kernel
theorem test_asks_NonceIsEpochQueueCounter : 2 ^ 24 - 1 < 2 ^ 24 ∧ 2 ^ 18 - 1 < 2 ^ 18 ∧ 2 ^ 54 - 1 < 2 ^ 54 := by decide

/-! The lanes. -/

/-- A tag that is not the one of the ciphertext does not verify. -/
theorem gcmOpen_otherTag (key iv aad pt : Bytes) : gcmOpen key iv aad (gcmSeal key iv aad pt).1 ((gcmSeal key iv aad pt).2 + 1) = none := by
  have ne : ∀ x : BitVec 128, ¬ x = x + 1 := fun x h => by
    have := congrArg BitVec.toNat h
    simp only [BitVec.toNat_add] at this
    have hx := x.isLt
    simp at this
    omega
  unfold gcmOpen gcmSeal
  simp only [ne, if_false]

theorem length_be (n v : Nat) : (be n v).length = n := by simp [be]

theorem beVal_be (n v : Nat) : beVal (be n v) = v % 256 ^ n := by simp [beVal, be, leVal_le]

/-- The tag at the end of a string. -/
theorem tagAt_end (a : Bytes) (n : Nat) (t : BitVec 128) (h : n = a.length) : tagAt (a ++ tagBytes t) n = t := by
  subst h
  unfold tagAt slice
  rw [List.drop_left, List.take_of_length_le (by rw [tagBytes, length_be]), tagBytes, beVal_be]
  apply BitVec.eq_of_toNat_eq
  have := t.isLt
  simp only [BitVec.toNat_ofNat]
  omega

/-- A dispatched unit of queue 4. -/
def dispatched (e src : Bytes) : Work :=
  { qix := 4, ent := e, src := src, stage := .dispatched, seq := 1, nonce := 77, epoch := 1 }

/-- The unit with one dispatched entry. -/
def inLane (w : Work) : State := { keyedRing with work := [w] }

/-- The header of a terminal record: 32 bytes. -/
def termHead : Bytes := (termRec 64).take 32

/-- A sealed terminal record with 16 bytes of plaintext; `t` is added to its tag. -/
def sealedTerm (t : BitVec 128) : Bytes :=
  termHead ++ (gcmSeal sessKey (slice termHead 16 12) termHead (zeros 16)).1
    ++ tagBytes ((gcmSeal sessKey (slice termHead 16 12) termHead (zeros 16)).2 + t)

theorem length_sealedTerm (t : BitVec 128) : (sealedTerm t).length = 64 := by
  have hl : termHead.length = 32 := by decide
  unfold sealedTerm tagBytes
  rw [List.length_append, List.length_append, length_be, length_gcmSeal, hl, length_zeros]

/-- The middle of three strings. -/
theorem slice_mid (a b c : Bytes) (n m : Nat) (hn : n = a.length) (hm : m = b.length) : slice (a ++ b ++ c) n m = b := by
  subst hn hm
  rw [slice, List.append_assoc, List.drop_left, List.take_left]

theorem sealedTerm_parts (t : BitVec 128) :
    (sealedTerm t).take 32 = termHead ∧ slice (sealedTerm t) 16 12 = slice termHead 16 12
      ∧ slice (sealedTerm t) 32 16 = (gcmSeal sessKey (slice termHead 16 12) termHead (zeros 16)).1
      ∧ tagAt (sealedTerm t) 48 = (gcmSeal sessKey (slice termHead 16 12) termHead (zeros 16)).2 + t := by
  have hl : termHead.length = 32 := by decide
  have hc : (gcmSeal sessKey (slice termHead 16 12) termHead (zeros 16)).1.length = 16 := by simp
  refine ⟨?_, ?_, ?_, ?_⟩
  · unfold sealedTerm
    rw [List.append_assoc, ← hl, List.take_left]
  · unfold sealedTerm slice
    rw [List.append_assoc, List.drop_append_of_le_length (by rw [hl]; omega),
      List.take_append_of_le_length (by simp [hl])]
  · exact slice_mid _ _ _ 32 16 hl.symm hc.symm
  · exact tagAt_end _ 48 _ (by rw [List.length_append, hl, hc])

theorem skey_ring (q : Nat) (h : q = 4 ∨ q = 5) : nameOf keyedRing (queueOf keyedRing q).skey.toNat = .session 0 := by
  rcases h with rfl | rfl <;> decide +kernel

theorem nameOf_inLane (w : Work) (h : Nat) : nameOf (inLane w) h = nameOf keyedRing h := by
  unfold nameOf genUsed genOf sessCount
  rfl

theorem queueOf_inLane (w : Work) (q : Nat) : queueOf (inLane w) q = queueOf keyedRing q := by
  unfold queueOf
  rfl

theorem sessSecret_congr {s t : State} (h : s.keys = t.keys) (i : Nat) : sessSecret s i = sessSecret t i := by
  unfold sessSecret
  rw [h]

theorem secretOf_congr {s t : State} (hk : s.keys = t.keys) (hn : s.nv = t.nv) (i : Nat) : secretOf s i = secretOf t i := by
  unfold secretOf operatorSecret domainSecret rootBytes genUsed genOf keyRec
  rw [hk, hn]

theorem keyRec_congr {s t : State} (hn : s.nv = t.nv) (i : Nat) : keyRec s i = keyRec t i := by
  unfold keyRec
  rw [hn]

theorem keys_inLane (w : Work) : (inLane w).keys = (keyedTo (some 4)).keys := rfl
theorem nv_inLane (w : Work) : (inLane w).nv = (keyedTo (some 4)).nv := rfl

theorem sess_inLane (w : Work) : tget (inLane w).keys.sess 0 = some (sealSess rooted 0 (sessRec (some 4)) 0 sessKey) := by
  rw [keys_inLane]
  rfl

theorem sealSess_keyId (s : State) (i : Nat) (x : SessRec) (iv : BitVec 96) (k : Bytes) : (sealSess s i x iv k).keyId = x.keyId := rfl

theorem sessSecret_inLane (w : Work) : sessSecret (inLane w) 0 = some sessKey :=
  (sessSecret_congr (keys_inLane w) 0).trans (sessSecret_keyed (some 4))

theorem opKey_of_session {s : State} {w : Work} {i : Nat} {x : SessRec} {k : Bytes} (e : eOpc w.ent = 1 ∨ eKix w.ent = 0xFFFF)
    (hq : nameOf s (queueOf s w.qix).skey.toNat = .session i) (hx : tget s.keys.sess i = some x) (hs : sessSecret s i = some k) :
    opKey s w = some (x.keyId.toNat, k) := by
  unfold opKey
  simp only [e, if_true, hq, hx, hs]

theorem opKey_session (w : Work) (h : w.qix = 4 ∨ w.qix = 5) (e : eOpc w.ent = 1 ∨ eKix w.ent = 0xFFFF) :
    opKey (inLane w) w = some (9, sessKey) := by
  have hq : nameOf (inLane w) (queueOf (inLane w) w.qix).skey.toNat = .session 0 := by
    rw [nameOf_inLane, queueOf_inLane]
    exact skey_ring _ h
  rw [opKey_of_session e hq (sess_inLane w) (sessSecret_inLane w), sealSess_keyId]
  rfl

/-- An entry with a persistent key takes that key. -/
theorem opKey_persistent (w : Work) (i kind : Nat) (h : (i, kind) ∈ [(17, 0x14), (18, 0x12), (19, 0x11), (20, 0x13)])
    (h1 : eOpc w.ent ≠ 1) (hi : eKix w.ent = i) : opKey (inLane w) w = some (2, childSecret kind) := by
  have hk := keyRec_child (some 4) i kind h
  have hs := secretOf_keyed (some 4) i kind h
  rw [← keyRec_congr (nv_inLane w)] at hk
  rw [← secretOf_congr (keys_inLane w) (nv_inLane w)] at hs
  have hn : ¬(eOpc w.ent = 1 ∨ eKix w.ent = 0xFFFF) := by
    simp only [List.mem_cons, List.not_mem_nil, or_false, Prod.mk.injEq] at h
    omega
  have hid : (sealedRec (wrapKey opSecret 16 0) i (childHead kind) (childSecret kind)).keyId.toNat = 2 := rfl
  unfold opKey
  simp only []
  rw [if_neg hn, hi, hk, hs]
  simp only [hid]

/-- The receipt key of the journal key at index 17. -/
def receiptKey17 : Bytes := kdf (childSecret 0x14) "FLRECEIPT" [] 256

theorem receiptKeyOf_inLane (w : Work) (h : w.qix = 4) : receiptKeyOf (inLane w) (queueOf (inLane w) w.qix) = some receiptKey17 := by
  have ha : handleActive keyedRing (queueOf keyedRing 4).jkey 0x14 = true := by decide +kernel
  have hi : keyIndex (queueOf keyedRing 4).jkey = 17 := by decide +kernel
  have hc : handleActive (inLane w) (queueOf keyedRing 4).jkey 0x14 = handleActive keyedRing (queueOf keyedRing 4).jkey 0x14 := by
    unfold handleActive activeKey keyState keyRec genBad
    rw [nameOf_inLane]
    rfl
  have hs := secretOf_keyed (some 4) 17 0x14 (by decide)
  rw [← secretOf_congr (keys_inLane w) (nv_inLane w)] at hs
  unfold receiptKeyOf receiptKey
  rw [h, queueOf_inLane, hc, ha, hi, hs]
  rfl

/-- What the statement about the lanes asks of every operation. -/
def LaneAsks (w : Work) : Prop :=
  (inLane w).work = [] ++ w :: [] ∧ w.seq = 1 ∧ w.stage = .dispatched ∧ w.pre = 0 ∧ w.revoked = false

theorem laneAsks_dispatched (e src : Bytes) : LaneAsks (dispatched e src) := ⟨rfl, rfl, rfl, rfl, rfl⟩

/-- What an ACCEPT of a sealed terminal record opens to. -/
theorem accept_opens (w : Work) (t : BitVec 128) (h : w.src = sealedTerm t) :
    gcmOpen sessKey (slice w.src 16 12) (w.src.take 32) (slice w.src 32 (w.src.length - 48)) (tagAt w.src (w.src.length - 16))
      = gcmOpen sessKey (slice termHead 16 12) termHead (gcmSeal sessKey (slice termHead 16 12) termHead (zeros 16)).1
          ((gcmSeal sessKey (slice termHead 16 12) termHead (zeros 16)).2 + t) := by
  obtain ⟨a, b, c, d⟩ := sealedTerm_parts t
  rw [h, length_sealedTerm, a, b, c, d]

theorem test_asks_Accept_fails :
    let w := dispatched acceptEnt (sealedTerm 1)
    LaneAsks w ∧ eOpc w.ent = 1 ∧ opKey (inLane w) w = some (9, sessKey)
      ∧ receiptKeyOf (inLane w) (queueOf (inLane w) w.qix) = some receiptKey17
      ∧ gcmOpen sessKey (slice w.src 16 12) (w.src.take 32) (slice w.src 32 (w.src.length - 48)) (tagAt w.src (w.src.length - 16)) = none := by
  refine ⟨laneAsks_dispatched _ _, by decide, opKey_session _ (.inl rfl) (.inl (by decide)), receiptKeyOf_inLane _ rfl, ?_⟩
  rw [accept_opens _ 1 rfl]
  exact gcmOpen_otherTag _ _ _ _

theorem test_asks_Accept_passes :
    let w := dispatched acceptEnt (sealedTerm 0)
    LaneAsks w ∧ opKey (inLane w) w = some (9, sessKey)
      ∧ gcmOpen sessKey (slice w.src 16 12) (w.src.take 32) (slice w.src 32 (w.src.length - 48)) (tagAt w.src (w.src.length - 16))
          = some (zeros 16)
      ∧ rulesVerdict w.draws ((w.rs.bind (ruleBody keyedRing 3)).getD []) (zeros 16) (num w.src 8 8) = none := by
  refine ⟨laneAsks_dispatched _ _, opKey_session _ (.inl rfl) (.inl (by decide)), ?_, rfl⟩
  rw [accept_opens _ 0 rfl, show ∀ x : BitVec 128, x + 0 = x from BitVec.add_zero]
  exact gcmOpen_gcmSeal _ _ _ _

theorem test_asks_Accept_rejects :
    let w : Work := { dispatched acceptEnt (sealedTerm 0) with rs := some 1 }
    LaneAsks w ∧ opKey (inLane w) w = some (9, sessKey)
      ∧ rulesVerdict w.draws ((w.rs.bind (ruleBody keyedRing 3)).getD []) (zeros 16) (num w.src 8 8) = some (stRuleReject, 0)
      ∧ queueOf (inLane w) w.qix = queueOf keyedRing 4 ∧ (queueOf keyedRing 4).ruleset = 3 := by
  have hv : ∀ n, rulesVerdict [] ((some 1).bind (ruleBody keyedRing 3) |>.getD []) (zeros 16) n = some (stRuleReject, 0) := fun n => by
    have hb : ((some 1).bind (ruleBody keyedRing 3)).getD [] = rejectSet := by decide +kernel
    rw [hb]
    rfl
  exact ⟨⟨rfl, rfl, rfl, rfl, rfl⟩, opKey_session _ (.inl rfl) (.inl (by decide)), hv _, rfl, rfl⟩

/-- A SEAL entry of 16 bytes without AAD. -/
def sealEnt : Bytes := le 1 2 ++ le 1 0 ++ le 2 0xFFFF ++ le 3 16 ++ zeros 5 ++ le 4 7 ++ le 8 0x30000 ++ le 8 0x40000

/-- An OPEN entry of 16 bytes without AAD. -/
def openEnt : Bytes := le 1 3 ++ le 1 0 ++ le 2 0xFFFF ++ le 3 16 ++ zeros 5 ++ le 4 7 ++ le 8 0x30000 ++ le 8 0x40000

theorem test_asks_Seal :
    let w := dispatched sealEnt (zeros 16)
    LaneAsks w ∧ eOpc w.ent = 2 ∧ opKey (inLane w) w = some (9, sessKey) ∧ unitsOf w.ent w.src = 1 :=
  ⟨laneAsks_dispatched _ _, by decide, opKey_session _ (.inl rfl) (.inr (by decide)), by decide⟩

/-- The header of a sealed message under the session key. -/
def msgHead : Bytes := le 2 0x0102 ++ zeros 22 ++ le 4 9 ++ zeros 4

/-- A sealed message of 16 bytes; `t` is added to its tag. -/
def sealedMsg (t : BitVec 128) : Bytes :=
  msgHead ++ (gcmSeal sessKey (slice msgHead 12 12) (msgHead ++ []) (zeros 16)).1
    ++ tagBytes ((gcmSeal sessKey (slice msgHead 12 12) (msgHead ++ []) (zeros 16)).2 + t)

theorem sealedMsg_parts (t : BitVec 128) :
    slice (sealedMsg t) 0 32 = msgHead
      ∧ slice (sealedMsg t) 32 16 = (gcmSeal sessKey (slice msgHead 12 12) (msgHead ++ []) (zeros 16)).1
      ∧ tagAt (sealedMsg t) 48 = (gcmSeal sessKey (slice msgHead 12 12) (msgHead ++ []) (zeros 16)).2 + t := by
  have hl : msgHead.length = 32 := by decide
  have hc : (gcmSeal sessKey (slice msgHead 12 12) (msgHead ++ []) (zeros 16)).1.length = 16 := by rw [length_gcmSeal, length_zeros]
  refine ⟨?_, ?_, ?_⟩
  · unfold sealedMsg slice
    rw [List.append_assoc, List.drop_zero, ← hl, List.take_left]
  · exact slice_mid _ _ _ 32 16 hl.symm hc.symm
  · exact tagAt_end _ 48 _ (by rw [List.length_append, hl, hc])

/-- What OPEN asks, with the outcome of the tag. -/
theorem open_asks (w : Work) (t : BitVec 128) (hs : w.src = sealedMsg t) (he : w.ent = openEnt) (hu : w.unit = 0)
    (hq : w.qix = 4 ∨ w.qix = 5) :
    eOpc w.ent = 3 ∧ opKey (inLane w) w = some (9, sessKey) ∧ unitsOf w.ent w.src = 1 ∧ w.unit = 0
      ∧ num (slice w.src (eAadLen w.ent) 32) 24 4 = 9
      ∧ gcmOpen sessKey (slice (slice w.src (eAadLen w.ent) 32) 12 12) (slice w.src (eAadLen w.ent) 32 ++ w.src.take (eAadLen w.ent))
          (slice w.src (eAadLen w.ent + 32) (eLen w.ent)) (tagAt w.src (eAadLen w.ent + 32 + eLen w.ent))
        = gcmOpen sessKey (slice msgHead 12 12) (msgHead ++ []) (gcmSeal sessKey (slice msgHead 12 12) (msgHead ++ []) (zeros 16)).1
          ((gcmSeal sessKey (slice msgHead 12 12) (msgHead ++ []) (zeros 16)).2 + t) := by
  obtain ⟨a, b, c⟩ := sealedMsg_parts t
  have ha : eAadLen openEnt = 0 := by decide
  have hn : eLen openEnt = 16 := by decide
  have hun : ∀ x : Bytes, unitsOf openEnt x = 1 := fun x => by
    have h1 : outCount openEnt x = 16 := by
      unfold outCount
      rw [show eOpc openEnt = 3 from by decide]
      exact hn
    unfold unitsOf
    rw [h1]
    simp
  refine ⟨by rw [he]; decide, opKey_session w hq (.inr (by rw [he]; decide)), by rw [he]; exact hun _, hu, ?_, ?_⟩
  · rw [hs, he, ha, a]
    decide
  · rw [hs, he, ha, hn, a, List.take_zero, Nat.zero_add, b, c]

theorem test_asks_Open :
    (let w := dispatched openEnt (sealedMsg 0)
     LaneAsks w ∧ gcmOpen sessKey (slice (slice w.src (eAadLen w.ent) 32) 12 12)
        (slice w.src (eAadLen w.ent) 32 ++ w.src.take (eAadLen w.ent)) (slice w.src (eAadLen w.ent + 32) (eLen w.ent))
        (tagAt w.src (eAadLen w.ent + 32 + eLen w.ent)) = some (zeros 16))
      ∧ ∀ q hold, (q, hold) ∈ [(4, false), (5, true)] →
        let w : Work := { dispatched openEnt (sealedMsg 1) with qix := q }
        LaneAsks w ∧ needsHold (inLane w) w = hold
          ∧ gcmOpen sessKey (slice (slice w.src (eAadLen w.ent) 32) 12 12)
            (slice w.src (eAadLen w.ent) 32 ++ w.src.take (eAadLen w.ent)) (slice w.src (eAadLen w.ent + 32) (eLen w.ent))
            (tagAt w.src (eAadLen w.ent + 32 + eLen w.ent)) = none := by
  refine ⟨⟨laneAsks_dispatched _ _, ?_⟩, fun q hold h => ?_⟩
  · rw [(open_asks _ 0 rfl rfl rfl (.inl rfl)).2.2.2.2.2, show ∀ x : BitVec 128, x + 0 = x from BitVec.add_zero]
    exact gcmOpen_gcmSeal _ _ _ _
  · have hq : q = 4 ∨ q = 5 := by
      simp only [List.mem_cons, List.not_mem_nil, or_false, Prod.mk.injEq] at h
      omega
    refine ⟨⟨rfl, rfl, rfl, rfl, rfl⟩, ?_, ?_⟩
    · unfold needsHold
      rw [queueOf_inLane]
      simp only [List.mem_cons, List.not_mem_nil, or_false, Prod.mk.injEq] at h
      rcases h with ⟨rfl, rfl⟩ | ⟨rfl, rfl⟩ <;> decide +kernel
    · rw [(open_asks _ 1 rfl rfl rfl hq).2.2.2.2.2]
      exact gcmOpen_otherTag _ _ _ _

/-- A SEAL and an OPEN entry of 70,000 bytes without AAD: two units. -/
def longEnt (opc : Nat) : Bytes := le 1 opc ++ le 1 0 ++ le 2 0xFFFF ++ le 3 70000 ++ zeros 5 ++ le 4 7 ++ le 8 0x30000 ++ le 8 0x40000

theorem unitsOf_long (opc : Nat) (h : opc = 2 ∨ opc = 3) (x : Bytes) : unitsOf (longEnt opc) x = 2 := by
  have he : eOpc (longEnt opc) = opc := by rcases h with rfl | rfl <;> decide
  have hc : outCount (longEnt opc) x = if opc = 2 then 70048 else 70000 := by
    have hl : eLen (longEnt opc) = 70000 := by rcases h with rfl | rfl <;> decide
    unfold outCount
    rw [he]
    rcases h with rfl | rfl <;> simp [hl]
  unfold unitsOf
  rw [he, hc]
  rcases h with rfl | rfl <;> rfl

theorem test_asks_Seal_long : ∀ u, u = 0 ∨ u = 1 →
    let w : Work := { dispatched (longEnt 2) [] with unit := u }
    LaneAsks w ∧ eOpc w.ent = 2 ∧ opKey (inLane w) w = some (9, sessKey) ∧ unitsOf w.ent w.src ≠ 1 ∧ lastUnit w = (u == 1) := by
  intro u hu
  have hn : ∀ x, unitsOf (longEnt 2) x = 2 := unitsOf_long 2 (.inl rfl)
  have h2 : eOpc (longEnt 2) = 2 := by decide
  have hk : eKix (longEnt 2) = 0xFFFF := by decide
  refine ⟨⟨rfl, rfl, rfl, rfl, rfl⟩, h2, opKey_session _ (.inl rfl) (.inr hk), ?_, ?_⟩
  · show unitsOf (longEnt 2) [] ≠ 1
    rw [hn]
    decide
  · unfold lastUnit
    show decide (unitsOf (longEnt 2) [] ≤ u + 1) = (u == 1)
    rw [hn]
    rcases hu with rfl | rfl <;> rfl

/-- A sealed message of two units with a tag. -/
def longMsg (t : BitVec 128) : Bytes := msgHead ++ zeros 70000 ++ tagBytes t

theorem longMsg_parts (t : BitVec 128) :
    slice (longMsg t) 0 32 = msgHead ∧ slice (longMsg t) 32 70000 = zeros 70000 ∧ tagAt (longMsg t) 70032 = t := by
  have hl : msgHead.length = 32 := by decide
  refine ⟨?_, slice_mid _ _ _ 32 70000 hl.symm (length_zeros 70000).symm, tagAt_end _ 70032 t (by rw [List.length_append, hl, length_zeros])⟩
  unfold longMsg slice
  rw [List.append_assoc, List.drop_zero, ← hl, List.take_left]

/-- The GCM state of the last piece of the long message. -/
def longEnd (w : Work) : GcmState :=
  (gcmPiece true sessKey (slice msgHead 12 12) (gcmAt sessKey (msgHead ++ []) w)
    (slice (zeros 70000) (unitFrom w.ent w.unit) (unitTo w.ent w.src w.unit - unitFrom w.ent w.unit))).2

theorem test_asks_Open_long : ∀ good : Bool, ∃ t : BitVec 128,
    let w : Work := { dispatched (longEnt 3) (longMsg t) with unit := 1 }
    LaneAsks w ∧ eOpc w.ent = 3 ∧ opKey (inLane w) w = some (9, sessKey) ∧ num (slice w.src (eAadLen w.ent) 32) 24 4 = 9
      ∧ unitsOf w.ent w.src ≠ 1 ∧ lastUnit w = true ∧ needsHold (inLane w) w = false
      ∧ (slice w.src (eAadLen w.ent) 32 = msgHead ∧ slice w.src (eAadLen w.ent + 32) (eLen w.ent) = zeros 70000)
      ∧ (gcmEnd sessKey (slice msgHead 12 12) (msgHead ++ []).length (eLen w.ent) (longEnd w)
          = tagAt w.src (eAadLen w.ent + 32 + eLen w.ent) ↔ good = true) := by
  intro good
  have hn : ∀ x, unitsOf (longEnt 3) x = 2 := unitsOf_long 3 (.inr rfl)
  have ha : eAadLen (longEnt 3) = 0 := by decide
  have hl : eLen (longEnt 3) = 70000 := by decide
  let e := gcmEnd sessKey (slice msgHead 12 12) (msgHead ++ []).length 70000 (longEnd { dispatched (longEnt 3) [] with unit := 1 })
  have hw : ∀ x, longEnd { dispatched (longEnt 3) x with unit := 1 } = longEnd { dispatched (longEnt 3) [] with unit := 1 } := fun x => by
    unfold longEnd unitTo
    show (gcmPiece _ _ _ _ (slice _ _ ((if _ < unitsOf (longEnt 3) x then _ else _) - _))).2
      = (gcmPiece _ _ _ _ (slice _ _ ((if _ < unitsOf (longEnt 3) [] then _ else _) - _))).2
    rw [hn, hn]
    rfl
  have ne : ∀ x : BitVec 128, ¬ x = x + 1 := fun x h => by
    have h := congrArg BitVec.toNat h
    simp only [BitVec.toNat_add] at h
    have hx := x.isLt
    simp at h
    omega
  have h3 : eOpc (longEnt 3) = 3 := by decide
  have hk : eKix (longEnt 3) = 0xFFFF := by decide
  refine ⟨if good then e else e + 1, ⟨rfl, rfl, rfl, rfl, rfl⟩, h3, opKey_session _ (.inl rfl) (.inr hk), ?_, ?_, ?_, ?_, ⟨?_, ?_⟩, ?_⟩
  · show num (slice (longMsg _) (eAadLen (longEnt 3)) 32) 24 4 = 9
    rw [ha, (longMsg_parts _).1]
    decide
  · show unitsOf (longEnt 3) _ ≠ 1
    rw [hn]
    decide
  · unfold lastUnit
    show decide (unitsOf (longEnt 3) _ ≤ 1 + 1) = true
    rw [hn]
    rfl
  · unfold needsHold
    rw [queueOf_inLane]
    show (_ == 3 && (queueOf keyedRing 4).hold) = false
    rw [show (queueOf keyedRing 4).hold = false from by decide +kernel, Bool.and_false]
  · show slice (longMsg _) (eAadLen (longEnt 3)) 32 = msgHead
    rw [ha, (longMsg_parts _).1]
  · show slice (longMsg _) (eAadLen (longEnt 3) + 32) (eLen (longEnt 3)) = _
    rw [ha, hl, Nat.zero_add, (longMsg_parts _).2.1]
  · rw [hw]
    show gcmEnd _ _ _ (eLen (longEnt 3)) _ = tagAt (longMsg _) (eAadLen (longEnt 3) + 32 + eLen (longEnt 3)) ↔ _
    rw [ha, hl]
    show gcmEnd _ _ _ 70000 _ = tagAt (longMsg _) 70032 ↔ _
    rw [(longMsg_parts _).2.2]
    show e = (if good then e else e + 1) ↔ good = true
    cases good
    · simp
    · simp

/-- A status that the checks decided, and a key that is not there. -/
theorem test_asks_Lanes_decided :
    (let w : Work := { dispatched xtsEnt (zeros 528) with pre := stQueueDisabled }; eOpc w.ent = 4 ∧ w.pre ≠ 0)
      ∧ (let w := dispatched (le 1 4 ++ le 1 0 ++ le 2 30 ++ xtsEnt.drop 4) (zeros 528); eOpc w.ent = 4 ∧ opKey (inLane w) w = none)
      ∧ (((inLane (dispatched xtsEnt [])).lanes.getD 0 {}).out.map (·.out.length)).sum + 131072 ≤ 131072 := by
  refine ⟨by decide, ⟨by decide, rfl⟩, by decide⟩

/-- An XTS_DEC entry. -/
def xtsDecEnt : Bytes := le 1 5 ++ xtsEnt.drop 1

/-- An OUTCOME entry. -/
def outcomeEnt : Bytes := le 1 6 ++ zeros 3 ++ le 3 32 ++ zeros 5 ++ le 4 7 ++ le 8 0x30000 ++ le 8 0x40000

/-- An OUTCOME request for one outcome of draw 5. -/
def outcomeReq : Bytes := le 2 0x4F43 ++ [1, 1] ++ le 4 5 ++ zeros 24

/-- A VERIFY_RECEIPT entry of 108 bytes. -/
def verifyEnt : Bytes := le 1 7 ++ zeros 3 ++ le 3 108 ++ zeros 5 ++ le 4 7 ++ le 8 0x30000 ++ le 8 0x40000

theorem test_asks_Xts :
    (let w := dispatched xtsEnt (zeros 528); LaneAsks w ∧ eOpc w.ent = 4 ∧ opKey (inLane w) w = some (2, childSecret 0x12))
      ∧ (let w := dispatched xtsDecEnt (zeros 528); LaneAsks w ∧ eOpc w.ent = 5 ∧ opKey (inLane w) w = some (2, childSecret 0x12)) :=
  ⟨⟨laneAsks_dispatched _ _, by decide, opKey_persistent _ 18 0x12 (by decide) (by decide) (by decide)⟩,
    laneAsks_dispatched _ _, by decide, opKey_persistent _ 18 0x12 (by decide) (by decide) (by decide)⟩

theorem test_asks_Outcome :
    let w := dispatched outcomeEnt outcomeReq
    LaneAsks w ∧ eOpc w.ent = 6 ∧ receiptKeyOf (inLane w) (queueOf (inLane w) w.qix) = some receiptKey17
      ∧ drawOf (inLane w) (num w.src 4 4) = some draw5 :=
  ⟨laneAsks_dispatched _ _, by decide, receiptKeyOf_inLane _ rfl, by
    unfold drawOf
    rw [nv_inLane]
    decide +kernel⟩

/-- The first 76 bytes of a receipt under the journal key. -/
def receiptHead : Bytes := le 2 0x0101 ++ zeros 26 ++ le 4 2 ++ zeros 44

/-- A receipt of 16 bytes of plaintext. -/
def sealedReceipt : Bytes :=
  receiptHead ++ (gcmSeal receiptKey17 (slice receiptHead 16 12) receiptHead (zeros 16)).1
    ++ tagBytes (gcmSeal receiptKey17 (slice receiptHead 16 12) receiptHead (zeros 16)).2

theorem jkeyId_inLane (w : Work) (h : w.qix = 4) : jkeyId (inLane w) (queueOf (inLane w) w.qix) = 2 := by
  have hk := keyRec_child (some 4) 17 0x14 (by decide)
  rw [← keyRec_congr (nv_inLane w)] at hk
  have hi : keyIndex (queueOf keyedRing 4).jkey = 17 := by decide +kernel
  unfold jkeyId
  rw [h, queueOf_inLane, hi, hk]
  rfl

theorem test_asks_VerifyReceipt_good :
    let w := dispatched verifyEnt sealedReceipt
    LaneAsks w ∧ eOpc w.ent = 7 ∧ receiptKeyOf (inLane w) (queueOf (inLane w) w.qix) = some receiptKey17
      ∧ num w.src 28 4 = jkeyId (inLane w) (queueOf (inLane w) w.qix) ∧ num w.src 2 2 = sflags (inLane w)
      ∧ (gcmOpen receiptKey17 (slice w.src 16 12) (w.src.take 76) (slice w.src 76 (w.src.length - 92))
          (tagAt w.src (w.src.length - 16))).isSome = true := by
  have hl : receiptHead.length = 76 := by decide
  have hc : (gcmSeal receiptKey17 (slice receiptHead 16 12) receiptHead (zeros 16)).1.length = 16 := by rw [length_gcmSeal, length_zeros]
  have hs : ∀ n m, n + m ≤ 76 → slice sealedReceipt n m = slice receiptHead n m := fun n m h => by
    unfold sealedReceipt slice
    rw [List.append_assoc, List.drop_append_of_le_length (by omega), List.take_append_of_le_length (by rw [List.length_drop]; omega)]
  have ht : sealedReceipt.take 76 = receiptHead := by
    unfold sealedReceipt
    rw [List.append_assoc, ← hl, List.take_left]
  have hm : slice sealedReceipt 76 16 = (gcmSeal receiptKey17 (slice receiptHead 16 12) receiptHead (zeros 16)).1 :=
    slice_mid _ _ _ 76 16 hl.symm hc.symm
  have hg : tagAt sealedReceipt 92 = (gcmSeal receiptKey17 (slice receiptHead 16 12) receiptHead (zeros 16)).2 :=
    tagAt_end _ 92 _ (by rw [List.length_append, hl, hc])
  have hn : sealedReceipt.length = 108 := by
    unfold sealedReceipt tagBytes
    rw [List.length_append, List.length_append, length_be, hc, hl]
  refine ⟨laneAsks_dispatched _ _, by decide, receiptKeyOf_inLane _ rfl, ?_, ?_, ?_⟩
  · rw [jkeyId_inLane _ rfl]
    show leVal (slice sealedReceipt 28 4) = 2
    rw [hs 28 4 (by omega)]
    decide
  · show leVal (slice sealedReceipt 2 2) = 0
    rw [hs 2 2 (by omega)]
    decide
  · show (gcmOpen receiptKey17 (slice sealedReceipt 16 12) (sealedReceipt.take 76) (slice sealedReceipt 76 (sealedReceipt.length - 92))
      (tagAt sealedReceipt (sealedReceipt.length - 16))).isSome = true
    rw [hn, hs 16 12 (by omega), ht, hm, hg, gcmOpen_gcmSeal]
    rfl

theorem test_asks_VerifyReceipt_bad :
    let w := dispatched verifyEnt (zeros 108)
    LaneAsks w ∧ eOpc w.ent = 7 ∧ ¬(num w.src 28 4 = jkeyId (inLane w) (queueOf (inLane w) w.qix)) := by
  refine ⟨laneAsks_dispatched _ _, by decide, ?_⟩
  rw [jkeyId_inLane _ rfl]
  decide

/-- An OPEN unit whose source is what a SEAL unit wrote. -/
def opening (w : Work) : Work := { dispatched openEnt (w.src.take (eAadLen w.ent) ++ (sealUnit (inLane w) w).out) with seq := 2 }

theorem test_asks_OpenReadsWhatSealWrote :
    let w := dispatched sealEnt (zeros 16)
    let w' := opening w
    eOpc w.ent = 2 ∧ eOpc w'.ent = 3 ∧ opKey (inLane w) w = some (9, sessKey) ∧ opKey (inLane w') w' = some (9, sessKey) ∧ 9 < 2 ^ 32
      ∧ eAadLen w'.ent = eAadLen w.ent ∧ eLen w'.ent = eLen w.ent ∧ w.src.length = eAadLen w.ent + eLen w.ent ∧ unitsOf w.ent w.src = 1
      ∧ unitsOf w'.ent w'.src = 1 ∧ w'.src = w.src.take (eAadLen w.ent) ++ (sealUnit (inLane w) w).out := by
  have h : eOpc openEnt = 3 ∧ eAadLen openEnt = 0 ∧ eLen openEnt = 16 ∧ eKix openEnt = 0xFFFF := by decide
  have hu : ∀ x : Bytes, unitsOf openEnt x = 1 := fun x => by
    have h1 : outCount openEnt x = 16 := by
      unfold outCount
      rw [h.1]
      exact h.2.2.1
    unfold unitsOf
    rw [h1]
    simp
  exact ⟨by decide, h.1, opKey_session _ (.inl rfl) (.inr (by decide)), opKey_session _ (.inl rfl) (.inr h.2.2.2), by decide,
    h.2.1.trans (by decide), h.2.2.1.trans (by decide), by decide, by decide, hu _, rfl⟩

/-- A unit of queue 4 whose results are in. -/
def computed (e : Bytes) : Work := { dispatched e (zeros 528) with stage := .computed, cost := 56 }

/-- The result of a unit. -/
def result (st : Nat) (out : Bytes) : UnitResult := { seq := 1, status := st, out := out }

/-- The unit with an entry whose result both lanes of slot 0 have delivered. -/
def withResult (w : Work) (r : UnitResult) : State :=
  { inLane w with lanes := List.replicate 2 { lane with out := [r] } ++ List.replicate 4 lane ++ [{}, {}] }

theorem test_asks_ReleaseWritesOutputAndLeaf :
    (∀ e ∈ [xtsEnt, longEnt 3],
      let w := computed e
      let r := result stOk (zeros 512)
      let s := withResult w r
      s.work = [w] ∧ releasable 1 w = true ∧ sealingOn s = true ∧ unitsServe s w = true ∧ inRingOrder s w = true ∧ detailWaits s w = false
        ∧ w.revoked = false ∧ w.claim = (s.slots.getD w.slot {}).claim ∧ delivered s w = some r ∧ (releaseStatus s (withVerdict r w)).1 = stOk
        ∧ w.stage = .computed ∧ (queueOf s w.qix).path = .pcie ∧ (queueOf s w.qix).byFn = false ∧ s.pwr.standbyDue = false
        ∧ s.jrn.fill = jfill s ∧ lastUnit w = (e == xtsEnt))
      ∧ (let w : Work := { computed xtsEnt with claim := 65535 }
         let s := inLane w
         releasable 1 w = true ∧ detailWaits s w = false ∧ w.claim ≠ (s.slots.getD w.slot {}).claim) := by decide +kernel
theorem test_asks_FailedAcceptWritesNothing :
    (let w := computed acceptEnt
     let r := result stAuthFail (zeros 16)
     eOpc w.ent = 1 ∧ (releaseStatus (withResult w r) (withVerdict r w)).1 ≠ stOk)
      ∧ (let w := computed acceptEnt
         let r := result stOk (zeros 16)
         let s := withResult w r
         eOpc w.ent = 1 ∧ (releaseStatus s (withVerdict r w)).1 = stOk ∧ (queueOf s w.qix).path = .pcie
           ∧ (queueOf s w.qix).byFn = false) := by decide +kernel
theorem test_asks_CompletionTellsDurability :
    let w : Work := { seq := 5 }
    w.seq ≠ 0 ∧ w.status = stOk ∧ durableSeq { up.jrn with durable := 5 } w.seq = true
      ∧ durableSeq { up.jrn with durable := 4 } w.seq = false
      ∧ ({ w with status := stAuthFail }).status ≠ stOk := by decide

/-! Pairs, lanes and banks. -/

/-- The unit whose slot `p` is a marked slot that drains; `n` lanes are powered off. -/
def marked (p : Nat) (marks : List Nat) : State :=
  { up with
    opsec := 3599
    slots := up.slots.modify p fun x => { x with laggard := true, suspects := [2 * p] }
    lanes := (up.lanes.set (2 * p) { lane with st := .draining, marks := marks }).set (2 * p + 1) { lane with st := .draining } }

/-- A unit of slot `p` that lags behind 4,097 releases. -/
def behind (p : Nat) : Work := { dispatched xtsEnt [] with slot := p, lag := 4097 }

theorem test_asks_PairsAreWithdrawn : ∀ p, p < 3 →
    served up = true ∧ (slotOf up p).inService = true ∧ up.slots.length = 3 ∧ up.lanes.length = 8 ∧ (slotOf up p).l0 = 2 * p
      ∧ (slotOf up p).l1 = 2 * p + 1 ∧ (laneOf up (2 * p)).st = .serving ∧ (laneOf up (2 * p + 1)).st = .serving ∧ lanesFor up p = []
      ∧ up.tamper.window = [] ∧ up.lc ≠ .scrap ∧ quiet up = true ∧ sparePair up = some (6, 7) ∧ (slotOf up p).laggard = false := by
  decide
theorem test_asks_PairsAreWithdrawn_behind : ∀ p, p < 3 →
    (behind p).slot = p ∧ (behind p).stage = .dispatched ∧ 4096 < (behind p).lag ∧ quiet { up with work := [behind p] } = true := by
  decide
theorem test_asks_PairsAreWithdrawn_lagging : ∀ p, p < 3 →
    let s := marked p [3599]
    served s = true ∧ s.slots.length = 3 ∧ s.lanes.length = 8 ∧ quiet s = true ∧ (slotOf s p).inService = true
      ∧ (slotOf s p).laggard = true ∧ lanesFor s p = [] := by decide
theorem test_asks_ThriceSuspectLaneFails : ∀ p, p < 3 →
    let s := marked p [0, 10, 3599]
    served s = true ∧ s.slots.length = 3 ∧ s.lanes.length = 8 ∧ (slotOf s p).inService = true ∧ (slotOf s p).laggard = true
      ∧ (slotOf s p).l0 = 2 * p ∧ (laneOf s (2 * p)).st = .draining ∧ (laneOf s (2 * p)).forSlot = none
      ∧ 3 ≤ ((laneOf s (2 * p)).marks.filter fun m => s.opsec < m + 3600).length := by decide
/-- The unit whose slot `p` is rebuilt with lanes 6 and 7. -/
def rebuilding (p : Nat) : State :=
  { up with
    slots := up.slots.modify p fun x => { x with inService := false, rebuilding := true }
    lanes := List.replicate 6 lane ++ List.replicate 2 { st := .starting, seeded := true, forSlot := some p } }

/-- The unit whose test rotation is at slot `p`, with two more lanes. -/
def rotation (p : Nat) (l6 l7 : Lane) : State :=
  { up with sched := { up.sched with rotation := p }, lanes := List.replicate 6 lane ++ [l6, l7] }

theorem test_asks_LaneTestsRotateAndDecide_pair : ∀ p, p < 3 →
    (rebuilding p).lanes.length = 8 ∧ (rebuilding p).slots.length = 3
      ∧ ((lanesFor (rebuilding p) p).filter fun n => (laneOf (rebuilding p) n).st == .starting) = [6, 7]
      ∧ (slotOf (rebuilding p) p).inService = false ∧ (rebuilding p).sched.testPending = false
      ∧ (let s := { rebuilding p with slots := up.slots }
         ((lanesFor s p).filter fun n => (laneOf s n).st == .starting) = [6, 7] ∧ (slotOf s p).inService = true
           ∧ (slotOf s p).l0 < 6 ∧ (slotOf s p).l1 < 6) := by decide
theorem test_asks_LaneTestsRotateAndDecide_one :
    let s := rotation 0 {} { st := .testing }
    s.lanes.length = 8 ∧ (laneOf s 7).st = .testing ∧ s.sched.laneTest = none ∧ s.sched.testPending = false
      ∧ s.slots.all (fun p => !p.rebuilding) = true ∧ served s = true ∧ lanesBusy s = true := by decide
theorem test_asks_LaneTestsRotateAndDecide_turn : ∀ p, p < 3 →
    (let s := { rotation p {} {} with opsec := 86400 }
     served s = true ∧ s.sched.laneAt + s.diag.lanePer ≤ s.opsec ∧ lanesBusy s = false ∧ s.pwr.standby = false ∧ s.sched.laneTest = none
       ∧ s.sched.rotation = p ∧ (slotOf s p).inService = true ∧ sparePair s = some (6, 7))
      ∧ (let s := { rotation p {} { st := .testing } with opsec := 86400 }
         served s = true ∧ s.sched.laneAt + s.diag.lanePer ≤ s.opsec ∧ lanesBusy s = true)
      ∧ (let s := rotation p {} { st := .failed }
         lanesBusy s = false ∧ sparePair s = none ∧ slotsIn s = 3 ∧ (slotOf s p).l0 < 8 ∧ (slotOf s p).l1 < 8)
      ∧ (let s := rotation p {} { st := .failed }
         let s := { s with slots := s.slots.modify ((p + 1) % 3) fun x => { x with inService := false } }
         lanesBusy s = false ∧ sparePair s = none ∧ slotsIn s < 3 ∧ (slotOf s p).inService = true) := by decide
theorem test_asks_LaneTestsRotateAndDecide_seed : (laneOf up 0).seeded = true ∧ condUp up 1 = true := by decide

/-- The unit with one bank another. -/
def withBank (b : Nat) (x : Bank) : State := { up with opsec := 60, banks := up.banks.set b x }

theorem test_asks_NoiseBanksFollowTheirTests_tests : ∀ b, b < 3 →
    (∀ x ∈ [{ bank with st := .starting }, { bank with st := .starting, retry := true }, { bank with st := .calibrating },
        { bank with st := .calibrating, low := 2 }],
      let s := withBank b x
      s.banks.length = 3 ∧ s.lark.runWait = [] ∧ (bankOf s b).deferred = false ∧ (bankOf s b).wantCal = false ∧ s.tamper.window = []
        ∧ s.lc ≠ .scrap ∧ (bankOf s b).st = x.st ∧ (bankOf s b).retry = x.retry
        ∧ bankCalibrating s = (x.st == .calibrating) ∧ (∀ c, c < 3 → (bankOf s c).ready = false))
      ∧ (let s := { up with banks := (up.banks.set b { bank with st := .starting }).set ((b + 1) % 3) { bank with st := .calibrating } }
         (bankOf s b).st = .starting ∧ bankCalibrating s = true)
      ∧ (let s := { withBank b { bank with st := .suspended } with opsec := 60 }
         (bankOf s b).st = .suspended ∧ (bankOf s b).suspOpsec + 60 ≤ s.opsec) := by decide
theorem test_asks_NoiseBanksFollowTheirTests_turn : ∀ b, b < 3 →
    (let s := { up with opsec := 86400, lark := { up.lark with calTurn := b } }
     (bankOf s b).st = .serving ∧ (bankOf s b).wantCal = false ∧ calTurnBank s = some b ∧ 2 ≤ othersServing s b ∧ served s = true)
      ∧ (let s := { up with
           opsec := 86400, lark := { up.lark with calTurn := b }, banks := (List.replicate 3 { bank with st := .failed }).set b bank }
         (bankOf s b).st = .serving ∧ calTurnBank s = some b ∧ othersServing s b < 2 ∧ served s = true)
      ∧ (let s := withBank b { bank with calTemp := 60 }
         (39 + 20 < (bankOf s b).calTemp) ∧ ((bankOf s b).calTemp + 20 < 81) ∧ 80 ≤ (bankOf s b).calTemp + 20 ∧ (bankOf s b).calTemp ≤ 40 + 20) := by
  decide

/-! Tamper responses, units. -/

theorem test_asks_TamperClassesRespond :
    ∀ x ∈ [(TClass.t1, Sensor.inputVoltage, 0), (.t3, .cardigan, 0), (.t4, .loopA, 0x2222222222222222)],
      let i : TamperIn := ⟨x.2.1, .attack, .powerDomain 79, false⟩
      let up := { up with otp := [(98, x.2.2)] }
      sensorsOn up = true ∧ up.lc ≠ .scrap ∧ up.lc ≠ .lost ∧ (judgeInput up i).map (·.1) = some x.1 ∧ up.tamper.window = []
        ∧ lastArray i up = false ∧ ¬(i.sensor = .vbat ∧ i.reading = .fault) ∧ quiet up = true ∧ up.fns.length = 16
        ∧ up.tamper.t3 = false := by decide
theorem test_asks_UnitsFailAndResetsFollow :
    (sensorsOn up = true ∧ powered up = true ∧ { up.tamper with t4Due := true }.t4Due = true ∧ { up with lcResetDue := true }.lcResetDue = true)
      ∧ (let s := { up with pkes := [{ inService := true }, { testing := true }] }; s.pkes[1]? = some { testing := true })
      ∧ (let s := withPower (fun p => { p with vbatPresent := true }) (inPhase .off)
         s.pwr.phase = .off ∧ s.pwr.vbatPresent = true ∧ quiet s = true ∧ s.tamper.latch.any (fun l => l.1 == 8) = false
           ∧ ({ s.tamper with latch := [(8, 0, 0)] }).latch.any (fun l => l.1 == 8) = true)
      ∧ (withPower (fun p => { p with vbatPresent := false }) (inPhase .off)).pwr.vbatPresent = false
      ∧ (1000 < 1001 ∧ 1000 ≤ 1000) := by decide
/-! A draw that was issuing when power went away. -/

/-- Its seed. -/
def seed5 : Bytes := zeros 48

/-- The key its seed is sealed under. -/
def seedKey5 : Bytes := kdf (childSecret 0x13) "FLSEED" [] 256

/-- Its record, before the commitment. -/
def issuing5 : Draw :=
  { id := 5, st := .issuing, sigkey := 20, jkey := 17, seed := ⟨.good 1 (sealSeed seedKey5 (be 12 0) seed5), .blank⟩ }

theorem commitBlock_congr {d e : Draw} (hi : d.id = e.id) (hp : d.params = e.params) (seed : Bytes) :
    commitBlock d seed = commitBlock e seed := by
  unfold commitBlock paramDigest
  rw [hi, hp]

/-- Its record with a commitment. -/
def committed5 (c : BitVec 384) : Draw := { issuing5 with commit := c }

/-- The unit before its service completes, with that draw. -/
def readyIssuing (c : BitVec 384) : State :=
  { keyedTo none with
    pwr := { upPower with phase := .ready }
    nv := { (keyedTo none).nv with draws := [committed5 c] } }

theorem secretOf_keyRecs {s t : State} (hk : s.keys = t.keys) (hr : s.nv.keyRecs = t.nv.keyRecs) (hg : ∀ n, genOf s n = genOf t n)
    (i : Nat) : secretOf s i = secretOf t i := by
  unfold secretOf operatorSecret domainSecret rootBytes genUsed keyRec
  simp only [hk, hr, hg]

theorem openSeed_sealed (k seed : Bytes) (s : State) (d : Draw) (n : Nat) (hs : d.seed = ⟨.good n (sealSeed k (be 12 0) seed), .blank⟩)
    (ha : handleActive s d.sigkey 0x13 = true) (hw : seedWrap s (keyIndex d.sigkey) = some k) : seedOf s d = some seed := by
  have hr : d.seed.resolve = .ok n (sealSeed k (be 12 0) seed) := by
    rw [hs]
    rfl
  have hl : (be 12 0).length = 12 := length_be 12 0
  have ht : ∀ x : Bytes, (be 12 0 ++ x).take 12 = be 12 0 ∧ (be 12 0 ++ x).drop 12 = x := fun x =>
    ⟨by rw [List.take_append_of_le_length (by rw [hl]), List.take_of_length_le (by rw [hl])], List.drop_left' hl⟩
  unfold seedOf
  simp only [hr, ha, if_true, hw, Option.bind_some, sealSeed]
  rw [(ht _).1, (ht _).2, gcmOpen_gcmSeal]

theorem seedOf_readyIssuing (c : BitVec 384) : seedOf (readyIssuing c) (committed5 c) = some seed5 := by
  refine openSeed_sealed seedKey5 seed5 _ _ 1 rfl ?_ ?_
  · have h : handleActive (readyIssuing 0) 20 0x13 = true := by decide +kernel
    have hc : handleActive (readyIssuing c) 20 0x13 = handleActive (readyIssuing 0) 20 0x13 := by
      unfold handleActive activeKey keyState keyRec genBad nameOf genUsed genOf sessCount
      rfl
    exact hc.trans h
  · have h : secretOf (readyIssuing c) 20 = secretOf (keyedTo none) 20 := secretOf_keyRecs rfl rfl (fun _ => rfl) 20
    show (secretOf (readyIssuing c) 20).map _ = _
    rw [h, secretOf_keyed none 20 0x13 (by decide)]
    rfl

theorem issuing_asks (c : BitVec 384) (h : sha384 (commitBlock issuing5 seed5) = c) :
    let s := readyIssuing c
    let d := committed5 c
    s.pwr.phase = .ready ∧ s.held = [] ∧ s.nv.draws = [d] ∧ d.st = .issuing ∧ d.results = none ∧ s.lark.drbgOn = true
      ∧ tamperHalt s = false ∧ seedOf s d = some seed5 ∧ sha384 (commitBlock d seed5) = d.commit :=
  ⟨rfl, rfl, rfl, rfl, rfl, rfl, rfl, seedOf_readyIssuing c, (congrArg sha384 (commitBlock_congr rfl rfl seed5)).trans h⟩

theorem test_asks_ServiceComesInTwoSteps_issuing : ∃ d : Draw, ∃ c,
    let s := readyIssuing c
    s.pwr.phase = .ready ∧ s.held = [] ∧ s.nv.draws = [d] ∧ d.st = .issuing ∧ d.results = none ∧ s.lark.drbgOn = true
      ∧ tamperHalt s = false ∧ seedOf s d = some seed5 ∧ sha384 (commitBlock d seed5) = d.commit :=
  ⟨_, _, issuing_asks _ rfl⟩
/-! Gates. -/

/-- The unit with a table of gate entries in each queue DMA gate. -/
def gated (lock : Bool) : State :=
  { up with
    gates := List.replicate 4 { ents := [(16, { openEntry with eflags := if lock then 7 else 3 }), (63, openEntry)] } ++ List.replicate 17 {} }

/-- A GATE_WRITE body: `n` host entries. -/
def gateBody (g first n : Nat) : Bytes := [BitVec.ofNat 8 g, BitVec.ofNat 8 first, BitVec.ofNat 8 n] ++ zeros 5
  ++ (List.replicate n (le 8 0x1000 ++ le 8 0x1FE0 ++ le 2 3 ++ le 2 0xFFFF ++ le 2 3 ++ zeros 10)).flatten

theorem test_asks_GateCommandsAct_write : ∀ x ∈ [(0, 16, 48), (3, 63, 1), (0x20, 16, 2)],
    let r := ask (gateBody x.1 x.2.1 x.2.2)
    let s := gated false
    quiet s = true ∧ s.gates.length = 21 ∧ accepts 0x0A01 r none s = true ∧ fld r 0 1 = x.1 ∧ fld r 1 1 = x.2.1 ∧ fld r 2 1 = x.2.2
      ∧ r.body.length = 8 + 32 * fld r 2 1 ∧ slice r.body 3 5 = zeros 5
      ∧ (∀ k, k < fld r 2 1 → hostEntryBad (slice r.body (8 + 32 * k) 32) = none)
      ∧ (x.1 < 4 ∨ x.1 = 0x20) ∧ (∀ q ∈ gatesNamed x.1, ∀ i, i < 64 → (gateEntry s q i).lock = false) := by decide +kernel
theorem test_asks_GateCommandsAct_locked :
    ∀ g ∈ [3, 0x20], let r := ask (gateBody g 16 1)
    accepts 0x0A01 r none (gated true) = true ∧ fld r 2 1 = 1 ∧ 3 ∈ gatesNamed g ∧ (gateEntry (gated true) 3 16).lock = true := by decide
theorem test_asks_GateCommandsAct_read : ∀ x ∈ [(0x14, 0, 64), (8, 15, 1), (15, 0, 16)],
    let r := ask [BitVec.ofNat 8 x.1, BitVec.ofNat 8 x.2.1, BitVec.ofNat 8 x.2.2, 0]
    accepts 0x0A02 r (some 4) up = true ∧ fld r 0 1 = x.1 ∧ fld r 1 1 = x.2.1 ∧ fld r 2 1 = x.2.2 ∧ fld r 1 1 + fld r 2 1 ≤ gateSize (fld r 0 1)
      ∧ fld r 3 1 = 0 := by decide
theorem test_asks_GateCommandsAct_lock : ∀ x ∈ [(0, 16, 48, 0), (3, 63, 1, 1), (0x20, 16, 1, 1)],
    let r := ask [BitVec.ofNat 8 x.1, BitVec.ofNat 8 x.2.1, BitVec.ofNat 8 x.2.2.1, BitVec.ofNat 8 x.2.2.2]
    accepts 0x0A03 r (some 4) (gated false) = true ∧ fld r 0 1 = x.1 ∧ fld r 1 1 = x.2.1 ∧ fld r 2 1 = x.2.2.1 ∧ fld r 3 1 = x.2.2.2 := by
  decide
theorem test_asks_GateCommandsAct_faults : ∀ x ∈ [(0x14, 0, 0), (0, 1, 0), (3, 2, 0), (4, 2, 1)],
    let r := ask [BitVec.ofNat 8 x.1, BitVec.ofNat 8 x.2.1, BitVec.ofNat 8 x.2.2, 0]
    accepts 0x0A05 r (some 4) (gated false) = true ∧ fld r 0 1 = x.1 ∧ fld r 1 1 = x.2.1 ∧ fld r 2 1 = x.2.2 ∧ fld r 3 1 = 0
      ∧ (gateOf (gated false) (fld r 0 1)).mlock = false
      ∧ (gateOf { gated false with gates := List.replicate 21 { mlock := true } } (fld r 0 1)).mlock = true := by decide

/-- An access that has not retired: a unit whose output of epoch 0 is still to be written. -/
def unretired : State := { up with epoch := 1, work := [{ computed xtsEnt with epoch := 0 }] }

theorem test_asks_GateCommandsAct_sync :
    (let r := ask (le 8 0); accepts 0x0A04 r (some 8) up = true ∧ fld r 0 8 = 0 ∧ retired up.epoch up = true)
      ∧ (let r := ask (le 8 1); accepts 0x0A04 r (some 8) unretired = true ∧ fld r 0 8 = 1 ∧ 1 ≤ unretired.epoch ∧ quiet unretired = true)
      ∧ (retired 1 unretired = false)
      ∧ (let w : Waiter := { req := ask (le 8 0), op := 0x0A04 }
         let s := { up with waiters := [w] }
         s.waiters = [w] ∧ w.op = 0x0A04 ∧ w.orphan = false ∧ retired w.obj s = true) := by decide

/-! The meter port. -/

/-- The unit with the port served and nothing protected. -/
def ported : State := { up with gates := List.replicate 19 {} ++ [{ ents := mptEntries 0 0 }, {}] }

/-- The served port with another state of the meter memory. -/
def metered (m : Meter) : State := { ported with meter := m }

theorem test_asks_MeterWordsReadAsWritten : ∀ a ∈ [0, 0x1FFFB],
    (BitVec.ofNat 20 a).toNat = a ∧ a < 0x20000 ∧ a % 128 < 124 ∧ ported.lc ≠ .retn ∧ quiet ported = true ∧ mpUp ported = true
      ∧ mpFault a false ported = none ∧ mpFault a true ported = none ∧ mpFault 0x28002 true ported = none := by decide
theorem test_asks_MeterWordsReadAsWritten_group : ∀ a ∈ [0, 0x1FFFB],
    (let s := metered { up.meter with group := some (a / 128) }
     mpUp s = true ∧ mpFault a true s = none ∧ mpFault 0x28002 true s = none ∧ s.meter.group.isSome = true ∧ s.lc ≠ .retn
       ∧ mpFault a true { s with lc := .retn } = none)
      ∧ mpUp { ported with pwr := { upPower with mpValid := false } } = false := by decide
theorem test_asks_CountersThroughTheMeterPort : ∀ c ∈ [64, 4095],
    (ported.lc ≠ .retn ∧ mpUp ported = true ∧ mpFault (0x24000 + c) true ported = none ∧ quiet ported = true ∧ (ctrOf ported c).lost = false
      ∧ c ∉ ported.dirtyCtrs ∧ ported.dirtyCtrs.length < 64 ∧ mpFault (0x20000 + 4 * c) false ported = none
      ∧ mpFault (0x20000 + 4 * c + 1) false ported = none ∧ mpFault (0x20000 + 4 * c + 3) false ported = none)
      ∧ (ctrOf { ported with nv := { up.nv with ctrs := [(c, { lost := true })] } } c).lost = true
      ∧ (let s := { ported with dirtyCtrs := List.range 64, meter := { up.meter with forcedBusy := true, winOf := 4095 } }
         (ctrOf s 4095).lost = false ∧ 4095 ∉ s.dirtyCtrs ∧ 64 ≤ s.dirtyCtrs.length ∧ s.meter.forcedBusy = true ∧ s.meter.winOf = 4095
           ∧ mpUp s = true)
      ∧ (let s := { ported with meter := { up.meter with winOf := c } }
         mpUp s = true ∧ s.meter.winOf = c ∧ (BitVec.ofNat 20 (0x20000 + 4 * c + 3)).toNat = 0x20000 + 4 * c + 3) := by decide

/-- A reference and a length of the candidate words. -/
def verdictOf (n ref : Nat) (cand : List (BitVec 16)) : State :=
  metered { up.meter with tvLen := BitVec.ofNat 16 n, tvLo := BitVec.ofNat 16 ref, tvHi := BitVec.ofNat 16 (ref / 65536), tvCand := cand }

theorem test_asks_VerdictComparesEveryWord :
    (∀ x ∈ [(1, 0), (16, 0x1FFEC)],
      (let s := verdictOf x.1 x.2 (List.replicate 16 0)
       s.meter.tvLen.toNat % 32 = x.1 ∧ s.meter.tvLo.toNat + 65536 * (s.meter.tvHi.toNat % 16) = x.2 ∧ mpUp s = true
         ∧ mpFault 0x28013 false s = none ∧ quiet s = true ∧ x.2 < 0x20000 ∧ x.2 % 128 + x.1 ≤ 124
         ∧ ∀ i, i < x.1 → (s.meter.tvCand.getD i 0).toNat = mirrorWord s.meter (x.2 + i))
      ∧ (let s := verdictOf x.1 x.2 (List.replicate 16 1)
         0 < x.1 ∧ (s.meter.tvCand.getD 0 0).toNat ≠ mirrorWord s.meter (x.2 + 0)))
      ∧ ∀ x ∈ [(0, 0), (17, 0), (1, 0x20000), (16, 109), (1, 124)],
        let s := verdictOf x.1 x.2 []
        let n := s.meter.tvLen.toNat % 32
        let ref := s.meter.tvLo.toNat + 65536 * (s.meter.tvHi.toNat % 16)
        mpUp s = true ∧ mpFault 0x28013 false s = none ∧ (n = 0 ∨ 16 < n ∨ 0x20000 ≤ ref ∨ 124 < ref % 128 + n) := by decide
theorem test_asks_HostMeterCommandsAct_words : ∀ x ∈ [(0, 2036), (0x1FFFF, 1)],
    (let r := ask (le 4 x.1 ++ le 2 x.2 ++ le 2 0)
     quiet up = true ∧ accepts 0x0B02 r (some 8) up = true ∧ fld r 4 2 = x.2 ∧ fld r 0 4 = x.1 ∧ x.1 + x.2 ≤ 0x20000 ∧ fld r 6 2 = 0)
      ∧ (let r := ask (le 4 x.1 ++ le 2 x.2 ++ le 2 0 ++ zeros (2 * x.2))
         accepts 0x0B03 r none up = true ∧ up.lc ≠ .retn ∧ fld r 4 2 = x.2 ∧ fld r 0 4 = x.1 ∧ fld r 6 2 = 0 ∧ r.body.length = 8 + 2 * x.2) := by
  decide +kernel
theorem test_asks_HostMeterCommandsAct :
    (∀ b ∈ [le 4 0, [3, 16, 1, 0]],
      let r := ask b
      accepts 0x0B04 r (some 4) up = true ∧ fld r 0 1 ≤ 3 ∧ fld r 1 1 ≤ 16 ∧ (fld r 1 1 ≠ 0 → fld r 0 1 ≠ 0) ∧ fld r 2 1 ≤ 1 ∧ fld r 3 1 = 0
        ∧ up.meter.locked = false ∧ accepts 0x0B04 r (some 4) (metered { up.meter with locked := true }) = true)
      ∧ (metered { up.meter with locked := true }).meter.locked = true
      ∧ ∀ x ∈ [(0, 255), (4095, 1)],
        let r := ask (le 2 x.1 ++ le 2 x.2)
        accepts 0x0B01 r (some 4) up = true ∧ fld r 2 2 = x.2 ∧ fld r 0 2 = x.1 ∧ x.1 + x.2 ≤ 4096 := by decide
/-! DGU1 and the framed paths. -/

theorem test_asks_DigestUnitServesItsOwner : ∀ o ∈ [DgOwner.free, .host, .cabinet],
    let s := { ported with dgu1 := { ported.dgu1 with owner := o, running := true } }
    barUp s 0 = true ∧ mpUp s = true ∧ s.lc ≠ .retn ∧ mpFault 0x2A000 true s = none ∧ mpFault 0x2A006 true s = none
      ∧ mpFault 0x2A020 true s = none ∧ quiet s = true ∧ s.dgu1.withdrawn = false ∧ s.dgu1.owner = o ∧ s.dgu1.done = false
      ∧ s.dgu1.running = true ∧ mpFault (0x2A000 + 0 / 2) false s = none ∧ mpFault (0x2A000 + 0x13C / 2) false s = none := by decide
theorem test_asks_DigestUnit_widths :
    dataWidthOk .host 4 = true ∧ dataWidthOk .host 8 = true ∧ dataWidthOk .cabinet 2 = true ∧ dataWidthOk .cabinet 4 = false := by decide

/-- The unit with a queue on a path. -/
def framed (p : Path) : State := { up with
  link := { up.link with usbConf := true, usb3Tun := true, hostPath := if p == .spi then some .pcie else some p }, queues := [(0, { aQueue with path := p }), (262143, { aQueue with path := p })] }

/-- A GET_IDENTITY request as SPI bytes. -/
def spiAsk : Bytes := le 2 0x0101 ++ le 2 16 ++ le 4 7 ++ zeros 8

/-- A submission frame of a NOP entry. -/
def submitFrame (q : Nat) : Bytes := le 2 1 ++ le 2 0 ++ le 4 q ++ zeros 8 ++ nopEnt

theorem test_asks_FramedPathsAreServed_spi :
    (quiet up = true ∧ spiUp up = true ∧ (0 : BitVec 32) ≠ crc32 [1] ∧ spiAsk.length = 16 ∧ num spiAsk 0 2 = 0x0101
      ∧ num spiAsk 2 2 = 16 ∧ allZero (spiAsk.drop 8) = true ∧ (mbxOf up 0 63).busy = false ∧ serving up = true ∧ up.pwr.standby = false
      ∧ up.pwr.standbyDue = false ∧ modeRefusal 0x0101 up = none ∧ (fnOf up 0).present = true)
      ∧ (let s := { up with spi := { up.spi with resp := some [1], compl := [(nopEnt, []), (nopEnt, [1])] } }
         spiUp s = true ∧ s.spi.resp = some [1] ∧ s.spi.compl = [(nopEnt, []), (nopEnt, [1])]) := by decide +kernel
theorem test_asks_FramedPathsAreServed_submit : ∀ q ∈ [0, 262143],
    (let s := framed .spi
     q < 2 ^ 18 ∧ 32 ≤ nopEnt.length ∧ fetchOpen s = true ∧ submitFull s = false ∧ frameQueue s .spi q = true
       ∧ stage1 s (queueOf s q) (nopEnt.take 32) = none ∧ stage2 (nopEnt.take 32) (nopEnt.drop 32) = none
       ∧ ingressCharge (nopEnt.take 32) ≤ spiFree s ∧ spiUp s = true ∧ quiet s = true)
      ∧ (let s := framed .usb
         let f := submitFrame q
         quiet s = true ∧ linkUp s = true ∧ 48 ≤ f.length ∧ submitHeader f = true ∧ s.link.hostPath = some .usb ∧ num f 4 4 = q
           ∧ usbUp s = true ∧ frameQueue s .usb (num f 4 4) = true ∧ usbHeldBack s (num f 4 4) (slice f 16 32) = false
           ∧ stage1 s (queueOf s (num f 4 4)) (slice f 16 32) = none ∧ stage2 (slice f 16 32) (f.drop 48) = none)
      ∧ (let s := { up with link := { up.link with usbConf := true, usb3Tun := true } }
         usbUp s = true ∧ s.link.hostPath = some .pcie ∧ quiet s = true) := by decide +kernel

/-- A GET_IDENTITY request as an MBX_REQ frame for a mailbox. -/
def mbxFrame (m : Nat) : Bytes := usbHeader 3 0 m 16 ++ spiAsk

theorem test_asks_FramedPathsAreServed_mailbox : ∀ m ∈ [0, 62],
    let s := framed .usb
    let f := mbxFrame m
    usbUp s = true ∧ quiet s = true ∧ f.length = 32 ∧ num f 0 2 = 3 ∧ num f 2 2 = 0 ∧ num f 4 4 = 0 ∧ num f 8 2 = m ∧ num f 10 2 = 0
      ∧ num f 12 4 = 16 ∧ num f 16 2 = 0x0101 ∧ num f 18 2 = 16 ∧ allZero (f.drop 24) = true ∧ s.link.hostPath = some .usb
      ∧ (mbxOf s 0 m).busy = false ∧ serving s = true ∧ s.pwr.standby = false ∧ s.pwr.standbyDue = false
      ∧ modeRefusal 0x0101 s = none ∧ (fnOf s 0).present = true := by decide +kernel

/-! Debug. -/

/-- The unit with debug rights in force. -/
def debugged (rights : BitVec 32) : State :=
  { up with
    gates := List.replicate 20 {} ++ [{ ents := [(0, { start := 0x100000000, fin := 0x200000000, rights := 0xFFFF, eflags := 1 })] }]
    dbg := { up.dbg with cert := some { rights := rights, opsecLast := 9 } } }

theorem test_asks_TapInstructionsNeedTheirRight :
    (tapOn up = true ∧ up.pwr.tapHold = false ∧ quiet up = true ∧ mailboxUp up = true ∧ modeRefusal 0x0704 up = none ∧ served up = true
      ∧ ∀ m ∈ [0x40, 0x26, 0x01, 0x08, 0x80, 0x10], hasRight up m = false)
      ∧ (let s := debugged 0xFF
         tapOn s = true ∧ s.pwr.tapHold = false ∧ quiet s = true ∧ served s = true
           ∧ ∀ m ∈ [0x40, 0x26, 0x01, 0x08, 0x80, 0x10], hasRight s m = true) := by decide
theorem test_asks_DbgMem :
    (∀ a ∈ [0x115800000, 0x1FFFFFFFF], ∀ w ∈ [0, 1],
      judgeDebug (debugged 0xFF) { host := false, first := a, last := a, kind := w, level := 2, colour := 0 } = none)
      ∧ (∀ a ∈ [0x10000000, 0x300000000],
        (judgeDebug (debugged 0xFF) { host := false, first := a, last := a, kind := 0, level := 2, colour := 0 }).isSome = true)
      ∧ (tgetD (debugged 0xFF).dram 0 {}).data.length = 64 ∧ (tgetD (debugged 0xFF).dram 0 {}).bad = false := by decide
theorem test_asks_DebugRightsEnd :
    (∀ n ∈ [1, 4056],
      let r := ask (le 4 0 ++ le 4 0 ++ le 4 n ++ zeros 12 ++ zeros n)
      quiet up = true ∧ (debugged 0xFF).gates.length = 21 ∧ ringTakes up = true ∧ accepts 0x0704 r none (debugged 0xFF) = true
        ∧ chunkWhole 0x0704 32768 r (debugged 0xFF) = some (zeros n) ∧ fld r 0 4 = 0)
      ∧ (let r := ask (le 4 2 ++ le 4 0 ++ le 4 64 ++ zeros 12 ++ zeros 64)
         accepts 0x0704 r none up = true ∧ bit (fld r 0 4) 1 = true ∧ chunkWhole 0x0704 32768 r up = some (zeros 64) ∧ ringTakes up = true
           ∧ up.dbg.cert = none ∧ quiet up = true)
      ∧ (let s := { debugged 0xFF with opsec := 9 }
         quiet s = true ∧ ∀ c, s.dbg.cert = some c → s.opsec ≤ c.opsecLast)
      ∧ (let r := ask (le 4 6 ++ zeros 20)
         let s := { debugged 0xFF with opsec := 10 }
         quiet s = true ∧ s.dbg.cert = some ⟨0xFF, 9, 0⟩ ∧ 9 < s.opsec ∧ accepts 0x0704 r none s = true ∧ r.body.length = 24
           ∧ fld r 0 4 = 6 ∧ fld r 4 4 = 0 ∧ fld r 8 4 = 0 ∧ fld r 12 4 = 0 ∧ fld r 16 8 = 0 ∧ ringTakes s = true) := by
  decide +kernel

/-! Events and monitors. -/

/-- An event record of class 7. -/
def evBytes : Bytes := le 2 1 ++ le 2 7 ++ zeros 60

theorem test_asks_EvtRead : ∀ n ∈ [1, 262143],
    let r := ask (le 6 n ++ le 2 0 ++ le 2 253 ++ [7, 1] ++ zeros 4)
    let s := { up with ev := { up.ev with buf := [⟨n, evBytes⟩], nextEvn := n + 1 } }
    quiet s = true ∧ accepts 0x0901 r (some 16) s = true ∧ s.ev.nextEvn = n + 1 ∧ fld r 0 6 = n ∧ fld r 6 2 = 0 ∧ fld r 8 2 = 253
      ∧ fld r 11 1 = 1 ∧ fld r 12 4 = 0 ∧ fld r 10 1 ≤ num evBytes 2 1 % 8 ∧ bit (num evBytes 2 1) 4 = false ∧ num evBytes 0 2 ≠ 0xFFFF
      ∧ s.ev.clear ≤ n := by decide
theorem length_unitIdBytes : unitIdBytes.length = 16 := length_be 16 _

/-- A request for this unit begins with the unit's identifier. -/
theorem slice_unitId (b : Bytes) : slice (unitIdBytes ++ b) 0 16 = unitIdBytes := by
  unfold slice
  rw [List.drop_zero, ← length_unitIdBytes, List.take_left]

/-- An EVT_CLEAR request up to record 5. -/
def clearAsk : Req := ask (unitIdBytes ++ (zeros 32 ++ le 8 5 ++ zeros 3413))

theorem test_asks_EvtClear :
    let s := { up with ev := { up.ev with nextEvn := 5 } }
    accepts 0x0902 clearAsk (some 3469) s = true ∧ slice clearAsk.body 0 16 = unitIdBytes ∧ s.ev.clear ≤ fld clearAsk 48 8
      ∧ fld clearAsk 48 8 ≤ s.ev.nextEvn ∧ fld clearAsk 56 8 = 0 :=
  ⟨by decide +kernel, slice_unitId _, by decide +kernel, by decide +kernel, by decide +kernel⟩
theorem test_asks_EventsAndMonitorsAnswer_requests :
    (∀ x ∈ [(0, 0, 0), (60, 600, 3600), (86400, 86400, 86400)],
        let r := ask (le 4 x.1 ++ le 4 x.2.1 ++ le 4 x.2.2 ++ zeros 4)
        accepts 0x0904 r (some 16) up = true ∧ fld r 0 4 = x.1 ∧ fld r 4 4 = x.2.1 ∧ fld r 8 4 = x.2.2 ∧ fld r 13 3 = 0)
      ∧ accepts 0x0905 (ask []) (some 0) up = true
      ∧ (∀ op ∈ [0, 1, 2, 3, 4],
        let r := ask (le 4 op ++ zeros 64)
        accepts 0x0906 r (some 68) up = true ∧ fld r 0 1 = op ∧ fld r 1 3 = 0)
      ∧ barUp up 0 = true := by decide +kernel
theorem test_asks_EventsAndMonitorsAnswer_events :
    (let s := { up with opsec := 120, ev := { up.ev with supp := [(0x0202, 3)], suppAt := [(0x0202, 119)] } }
     served s = true ∧ tgetD s.ev.supp 0x0202 0 ≠ 0 ∧ tgetD s.ev.suppAt 0x0202 0 / 60 < s.opsec / 60 ∧ s.ev.buf.length + 2 ≤ 4096)
      ∧ (let s := { up with health := { up.health with badTimes := List.replicate 16 0 } }
         served s = true ∧ 16 ≤ (s.health.badTimes.filter fun t => s.opsec < t + 3600).length)
      ∧ (served up = true ∧ up.tamper.window = [] ∧ up.pwr.standby = false ∧ quiet up = true ∧ ∀ l ∈ up.dram, l.2.colour = 0) := by decide

/-- A part of a string after a prefix. -/
theorem slice_after (a b : Bytes) (n : Nat) (h : n = a.length) : slice (a ++ (unitIdBytes ++ b)) n 16 = unitIdBytes := by
  subst h
  unfold slice
  rw [List.drop_left, ← length_unitIdBytes, List.take_left]
/-! Key commands. -/

theorem nameOf_keyed : nameOf keyed 16 = .persistent 16 ∧ ∀ i, i < 6 → nameOf keyed i = .persistent i := by
  refine ⟨rfl, ?_⟩
  decide

theorem findKey_keyed : ∃ k, findKey keyed 0 16 0x02 = .key 16 k := by
  refine ⟨sealedRec opWrap 16 opHead opSecret, ?_⟩
  unfold findKey
  rw [nameOf_keyed.1]
  simp only [keyed, keyRec_op]
  rfl

/-- A KEY_DERIVE body. -/
def deriveBody (kind idx id : Nat) : Bytes := le 4 kind ++ le 4 16 ++ le 4 idx ++ le 4 id ++ zeros 16 ++ zeros 32

theorem test_asks_KeyDerive_session : ∀ x ∈ [(262143, 262143), (2 ^ 31, 1)],
    let r := ask (deriveBody 0x10 x.1 5)
    quiet keyed = true ∧ accepts 0x0301 r (some 64) keyed = true ∧ deriveBad r = none ∧ keyStoreUp keyed = true ∧ fld r 4 4 = 16 ∧ r.fn = 0
      ∧ fld r 0 1 = 0x10 ∧ placeSession keyed (fld r 8 4) = some x.2 ∧ keyed.keys.wrapSet = true := by decide +kernel
theorem test_asks_KeyDerive_persistent : ∀ x ∈ [(4095, 4095), (2 ^ 31, 21)],
    let r := ask (deriveBody 0x11 x.1 5)
    accepts 0x0301 r (some 64) keyed = true ∧ deriveBad r = none ∧ fld r 4 4 = 16 ∧ fld r 0 1 ≠ 0x10 ∧ r.fn = 0
      ∧ keyIdTaken keyed (fld r 12 4) = false ∧ placePersistent keyed (fld r 8 4) = some x.2 ∧ entryRefusal false keyed = none
      ∧ ringTakes keyed = true ∧ condUp keyed 1 = true := by decide +kernel

/-- An import package of a session key by the first method, unsigned, for index `idx`. -/
def importPkg (idx : Nat) : Bytes :=
  le 4 0x504B4C46 ++ [0x10, 1, 0, 0] ++ le 4 16 ++ le 4 idx ++ le 4 5 ++ le 2 0 ++ le 2 1088 ++ (unitIdBytes ++ zeros (32 + 80 + 8 + 1088))

theorem test_asks_KeyImport_chunk : ∀ n ∈ [1, 4056],
    let r := ask (le 4 0 ++ le 4 0 ++ le 4 n ++ zeros 12 ++ zeros n)
    accepts 0x0302 r none keyed = true ∧ fld r 0 4 = 0 ∧ chunkWhole 0x0302 8192 r keyed = some (zeros n)
      ∧ (importBad 0 (zeros n)).isSome = true := by decide +kernel

/-- The same by DMA, and as the last chunk. -/
theorem test_asks_KeyImport_dma : ∀ fl ∈ [1, 3],
    let r := ask (le 4 fl ++ le 4 0 ++ le 4 16 ++ zeros 4 ++ le 8 0x1000) (.data (zeros 16))
    let s := upGates keyed
    quiet s = true ∧ accepts 0x0302 r none s = true ∧ fld r 0 4 = fl ∧ chunkWhole 0x0302 8192 r s = some (zeros 16) := by decide +kernel
theorem importBad_importPkg : ∀ idx ∈ [262143, 2 ^ 31], importBad 0 (importPkg idx) = none := by
  intro idx h
  have hu : slice (importPkg idx) 24 16 = unitIdBytes :=
    slice_after _ _ 24 (by simp only [List.length_append, length_le]; rfl)
  unfold importBad
  simp only [hu, bne_self_eq_false]
  clear hu
  revert idx
  decide +kernel
/-- The request that brings a package in one chunk. -/
def importAsk (p : Bytes) : Req := ask (le 4 2 ++ le 4 0 ++ le 4 p.length ++ zeros 12 ++ p)

theorem importParent_keyed (idx : Nat) : importParent 0 (importPkg idx) keyed = .ok 16 := by
  obtain ⟨k, hk⟩ := findKey_keyed
  have h1 : num (importPkg idx) 4 1 = 0x10 := rfl
  have h2 : num (importPkg idx) 8 4 = 16 := rfl
  unfold importParent findParent
  rw [h1, h2, hk]
  rfl
theorem test_asks_KeyImport_package : ∀ x ∈ [(262143, 262143), (2 ^ 31, 1)],
    accepts 0x0302 (importAsk (importPkg x.1)) none keyed = true ∧ fld (importAsk (importPkg x.1)) 0 4 = 2
      ∧ num (importPkg x.1) 4 1 = 0x10 ∧ pkeUp keyed = true ∧ placeSession keyed (num (importPkg x.1) 12 4) = some x.2
      ∧ keyed.keys.wrapSet = true ∧ keyStoreUp keyed = true := by decide +kernel
theorem test_asks_KeyInvalidate :
    (let r := ask (le 4 (2 ^ 30) ++ zeros 3457)
     accepts 0x0303 r (some 3461) keyed = true ∧ fld r 4 4 = 0 ∧ unsignedBad r = none ∧ nameOf keyed (fld r 0 4) = .session 0
       ∧ sessFree keyed 0 = false)
      ∧ (let r := ask (le 4 17 ++ zeros 3457)
         accepts 0x0303 r (some 3461) keyed = true ∧ fld r 4 4 = 0 ∧ unsignedBad r = none ∧ nameOf keyed (fld r 0 4) = .persistent 17
           ∧ invalidTarget keyed 17 = some (2, false) ∧ genOf keyed 17 < 0x3FFFF ∧ drawsNeed keyed 17 = false ∧ entryRefusal true keyed = none ∧ ringTakes keyed = true) := by
  decide +kernel
theorem test_asks_KeyQuery :
    (∃ k, keyRec keyed 17 = .ok 1 k ∧ mayUse keyed 0 k = true) ∧ keyRec keyed 4095 = .blank
      ∧ (∀ h ∈ [17, 4095], let r := ask (le 4 h ++ zeros 4)
        accepts 0x0304 r (some 8) keyed = true ∧ fld r 4 4 = 0 ∧ nameOf keyed (fld r 0 4) = .persistent h) :=
  ⟨⟨_, keyRec_child none 17 0x14 (by decide), rfl⟩, rfl, by decide +kernel⟩

/-! Challenges and packages. -/

theorem domain0_keyed : (domainSecret keyed 0).isSome = true := rfl
theorem test_asks_DevPubkeys :
    (∀ n, n < 3 → (let r := ask (le 4 n ++ zeros 4)
      accepts 0x0105 r (some 8) keyed = true ∧ fld r 0 1 = n ∧ fld r 1 3 = 0 ∧ fld r 4 4 = 0))
      ∧ ∀ n, n < 3 → (deviceSet keyed n).isSome = true := by
  refine ⟨by decide, fun n h => ?_⟩
  obtain ⟨d, hd⟩ := Option.isSome_iff_exists.1 domain0_keyed
  have h1 := domain_keyed none
  rcases (by omega : n = 0 ∨ n = 1 ∨ n = 2) with rfl | rfl | rfl
  · simp only [deviceSet, identityPair, hd, Option.map_some, Option.isSome_some]
  · simp only [deviceSet, journalPair, hd, Option.map_some, Option.isSome_some]
  · simp only [deviceSet, deviceImport, keyed, h1, Option.map_some, Option.isSome_some]
theorem test_asks_ChallengesAndPackagesExpire :
    (quiet up = true ∧ accepts 0x0104 (ask []) (some 0) up = true ∧ condUp up 1 = true)
      ∧ (∀ t ∈ [86399, 86400],
        let s := { up with opsec := t, keys := { up.keys with challenge := some (0, 0) } }
        s.keys.challenge = some (0, 0) ∧ (0 + 86400 ≤ s.opsec ∨ s.opsec < 0 + 86400))
      ∧ ∀ t ∈ [59, 60],
        let s := { up with opsec := t, mbxs := [(63, { pkg := [1] })] }
        (mbxOf s 0 63).pkg ≠ [] ∧ ((mbxOf s 0 63).pkgOpsec + 60 ≤ s.opsec ∨ s.opsec < (mbxOf s 0 63).pkgOpsec + 60) := by decide

/-! Draws. -/

/-- Parameters of draw `id`: three of ten, from 1; instant or not. -/
def drawParams (id : Nat) (instant : Bool) : Bytes := le 4 id ++ [1, if instant then 1 else 0] ++ le 2 0 ++ le 4 10 ++ le 4 3 ++ le 4 1 ++ zeros 44

/-- A DRAW_SCHEDULE body: the whole definition in one chunk. -/
def scheduleBody (id fl : Nat) (instant : Bool) : Bytes :=
  le 4 id ++ le 4 fl ++ le 4 0 ++ le 4 64 ++ zeros 8 ++ le 4 20 ++ le 4 (if instant then 17 else 0) ++ drawParams id instant

theorem test_asks_DrawSchedule : ∀ x ∈ [(6, 0, false), (6, 2, false), (0xFFFFFFFE, 2, true)],
    let r := ask (scheduleBody x.1 x.2.1 x.2.2)
    quiet keyed = true ∧ fld r 0 4 = x.1 ∧ accepts 0x0401 r none keyed = true ∧ drawOf keyed x.1 = none ∧ fld r 4 4 = x.2.1 ∧ fld r 8 4 = 0
      ∧ fld r 12 4 = 64 ∧ fld r 16 8 = 0 ∧ r.body.length = 32 + 64 ∧ keyed.nv.draws.length < 512 ∧ paramBytes keyed x.1 + 64 ≤ 1048576
      ∧ finalBad keyed { id := BitVec.ofNat 32 x.1, sigkey := BitVec.ofNat 32 (fld r 24 4), jkey := BitVec.ofNat 32 (fld r 28 4), params := r.body.drop 32 } = none
      ∧ entryRefusal false keyed = none ∧ ringTakes keyed = true := by decide +kernel

/-- The unit with its keys and one draw. -/
def drawn (d : Draw) : State := { keyedTo none with nv := { (keyedTo none).nv with draws := [d] } }

/-- A draw of three of ten. -/
def drawIn (st : DrawSt) (instant : Bool) : Draw :=
  { id := 5, st := st, sigkey := 20, jkey := if instant then 17 else 0, params := drawParams 5 instant }

theorem test_asks_DrawsAreDefinedAndClosed :
    (let s := { drawn (drawIn .defining false) with opsec := 60 }
     drawOf s 5 = some (drawIn .defining false) ∧ (drawIn .defining false).opsec + 60 ≤ s.opsec)
      ∧ (∀ c ∈ [0, 1],
        let r := ask (le 4 5 ++ le 4 c)
        let s := drawn (drawIn .opened false)
        drawOf s (fld r 0 4) = some (drawIn .opened false) ∧ entryRefusal true s = none ∧ accepts 0x0402 r (some 8) s = true ∧ fld r 4 4 = c
          ∧ drained s (s.epoch + 1) = true ∧ ringTakes s = true ∧ (drawIn .opened false).st = .opened)
      ∧ (let s := drawn { drawIn .closing false with closeEpoch := 1 }
         drawOf s 5 = some { drawIn .closing false with closeEpoch := 1 } ∧ drained s 1 = true ∧ ringTakes s = true) := by decide +kernel
theorem test_asks_DrawClose_waits :
    let w : Work := { dispatched outcomeEnt outcomeReq with epoch := 0 }
    let s := { drawn (drawIn .opened false) with work := [w] }
    drained s (s.epoch + 1) = false ∧ quiet s = true ∧ entryRefusal true s = none ∧ accepts 0x0402 (ask (le 4 5 ++ le 4 0)) (some 8) s = true := by decide +kernel
theorem seedWrap_drawn (d : Draw) : seedWrap (drawn d) 20 = some seedKey5 := by
  have h : secretOf (drawn d) 20 = secretOf (keyedTo none) 20 := secretOf_keyRecs rfl rfl (fun _ => rfl) 20
  show (secretOf (drawn d) 20).map _ = _
  rw [h, secretOf_keyed none 20 0x13 (by decide)]
  rfl
theorem test_asks_DrawRun : ∀ x ∈ [(0x0403, false), (0x0405, true)],
    let r := ask (le 4 5 ++ le 4 0)
    let d := drawIn (if x.2 then .ready else .closed) x.2
    let s := drawn d
    drawOf s (fld r 0 4) = some d ∧ accepts x.1 r (some 8) s = true ∧ fld r 4 4 = 0 ∧ pInstant d.params = x.2 ∧ s.lark.drbgOn = true
      ∧ condUp s 2 = true ∧ handleActive s d.sigkey 0x13 = true ∧ keyIndex d.sigkey = 20 ∧ seqReserve s = false ∧ ringTakes s = true ∧ entryRefusal true s = none ∧ entryRefusal false s = none
      ∧ (freeBatchCtr s).isSome = true ∧ (ctrOf s 5).lost = false ∧ quiet s = true := by decide +kernel
theorem test_asks_ReservationMarkRaise :
    let d := { drawIn .issuing true with ctr := some 31 }
    let s := drawn d
    drawOf s 5 = some d ∧ d.ctr = some 31 ∧ batchMark s d ≤ d.nextIdx ∧ batchMark s d < pK d.params ∧ (ctrOf s 31).lost = false := by
  decide +kernel

/-- A draw with its seed sealed. -/
def seeded (st : DrawSt) (inst : Bool) : Draw :=
  { drawIn st inst with seed := ⟨.good 1 (sealSeed seedKey5 (be 12 0) seed5), .blank⟩ }

theorem seedOf_seeded (st : DrawSt) (inst : Bool) : seedOf (drawn (seeded st inst)) (seeded st inst) = some seed5 := by
  refine openSeed_sealed seedKey5 seed5 _ _ 1 rfl ?_ (seedWrap_drawn _)
  have h : handleActive (drawn draw5) 20 0x13 = true := by decide +kernel
  have hc : handleActive (drawn (seeded st inst)) 20 0x13 = handleActive (drawn draw5) 20 0x13 := by
    unfold handleActive activeKey keyState keyRec genBad nameOf genUsed genOf sessCount
    rfl
  exact hc.trans h
theorem test_asks_DrawCertSigned : ∀ x ∈ [(DrawSt.resulted, false), (.closed, true)],
    let s := drawn (seeded x.1 x.2)
    (drawOf s 5).isSome = true ∧ certDue (seeded x.1 x.2) = true ∧ pkeUp s = true ∧ tamperHalt s = false ∧ s.pwr.phase = .service
      ∧ ringTakes s = true ∧ s.pwr.standbyDue = false ∧ quiet s = true := by decide +kernel
theorem test_asks_DrawCert : ∀ x ∈ [(0, 1), (0, 4064), (1, 4064)],
    let d := { drawIn .certified false with cert := some [1, 2], results := some [3] }
    let r := ask (le 4 5 ++ le 2 x.1 ++ zeros 6 ++ le 4 x.2 ++ zeros 8)
    let s := drawn d
    quiet s = true ∧ drawOf s 5 = some d ∧ d.st = .certified ∧ accepts 0x0404 r (some 24) s = true ∧ fld r 0 4 = 5 ∧ fld r 4 2 = x.1
      ∧ fld r 6 2 = 0 ∧ fld r 12 4 = x.2 ∧ fld r 16 8 = 0 ∧ d.cert = some [1, 2] ∧ (resultsOf s d).map resultBytes = some (le 4 3)
      ∧ accepts 0x0406 (ask []) (some 0) s = true := by decide +kernel
/-! The journal. -/

/-- The unit with a journal. -/
def jr (j : Journal) : State := { up with jrn := j }

/-- A leaf with a SEQ; `sync` sets FLG.SYNC. -/
def oneLeaf (seq sync : Nat) : Leaf := { seq := seq, desc := [1, BitVec.ofNat 8 sync] ++ zeros 46 }

theorem test_asks_LeavesFoldInSeqOrder :
    (∀ s ∈ [0, 1],
      leafAtPoint { waiting := [oneLeaf 7 s], inOrder := 7 } = some (oneLeaf 7 s) ∧ bit (num (oneLeaf 7 s).desc 1 1) 0 = (s == 1))
      ∧ syncNeeds (jr { waiting := [oneLeaf 7 0], inOrder := 7 }) 7 = false
      ∧ 4095 ≤ ({ batch := List.replicate 4095 (oneLeaf 1 0) } : Journal).batch.length
      ∧ writerOn (jr {}) = true ∧ ({ batch := [oneLeaf 1 0] } : Journal).batch ≠ []
      ∧ (∀ j ∈ [({ batch := [oneLeaf 1 0] } : Journal), { batch := List.replicate 4095 (oneLeaf 1 0) }],
        ringTakes (jr j) = true ∧ writerOn (jr j) = true)
      ∧ (∀ n ∈ [248, 15624],
        let s := { jr { pending := zeros n } with opsec := 5 }
        248 ≤ s.jrn.pending.length ∧ ringWorks s = true ∧ 1 ≤ freePages s ∧ s.sched.ckptAt ≠ some s.opsec ∧ writerOn s = true)
      ∧ (let s := { up with sched := { up.sched with ckptAt := some 0 } }
         s.sched.ckptAt = some s.opsec ∧ writerOn s = true) := by
  decide +kernel
theorem test_asks_CountersAreWrittenThrough :
    (writerOn up = true ∧ quiet up = true)
      ∧ (let s := { jr { nextSeq := 0x1000000 - 2 ^ 22 } with nv := up.nv }
         (ctrOf s 0).lost = false ∧ seqMark s ≤ s.jrn.nextSeq + 2 ^ 22 ∧ seqMark s < 2 ^ 48 - 2 ^ 20)
      ∧ (seqReserve (jr { nextSeq := seqReserveStart }) = true ∧ (jr { nextSeq := seqReserveStart }).jrn.seqOut = false)
      ∧ (∀ n ∈ [3599, 3600],
        (ctrOf { up with opsec := n } 3).lost = false ∧ (up.sched.secondsAt + 3600 ≤ n ∨ n < up.sched.secondsAt + 3600))
      ∧ (let s := { up with dirtyCtrs := [4095], meter := { up.meter with dirty := [1023] } }
         powered s = true ∧ s.dirtyCtrs.contains 4095 = true ∧ (ctrOf s 4095).lost = false ∧ s.meter.dirty.contains 1023 = true) := by
  decide +kernel

/-- A leaf of queue 4 of function 0, with HTAG 9. -/
def leaf4 : Leaf := { seq := 7, desc := zeros 4 ++ le 4 4 ++ zeros 8 ++ le 4 9 ++ zeros 28 }

/-- A JOURNAL_QUERY body: mode, queue index, HTAG, SEQ. -/
def queryAsk (mode q tag seq : Nat) : Bytes := le 4 mode ++ le 4 q ++ le 4 tag ++ zeros 4 ++ le 6 seq ++ zeros 2

theorem test_asks_JournalQuery_form : ∀ x ∈ [(1, 0, 0, 7), (1, 0, 0, 8), (0, 4, 9, 6), (0, 262143, 9, 7)],
    let r := ask (queryAsk x.1 x.2.1 x.2.2.1 x.2.2.2)
    let s := jr { staging := [leaf4] }
    quiet s = true ∧ accepts 0x0501 (ask []) (some 0) s = true ∧ accepts 0x0502 r (some 24) s = true ∧ fld r 1 3 = 0 ∧ fld r 4 4 < 2 ^ 18
      ∧ fld r 12 4 = 0 ∧ fld r 22 2 = 0 ∧ fld r 0 1 = x.1 := by decide +kernel
theorem test_asks_JournalQuery :
    let s := jr { staging := [leaf4] }
    (heldDetail s.jrn).find? (fun l => l.seq == fld (ask (queryAsk 1 0 0 7)) 16 6 && findable 0 l) = some leaf4
      ∧ (heldDetail s.jrn).find? (fun l => l.seq == fld (ask (queryAsk 1 0 0 8)) 16 6 && findable 0 l) = none
      ∧ highestLeaf (matching 0 4 9 6 (heldDetail s.jrn)) = some leaf4 ∧ matching 0 262143 9 7 (heldDetail s.jrn) = [] := by decide +kernel
theorem test_asks_JournalSync :
    accepts 0x0505 (ask []) (some 0) up = true ∧ up.jrn.nextSeq - 1 ≤ (writePages (closeBatch up)).jrn.durable ∧ ringTakes up = true
      ∧ (let s := jr { nextSeq := 3 }
         (writePages (closeBatch s)).jrn.durable < s.jrn.nextSeq - 1 ∧ ringTakes s = true ∧ accepts 0x0505 (ask []) (some 0) s = true)
      ∧ accepts 0x0506 (ask (zeros 16)) (some 16) up = true ∧ entryRefusal false up = none := by decide +kernel

/-- One entry of the ring. -/
def entry1 : Entry := { bytes := zeros 64, first := 7, last := 7 }

/-- The unit with that entry, and a segment held. -/
def ringed : State :=
  { jr { nextSeq := 8, seg := some { no := 3, bytes := zeros 100, nEntries := 1, last := 7 } } with nv := { up.nv with ring := [entry1] } }

theorem test_asks_JournalExport :
    (∀ q ∈ [0, 7],
      let r := ask (le 6 q ++ le 2 0 ++ le 4 8192 ++ le 4 0 ++ zeros 16)
      accepts 0x0503 r (some 32) ringed = true ∧ exportBad ringed r = none ∧ fld r 12 4 = 0 ∧ exportFrom ringed (fld r 0 6) = some 0
        ∧ ringed.nv.ring.drop 0 = [entry1] ∧ 160 + entry1.bytes.length + 3405 ≤ fld r 8 4 ∧ pkeUp ringed = true)
      ∧ quiet ringed = true
      ∧ (let r := ask (le 6 0 ++ le 2 0 ++ le 4 8192 ++ le 4 0 ++ zeros 16)
         accepts 0x0503 r (some 32) up = true ∧ exportBad up r = none ∧ exportFrom up (fld r 0 6) = some 0 ∧ up.nv.ring.drop 0 = [])
      ∧ (let r := ask (zeros 12 ++ le 4 4 ++ zeros 8 ++ le 4 99 ++ le 4 4064)
         accepts 0x0503 r (some 32) ringed = true ∧ exportBad ringed r = none ∧ fld r 12 4 = 4 ∧ ringed.jrn.seg.isSome = true) := by
  decide +kernel
theorem test_asks_JournalExport_key : (journalPair (upGates { keyed with nv := ringed.nv, jrn := ringed.jrn })).isSome = true := by
  have h : (domainSecret keyed 0).isSome = true := rfl
  obtain ⟨d, hd⟩ := Option.isSome_iff_exists.1 h
  have e : domainSecret (upGates { keyed with nv := ringed.nv, jrn := ringed.jrn }) 0 = domainSecret keyed 0 := rfl
  simp only [journalPair, e, hd, Option.map_some, Option.isSome_some]
theorem test_asks_JournalExport_dma : ∀ f ∈ [1, 3, 5],
    let s := upGates ringed
    let r := ask (zeros 8 ++ le 4 (if f = 5 then 0 else 8192) ++ le 4 f ++ le 8 0x1000 ++ (if f = 5 then le 4 0 ++ le 4 100 else zeros 8))
    let usb := { r with path := Path.usb }
    accepts 0x0503 r (some 32) s = true ∧ exportBad s r = none ∧ bit (fld r 12 4) 0 = true ∧ (fnOf s 0).bme = true
      ∧ (∀ n ∈ [100, 8192], dmaFault r true (fld r 16 8) n s = none)
      ∧ (let u := { s with link := { s.link with hostPath := some .usb } }
         accepts 0x0503 usb (some 32) u = true ∧ exportBad u usb = none ∧ usb.path ≠ .pcie ∧ quiet u = true) := by decide +kernel
theorem test_asks_JournalReclaim :
    let r := ask (le 4 3 ++ le 4 0 ++ zeros 48)
    let g : Segment := { no := 3, bytes := zeros 100, nEntries := 1, last := 7 }
    accepts 0x0504 r (some 56) ringed = true ∧ ringed.jrn.seg = some g ∧ g.no = fld r 0 4 ∧ h384 g.digest = slice r.body 8 48 ∧ fld r 4 4 = 0
      ∧ g.pos ≤ ringed.nv.entryNo ∧ g.pos + g.nEntries ≤ ringed.nv.entryNo + ringed.nv.ring.length ∧ entryRefusal true ringed = none
      ∧ ringTakes ringed = true ∧ quiet ringed = true ∧ g.no ≠ fld (ask (le 4 2 ++ zeros 52)) 0 4 := by decide +kernel

/-! Rule sets. -/

/-- A rule set body without rules. -/
def emptySet (id ver : Nat) : Bytes := le 2 id ++ le 2 ver ++ zeros 12

/-- The unit with 127 rule sets, one of them named by a queue, and an ACCEPT that has not passed its rule step. -/
def ruled : State :=
  { up with
    nv := { up.nv with ruleSets := (List.range 127).map fun i => (i, { ver := 1, body := emptySet i 1 }) }
    queues := [(4, { aQueue with ruleset := 3 })]
    work := [dispatched acceptEnt (zeros 64)]
    drains := [1, 2]
    epoch := 1 }

theorem test_asks_RuleSetCommandsAct :
    (∀ x ∈ [(0, 2), (126, 65535), (65534, 1)],
      let r := ask (emptySet x.1 x.2)
      quiet ruled = true ∧ num r.body 0 2 = x.1 ∧ accepts 0x0601 r none ruled = true ∧ bodyBad ruled r.body = none
        ∧ ((ruleSetOf ruled x.1).isSome = true ∨ ruled.nv.ruleSets.length < 128) ∧ entryRefusal false ruled = none ∧ ringTakes ruled = true)
      ∧ ruled.work.any (ruleStepDue (ruled.epoch + 1)) = true ∧ up.work.any (ruleStepDue (up.epoch + 1)) = false
      ∧ ringTakes up = true ∧ bodyBad up (emptySet 0 1) = none ∧ entryRefusal false up = none
      ∧ (1 ∈ ruled.drains ∧ ruled.work.any (ruleStepDue 1) = false ∧ ruled.work.any (ruleStepDue 2) = true)
      ∧ (let w : Waiter := { req := ask [], op := 0x0601, obj := 1 }
         let s := { ruled with waiters := [w] }
         s.waiters = [w] ∧ w.orphan = false ∧ 1 ∈ s.drains ∧ s.work.any (ruleStepDue 1) = false ∧ quiet s = true)
      ∧ (∀ n ∈ [3, 126],
        let r := ask (le 2 n ++ le 2 0)
        (ruleSetOf ruled (fld r 0 2)).isSome = true ∧ fld r 2 2 = 0 ∧ accepts 0x0602 r (some 4) ruled = true
          ∧ accepts 0x0603 r (some 4) ruled = true ∧ (ruleUses ruled (fld r 0 2) = if n = 3 then 1 else 0)) := by decide +kernel

/-! Life cycle. -/

/-- The beginning of a life-cycle request: act, from, to, signers, keys. -/
def lcPkg (act fromC toC keys n : Nat) : Bytes :=
  le 4 0x524C4C46 ++ [BitVec.ofNat 8 act, BitVec.ofNat 8 fromC, BitVec.ofNat 8 toC, 0]
    ++ (unitIdBytes ++ (zeros 80 ++ [BitVec.ofNat 8 keys] ++ zeros (n - 105)))

/-- A chunk that is the whole package, or not the last. -/
def chunkBody (fl : Nat) (p : Bytes) : Bytes := le 4 fl ++ le 4 0 ++ le 4 p.length ++ zeros 12 ++ p

/-- The unit in another life cycle. -/
def inLc (l : Lc) (otp : Tab (BitVec 64)) : State := { up with lc := l, otp := otp }

theorem lcPkg_unit (act fromC toC keys n : Nat) : slice (lcPkg act fromC toC keys n) 8 16 = unitIdBytes := slice_after _ _ 8 (by simp)

/-- A request to SCRAP is in good form, and so is one for the first OPERATOR role key. -/
theorem lcForm_good :
    lcFormBad (inLc .field []) false (lcPkg 1 4 6 0 128) = none ∧ lcFormBad (inLc .provision []) true (lcPkg 3 2 1 1 2180) = none := by
  have h1 := lcPkg_unit 1 4 6 0 128
  have h2 := lcPkg_unit 3 2 1 1 2180
  unfold lcFormBad
  simp only [h1, h2, bne_self_eq_false]
  clear h1 h2
  decide +kernel

theorem test_asks_LifeCycle_chunk : ∀ x ∈ [(0x0702, 1), (0x0702, 4056), (0x0703, 1)], ∀ fl ∈ [0, 2],
    let r := ask (chunkBody fl (zeros x.2))
    quiet up = true ∧ accepts x.1 r none up = true ∧ chunkWhole x.1 32768 r up = some (zeros x.2) ∧ bit (fld r 0 4) 1 = (fl == 2)
      ∧ (lcFormBad up (x.1 == 0x0703) (zeros x.2)).isSome = true ∧ accepts 0x0701 (ask []) (some 0) up = true := by decide +kernel
theorem test_asks_LcTransition :
    let p := lcPkg 1 4 6 0 128
    let r := ask (chunkBody 2 p)
    let s := inLc .field []
    accepts 0x0702 r none s = true ∧ fld r 0 4 = 2 ∧ (transitionPermit s p).isSome = true ∧ transitionRefusal s (num p 6 1) = none
      ∧ 10000 ≤ s.pwr.vhold ∧ ringTakes s = true ∧ entryRefusal false s = none ∧ s.lc ≠ .lost := by decide +kernel
theorem test_asks_LcFlagBurn :
    let p := lcPkg 3 2 1 1 2180
    let r := ask (chunkBody 2 p)
    let s := inLc .provision []
    accepts 0x0703 r none s = true ∧ fld r 0 4 = 2 ∧ (flagPermit s p).isSome = true ∧ entryRefusal false s = none ∧ ringTakes s = true := by
  decide +kernel

/-! Firmware. -/

/-- The unit with firmware, started in a mode, with slot B in a state. -/
def booted (m : FwMode) (st : FwState) : State := { up with boot := { mode := m, runSlot := (m == .trial), stA := .running, stB := st } }

/-- An FW_WRITE of zeros, in the request or by DMA. -/
def writeAsk (off n : Nat) : Req := ask (le 4 off ++ le 4 n ++ zeros 16 ++ zeros n)
/-- The same by DMA. -/
def writeAskDma (off n : Nat) : Req := ask (le 4 off ++ le 4 n ++ le 4 1 ++ zeros 4 ++ le 8 0x1000) (.data (zeros n))

theorem test_asks_FwWrite : ∀ x ∈ [(0, 16), (8388608 - 4032, 4032)], ∀ r ∈ [writeAsk x.1 x.2, writeAskDma x.1 x.2],
    let s := upGates (booted .normal .written)
    quiet s = true ∧ slotTaken s = false ∧ accepts 0x0802 r none s = true ∧ fld r 4 4 = x.2 ∧ fld r 0 4 = x.1 ∧ fld r 0 4 % 16 = 0
      ∧ fld r 12 4 = 0 ∧ accepts 0x0802 r none (booted .trial .running) = true ∧ slotTaken (booted .trial .running) = true := by
  decide +kernel
theorem test_asks_FwWrite_source : ∀ x ∈ [(0, 16), (8388608 - 4032, 4032)],
    (fld (writeAsk x.1 x.2) 8 4 = 0 ∧ fld (writeAsk x.1 x.2) 16 8 = 0 ∧ (writeAsk x.1 x.2).body.drop 24 = zeros x.2)
      ∧ fld (writeAskDma x.1 x.2) 8 4 = 1 ∧ (writeAskDma x.1 x.2).body.length = 24 ∧ (writeAskDma x.1 x.2).dma = .data (zeros x.2)
      ∧ dmaFault (writeAskDma x.1 x.2) false (fld (writeAskDma x.1 x.2) 16 8) x.2 (upGates (booted .normal .written)) = none := by
  decide +kernel
theorem test_asks_FirmwareCommandsAct :
    (let s := booted .normal .verified
     accepts 0x0801 (ask []) (some 0) s = true ∧ accepts 0x0803 (ask []) (some 0) s = true ∧ accepts 0x0804 (ask []) (some 0) s = true
       ∧ accepts 0x0805 (ask []) (some 0) s = true ∧ slotState s (inactive s) = .verified ∧ s.boot.mode ≠ .trial)
      ∧ slotState (booted .normal .written) (inactive (booted .normal .written)) ≠ .verified
      ∧ (let s := booted .trial .running
         accepts 0x0805 (ask []) (some 0) s = true ∧ s.boot.mode = .trial ∧ (ctrOf s 4).lost = false) := by decide

/-! The device. -/

theorem test_asks_DeviceCommandsAct :
    (quiet up = true ∧ accepts 0x0101 (ask []) (some 0) up = true ∧ accepts 0x0102 (ask []) (some 0) up = true)
      ∧ (∀ op ∈ [0, 0x0106, 0x0B05, 0xFFFF], opcodeKnown op = false ∧ takes op (ask []) up = true ∧ headerBad (ask []) = none)
      ∧ (∀ b ∈ [[0, 0, 0, 0], [6, 0, 0, 0], [255, 0, 2, 1]],
        accepts 0x0903 (ask b) (some 4) up = true ∧ (fld (ask b) 0 1 = 0 ∨ 5 < fld (ask b) 0 1)) := by decide
theorem test_asks_DiagSelftest :
    (∀ b ∈ [[5, 0, 0, 0], [5, 0, 1, 0], [2, 7, 0, 0], [4, 1, 1, 0], [4, 0, 0, 0], [3, 2, 1, 0], [1, 0, 0, 0]],
      accepts 0x0903 (ask b) (some 4) up = true ∧ fld (ask b) 2 1 ≤ 1 ∧ fld (ask b) 3 1 = 0 ∧ lanesBusy up = false ∧ up.sched.laneTest = none)
      ∧ (up.lanes.length = 8 ∧ (laneOf up 7).st = .off ∧ condUp up 1 = true ∧ up.banks.length = 3 ∧ (bankOf up 2).st = .serving
          ∧ bankCalibrating up = false ∧ 2 ≤ othersServing up 2 ∧ wouldStarve up = false ∧ (slotOf up 0).inService = true)
      ∧ (laneOf (rotation 0 {} { st := .failed }) 7).st = .failed ∧ accepts 0x0903 (ask [2, 7, 0, 0]) (some 4) (rotation 0 {} { st := .failed }) = true
      ∧ (∀ x ∈ [BankSt.off, .suspended],
        let s := withBank 2 { bank with st := x }
        accepts 0x0903 (ask [3, 2, 0, 0]) (some 4) s = true ∧ s.banks.length = 3 ∧ (bankOf s 2).st = x ∧ lanesBusy s = false) := by decide
theorem test_asks_DiagSelftest_deferred :
    (let s := withBank 2 { bank with st := .suspended }
     accepts 0x0903 (ask [3, 0, 0, 0]) (some 4) s = true ∧ (bankOf s 0).st = .serving ∧ bankCalibrating s = false ∧ othersServing s 0 < 2)
      ∧ (∀ k, k < 2 → up.pkes.length = 2 ∧ (up.pkes.getD k {}).inService = true ∧ (up.pkes.getD (1 - k) {}).inService = true
        ∧ (∀ p ∈ up.pkes, p.testing = false))
      ∧ (let s := { up with pkes := [{ inService := true }, { out := true }] }
         accepts 0x0903 (ask [4, 0, 0, 0]) (some 4) s = true ∧ (s.pkes.getD 0 {}).inService = true
           ∧ (s.pkes.getD (1 - 0) {}).inService = false ∧ ∀ p ∈ s.pkes, p.testing = false)
      ∧ (let s := { rotation 0 {} { st := .failed } with slots := up.slots.set 2 {} }
         accepts 0x0903 (ask [1, 1, 0, 0]) (some 4) s = true ∧ (slotOf s 1).inService = true ∧ wouldStarve s = true ∧ lanesBusy s = false
           ∧ s.sched.laneTest = none ∧ quiet s = true) := by decide
theorem test_asks_CommandWaitTimeout : ∀ op ∈ [0x0402, 0x0601, 0x0505],
    let w : Waiter := { req := ask [], op := op }
    let s := { up with waiters := [w] }
    s.waiters = [w] ∧ w.req.fn = 0 ∧ w.req.mbx = 0 ∧ w.orphan = false ∧ quiet s = true := by decide
theorem test_asks_RefusedRequestsChangeNothing :
    (let s := { up with mbxs := [(0, { busy := true })] }
     unreachable (ask []) s = false ∧ s.pwr.standby = false ∧ s.pwr.standbyDue = false ∧ quiet s = true ∧ (mbxOf s 0 0).busy = true
       ∧ pathOk (ask []) s = true)
      ∧ ((mbxOf up 0 0).busy = false ∧ up.pwr.phase = .service ∧ unreachable (ask []) up = false)
      ∧ (∀ b : Bool,
        let s := { up with link := { up.link with hostPath := some .usb }, mbxs := [(0, { busy := b })] }
        pathOk (ask []) s = false ∧ unreachable (ask []) s = false ∧ quiet s = true)
      ∧ (let s := { up with link := { up.link with usbConf := true, usb3Tun := true } }
         let r := { ask [] with path := Path.usb }
         pathOk r s = false ∧ unreachable r s = false)
      ∧ (∀ off ∈ [2, 8, 10, 12],
        let r : Req := { ask [] with
          len := if off = 2 then 17 else 16, rsv8 := if off = 8 then 1 else 0, rsv10 := if off = 10 then 1 else 0, rsv12 := if off = 12 then 1 else 0 }
        pathOk r up = true ∧ headerBad r = some off) := by decide
/-! Test vectors of the standards. -/

/-- The check value of CRC-32: the digits 1 to 9. -/
theorem test_crc32_check : crc32 (ascii "123456789") = 0xCBF43926 := by decide +kernel
/-- FIPS 197: a product in the field, an entry of the S-box and of its inverse. -/
theorem test_aes_field : gmul 0x57 0x83 = 0xC1 ∧ sbox 0x53 = 0xED ∧ invSbox 0xED = 0x53 := by decide +kernel
/-- FIPS 180: SHA-256 of "abc". -/
theorem test_sha256_abc : sha256 (ascii "abc") = 0xBA7816BF8F01CFEA414140DE5DAE2223B00361A396177A9CB410FF61F20015AD := by decide +kernel
end Sys2Proof.Tests
end

section
/-! The arrival of a terminal record, the nonce, and the release of a failed ACCEPT (chapter 6 of the spec). -/

namespace Sys2Proof.Sealing

open Sys2Proof Sys2Proof.Machine

/-! The source arrives: stages 2 and 3 (R145, R152, R159). -/

theorem takeSource_of_stage2_some {w : Work} {src : Bytes} {st det : Nat} (h : stage2 w.ent src = some (st, det)) :
    takeSource src w = w.decided st det := by
  simp [takeSource, h]

theorem takeSource_of_stage2_none {w : Work} {src : Bytes} (h : stage2 w.ent src = none) :
    (takeSource src w).stage = .arrived ∧ (takeSource src w).src = src := by
  simp [takeSource, h]

/-- The header check comes before every comparison of lengths (R145, R159). -/
theorem stage2_of_headBad {e src : Bytes} {off : Nat} (hend : headEnd e ≤ src.length) (hbad : headBad e src = some off) :
    stage2 e src = some (stMalformed, 0x20 + off) := by
  simp [stage2, hend, hbad]

/-- Behind a good header, a source of the byte count LEN asks for is judged by its declared length alone. -/
theorem stage2_of_goodHead {e src : Bytes} (hgood : headBad e src = none) (hlen : src.length = srcCount e) :
    stage2 e src = (declaredBad e src).map fun st => (st, 0) := by
  simp [stage2, hgood, hlen]

theorem headEnd_accept {e : Bytes} (h : eOpc e = 1) : headEnd e = 32 := by simp [headEnd, h]

theorem srcCount_accept {e : Bytes} (h : eOpc e = 1) : srcCount e = eLen e := by simp [srcCount, h]

theorem declaredBad_accept {e : Bytes} (h : eOpc e = 1) (src : Bytes) :
    declaredBad e src = if eLen e < num src 4 4 then some stLenShort else if num src 4 4 < eLen e then some stLenLong else none := by
  simp [declaredBad, h]

/-- Settles O24: the header check decides first, and behind a good header RLEN against LEN. -/
theorem declaredLengthIsCompared : Obligations.DeclaredLengthIsCompared := by
  intro w src hop hlen h32
  have hend : headEnd w.ent ≤ src.length := by rw [headEnd_accept hop]; exact h32
  refine ⟨fun hgood => ?_, fun off hbad => takeSource_of_stage2_some (stage2_of_headBad hend hbad)⟩
  have hjudged := stage2_of_goodHead hgood (by rw [hlen, srcCount_accept hop])
  rw [declaredBad_accept hop] at hjudged
  refine ⟨fun hshort => ?_, fun hlong => ?_, fun heq => ?_⟩
  · exact takeSource_of_stage2_some (by simp [hjudged, hshort])
  · exact takeSource_of_stage2_some (by simp [hjudged, hlong, hlong.le])
  · exact takeSource_of_stage2_none (by simp [hjudged, heq])

/-! The nonce (R154). -/

theorem nonceBytes_length (n : Nat) : (nonceBytes n).length = 12 := by simp [nonceBytes, be]

theorem beVal_nonceBytes {n : Nat} (h : n < 2 ^ 96) : beVal (nonceBytes n) = n := by
  simp only [beVal, nonceBytes, be, List.reverse_reverse, leVal_le]
  exact Nat.mod_eq_of_lt h

theorem nonceValue_lt {epoch q ctr : Nat} (he : epoch < 2 ^ 24) (hq : q < 2 ^ 18) (hc : ctr < 2 ^ 54) :
    nonceValue epoch q ctr < 2 ^ 96 := by
  unfold nonceValue
  omega

/-- The three parts lie side by side in the nonce, so that it tells each of them. -/
theorem nonceValue_inj {epoch q ctr epoch' q' ctr' : Nat} (hq : q < 2 ^ 18) (hc : ctr < 2 ^ 54) (hq' : q' < 2 ^ 18)
    (hc' : ctr' < 2 ^ 54) (h : nonceValue epoch q ctr = nonceValue epoch' q' ctr') : epoch = epoch' ∧ q = q' ∧ ctr = ctr' := by
  unfold nonceValue at h
  omega

/-- Settles O27: twelve bytes hold the 96-bit value whole, and the value tells its three parts. -/
theorem nonceIsEpochQueueCounter : Obligations.NonceIsEpochQueueCounter := by
  refine ⟨fun epoch q ctr he hq hc => ?_, by decide⟩
  have hval := beVal_nonceBytes (nonceValue_lt he hq hc)
  refine ⟨rfl, nonceBytes_length _, hval, fun epoch' q' ctr' he' hq' hc' hbytes => ?_⟩
  have hval' := beVal_nonceBytes (nonceValue_lt he' hq' hc')
  exact nonceValue_inj hq hc hq' hc' (by rw [← hval, ← hval', hbytes])

/-! What the parts of a release change: the fields named here and no others. -/

theorem writeOutput_only (w : Work) (r : UnitResult) (s : State) :
    writeOutput w r s = { s with out := (writeOutput w r s).out, pmon := (writeOutput w r s).pmon } := by
  unfold writeOutput
  dsimp only
  (repeat' split) <;> rfl

theorem raiseReplay_only (w : Work) (s : State) : raiseReplay w s = { s with queues := (raiseReplay w s).queues } := by
  unfold raiseReplay
  (repeat' split) <;> rfl

theorem countSold_only (w : Work) (st : Nat) (s : State) : countSold w st s = { s with nv := (countSold w st s).nv } := by
  unfold countSold
  (repeat' split) <;> rfl

@[simp] theorem writeOutput_link (w : Work) (r : UnitResult) (s : State) : (writeOutput w r s).link = s.link := by
  rw [writeOutput_only]
@[simp] theorem writeOutput_spi (w : Work) (r : UnitResult) (s : State) : (writeOutput w r s).spi = s.spi := by
  rw [writeOutput_only]
@[simp] theorem writeOutput_work (w : Work) (r : UnitResult) (s : State) : (writeOutput w r s).work = s.work := by
  rw [writeOutput_only]
@[simp] theorem writeOutput_lanes (w : Work) (r : UnitResult) (s : State) : (writeOutput w r s).lanes = s.lanes := by
  rw [writeOutput_only]
@[simp] theorem writeOutput_jrn (w : Work) (r : UnitResult) (s : State) : (writeOutput w r s).jrn = s.jrn := by
  rw [writeOutput_only]

@[simp] theorem raiseReplay_out (w : Work) (s : State) : (raiseReplay w s).out = s.out := by rw [raiseReplay_only]
@[simp] theorem raiseReplay_link (w : Work) (s : State) : (raiseReplay w s).link = s.link := by rw [raiseReplay_only]
@[simp] theorem raiseReplay_spi (w : Work) (s : State) : (raiseReplay w s).spi = s.spi := by rw [raiseReplay_only]
@[simp] theorem raiseReplay_work (w : Work) (s : State) : (raiseReplay w s).work = s.work := by rw [raiseReplay_only]
@[simp] theorem raiseReplay_lanes (w : Work) (s : State) : (raiseReplay w s).lanes = s.lanes := by rw [raiseReplay_only]
@[simp] theorem raiseReplay_jrn (w : Work) (s : State) : (raiseReplay w s).jrn = s.jrn := by rw [raiseReplay_only]

@[simp] theorem countSold_out (w : Work) (st : Nat) (s : State) : (countSold w st s).out = s.out := by rw [countSold_only]
@[simp] theorem countSold_link (w : Work) (st : Nat) (s : State) : (countSold w st s).link = s.link := by rw [countSold_only]
@[simp] theorem countSold_spi (w : Work) (st : Nat) (s : State) : (countSold w st s).spi = s.spi := by rw [countSold_only]
@[simp] theorem countSold_work (w : Work) (st : Nat) (s : State) : (countSold w st s).work = s.work := by rw [countSold_only]
@[simp] theorem countSold_lanes (w : Work) (st : Nat) (s : State) : (countSold w st s).lanes = s.lanes := by rw [countSold_only]
@[simp] theorem countSold_jrn (w : Work) (st : Nat) (s : State) : (countSold w st s).jrn = s.jrn := by rw [countSold_only]

@[simp] theorem returnCredit_out (w : Work) (s : State) : (returnCredit w s).out = s.out := rfl
@[simp] theorem returnCredit_link (w : Work) (s : State) : (returnCredit w s).link = s.link := rfl
@[simp] theorem returnCredit_spi (w : Work) (s : State) : (returnCredit w s).spi = s.spi := rfl
@[simp] theorem returnCredit_work (w : Work) (s : State) : (returnCredit w s).work = s.work := rfl
@[simp] theorem returnCredit_lanes (w : Work) (s : State) : (returnCredit w s).lanes = s.lanes := rfl
@[simp] theorem returnCredit_jrn (w : Work) (s : State) : (returnCredit w s).jrn = s.jrn := rfl

@[simp] theorem clearOut_out (seq : Nat) (s : State) : (clearOut seq s).out = s.out := rfl
@[simp] theorem clearOut_link (seq : Nat) (s : State) : (clearOut seq s).link = s.link := rfl
@[simp] theorem clearOut_spi (seq : Nat) (s : State) : (clearOut seq s).spi = s.spi := rfl
@[simp] theorem clearOut_work (seq : Nat) (s : State) : (clearOut seq s).work = s.work := rfl
@[simp] theorem clearOut_jrn (seq : Nat) (s : State) : (clearOut seq s).jrn = s.jrn := rfl

@[simp] theorem countLag_out (p : Nat) (s : State) : (countLag p s).out = s.out := rfl
@[simp] theorem countLag_link (p : Nat) (s : State) : (countLag p s).link = s.link := rfl
@[simp] theorem countLag_spi (p : Nat) (s : State) : (countLag p s).spi = s.spi := rfl
@[simp] theorem countLag_lanes (p : Nat) (s : State) : (countLag p s).lanes = s.lanes := rfl
@[simp] theorem countLag_jrn (p : Nat) (s : State) : (countLag p s).jrn = s.jrn := rfl

@[simp] theorem recharge_compl (s : State) : (recharge s).spi.compl = s.spi.compl := rfl

theorem releaseLast_out (w : Work) (r : UnitResult) (s : State) :
    (releaseLast w r s).out = if writesOutput w (releaseStatus s w).1 then (writeOutput w r s).out else s.out := by
  simp [releaseLast, countUnit, apply_ite State.out]

theorem releaseLast_link (w : Work) (r : UnitResult) (s : State) : (releaseLast w r s).link = s.link := by
  simp [releaseLast, countUnit, apply_ite State.link]

theorem releaseLast_compl (w : Work) (r : UnitResult) (s : State) : (releaseLast w r s).spi.compl = s.spi.compl := by
  simp [releaseLast, countUnit, apply_ite State.spi]

theorem releaseLast_lanes (w : Work) (r : UnitResult) (s : State) : (releaseLast w r s).lanes = (clearOut w.seq s).lanes := by
  simp [releaseLast, countUnit, clearOut, apply_ite State.lanes]

theorem releaseLast_jrn (w : Work) (r : UnitResult) (s : State) :
    (releaseLast w r s).jrn = s.jrn.leafIn (leafOf s w (releaseStatus s w).1 (releaseStatus s w).2) := by
  simp [releaseLast, countUnit, apply_ite State.jrn]

/-! The entries inside. -/

theorem mem_modFirst {p : Work → Bool} {f : Work → Work} {v : Work} {ws : List Work} (h : v ∈ modFirst p f ws) :
    v ∈ ws ∨ ∃ u ∈ ws, v = f u := by
  induction ws with
  | nil => exact .inl h
  | cons x xs ih =>
    rw [modFirst] at h
    split at h
    · rcases List.mem_cons.mp h with hv | hv
      · exact .inr ⟨x, List.mem_cons_self, hv⟩
      · exact .inl (List.mem_cons_of_mem _ hv)
    · rcases List.mem_cons.mp h with hv | hv
      · exact .inl (hv ▸ List.mem_cons_self)
      · exact (ih hv).imp (List.mem_cons_of_mem _) fun ⟨u, hu, hvu⟩ => ⟨u, List.mem_cons_of_mem _ hu, hvu⟩

/-- Counting a release moves no output that a framed path collects. -/
theorem acc_of_mem_countLag {p : Nat} {s : State} {v : Work} (h : v ∈ (countLag p s).work) : ∃ u ∈ s.work, v.acc = u.acc := by
  obtain ⟨u, hu, rfl⟩ := List.mem_map.mp h
  refine ⟨u, hu, ?_⟩
  split <;> rfl

/-- The last release of an entry that writes no output adds nothing to what any entry has collected. -/
theorem acc_of_mem_releaseLast {w : Work} {r : UnitResult} {s : State} (hw : writesOutput w (releaseStatus s w).1 = false) {v : Work}
    (h : v ∈ (releaseLast w r s).work) : v.acc = w.acc ∨ ∃ u ∈ s.work, v.acc = u.acc := by
  simp only [releaseLast, countUnit, apply_ite State.work, recharge_work, count_work, ite_self, hw] at h
  split at h
  · right
    simpa [apply_ite State.work] using acc_of_mem_countLag (List.mem_filter.mp h).1
  · rcases mem_modFirst h with hv | ⟨u, -, rfl⟩
    · right
      simpa [apply_ite State.work] using acc_of_mem_countLag hv
    · left
      rfl

/-! The leaf reaches the journal writer. -/

theorem mem_insertLeaf (l : Leaf) (ls : List Leaf) : l ∈ insertLeaf l ls := by
  induction ls with
  | nil => exact List.mem_cons_self
  | cons x xs ih =>
    rw [insertLeaf]
    split
    · exact List.mem_cons_self
    · exact List.mem_cons_of_mem _ ih

theorem leafIn_waiting (l : Leaf) (j : Journal) : (j.leafIn l).waiting = insertLeaf l j.waiting := by
  unfold Journal.leafIn Journal.stage
  split <;> rfl

/-! ACCEPT. -/

/-- An ACCEPT is one unit, so that each of its releases is its last (R191). -/
theorem releaseUnit_accept {w : Work} (h : eOpc w.ent = 1) (r : UnitResult) (s : State) :
    releaseUnit w r s = releaseLast (withVerdict r w) r s := by
  have hlast : lastUnit (withVerdict r w) = true := by simp [lastUnit, unitsOf, withVerdict, h]
  simp [releaseUnit, hlast]

theorem writesOutput_accept {w : Work} (h : eOpc w.ent = 1) (st : Nat) : writesOutput w st = (st == stOk) := by
  simp [writesOutput, h]

theorem mem_clearOut_lanes {seq : Nat} {s : State} {l : Lane} (h : l ∈ (clearOut seq s).lanes) {x : UnitResult} (hx : x ∈ l.out) :
    x.seq ≠ seq := by
  obtain ⟨l0, -, rfl⟩ := List.mem_map.mp h
  simpa using (List.mem_filter.mp hx).2

/-- On a ring path the output goes to host memory from the unit's place in DST on (R99, R163); an empty one is no write. -/
theorem writeOutput_out_pcie {w : Work} {s : State} (hp : (queueOf s w.qix).path = .pcie) (hf : (queueOf s w.qix).byFn = false)
    (r : UnitResult) :
    (writeOutput w r s).out
      = s.out ++ (tlps r.out.length (maxPayload s) (eDst w.ent + r.pos) r.out).map fun p => Out.mem w.fn p.1 p.2 := by
  by_cases he : r.out = []
  · simp [writeOutput, he, tlps]
  · simp [writeOutput, he, hf, hp, hostWrite]

/-- Settles O31: a release that writes no output leaves what the host sees as it was, clears the lanes' buffers and forms the leaf. -/
theorem failedAcceptWritesNothing : Obligations.FailedAcceptWritesNothing := by
  intro w r s hop
  have hwrites := writesOutput_accept (w := withVerdict r w) hop
  rw [releaseUnit_accept hop]
  refine ⟨fun hfail => ?_, fun hok hp hf => ?_⟩
  · have hsilent : writesOutput (withVerdict r w) (releaseStatus s (withVerdict r w)).1 = false := by simp [hwrites, hfail]
    refine ⟨by simp [releaseLast_out, hsilent], by rw [releaseLast_link], releaseLast_compl _ r s,
      fun v hv => acc_of_mem_releaseLast hsilent hv, fun l hl x hx => ?_, ?_⟩
    · rw [releaseLast_lanes] at hl
      exact mem_clearOut_lanes hl hx
    · rw [releaseLast_jrn, leafIn_waiting]
      exact ⟨_, mem_insertLeaf _ _, rfl⟩
  · rw [releaseLast_out, hwrites, hok]
    exact writeOutput_out_pcie (w := withVerdict r w) hp hf r

end Sys2Proof.Sealing
end

section
/-! The end of a slot's drain: the pair is withdrawn and its lanes are tested (chapter 7 of the spec). -/

namespace Sys2Proof.Redundancy

open Sys2Proof Sys2Proof.Machine

/-! One lane, after a change of the lanes. -/

theorem laneOf_modLane_self {n : Nat} {s : State} (h : n < s.lanes.length) (f : Lane → Lane) :
    laneOf (modLane n f s) n = f (laneOf s n) := by
  simp [laneOf, modAt, List.getD_eq_getElem?_getD, h]

theorem laneOf_modLane_ne {m n : Nat} (h : m ≠ n) (f : Lane → Lane) (s : State) : laneOf (modLane n f s) m = laneOf s m := by
  simp [laneOf, modAt, List.getD_eq_getElem?_getD, h.symm]

/-- What is known of a lane holds in every state with the same lanes. -/
theorem laneOf_congr {s t : State} (h : t.lanes = s.lanes) (n : Nat) : laneOf t n = laneOf s n := by rw [laneOf, laneOf, h]

theorem laneOf_settle (s0 s : State) (n : Nat) : laneOf (settle s0 s) n = laneOf s n := laneOf_congr (settle_lanes s0 s) n

theorem laneOf_modSlot (p : Nat) (g : Slot → Slot) (s : State) (n : Nat) : laneOf (modSlot p g s) n = laneOf s n :=
  laneOf_congr (modSlot_lanes p g s) n

@[simp] theorem length_modAt {α : Type} (l : List α) (i : Nat) (f : α → α) : (modAt l i f).length = l.length := by simp [modAt]

/-! A lane fails (R198, R206). -/

@[simp] theorem laneDomains_lanes (n : Nat) (d : DomState) (s : State) : (laneDomains n d s).lanes = s.lanes := rfl
@[simp] theorem laneDomains_opsec (n : Nat) (d : DomState) (s : State) : (laneDomains n d s).opsec = s.opsec := rfl

theorem laneFails_lanes (n : Nat) (s : State) : (laneFails n s).lanes = (laneDown .failed n s).lanes := by
  rw [laneFails, aer_only, event_lanes]

theorem laneOf_laneFails_self {n : Nat} {s : State} (h : n < s.lanes.length) : (laneOf (laneFails n s) n).st = .failed := by
  rw [laneOf_congr (laneFails_lanes n s), laneDown, laneOf_congr (laneDomains_lanes _ _ _), laneOf_modLane_self h]

theorem laneOf_laneFails_ne {m n : Nat} (h : m ≠ n) (s : State) : laneOf (laneFails n s) m = laneOf s m := by
  rw [laneOf_congr (laneFails_lanes n s), laneDown, laneOf_congr (laneDomains_lanes _ _ _), laneOf_modLane_ne h]

@[simp] theorem laneFails_opsec (n : Nat) (s : State) : (laneFails n s).opsec = s.opsec := by
  rw [laneFails, aer_only, event_opsec, laneDown, laneDomains_opsec, modLane_opsec]

@[simp] theorem length_laneFails (n : Nat) (s : State) : (laneFails n s).lanes.length = s.lanes.length := by
  rw [laneFails_lanes, laneDown, laneDomains_lanes, modLane_lanes, length_modAt]

/-! The test of a withdrawn lane (R198, R206). -/

/-- The outcome of a lane test goes to the command that waits for it; no lane changes with that, and no time passes (R418). -/
theorem noteTest_keeps (n : Nat) (pass : Bool) (s : State) :
    (noteTest n pass s).lanes = s.lanes ∧ (noteTest n pass s).opsec = s.opsec := by
  unfold noteTest
  split
  · exact ⟨rfl, rfl⟩
  · split
    · dsimp only
      split <;> simp [answerTests, apply_ite State.lanes, apply_ite State.opsec]
    · exact ⟨rfl, rfl⟩

theorem noteTest_lanes (n : Nat) (pass : Bool) (s : State) : (noteTest n pass s).lanes = s.lanes := (noteTest_keeps n pass s).1

theorem laneOf_testLane_ne {m n : Nat} (h : m ≠ n) (s : State) : laneOf (testLane n s) m = laneOf s m := by
  unfold testLane
  split
  · split
    · rw [laneOf_congr (noteTest_lanes _ _ _), laneOf_laneFails_ne h]
    · exact laneOf_modLane_ne h _ s
  · rfl

theorem testLane_keeps (n : Nat) (s : State) :
    (testLane n s).opsec = s.opsec ∧ (testLane n s).lanes.length = s.lanes.length := by
  unfold testLane
  split
  · split
    · obtain ⟨hlanes, hopsec⟩ := noteTest_keeps n false (laneFails n s)
      exact ⟨by rw [hopsec, laneFails_opsec], by rw [hlanes, length_laneFails]⟩
    · exact ⟨rfl, by simp [withdrawLane]⟩
  · exact ⟨rfl, rfl⟩

/-- A draining lane that was a suspect three times fails where another would be tested (R206). -/
theorem testLane_thriceSuspect {n : Nat} {s : State} (h : n < s.lanes.length) (hd : (laneOf s n).st = .draining)
    (ht : thriceSuspect s n = true) : (laneOf (testLane n s) n).st = .failed := by
  rw [testLane, if_pos (.inr hd), if_pos ht, laneOf_congr (noteTest_lanes _ _ _), laneOf_laneFails_self h]

/-- A lane that has failed is not tested again. -/
theorem testLane_failed {n : Nat} {s : State} (h : (laneOf s n).st = .failed) (m : Nat) : (laneOf (testLane m s) n).st = .failed := by
  rcases eq_or_ne n m with rfl | hm
  · rwa [testLane, if_neg (by simp [h])]
  · rwa [laneOf_testLane_ne hm]

/-- Of the two lanes of a pair that is withdrawn, the one that was a suspect three times ends FAILED, whichever of them it is. -/
theorem testPair_thriceSuspect {a b n : Nat} {s : State} (hn : n < s.lanes.length) (hab : a = n ∨ b = n)
    (hd : (laneOf s n).st = .draining) (ht : thriceSuspect s n = true) : (laneOf (testLane b (testLane a s)) n).st = .failed := by
  rcases eq_or_ne n a with rfl | ha
  · exact testLane_failed (testLane_thriceSuspect hn hd ht) b
  · obtain rfl : b = n := hab.resolve_left ha.symm
    have hsame := laneOf_testLane_ne ha s
    obtain ⟨hopsec, hlen⟩ := testLane_keeps a s
    refine testLane_thriceSuspect (by rwa [hlen]) (by rwa [hsame]) ?_
    rwa [thriceSuspect, hsame, hopsec]

/-! The withdrawal of a pair (R189, R200, R205). -/

theorem claimEvent_lanes (p cause old : Nat) (new : Option (Nat × Nat)) (s : State) : (claimEvent p cause old new s).lanes = s.lanes := by
  simp [claimEvent]

/-- A withdrawal drops results from the output buffers and leaves every lane as it was otherwise. -/
theorem laneOf_withdraw (p cause n : Nat) (new : Option (Nat × Nat)) (s : State) :
    ∃ o, laneOf (withdraw p cause new s) n = { laneOf s n with out := o } := by
  rw [withdraw, laneOf_congr (claimEvent_lanes _ _ _ _ _)]
  simp only [laneOf, takeBack, dropResults, count_lanes, modSlot_lanes, List.getD_eq_getElem?_getD, List.getElem?_map]
  cases s.lanes[n]? with
  | none => exact ⟨[], rfl⟩
  | some l => exact ⟨_, rfl⟩

theorem withdraw_opsec (p cause : Nat) (new : Option (Nat × Nat)) (s : State) : (withdraw p cause new s).opsec = s.opsec := by
  simp [withdraw, claimEvent, takeBack, dropResults]

theorem length_withdraw (p cause : Nat) (new : Option (Nat × Nat)) (s : State) :
    (withdraw p cause new s).lanes.length = s.lanes.length := by
  simp [withdraw, claimEvent, takeBack, dropResults]

/-- The pair of a slot is withdrawn and its lanes tested: a draining lane that was a suspect three times ends FAILED (R205, R206). -/
theorem withdrawnPair_thriceSuspect {p cause a b n : Nat} {new : Option (Nat × Nat)} {s : State} (hn : n < s.lanes.length)
    (hab : a = n ∨ b = n) (hd : (laneOf s n).st = .draining) (ht : thriceSuspect s n = true) :
    (laneOf (testLane b (testLane a (withdraw p cause new s))) n).st = .failed := by
  obtain ⟨o, ho⟩ := laneOf_withdraw p cause n new s
  refine testPair_thriceSuspect (by rwa [length_withdraw]) hab (by rw [ho, hd]) ?_
  rwa [thriceSuspect, ho, withdraw_opsec]

/-! A lane that has failed stays so while its slot is filled or rebuilt (R202). -/

theorem fillSlot_failed {a b n : Nat} {s : State} (h : (laneOf s n).st = .failed) (ha : n ≠ a) (hb : n ≠ b) (p : Nat) :
    (laneOf (fillSlot p a b s) n).st = .failed := by
  rw [fillSlot, laneOf_modLane_ne hb, laneOf_modLane_ne ha]
  exact h

theorem takeSeed_lanes (s : State) : (takeSeed s).2.lanes = s.lanes := by rw [takeSeed_only]

theorem laneOf_startLane_ne {p m n : Nat} (h : n ≠ m) (s : State) : laneOf (startLane p m s) n = laneOf s n := by
  rw [startLane, laneOf_congr (laneDomains_lanes _ _ _), laneOf_modLane_ne h, laneOf_congr (takeSeed_lanes s)]

theorem sparePair_off {s : State} {a b : Nat} (h : sparePair s = some (a, b)) : (laneOf s a).st = .off ∧ (laneOf s b).st = .off := by
  have hoff : ∀ m ∈ offLanes s, (laneOf s m).st = .off := fun m hm => by simpa using (List.mem_filter.mp hm).2
  unfold sparePair at h
  split at h
  · split at h
    · next hlist =>
      obtain ⟨rfl, rfl⟩ : _ = a ∧ _ = b := by simpa using h
      exact ⟨hoff _ (by simp [hlist]), hoff _ (by simp [hlist])⟩
    · cases h
  · cases h

theorem beginRebuild_failed {n : Nat} {s : State} (h : (laneOf s n).st = .failed) (p : Nat) :
    (laneOf (beginRebuild p s) n).st = .failed := by
  unfold beginRebuild
  dsimp only
  split
  · next a b hspare =>
    obtain ⟨ha, hb⟩ := sparePair_off hspare
    have hne : ∀ m, (laneOf s m).st = .off → n ≠ m := fun m hm he => by simp [he ▸ h] at hm
    rw [laneOf_startLane_ne (hne b hb), laneOf_startLane_ne (hne a ha)]
    exact h
  · exact h

theorem rebuildSlots_failed {n : Nat} {s : State} (h : (laneOf s n).st = .failed) : (laneOf (rebuildSlots s) n).st = .failed := by
  unfold rebuildSlots
  refine foldl_keeps (P := fun t => (laneOf t n).st = .failed) _ _ _ h fun t p ht => ?_
  dsimp only
  split
  · split
    · exact beginRebuild_failed ht p
    · split <;> exact ht
  · exact ht

/-- Settles O34: the drain's end withdraws the pair and tests its lanes, and the lanes that take the slot over are others: they
start for the slot, or are OFF. -/
theorem thriceSuspectLaneFails : Obligations.ThriceSuspectLaneFails := by
  intro p n s hserved _ _ hlen hn hin hlag hpair hdrain hfor hthrice
  have hfails : ∀ cause new,
      (laneOf (testLane (slotOf s p).l1 (testLane (slotOf s p).l0 (withdraw p cause new s))) n).st = .failed := fun cause new =>
    withdrawnPair_thriceSuspect (by rwa [hlen]) hpair hdrain (by simpa [thriceSuspect] using hthrice)
  have hsettled : ∀ {u : State}, (laneOf u n).st = .failed →
      ∃ t, (.next (settle s u) : Host.Outcome State Fault Refusal) = .next t ∧ (laneOf t n).st = .failed := fun {u} hu =>
    ⟨_, rfl, by rw [laneOf_settle, hu]⟩
  simp only [To, exec, execLaggardDrainEnd, hserved, hin, hlag, Bool.true_and, Bool.true_or, if_true]
  split
  · next a b rest hready =>
    have hne : ∀ m ∈ a :: b :: rest, n ≠ m := fun m hm he => by
      have hm' := (List.mem_filter.mp (List.mem_filter.mp (hready ▸ hm)).1).2
      simp [← he, hfor] at hm'
    exact hsettled (fillSlot_failed (hfails _ _) (hne a (by simp)) (hne b (by simp)) p)
  · split
    · exact hsettled (by rw [laneOf_modSlot]; exact hfails _ _)
    · split
      · exact hsettled (beginRebuild_failed (hfails _ _) p)
      · exact hsettled (rebuildSlots_failed (by rw [laneOf_modSlot]; exact hfails _ _))

end Sys2Proof.Redundancy
end

section
/-! The dispatch of a unit that was taken back from a withdrawn pair (chapter 7 of the spec). -/

namespace Sys2Proof.Redundancy

open Sys2Proof Sys2Proof.Machine

/-! Carried credit that is lost (R195). -/

/-- Of the balances of functions and queues, some are dropped, and none is charged or granted. -/
def CarryLost (s t : State) : Prop :=
  (∀ f, (fnOf t f).laneCredit = (fnOf s f).laneCredit ∨ (fnOf t f).laneCredit = 0)
    ∧ ∀ q, queueOf t q = queueOf s q ∨ queueOf t q = { queueOf s q with drr := 0 }

/-- Dropped balances, and counts of the performance monitors, are all that changes. -/
def CarryOnly (s t : State) : Prop := t = { s with fns := t.fns, queues := t.queues, pmon := t.pmon } ∧ CarryLost s t

theorem carryLost_of_eq {s t : State} (hf : t.fns = s.fns) (hq : t.queues = s.queues) : CarryLost s t :=
  ⟨fun f => .inl (by rw [fnOf, fnOf, hf]), fun q => .inl (by rw [queueOf, queueOf, hq])⟩

theorem CarryLost.trans {s t u : State} (h1 : CarryLost s t) (h2 : CarryLost t u) : CarryLost s u := by
  obtain ⟨hf1, hq1⟩ := h1
  obtain ⟨hf2, hq2⟩ := h2
  refine ⟨fun f => (hf2 f).elim (fun h => by rw [h]; exact hf1 f) .inr, fun q => ?_⟩
  rcases hq1 q with h1 | h1 <;> rcases hq2 q with h2 | h2 <;> simp [h1, h2]

theorem CarryOnly.trans {s t u : State} (h1 : CarryOnly s t) (h2 : CarryOnly t u) : CarryOnly s u := by
  obtain ⟨e1, l1⟩ := h1
  obtain ⟨e2, l2⟩ := h2
  exact ⟨by rw [e2, e1], l1.trans l2⟩

/-- Telling the host touches no balance. -/
theorem carryLost_of_notified {s t : State} (h : Notified s t) : CarryLost s t := by
  obtain ⟨htold, hflags⟩ := h
  refine ⟨fun f => .inl ?_, fun q => .inl (by rw [htold]; rfl)⟩
  have hcredit := congrArg Fn.laneCredit (fnOf_of_sansFlags hflags f)
  exact hcredit

theorem count_carryOnly (src fn n : Nat) (s : State) : CarryOnly s (count src fn n s) := ⟨rfl, carryLost_of_eq rfl rfl⟩

/-- A table whose values are changed in place is read through the change. -/
theorem tget_map {α β : Type} (g : Nat × α → β) (t : Tab α) (k : Nat) :
    tget (t.map fun e => (e.1, g e)) k = (tget t k).map fun v => g (k, v) := by
  induction t with
  | nil => rfl
  | cons e t ih =>
    obtain ⟨k', v⟩ := e
    simp only [List.map_cons, tget]
    split
    · next h => simp [h]
    · exact ih

theorem fnOf_dropCarry (el : List (Work × Nat)) (s : State) (f : Nat) :
    (fnOf (dropCarry el s) f).laneCredit = (fnOf s f).laneCredit ∨ (fnOf (dropCarry el s) f).laneCredit = 0 := by
  simp only [fnOf, dropCarry, List.getD_eq_getElem?_getD, List.getElem?_mapIdx]
  cases s.fns[f]? with
  | none => exact .inl rfl
  | some x =>
    simp only [Option.map_some, Option.getD_some]
    split
    · exact .inl rfl
    · exact .inr rfl

theorem queueOf_dropCarry (el : List (Work × Nat)) (s : State) (q : Nat) :
    queueOf (dropCarry el s) q = queueOf s q ∨ queueOf (dropCarry el s) q = { queueOf s q with drr := 0 } := by
  have hmap : (dropCarry el s).queues
      = s.queues.map fun e => (e.1, if el.any (fun x => x.1.qix == e.1) then e.2 else { e.2 with drr := 0 }) := by
    refine List.map_congr_left fun e _ => ?_
    split <;> rfl
  simp only [queueOf, tgetD, hmap, tget_map]
  cases tget s.queues q with
  | none => exact .inl rfl
  | some x =>
    simp only [Option.map_some, Option.getD_some]
    split
    · exact .inl rfl
    · exact .inr rfl

theorem dropCarry_carryOnly (el : List (Work × Nat)) (s : State) : CarryOnly s (dropCarry el s) :=
  ⟨rfl, fnOf_dropCarry el s, queueOf_dropCarry el s⟩

/-! What a dispatch looks at does not depend on the balances. -/

section
variable {s t : State} (h : CarryOnly s t)
include h

theorem CarryOnly.work : t.work = s.work := by rw [h.1]
theorem CarryOnly.slots : t.slots = s.slots := by rw [h.1]
theorem CarryOnly.cache : t.cache = s.cache := by rw [h.1]
theorem CarryOnly.jrn : t.jrn = s.jrn := by rw [h.1]
theorem CarryOnly.jfill : jfill t = jfill s := by rw [h.1]; rfl
theorem CarryOnly.bestSlot (c : Nat) : bestSlot t c = bestSlot s c := by rw [h.1]; rfl
theorem CarryOnly.quiet : quiet t = quiet s := quiet_congr h.work h.jrn h.jfill
theorem CarryOnly.ruleset (q : Nat) : (queueOf t q).ruleset = (queueOf s q).ruleset := by
  rcases h.2.2 q with e | e <;> rw [e]
theorem CarryOnly.skey (q : Nat) : (queueOf t q).skey = (queueOf s q).skey := by
  rcases h.2.2 q with e | e <;> rw [e]
theorem CarryOnly.jkey (q : Nat) : (queueOf t q).jkey = (queueOf s q).jkey := by
  rcases h.2.2 q with e | e <;> rw [e]

theorem CarryOnly.unitCost (w : Work) : unitCost t w = unitCost s w := by
  have hbody : ruleBody t = ruleBody s := by rw [h.1]; rfl
  have hsets : t.nv = s.nv := by rw [h.1]
  simp only [Machine.unitCost, h.ruleset, hbody, hsets]

theorem CarryOnly.handlesOf (w : Work) : handlesOf t w = handlesOf s w := by
  have hhandle : handleOf t = handleOf s := by rw [h.1]; rfl
  simp only [Machine.handlesOf, h.skey, h.jkey, hhandle]

theorem CarryOnly.hotRoom (hs : List Nat) : hotRoom t hs = hotRoom s hs := by
  have hparts : hotParts t = hotParts s := by rw [h.1]; rfl
  have hkeys : t.keys = s.keys := by rw [h.1]
  have hpinned : pinned t = pinned s := by
    funext e
    simp only [pinned, h.work, h.handlesOf]
  simp only [Machine.hotRoom, hparts, hkeys, hpinned]

end

/-! The unit that goes first (R196). -/

/-- The unit of two with the lower SEQ. -/
def lowerSeq (best : Option Work) (w : Work) : Option Work :=
  match best with
  | some b => if w.seq < b.seq then some w else best
  | none => some w

theorem firstTaken_eq_foldl (ws : List Work) :
    firstTaken ws = (ws.filter fun w => w.stage == .takenBack && !w.revoked).foldl lowerSeq none := rfl

theorem lowerSeq_eq_some {best : Option Work} {v b : Work} (h : lowerSeq best v = some b) : b = v ∨ best = some b := by
  unfold lowerSeq at h
  split at h
  · split at h
    · exact .inl (Option.some.inj h).symm
    · exact .inr h
  · exact .inl (Option.some.inj h).symm

theorem lowerSeq_of_lower {best : Option Work} {w : Work} (h : ∀ b, best = some b → b ≠ w → w.seq < b.seq) :
    lowerSeq best w = some w := by
  rcases best with - | b
  · rfl
  · rcases eq_or_ne b w with rfl | hne
    · simp [lowerSeq]
    · simp [lowerSeq, h b rfl hne]

theorem lowerSeq_of_not_lower {v w : Work} (h : v ≠ w → w.seq < v.seq) : lowerSeq (some w) v = some w := by
  rcases eq_or_ne v w with rfl | hne
  · simp [lowerSeq]
  · simp [lowerSeq, (h hne).le]

/-- The unit with the lowest SEQ of a list stays ahead of all that follow it. -/
theorem foldl_lowerSeq_ahead {w : Work} {ws : List Work} (h : ∀ v ∈ ws, v ≠ w → w.seq < v.seq) :
    ws.foldl lowerSeq (some w) = some w := by
  induction ws with
  | nil => rfl
  | cons v ws ih =>
    rw [List.foldl_cons, lowerSeq_of_not_lower (h v (by simp))]
    exact ih fun x hx => h x (by simp [hx])

/-- The unit with the lowest SEQ of a list comes out of it, whatever unit of a higher SEQ is ahead at first. -/
theorem foldl_lowerSeq {w : Work} {ws : List Work} (hw : w ∈ ws) (h : ∀ v ∈ ws, v ≠ w → w.seq < v.seq) (best : Option Work)
    (hb : ∀ b, best = some b → b ≠ w → w.seq < b.seq) : ws.foldl lowerSeq best = some w := by
  induction ws generalizing best with
  | nil => cases hw
  | cons v ws ih =>
    have hrest : ∀ x ∈ ws, x ≠ w → w.seq < x.seq := fun x hx => h x (by simp [hx])
    rw [List.foldl_cons]
    rcases eq_or_ne v w with rfl | hne
    · rw [lowerSeq_of_lower hb]
      exact foldl_lowerSeq_ahead hrest
    · refine ih ((List.mem_cons.mp hw).resolve_left hne.symm) hrest _ fun b hstep hbw => ?_
      rcases lowerSeq_eq_some hstep with rfl | hbest
      · exact h b (by simp) hbw
      · exact hb b hbest hbw

theorem firstTaken_of_lowest {w : Work} {ws : List Work} (hw : w ∈ ws) (hst : w.stage = .takenBack) (hr : w.revoked = false)
    (h : ∀ v ∈ ws, v.stage = .takenBack → v.revoked = false → v ≠ w → w.seq < v.seq) : firstTaken ws = some w := by
  rw [firstTaken_eq_foldl]
  refine foldl_lowerSeq (List.mem_filter.mpr ⟨hw, by simp [hst, hr]⟩) (fun v hv => ?_) none fun b hb => by cases hb
  obtain ⟨hmem, hpick⟩ := List.mem_filter.mp hv
  simp only [Bool.and_eq_true, beq_iff_eq, Bool.not_eq_true'] at hpick
  obtain ⟨htaken, hkept⟩ := hpick
  exact h v hmem htaken hkept

/-! The unit resumes (R192, R201). -/

/-- A unit needs no saved state, or has it in clear in its queue's context, which is in the context cache. -/
def Resumable (s : State) (w : Work) : Prop :=
  w.unit = 0 ∨ ((s.cache.getD (w.qix % 8) []).contains w.qix = true ∧ ∃ x, w.saved = some x ∧ x.wrapped = false)

theorem CarryOnly.resumable {s t : State} (h : CarryOnly s t) {w : Work} (hw : Resumable s w) : Resumable t w := by
  rwa [Resumable, h.cache]

/-- A resumable unit resumes as it stands. -/
theorem resume_ready {w : Work} {s : State} (hw : w ∈ s.work) (huniq : ∀ v ∈ s.work, v.seq = w.seq → v = w)
    (h : Resumable s w) : (resume w s).1 = w ∧ CarryOnly s (resume w s).2 := by
  by_cases h0 : w.unit = 0
  · rw [resume, if_pos h0]
    exact ⟨rfl, rfl, carryLost_of_eq rfl rfl⟩
  · obtain ⟨hcached, x, hsaved, hclear⟩ := h.resolve_left h0
    have hctx : findContext w.qix w.fn s = count 0x20 w.fn 1 s := by rw [findContext, if_pos hcached]
    have hfind : s.work.find? (fun v => v.seq == w.seq) = some w := by
      obtain ⟨v, hv⟩ : ∃ v, s.work.find? (fun v => v.seq == w.seq) = some v :=
        Option.isSome_iff_exists.mp (List.find?_isSome.mpr ⟨w, hw, by simp⟩)
      have hseq : v.seq = w.seq := by simpa using List.find?_some hv
      rw [hv, huniq v (List.mem_of_find?_eq_some hv) hseq]
    simp only [resume, if_neg h0, hctx, count_work, hfind, Option.getD_some, hsaved, hclear]
    exact ⟨by simp, count_carryOnly _ _ _ _⟩

/-! The unit is placed (R187, R189, R197). -/

/-- A unit as it stands in the lanes of slot `p`, under the slot's claim number. -/
def placed (w : Work) (p cost : Nat) (s : State) : Work :=
  { w with stage := .dispatched, slot := p, claim := (s.slots.getD p {}).claim, cost := cost, lag := 0 }

theorem placeHot_only (keep : HotSlot → Bool) (e : HotSlot) (s : State) :
    placeHot keep e s = { s with keys := (placeHot keep e s).keys } := by
  unfold placeHot
  split <;> rfl

theorem touchHot_only (keep : HotSlot → Bool) (k : Nat) (chain : List (Nat × Nat)) (parts : List (BitVec 256)) (s : State) :
    touchHot keep k chain parts s = { s with
      keys := (touchHot keep k chain parts s).keys, pmon := (touchHot keep k chain parts s).pmon } := by
  unfold touchHot
  dsimp only
  split
  · rfl
  · refine foldl_keeps (P := fun t => t = { s with keys := t.keys, pmon := t.pmon }) _ _ _ rfl fun t e ht => ?_
    rw [placeHot_only, ht]

theorem loadKeys_only (hs : List Nat) (sl : Slot) (s : State) :
    loadKeys hs sl s = { s with
      keys := (loadKeys hs sl s).keys, lanes := (loadKeys hs sl s).lanes, pmon := (loadKeys hs sl s).pmon } := by
  unfold loadKeys
  refine foldl_keeps (P := fun t => t = { s with keys := t.keys, lanes := t.lanes, pmon := t.pmon }) _ _ _ rfl fun t k ht => ?_
  refine foldl_keeps (P := fun u => u = { s with keys := u.keys, lanes := u.lanes, pmon := u.pmon }) _ _ _ ?_ fun u e hu => ?_
  · rw [touchHot_only, ht]
  · rw [hu]

theorem placeUnit_only (w : Work) (p cost : Nat) (s : State) :
    placeUnit w p cost s = { s with
      keys := (placeUnit w p cost s).keys, lanes := (placeUnit w p cost s).lanes, slots := (placeUnit w p cost s).slots
      work := (placeUnit w p cost s).work, pmon := (placeUnit w p cost s).pmon } := by
  unfold placeUnit
  dsimp only
  split
  · rw [loadKeys_only]
  · rfl

theorem placeUnit_work (w : Work) (p cost : Nat) (s : State) :
    (placeUnit w p cost s).work
      = modFirst (fun v => v.qix == w.qix && v.ent == w.ent && v.seq == w.seq) (fun _ => placed w p cost s) s.work := by
  unfold placeUnit
  dsimp only
  split
  · rw [loadKeys_only]
    rfl
  · rfl

/-- Where some entry is picked, the one put in its place is among the entries. -/
theorem mem_modFirst_const {pick : Work → Bool} {w x : Work} {ws : List Work} (hw : w ∈ ws) (hp : pick w = true) :
    x ∈ modFirst pick (fun _ => x) ws := by
  induction ws with
  | nil => cases hw
  | cons v ws ih =>
    rw [modFirst]
    split
    · simp
    · next hv =>
      have hne : w ≠ v := fun he => hv (he ▸ hp)
      exact List.mem_cons_of_mem _ (ih ((List.mem_cons.mp hw).resolve_left hne))

theorem placed_mem_placeUnit {w : Work} {s : State} (hw : w ∈ s.work) (p cost : Nat) :
    placed w p cost s ∈ (placeUnit w p cost s).work := by
  rw [placeUnit_work]
  exact mem_modFirst_const hw (by simp)

/-- A unit that goes into the lanes makes nothing due. -/
theorem quiet_placeUnit {s : State} (h : quiet s = true) (w : Work) (p cost : Nat) : quiet (placeUnit w p cost s) = true := by
  simp only [quiet, Bool.and_eq_true, List.all_eq_true] at h ⊢
  obtain ⟨hwork, hfill⟩ := h
  have hjrn : (placeUnit w p cost s).jrn = s.jrn := by rw [placeUnit_only]
  have hlevel : jfill (placeUnit w p cost s) = jfill s := by rw [placeUnit_only]; rfl
  rw [hjrn, hlevel]
  refine ⟨fun v hv => ?_, hfill⟩
  rw [placeUnit_work] at hv
  rcases Sealing.mem_modFirst hv with hv | ⟨-, -, rfl⟩
  · exact hwork v hv
  · rfl

/-! DISPATCH of a unit that was taken back. -/

/-- With a slot and hot slots free for the unit taken back that has the lowest SEQ, a dispatch places it as it stands, and balances are
dropped before and after it, none charged (R195, R196). -/
theorem dispatchOne_takenBack {w : Work} {p : Nat} {s : State} (hfirst : firstTaken s.work = some w)
    (huniq : ∀ v ∈ s.work, v.seq = w.seq → v = w) (hw : w ∈ s.work) (hslot : bestSlot s (unitCost s w) = some p)
    (hroom : hotRoom s (handlesOf s w) = true) (hready : Resumable s w) :
    ∃ u el, CarryOnly s u ∧ dispatchOne s = dropCarry el (placeUnit w p (unitCost s w) u) := by
  have hdrop := dropCarry_carryOnly (eligibleNow s) s
  generalize hu : dropCarry (eligibleNow s) s = u at hdrop
  obtain ⟨hres, hresume⟩ := resume_ready (s := u) (hdrop.work ▸ hw) (hdrop.work ▸ huniq) (hdrop.resumable hready)
  have hall := hdrop.trans hresume
  have hdue : dispatchDue u = placeUnit w p (unitCost s w) (resume w u).2 := by
    have hfree : roomFor u (w, unitCost u w) = true := by
      simp [roomFor, hdrop.unitCost, hdrop.bestSlot, hdrop.handlesOf, hdrop.hotRoom, hslot, hroom]
    simp only [dispatchDue, hdrop.work, hfirst, hfree, if_true, placeAgain, hres, hall.unitCost, hall.bestSlot, hslot]
  exact ⟨(resume w u).2, _, hall, by rw [dispatchOne, hu, hdue]⟩

/-- Settles O25: the unit with the lowest SEQ is the one that is placed, and only dropped balances and the telling of the host come with
it. -/
theorem takenBackUnitsGoFirst : Obligations.TakenBackUnitsGoFirst := by
  intro w p s hon hquiet hw hst hr hlowest huniq hslot hroom hready
  obtain ⟨u, el, hu, hone⟩ := dispatchOne_takenBack (firstTaken_of_lowest hw hst hr hlowest) huniq hw hslot hroom hready
  have hmem := placed_mem_placeUnit (hu.work.symm ▸ hw) p (unitCost s w)
  have hdue := quiet_placeUnit (hu.quiet.trans hquiet) w p (unitCost s w)
  have hplace := placeUnit_only w p (unitCost s w) u
  generalize placeUnit w p (unitCost s w) u = v at hone hmem hdue hplace
  have hend := hone ▸ dropCarry_carryOnly el v
  have htold := settle_quiet s (hend.quiet.trans hdue)
  obtain ⟨hcredit, hqueue⟩ : CarryLost s (settle s (dispatchOne s)) :=
    ((hu.2.trans (carryLost_of_eq (by rw [hplace]) (by rw [hplace]))).trans hend.2).trans (carryLost_of_notified htold)
  refine ⟨settle s (dispatchOne s), by rw [exec, execDispatch, if_pos hon],
    ⟨placed w p (unitCost s w) u, ?_, rfl, rfl, rfl, rfl, rfl, rfl, rfl, ?_⟩, hcredit, fun q => ?_, fun q => ?_, ?_⟩
  · rwa [htold.1, hend.1]
  · rw [placed, hu.slots]
  · rcases hqueue q with h | h <;> simp [h]
  · rcases hqueue q with h | h <;> rw [h]
  · rw [htold.1, hend.1, hplace, hu.1]
    exact ⟨rfl, rfl, rfl⟩

end Sys2Proof.Redundancy
end

section
/-! What a completion says of the durability of its record (chapter 9 of the spec). -/

namespace Sys2Proof.Durability

open Sys2Proof Sys2Proof.Machine

/-- Failing statuses are reported as R149 lists them, whatever is DURABLE (R265). -/
theorem finalStatus_of_failing {w : Work} (j : Journal) (h : w.status ≠ stOk) : finalStatus j w = w.status :=
  if_neg fun hbuf => h hbuf.1

theorem finalStatus_of_durable {j : Journal} {w : Work} (h : durableSeq j w.seq = true) : finalStatus j w = w.status :=
  if_neg fun ⟨_, _, hnot⟩ => by simp [h] at hnot

/-- A SEQ other than 0 stands for an operation that was given to a pair slot (R265). -/
theorem finalStatus_of_not_durable {j : Journal} {w : Work} (hok : w.status = stOk) (hseq : w.seq ≠ 0)
    (h : durableSeq j w.seq = false) : finalStatus j w = stOkBuffered :=
  if_pos ⟨hok, hseq, by simp [h]⟩

/-- Settles O32, by the three cases of R265: a DURABLE record, one that is not DURABLE, and a failing status. -/
theorem completionTellsDurability : Obligations.CompletionTellsDurability := by
  intro j w hseq
  refine ⟨fun hok hdur => ?_, fun hok hnot => ?_, fun hfail => ?_⟩
  · exact (finalStatus_of_durable hdur).trans hok
  · exact finalStatus_of_not_durable hok hseq hnot
  · exact finalStatus_of_failing j hfail

end Sys2Proof.Durability
end

section
/-! The step of the block: what it runs, the second that passes on an empty queue, and the state right after reset. -/

namespace Sys2Proof.Steps

open Sys2Proof Sys2Proof.Machine

/-- Settles O1: a step is defined so. -/
theorem stepRunsFrontCommand : Obligations.StepRunsFrontCommand := fun _ _ _ => rfl

/-- The bleed never raises VHOLD (R56). -/
theorem bledVhold_le (p : Power) (n : Nat) : bledVhold p n ≤ p.vhold := by
  unfold bledVhold
  split
  · exact min_le_left _ _
  · exact Nat.le_of_lt_succ (Nat.mod_lt _ (Nat.succ_pos _))

/-- From the second second of the bleed on, VHOLD is below 1.0 V (R56). -/
theorem bledVhold_lt {p : Power} (h : 1 ≤ p.bled) (n : Nat) : bledVhold p n < 1000 := by
  rw [bledVhold, if_pos h]
  exact lt_of_le_of_lt (min_le_right _ _) (Nat.mod_lt _ (by decide))

theorem step_empty {s : State} (h : s.pending = []) : step s = .next (tick s) := by
  simp only [step, h]

theorem tick_of_off {s : State} (h : s.pwr.phase = .off) : tick s = offSecond s := by
  simp only [tick, h]

theorem tick_of_powered {s : State} (h : s.pwr.phase ≠ .off) :
    tick s = { dipEnds s with
      opsec := ((dipEnds s).opsec + 1) % 2 ^ 40
      pmon := ((dipEnds s).pmon.count 0x01 0 1200000000).count 0x02 0 600000000
      ev := { (dipEnds s).ev with tokens := refill (dipEnds s).diag.rate (dipEnds s).ev.tokens } } := by
  unfold tick
  split
  · contradiction
  · rfl

/-- The end of a dip touches VHOLD alone (R51). -/
theorem dipEnds_only (s : State) :
    dipEnds s = { s with pwr := { s.pwr with bridging := false, vhold := (dipEnds s).pwr.vhold }, free := (dipEnds s).free } := by
  unfold dipEnds
  cases h : s.pwr.bridging with
  | true => rfl
  | false =>
    simp only [Bool.false_eq_true, if_false]
    rw [← h]

theorem dipEnds_of_no_dip {s : State} (h : s.pwr.bridging = false) : dipEnds s = s := by simp [dipEnds, h]

/-- Settles O2, by whether the device has power. -/
theorem emptyQueuePassesOneSecond : Obligations.EmptyQueuePassesOneSecond := by
  intro s hempty
  rw [step_empty hempty]
  refine ⟨fun hoff => ?_, fun hon => ?_⟩
  · rw [tick_of_off hoff]
    exact ⟨_, bledVhold_le s.pwr s.free, fun h => bledVhold_lt h s.free, rfl⟩
  · rw [tick_of_powered hon]
    refine ⟨_, rfl, ?_, fun h => by rw [dipEnds_of_no_dip h], ?_⟩
    · exact congrArg State.pwr (dipEnds_only s)
    · rw [dipEnds_only s]

/-- Settles O6: the tables are written out, and the rest is read off them. -/
theorem resetIsRaw : Obligations.ResetIsRaw := by
  refine ⟨rfl, rfl, rfl, ?_, ?_, rfl, fun b hb => ?_⟩
  · intro w hw
    simp only [List.mem_cons, List.not_mem_nil, or_false] at hw
    rcases hw with rfl | rfl | rfl | rfl | rfl | rfl | rfl | rfl | rfl | rfl | rfl <;> rfl
  · intro i hi
    interval_cases i <;> rfl
  · have hword : tgetD State.reset.otp 17 0 = (Config.unitId >>> 64).setWidth 64 := rfl
    rw [otpBit, hword, BitVec.getLsbD_setWidth, BitVec.getLsbD_ushiftRight]
    simp only [hb, decide_true, Bool.true_and]

end Sys2Proof.Steps
end

section
/-! What a step leaves of the OTP: only ever more burnt bits (chapter 12 of the spec). Every meaning answers a next state, so that no
step stops the block. -/

namespace Sys2Proof.Burns

open Sys2Proof Sys2Proof.Machine

/-- The meaning answers a next state, with every burnt bit of `s` still burnt. -/
def OnlyBurns (s : State) (o : Host.Outcome State Fault Refusal) : Prop := ∃ t, o = .next t ∧ Grows s.otp t.otp

theorem onlyBurns_next {s t : State} (h : Grows s.otp t.otp) : OnlyBurns s (.next t) := ⟨t, rfl, h⟩

theorem onlyBurns_of_eq {s t : State} (h : t.otp = s.otp) : OnlyBurns s (.next t) := ⟨t, rfl, h ▸ Grows.refl _⟩

theorem grows_of_eq {s t : State} (h : t.otp = s.otp) : Grows s.otp t.otp := h ▸ Grows.refl _

theorem grows_ite {a : Tab (BitVec 64)} {p : Prop} [Decidable p] {s t : State} (hs : Grows a s.otp) (ht : Grows a t.otp) :
    Grows a (if p then s else t).otp := by
  split <;> assumption

/-! Mailbox commands. -/

theorem runCommand_grows {op : Nat} {r : Req} {need : Option Nat} {run : State → Reply} (h : ∀ s, Grows s.otp (run s).after.otp)
    (s : State) : Grows s.otp (runCommand op r need run s).otp := by
  have hrun := h s
  unfold runCommand
  split
  · exact grows_of_eq (respond_otp ..)
  · split <;> rename_i hreply <;> rw [hreply] at hrun
    · simpa using hrun
    · simpa using hrun

theorem command_grows {i : Instr} {op : Nat} {r : Req} {need : Option Nat} {run : State → Reply}
    (h : ∀ s, Grows s.otp (run s).after.otp) (s : State) : Grows s.otp (command i op r need run s).otp := by
  unfold command
  split
  · exact Grows.refl _
  · split
    · exact grows_of_eq (by simp)
    · split
      · exact Grows.refl _
      · split
        · exact Grows.refl _
        · simpa using runCommand_grows h s

theorem onlyBurns_command {i : Instr} {op : Nat} {r : Req} {need : Option Nat} {run : State → Reply}
    (h : ∀ s, Grows s.otp (run s).after.otp) (s : State) : OnlyBurns s (.next (command i op r need run s)) :=
  onlyBurns_next (command_grows h s)

/-- A command whose own steps burn nothing. -/
theorem onlyBurns_command_of_eq {i : Instr} {op : Nat} {r : Req} {need : Option Nat} {run : State → Reply}
    (h : ∀ s, (run s).after.otp = s.otp) (s : State) : OnlyBurns s (.next (command i op r need run s)) :=
  onlyBurns_of_eq (command_otp i op r need run s h)

theorem execDevStandby_burns (r : Req) (s : State) : OnlyBurns s (execDevStandby r s) :=
  onlyBurns_of_eq (by rw [sleepIfDue_otp, command_otp _ _ _ _ _ _ fun _ => rfl])

theorem execMailboxUnknownOpcode_burns (r : Req) (op : BitVec 16) (s : State) : OnlyBurns s (execMailboxUnknownOpcode r op s) := by
  unfold execMailboxUnknownOpcode
  split
  · exact onlyBurns_of_eq rfl
  · exact onlyBurns_command_of_eq (fun _ => rfl) s

/-- Of the commands of the mailbox, LC_TRANSITION and LC_FLAG_BURN burn OTP bits; the others none (R357). -/
theorem exec_burns_of_reqOf {i : Instr} {r : Req} (h : reqOf i = some r) (s : State) : OnlyBurns s (exec i s) := by
  cases i <;> simp only [reqOf, reduceCtorEq] at h
  case lcTransition => exact onlyBurns_command (fun _ => lcTransitionRun_grows _ _ (Grows.refl _)) s
  case lcFlagBurn =>
    exact onlyBurns_command (fun _ => chunkRun_grows (fun _ _ => flagFinal_grows _ _ (Grows.refl _)) (Grows.refl _)) s
  case devStandby => exact execDevStandby_burns _ s
  case mailboxUnknownOpcode => exact execMailboxUnknownOpcode_burns _ _ s
  all_goals exact onlyBurns_command_of_eq (by simp) s

/-- A request that comes as bytes, or that was held, is one of the commands of the mailbox. -/
theorem serve_eq {i : Instr} {r : Req} (h : reqOf i = some r) (s : State) : serve i s = stateOf s (exec i s) := by
  cases i <;> simp only [reqOf, reduceCtorEq] at h <;> rfl

theorem serve_of_no_request {i : Instr} (h : reqOf i = none) (s : State) : serve i s = s := by
  cases i <;> simp only [reqOf, reduceCtorEq] at h <;> rfl

theorem serve_grows (i : Instr) (s : State) : Grows s.otp (serve i s).otp := by
  cases h : reqOf i with
  | none => rw [serve_of_no_request h]; exact Grows.refl _
  | some r =>
    obtain ⟨t, ht, hg⟩ := exec_burns_of_reqOf h s
    rw [serve_eq h, ht]
    exact hg

theorem takeUp_grows (i : Instr) (s : State) : Grows s.otp (takeUp i s).otp := by
  unfold takeUp
  split
  · exact (grows_of_eq (modMbx_otp ..)).trans (serve_grows _ _)
  · exact Grows.refl _

theorem serveHeld_grows {a : Tab (BitVec 64)} {s : State} (h : Grows a s.otp) : Grows a (serveHeld s).otp :=
  foldl_grows a _ _ _ (fun _ _ => takeUp_grows _ _) h

theorem runRequest_grows (p : Path) (fn mbx : Nat) (b : Bytes) {a : Tab (BitVec 64)} {s : State} (h : Grows a s.otp) :
    Grows a (runRequest p fn mbx b s).otp := by
  unfold runRequest
  dsimp only
  exact h.trans (serve_grows _ { s with free := s.free + 4 + 3 })

/-! Register writes: GO runs a request (R121). -/

theorem writeMbxCtrl_grows (f n : Nat) (v : BitVec 32) (s : State) : Grows s.otp (writeMbxCtrl f n v s).otp := by
  unfold writeMbxCtrl
  dsimp only
  split
  · split
    · exact Grows.refl _
    · exact runRequest_grows _ _ _ _ (Grows.refl _)
  · exact Grows.refl _

theorem write32_grows (f off : Nat) (v : BitVec 32) (s : State) : Grows s.otp (write32 f off v s).otp := by
  have hsame : Grows s.otp s.otp := Grows.refl _
  unfold write32
  exact grows_ite (grows_of_eq (clearDevEvent_otp ..)) <| grows_ite (grows_of_eq (setIrqEn_otp ..)) <|
    grows_ite (grows_ite (writeMbxCtrl_grows ..) hsame) <| grows_ite (grows_of_eq (setCto_otp ..)) <|
    grows_ite (grows_of_eq (writeMsix_otp ..)) <| grows_ite (grows_of_eq (setCoal_otp ..)) hsame

theorem writeBar0_grows (f off size : Nat) (v : BitVec 64) (s : State) : Grows s.otp (writeBar0 f off size v s).otp := by
  have haer : Grows s.otp (aer f .unsupportedRequest s).otp := grows_of_eq (aer_otp ..)
  unfold writeBar0
  exact grows_ite (Grows.refl _) <| grows_ite (grows_ite (grows_of_eq (writeBuf_otp ..)) haer) <|
    grows_ite (write32_grows ..) <| grows_ite ((write32_grows ..).trans (write32_grows ..)) haer

theorem hostRegWrite_grows (fn : Nat) (space : Space) (off size : Nat) (v : BitVec 64) (s : State) :
    Grows s.otp (hostRegWrite fn space off size v s).otp := by
  cases space with
  | bar0 => exact writeBar0_grows _ _ _ _ _
  | bar2 => exact grows_of_eq (bar2Write_otp ..)
  | bar4 => exact grows_of_eq (writeBar4_otp ..)
  | config => exact grows_of_eq (configWrite_otp ..)

theorem hostRegRead_otp (fn : Nat) (space : Space) (off size : Nat) (s : State) : (hostRegRead fn space off size s).otp = s.otp := by
  cases space <;> simp [hostRegRead]

/-! Starts, and requests that waited. -/

theorem execStart_burns (f : StartFacts) (s : State) : OnlyBurns s (execStart f s) := by
  unfold execStart
  split
  · split
    · exact onlyBurns_next (Grows.refl _)
    · exact onlyBurns_next (by simpa using startSteps_grows f s (Grows.refl _))
  · exact onlyBurns_next (Grows.refl _)

theorem execScrapStart_burns (cap : CapReading) (s : State) : OnlyBurns s (execScrapStart cap s) := by
  unfold execScrapStart
  split
  · split
    · exact onlyBurns_next (by simpa using scrapSteps_grows cap s (Grows.refl _))
    · exact onlyBurns_next (Grows.refl _)
  · exact onlyBurns_next (Grows.refl _)

theorem execMailboxReady_burns (s : State) : OnlyBurns s (execMailboxReady s) := by
  unfold execMailboxReady
  split
  · exact onlyBurns_next (serveHeld_grows (grows_of_eq (by simp)))
  · exact onlyBurns_next (Grows.refl _)

theorem execServiceComplete_burns (s : State) : OnlyBurns s (execServiceComplete s) := by
  unfold execServiceComplete
  split
  · exact onlyBurns_next (serveHeld_grows (grows_of_eq (by simp)))
  · exact onlyBurns_next (Grows.refl _)

theorem execStandbyExit_burns (s : State) : OnlyBurns s (execStandbyExit s) := by
  unfold execStandbyExit
  split
  · exact onlyBurns_next (serveHeld_grows (grows_of_eq (by simp)))
  · exact onlyBurns_next (Grows.refl _)

/-! Requests that come as bytes. -/

theorem execRegisterWrite_burns (fn : Nat) (space : Space) (off size : Nat) (v : RegValue) (s : State) :
    OnlyBurns s (execRegisterWrite fn space off size v s) := by
  unfold execRegisterWrite
  split
  · split
    · exact onlyBurns_next (by simpa using hostRegWrite_grows ..)
    · exact onlyBurns_of_eq (by rw [settle_otp, hostRegRead_otp])
  · exact onlyBurns_next (Grows.refl _)

theorem execUsbSubmit_burns (f : Bytes) (s : State) : OnlyBurns s (execUsbSubmit f s) := by
  unfold execUsbSubmit
  split_ifs
  · exact onlyBurns_next (Grows.refl _)
  · exact onlyBurns_next (runRequest_grows _ _ _ _ (Grows.refl _))
  · exact onlyBurns_next (Grows.refl _)
  · exact onlyBurns_of_eq (by simp)

theorem execWrMbx_burns (arg : BitVec 32) (d : Bytes) (crc : BitVec 32) (ok : Bool) (s : State) :
    OnlyBurns s (execWrMbx arg d crc ok s) := by
  unfold execWrMbx
  dsimp only
  split_ifs
  · exact onlyBurns_next (Grows.refl _)
  · exact onlyBurns_of_eq (spiDrop_otp s)
  all_goals
    refine onlyBurns_next ?_
    rw [sleepIfDue_otp]
    exact runRequest_grows _ _ _ _ (grows_of_eq (by simp))

/-! Attacks: a response of class T4 burns the TAMPERED group (R382). -/

theorem execTamperInput_burns (t : TamperIn) (w : Bool) (s : State) : OnlyBurns s (execTamperInput t w s) := by
  unfold execTamperInput
  split
  · exact onlyBurns_next (by simpa using takeInput_grows t w s (Grows.refl _))
  · split
    · exact onlyBurns_next (inFlush_grows _ _ _ _ _ (Grows.refl _))
    · exact onlyBurns_next (inFlush_grows _ _ _ _ _ (Grows.refl _))
    · exact onlyBurns_next (Grows.refl _)

theorem execLoopResistanceMeasure_burns (a b : Nat) (s : State) : OnlyBurns s (execLoopResistanceMeasure a b s) :=
  onlyBurns_next (by simpa using loopReading_grows _ _ _ (loopReading_grows _ _ _ (Grows.refl _)))

theorem execFailover_burns (p : Nat) (c : FailCause) (s : State) : OnlyBurns s (execFailover p c s) := by
  unfold execFailover
  split
  · exact onlyBurns_next (by simpa using raiseInput_grows _ _ _ _ (fun _ => grows_of_eq (failover_otp ..)) (Grows.refl _))
  · exact onlyBurns_next (Grows.refl _)

/-- The counting inputs of a noise bank, after whatever burns nothing. -/
theorem bankInput_burns (b : Nat) {s t : State} (h : t.otp = s.otp) : Grows s.otp (bankInput b t).otp :=
  bankInput_grows _ _ (grows_of_eq h)

theorem execNbStartupTestDone_burns (b : Nat) (pass : Bool) (streams : BitVec 32) (prop : Bool) (s : State) :
    OnlyBurns s (execNbStartupTestDone b pass streams prop s) := by
  unfold execNbStartupTestDone
  have hin : Grows s.otp (bankInput b (healthFails b streams prop s)).otp := bankInput_burns b (by simp)
  dsimp only
  split_ifs
  · exact onlyBurns_of_eq (by simp)
  · exact onlyBurns_next (by simpa using hin)
  · exact onlyBurns_next (by simpa using hin)
  · exact onlyBurns_next (Grows.refl _)

theorem execNbHealthFail_burns (b stream : Nat) (prop : Bool) (s : State) : OnlyBurns s (execNbHealthFail b stream prop s) := by
  unfold execNbHealthFail
  have hin : Grows s.otp (bankInput b (healthFails b (1#32 <<< stream) prop s)).otp := bankInput_burns b (by simp)
  split
  · exact onlyBurns_next (by simpa using hin)
  · exact onlyBurns_next (by simpa using hin)
  · exact onlyBurns_next (by simpa using hin)
  · exact onlyBurns_next (Grows.refl _)

theorem execNbCalibrationDone_burns (b bound : Nat) (s : State) : OnlyBurns s (execNbCalibrationDone b bound s) := by
  unfold execNbCalibrationDone
  dsimp only
  split_ifs
  · exact onlyBurns_of_eq (by simp)
  · exact onlyBurns_next (by simpa using bankInput_burns b (modBank_otp ..))
  · exact onlyBurns_next (Grows.refl _)

/-- An input of the DRAM line, after whatever burns nothing. -/
theorem raiseInput_burns (x : Sensor) (u : CUnit) {s t : State} (h : Grows s.otp t.otp) : Grows s.otp (raiseInput id x u t).otp :=
  raiseInput_grows id x u t (fun _ => Grows.refl _) h

theorem execDramUncorrectable_burns (line : Nat) (reader : LineReader) (s : State) :
    OnlyBurns s (execDramUncorrectable line reader s) := by
  unfold execDramUncorrectable
  dsimp only
  split_ifs
  all_goals refine onlyBurns_next ?_
  · simpa using raiseInput_burns _ _ (grows_of_eq (by simp))
  · simpa using raiseInput_burns _ _ (grows_of_eq (by simp))
  · exact Grows.refl _

theorem execScrubPeriod_burns (n : Nat) (s : State) : OnlyBurns s (execScrubPeriod n s) := by
  unfold execScrubPeriod
  dsimp only
  split_ifs
  all_goals refine onlyBurns_next ?_
  · rw [settle_otp]
    exact foldl_grows _ _ _ _ (fun _ _ => raiseInput_burns _ _ (grows_of_eq (by simp))) (Grows.refl _)
  · exact Grows.refl _

/-! The meter port, whose gate faults are counting inputs (R395). -/

theorem readCycle_burns {f : State → State} (h : ∀ s, (f s).otp = s.otp) (word : Nat) (s : State) :
    OnlyBurns s (.next (readCycle word f s)) :=
  onlyBurns_next (readCycle_grows _ _ _ (fun t => grows_of_eq (h t)) (Grows.refl _))

theorem writeCycle_burns {f : State → State} (h : ∀ s, (f s).otp = s.otp) (word : Nat) (s : State) :
    OnlyBurns s (.next (writeCycle word f s)) :=
  onlyBurns_next (writeCycle_grows _ _ _ (fun t => grows_of_eq (h t)) (Grows.refl _))

theorem dguAccess_burns (p : DgParty) (off : Nat) (f : Dgu → Dgu) (s : State) : OnlyBurns s (.next (dguAccess p off f s)) :=
  onlyBurns_next (dguAccess_grows _ _ _ _ (Grows.refl _))

theorem execMeterPortRead_burns (a : BitVec 20) (ok : Bool) (s : State) : OnlyBurns s (execMeterPortRead a ok s) := by
  unfold execMeterPortRead
  split_ifs
  · exact readCycle_burns (portRead_otp _) _ _
  · exact onlyBurns_of_eq (by simp)
  · exact onlyBurns_next (Grows.refl _)

theorem execMeterPortWrite_burns (a : BitVec 20) (d : BitVec 16) (be : BitVec 2) (we rise : Nat) (s : State) :
    OnlyBurns s (execMeterPortWrite a d be we rise s) := by
  unfold execMeterPortWrite
  split
  · exact writeCycle_burns (portWrite_otp _ _ _) _ _
  · exact onlyBurns_next (Grows.refl _)

theorem execMeterIncrement_burns (c : Nat) (v : BitVec 16) (be : BitVec 2) (s : State) : OnlyBurns s (execMeterIncrement c v be s) := by
  unfold execMeterIncrement
  split
  · exact writeCycle_burns (increment_otp _ _ _) _ _
  · exact onlyBurns_next (Grows.refl _)

theorem execCounterWindowRead_burns (c : Nat) (s : State) : OnlyBurns s (execCounterWindowRead c s) := by
  unfold execCounterWindowRead
  split
  · exact readCycle_burns (windowRead_otp _ _) _ _
  · exact onlyBurns_next (Grows.refl _)

theorem execDgData_burns (p : DgParty) (b : Bytes) (busy : Bool) (s : State) : OnlyBurns s (execDgData p b busy s) := by
  unfold execDgData
  split
  · exact dguAccess_burns ..
  · exact onlyBurns_next (Grows.refl _)

/-! The step. -/

/-- Every meaning answers a next state and burns at most. The cases not named keep the OTP as it was, and their operations' lemmas say so.
-/
theorem exec_burns (i : Instr) (s : State) : OnlyBurns s (exec i s) := by
  cases i
  case start => exact execStart_burns ..
  case scrapStart => exact execScrapStart_burns ..
  case mailboxReady => exact execMailboxReady_burns ..
  case serviceComplete => exact execServiceComplete_burns ..
  case standbyExit => exact execStandbyExit_burns ..
  case registerWrite => exact execRegisterWrite_burns ..
  case usbSubmit => exact execUsbSubmit_burns ..
  case wrMbx => exact execWrMbx_burns ..
  case tamperInput => exact execTamperInput_burns ..
  case loopResistanceMeasure => exact execLoopResistanceMeasure_burns ..
  case failover => exact execFailover_burns ..
  case nbStartupTestDone => exact execNbStartupTestDone_burns ..
  case nbHealthFail => exact execNbHealthFail_burns ..
  case nbCalibrationDone => exact execNbCalibrationDone_burns ..
  case dramUncorrectable => exact execDramUncorrectable_burns ..
  case scrubPeriod => exact execScrubPeriod_burns ..
  case meterPortRead => exact execMeterPortRead_burns ..
  case meterPortWrite => exact execMeterPortWrite_burns ..
  case meterIncrement => exact execMeterIncrement_burns ..
  case counterWindowRead => exact execCounterWindowRead_burns ..
  case groupOpen => exact writeCycle_burns (by exact fun _ => rfl) _ s
  case groupCommit => exact writeCycle_burns (by exact fun _ => rfl) _ s
  case groupAbort => exact writeCycle_burns (by exact fun _ => rfl) _ s
  case tvVerdict => exact readCycle_burns (tvRead_otp _) _ _
  case dgStart => exact dguAccess_burns ..
  case dgFinish => exact dguAccess_burns ..
  case dgData => exact execDgData_burns ..
  case dgOwn => exact dguAccess_burns ..
  case dgLowWordRead => exact readCycle_burns (dguPortRead_otp _) _ _
  case dbgTrace => exact onlyBurns_of_eq (withRight_otp _ _ _ _ fun _ => rfl)
  case dbgOtp => exact onlyBurns_of_eq (withRight_otp _ _ _ _ fun _ => rfl)
  all_goals first | exact exec_burns_of_reqOf rfl s | simp only [exec,
    execPowerGood, execFeedLoss, execFeedReturn, execHoldUpBridge, execPowerFailure, execFlushComplete, execReset,
    execResetRelease, execIoBankLoss, execIoBankReturn, execVbatLoss, execCapacitorMeasurement, execVholdLowTimeout,
    execPkeIdleOff, execUsbAttach, execUsbDetach, execHostPathClaim, execUsbBusReset, execLinkLane, execLinkLoss,
    execVfEnable, execVfFlr, execPf0Flr, execBusMasterDisable, execD3hot, execCompletionTimeout, execDoorbell,
    execLinkCtrl, execCoal, execCoalesceTimeout, execVectorUnmask, execFetch, execSourceArrived, execDispatch,
    execNop, execAccept, execSealMsg, execOpenMsg, execXtsEnc, execXtsDec, execOutcome, execVerifyReceipt,
    execUnitRelease, execQueueStop, execNonceExhausted, execQueueDrained, execLaneStartTestDone, execLaneFullTestDone,
    execLaggard, execLaggardDrainEnd, execLaneTestPeriodic, execMaskReseed, execLeafInOrder, execBatchTimeout,
    execPageTimeout, execPageSealed, execJournalCheckpoint, execSeqMarkRaise, execSeqReservePoint,
    execOpsecCheckpoint, execMeterWriteBehind, execCounterBackWrite, execReservationMarkRaise, execCalPeriodic,
    execCalTemperature, execNbRestart, execDrawDefineTimeout, execDrawCloseDrained, execDrawCertSigned,
    execRulesetDrainEnd, execGateSyncRetired, execKeyImportTimeout, execChallengeExpiry, execDbgRightsExpiry,
    execLcReset, execT4Reset, execUnpoweredTamperLatch, execUnitFailed, execMramRefresh, execEventBufferWrite,
    execEvtSuppressed, execDgOwnerTimeout, execPmonFreeze, execPmonClear, execPmonCntRead, execRdStatus, execRdMbx,
    execSpiSubmit, execRdCompl, execSpiUnknownCommand, execTapReset, execExtest, execIdcode, execSamplePreload,
    execDbgStatus, execDbgLoad, execDbgMem, execDbgCore, execDbgScan, execBypass,
    execLinkReturn, execD3hotExit, execBusMasterEnable, execVbatRecovery, execPkeTestDone, execReceivedTlpError,
    execUsbBulkIn, execPdMessage, execCommandWaitTimeout]
  all_goals (repeat' split) <;> exact onlyBurns_of_eq (by simp)

/-- Settles O3: the meaning of each command answers a next state, and so does the passing of a second. -/
theorem everyStepGoesOn : Obligations.EveryStepGoesOn := by
  intro s
  unfold Goes step
  split
  · exact ⟨_, rfl⟩
  · obtain ⟨t, ht, _⟩ := exec_burns _ _
    exact ⟨t, ht⟩

theorem step_grows {s t : State} (h : step s = .next t) : Grows s.otp t.otp := by
  unfold step at h
  split at h
  · cases h
    exact grows_of_eq (tick_otp s)
  · obtain ⟨t', ht, hg⟩ := exec_burns _ _
    rw [ht] at h
    cases h
    exact hg

/-- Settles O4: every command burns at most, and so does the passing of a second. -/
theorem burntBitsStayBurnt : Obligations.BurntBitsStayBurnt :=
  fun w i hw _ _ hbit hstep => (step_grows hstep).get w i hw hbit

end Sys2Proof.Burns
end

section
/-! What a command leaves when it ends in telling the host: the shape of most statements. -/

namespace Sys2Proof.Told

open Sys2Proof Sys2Proof.Machine

theorem to_of_eq {i : Instr} {s t : State} {P : State → Prop} (h : exec i s = .next t) (hP : P t) : To i s P := ⟨t, h, hP⟩

/-- A command that ends in telling the host, with nothing due, leaves what its own effect left, but for the telling. -/
theorem to_of_settle {i : Instr} {s u : State} {P : State → Prop} (h : exec i s = .next (settle s u)) (hq : quiet u = true)
    (hP : ∀ t, Notified u t → P t) : To i s P :=
  ⟨settle s u, h, hP _ (settle_quiet s hq)⟩

/-- Nothing due in `s` is nothing due in a state with the same work, journal and MRAM. -/
theorem quiet_of_same {s t : State} (h : quiet s = true) (hw : t.work = s.work) (hj : t.jrn = s.jrn) (hn : t.nv = s.nv) :
    quiet t = true :=
  (quiet_congr hw hj (by rw [jfill, jfill, ringUsed, ringUsed, hn])).trans h

@[simp] theorem quiet_eventX (code arg : Nat) (ext : Bytes) (s : State) : quiet (eventX code arg ext s) = quiet s :=
  quiet_congr (eventX_work ..) (eventX_jrn ..) (by rw [jfill, jfill, ringUsed, ringUsed, eventX_nv])

@[simp] theorem quiet_event (code arg : Nat) (s : State) : quiet (event code arg s) = quiet s := quiet_eventX code arg [] s

/-- An event is a record, and a count of the performance monitor (R412, R421). -/
theorem eventX_notified (code arg : Nat) (ext : Bytes) (s : State) :
    Notified { s with ev := (eventX code arg ext s).ev } (eventX code arg ext s) := by
  unfold eventX
  split <;> exact ⟨rfl, rfl⟩

theorem event_notified (code arg : Nat) (s : State) : Notified { s with ev := (event code arg s).ev } (event code arg s) :=
  eventX_notified code arg [] s

/-- What a record holds is read off the phase, the events so far and their rate, and the two clocks (R411, R412). -/
theorem eventX_ev_congr {s t : State} (hphase : t.pwr.phase = s.pwr.phase) (hev : t.ev = s.ev) (hdiag : t.diag = s.diag)
    (hopsec : t.opsec = s.opsec) (hcyc : t.pwrCyc = s.pwrCyc) (code arg : Nat) (ext : Bytes) :
    (eventX code arg ext t).ev = (eventX code arg ext s).ev := by
  simp only [eventX, mkEvt, hphase, hev, hdiag, hopsec, hcyc]
  split <;> simp_all

/-- Telling the host counts on the performance monitor, and no more. -/
theorem notified_count (src fn n : Nat) (s : State) : Notified s (count src fn n s) := ⟨rfl, rfl⟩

/-- An event of a state `u` that differs from `s` in nothing that a record is read off. -/
theorem told_of_event (s : State) {u t : State} {code arg : Nat} {ext : Bytes} (h : Notified (eventX code arg ext u) t)
    (hphase : u.pwr.phase = s.pwr.phase) (hev : u.ev = s.ev) (hdiag : u.diag = s.diag) (hopsec : u.opsec = s.opsec)
    (hcyc : u.pwrCyc = s.pwrCyc) : Notified { u with ev := (eventX code arg ext s).ev } t :=
  notified_trans (eventX_ev_congr hphase hev hdiag hopsec hcyc code arg ext ▸ eventX_notified code arg ext u) h

/-! What the telling leaves of a state, field by field. -/

section
variable {s t : State} (h : Notified s t)
include h

theorem pwr_of_notified : t.pwr = s.pwr := by rw [h.1]
theorem nv_of_notified : t.nv = s.nv := by rw [h.1]
theorem jrn_of_notified : t.jrn = s.jrn := by rw [h.1]
theorem work_of_notified : t.work = s.work := by rw [h.1]
theorem mbxs_of_notified : t.mbxs = s.mbxs := by rw [h.1]
theorem queues_of_notified : t.queues = s.queues := by rw [h.1]
theorem lanes_of_notified : t.lanes = s.lanes := by rw [h.1]
theorem slots_of_notified : t.slots = s.slots := by rw [h.1]
theorem meter_of_notified : t.meter = s.meter := by rw [h.1]
theorem keys_of_notified : t.keys = s.keys := by rw [h.1]
theorem dgu1_of_notified : t.dgu1 = s.dgu1 := by rw [h.1]
theorem ev_of_notified : t.ev = s.ev := by rw [h.1]
theorem otp_of_notified : t.otp = s.otp := by rw [h.1]
theorem tamper_of_notified : t.tamper = s.tamper := by rw [h.1]

end

end Sys2Proof.Told
end

section
/-! Feeds and I/O banks that go and return (chapter 2 of the spec). -/

namespace Sys2Proof.Supplies

open Sys2Proof Sys2Proof.Machine Sys2Proof.Told

theorem phase_setFeed (f : Feed) (on : Bool) (mv : Nat) (p : Power) : (setFeed f on mv p).phase = p.phase := by
  cases f <;> rfl

/-- The event of R414 that a change of a feed records, in a state that differs from `s` in the feed and a value drawn. -/
theorem feedEvent_told {s t : State} {p : Power} {code arg : Nat} (hphase : p.phase = s.pwr.phase)
    (h : Notified (event code arg (drew { s with pwr := p })) t) :
    Notified { s with pwr := p, ev := (event code arg s).ev, free := s.free + 1 } t := by
  have hn := told_of_event s h hphase rfl rfl rfl rfl
  exact hn

theorem feedLow_of_setFeed (f : Feed) (mv : Nat) (p : Power) : feedOn f (setFeed f false mv p) = false := by
  cases f <;> rfl

/-- A feed that is lost asserts nALERT (R417). -/
theorem alert_of_feedLow {t : State} (f : Feed) (hf : feedOn f t.pwr = false) (hp : powered t = true) : alert t = true := by
  have hfeed : (!t.pwr.feedA || !t.pwr.feedB) = true := by
    cases f <;> simp_all [feedOn]
  simp [alert, hp, alertCause, hfeed, b2n]

theorem powered_congr {s t : State} (h : t.pwr.phase = s.pwr.phase) : powered t = powered s := by
  rw [powered, powered, h]

theorem feedLoss_acts (f : Feed) (s : State) (hp : powered s = true) (hq : quiet s = true) (hf : feedOn f s.pwr = true)
    (ho : feedOn (otherFeed f) s.pwr = true) :
    To (.feedLoss f) s fun t =>
      (∃ mv, mv < 2550 ∧ t.pwr = setFeed f false mv s.pwr) ∧ alert t = true
        ∧ Notified { s with pwr := t.pwr, ev := (event 0x0101 (feedNo f) s).ev, free := s.free + 1 } t := by
  refine to_of_settle (u := event 0x0101 (feedNo f) (drew { s with pwr := setFeed f false (lowMv s) s.pwr })) ?_
    (by rw [quiet_event]; exact hq) fun t ht => ?_
  · simp [exec, execFeedLoss, hf, ho]
  · have hn := feedEvent_told (phase_setFeed ..) ht
    have hpwr : t.pwr = setFeed f false (lowMv s) s.pwr := pwr_of_notified hn
    refine ⟨⟨lowMv s, Nat.mod_lt _ (by decide), hpwr⟩, ?_, hpwr ▸ hn⟩
    refine alert_of_feedLow f (hpwr ▸ feedLow_of_setFeed ..) ?_
    rw [powered_congr (hpwr ▸ phase_setFeed ..), hp]

theorem feedReturn_acts (f : Feed) (s : State) (hp : powered s = true) (hq : quiet s = true) (hf : feedOn f s.pwr = false) :
    To (.feedReturn f) s fun t =>
      (∃ mv, 2650 ≤ mv ∧ t.pwr = setFeed f true mv s.pwr)
        ∧ Notified { s with pwr := t.pwr, ev := (event 0x0102 (feedNo f) s).ev, free := s.free + 1 } t := by
  refine to_of_settle (u := event 0x0102 (feedNo f) (drew { s with pwr := setFeed f true (goodMv s) s.pwr })) ?_
    (by rw [quiet_event]; exact hq) fun t ht => ?_
  · simp only [exec, execFeedReturn, hf, Bool.false_eq_true, if_false]
    split <;> simp_all [powered, feedBack]
  · have hn := feedEvent_told (phase_setFeed ..) ht
    have hpwr : t.pwr = setFeed f true (goodMv s) s.pwr := pwr_of_notified hn
    exact ⟨⟨goodMv s, Nat.le_add_right .., hpwr⟩, hpwr ▸ hn⟩

/-! I/O banks. -/

/-- The device serves in one of three phases (R61, R66). -/
theorem phase_of_served {s : State} (h : served s = true) : s.pwr.phase = .started ∨ s.pwr.phase = .ready ∨ s.pwr.phase = .service := by
  unfold served at h
  split at h <;> simp_all

theorem mpDomain_of_served {s : State} (h : served s = true) (on : Bool) :
    mpDomain on s = setDomain 58 (if on then .on else .off) s := by
  rcases phase_of_served h with h | h | h <;> simp [mpDomain, h]

theorem releaseDgu_dgu1 (o : DgOwner) (s : State) : (releaseDgu o s).dgu1 = if s.dgu1.owner = o then s.dgu1.clear else s.dgu1 := by
  unfold releaseDgu
  split <;> rfl

/-- With its bank disabled, the meter port drops its group and the cabinet controller's hold on DGU1 (R394, R407). -/
theorem mpFalls_eq (s : State) : mpFalls s = { s with
    meter := { s.meter with group := none, shadow := [], shadowMask := [] }, dgu1 := (releaseDgu .cabinet s).dgu1 } := by
  unfold mpFalls releaseDgu
  split <;> rfl

theorem exec_ioBankLoss {b : IoBank} {s : State} (hs : served s = true) (hon : bankOn b s.pwr = true) :
    exec (.ioBankLoss b) s = .next (settle s (event 0x0103 (bankNo b)
      (if b = .mp then mpDomain false (mpFalls { s with pwr := setBank b false s.pwr }) else { s with pwr := setBank b false s.pwr }))) := by
  rcases phase_of_served hs with h | h | h <;> simp [exec, execIoBankLoss, hon, h]

theorem exec_ioBankReturn {b : IoBank} {mv : Nat} {hi : Bool} {s : State} (hlev : ioLevel mv = some hi) (hoff : bankOn b s.pwr = false)
    (hpins : b = .gen → s.pwr.porLow = false ∧ s.pwr.resetLow = false) :
    exec (.ioBankReturn ⟨b, mv⟩) s = .next (settle s (event 0x0104 (bankNo b)
      (if b = .mp then mpDomain true { s with pwr := setLevel b hi (setBank b true s.pwr) }
        else { s with pwr := setLevel b hi (setBank b true s.pwr) }))) := by
  cases b <;> simp_all [exec, execIoBankReturn]

theorem ioLevel_of_outside {mv : Nat} (h : mv < 1620 ∨ 3600 < mv ∨ (1980 < mv ∧ mv < 3000)) : ioLevel mv = none := by
  rw [ioLevel, if_neg (by omega), if_neg (by omega)]

/-- Settles O7, clause by clause: each change records its event and is told. -/
theorem suppliesComeAndGo : Obligations.SuppliesComeAndGo := by
  refine ⟨fun f s hp hq => ⟨feedLoss_acts f s hp hq, feedReturn_acts f s hp hq⟩, fun s hs hq => ⟨fun hon => ?_, fun hon => ?_,
    fun mv hi hlev hoff hpor hres => ?_, fun mv hi hlev hoff => ?_, fun bank mv hout => ?_⟩⟩
  · refine to_of_settle (exec_ioBankLoss hs hon) (by rw [quiet_event]; exact hq) fun t ht => ?_
    have hn := told_of_event s ht rfl rfl rfl rfl rfl
    exact ⟨hn, fun htap => by simp [pwr_of_notified hn, resetHeld, setBank, htap]⟩
  · have hs' : served (mpFalls { s with pwr := setBank .mp false s.pwr }) = true := by
      rw [mpFalls_eq]; exact hs
    have hexec := exec_ioBankLoss (b := .mp) hs hon
    rw [if_pos rfl, mpDomain_of_served hs', mpFalls_eq, releaseDgu_dgu1] at hexec
    refine to_of_settle hexec (by rw [quiet_event]; exact hq) fun t ht => ?_
    have hn := told_of_event s ht rfl rfl rfl rfl rfl
    rw [releaseDgu_dgu1]
    exact ⟨hn, by simp [mpUp, pwr_of_notified hn, setBank, setDomain]⟩
  · refine to_of_settle (exec_ioBankReturn hlev hoff fun _ => ⟨hpor, hres⟩) (by rw [quiet_event]; exact hq)
      fun t ht => ?_
    exact told_of_event s ht rfl rfl rfl rfl rfl
  · have hexec := exec_ioBankReturn (b := .mp) hlev hoff nofun
    have hs' : served { s with pwr := setLevel .mp hi (setBank .mp true s.pwr) } = true := hs
    rw [if_pos rfl, mpDomain_of_served hs'] at hexec
    refine to_of_settle hexec (by rw [quiet_event]; exact hq) fun t ht => ?_
    exact told_of_event s ht rfl rfl rfl rfl rfl
  · simp only [exec, execIoBankReturn, ioLevel_of_outside hout]

end Sys2Proof.Supplies
end

section
/-! Power failure, flush, power good and resets (chapter 2 of the spec). -/

namespace Sys2Proof.Failures

open Sys2Proof Sys2Proof.Machine Sys2Proof.Told Sys2Proof.Supplies

/-! What is lost, and what lasts. -/

theorem stopPins_feeds (p : Power) : (stopPins p).porLow = p.porLow ∧ (stopPins p).resetLow = p.resetLow ∧ (stopPins p).ioGen = p.ioGen
    ∧ (stopPins p).domains = p.domains ∧ (stopPins p).mpValid = false := ⟨rfl, rfl, rfl, rfl, rfl⟩

theorem getD_shedLoads (l : List DomState) (n : Nat) :
    (shedLoads l).getD n .off = if flushNeeds n then l.getD n .off else .off := by
  simp only [shedLoads, List.getD_eq_getElem?_getD, List.getElem?_mapIdx]
  cases l[n]? <;> simp

theorem pwr_flush (s : State) : (flush s).pwr = s.pwr := by rw [flush_only]
theorem opsec_flush (s : State) : (flush s).opsec = s.opsec := by rw [flush_only]
theorem pwrCyc_flush (s : State) : (flush s).pwrCyc = s.pwrCyc := by rw [flush_only]

theorem copyClocks_only (s : State) : copyClocks s = { s with nv := (copyClocks s).nv } := by
  unfold copyClocks
  split
  · rw [setCtr_only, setCtr_only]
  · rfl

/-- In service the flush comes before the loss (R47, R51, R52). -/
theorem exec_powerFailure_of_serving {s : State} (h : served s = true ∨ s.pwr.phase = .recovery ∨ s.pwr.phase = .scrap) :
    exec .powerFailure s = .next (feedsOut (loseVolatile (flush s))) := by
  have hphase : s.pwr.phase = .started ∨ s.pwr.phase = .ready ∨ s.pwr.phase = .service ∨ s.pwr.phase = .recovery
      ∨ s.pwr.phase = .scrap := by
    rcases h with h | h | h
    · rcases phase_of_served h with h | h | h <;> simp [h]
    · simp [h]
    · simp [h]
  rcases hphase with h | h | h | h | h <;> simp only [exec, execPowerFailure, h, declareFailure]

/-- Out of service VHOLD writes the copies of the clocks alone (R52). -/
theorem exec_powerFailure_of_reset {s : State} (h : s.pwr.phase = .flushReset ∨ s.pwr.phase = .held ∨ s.pwr.phase = .startDue) :
    exec .powerFailure s = .next (feedsOut (loseVolatile (copyClocks s))) := by
  rcases h with h | h | h <;> simp only [exec, execPowerFailure, h]

theorem powerFailure_in_service {s : State} (h : served s = true ∨ s.pwr.phase = .recovery ∨ s.pwr.phase = .scrap) :
    To .powerFailure s fun t =>
      t.pwr.phase = .flushPower ∧ t.pwr.feedA = false ∧ t.pwr.feedB = false ∧ t.pwr.mpValid = false
        ∧ (∀ n, flushNeeds n = false → t.pwr.domains.getD n .off = .off)
        ∧ (∀ n, flushNeeds n = true → t.pwr.domains.getD n .off = s.pwr.domains.getD n .off)
        ∧ t.nv = (flush s).nv
        ∧ t.work = [] ∧ t.queues = [] ∧ t.mbxs = [] ∧ t.dram = [] ∧ t.keys = {} ∧ t.dbg = {} ∧ t.jrn = {}
        ∧ t.otp = s.otp ∧ t.opsec = s.opsec ∧ t.pwrCyc = s.pwrCyc := by
  refine to_of_eq (exec_powerFailure_of_serving h) ?_
  have hpwr := pwr_flush s
  have hotp := flush_otp s
  have hopsec := opsec_flush s
  have hcyc := pwrCyc_flush s
  generalize flush s = u at *
  refine ⟨rfl, rfl, rfl, rfl, fun n hn => ?_, fun n hn => ?_, rfl, rfl, rfl, rfl, rfl, rfl, rfl, rfl, hotp, hopsec, hcyc⟩
  · exact (getD_shedLoads _ n).trans (by simp [hn])
  · exact (getD_shedLoads _ n).trans (by simp [hn, loseVolatile, hpwr])

theorem powerFailure_in_reset {s : State} (h : s.pwr.phase = .flushReset ∨ s.pwr.phase = .held ∨ s.pwr.phase = .startDue) :
    To .powerFailure s fun t =>
      t.pwr.phase = .flushPower ∧ t.pwr.feedA = false ∧ t.pwr.feedB = false ∧ t.pwr.mpValid = false
        ∧ t.nv = (copyClocks s).nv ∧ t.otp = s.otp ∧ t.opsec = s.opsec ∧ t.pwrCyc = s.pwrCyc := by
  refine to_of_eq (exec_powerFailure_of_reset h) ⟨rfl, rfl, rfl, rfl, rfl, ?_, ?_, ?_⟩ <;>
    · rw [copyClocks_only]; rfl

/-! The end of a flush. -/

/-- VHOLD after the flush: what the flush spent is open, down to 3.0 V (R47, R56). -/
theorem spentVhold_bounds (v n : Nat) : spentVhold v n ≤ v ∧ (3000 ≤ v → 3000 ≤ spentVhold v n) := by
  unfold spentVhold
  split
  · omega
  · have := Nat.mod_lt (Config.freeNat n) (show 0 < v - 2999 by omega)
    omega

theorem phase_powerUp {p : Power} (h : resetHeld p = false) : (powerUp p).phase = .startDue := by
  have hheld : resetHeld { p with
      reason := .powerGood, everStarted := false, capKept := none, bled := 0, domains := resetDomains true } = false := h
  simp [powerUp, hheld]

theorem powerDown_of_pd00 {s : State} (h : (s.pwr.vbatPresent || s.pwr.feedA || s.pwr.feedB) = true) :
    powerDown s = { drew s with
      pwr := { s.pwr with phase := .off, domains := onlyAlwaysOn, vhold := spentVhold s.pwr.vhold s.free, bled := 0 } } :=
  if_pos h

theorem powerDown_without_pd00 {s : State} (h : (s.pwr.vbatPresent || s.pwr.feedA || s.pwr.feedB) = false) :
    powerDown s = losePd00 { drew s with
      pwr := { s.pwr with phase := .off, domains := onlyAlwaysOn, vhold := spentVhold s.pwr.vhold s.free, bled := 0 } } :=
  if_neg (by rw [Bool.not_eq_true]; exact h)

theorem exec_flushComplete {s : State} (h : s.pwr.phase = .flushPower) : exec .flushComplete s
    = .next (if s.pwr.feedA || s.pwr.feedB then { powerDown s with pwr := powerUp (powerDown s).pwr } else powerDown s) := by
  simp only [exec, execFlushComplete, h]
  split <;> rfl

theorem flushComplete_without_feed {s : State} (h : s.pwr.phase = .flushPower) (ha : s.pwr.feedA = false) (hb : s.pwr.feedB = false) :
    To .flushComplete s fun t =>
      t.pwr.phase = .off ∧ t.pwr.domains = .on :: List.replicate 79 .off
        ∧ t.pwr.vhold ≤ s.pwr.vhold ∧ (3000 ≤ s.pwr.vhold → 3000 ≤ t.pwr.vhold)
        ∧ (s.pwr.vbatPresent = true → t = { s with pwr := t.pwr, free := t.free })
        ∧ (s.pwr.vbatPresent = false →
            t.pwr.pd00Lost = true ∧ t.opsec < 2 ^ 40 ∧ t.pwrCyc < 2 ^ 32 ∧ t.tamper.latch = []
              ∧ t = { s with
                  pwr := t.pwr, free := t.free, opsec := t.opsec, pwrCyc := t.pwrCyc
                  tamper := { s.tamper with latch := [] } }) := by
  have hexec := exec_flushComplete h
  simp only [ha, hb, Bool.or_self, Bool.false_eq_true, if_false] at hexec
  refine to_of_eq hexec ?_
  obtain ⟨hle, hge⟩ := spentVhold_bounds s.pwr.vhold s.free
  cases hv : s.pwr.vbatPresent with
  | true =>
    rw [powerDown_of_pd00 (by simp [hv])]
    exact ⟨rfl, rfl, hle, hge, fun _ => rfl, nofun⟩
  | false =>
    rw [powerDown_without_pd00 (by simp [hv, ha, hb])]
    exact ⟨rfl, rfl, hle, hge, nofun, fun _ => ⟨rfl, Nat.mod_lt _ (by decide), Nat.mod_lt _ (by decide), rfl, rfl⟩⟩

theorem flushComplete_with_feed {s : State} (h : s.pwr.phase = .flushPower) (hf : s.pwr.feedA = true ∨ s.pwr.feedB = true)
    (hheld : resetHeld s.pwr = false) :
    To .flushComplete s fun t =>
      t.pwr.phase = .startDue ∧ t.pwr.reason = .powerGood ∧ t.pwr.everStarted = false
        ∧ t = { s with pwr := t.pwr, free := t.free } := by
  have hfeed : (s.pwr.feedA || s.pwr.feedB) = true := by simpa using hf
  have hexec := exec_flushComplete h
  rw [hfeed, if_pos rfl, powerDown_of_pd00 (by rw [Bool.or_assoc, hfeed, Bool.or_true])] at hexec
  exact to_of_eq hexec ⟨phase_powerUp hheld, rfl, rfl, rfl⟩

theorem exec_flushComplete_of_reset {s : State} (h : s.pwr.phase = .flushReset) :
    exec .flushComplete s = .next { s with pwr := { s.pwr with
      phase := if resetHeld s.pwr then .held else .startDue, domains := heldDomains s.pwr } } := by
  simp only [exec, execFlushComplete, h, dueOrHeld]

/-! Power good. -/

theorem feedOn_setFeed (f : Feed) (on : Bool) (mv : Nat) (p : Power) : feedOn f (setFeed f on mv p) = on := by cases f <;> rfl

theorem resetHeld_setFeed (f : Feed) (on : Bool) (mv : Nat) (p : Power) : resetHeld (setFeed f on mv p) = resetHeld p := by
  cases f <;> rfl

theorem goodMv_ge (s : State) : 2650 ≤ goodMv s := Nat.le_add_right ..

theorem powerGood_when_off {f : Feed} {s : State} (hf : feedOn f s.pwr = false) (h : s.pwr.phase = .off)
    (hheld : resetHeld s.pwr = false) :
    To (.powerGood f) s fun t =>
      t.pwr.phase = .startDue ∧ t.pwr.reason = .powerGood ∧ feedOn f t.pwr = true
        ∧ 2650 ≤ (match f with | .a => t.pwr.vinA | .b => t.pwr.vinB)
        ∧ t = { s with pwr := t.pwr, free := t.free } := by
  have hexec : exec (.powerGood f) s = .next { drew s with pwr := powerUp (setFeed f true (goodMv s) s.pwr) } := by
    simp only [exec, execPowerGood, hf, h, Bool.false_eq_true, if_false]
  refine to_of_eq hexec ⟨phase_powerUp (by rw [resetHeld_setFeed, hheld]), rfl, feedOn_setFeed f true .., ?_, rfl⟩
  cases f <;> exact goodMv_ge s

theorem powerGood_in_reset {f : Feed} {s : State} (hf : feedOn f s.pwr = false)
    (h : s.pwr.phase = .flushPower ∨ s.pwr.phase = .flushReset ∨ s.pwr.phase = .held ∨ s.pwr.phase = .startDue) :
    To (.powerGood f) s fun t =>
      (∃ mv, 2650 ≤ mv ∧ t.pwr = setFeed f true mv s.pwr) ∧ t = { s with pwr := t.pwr, free := t.free } := by
  have hexec : exec (.powerGood f) s = .next { drew s with pwr := setFeed f true (goodMv s) s.pwr } := by
    rcases h with h | h | h | h <;> simp only [exec, execPowerGood, hf, h, Bool.false_eq_true, if_false]
  exact to_of_eq hexec ⟨⟨goodMv s, goodMv_ge s, rfl⟩, rfl⟩

theorem powerGood_in_service {f : Feed} {s : State} (hf : feedOn f s.pwr = false) (hs : served s = true) (hq : quiet s = true) :
    To (.powerGood f) s fun t =>
      (∃ mv, 2650 ≤ mv ∧ t.pwr = setFeed f true mv s.pwr)
        ∧ Notified { s with pwr := t.pwr, ev := (event 0x0102 (feedNo f) s).ev, free := s.free + 1 } t := by
  have hexec : exec (.powerGood f) s = .next (feedBack f s) := by
    rcases phase_of_served hs with h | h | h <;> simp only [exec, execPowerGood, hf, h, Bool.false_eq_true, if_false]
  refine to_of_settle hexec (by rw [quiet_event]; exact hq) fun t ht => ?_
  have hn := feedEvent_told (phase_setFeed ..) ht
  have hpwr : t.pwr = setFeed f true (goodMv s) s.pwr := pwr_of_notified hn
  exact ⟨⟨goodMv s, goodMv_ge s, hpwr⟩, hpwr ▸ hn⟩

/-- Settles O8, clause by clause. -/
theorem powerIsLostAndReturns : Obligations.PowerIsLostAndReturns :=
  ⟨fun _ => ⟨powerFailure_in_service, powerFailure_in_reset⟩,
    fun _ => ⟨flushComplete_without_feed, flushComplete_with_feed, exec_flushComplete_of_reset⟩,
    fun _ _ hf => ⟨powerGood_when_off hf, powerGood_in_reset hf, powerGood_in_service hf⟩⟩

/-! Reset pins. -/

theorem recognisedReset_of_served {s : State} (h : served s = true) (pin : ResetPin) :
    recognisedReset pin s = beginReset (pin == .npor) { s with pwr := setPin pin true s.pwr } := by
  rcases phase_of_served h with h | h | h <;> simp only [recognisedReset, h]

theorem resetHeld_setPin {p : Power} (h : p.ioGen = true) (pin : ResetPin) : resetHeld (setPin pin true p) = true := by
  cases pin <;> simp [setPin, resetHeld, h]

theorem reset_in_service {pin : ResetPin} {s : State} {lowNs : Nat} (hlow : 1000 ≤ lowNs) (hio : s.pwr.ioGen = true)
    (hs : served s = true) :
    To (.reset pin lowNs) s fun t =>
      t.pwr.phase = .flushReset ∧ t.pwr.reason = (if pin = .npor then .npor else .nreset)
        ∧ resetHeld t.pwr = true ∧ t.pwr.mpValid = false
        ∧ t.work = [] ∧ t.queues = [] ∧ t.mbxs = [] ∧ t.keys = {} ∧ t.jrn = {}
        ∧ t.opsec = s.opsec ∧ t.pwrCyc = s.pwrCyc ∧ t.otp = s.otp := by
  have hexec : exec (.reset pin lowNs) s = .next (beginReset (pin == .npor) { s with pwr := setPin pin true s.pwr }) := by
    have hlong : ¬(lowNs < 100) := by omega
    simp [exec, execReset, hio, hlow, hlong, recognisedReset_of_served hs]
  refine to_of_eq hexec ?_
  have hpwr := pwr_flush { s with pwr := setPin pin true s.pwr }
  have hotp := flush_otp { s with pwr := setPin pin true s.pwr }
  have hopsec := opsec_flush { s with pwr := setPin pin true s.pwr }
  have hcyc := pwrCyc_flush { s with pwr := setPin pin true s.pwr }
  unfold beginReset
  generalize flush { s with pwr := setPin pin true s.pwr } = u at *
  refine ⟨rfl, by cases pin <;> rfl, ?_, rfl, rfl, rfl, rfl, rfl, rfl, hopsec, hcyc, hotp⟩
  have hpin := resetHeld_setPin hio pin
  cases pin <;> simp_all [resetHeld, loseVolatile, stopPins, setPin]

theorem exec_reset_short {pin : ResetPin} {s : State} {lowNs : Nat} (h : lowNs < 100) : exec (.reset pin lowNs) s = .next s := by
  simp [exec, execReset, h]

theorem resetRelease_acts {pin : ResetPin} {s : State} (hphase : s.pwr.phase = .held) (htap : s.pwr.tapHold = false)
    (hother : (if pin = .npor then s.pwr.resetLow else s.pwr.porLow) = false) :
    To (.resetRelease pin) s fun t =>
      t.pwr.phase = .startDue ∧ t.pwr.porLow = false ∧ t.pwr.resetLow = false ∧ t = { s with pwr := t.pwr } := by
  have hexec : exec (.resetRelease pin) s = .next { s with pwr := dueOrHeld (setPin pin false s.pwr) } := by
    simp only [exec, execResetRelease, hphase]
  refine to_of_eq hexec ?_
  cases pin <;> simp_all [dueOrHeld, resetHeld, setPin]

/-- Settles O9, clause by clause. -/
theorem resetPinsAct : Obligations.ResetPinsAct :=
  fun _ _ => ⟨fun _ => reset_in_service, fun _ => exec_reset_short, resetRelease_acts⟩

end Sys2Proof.Failures
end

section
/-! VBAT, the hold-up capacitor and housekeeping (chapters 2, 15 and 16 of the spec). -/

namespace Sys2Proof.HoldUp

open Sys2Proof Sys2Proof.Machine Sys2Proof.Told Sys2Proof.Supplies

theorem vbatLoss_when_off {s : State} (h : s.pwr.phase = .off) :
    To .vbatLoss s fun t =>
      t.pwr = { s.pwr with vbatPresent := false, pd00Lost := true } ∧ t.opsec < 2 ^ 40 ∧ t.pwrCyc < 2 ^ 32
        ∧ t = { s with
            pwr := t.pwr, free := t.free, opsec := t.opsec, pwrCyc := t.pwrCyc, tamper := { s.tamper with latch := [] } } := by
  have hexec : exec .vbatLoss s = .next (losePd00 { s with pwr := { s.pwr with vbatPresent := false } }) := by
    simp only [exec, execVbatLoss, h]
  exact to_of_eq hexec ⟨rfl, Nat.mod_lt _ (by decide), Nat.mod_lt _ (by decide), rfl⟩

theorem vbatLoss_when_powered {s : State} (hoff : s.pwr.phase ≠ .off) (hflush : s.pwr.phase ≠ .flushPower) (hq : quiet s = true) :
    To .vbatLoss s fun t => Notified { s with pwr := { s.pwr with vbatPresent := false, vbatLow := true } } t := by
  refine to_of_settle (u := { s with pwr := { s.pwr with vbatPresent := false, vbatLow := true } }) ?_ hq fun _ h => h
  simp only [exec, execVbatLoss]

theorem holdUpBridge_acts {s : State} (hoff : s.pwr.phase ≠ .off) (hflush : s.pwr.phase ≠ .flushPower) :
    To .holdUpBridge s fun t =>
      t.pwr.vhold ≤ s.pwr.vhold
        ∧ t = { s with pwr := { s.pwr with bridging := true, vhold := t.pwr.vhold }, free := s.free + 1 } := by
  have hexec : exec .holdUpBridge s = .next { drew s with
      pwr := { s.pwr with bridging := true, vhold := s.pwr.vhold - Config.freeNat s.free % (bridgeDrop s.pwr + 1) } } := by
    simp only [exec, execHoldUpBridge]
  exact to_of_eq hexec ⟨Nat.sub_le .., rfl⟩

/-! The capacitor. -/

/-- Entering DEGRADED touches nothing else of the supply's state (R59). -/
theorem pwr_enterDegraded (reason : Nat) (s : State) : (enterDegraded reason s).pwr = { s.pwr with degraded := true } := by
  simp [enterDegraded]

theorem capNs_pos (c : CapResult) : 0 < capNs c := by
  unfold capNs
  split <;> decide

/-- A capacitor below 150 uF or above 500 mOhm fails in service (R57, R59). -/
theorem serviceReason_eq_none_iff (c : CapResult) : serviceReason c = none ↔ ¬capUf c < 150 ∧ ¬500 < capMohm c := by
  have huf : capAtLeast 150 c = true ↔ ¬capUf c < 150 := by
    rw [capAtLeast, decide_eq_true_iff, capUf, Nat.div_lt_iff_lt_mul (capNs_pos c), not_lt]
  have hohm : 200 < c.raw.step ↔ 500 < capMohm c := by
    unfold capMohm
    omega
  rw [← huf, ← hohm, serviceReason]
  cases capAtLeast 150 c <;> simp

/-- A measurement is kept, and puts the device in DEGRADED service where it fails (R57, R59). -/
theorem pwr_judgeCap (c : CapResult) (s : State) : (judgeCap c s).pwr = { s.pwr with
    cap := c, capOpsec := s.opsec
    degraded := s.pwr.degraded || decide (capUf c < 150) || decide (500 < capMohm c) } := by
  have hiff := serviceReason_eq_none_iff c
  unfold judgeCap
  cases hr : serviceReason c with
  | none =>
    obtain ⟨huf, hohm⟩ := hiff.1 hr
    simp [noteCap, huf, hohm]
  | some r =>
    have hfail : (decide (capUf c < 150) || decide (500 < capMohm c)) = true := by
      by_contra hno
      have hnone : serviceReason c = none := hiff.2 (by simpa using hno)
      simp [hr] at hnone
    rw [Bool.or_assoc, hfail, Bool.or_true]
    cases hd : s.pwr.degraded <;> simp [noteCap, hd, pwr_enterDegraded]

theorem capacitorMeasurement_in_service {c : CapReading} {s : State} (hs : served s = true) (hdue : s.pwr.capOpsec + 3600 ≤ s.opsec) :
    To (.capacitorMeasurement c) s fun t =>
      t.pwr.cap = ⟨true, c⟩ ∧ t.pwr.capOpsec = s.opsec
        ∧ t.pwr.degraded = (s.pwr.degraded || decide (capUf ⟨true, c⟩ < 150) || decide (500 < capMohm ⟨true, c⟩)) := by
  have hexec : exec (.capacitorMeasurement c) s = .next (settle s (judgeCap ⟨true, c⟩ s)) := by
    rcases phase_of_served hs with h | h | h <;> simp only [exec, execCapacitorMeasurement, h, hdue, if_true]
  refine to_of_eq hexec ?_
  rw [settle_pwr, pwr_judgeCap]
  exact ⟨rfl, rfl, rfl⟩

theorem capacitorMeasurement_in_reset {c : CapReading} {s : State} (hphase : s.pwr.phase = .held) (hstart : s.pwr.everStarted = false)
    (hkept : s.pwr.capKept = none) :
    To (.capacitorMeasurement c) s fun t =>
      (c.reached = true → 10780 ≤ t.pwr.vhold ∧ t.pwr.vhold ≤ 11220)
        ∧ t = { s with
            pwr := { s.pwr with capKept := some ⟨dischargeMethod s.pwr, c⟩, vhold := t.pwr.vhold }, free := s.free + 1 } := by
  have hexec : exec (.capacitorMeasurement c) s = .next { drew s with pwr := { s.pwr with
      capKept := some ⟨dischargeMethod s.pwr, c⟩, vhold := chargedVhold c.reached s.free } } := by
    simp [exec, execCapacitorMeasurement, hphase, hstart, hkept]
  refine to_of_eq hexec ⟨fun hreached => ?_, rfl⟩
  have := Nat.mod_lt (Config.freeNat s.free) (show 0 < 441 by decide)
  simp only [chargedVhold, hreached, if_true]
  omega

theorem vholdLowTimeout_acts {s : State} (hs : served s = true) (hd : s.pwr.degraded = false) :
    To .vholdLowTimeout s fun t => t.pwr.degraded = true ∧ t.pwr.vhold < 10000 ∧ t.pwr.cap = s.pwr.cap := by
  have hexec : exec .vholdLowTimeout s
      = .next (settle s (enterDegraded 3 (drew { s with pwr := { s.pwr with vhold := Config.freeNat s.free % 10000 } }))) := by
    rcases phase_of_served hs with h | h | h <;> simp [exec, execVholdLowTimeout, h, hd]
  refine to_of_eq hexec ?_
  rw [settle_pwr, pwr_enterDegraded]
  exact ⟨rfl, Nat.mod_lt _ (by decide), rfl⟩

/-! Housekeeping. -/

theorem pkeIdleOff_acts {core : Nat} {p : Pke} {s : State} (hp : s.pkes[core]? = some p) (hon : p.on = true) (htest : p.testing = false)
    (hdom : 13 + core < s.pwr.domains.length) :
    To (.pkeIdleOff core) s fun t =>
      t.pwr.domains[13 + core]? = some .off ∧ (t.pkes[core]?).map (·.on) = some false
        ∧ t = { s with pwr := { s.pwr with domains := t.pwr.domains }, pkes := t.pkes }
        ∧ (∀ n, n ≠ 13 + core → t.pwr.domains[n]? = s.pwr.domains[n]?) := by
  have hexec : exec (.pkeIdleOff core) s
      = .next (setDomain (13 + core) .off { s with pkes := modAt s.pkes core fun x => { x with on := false } }) := by
    simp [exec, execPkeIdleOff, hp, hon, htest]
  refine to_of_eq hexec ⟨?_, ?_, rfl, fun n hn => ?_⟩
  · simp [setDomain, hdom]
  · simp [setDomain, modAt, hp]
  · simp [setDomain, List.getElem?_set_ne hn.symm]

/-- The refresh writes no value that is not the counter's own (R440). -/
theorem refreshCtr_live_lost (now w : Nat) (c : Counter) : (refreshCtr now w c).live = c.live ∧ (refreshCtr now w c).lost = c.lost := by
  unfold refreshCtr
  split <;> exact ⟨rfl, rfl⟩

theorem mramRefresh_acts {s : State} (hs : served s = true) (hd : s.pwr.degraded = false) (hdue : s.nv.refreshAt + 31536000 ≤ s.opsec) :
    To .mramRefresh s fun t =>
      t = { s with
          nv := { s.nv with ctrs := t.nv.ctrs, refreshAt := s.opsec }
          health := { s.health with mramCorr := t.health.mramCorr }, free := s.free + 1 }
        ∧ min 65535 s.health.mramCorr ≤ t.health.mramCorr ∧ t.health.mramCorr ≤ 65535
        ∧ (∀ n, ctrVal t n = ctrVal s n)
        ∧ ∀ n c, tget s.nv.ctrs n = some c → c.lost = false →
            (c.wrote + 31536000 ≤ s.opsec →
              (ctrOf t n).c0.value = some (max c.live (c.c0.value.getD 0))
                ∧ (ctrOf t n).c1.value = some (max c.live (c.c1.value.getD 0))
                ∧ (ctrOf t n).c2.value = some (max c.live (c.c2.value.getD 0)) ∧ (ctrOf t n).wrote = s.opsec)
            ∧ (s.opsec < c.wrote + 31536000 → ctrOf t n = c) := by
  have hexec : exec .mramRefresh s = .next { s with
      nv := { s.nv with refreshAt := s.opsec, ctrs := s.nv.ctrs.map fun e => (e.1, refreshCtr s.opsec (ctrWidth e.1) e.2) }
      health := { s.health with mramCorr := min 65535 (s.health.mramCorr + Config.freeNat s.free) }
      free := s.free + 1 } := by
    simp [exec, execMramRefresh, hs, hd, refreshPeriod, hdue]
  have hget : ∀ n, tget (s.nv.ctrs.map fun e => (e.1, refreshCtr s.opsec (ctrWidth e.1) e.2)) n
      = (tget s.nv.ctrs n).map (refreshCtr s.opsec (ctrWidth n)) :=
    Redundancy.tget_map (fun e => refreshCtr s.opsec (ctrWidth e.1) e.2) s.nv.ctrs
  refine to_of_eq hexec ⟨rfl, ?_, min_le_left .., fun n => ?_, fun n c hc hlost => ?_⟩
  · simp only []
    omega
  · cases hc : tget s.nv.ctrs n <;> simp [ctrVal, ctrOf, tgetD, hget, hc, refreshCtr_live_lost]
  · have hctr : tgetD (s.nv.ctrs.map fun e => (e.1, refreshCtr s.opsec (ctrWidth e.1) e.2)) n {} = refreshCtr s.opsec (ctrWidth n) c := by
      rw [tgetD, hget, hc]
      rfl
    simp only [ctrOf, hctr]
    simp only [refreshCtr, hlost, Bool.false_or]
    refine ⟨fun hidle => ?_, fun hrecent => if_pos (decide_eq_true hrecent)⟩
    have hdue : ¬ decide (s.opsec < c.wrote + refreshPeriod) = true := fun h => absurd (of_decide_eq_true h) (not_lt.mpr hidle)
    rw [if_neg hdue]
    exact ⟨rfl, rfl, rfl, rfl⟩

theorem eventBufferWrite_acts {s : State} (hs : served s = true) (hdue : eventsDue s = true) :
    To .eventBufferWrite s fun t =>
      t = { s with nv := { s.nv with evArea := t.nv.evArea }, ev := { s.ev with buf := [] } }
        ∧ ∀ r, s.ev.buf = [r] → tget t.nv.evArea (r.evn % 262144) = some r := by
  have hexec : exec .eventBufferWrite s = .next (writeEvents s) := by
    rcases phase_of_served hs with h | h | h <;> simp [exec, execEventBufferWrite, powered, h, hdue]
  refine to_of_eq hexec ⟨rfl, fun r hr => ?_⟩
  simp only [writeEvents, hr, List.foldl_cons, List.foldl_nil]
  exact tget_tset_self ..

/-- Settles O10, clause by clause. -/
theorem alwaysOnDomainAndHoldUp : Obligations.AlwaysOnDomainAndHoldUp := by
  refine ⟨fun s => ⟨vbatLoss_when_off, fun h => ?_, vbatLoss_when_powered, fun hq => ?_⟩,
    fun s => ⟨holdUpBridge_acts, fun _ => capacitorMeasurement_in_service, fun _ => capacitorMeasurement_in_reset, vholdLowTimeout_acts⟩,
    fun s => ⟨fun _ _ => pkeIdleOff_acts, mramRefresh_acts, eventBufferWrite_acts⟩⟩
  · simp only [exec, execVbatLoss, h]
  · exact to_of_settle rfl hq fun _ h => h

end Sys2Proof.HoldUp
end

section
/-! # Service completion with a completion that waits (O12)

The obligation asks that service completion leaves every function but for its event flags, whatever waits. An entry that is
done is delivered in that very step (`settle`), and the ingress charge of its function is counted anew (R142). -/
namespace Sys2Proof.Services
open Sys2Proof Sys2Proof.Machine

/-- Mailbox ready, one entry whose completion is due, and one byte of ingress credit in use by PF0 for it. -/
def doneEntryWaits : State :=
  { State.reset with
    pwr := { State.reset.pwr with phase := .ready }
    work := [{ stage := .done }]
    fns := { inUsed := 1 } :: State.reset.fns.tail }

/-- The ingress credit that PF0 has in use after an outcome. -/
def creditOfPf0 : Host.Outcome State Fault Refusal → Option Nat
  | .next t => (t.fns.map (·.inUsed)).head?
  | _ => none

theorem serviceComplete_returns_credit : creditOfPf0 (exec .serviceComplete doneEntryWaits) = some 0 := by decide

/-- Refutes O12: its third clause says that service completion leaves all of a function but DEV_EVENT, with no premise that
nothing waits. In `doneEntryWaits` the entry that is done completes in that step, and PF0's credit goes from 1 to 0. -/
theorem not_serviceComesInTwoSteps : ¬ Obligations.ServiceComesInTwoSteps := by
  intro h
  obtain ⟨-, -, hservice, -⟩ := h doneEntryWaits
  obtain ⟨t, ht, -, -, -, -, hfns⟩ := hservice rfl rfl rfl
  have hused : t.fns.map (·.inUsed) = doneEntryWaits.fns.map (·.inUsed) := by
    simpa [List.map_map, Function.comp_def, Fn.sansFlags] using congrArg (List.map Fn.inUsed) hfns
  have hcredit := serviceComplete_returns_credit
  rw [ht, creditOfPf0, hused] at hcredit
  exact absurd hcredit (by decide)

end Sys2Proof.Services
end

section
/-! # The meter port: store words, groups, counters and the verdict (O40, O41, O42) -/
namespace Sys2Proof.MeterPort
open Sys2Proof Sys2Proof.Machine Sys2Proof.Told

/-! ## A cycle that no pin and no event flag shows -/

/-- What `noteChanges` compares did not move: nothing is shown. -/
theorem noteChanges_same {s u : State} (hcode : stateCode u = stateCode s) (hdegraded : u.pwr.degraded = s.pwr.degraded) (hlc : u.lc = s.lc)
    (halert : alert u = alert s) (hfill : u.jrn.fill = s.jrn.fill) (hfns : u.fns = s.fns) : noteChanges s u = u := by
  simp [noteChanges, hcode, hdegraded, hlc, halert, hfill, fnOf, hfns]

theorem settle_same {s u : State} (hq : quiet u = true) (hcode : stateCode u = stateCode s) (hdegraded : u.pwr.degraded = s.pwr.degraded)
    (hlc : u.lc = s.lc) (halert : alert u = alert s) (hfill : u.jrn.fill = s.jrn.fill) (hfns : u.fns = s.fns) : settle s u = u := by
  unfold settle
  simp only []
  rw [deliver_quiet hq, fillEvents_quiet hq, noteChanges_same hcode hdegraded hlc halert hfill hfns]

theorem readCycle_serves {word : Nat} {f : State → State} {s : State} (hup : mpUp s = true) (hok : mpFault word false s = none) :
    readCycle word f s = settle s (count 0x80 0 1 (f s)) := by
  simp [readCycle, mpCycle, hup, hok]

theorem writeCycle_serves {word : Nat} {f : State → State} {s : State} (hup : mpUp s = true) (hok : mpFault word true s = none)
    (hlc : s.lc ≠ .retn) : writeCycle word f s = settle s (count 0x81 0 1 (f s)) := by
  simp [writeCycle, mpCycle, hup, hok, hlc]

/-- A cycle that the port does not serve, or a write in RETURN (R350), leaves everything. -/
theorem writeCycle_dropped {word : Nat} {f : State → State} {s : State} (hq : quiet s = true)
    (h : mpUp s = false ∨ (mpFault word true s = none ∧ s.lc = .retn)) : writeCycle word f s = s := by
  have hcycle : ∀ g, mpCycle word true g s = s := by
    intro g
    rcases h with hup | ⟨hok, hretn⟩
    · simp [mpCycle, hup]
    · simp [mpCycle, hok, hretn]
  rw [writeCycle, hcycle]
  exact settle_same hq rfl rfl rfl rfl rfl rfl

/-- A read that changes the meter port's registers and drives the data lines, and nothing else. -/
theorem readCycle_drives {word w : Nat} {f : State → State} {s : State} {m : Meter} (hq : quiet s = true) (hup : mpUp s = true)
    (hok : mpFault word false s = none) (hf : f s = drive w { s with meter := m }) :
    readCycle word f s = { s with meter := m, out := s.out ++ [.mp (BitVec.ofNat 16 w)], pmon := s.pmon.count 0x80 0 1 } := by
  rw [readCycle_serves hup hok, hf]
  exact settle_same hq rfl rfl rfl rfl rfl rfl

/-- A write that changes the meter port's own state and nothing else. -/
theorem writeCycle_stores {word : Nat} {f : State → State} {s : State} {m : Meter} (hq : quiet s = true) (hup : mpUp s = true)
    (hok : mpFault word true s = none) (hlc : s.lc ≠ .retn) (hf : f s = { s with meter := m }) :
    writeCycle word f s = { s with meter := m, pmon := s.pmon.count 0x81 0 1 } := by
  rw [writeCycle_serves hup hok hlc, hf]
  exact settle_same hq rfl rfl rfl rfl rfl rfl

/-! ## TV_VERDICT (R400) -/

theorem tvValid_iff {m : Meter} {n ref : Nat} (hn : n = m.tvLen.toNat % 32) (href : ref = m.tvLo.toNat + 65536 * (m.tvHi.toNat % 16)) :
    tvValid m = true ↔ 1 ≤ n ∧ n ≤ 16 ∧ ref < 0x20000 ∧ ref % 128 + n ≤ 124 := by
  simp [tvValid, tvWords, tvRef, ← hn, ← href, and_assoc]

theorem tvEqual_iff {m : Meter} {n ref : Nat} (hn : n = m.tvLen.toNat % 32) (href : ref = m.tvLo.toNat + 65536 * (m.tvHi.toNat % 16)) :
    tvEqual m = true ↔ ∀ i, i < n → (m.tvCand.getD i 0).toNat = mirrorWord m (ref + i) := by
  simp only [tvEqual, List.all_eq_true, List.mem_range, beq_iff_eq, tvWords, tvRef, ← hn, ← href]

/-- Settles O42: the verdict is decided by `tvValid` and `tvEqual`. -/
theorem verdictComparesEveryWord : Obligations.VerdictComparesEveryWord := by
  intro n ref s hn href hup hok hq
  have hvalid := tvValid_iff hn href
  have hequal := tvEqual_iff hn href
  refine ⟨fun h1 h16 hin hfit => ?_, fun spaced hbad => ?_⟩
  · have hv : tvValid s.meter = true := hvalid.mpr ⟨h1, h16, hin, hfit⟩
    refine ⟨fun heq => ?_, fun i hi hne => ?_⟩
    · have he : tvEqual s.meter = true := hequal.mpr heq
      exact to_of_eq rfl (readCycle_drives hq hup hok (by simp only [tvRead, hv, he, Bool.and_self, if_true]))
    · have he : tvEqual s.meter = false := by
        rw [Bool.eq_false_iff]
        exact fun h => hne (hequal.mp h i hi)
      exact to_of_eq rfl (readCycle_drives hq hup hok (by simp [tvRead, hv, he]))
  · have hv : (spaced && tvValid s.meter) = false := by
      rw [Bool.and_eq_false_iff]
      rcases hbad with hs | hbad
      · exact .inl hs
      · right
        rw [Bool.eq_false_iff]
        intro h
        have := hvalid.mp h
        omega
    exact to_of_eq rfl (readCycle_drives (m := s.meter) hq hup hok (by simp only [tvRead, hv]; rfl))

/-! ## The bytes that a store word's write changes (R390, R394) -/

theorem portByte_of_other_page {m : Meter} {a : Nat} (h : m.group ≠ some (a / 256)) : portByte m a = mread m.mirror a := by
  simp [portByte, h]

@[simp] theorem dirt_mirror (p : Nat) (m : Meter) : (Meter.dirt p m).mirror = m.mirror := by
  unfold Meter.dirt
  split <;> rfl

theorem mem_dirt (p : Nat) (m : Meter) : p ∈ (Meter.dirt p m).dirty := by
  unfold Meter.dirt
  split
  case isTrue h => simpa using h
  case isFalse => simp

theorem dirt_only (p : Nat) (m : Meter) : Meter.dirt p m = { m with dirty := (Meter.dirt p m).dirty } := by
  unfold Meter.dirt
  split <;> rfl

theorem put_only (a : Nat) (b : Byte) (m : Meter) :
    m.put a b = { m with mirror := mwrite m.mirror a b, dirty := (m.put a b).dirty } := by
  unfold Meter.put
  rw [dirt_only]

/-- The bytes of a write go into the mirror, or into the shadow of the page that a group is open on; nothing else moves. -/
theorem portPut_only (a : Nat) (b : Byte) (m : Meter) :
    m.portPut a b = { m with
      mirror := (m.portPut a b).mirror, dirty := (m.portPut a b).dirty, shadow := (m.portPut a b).shadow
      shadowMask := (m.portPut a b).shadowMask } := by
  unfold Meter.portPut
  split
  · rfl
  · rw [put_only]

@[simp] theorem portPut_group (a : Nat) (b : Byte) (m : Meter) : (m.portPut a b).group = m.group := by rw [portPut_only]

theorem portPut_of_group {m : Meter} {a : Nat} (b : Byte) (h : m.group = some (a / 256)) :
    (m.portPut a b).mirror = m.mirror ∧ (m.portPut a b).dirty = m.dirty := by
  simp [Meter.portPut, h]

theorem mem_dirty_portPut {m : Meter} {a : Nat} (b : Byte) (h : m.group ≠ some (a / 256)) : a / 256 ∈ (m.portPut a b).dirty := by
  simp only [Meter.portPut, h, if_false, Meter.put]
  exact mem_dirt _ _

theorem portByte_portPut_self (m : Meter) (a : Nat) (b : Byte) : portByte (m.portPut a b) a = b := by
  by_cases h : m.group = some (a / 256)
  · have hmask : (if m.shadowMask.contains a then m.shadowMask else m.shadowMask ++ [a]).contains a = true := by
      split
      case isTrue hin => exact hin
      case isFalse => simp
    simp only [portByte, Meter.portPut, h, if_true, hmask, and_self, mread_mwrite_self]
  · rw [portByte_of_other_page (by simpa using h)]
    simp [Meter.portPut, h, Meter.put]

theorem portByte_portPut_ne (m : Meter) {a x : Nat} (b : Byte) (hx : x ≠ a) : portByte (m.portPut a b) x = portByte m x := by
  by_cases h : m.group = some (a / 256)
  · have hmask : (if m.shadowMask.contains a then m.shadowMask else m.shadowMask ++ [a]).contains x = m.shadowMask.contains x := by
      split
      · rfl
      · simp [hx]
    simp only [portByte, Meter.portPut, h, if_true, hmask, mread_mwrite_ne _ _ hx]
  · simp only [Meter.portPut, h, if_false]
    rw [put_only]
    simp only [portByte, mread_mwrite_ne _ _ hx]

/-- The write of one enabled byte of a word. -/
def byteIf (on : Bool) (a : Nat) (b : Byte) (m : Meter) : Meter := if on then m.portPut a b else m

theorem portStore_eq {word : Nat} (data : BitVec 16) (be : BitVec 2) (m : Meter) (h : storeWord word = true) :
    portStore word data be m
      = byteIf (be.getLsbD 1) (2 * word + 1) ((data >>> 8).setWidth 8) (byteIf (be.getLsbD 0) (2 * word) (data.setWidth 8) m) := by
  simp only [portStore, h, if_true, byteIf]

theorem byteIf_only (on : Bool) (a : Nat) (b : Byte) (m : Meter) :
    byteIf on a b m = { m with
      mirror := (byteIf on a b m).mirror, dirty := (byteIf on a b m).dirty, shadow := (byteIf on a b m).shadow
      shadowMask := (byteIf on a b m).shadowMask } := by
  cases on
  · rfl
  · exact portPut_only a b m

@[simp] theorem byteIf_group (on : Bool) (a : Nat) (b : Byte) (m : Meter) : (byteIf on a b m).group = m.group := by rw [byteIf_only]

theorem byteIf_of_group {m : Meter} {a : Nat} (on : Bool) (b : Byte) (h : m.group = some (a / 256)) :
    (byteIf on a b m).mirror = m.mirror ∧ (byteIf on a b m).dirty = m.dirty := by
  cases on
  · exact ⟨rfl, rfl⟩
  · exact portPut_of_group b h

theorem portByte_byteIf_ne (on : Bool) (m : Meter) {a x : Nat} (b : Byte) (hx : ¬(x = a ∧ on = true)) :
    portByte (byteIf on a b m) x = portByte m x := by
  cases on
  · rfl
  · exact portByte_portPut_ne m b (by simpa using hx)

theorem mem_dirty_byteIf {m : Meter} {a p : Nat} (on : Bool) (b : Byte) (h : p ∈ m.dirty) : p ∈ (byteIf on a b m).dirty := by
  cases on
  · exact h
  · by_cases hgroup : m.group = some (a / 256)
    · exact (portPut_of_group b hgroup).2 ▸ h
    · simp only [byteIf, if_true, Meter.portPut, hgroup, if_false, Meter.put, Meter.dirt]
      split
      · exact h
      · exact List.mem_append_left _ h

theorem be_bit_of_ne_zero {be : BitVec 2} (h : be ≠ 0) : be.getLsbD 0 = true ∨ be.getLsbD 1 = true := by
  revert be
  decide

/-- What a write of a store word does to the bytes that the cabinet controller reads, to the mirror and to the dirty pages (R390 to R394). -/
theorem portStore_acts {word : Nat} (data : BitVec 16) (be : BitVec 2) (m : Meter) (h : storeWord word = true) :
    (be.getLsbD 0 = true → portByte (portStore word data be m) (2 * word) = data.setWidth 8)
      ∧ (be.getLsbD 1 = true → portByte (portStore word data be m) (2 * word + 1) = (data >>> 8).setWidth 8)
      ∧ (m.group ≠ some (word / 128) → be ≠ 0 → word / 128 ∈ (portStore word data be m).dirty) := by
  rw [portStore_eq data be m h]
  refine ⟨fun h0 => ?_, fun h1 => ?_, fun hgroup hbe => ?_⟩
  · rw [portByte_byteIf_ne _ _ _ (by omega), h0]
    exact portByte_portPut_self ..
  · rw [h1]
    exact portByte_portPut_self ..
  · have hpage : 2 * word / 256 = word / 128 ∧ (2 * word + 1) / 256 = word / 128 := by omega
    rcases be_bit_of_ne_zero hbe with h0 | h1
    · refine mem_dirty_byteIf _ _ ?_
      rw [h0, ← hpage.1]
      exact mem_dirty_portPut _ (by rw [hpage.1]; exact hgroup)
    · rw [h1, ← hpage.2]
      exact mem_dirty_portPut _ (by rw [byteIf_group, hpage.2]; exact hgroup)

theorem portStore_reserved {word : Nat} (data : BitVec 16) (be : BitVec 2) (m : Meter) (h : 124 ≤ word % 128) : portStore word data be m = m := by
  have : storeWord word = false := by
    simp [storeWord]
    omega
  simp [portStore, this]

theorem portByte_portStore_other {word : Nat} (data : BitVec 16) (be : BitVec 2) (m : Meter) {x : Nat}
    (h0 : ¬(x = 2 * word ∧ be.getLsbD 0 = true)) (h1 : ¬(x = 2 * word + 1 ∧ be.getLsbD 1 = true)) :
    portByte (portStore word data be m) x = portByte m x := by
  cases h : storeWord word
  · simp [portStore, h]
  · rw [portStore_eq data be m h, portByte_byteIf_ne _ _ _ h1, portByte_byteIf_ne _ _ _ h0]

theorem portStore_only (word : Nat) (data : BitVec 16) (be : BitVec 2) (m : Meter) :
    portStore word data be m = { m with
      mirror := (portStore word data be m).mirror, dirty := (portStore word data be m).dirty
      shadow := (portStore word data be m).shadow, shadowMask := (portStore word data be m).shadowMask } := by
  cases h : storeWord word
  · simp [portStore, h]
  · rw [portStore_eq data be m h, byteIf_only, byteIf_only (be.getLsbD 0)]

theorem portStore_of_group {word : Nat} (data : BitVec 16) (be : BitVec 2) (m : Meter) (h : m.group = some (word / 128)) :
    (portStore word data be m).mirror = m.mirror ∧ (portStore word data be m).dirty = m.dirty := by
  have hpage : 2 * word / 256 = word / 128 ∧ (2 * word + 1) / 256 = word / 128 := by omega
  cases hw : storeWord word
  · simp [portStore, hw]
  · rw [portStore_eq data be m hw]
    have h0 := byteIf_of_group (be.getLsbD 0) (data.setWidth 8) (m := m) (a := 2 * word) (by rw [hpage.1]; exact h)
    have h1 := byteIf_of_group (be.getLsbD 1) ((data >>> 8).setWidth 8) (m := byteIf (be.getLsbD 0) (2 * word) (data.setWidth 8) m)
      (a := 2 * word + 1) (by rw [byteIf_group, hpage.2]; exact h)
    exact ⟨h1.1.trans h0.1, h1.2.trans h0.2⟩

/-! ## The commit of a group (R394) -/

theorem mirror_of_put_all (shadow : Memory) (mask : List Nat) (m : Meter) (x : Nat) :
    mread (mask.foldl (fun y a => y.put a (mread shadow a)) m).mirror x = if x ∈ mask then mread shadow x else mread m.mirror x := by
  induction mask generalizing m with
  | nil => simp
  | cons a mask ih =>
    rw [List.foldl_cons, ih]
    by_cases hin : x ∈ mask
    · simp [hin]
    · by_cases ha : x = a
      · simp [ha, Meter.put]
      · simp [hin, ha, Meter.put]

theorem put_all_only (shadow : Memory) (mask : List Nat) (m : Meter) :
    mask.foldl (fun y a => y.put a (mread shadow a)) m = { m with
      mirror := (mask.foldl (fun y a => y.put a (mread shadow a)) m).mirror
      dirty := (mask.foldl (fun y a => y.put a (mread shadow a)) m).dirty } := by
  induction mask generalizing m with
  | nil => rfl
  | cons a mask ih =>
    rw [List.foldl_cons, ih, put_only]

/-! ## Reads and writes of the port's store words (R388, R390, R374) -/

theorem portWord_spelt (m : Meter) {word : Nat} (hin : word < 0x20000) :
    BitVec.ofNat 16 (portWord m word) = if word % 128 < 124 then portByte m (2 * word + 1) ++ portByte m (2 * word) else 0 := by
  simp only [portWord, storeWord, hin, decide_true, Bool.true_and, decide_eq_true_eq]
  split
  · apply BitVec.eq_of_toNat_eq
    have := (portByte m (2 * word)).isLt
    have := (portByte m (2 * word + 1)).isLt
    rw [BitVec.toNat_append, ← Nat.shiftLeft_add_eq_or_of_lt (portByte m (2 * word)).isLt, BitVec.toNat_ofNat, Nat.shiftLeft_eq]
    omega
  · rfl

theorem storeRead_drives {a : BitVec 20} {s : State} (ha : a.toNat < 0x20000) (hq : quiet s = true) (hup : mpUp s = true)
    (hok : mpFault a.toNat false s = none) :
    To (.meterPortRead a true) s fun t =>
      t = { s with
        out := s.out ++ [.mp (if a.toNat % 128 < 124 then portByte s.meter (2 * a.toNat + 1) ++ portByte s.meter (2 * a.toNat) else 0)]
        pmon := s.pmon.count 0x80 0 1 } := by
  rw [← portWord_spelt s.meter ha]
  exact to_of_eq rfl (readCycle_drives (m := s.meter) hq hup hok (by simp only [portRead, ha, if_true]))

theorem execMeterPortWrite_strobed {a : BitVec 20} {d : BitVec 16} {be : BitVec 2} {we rise : Nat} {s : State} (hwe : 10 ≤ we) (hrise : 15 ≤ rise) :
    exec (.meterPortWrite a d be we rise) s = .next (writeCycle a.toNat (portWrite a.toNat d be) s) := by
  simp [exec, execMeterPortWrite, hwe, hrise]

theorem storeWrite_acts {a : BitVec 20} {s : State} (ha : a.toNat < 0x20000) (hq : quiet s = true) (d : BitVec 16) (be : BitVec 2) {we rise : Nat}
    (hwe : 10 ≤ we) (hrise : 15 ≤ rise) (hup : mpUp s = true) (hok : mpFault a.toNat true s = none) (hlc : s.lc ≠ .retn) :
    exec (.meterPortWrite a d be we rise) s
      = .next { s with meter := portStore a.toNat d be s.meter, pmon := s.pmon.count 0x81 0 1 } := by
  rw [execMeterPortWrite_strobed hwe hrise,
    writeCycle_stores (m := portStore a.toNat d be s.meter) hq hup hok hlc (by simp only [portWrite, ha, if_true])]

theorem storeWrite_dropped {a : BitVec 20} {s : State} (hq : quiet s = true) (d : BitVec 16) (be : BitVec 2) {we rise : Nat}
    (h : we < 10 ∨ rise < 15 ∨ mpUp s = false ∨ (mpFault a.toNat true s = none ∧ s.lc = .retn)) :
    exec (.meterPortWrite a d be we rise) s = .next s := by
  by_cases hstrobes : 10 ≤ we ∧ 15 ≤ rise
  · rw [execMeterPortWrite_strobed hstrobes.1 hstrobes.2, writeCycle_dropped hq ?_]
    rcases h with h | h | h
    · omega
    · omega
    · exact h
  · simp only [exec, execMeterPortWrite, hstrobes, if_false]

/-- Settles O40. -/
theorem meterWordsReadAsWritten : Obligations.MeterWordsReadAsWritten := by
  intro a s ha hq
  refine ⟨storeRead_drives ha hq, fun hup => ?_, fun d be we rise hwe hrise hup hok hlc => ?_, fun d be we rise h => ?_,
    fun hup hok hlc => ⟨fun page => ?_, fun hopen => ?_, fun hnone => ?_, ?_⟩⟩
  · exact to_of_eq (t := drew (drive ((Config.freeValue s.free).toNat % 65536) s)) (by simp [exec, execMeterPortRead, hup]) rfl
  · refine to_of_eq (storeWrite_acts ha hq d be hwe hrise hup hok hlc) ⟨rfl, fun hword => ?_, portStore_reserved d be s.meter,
      fun b => portByte_portStore_other d be s.meter, portStore_of_group d be s.meter, portStore_only ..⟩
    exact portStore_acts d be s.meter (by simp [storeWord, ha, hword])
  · exact to_of_eq (storeWrite_dropped hq d be h) rfl
  · exact to_of_eq rfl (writeCycle_stores hq hup hok hlc rfl)
  · have hcommit : s.meter.commit = (s.meter.shadowMask.foldl (fun y x => y.put x (mread s.meter.shadow x)) s.meter).dropGroup := by
      simp only [Meter.commit, hopen, if_true]
    refine to_of_eq (congrArg Host.Outcome.next (writeCycle_stores hq hup hok hlc rfl)) ?_
    simp only [hcommit, Meter.dropGroup]
    exact ⟨mirror_of_put_all _ _ _, by rw [put_all_only]⟩
  · exact to_of_eq rfl (writeCycle_stores (m := s.meter) hq hup hok hlc (by simp [Meter.commit, hnone]))
  · exact to_of_eq rfl (writeCycle_stores hq hup hok hlc rfl)

/-! ## Counters: increments and windows (R397, R398) -/

theorem ctrOf_addCounter (c n v : Nat) (s : State) :
    ctrOf (addCounter c v s) n = if n = c then { ctrOf s c with live := min ((ctrOf s c).live + v) (2 ^ 56 - 1) } else ctrOf s n := by
  split
  case isTrue h => subst h; exact tgetD_tset_self ..
  case isFalse h => exact tgetD_tset_ne _ _ _ h

theorem mem_dirtyCtrs_addCounter (c n v : Nat) (s : State) : n ∈ (addCounter c v s).dirtyCtrs ↔ n = c ∨ n ∈ s.dirtyCtrs := by
  simp only [addCounter]
  split
  case isTrue h =>
    have hc : c ∈ s.dirtyCtrs := by simpa using h
    exact ⟨.inr, fun hn => hn.elim (fun e => e ▸ hc) id⟩
  case isFalse => simp [or_comm]

theorem hasRoom_iff (c : Nat) (s : State) :
    (s.dirtyCtrs.contains c || decide (s.dirtyCtrs.length < dirtyLimit)) = true ↔ c ∈ s.dirtyCtrs ∨ s.dirtyCtrs.length < 64 := by
  rw [Bool.or_eq_true, List.contains_iff_mem, decide_eq_true_iff]
  rfl

theorem increment_counts {c v : Nat} {s : State} (hlive : (ctrOf s c).lost = false)
    (hroom : c ∈ s.dirtyCtrs ∨ s.dirtyCtrs.length < 64 ∨ s.meter.forcedBusy = false) :
    increment c v 3 s = count 0x82 0 1 (addCounter c v { s with
      meter := { s.meter with forcedBusy := s.meter.forcedBusy || (!s.dirtyCtrs.contains c && decide (64 ≤ s.dirtyCtrs.length)) } }) := by
  by_cases hin : c ∈ s.dirtyCtrs ∨ s.dirtyCtrs.length < 64
  · have hnone : (!s.dirtyCtrs.contains c && decide (64 ≤ s.dirtyCtrs.length)) = false := by
      rcases hin with h | h <;> simp [h]
    simp only [increment, hlive, (hasRoom_iff c s).mpr hin, hnone, Bool.or_false]
    rfl
  · have hroom' : (s.dirtyCtrs.contains c || decide (s.dirtyCtrs.length < dirtyLimit)) = false :=
      Bool.eq_false_iff.mpr (mt (hasRoom_iff c s).mp hin)
    obtain ⟨hclean, hfull⟩ := not_or.mp hin
    have hfree : s.meter.forcedBusy = false := (hroom.resolve_left hclean).resolve_left hfull
    have hforced : (!s.dirtyCtrs.contains c && decide (64 ≤ s.dirtyCtrs.length)) = true := by
      simp [hclean, not_lt.mp hfull]
    simp only [increment, hlive, hroom', hfree, hforced, Bool.or_true]
    rfl

/-- Nothing shows a counter in SRAM that moves. -/
theorem settle_counted {s : State} (hq : quiet s = true) (ctrs : Tab Counter) (dirty : List Nat) (m : Meter) (p : Pmon) :
    settle s { s with nv := { s.nv with ctrs := ctrs }, dirtyCtrs := dirty, meter := m, pmon := p }
      = { s with nv := { s.nv with ctrs := ctrs }, dirtyCtrs := dirty, meter := m, pmon := p } :=
  settle_same hq rfl rfl rfl rfl rfl rfl

theorem execMeterIncrement_of {c : Nat} (v : BitVec 16) (be : BitVec 2) (s : State) (hc : c < 4096) :
    exec (.meterIncrement c v be) s = .next (writeCycle (0x24000 + c) (increment c v.toNat be) s) := by
  simp [exec, execMeterIncrement, hc]

section
variable {c : Nat} {s : State} (v : BitVec 16) (hc : c < 4096) (hq : quiet s = true) (hup : mpUp s = true)
  (hok : mpFault (0x24000 + c) true s = none) (hlc : s.lc ≠ .retn)
include hc hq hup hok hlc

theorem meterIncrement_adds (hlive : (ctrOf s c).lost = false)
    (hroom : c ∈ s.dirtyCtrs ∨ s.dirtyCtrs.length < 64 ∨ s.meter.forcedBusy = false) :
    To (.meterIncrement c v 3) s fun t =>
      ctrOf t c = { ctrOf s c with live := min ((ctrOf s c).live + v.toNat) (2 ^ 56 - 1) } ∧ c ∈ t.dirtyCtrs
        ∧ (∀ n, n ≠ c → ctrOf t n = ctrOf s n ∧ (n ∈ t.dirtyCtrs ↔ n ∈ s.dirtyCtrs))
        ∧ t = { s with
            nv := { s.nv with ctrs := t.nv.ctrs }, dirtyCtrs := t.dirtyCtrs, pmon := t.pmon
            meter := { s.meter with
              forcedBusy := s.meter.forcedBusy || (!s.dirtyCtrs.contains c && decide (64 ≤ s.dirtyCtrs.length)) } } := by
  have hexec := execMeterIncrement_of v 3 s hc
  rw [writeCycle_serves hup hok hlc, increment_counts hlive hroom] at hexec
  refine to_of_eq (hexec.trans (congrArg Host.Outcome.next (settle_counted hq _ _ _ _))) ⟨(ctrOf_addCounter ..).trans (if_pos rfl),
    (mem_dirtyCtrs_addCounter c c v.toNat _).mpr (.inl rfl), fun n hn => ⟨?_, ?_⟩, rfl⟩
  · exact (ctrOf_addCounter ..).trans (if_neg hn)
  · exact (mem_dirtyCtrs_addCounter c n v.toNat _).trans (or_iff_right hn)

theorem meterIncrement_without_enable {be : BitVec 2} (hbe : be ≠ 3) :
    To (.meterIncrement c v be) s fun t => t = { s with meter := { s.meter with beErr := true }, pmon := s.pmon.count 0x81 0 1 } := by
  refine to_of_eq (execMeterIncrement_of v be s hc) (writeCycle_stores hq hup hok hlc ?_)
  simp only [increment, ne_eq, hbe, not_false_eq_true, if_true]

theorem meterIncrement_of_lost (hlost : (ctrOf s c).lost = true) :
    To (.meterIncrement c v 3) s fun t => t = { s with pmon := s.pmon.count 0x81 0 1 } := by
  refine to_of_eq (execMeterIncrement_of v 3 s hc) (writeCycle_stores (m := s.meter) hq hup hok hlc ?_)
  simp [increment, hlost]

theorem meterIncrement_dropped (hlive : (ctrOf s c).lost = false) (hclean : c ∉ s.dirtyCtrs) (hfull : 64 ≤ s.dirtyCtrs.length)
    (hbusy : s.meter.forcedBusy = true) :
    To (.meterIncrement c v 3) s fun t =>
      Notified { s with meter := { s.meter with incDrop := true }, ev := (event 0x0B02 c s).ev } t := by
  have hin : (s.dirtyCtrs.contains c || decide (s.dirtyCtrs.length < dirtyLimit)) = false :=
    Bool.eq_false_iff.mpr (mt (hasRoom_iff c s).mp (not_or.mpr ⟨hclean, not_lt.mpr hfull⟩))
  have hinc : increment c v.toNat 3 s = event 0x0B02 c { s with meter := { s.meter with incDrop := true } } := by
    simp only [increment, hlive, hin, hbusy]
    rfl
  have hexec := execMeterIncrement_of v 3 s hc
  rw [writeCycle_serves hup hok hlc, hinc] at hexec
  refine to_of_settle hexec ?_ fun t ht => ?_
  · exact (quiet_event ..).trans hq
  · have hn := told_of_event s (notified_trans (notified_count _ _ _ _) ht) rfl rfl rfl rfl rfl
    exact hn

end

theorem windowRead_latches (c : Nat) (s : State) :
    windowRead c 0 s = drive (ctrVal s c % 65536)
      { s with meter := { s.meter with winOf := c, winVal := ctrVal s c, winLost := (ctrOf s c).lost } } := by
  simp [windowRead, windowWord]

theorem windowRead_of_latch {c k : Nat} {s : State} (hk : k ≠ 0) (hof : s.meter.winOf = c) :
    windowRead c k s = drive (windowWord s.meter.winVal s.meter.winLost k) s := by
  simp [windowRead, hk, hof]

theorem counterWindowRead_latches {c : Nat} {s : State} (hc : c < 4096) (hq : quiet s = true) (hup : mpUp s = true)
    (hok : mpFault (0x20000 + 4 * c) false s = none) :
    To (.counterWindowRead c) s fun t =>
      t = { s with
        meter := { s.meter with winOf := c, winVal := ctrVal s c, winLost := (ctrOf s c).lost }
        out := s.out ++ [.mp (BitVec.ofNat 16 (ctrVal s c % 65536))]
        pmon := s.pmon.count 0x80 0 1 } := by
  have hexec : exec (.counterWindowRead c) s = .next (readCycle (0x20000 + 4 * c) (windowRead c 0) s) := by
    simp [exec, execCounterWindowRead, hc]
  exact to_of_eq hexec (readCycle_drives hq hup hok (windowRead_latches c s))

theorem windowPortRead_drives {c k : Nat} {a : BitVec 20} {s : State} (hc : c < 4096) (hq : quiet s = true) (hup : mpUp s = true)
    (hk : 1 ≤ k) (hk3 : k ≤ 3) (ha : a.toNat = 0x20000 + 4 * c + k) (hok : mpFault a.toNat false s = none) (hof : s.meter.winOf = c) :
    To (.meterPortRead a true) s fun t =>
      t = { s with
        out := s.out ++ [.mp (BitVec.ofNat 16 (windowWord s.meter.winVal s.meter.winLost k))], pmon := s.pmon.count 0x80 0 1 } := by
  have hread : portRead a.toNat s = drive (windowWord s.meter.winVal s.meter.winLost k) { s with meter := s.meter } := by
    have hin : ¬ a.toNat < 0x20000 ∧ a.toNat < 0x24000 ∧ (a.toNat - 0x20000) / 4 = c ∧ a.toNat % 4 = k := by omega
    obtain ⟨h1, h2, h3, h4⟩ := hin
    rw [portRead, if_neg h1, if_pos h2, h3, h4, windowRead_of_latch (by omega) hof]
  exact to_of_eq rfl (readCycle_drives hq hup hok hread)

/-- The four words of a window spell its value (R397). -/
theorem windowWords_spell {v : Nat} (hv : v < 2 ^ 56) (lost : Bool) :
    windowWord v lost 0 + 2 ^ 16 * windowWord v lost 1 + 2 ^ 32 * windowWord v lost 2 + 2 ^ 48 * (windowWord v lost 3 % 256) = v := by
  simp only [windowWord, Nat.reduceLT, if_true, if_false, Nat.reduceMul, Nat.reducePow]
  omega

/-- Settles O41. -/
theorem countersThroughTheMeterPort : Obligations.CountersThroughTheMeterPort := by
  refine ⟨fun c v s hc hlc hup hok hq => ⟨?_, fun be => ?_, ?_, ?_⟩, fun c s hc hq hup => ⟨?_, fun k a hk hk3 ha hok hof => ?_, fun v hv lost => ?_⟩⟩
  · exact meterIncrement_adds v hc hq hup hok hlc
  · exact meterIncrement_without_enable v hc hq hup hok hlc
  · exact meterIncrement_of_lost v hc hq hup hok hlc
  · exact meterIncrement_dropped v hc hq hup hok hlc
  · exact counterWindowRead_latches hc hq hup
  · exact windowPortRead_drives hc hq hup hk hk3 ha hok hof
  · exact windowWords_spell hv lost

end Sys2Proof.MeterPort
end

section
/-! # What a host command that is taken answers -/
namespace Sys2Proof.Replies
open Sys2Proof Sys2Proof.Machine Sys2Proof.Told

section
variable {i : Instr} {op : Nat} {r : Req} {need : Option Nat} {run : State → Reply} {s u : State} {status detail : Nat} {body : Bytes}

/-- A command that is taken and answered at once: what holds of the answer and of the state behind it. -/
theorem to_of_done {P : State → Prop} (hexec : exec i s = .next (command i op r need run s)) (h : accepts op r need s = true)
    (hrun : run s = .done u status detail body) (hq : quiet u = true)
    (hP : ∀ t, Answered op r status detail body t → Responded r u t → P t) : To i s P := by
  obtain ⟨ha, hr⟩ := command_answers h hrun hq i
  exact ⟨_, hexec, hP _ ha hr⟩

theorem answers_of_done (hexec : exec i s = .next (command i op r need run s)) (h : accepts op r need s = true)
    (hrun : run s = .done u status detail body) (hq : quiet u = true) :
    To i s fun t => Answered op r status detail body t ∧ Responded r u t :=
  to_of_done hexec h hrun hq fun _ ha hr => ⟨ha, hr⟩

theorem does_of_done (hexec : exec i s = .next (command i op r need run s)) (h : accepts op r need s = true)
    (hrun : run s = .done u stOk 0 body) (hq : quiet u = true) : Does i op r s body u :=
  answers_of_done hexec h hrun hq

theorem waits_of_wait {obj : Nat} (hexec : exec i s = .next (command i op r need run s)) (h : accepts op r need s = true)
    (hrun : run s = .wait u obj body) : To i s (Waits op r obj) := ⟨_, hexec, command_waits h hrun i⟩

end

/-- The state in which a command's mailbox is busy until what it waits for has come. -/
def waiting (op : Nat) (r : Req) (obj : Nat) (body : Bytes) (u : State) : State :=
  { modMbx r.fn r.mbx (fun m => { m with busy := true }) u with
    waiters := u.waiters ++ [{ req := r, op := op, obj := obj, body := body }] }

theorem to_of_wait {i : Instr} {op : Nat} {r : Req} {need : Option Nat} {run : State → Reply} {s u : State} {obj : Nat} {body : Bytes}
    {P : State → Prop} (hexec : exec i s = .next (command i op r need run s)) (h : accepts op r need s = true)
    (hrun : run s = .wait u obj body) (hq : quiet u = true)
    (hP : ∀ t, Waits op r obj t → Notified (waiting op r obj body u) t → P t) : To i s P := by
  refine ⟨_, hexec, hP _ (command_waits h hrun i) ?_⟩
  rw [command_accepts h, runCommand, admission_of_accepts h, hrun]
  exact settle_quiet s hq

/-- A response that comes later, once nothing else completes with it. -/
theorem to_of_response {i : Instr} {op : Nat} {r : Req} {s u : State} {status detail : Nat} {body : Bytes}
    (hexec : exec i s = .next (settle s (respond op r status detail body u))) (hq : quiet u = true) :
    To i s fun t => Answered op r status detail body t ∧ Responded r u t := by
  have hn := settle_quiet s (s := respond op r status detail body u) (by simpa using hq)
  exact ⟨_, hexec, answered_of_notified (answered_respond ..) hn, responded_of_notified (responded_respond ..) hn⟩

/-- The one command that waits is answered. -/
theorem answerAll_single {p : Waiter → Bool} {reply : Waiter → Nat × Nat × Bytes} {s : State} {w : Waiter} (hw : s.waiters = [w])
    (hp : p w = true) (horphan : w.orphan = false) :
    answerAll p reply s = respond w.op w.req (reply w).1 (reply w).2.1 (reply w).2.2 { s with waiters := [] } := by
  simp [answerAll, hw, hp, answerWaiter, horphan]

/-! What a response leaves. -/
section
variable {r : Req} {s t : State} (h : Responded r s t)
include h
theorem pwr_of_responded : t.pwr = s.pwr := by rw [h.1]
theorem lc_of_responded : t.lc = s.lc := by rw [h.1]
theorem nv_of_responded : t.nv = s.nv := by rw [h.1]
theorem jrn_of_responded : t.jrn = s.jrn := by rw [h.1]
theorem work_of_responded : t.work = s.work := by rw [h.1]
theorem queues_of_responded : t.queues = s.queues := by rw [h.1]
theorem lanes_of_responded : t.lanes = s.lanes := by rw [h.1]
theorem banks_of_responded : t.banks = s.banks := by rw [h.1]
theorem meter_of_responded : t.meter = s.meter := by rw [h.1]
theorem gates_of_responded : t.gates = s.gates := by rw [h.1]
theorem epoch_of_responded : t.epoch = s.epoch := by rw [h.1]
theorem keys_of_responded : t.keys = s.keys := by rw [h.1]
theorem dgu1_of_responded : t.dgu1 = s.dgu1 := by rw [h.1]
theorem ev_of_responded : t.ev = s.ev := by rw [h.1]
theorem otp_of_responded : t.otp = s.otp := by rw [h.1]
theorem lark_of_responded : t.lark = s.lark := by rw [h.1]
theorem opsec_of_responded : t.opsec = s.opsec := by rw [h.1]
theorem tamper_of_responded : t.tamper = s.tamper := by rw [h.1]
theorem waiters_of_responded : t.waiters = s.waiters := by rw [h.1]

/-- The answer of a state and of one that differs from it in records of events only. -/
theorem responded_of_event {code arg : Nat} {ext : Bytes} {s' : State} (hs : s = eventX code arg ext s') :
    Responded r { s' with ev := s.ev } t := by
  subst hs
  obtain ⟨e, f, m⟩ := h
  have hn := eventX_notified code arg ext s'
  refine ⟨?_, f.trans hn.2, fun k hk => (m k hk).trans ?_⟩
  · rw [e]
    conv_lhs => rw [hn.1]
  · rw [hn.1]
/-- The same where the event is recorded in a state that differs from `s₀` in nothing that a record tells. -/
theorem responded_of_told {code arg : Nat} {ext : Bytes} {u : State} (s₀ : State) (hs : s = eventX code arg ext u)
    (hphase : u.pwr.phase = s₀.pwr.phase) (hev : u.ev = s₀.ev) (hdiag : u.diag = s₀.diag) (hopsec : u.opsec = s₀.opsec)
    (hcyc : u.pwrCyc = s₀.pwrCyc) : Responded r { u with ev := (eventX code arg ext s₀).ev } t := by
  have hr := responded_of_event h hs
  rw [hs, eventX_ev_congr hphase hev hdiag hopsec hcyc] at hr
  exact hr

end

end Sys2Proof.Replies
end

section
/-! # The meter commands of the host (O43) -/
namespace Sys2Proof.HostMeter
open Sys2Proof Sys2Proof.Machine Sys2Proof.Told Sys2Proof.Replies Sys2Proof.MeterPort

/-! ## Words of a request body -/

theorem slice_two (b : Bytes) {off : Nat} (h : off + 1 < b.length) : slice b off 2 = [b[off], b[off + 1]] := by
  apply List.ext_getElem
  · simp [slice]
    omega
  · intro i h1 h2
    match i with
    | 0 => simp [slice]
    | 1 => simp [slice]

theorem num_two (b : Bytes) {off : Nat} (h : off + 1 < b.length) : num b off 2 = b[off].toNat + 256 * b[off + 1].toNat := by
  rw [num, slice_two b h]
  simp [leVal]

/-! ## The words that METER_WRITE stores (R402) -/

@[simp] theorem put_mirror (a : Nat) (b : Byte) (m : Meter) : (m.put a b).mirror = mwrite m.mirror a b := by simp [Meter.put]

theorem hostStore_only (b : Bytes) (m : Meter) (w : Nat) :
    hostStore m w b = { m with mirror := (hostStore m w b).mirror, dirty := (hostStore m w b).dirty } := by
  induction m, w, b using hostStore.induct with
  | case1 m w b0 b1 rest ih =>
    rw [hostStore, ih]
    split
    · rw [put_only, put_only]
    · rfl
  | case2 b m w hshort => rw [hostStore]; exact hshort

/-- Outside the words of the write, and at the reserved words of a page, the mirror keeps its bytes. -/
theorem mread_hostStore_out (b : Bytes) (m : Meter) (w : Nat) {x : Nat}
    (h : x / 2 < w ∨ w + b.length / 2 ≤ x / 2 ∨ storeWord (x / 2) = false) : mread (hostStore m w b).mirror x = mread m.mirror x := by
  induction m, w, b using hostStore.induct with
  | case1 m w b0 b1 rest ih =>
    simp only [List.length_cons] at h
    have hrest : x / 2 < w + 1 ∨ w + 1 + rest.length / 2 ≤ x / 2 ∨ storeWord (x / 2) = false := by
      rcases h with h | h | h
      · omega
      · omega
      · exact .inr (.inr h)
    rw [hostStore, ih hrest]
    split
    case isTrue hw =>
      have hword : x / 2 ≠ w := by
        rintro rfl
        simp only [hw, Bool.true_eq_false, or_false] at h
        omega
      have hx : x ≠ 2 * w ∧ x ≠ 2 * w + 1 := by omega
      rw [put_mirror, put_mirror, mread_mwrite_ne _ _ hx.2, mread_mwrite_ne _ _ hx.1]
    case isFalse => rfl
  | case2 b m w hshort => rw [hostStore]; exact hshort

theorem mread_hostStore_in (b : Bytes) (m : Meter) (w i : Nat) (hi : 2 * i + 1 < b.length) (hs : storeWord (w + i) = true) :
    mread (hostStore m w b).mirror (2 * (w + i)) = b[2 * i] ∧ mread (hostStore m w b).mirror (2 * (w + i) + 1) = b[2 * i + 1] := by
  induction m, w, b using hostStore.induct generalizing i with
  | case1 m w b0 b1 rest ih =>
    rw [hostStore]
    cases i with
    | zero =>
      rw [mread_hostStore_out _ _ _ (by omega), mread_hostStore_out _ _ _ (by omega)]
      simp only [Nat.add_zero] at hs ⊢
      simp [hs, put_mirror]
    | succ i =>
      have h := ih i (by simp only [List.length_cons] at hi; omega) (by rw [← hs]; congr 1; omega)
      have hw : w + (i + 1) = w + 1 + i := by omega
      simpa only [hw, Nat.mul_add, List.getElem_cons_succ] using h
  | case2 b m w hshort =>
    match b, hi with
    | b0 :: b1 :: rest, _ => exact absurd rfl (hshort b0 b1 rest)

theorem mirrorWord_hostStore (b : Bytes) (m : Meter) (w i : Nat) (hi : 2 * i + 1 < b.length) (hs : storeWord (w + i) = true) :
    mirrorWord (hostStore m w b) (w + i) = b[2 * i].toNat + 256 * b[2 * i + 1].toNat := by
  obtain ⟨h0, h1⟩ := mread_hostStore_in b m w i hi hs
  simp only [mirrorWord, hs, if_true, mreads, leVal, h0, h1, Nat.mul_zero, Nat.add_zero]

/-! ## The commands -/

theorem meterRange_ok {r : Req} (h1 : 1 ≤ fld r 4 2) (hmax : fld r 4 2 ≤ 2036) (hin : fld r 0 4 + fld r 4 2 ≤ 0x20000) :
    meterRangeBad r = none := by
  simp only [meterRangeBad, firstBad]
  rw [if_neg (by simp; omega), if_neg (by simp; omega)]

theorem meterRead_does {r : Req} {s : State} (hq : quiet s = true) (h : accepts 0x0B02 r (some 8) s = true) (h1 : 1 ≤ fld r 4 2)
    (hmax : fld r 4 2 ≤ 2036) (hin : fld r 0 4 + fld r 4 2 ≤ 0x20000) (hrsv : fld r 6 2 = 0) :
    Does (.meterRead r) 0x0B02 r s
      (r.body.take 8 ++ ((List.range (fld r 4 2)).map fun i => le 2 (mirrorWord s.meter (fld r 0 4 + i))).flatten) s :=
  does_of_done rfl h (by simp [meterReadRun, meterRange_ok h1 hmax hin, hrsv, slice, mirrorWords]) hq

theorem meterWrite_acts {r : Req} {s : State} (hq : quiet s = true) (h : accepts 0x0B03 r none s = true) (hlc : s.lc ≠ .retn)
    (h1 : 1 ≤ fld r 4 2) (hmax : fld r 4 2 ≤ 2036) (hin : fld r 0 4 + fld r 4 2 ≤ 0x20000) (hrsv : fld r 6 2 = 0)
    (hlen : r.body.length = 8 + 2 * fld r 4 2) :
    To (.meterWrite r) s fun t =>
      Answered 0x0B03 r stOk 0 [] t
        ∧ Responded r { s with meter := t.meter, ev := (eventX 0x0B04 (fld r 0 4) (le 2 (fld r 4 2)) s).ev } t
        ∧ (∀ i, i < fld r 4 2 → (fld r 0 4 + i) % 128 < 124 → mirrorWord t.meter (fld r 0 4 + i) = num r.body (8 + 2 * i) 2)
        ∧ (∀ w, (w < fld r 0 4 ∨ fld r 0 4 + fld r 4 2 ≤ w ∨ 124 ≤ w % 128) →
            mread t.meter.mirror (2 * w) = mread s.meter.mirror (2 * w) ∧ mread t.meter.mirror (2 * w + 1) = mread s.meter.mirror (2 * w + 1))
        ∧ t.meter = { s.meter with mirror := t.meter.mirror, dirty := t.meter.dirty } := by
  have hrun : meterWriteRun r s = .done (eventX 0x0B04 (fld r 0 4) (le 2 (fld r 4 2))
      { s with meter := hostStore s.meter (fld r 0 4) (r.body.drop 8) }) stOk 0 [] := by
    simp [meterWriteRun, meterRange_ok h1 hmax hin, hlen, hrsv, hlc]
  refine to_of_done rfl h hrun ?_ fun t ha hr => ?_
  · exact (quiet_eventX ..).trans hq
  have hmeter : t.meter = hostStore s.meter (fld r 0 4) (r.body.drop 8) := (meter_of_responded hr).trans (eventX_meter ..)
  refine ⟨ha, ?_, fun i hi hword => ?_, fun w hw => ?_, ?_⟩
  · rw [hmeter]
    exact responded_of_told hr s rfl rfl rfl rfl rfl rfl
  · rw [hmeter, mirrorWord_hostStore _ _ _ _ (by simp [hlen]; omega) (by simp [storeWord, hword]; omega),
      num_two _ (by omega)]
    simp [Nat.add_assoc]
  · rw [hmeter]
    have hout : ∀ k < 2, (2 * w + k) / 2 < fld r 0 4 ∨ fld r 0 4 + (r.body.drop 8).length / 2 ≤ (2 * w + k) / 2
        ∨ storeWord ((2 * w + k) / 2) = false := by
      intro k hk
      have hword : (2 * w + k) / 2 = w := by omega
      have hcount : (r.body.drop 8).length / 2 = fld r 4 2 := by simp [hlen]
      rw [hword, hcount]
      simp only [storeWord, Bool.and_eq_false_iff, decide_eq_false_iff_not]
      omega
    exact ⟨mread_hostStore_out _ _ _ (hout 0 (by omega)), mread_hostStore_out _ _ _ (hout 1 (by omega))⟩
  · rw [hmeter]
    exact hostStore_only ..

theorem gateOf_setGate_ne (es : Tab GEntry) (s : State) {g k : Nat} (h : k ≠ g) : gateOf (setGate g es s) k = gateOf s k := by
  simp [gateOf, setGate, modAt, List.getD_eq_getElem?_getD, Ne.symm h]

theorem meterProtect_runs {r : Req} {s : State} (hlevel : fld r 0 1 ≤ 3) (hhide : fld r 1 1 ≤ 16)
    (hboth : fld r 1 1 ≠ 0 → fld r 0 1 ≠ 0) (hlock : fld r 2 1 ≤ 1) (hrsv : fld r 3 1 = 0) :
    meterProtectRun r s =
      if s.meter.locked then .refuse s stBusyOwned 0
      else .done (event 0x0B03 (fld r 0 1 + 4 * fld r 1 1 + 128 * b2n (fld r 2 1 == 1)) (bumpEpoch (applyProtection (fld r 0 1) (fld r 1 1)
        { s with
          nv := { s.nv with meterProt := AB.update s.nv.meterProt (fld r 0 1, fld r 1 1) }
          meter := { s.meter with locked := fld r 2 1 == 1 } }))) stOk 0 (r.body.take 4 ++ le 8 (s.epoch + 1)) := by
  have hform : firstBad [(decide (3 < fld r 0 1), 16), (decide (16 < fld r 1 1) || (fld r 1 1 != 0 && fld r 0 1 == 0), 17),
      (decide (1 < fld r 2 1), 18), (fld r 3 1 != 0, 19)] = none := by
    simp only [firstBad]
    rw [if_neg (by simpa using hlevel), if_neg (by simpa using ⟨hhide, hboth⟩), if_neg (by simpa using hlock), if_neg (by simpa using hrsv)]
  simp only [meterProtectRun, hform, event_epoch]
  rfl

theorem ctrRead_does {r : Req} {s : State} (hq : quiet s = true) (h : accepts 0x0B01 r (some 4) s = true) (h1 : 1 ≤ fld r 2 2)
    (hmax : fld r 2 2 ≤ 255) (hin : fld r 0 2 + fld r 2 2 ≤ 4096) :
    Does (.ctrRead r) 0x0B01 r s ((List.range (fld r 2 2)).map fun i => ctrRecord s (fld r 0 2 + i)).flatten s := by
  have hform : firstBad [(decide (4095 < fld r 0 2), 16), (fld r 2 2 == 0 || decide (255 < fld r 2 2), 18),
      (decide (4096 < fld r 0 2 + fld r 2 2), 16)] = none := by
    simp only [firstBad]
    rw [if_neg (by simp; omega), if_neg (by simp; omega), if_neg (by simp; omega)]
  exact does_of_done rfl h (by simp only [ctrReadRun, hform]) hq

/-- Settles O43. -/
theorem hostMeterCommandsAct : Obligations.HostMeterCommandsAct := by
  intro r s hq
  refine ⟨meterRead_does hq, meterWrite_acts hq, fun h hlevel hhide hboth hlock hrsv => ⟨fun hopen => ?_, fun hlocked => ?_⟩, ctrRead_does hq⟩
  · have hrun := meterProtect_runs (s := s) hlevel hhide hboth hlock hrsv
    rw [hopen, if_neg Bool.false_ne_true] at hrun
    refine to_of_done rfl h hrun ?_ fun t ha hr => ⟨ha, ?_, ?_, fun g hg => ?_⟩
    · exact (quiet_event ..).trans hq
    · rw [nv_of_responded hr, event_nv]
      exact AB.value_update s.nv.meterProt _ _
    · have hev := responded_of_event (ext := []) hr rfl
      rw [nv_of_responded hr, gates_of_responded hr, ev_of_responded hr, event_nv, event_gates]
      exact hev
    · rw [gateOf, gates_of_responded hr, event_gates]
      exact gateOf_setGate_ne (mptEntries (fld r 0 1) (fld r 1 1)) s hg
  · have hrun := meterProtect_runs (s := s) hlevel hhide hboth hlock hrsv
    rw [hlocked, if_pos rfl] at hrun
    exact answers_of_done rfl h hrun hq

end Sys2Proof.HostMeter
end

section
/-! # The digest unit and its owner (O44) -/
namespace Sys2Proof.DigestUnit
open Sys2Proof Sys2Proof.Machine Sys2Proof.Told Sys2Proof.MeterPort

/-- A party's accesses at an offset reach DGU1. -/
def PartyReaches (p : DgParty) (off : Nat) (s : State) : Prop :=
  match p with
  | .host => barUp s 0 = true
  | .cabinet => mpUp s = true ∧ s.lc ≠ .retn ∧ mpFault (dguWord off) true s = none

/-- The performance monitor after a write of a party that compresses no block. -/
def pmonOf (p : DgParty) (s : State) : Pmon :=
  match p with
  | .host => s.pmon
  | .cabinet => s.pmon.count 0x81 0 1

/-- Blocks that a change of DGU1 compresses, as the monitor counts them. -/
def blocksOf (d d' : Dgu) : Nat := (d'.msg.length - (if d'.run = d.run then d.msg.length else 0)) / d'.block

theorem modDgu_eq (f : Dgu → Dgu) (s : State) :
    modDgu f s = if blocksOf s.dgu1 (f s.dgu1) = 0 then { s with dgu1 := f s.dgu1 }
      else count 0x71 0 (blocksOf s.dgu1 (f s.dgu1)) { s with dgu1 := f s.dgu1 } := rfl

theorem modDgu_only (f : Dgu → Dgu) (s : State) : modDgu f s = { s with dgu1 := f s.dgu1, pmon := (modDgu f s).pmon } := by
  rw [modDgu_eq]
  split <;> rfl

theorem modDgu_pmon {f : Dgu → Dgu} {s : State} (h : blocksOf s.dgu1 (f s.dgu1) = 0) : (modDgu f s).pmon = s.pmon := by
  rw [modDgu_eq, if_pos h]

/-- Nothing shows a digest unit that stays in service. -/
theorem settle_dgu {s : State} (hq : quiet s = true) {d : Dgu} (hd : d.inService = s.dgu1.inService) (p : Pmon) (o : List Out) (n : Nat) :
    settle s { s with dgu1 := d, pmon := p, out := o, free := n } = { s with dgu1 := d, pmon := p, out := o, free := n } := by
  have halert : alert { s with dgu1 := d, pmon := p, out := o, free := n } = alert s := by
    have hcause : alertCause { s with dgu1 := d, pmon := p, out := o, free := n } = alertCause s := by
      have hunit : unitOut { s with dgu1 := d, pmon := p, out := o, free := n } = unitOut s := by
        simp only [unitOut, hd]
        rfl
      simp only [alertCause, hunit]
      rfl
    simp only [alert, hcause]
    rfl
  exact settle_same hq rfl rfl rfl halert rfl rfl

/-- A write of a party that reaches DGU1: the unit alone changes, and the monitor counts (R404, R422). -/
theorem dguAccess_acts {p : DgParty} {off : Nat} {f : Dgu → Dgu} {s : State} (hup : PartyReaches p off s) (hq : quiet s = true)
    (hservice : (f s.dgu1).inService = s.dgu1.inService) :
    dguAccess p off f s = { s with dgu1 := f s.dgu1, pmon := (dguAccess p off f s).pmon }
      ∧ (blocksOf s.dgu1 (f s.dgu1) = 0 → (dguAccess p off f s).pmon = pmonOf p s) := by
  cases p with
  | host =>
    have haccess : dguAccess .host off f s = modDgu f s := if_pos hup
    rw [haccess]
    exact ⟨modDgu_only f s, modDgu_pmon⟩
  | cabinet =>
    obtain ⟨hmp, hlc, hok⟩ := hup
    have haccess : dguAccess .cabinet off f s = count 0x81 0 1 (modDgu f s) := by
      refine (writeCycle_serves hmp hok hlc).trans ?_
      rw [modDgu_only]
      exact settle_dgu hq hservice _ s.out s.free
    rw [haccess]
    refine ⟨?_, fun h => congrArg (·.count 0x81 0 1) (modDgu_pmon h)⟩
    conv_lhs => rw [modDgu_only]
    rfl

theorem to_of_access {i : Instr} {p : DgParty} {off : Nat} {f : Dgu → Dgu} {s : State} {d : Dgu} (hexec : exec i s = .next (dguAccess p off f s))
    (hup : PartyReaches p off s) (hq : quiet s = true) (hd : f s.dgu1 = d) (hservice : d.inService = s.dgu1.inService)
    (hblocks : blocksOf s.dgu1 d = 0) : To i s fun t => t = { s with pmon := pmonOf p s, dgu1 := d } := by
  subst hd
  obtain ⟨hform, hpmon⟩ := dguAccess_acts hup hq hservice
  rw [hpmon hblocks] at hform
  exact ⟨_, hexec, hform⟩

/-! ## What the owner's writes do -/

theorem by_owner {p : DgParty} {d : Dgu} (hin : d.withdrawn = false) (h : d.owner = ownerOf p) (f : Dgu → Dgu) : d.by p f = f d := by
  simp [Dgu.by, hin, h]

theorem by_other {p : DgParty} {d : Dgu} (hin : d.withdrawn = false) (h : d.owner ≠ ownerOf p) (f : Dgu → Dgu) :
    d.by p f = { d with denied := true } := by
  simp [Dgu.by, hin, h]

theorem ctrl_start {alg : BitVec 2} (h : alg ≠ 3) (d : Dgu) :
    Dgu.ctrl (256 + alg.toNat) d = { d with
      alg := alg, algRun := alg, msg := [], buf := [], done := false, count := 0, run := (d.run + 1) % 256, running := true } := by
  have : alg = 0 ∨ alg = 1 ∨ alg = 2 := by
    revert alg
    decide
  rcases this with rfl | rfl | rfl <;> rfl

theorem ctrl_finish {alg : BitVec 2} (h : alg ≠ 3) (d : Dgu) :
    Dgu.ctrl (512 + alg.toNat) d = { d with alg := alg, done := true, part := d.part || d.buf != [], buf := [] } := by
  have : alg = 0 ∨ alg = 1 ∨ alg = 2 := by
    revert alg
    decide
  rcases this with rfl | rfl | rfl <;> rfl

theorem block_pos (d : Dgu) : 0 < d.block := by
  unfold Dgu.block
  split <;> decide

theorem block_ge (d : Dgu) : 64 ≤ d.block := by
  unfold Dgu.block
  split <;> decide

/-- Appended bytes are all kept, in order, and what is buffered is less than a block (R405). -/
theorem append_keeps (b : Bytes) (d : Dgu) :
    (d.append b).msg ++ (d.append b).buf = d.msg ++ d.buf ++ b ∧ (d.append b).buf.length < d.block := by
  refine ⟨?_, ?_⟩
  · simp only [Dgu.append, List.append_assoc, List.take_append_drop]
  · simp only [Dgu.append, List.length_drop]
    have hmod := Nat.mod_lt (d.buf ++ b).length (block_pos d)
    have hdiv := Nat.div_add_mod (d.buf ++ b).length d.block
    rw [Nat.mul_comm] at hdiv
    omega

theorem data_restarts {b : Bytes} {d : Dgu} (hlen : b.length ≤ 8) (h : d.done = true) :
    d.data b = { d with
      algRun := d.alg, msg := [], buf := b, done := false, count := 0, run := (d.run + 1) % 256, running := true } := by
  have hwhole : b.length / d.begin_.block = 0 := Nat.div_eq_of_lt (by have := block_ge d.begin_; omega)
  have hb : d.begin_.buf = [] := rfl
  simp only [Dgu.data, h, if_true, Dgu.append, hb, List.nil_append, hwhole, Nat.zero_mul, List.take_zero, List.drop_zero]
  rfl

theorem blocksOf_restart {d d' : Dgu} (hmsg : d'.msg = []) : blocksOf d d' = 0 := by
  simp [blocksOf, hmsg]

theorem blocksOf_same {d d' : Dgu} (hmsg : d'.msg = d.msg) (hrun : d'.run = d.run) : blocksOf d d' = 0 := by
  simp [blocksOf, hmsg, hrun]

theorem length_of_width {p : DgParty} {b : Bytes} (h : dataWidthOk p b.length = true) : b.length ≤ 8 := by
  cases p <;> simp [dataWidthOk] at h <;> omega

/-- A read of the low word of a register (R404). -/
theorem dgLowWordRead_latches {off : Nat} {s : State} (hq : quiet s = true) (h4 : off % 4 = 0) (hup : mpUp s = true)
    (hok : mpFault (0x2A000 + off / 2) false s = none) :
    To (.dgLowWordRead off) s fun t =>
      t = { s with
        pmon := s.pmon.count 0x80 0 1
        out := s.out ++ [.mp (BitVec.ofNat 16 (s.dgu1.reg .cabinet s.free off % 65536))]
        dgu1 := { s.dgu1 with latch := BitVec.ofNat 16 (s.dgu1.reg .cabinet s.free off / 65536), latchOf := off }
        free := s.free + 1 } := by
  have hoff : off / 4 * 4 = off := by omega
  have hexec : exec (.dgLowWordRead off) s = .next (readCycle (0x2A000 + off / 2) (dguPortRead off) s) := by
    simp only [dguWord, exec, execDgLowWordRead, hoff]
  have hread : dguPortRead off s = drew (drive (s.dgu1.reg .cabinet s.free off % 65536) { s with
      dgu1 := { s.dgu1 with latch := BitVec.ofNat 16 (s.dgu1.reg .cabinet s.free off / 65536), latchOf := off } }) := by
    simp only [dguPortRead, hoff, h4, Nat.zero_lt_two, if_true]
  rw [readCycle_serves hup hok, hread] at hexec
  refine to_of_eq hexec ?_
  generalize s.dgu1.reg .cabinet s.free off = v
  have hform : count 0x80 0 1 (drew (drive (v % 65536) { s with
      dgu1 := { s.dgu1 with latch := BitVec.ofNat 16 (v / 65536), latchOf := off } }))
      = { s with
          dgu1 := { s.dgu1 with latch := BitVec.ofNat 16 (v / 65536), latchOf := off }, pmon := s.pmon.count 0x80 0 1
          out := s.out ++ [.mp (BitVec.ofNat 16 (v % 65536))], free := s.free + 1 } := rfl
  rw [hform]
  have hk := settle_dgu (d := { s.dgu1 with latch := BitVec.ofNat 16 (v / 65536), latchOf := off }) hq rfl (s.pmon.count 0x80 0 1)
    (s.out ++ [.mp (BitVec.ofNat 16 (v % 65536))]) (s.free + 1)
  generalize BitVec.ofNat 16 (v / 65536) = x at hk ⊢
  generalize BitVec.ofNat 16 (v % 65536) = y at hk ⊢
  exact hk

/-- Settles O44. -/
theorem digestUnitServesItsOwner : Obligations.DigestUnitServesItsOwner := by
  intro p s m hup hm hq hin
  have hreach : ∀ off, off = 0 ∨ off = 0xC ∨ off = 0x40 → PartyReaches p off s := by
    rintro off hoff
    cases p with
    | host => exact hup
    | cabinet =>
      obtain ⟨hmp, hlc, h0, h6, h20⟩ := hup
      rcases hoff with rfl | rfl | rfl
      · exact ⟨hmp, hlc, h0⟩
      · exact ⟨hmp, hlc, h6⟩
      · exact ⟨hmp, hlc, h20⟩
  obtain rfl : m = pmonOf p s := by
    cases p <;> exact hm
  refine ⟨fun hown => ⟨fun alg halg => ?_, fun b hb hdone => ?_, fun b hb hdone => ?_, fun alg halg => ?_, ?_⟩, fun hfree => ?_,
    fun hother alg => ?_, fun hown => ?_, fun off _ h4 => dgLowWordRead_latches hq h4⟩
  · exact to_of_access rfl (hreach 0 (by simp)) hq ((by_owner hin hown _).trans (ctrl_start halg _)) rfl (blocksOf_restart rfl)
  · have hexec : exec (.dgData p b false) s = .next (dguAccess p 0x40 (Dgu.by p (Dgu.data b)) s) := by
      simp [exec, execDgData, hb]
    have hd : s.dgu1.by p (Dgu.data b) = s.dgu1.append b := by
      rw [by_owner hin hown, Dgu.data, hdone, if_neg Bool.false_ne_true]
    obtain ⟨hform, -⟩ := dguAccess_acts (f := Dgu.by p (Dgu.data b)) (hreach 0x40 (by simp)) hq (by rw [hd]; rfl)
    obtain ⟨hkeep, hbuf⟩ := append_keeps b s.dgu1
    have hdgu : (dguAccess p 0x40 (Dgu.by p (Dgu.data b)) s).dgu1 = s.dgu1.append b := by rw [hform, hd]
    refine to_of_eq hexec ?_
    rw [hdgu]
    exact ⟨hkeep, hbuf, rfl, by rw [hform, hd]⟩
  · have hexec : exec (.dgData p b false) s = .next (dguAccess p 0x40 (Dgu.by p (Dgu.data b)) s) := by
      simp [exec, execDgData, hb]
    exact to_of_access hexec (hreach 0x40 (by simp)) hq ((by_owner hin hown _).trans (data_restarts (length_of_width hb) hdone)) rfl
      (blocksOf_restart rfl)
  · obtain ⟨t, hexec, ht⟩ := to_of_access (i := .dgFinish p alg) rfl (hreach 0 (by simp)) hq
      ((by_owner hin hown _).trans (ctrl_finish halg _)) rfl (blocksOf_same rfl rfl)
    refine ⟨t, hexec, ht, fun hrun seed => ?_⟩
    rw [ht]
    simp [Dgu.digest, hrun]
  · have hd : s.dgu1.own p 0 = s.dgu1.clear := by
      cases p <;> simp [Dgu.own, hin, ownerOf, ownerCode, Dgu.by, hown]
    exact to_of_access rfl (hreach 0xC (by simp)) hq hd rfl (blocksOf_restart rfl)
  · cases p with
    | host =>
      have hd : s.dgu1.own .host 1 = { s.dgu1 with owner := .host } := by
        simp [Dgu.own, hin, ownerOf, ownerCode, hfree]
      exact to_of_access rfl (hreach 0xC (by simp)) hq hd rfl (blocksOf_same rfl rfl)
    | cabinet =>
      have hd : s.dgu1.own .cabinet 2 = { s.dgu1 with owner := .cabinet } := by
        simp [Dgu.own, hin, ownerOf, ownerCode, hfree]
      exact to_of_access rfl (hreach 0xC (by simp)) hq hd rfl (blocksOf_same rfl rfl)
  · exact to_of_access rfl (hreach 0 (by simp)) hq (by_other hin hother _) rfl (blocksOf_same rfl rfl)
  · refine to_of_eq rfl ?_
    rcases hown with h | h <;> simp [releaseDgu, h, Dgu.clear]

end Sys2Proof.DigestUnit
end

section
/-! # The gate commands (O39) -/
namespace Sys2Proof.GateCommands
open Sys2Proof Sys2Proof.Machine Sys2Proof.Told Sys2Proof.Replies

/-! ## Gates and their entries after a change of some of them -/

theorem getElem?_modAll {α : Type} (f : Nat → α → α) (l : List Nat) (hl : l.Nodup) (gs : List α) (q : Nat) :
    (l.foldl (fun gs k => modAt gs k (f k)) gs)[q]? = if q ∈ l then gs[q]?.map (f q) else gs[q]? := by
  induction l generalizing gs with
  | nil => simp
  | cons k l ih =>
    obtain ⟨hk, hl⟩ := List.nodup_cons.mp hl
    rw [List.foldl_cons, ih hl]
    by_cases hq : q = k
    · subst hq
      simp [hk, modAt]
    · simp [hq, modAt, Ne.symm hq]

theorem gateOf_modAll {f : Nat → Gate → Gate} {l : List Nat} (hl : l.Nodup) (s : State) {q : Nat} (hq : q < s.gates.length) :
    gateOf { s with gates := l.foldl (fun gs k => modAt gs k (f k)) s.gates } q = if q ∈ l then f q (gateOf s q) else gateOf s q := by
  simp only [gateOf, List.getD_eq_getElem?_getD, getElem?_modAll f l hl]
  split <;> simp [List.getElem?_eq_getElem hq]

theorem gateOf_modAll_out {f : Nat → Gate → Gate} {l : List Nat} (hl : l.Nodup) (s : State) {q : Nat} (hq : q ∉ l) :
    gateOf { s with gates := l.foldl (fun gs k => modAt gs k (f k)) s.gates } q = gateOf s q := by
  simp only [gateOf, List.getD_eq_getElem?_getD, getElem?_modAll f l hl, hq, if_false]

theorem tgetD_setAll {α : Type} (v : Nat → α) (l : List Nat) (t : Tab α) (i : Nat) (d : α) :
    tgetD (l.foldl (fun t k => tset t k (v k)) t) i d = if i ∈ l then v i else tgetD t i d := by
  induction l generalizing t with
  | nil => simp
  | cons k l ih =>
    rw [List.foldl_cons, ih]
    by_cases hi : i = k
    · subst hi
      simp
    · simp [hi]

theorem mem_named {first count i : Nat} : i ∈ named first count ↔ first ≤ i ∧ i < first + count := by
  simp only [named, List.mem_map, List.mem_range]
  constructor
  · rintro ⟨k, hk, rfl⟩
    omega
  · intro h
    exact ⟨i - first, by omega, by omega⟩

theorem gatesNamed_nodup (g : Nat) : (gatesNamed g).Nodup := by
  unfold gatesNamed
  split <;> simp

theorem gatesNamed_lt {g q : Nat} (hg : g < 4 ∨ g = 0x20) (hq : q ∈ gatesNamed g) : q < 4 := by
  unfold gatesNamed at hq
  split at hq <;> simp at hq <;> omega

theorem gateKnown_named {g : Nat} (hg : g < 4 ∨ g = 0x20) : gateKnown g true = true := by
  rcases hg with h | rfl
  · simp [gateKnown]
    omega
  · rfl

/-! ## The checks of GATE_WRITE and GATE_LOCK -/

theorem rangeBad_ok {first n most size : Nat} (h1 : 1 ≤ n) (hmax : n ≤ most) (hin : first + n ≤ size) (rest : List (Bool × Nat)) :
    firstBad (rangeBad first n most size ++ rest) = firstBad rest := by
  have hfirst : decide (size ≤ first) = false := by simp; omega
  have hcount : (n == 0 || decide (most < n) || decide (size < first + n)) = false := by simp; omega
  simp [rangeBad, firstBad, hfirst, hcount]

theorem hostEntries_named {g first : Nat} (hg : g < 4 ∨ g = 0x20) (h16 : 16 ≤ first) : hostEntries g first = true := by
  simp only [hostEntries, Bool.and_eq_true, Bool.or_eq_true, decide_eq_true_eq, beq_iff_eq]
  exact ⟨hg, h16⟩

theorem anyLocked_iff (s : State) (g first n : Nat) :
    anyLocked s g first n = true ↔ ∃ q ∈ gatesNamed g, ∃ i, first ≤ i ∧ i < first + n ∧ (gateEntry s q i).lock = true := by
  simp only [anyLocked, List.any_eq_true, mem_named, and_assoc]

theorem allZero_zeros (n : Nat) : allZero (zeros n) = true := by simp [allZero, zeros]

theorem entriesBad_none {r : Req} (h : ∀ k, k < fld r 2 1 → hostEntryBad (slice r.body (8 + 32 * k) 32) = none) : entriesBad r = none := by
  simp only [entriesBad, List.findSome?_eq_none_iff, List.mem_range]
  intro k hk
  simp [h k hk]

section
variable {r : Req} {s : State} (hg : fld r 0 1 < 4 ∨ fld r 0 1 = 0x20) (h16 : 16 ≤ fld r 1 1) (h1 : 1 ≤ fld r 2 1) (h48 : fld r 2 1 ≤ 48)
  (h64 : fld r 1 1 + fld r 2 1 ≤ 64)
include hg h16 h1 h48 h64

theorem gateWrite_runs (hlen : r.body.length = 8 + 32 * fld r 2 1) (hrsv : slice r.body 3 5 = zeros 5)
    (hform : ∀ k, k < fld r 2 1 → hostEntryBad (slice r.body (8 + 32 * k) 32) = none) :
    gateWriteRun r s = if anyLocked s (fld r 0 1) (fld r 1 1) (fld r 2 1) then .refuse s stBusyOwned 0
      else .done (writeGates (fld r 0 1) (fld r 1 1) (writeEntries r) s) stOk 0 (le 8 (s.epoch + 1)) := by
  have hhead : firstBad ((!gateKnown (fld r 0 1) true, 16) :: rangeBad (fld r 1 1) (fld r 2 1) 48 64) = none := by
    have := rangeBad_ok h1 h48 h64 []
    simpa [firstBad, gateKnown_named hg] using this
  have hlen8 : ¬ 8 + 32 * fld r 2 1 < 8 := by omega
  simp only [gateWriteRun, hhead, hlen, hlen8, ne_eq, not_true_eq_false, if_false, hostEntries_named hg h16, hrsv, allZero_zeros,
    entriesBad_none hform, Bool.not_true, Bool.false_eq_true, if_true]
  rfl

theorem gateLock_runs (hmode : fld r 3 1 ≤ 1) :
    gateLockRun r s = .done (event 0x0A02 (fld r 0 1 + 256 * fld r 1 1 + 65536 * fld r 2 1)
      (lockGates (fld r 0 1) (fld r 1 1) (fld r 2 1) (fld r 3 1 == 1) s)) stOk 0 [] := by
  have hhead : firstBad ((!gateKnown (fld r 0 1) true, 16) :: rangeBad (fld r 1 1) (fld r 2 1) 48 64
      ++ [(decide (2 ≤ fld r 3 1), 19)]) = none := by
    have hr := rangeBad_ok h1 h48 h64 [(decide (2 ≤ fld r 3 1), 19)]
    have hm : decide (2 ≤ fld r 3 1) = false := by simp; omega
    rw [hm] at hr
    simpa [firstBad, gateKnown_named hg, hm] using hr
  have hbit : bit (fld r 3 1) 0 = (fld r 3 1 == 1) := by
    have : fld r 3 1 = 0 ∨ fld r 3 1 = 1 := by omega
    rcases this with h | h <;> rw [h] <;> rfl
  simp only [gateLockRun, hhead, hostEntries_named hg h16, hbit]
  rfl

end

/-! ## What the two commands leave the gates with (R341, R343) -/

/-- A gate after GATE_WRITE: the entries of the request, from FIRST on. -/
def written (r : Req) (x : Gate) : Gate :=
  { x with
    ents := (named (fld r 1 1) (fld r 2 1)).foldl (fun t i => tset t i (entryFrom (slice r.body (8 + 32 * (i - fld r 1 1)) 32))) x.ents }

theorem writeGates_eq (r : Req) (s : State) :
    writeGates (fld r 0 1) (fld r 1 1) (writeEntries r) s
      = { s with gates := (gatesNamed (fld r 0 1)).foldl (fun gs k => modAt gs k (written r)) s.gates, epoch := s.epoch + 1 } := by
  have hzip : (writeEntries r).zipIdx = (List.range (fld r 2 1)).map fun i => (slice r.body (8 + 32 * i) 32, i) := by
    apply List.ext_getElem
    · simp [writeEntries]
    · intro i h1 h2
      simp [writeEntries]
  have hput : (fun x : Gate => { x with
      ents := (writeEntries r).zipIdx.foldl (fun t e => tset t (fld r 1 1 + e.2) (entryFrom e.1)) x.ents }) = written r := by
    funext x
    simp only [hzip, List.foldl_map, written, named, Nat.add_sub_cancel_left]
  simp only [writeGates, hput]
  rfl

/-- A gate after GATE_LOCK. -/
def lockedGate (first count : Nat) (mode : Bool) (k : Nat) (x : Gate) : Gate :=
  { x with
    ents := (named first count).foldl (fun t i => tset t i
      { tgetD x.ents i (if k < 4 ∧ 16 ≤ i then { eflags := 2 } else {}) with
        eflags := (tgetD x.ents i (if k < 4 ∧ 16 ≤ i then { eflags := 2 } else {})).eflags ||| 4 }) x.ents
    mlock := x.mlock || mode }

theorem modAt_congr {α : Type} {l : List α} {k : Nat} {f g : α → α} (h : ∀ x, l[k]? = some x → f x = g x) : modAt l k f = modAt l k g := by
  apply List.ext_getElem?
  intro i
  by_cases hi : k = i
  · subst hi
    cases hx : l[k]? with
    | none => simp [modAt, hx]
    | some x => simp [modAt, hx, h x hx]
  · simp [modAt, hi]

theorem lockGates_eq (g first count : Nat) (mode : Bool) (s : State) :
    lockGates g first count mode s
      = { s with gates := (gatesNamed g).foldl (fun gs k => modAt gs k (lockedGate first count mode k)) s.gates } := by
  unfold lockGates
  generalize gatesNamed g = l
  induction l generalizing s with
  | nil => rfl
  | cons k l ih =>
    have hone : modAt s.gates k (fun x => { x with
        ents := (named first count).foldl (fun t i => tset t i { gateEntry s k i with eflags := (gateEntry s k i).eflags ||| 4 }) x.ents
        mlock := x.mlock || mode }) = modAt s.gates k (lockedGate first count mode k) := by
      refine modAt_congr fun x hx => ?_
      have hgate : gateOf s k = x := by simp [gateOf, List.getD_eq_getElem?_getD, hx]
      simp only [gateEntry, hgate, lockedGate]
    rw [List.foldl_cons, List.foldl_cons, ih, ← hone]

theorem gateKnown_single {g : Nat} (hg : g ≤ 0x14) (rest : List (Bool × Nat)) :
    firstBad ((!gateKnown g false, 16) :: rest) = firstBad rest := by
  simp [gateKnown, firstBad]
  omega

theorem gateEntry_of {t : State} {q : Nat} {x : Gate} (h : gateOf t q = x) (i : Nat) :
    gateEntry t q i = tgetD x.ents i (if q < 4 ∧ 16 ≤ i then { eflags := 2 } else {}) := by rw [gateEntry, h]

theorem gateWrite_writes {r : Req} {s : State} (hq : quiet s = true) (hgates : s.gates.length = 21) (h : accepts 0x0A01 r none s = true)
    (hg : fld r 0 1 < 4 ∨ fld r 0 1 = 0x20) (hrun : gateWriteRun r s
      = .done (writeGates (fld r 0 1) (fld r 1 1) (writeEntries r) s) stOk 0 (le 8 (s.epoch + 1))) :
    To (.gateWrite r) s fun t =>
      Answered 0x0A01 r stOk 0 (le 8 (s.epoch + 1)) t
        ∧ Responded r { s with gates := t.gates, epoch := s.epoch + 1 } t
        ∧ (∀ q, q ∈ gatesNamed (fld r 0 1) →
            (∀ k, k < fld r 2 1 → gateEntry t q (fld r 1 1 + k) = entryFrom (slice r.body (8 + 32 * k) 32))
              ∧ ∀ i, (i < fld r 1 1 ∨ fld r 1 1 + fld r 2 1 ≤ i) → gateEntry t q i = gateEntry s q i)
        ∧ ∀ q, q ∉ gatesNamed (fld r 0 1) → gateOf t q = gateOf s q := by
  rw [writeGates_eq] at hrun
  have hnodup := gatesNamed_nodup (fld r 0 1)
  refine to_of_done rfl h hrun hq fun t ha hr => ?_
  have hgt : t.gates = (gatesNamed (fld r 0 1)).foldl (fun gs k => modAt gs k (written r)) s.gates := gates_of_responded hr
  have hof : ∀ q, gateOf t q = gateOf { s with gates := (gatesNamed (fld r 0 1)).foldl (fun gs k => modAt gs k (written r)) s.gates } q :=
    fun q => by rw [gateOf, hgt, gateOf]
  refine ⟨ha, by rw [hgt]; exact hr, fun q hq => ?_, fun q hq => (hof q).trans (gateOf_modAll_out hnodup s hq)⟩
  have hlt := gatesNamed_lt hg hq
  have hnew : gateOf t q = written r (gateOf s q) := by
    rw [hof, gateOf_modAll (f := fun _ => written r) hnodup s (by omega), if_pos hq]
  refine ⟨fun k hk => ?_, fun i hi => ?_⟩
  · rw [gateEntry_of hnew]
    simp only [written]
    rw [tgetD_setAll, if_pos (mem_named.mpr (by omega)), Nat.add_sub_cancel_left]
  · rw [gateEntry_of hnew]
    simp only [written]
    rw [tgetD_setAll, if_neg (by rw [mem_named]; omega), gateEntry]

theorem gateWrite_refused {r : Req} {s : State} (hq : quiet s = true) (h : accepts 0x0A01 r none s = true)
    (hrun : gateWriteRun r s = .refuse s stBusyOwned 0) :
    To (.gateWrite r) s fun t => Answered 0x0A01 r stBusyOwned 0 [] t ∧ Responded r s t :=
  answers_of_done rfl h hrun hq

theorem gateLock_locks {r : Req} {s : State} (hq : quiet s = true) (hgates : s.gates.length = 21) (h : accepts 0x0A03 r (some 4) s = true)
    (hg : fld r 0 1 < 4 ∨ fld r 0 1 = 0x20) (h16 : 16 ≤ fld r 1 1) (h1 : 1 ≤ fld r 2 1) (h48 : fld r 2 1 ≤ 48)
    (h64 : fld r 1 1 + fld r 2 1 ≤ 64) (hmode : fld r 3 1 ≤ 1) :
    To (.gateLock r) s fun t =>
      Answered 0x0A03 r stOk 0 [] t
        ∧ Responded r { s with gates := t.gates, ev := (event 0x0A02 (fld r 0 1 + 256 * fld r 1 1 + 65536 * fld r 2 1) s).ev } t
        ∧ (∀ q, q ∈ gatesNamed (fld r 0 1) →
            (∀ i, fld r 1 1 ≤ i → i < fld r 1 1 + fld r 2 1 →
                gateEntry t q i = { gateEntry s q i with eflags := (gateEntry s q i).eflags ||| 4 })
              ∧ (∀ i, (i < fld r 1 1 ∨ fld r 1 1 + fld r 2 1 ≤ i) → gateEntry t q i = gateEntry s q i)
              ∧ (gateOf t q).mlock = ((gateOf s q).mlock || fld r 3 1 == 1))
        ∧ ∀ q, q ∉ gatesNamed (fld r 0 1) → gateOf t q = gateOf s q := by
  have hrun := gateLock_runs (s := s) hg h16 h1 h48 h64 hmode
  have hnodup := gatesNamed_nodup (fld r 0 1)
  rw [lockGates_eq] at hrun
  refine to_of_done rfl h hrun ?_ fun t ha hr => ?_
  · exact (quiet_event ..).trans hq
  have hgt : t.gates = (gatesNamed (fld r 0 1)).foldl
      (fun gs k => modAt gs k (lockedGate (fld r 1 1) (fld r 2 1) (fld r 3 1 == 1) k)) s.gates := (gates_of_responded hr).trans (event_gates ..)
  have hof : ∀ q, gateOf t q = gateOf { s with
      gates := (gatesNamed (fld r 0 1)).foldl (fun gs k => modAt gs k (lockedGate (fld r 1 1) (fld r 2 1) (fld r 3 1 == 1) k)) s.gates } q :=
    fun q => by rw [gateOf, hgt, gateOf]
  refine ⟨ha, ?_, fun q hq => ?_, fun q hq => (hof q).trans (gateOf_modAll_out hnodup s hq)⟩
  · rw [hgt]
    exact responded_of_told (ext := []) hr s rfl rfl rfl rfl rfl rfl
  have hlt := gatesNamed_lt hg hq
  have hnew : gateOf t q = lockedGate (fld r 1 1) (fld r 2 1) (fld r 3 1 == 1) q (gateOf s q) := by
    rw [hof, gateOf_modAll hnodup s (by omega), if_pos hq]
  refine ⟨fun i hi hi' => ?_, fun i hi => ?_, by rw [hnew]; rfl⟩
  · rw [gateEntry_of hnew]
    simp only [lockedGate]
    rw [tgetD_setAll, if_pos (mem_named.mpr ⟨hi, hi'⟩)]
    rfl
  · rw [gateEntry_of hnew]
    simp only [lockedGate]
    rw [tgetD_setAll, if_neg (by rw [mem_named]; omega), gateEntry]

/-! ## GATE_READ, GATE_FAULTS and GATE_SYNC (R340, R342, R345) -/

theorem gateRead_does {r : Req} {s : State} (hq : quiet s = true) (h : accepts 0x0A02 r (some 4) s = true) (hg : fld r 0 1 ≤ 0x14)
    (h1 : 1 ≤ fld r 2 1) (h64 : fld r 2 1 ≤ 64) (hin : fld r 1 1 + fld r 2 1 ≤ gateSize (fld r 0 1)) (hrsv : fld r 3 1 = 0) :
    Does (.gateRead r) 0x0A02 r s
      (le 1 (b2n (gateOf s (fld r 0 1)).firstOnly) ++ le 1 (b2n (gateOf s (fld r 0 1)).mlock) ++ zeros 2 ++ le 8 s.epoch
        ++ ((List.range (fld r 2 1)).map fun k => (gateEntry s (fld r 0 1) (fld r 1 1 + k)).bytes).flatten) s := by
  have hform : firstBad ((!gateKnown (fld r 0 1) false, 16) :: rangeBad (fld r 1 1) (fld r 2 1) 64 (gateSize (fld r 0 1))
      ++ [(fld r 3 1 != 0, 19)]) = none := by
    rw [List.cons_append, gateKnown_single hg, rangeBad_ok h1 h64 hin]
    simp [firstBad, hrsv]
  refine does_of_done rfl h ?_ hq
  simp only [gateReadRun, hform, named, List.map_map, Function.comp_def]

theorem gateFaults_runs {r : Req} (s : State) (hg : fld r 0 1 ≤ 0x14) (hop : fld r 1 1 ≤ 2)
    (hmode : fld r 2 1 ≤ if fld r 1 1 = 2 then 1 else 0) (hrsv : fld r 3 1 = 0) :
    gateFaultsRun r s =
      if fld r 1 1 = 2 then
        (if (gateOf s (fld r 0 1)).mlock then .refuse s stBusyOwned 0
        else .done { s with gates := modAt s.gates (fld r 0 1) fun _ => Gate.cleared { gateOf s (fld r 0 1) with firstOnly := fld r 2 1 == 1 } }
          stOk 0 (faultsBody (Gate.cleared { gateOf s (fld r 0 1) with firstOnly := fld r 2 1 == 1 })))
      else if fld r 1 1 = 1 then
        .done { s with gates := modAt s.gates (fld r 0 1) Gate.cleared } stOk 0 (faultsBody (gateOf s (fld r 0 1)))
      else .done s stOk 0 (faultsBody (gateOf s (fld r 0 1))) := by
  have hform : firstBad [(!gateKnown (fld r 0 1) false, 16), (decide (2 < fld r 1 1), 17),
      (decide ((if fld r 1 1 = 2 then 1 else 0) < fld r 2 1), 18), (fld r 3 1 != 0, 19)] = none := by
    rw [gateKnown_single hg]
    simp only [firstBad]
    rw [if_neg (by simpa using hop), if_neg (by simpa using hmode), if_neg (by simpa using hrsv)]
  simp only [gateFaultsRun, hform]

theorem gateOf_modAt {s : State} {g : Nat} (hg : g < s.gates.length) (f : Gate → Gate) :
    gateOf { s with gates := modAt s.gates g f } g = f (gateOf s g)
      ∧ ∀ q, q ≠ g → gateOf { s with gates := modAt s.gates g f } q = gateOf s q := by
  refine ⟨?_, fun q hq => ?_⟩
  · exact (gateOf_modAll (f := fun _ => f) (l := [g]) (by simp) s hg).trans (by simp)
  · exact gateOf_modAll_out (f := fun _ => f) (l := [g]) (by simp) s (by simpa using hq)

theorem gateFaults_acts {r : Req} {s : State} (hq : quiet s = true) (h : accepts 0x0A05 r (some 4) s = true) (hg : fld r 0 1 ≤ 0x14)
    (hgates : s.gates.length = 21) (hrsv : fld r 3 1 = 0) :
    (fld r 1 1 = 0 → fld r 2 1 = 0 → Does (.gateFaults r) 0x0A05 r s (faultsBody (gateOf s (fld r 0 1))) s)
      ∧ (fld r 1 1 = 1 → fld r 2 1 = 0 →
        To (.gateFaults r) s fun t =>
          Answered 0x0A05 r stOk 0 (faultsBody (gateOf s (fld r 0 1))) t ∧ Responded r { s with gates := t.gates } t
            ∧ gateOf t (fld r 0 1) = { gateOf s (fld r 0 1) with recs := [], lost := 0 }
            ∧ ∀ g', g' ≠ fld r 0 1 → gateOf t g' = gateOf s g')
      ∧ (fld r 1 1 = 2 → fld r 2 1 ≤ 1 → (gateOf s (fld r 0 1)).mlock = false →
        To (.gateFaults r) s fun t =>
          gateOf t (fld r 0 1) = { gateOf s (fld r 0 1) with recs := [], lost := 0, firstOnly := fld r 2 1 == 1 }
            ∧ Answered 0x0A05 r stOk 0 (faultsBody (gateOf t (fld r 0 1))) t ∧ Responded r { s with gates := t.gates } t
            ∧ ∀ g', g' ≠ fld r 0 1 → gateOf t g' = gateOf s g')
      ∧ (fld r 1 1 = 2 → fld r 2 1 ≤ 1 → (gateOf s (fld r 0 1)).mlock = true →
        To (.gateFaults r) s fun t => Answered 0x0A05 r stBusyOwned 0 [] t ∧ Responded r s t) := by
  have hof : ∀ {f : Gate → Gate} {t : State}, t.gates = modAt s.gates (fld r 0 1) f →
      gateOf t (fld r 0 1) = f (gateOf s (fld r 0 1)) ∧ ∀ q, q ≠ fld r 0 1 → gateOf t q = gateOf s q := by
    intro f t ht
    simp only [gateOf, ht]
    exact gateOf_modAt (by omega) f
  refine ⟨fun hop hmode => ?_, fun hop hmode => ?_, fun hop hmode hopen => ?_, fun hop hmode hlocked => ?_⟩
  · have hrun := gateFaults_runs s hg (by omega) (by simp [hop, hmode]) hrsv
    rw [if_neg (by omega), if_neg (by omega)] at hrun
    exact does_of_done rfl h hrun hq
  · have hrun := gateFaults_runs s hg (by omega) (by simp [hop, hmode]) hrsv
    rw [if_neg (by omega), if_pos hop] at hrun
    refine to_of_done rfl h hrun hq fun t ha hr => ?_
    have hgt := gates_of_responded hr
    exact ⟨ha, by rw [hgt]; exact hr, hof hgt⟩
  · have hrun := gateFaults_runs s hg (by omega) (by simpa [hop] using hmode) hrsv
    rw [if_pos hop, hopen, if_neg Bool.false_ne_true] at hrun
    refine to_of_done rfl h hrun hq fun t ha hr => ?_
    have hgt := gates_of_responded hr
    obtain ⟨hself, hother⟩ := hof hgt
    exact ⟨hself, by rw [hself]; exact ha, by rw [hgt]; exact hr, hother⟩
  · have hrun := gateFaults_runs s hg (by omega) (by simpa [hop] using hmode) hrsv
    rw [if_pos hop, hlocked, if_pos rfl] at hrun
    exact answers_of_done rfl h hrun hq

theorem gateSync_acts {r : Req} {s : State} {e : Nat} (hq : quiet s = true) (he : e = if fld r 0 8 = 0 then s.epoch else fld r 0 8)
    (h : accepts 0x0A04 r (some 8) s = true) (hle : e ≤ s.epoch) :
    (retired e s = true → Does (.gateSync r) 0x0A04 r s (le 8 e ++ le 4 0 ++ zeros 4) s)
      ∧ (retired e s = false →
        To (.gateSync r) s fun t => Waits 0x0A04 r e t ∧ t.nv = s.nv ∧ t.work = s.work ∧ t.gates = s.gates ∧ t.epoch = s.epoch) := by
  have hin : ¬ s.epoch < fld r 0 8 := by
    split at he <;> omega
  refine ⟨fun hret => does_of_done rfl h ?_ hq, fun hret => ?_⟩
  · simp only [gateSyncRun, if_neg hin, ← he, hret, if_true, syncedBody]
  · have hrun : gateSyncRun r s = .wait s e [] := by
      simp only [gateSyncRun, if_neg hin, ← he, hret, Bool.false_eq_true, if_false]
    refine to_of_wait rfl h hrun hq fun t hw hn => ⟨hw, ?_⟩
    rw [nv_of_notified hn, work_of_notified hn]
    exact ⟨rfl, rfl, by rw [hn.1]; rfl, by rw [hn.1]; rfl⟩

theorem gateSyncRetired_answers {s : State} {w : Waiter} (hq : quiet s = true) (hw : s.waiters = [w]) (hop : w.op = 0x0A04)
    (horphan : w.orphan = false) (hret : retired w.obj s = true) :
    To .gateSyncRetired s fun t =>
      Answered 0x0A04 w.req stOk 0 (le 8 w.obj ++ le 4 0 ++ zeros 4) t ∧ Responded w.req { s with waiters := [] } t := by
  have hexec : exec .gateSyncRetired s = .next (settle s
      (answerAll (fun w => w.op == 0x0A04 && retired w.obj s) (fun w => (stOk, 0, syncedBody w.obj 0)) s)) := rfl
  rw [answerAll_single hw (by simp [hop, hret]) horphan, hop] at hexec
  exact to_of_response hexec hq

/-- Settles O39. -/
theorem gateCommandsAct : Obligations.GateCommandsAct := by
  refine ⟨?_, fun r s hq => ⟨?_, fun e he => gateSync_acts hq he, fun w hw => gateSyncRetired_answers hq hw⟩⟩
  · rintro r s _ _ _ rfl rfl rfl hq hgates
    refine ⟨fun h hg h16 h1 h48 h64 hlen hrsv hform => ?_, gateRead_does hq, gateLock_locks hq hgates⟩
    have hrun := gateWrite_runs (s := s) hg h16 h1 h48 h64 hlen hrsv hform
    refine ⟨fun hfree => ?_, fun q i hq' hi hi' hlock => ?_⟩
    · have hopen : ¬ anyLocked s (fld r 0 1) (fld r 1 1) (fld r 2 1) = true := by
        rw [anyLocked_iff]
        rintro ⟨q, hq', i, hi, hi', hlock⟩
        exact absurd (hfree q hq' i hi hi') (by simp [hlock])
      rw [if_neg hopen] at hrun
      exact gateWrite_writes hq hgates h hg hrun
    · rw [if_pos ((anyLocked_iff ..).mpr ⟨q, hq', i, hi, hi', hlock⟩)] at hrun
      exact gateWrite_refused hq h hrun
  · rintro _ rfl h hg hgates hrsv
    exact gateFaults_acts hq h hg hgates hrsv

end Sys2Proof.GateCommands
end

section
/-! # Requests that the first steps of R445 refuse (O60) -/
namespace Sys2Proof.Admission
open Sys2Proof Sys2Proof.Machine Sys2Proof.Told Sys2Proof.Replies

/-- A command of the mailbox, DEV_STANDBY included, is taken up by `command`; only the standby that is due may follow. -/
theorem exec_request {i : Instr} {r : Req} (h : reqOf i = some r)
    (hunknown : ∀ op, i = .mailboxUnknownOpcode r op → opcodeKnown op.toNat = false) (s : State) :
    ∃ op need run, exec i s = .next (command i op r need run s) ∨ exec i s = .next (sleepIfDue (command i op r need run s)) := by
  cases i <;> simp only [reqOf, reduceCtorEq, Option.some.injEq] at h
  case mailboxUnknownOpcode r' op =>
    subst h
    refine ⟨op.toNat, none, fun s => .refuse s stUnsupported 0, .inl ?_⟩
    simp only [exec, execMailboxUnknownOpcode, hunknown op rfl, Bool.false_eq_true, if_false]
  case devStandby r' =>
    subst h
    exact ⟨_, _, _, .inr rfl⟩
  all_goals
    subst h
    exact ⟨_, _, _, .inl rfl⟩

theorem sleepIfDue_awake {t : State} (h : t.pwr.standbyDue = false) : sleepIfDue t = t := by
  simp [sleepIfDue, standbyReady, h]

/-- Where no standby is due, what a request leads to is what `command` leads to, if that leaves the power state. -/
theorem exec_request_awake {i : Instr} {r : Req} (h : reqOf i = some r)
    (hunknown : ∀ op, i = .mailboxUnknownOpcode r op → opcodeKnown op.toNat = false) {s : State} {P : State → Prop}
    (hdue : s.pwr.standbyDue = false) (hP : ∀ op need run, (command i op r need run s).pwr = s.pwr ∧ P (command i op r need run s)) : To i s P := by
  obtain ⟨op, need, run, hexec⟩ := exec_request h hunknown s
  obtain ⟨hpwr, hp⟩ := hP op need run
  rcases hexec with hexec | hexec
  · exact ⟨_, hexec, hp⟩
  · rw [sleepIfDue_awake (by rw [hpwr, hdue])] at hexec
    exact ⟨_, hexec, hp⟩

theorem mbxOf_modMbx_self (f m : Nat) (g : Mbx → Mbx) (s : State) : mbxOf (modMbx f m g s) f m = g (mbxOf s f m) :=
  tgetD_tset_self ..

theorem tget_modMbx_ne (f m : Nat) (g : Mbx → Mbx) (s : State) {k : Nat} (hk : k ≠ 64 * f + m) :
    tget (modMbx f m g s).mbxs k = tget s.mbxs k := tget_tset_ne _ _ hk

theorem turnAway_responded (op : Nat) (r : Req) (s : State) : Responded r s (turnAway op r s) := by
  obtain ⟨hform, hfns, hother⟩ := responded_respond op r stBusyOwned 0 [] s
  refine ⟨?_, hfns, fun k hk => (tget_modMbx_ne _ _ _ _ hk).trans (hother k hk)⟩
  rw [turnAway]
  generalize respond op r stBusyOwned 0 [] s = u at hform ⊢
  exact congrArg (modMbx r.fn r.mbx fun m => { m with busy := (mbxOf s r.fn r.mbx).busy }) hform

theorem turnAway_busy (op : Nat) (r : Req) (s : State) : (mbxOf (turnAway op r s) r.fn r.mbx).busy = (mbxOf s r.fn r.mbx).busy := by
  rw [turnAway, mbxOf_modMbx_self]

theorem turnAway_answers {op : Nat} {r : Req} {s : State} (hfree : (mbxOf s r.fn r.mbx).busy = false) :
    Answered op r stBusyOwned 0 [] (turnAway op r s) := by
  have ha := answered_respond op r stBusyOwned 0 [] s
  have hbox := mbxOf_modMbx_self r.fn r.mbx (fun m => { m with busy := false }) (respond op r stBusyOwned 0 [] s)
  rw [turnAway, hfree]
  revert ha
  unfold Answered
  rw [hbox]
  cases r.path with
  | pcie => exact fun ⟨_, hdone, hread⟩ => ⟨rfl, hdone, hread⟩
  | usb => exact fun ⟨_, hframe⟩ => ⟨rfl, hframe⟩
  | spi => exact fun ⟨_, hresp⟩ => ⟨rfl, hresp⟩

theorem turnAway_frame (op : Nat) {r : Req} (s : State) (h : r.path = .usb) :
    (turnAway op r s).link.usbMbx.getLast? = some (usbHeader 4 0 r.mbx 16 ++ mbxBytes op r.tag stBusyOwned 0 []) := by
  have ha := answered_respond op r stBusyOwned 0 [] s
  simp only [Answered, h] at ha
  exact ha.2

/-- Settles O60: each clause is one of the first branches of `command`. -/
theorem refusedRequestsChangeNothing : Obligations.RefusedRequestsChangeNothing := by
  intro i r s hreq hunknown hreach hstandby hdue hq
  refine ⟨fun hpath => ?_, fun hpath hbusy => ?_, fun off hpath hbusy hphase hbad => ?_⟩
  · refine exec_request_awake hreq hunknown hdue fun op need run => ?_
    have hcommand : command i op r need run s = settle s (turnAway op r s) := by
      simp [command, hreach, hpath]
    have hq' : quiet (turnAway op r s) = true := by
      rw [turnAway]
      exact (quiet_respond ..).trans hq
    have hn := settle_quiet s hq'
    have hr := turnAway_responded op r s
    rw [hcommand]
    have hbox : mbxOf (settle s (turnAway op r s)) r.fn r.mbx = mbxOf (turnAway op r s) r.fn r.mbx := by
      rw [mbxOf, mbxs_of_notified hn, mbxOf]
    have hframes : (settle s (turnAway op r s)).link.usbMbx = (turnAway op r s).link.usbMbx := by rw [hn.1]
    refine ⟨(pwr_of_notified hn).trans (pwr_of_responded hr), responded_of_notified hr hn, ?_, fun hfree => ?_, fun husb => ⟨op, ?_⟩⟩
    · rw [hbox, turnAway_busy]
    · exact ⟨op, answered_of_notified (turnAway_answers hfree) hn⟩
    · rw [hframes, turnAway_frame op s husb]
  · refine exec_request_awake hreq hunknown hdue fun op need run => ?_
    rw [command_busy hreach hpath hbusy]
    exact ⟨rfl, mbxOf_modMbx_self .., rfl, fun k hk => tget_modMbx_ne _ _ _ _ hk⟩
  · refine exec_request_awake hreq hunknown hdue fun op need run => ?_
    have htakes : takes op r s = true := by
      simp [takes, hreach, hpath, hbusy, mustHold, hstandby, hdue, mailboxUp, hphase]
    have hadmission : admission op r need s = some (stMalformed, off) := by
      simp [admission, hpath, hbad]
    obtain ⟨ha, hr⟩ := command_refuses htakes hadmission hq i run
    exact ⟨pwr_of_responded hr, op, ha, hr⟩

end Sys2Proof.Admission
end

section
/-! # The firmware commands (O58) -/
namespace Sys2Proof.Firmware
open Sys2Proof Sys2Proof.Machine Sys2Proof.Told Sys2Proof.Replies

/-! ## Slots and the selector -/

theorem fit_length (b : Bytes) : fit b.length b = b := by simp [fit, zeros]

theorem bootSel_congr {s t : State} (h : t.nv.bootSel = s.nv.bootSel) : bootSel t = bootSel s := by rw [bootSel, h, bootSel]

theorem bootSel_setBootSel (b : BootSel) (s : State) : bootSel (setBootSel b s) = b := AB.value_update ..

theorem slotState_setSlot (b : Bool) (st : FwState) (chk : Nat) (s : State) :
    slotState (setSlot b st chk s) b = st ∧ slotCheck (setSlot b st chk s) b = chk := by
  cases b <;> exact ⟨rfl, rfl⟩

/-- The bytes of a write stand in the inactive slot; the rest of it, the other slot and the selector stay (R77). -/
theorem writeSlot_acts (off : Nat) (b : Bytes) (s : State) :
    mreads (fwSlot (writeSlot off b s) (inactive s)) off b.length = b
      ∧ (∀ a, a < off ∨ off + b.length ≤ a → mread (fwSlot (writeSlot off b s) (inactive s)) a = mread (fwSlot s (inactive s)) a)
      ∧ fwSlot (writeSlot off b s) (!inactive s) = fwSlot s (!inactive s)
      ∧ slotState (writeSlot off b s) (inactive s) = .written ∧ bootSel (writeSlot off b s) = bootSel s := by
  unfold writeSlot
  generalize inactive s = i
  cases i
  · exact ⟨mreads_mwrites .., fun a ha => mread_mwrites_out _ _ _ _ ha, rfl, rfl, rfl⟩
  · exact ⟨mreads_mwrites .., fun a ha => mread_mwrites_out _ _ _ _ ha, rfl, rfl, rfl⟩

/-- The commands speak of slots and selector only through `nv` and `boot`. -/
theorem slots_congr {s t : State} (hnv : t.nv = s.nv) (hboot : t.boot = s.boot) (i : Bool) :
    fwSlot t i = fwSlot s i ∧ slotState t i = slotState s i ∧ slotCheck t i = slotCheck s i ∧ bootSel t = bootSel s := by
  simp only [fwSlot, slotState, slotCheck, bootSel, hnv, hboot, and_self]

theorem boot_of_responded {r : Req} {s t : State} (h : Responded r s t) : t.boot = s.boot := by rw [h.1]

/-! ## FW_WRITE (R77, R130) -/

section
variable {r : Req} {s : State} {b : Bytes} (hcount : fld r 4 4 = b.length) (h16 : 16 ≤ b.length) (hmax : b.length ≤ 4096)
  (hmod : b.length % 16 = 0) (hoff : fld r 0 4 % 16 = 0) (hrsv : fld r 12 4 = 0) (hin : fld r 0 4 + b.length ≤ 8388608)
include hcount h16 hmax hmod hoff hrsv hin

/-- The form of a write whose data come in the request or by DMA is in order. -/
theorem fwWrite_form (hdma : fld r 8 4 ≤ 1) :
    fwWriteRange r = none ∧ ¬ slotSize < fld r 0 4 + fld r 4 4
      ∧ ∀ dma : Bool, (dma = false → fld r 16 8 = 0) →
        firstBad [(fld r 0 4 % 16 != 0, 16), (fld r 12 4 != 0, 28), (!dma && fld r 16 8 != 0, 32)] = none := by
  refine ⟨?_, ?_, fun dma haddr => ?_⟩
  · simp only [fwWriteRange, firstBad, hcount]
    rw [if_neg (by simp; omega), if_neg (by simp; omega)]
  · rw [hcount, slotSize]
    omega
  · simp only [firstBad, hoff, hrsv]
    cases dma
    · simp [haddr rfl]
    · simp

/-- A write into a slot that is free: the state that the bytes are written in differs from `s` in what was sent at most. -/
theorem fwWrite_runs
    (hdata : fld r 8 4 = 0 ∧ fld r 16 8 = 0 ∧ 24 ≤ r.body.length ∧ r.body.drop 24 = b
      ∨ fld r 8 4 = 1 ∧ r.body.length = 24 ∧ r.path = .pcie ∧ r.dma = .data b ∧ (fnOf s r.fn).bme = true
        ∧ dmaFault r false (fld r 16 8) b.length s = none) :
    (slotTaken s = true → fwWriteRun r s = .refuse s stBusyOwned 0)
      ∧ (slotTaken s = false → ∃ out, fwWriteRun r s = .done (writeSlot (fld r 0 4) b { s with out := out }) stOk 0 []) := by
  rcases hdata with ⟨hdma, haddr, hlen, hb⟩ | ⟨hdma, hlen, hpath, hread, hbme, hgate⟩
  · obtain ⟨hrange, hsize, hform⟩ := fwWrite_form hcount h16 hmax hmod hoff hrsv hin (by omega)
    have hbody : r.body.length = 24 + fld r 4 4 := by
      have := congrArg List.length hb
      simp at this
      omega
    have hrun : fwWriteRun r s = if slotTaken s then .refuse s stBusyOwned 0 else .done (writeSlot (fld r 0 4) b s) stOk 0 [] := by
      have hmode : (fld r 8 4 == 1) = false := by simp [hdma]
      have hlen24 : ¬ 24 + fld r 4 4 < 24 := by omega
      simp only [fwWriteRun, hmode, hrange, hform false fun _ => haddr, hlen24, hbody, if_neg hsize, hb, Bool.false_and, Bool.false_eq_true,
        if_false, ne_eq, not_true_eq_false]
    rw [hrun]
    exact ⟨fun h => by rw [if_pos h], fun h => ⟨s.out, by rw [h]; rfl⟩⟩
  · obtain ⟨hrange, hsize, hform⟩ := fwWrite_form hcount h16 hmax hmod hoff hrsv hin (by omega)
    have hrun : fwWriteRun r s = if slotTaken s then .refuse s stBusyOwned 0
        else .done (writeSlot (fld r 0 4) b (hostRead r.fn (fld r 16 8) b.length false s)) stOk 0 [] := by
      have hmode : (fld r 8 4 == 1) = true := by simp [hdma]
      have hdmaRead : dmaRead r (fld r 16 8) (fld r 4 4) s = (some b, hostRead r.fn (fld r 16 8) b.length false s) := by
        simp [dmaRead, hbme, hcount, hgate, hread, fit_length]
      simp only [fwWriteRun, hmode, hrange, hform true (by simp), hlen, if_neg hsize, hpath, hdmaRead, Nat.lt_irrefl, if_true,
        if_false, ne_eq, not_true_eq_false, bne_self_eq_false, Bool.and_false, Bool.false_eq_true]
    rw [hrun]
    exact ⟨fun h => by rw [if_pos h], fun h => ⟨(hostRead r.fn (fld r 16 8) b.length false s).out, by rw [h]; rfl⟩⟩

theorem fwWrite_acts (hq : quiet s = true) (h : accepts 0x0802 r none s = true)
    (hdata : fld r 8 4 = 0 ∧ fld r 16 8 = 0 ∧ 24 ≤ r.body.length ∧ r.body.drop 24 = b
      ∨ fld r 8 4 = 1 ∧ r.body.length = 24 ∧ r.path = .pcie ∧ r.dma = .data b ∧ (fnOf s r.fn).bme = true
        ∧ dmaFault r false (fld r 16 8) b.length s = none) :
    (slotTaken s = true → To (.fwWrite r) s fun t => Answered 0x0802 r stBusyOwned 0 [] t ∧ Responded r s t)
      ∧ (slotTaken s = false →
        To (.fwWrite r) s fun t =>
          mreads (fwSlot t (inactive s)) (fld r 0 4) (fld r 4 4) = b
            ∧ (∀ a, a < fld r 0 4 ∨ fld r 0 4 + fld r 4 4 ≤ a → mread (fwSlot t (inactive s)) a = mread (fwSlot s (inactive s)) a)
            ∧ fwSlot t (!inactive s) = fwSlot s (!inactive s) ∧ slotState t (inactive s) = .written ∧ bootSel t = bootSel s
            ∧ Answered 0x0802 r stOk 0 [] t) := by
  obtain ⟨htaken, hfree⟩ := fwWrite_runs hcount h16 hmax hmod hoff hrsv hin hdata
  refine ⟨fun hslot => answers_of_done rfl h (htaken hslot) hq, fun hslot => ?_⟩
  obtain ⟨out, hrun⟩ := hfree hslot
  refine to_of_done rfl h hrun ?_ fun t ha hr => ?_
  · refine (quiet_congr ?_ ?_ ?_).trans hq
    · rfl
    · rfl
    · unfold writeSlot
      generalize inactive { s with out := out } = i
      cases i <;> rfl
  · obtain ⟨hself, hstate, -, hsel⟩ := slots_congr (nv_of_responded hr) (boot_of_responded hr) (inactive s)
    obtain ⟨hother, -⟩ := slots_congr (nv_of_responded hr) (boot_of_responded hr) (!inactive s)
    rw [hself, hstate, hsel, hother, hcount]
    obtain ⟨h1, h2, h3, h4, h5⟩ := writeSlot_acts (fld r 0 4) b { s with out := out }
    exact ⟨h1, h2, h3, h4, h5, ha⟩

end

/-! ## FW_VERIFY, FW_ACTIVATE and FW_COMMIT (R73, R77, R78) -/

theorem fwVerify_acts {r : Req} {s : State} (hq : quiet s = true) (h : accepts 0x0803 r (some 0) s = true) :
    To (.fwVerify r) s fun t =>
      t.nv = s.nv ∧ (slotState s (inactive s) = .running → t.boot = s.boot) ∧ match imageCheck s (fwSlot s (inactive s)) with
        | none =>
          (slotState s (inactive s) ≠ .running → slotState t (inactive s) = .verified)
            ∧ Answered 0x0803 r stOk 0 (imgMeasure (fwSlot s (inactive s))) t
        | some n =>
          (slotState s (inactive s) ≠ .running → slotState t (inactive s) = .failed ∧ slotCheck t (inactive s) = n)
            ∧ Answered 0x0803 r stMalformed n [] t := by
  have hslot : ∀ (st : FwState) (chk : Nat) (t : State),
      t.boot = (if slotState s (inactive s) == .running then s else setSlot (inactive s) st chk s).boot →
      (slotState s (inactive s) = .running → t.boot = s.boot)
        ∧ (slotState s (inactive s) ≠ .running → slotState t (inactive s) = st ∧ slotCheck t (inactive s) = chk) := by
    intro st chk t ht
    refine ⟨fun hrun => by simpa [hrun] using ht, fun hrun => ?_⟩
    have hboot : t.boot = (setSlot (inactive s) st chk s).boot := by simpa [hrun] using ht
    have := slotState_setSlot (inactive s) st chk s
    simp only [slotState, slotCheck, hboot] at this ⊢
    exact this
  have hnv : ∀ (st : FwState) (chk : Nat), (if slotState s (inactive s) == .running then s else setSlot (inactive s) st chk s).nv = s.nv := by
    intro st chk
    split <;> rfl
  have hquiet : ∀ (st : FwState) (chk : Nat),
      quiet (if slotState s (inactive s) == .running then s else setSlot (inactive s) st chk s) = true := by
    intro st chk
    split <;> exact hq
  cases hcheck : imageCheck s (fwSlot s (inactive s)) with
  | none =>
    have hrun : fwVerifyRun s = .done (if slotState s (inactive s) == .running then s else setSlot (inactive s) .verified 0 s) stOk 0
        (imgMeasure (fwSlot s (inactive s))) := by
      unfold fwVerifyRun
      simp only []
      rw [hcheck]
    refine to_of_done rfl h hrun (hquiet .verified 0) fun t ha hr => ?_
    have hboot := boot_of_responded hr
    have hnv' := nv_of_responded hr
    obtain ⟨hstays, hset⟩ := hslot .verified 0 t hboot
    exact ⟨hnv'.trans (hnv .verified 0), hstays, fun hrun => (hset hrun).1, ha⟩
  | some n =>
    have hrun : fwVerifyRun s = .refuse (if slotState s (inactive s) == .running then s else setSlot (inactive s) .failed n s)
        stMalformed n := by
      unfold fwVerifyRun
      simp only []
      rw [hcheck]
    refine to_of_done rfl h hrun (hquiet .failed n) fun t ha hr => ?_
    have hboot := boot_of_responded hr
    have hnv' := nv_of_responded hr
    obtain ⟨hstays, hset⟩ := hslot .failed n t hboot
    exact ⟨hnv'.trans (hnv .failed n), hstays, hset, ha⟩

theorem fwActivate_acts {r : Req} {s : State} (hq : quiet s = true) (h : accepts 0x0804 r (some 0) s = true) :
    (slotState s (inactive s) = .verified →
      To (.fwActivate r) s fun t =>
        bootSel t = { bootSel s with pend := some (inactive s), trial := false } ∧ Answered 0x0804 r stOk 0 [] t
          ∧ t.nv = { s.nv with bootSel := t.nv.bootSel })
    ∧ (slotState s (inactive s) ≠ .verified →
      To (.fwActivate r) s fun t => Answered 0x0804 r stMalformed 0 [] t ∧ Responded r s t) := by
  refine ⟨fun hslot => ?_, fun hslot => answers_of_done rfl h (by simp only [fwActivateRun, hslot, if_false]; rfl) hq⟩
  have hrun : fwActivateRun s = .done (setBootSel { bootSel s with pend := some (inactive s), trial := false } s) stOk 0 [] := by
    simp only [fwActivateRun, hslot, if_true]
  refine to_of_done rfl h hrun hq fun t ha hr => ?_
  have hnv := nv_of_responded hr
  refine ⟨?_, ha, ?_⟩
  · rw [bootSel_congr (congrArg Nv.bootSel hnv), bootSel_setBootSel]
  · rw [hnv]
    rfl

theorem ctrOf_setCtr {n v : Nat} {s : State} (hlive : (ctrOf s n).lost = false) :
    ctrOf (setCtr n v s) n = Counter.write (ctrWidth n) v s.opsec { ctrOf s n with live := v } := by
  have hset : setCtr n v s = { s with
      nv := { s.nv with ctrs := tset s.nv.ctrs n (Counter.write (ctrWidth n) v s.opsec { ctrOf s n with live := v }) } } := by
    simp [setCtr, hlive]
  rw [hset]
  exact tgetD_tset_self s.nv.ctrs n _ _

theorem fwCommit_acts {r : Req} {s : State} (hq : quiet s = true) (h : accepts 0x0805 r (some 0) s = true) :
    (s.boot.mode = .trial → (ctrOf s 4).lost = false →
      To (.fwCommit r) s fun t =>
        rollbackCtr t = max (rollbackCtr s) (imgNum (fwSlot s s.boot.runSlot) 0x0C 4)
          ∧ (rollbackCtr s < rollbackCtr t →
              (ctrOf t 4).c0.value = some (max (rollbackCtr t) ((ctrOf s 4).c0.value.getD 0))
                ∧ (ctrOf t 4).c1.value = some (max (rollbackCtr t) ((ctrOf s 4).c1.value.getD 0))
                ∧ (ctrOf t 4).c2.value = some (max (rollbackCtr t) ((ctrOf s 4).c2.value.getD 0)))
          ∧ bootSel t = { active := s.boot.runSlot, pend := none, trial := false } ∧ Answered 0x0805 r stOk 0 [] t)
    ∧ (s.boot.mode ≠ .trial →
      To (.fwCommit r) s fun t => Answered 0x0805 r stUnsupported 0 [] t ∧ Responded r s t) := by
  refine ⟨fun hmode hlive => ?_, fun hmode => answers_of_done rfl h (by simp only [fwCommitRun, hmode, if_false]; rfl) hq⟩
  generalize hn : imgNum (fwSlot s s.boot.runSlot) 0x0C 4 = n
  generalize hs1 : (if rollbackCtr s < n then setCtr 4 n s else s) = s1
  have hrun : fwCommitRun s = .done { setBootSel { active := s.boot.runSlot, pend := none, trial := false } s1 with
      boot := { s1.boot with mode := .normal } } stOk 0 [] := by
    simp only [fwCommitRun, hmode, if_true, hn, hs1]
    rfl
  have hquiet : quiet s1 = true := by
    subst hs1
    split
    · unfold setCtr
      simp only [hlive, Bool.false_eq_true, if_false]
      exact hq
    · exact hq
  refine to_of_done rfl h hrun hquiet fun t ha hr => ?_
  have hnv := nv_of_responded hr
  have hctr : ctrOf t 4 = ctrOf s1 4 := by
    rw [ctrOf, hnv]
    rfl
  have hroll : rollbackCtr t = rollbackCtr s1 := by simp only [rollbackCtr, ctrVal, hctr]
  rw [bootSel_congr (congrArg Nv.bootSel hnv), hctr, hroll]
  by_cases hlt : rollbackCtr s < n
  · rw [if_pos hlt] at hs1
    subst hs1
    have hwrite := ctrOf_setCtr (v := n) hlive
    have hval : rollbackCtr (setCtr 4 n s) = n := by
      rw [rollbackCtr, ctrVal, hwrite]
      simp [Counter.write, hlive]
    rw [hwrite, hval, max_eq_right (le_of_lt hlt)]
    exact ⟨rfl, fun _ => ⟨rfl, rfl, rfl⟩, bootSel_setBootSel .., ha⟩
  · rw [if_neg hlt] at hs1
    subst hs1
    rw [max_eq_left (not_lt.mp hlt)]
    exact ⟨rfl, fun hself => absurd hself (lt_irrefl _), bootSel_setBootSel .., ha⟩

/-- Settles O58. -/
theorem firmwareCommandsAct : Obligations.FirmwareCommandsAct := by
  intro r s hq
  refine ⟨fun h => does_of_done rfl h rfl hq, fun b h hcount h16 hmax hmod hoff hrsv hin hdata => ?_, fwVerify_acts hq, fwActivate_acts hq,
    fwCommit_acts hq⟩
  exact fwWrite_acts hcount h16 hmax hmod hoff hrsv hin hq h hdata

end Sys2Proof.Firmware
end

section
/-! # Entries of the journal, challenges and rule sets (O50, O56) -/
namespace Sys2Proof.Entries
open Sys2Proof Sys2Proof.Machine Sys2Proof.Told Sys2Proof.Replies

/-! ## Answers given while other things complete -/

theorem answered_congr {op : Nat} {r : Req} {status detail : Nat} {body : Bytes} {u t : State} (hmbxs : t.mbxs = u.mbxs)
    (husb : t.link.usbMbx = u.link.usbMbx) (hspi : t.spi.resp = u.spi.resp) (h : Answered op r status detail body u) :
    Answered op r status detail body t := by
  have hbox : mbxOf t r.fn r.mbx = mbxOf u r.fn r.mbx := by rw [mbxOf, hmbxs, mbxOf]
  unfold Answered at h ⊢
  rw [hbox, husb, hspi]
  exact h

theorem answered_settle {op : Nat} {r : Req} {status detail : Nat} {body : Bytes} {u : State} (s : State)
    (h : Answered op r status detail body u) : Answered op r status detail body (settle s u) :=
  answered_congr rfl rfl rfl h

/-- A command that is taken and answered at once, with whatever else completes in its step. -/
theorem to_of_answer {i : Instr} {op : Nat} {r : Req} {need : Option Nat} {run : State → Reply} {s u : State} {status detail : Nat}
    {body : Bytes} {P : State → Prop} (hexec : exec i s = .next (command i op r need run s)) (h : accepts op r need s = true)
    (hrun : run s = .done u status detail body)
    (hP : ∀ t, t = settle s (respond op r status detail body u) → Answered op r status detail body t → P t) : To i s P := by
  refine ⟨_, hexec, hP _ ?_ ?_⟩ <;> rw [command_accepts h, runCommand, admission_of_accepts h, hrun]
  exact answered_settle s (answered_respond ..)

theorem to_of_waiting {i : Instr} {op : Nat} {r : Req} {need : Option Nat} {run : State → Reply} {s u : State} {obj : Nat} {body : Bytes}
    {P : State → Prop} (hexec : exec i s = .next (command i op r need run s)) (h : accepts op r need s = true)
    (hrun : run s = .wait u obj body) (hP : ∀ t, t = settle s (waiting op r obj body u) → Waits op r obj t → P t) : To i s P := by
  refine ⟨_, hexec, hP _ ?_ (command_waits h hrun i)⟩
  rw [command_accepts h, runCommand, admission_of_accepts h, hrun]
  rfl

/-! ## Entries -/

@[simp] theorem settle_nextSeq (s0 s : State) : (settle s0 s).jrn.nextSeq = s.jrn.nextSeq := rfl

theorem journalled_congr {type : Nat} {body : Bytes} {s s' t t' : State} (hs : s'.jrn.nextSeq = s.jrn.nextSeq)
    (ht : t'.jrn.nextSeq = t.jrn.nextSeq) (hring : t'.nv.ring = t.nv.ring) (h : Journalled type body s t) : Journalled type body s' t' := by
  simpa only [Journalled, hs, ht, hring] using h

/-- Room for an entry is made by the ring's pages alone; the rule sets have no part in it. -/
theorem makeRoom_of_ruleSets (n : Nat) (s : State) (x : Tab RuleSet) :
    makeRoom n { s with nv := { s.nv with ruleSets := x } }
      = { makeRoom n s with nv := { (makeRoom n s).nv with ruleSets := x } } := by
  unfold makeRoom
  simp only []
  split <;> rfl

theorem ringTakes_of_ruleSets (s : State) (x : Tab RuleSet) : ringTakes { s with nv := { s.nv with ruleSets := x } } = ringTakes s := by
  simp only [ringTakes, entriesStop, roomForEntry, makeRoom_of_ruleSets]
  generalize makeRoom 2040 s = u
  rfl

@[simp] theorem length_h384 (h : BitVec 384) : (h384 h).length = 48 := by simp [h384, be]

/-! ## Challenges, device keys and partial packages (O50; R302, R316, R360) -/

theorem devPubkeys_does {r : Req} {s : State} {b : Bytes} (hq : quiet s = true) (h : accepts 0x0105 r (some 8) s = true)
    (hset : fld r 0 1 < 3) (hrsv : fld r 1 3 = 0) (hkey : fld r 4 4 = 0) (hb : deviceSet s (fld r 0 1) = some b) :
    Does (.devPubkeys r) 0x0105 r s b s := by
  have hmod : fld r 0 1 % 128 = fld r 0 1 := Nat.mod_eq_of_lt (by omega)
  have hbit : bit (fld r 0 1) 7 = false := Nat.testBit_lt_two_pow (by omega)
  have hkeys : pubkeySet s r.fn (fld r 0 1) 0 = .ok b := by
    have : fld r 0 1 = 0 ∨ fld r 0 1 = 1 ∨ fld r 0 1 = 2 := by omega
    rcases this with h0 | h0 | h0 <;> (rw [h0] at hb ⊢; simp only [pubkeySet, hb])
  refine does_of_done rfl h ?_ hq
  have hform : firstBad [(decide (4 < fld r 0 1) || (false && fld r 0 1 == 0), 16), (fld r 1 3 != 0, 17),
      (decide (fld r 0 1 < 3) && fld r 4 4 != 0, 20)] = none := by
    have h4 : decide (4 < fld r 0 1) = false := by simp; omega
    simp [firstBad, h4, hrsv, hkey]
  simp only [devPubkeysRun, hmod, hbit, hform]
  simp only [hkey, hkeys]
  rfl

theorem devChallenge_acts {r : Req} {s : State} (hq : quiet s = true) (h : accepts 0x0104 r (some 0) s = true) (hup : condUp s 1 = true) :
    To (.devChallenge r) s fun t =>
      ∃ c : BitVec 256, t.keys = { s.keys with challenge := some (c, s.opsec) } ∧ t.nv = s.nv
        ∧ Answered 0x0104 r stOk 0 (be 32 c.toNat ++ unitIdBytes ++ le 8 s.opsec ++ le 4 s.pwrCyc ++ le 1 (lcCode s.lc) ++ zeros 3) t := by
  have hrun : devChallengeRun s = .done { (takeSeed s).2 with keys := { (takeSeed s).2.keys with challenge := some ((takeSeed s).1, s.opsec) } }
      stOk 0 (be 32 (takeSeed s).1.toNat ++ unitIdBytes ++ le 8 s.opsec ++ le 4 s.pwrCyc ++ le 1 (lcCode s.lc) ++ zeros 3) := by
    simp only [devChallengeRun, hup, if_true]
  have honly := takeSeed_only s
  have hnv : (takeSeed s).2.nv = s.nv := by rw [honly]
  have hkeys : (takeSeed s).2.keys = s.keys := by rw [honly]
  have hwork : (takeSeed s).2.work = s.work := by rw [honly]
  have hjrn : (takeSeed s).2.jrn = s.jrn := by rw [honly]
  generalize takeSeed s = x at *
  refine to_of_done rfl h hrun ?_ fun t ha hr => ⟨x.1, ?_, ?_, ha⟩
  · exact quiet_of_same hq hwork hjrn hnv
  · rw [keys_of_responded hr, hkeys]
  · rw [nv_of_responded hr, hnv]

/-- Settles O50. -/
theorem challengesAndPackagesExpire : Obligations.ChallengesAndPackagesExpire := by
  intro r s hq
  refine ⟨fun h hset hrsv hkey b => devPubkeys_does hq h hset hrsv hkey, devChallenge_acts hq,
    fun c at_ hc => ⟨fun hdue => ?_, fun hearly => ?_⟩, fun fn mbx hpkg => ⟨fun hdue => ?_, fun hearly => ?_⟩⟩
  · simp only [exec, execChallengeExpiry, hc, hdue, if_true, consumeChallenge]
  · simp only [exec, execChallengeExpiry, hc, if_neg (not_le.mpr hearly)]
  · have hexec : exec (.keyImportTimeout fn mbx) s = .next (modMbx fn mbx (fun m => { m with pkg := [], pkgOp := 0 }) s) := by
      simp only [exec, execKeyImportTimeout, hpkg, hdue, ne_eq, not_false_eq_true, and_self, if_true]
    exact to_of_eq hexec ⟨Admission.mbxOf_modMbx_self .., rfl, fun k hk => Admission.tget_modMbx_ne _ _ _ _ hk⟩
  · simp only [exec, execKeyImportTimeout, not_le.mpr hearly, and_false, if_false]

/-! ## Rule sets (O56; R183, R184) -/

theorem storeRules_acts {b : Bytes} {s : State} (hring : ringTakes s = true) :
    ruleSetOf (storeRules b s) (num b 0 2) = some { ver := num b 2 2, body := b, since := s.epoch + 1 }
      ∧ (storeRules b s).epoch = s.epoch + 1 ∧ (∀ n, n ≠ num b 0 2 → ruleSetOf (storeRules b s) n = ruleSetOf s n)
      ∧ (storeRules b s).work = s.work ∧ (storeRules b s).drains = s.drains
      ∧ Journalled 0x03 (le 2 (num b 0 2) ++ le 2 (num b 2 2) ++ zeros 4 ++ h384 (sha384 b)) s (storeRules b s) := by
  have hj := journalEntry_journalled 0x03 false (ruleEntry (num b 0 2) (num b 2 2) b) s (by decide)
    (by simp [ruleEntry]) hring
  have hnv := congrArg Nv.ruleSets (journalEntry_nv 0x03 false (ruleEntry (num b 0 2) (num b 2 2) b) s)
  have hepoch := journalEntry_epoch 0x03 false (ruleEntry (num b 0 2) (num b 2 2) b) s
  have hwork := journalEntry_work 0x03 false (ruleEntry (num b 0 2) (num b 2 2) b) s
  have hdrains := journalEntry_drains 0x03 false (ruleEntry (num b 0 2) (num b 2 2) b) s
  simp only [storeRules]
  generalize journalEntry 0x03 false (ruleEntry (num b 0 2) (num b 2 2) b) s = u at *
  simp only [bumpEpoch, ruleSetOf, hnv, hepoch]
  exact ⟨tget_tset_self .., trivial, fun n hn => tget_tset_ne _ _ hn, hwork, hdrains, hj⟩

theorem pruneOld_only (s : State) : pruneOld s = { s with oldRules := (pruneOld s).oldRules } := by
  unfold pruneOld
  split <;> rfl

theorem rulesetLoad_runs {r : Req} {s : State} (hbody : bodyBad s r.body = none)
    (hroom : (ruleSetOf s (num r.body 0 2)).isSome = true ∨ s.nv.ruleSets.length < 128) (hentry : entryRefusal false s = none) :
    rulesetLoadRun r s =
      if (storeRules r.body s).work.any (ruleStepDue (storeRules r.body s).epoch) then
        .wait { storeRules r.body s with drains := (storeRules r.body s).drains ++ [(storeRules r.body s).epoch] } (storeRules r.body s).epoch
          (h384 (sha384 r.body))
      else .done (pruneOld (storeRules r.body s)) stOk 0 (h384 (sha384 r.body)) := by
  have hfree : ¬((ruleSetOf s (num r.body 0 2)).isNone && decide (ruleSetMax ≤ s.nv.ruleSets.length)) = true := by
    rw [Bool.and_eq_true, decide_eq_true_eq]
    rintro ⟨hnone, hfull⟩
    rcases hroom with h | h
    · simp [Option.isNone_iff_eq_none.mp hnone] at h
    · exact absurd h (not_lt.mpr hfull)
  simp only [rulesetLoadRun, hbody, if_neg hfree, hentry]

theorem rulesetLoad_acts {r : Req} {s : State} (h : accepts 0x0601 r none s = true) (hbody : bodyBad s r.body = none)
    (hroom : (ruleSetOf s (num r.body 0 2)).isSome = true ∨ s.nv.ruleSets.length < 128) (hentry : entryRefusal false s = none)
    (hring : ringTakes s = true) :
    To (.rulesetLoad r) s fun t =>
      ruleSetOf t (num r.body 0 2) = some { ver := num r.body 2 2, body := r.body, since := s.epoch + 1 } ∧ t.epoch = s.epoch + 1
        ∧ (∀ n, n ≠ num r.body 0 2 → ruleSetOf t n = ruleSetOf s n)
        ∧ Journalled 0x03 (le 2 (num r.body 0 2) ++ le 2 (num r.body 2 2) ++ zeros 4 ++ h384 (sha384 r.body)) s t
        ∧ (s.work.any (ruleStepDue (s.epoch + 1)) = false → Answered 0x0601 r stOk 0 (h384 (sha384 r.body)) t)
        ∧ (s.work.any (ruleStepDue (s.epoch + 1)) = true → Waits 0x0601 r (s.epoch + 1) t ∧ s.epoch + 1 ∈ t.drains) := by
  obtain ⟨hset, hepoch, hother, hwork, -, hjournal⟩ := storeRules_acts (b := r.body) hring
  have hrun := rulesetLoad_runs hbody hroom hentry
  rw [hwork, hepoch] at hrun
  generalize storeRules r.body s = u at *
  cases hdue : s.work.any (ruleStepDue (s.epoch + 1)) with
  | true =>
    rw [hdue, if_pos rfl] at hrun
    refine to_of_waiting rfl h hrun fun t ht hw => ?_
    have hnv : t.nv = u.nv := by rw [ht]; rfl
    have hseq : t.jrn.nextSeq = u.jrn.nextSeq := by rw [ht]; rfl
    refine ⟨?_, ?_, fun n hn => ?_, journalled_congr rfl hseq (congrArg Nv.ring hnv) hjournal, nofun, fun _ => ⟨hw, ?_⟩⟩
    · rw [ruleSetOf, hnv]
      exact hset
    · rw [ht]
      exact hepoch
    · rw [ruleSetOf, hnv]
      exact hother n hn
    · rw [ht]
      exact List.mem_append_right _ (List.mem_singleton.mpr rfl)
  | false =>
    rw [hdue, if_neg Bool.false_ne_true] at hrun
    refine to_of_answer rfl h hrun fun t ht ha => ?_
    have hnv : t.nv = u.nv := by rw [ht, settle_nv, respond_nv, pruneOld_only]
    have hseq : t.jrn.nextSeq = u.jrn.nextSeq := by rw [ht, settle_nextSeq, respond_jrn, pruneOld_only]
    refine ⟨?_, ?_, fun n hn => ?_, journalled_congr rfl hseq (congrArg Nv.ring hnv) hjournal, fun _ => ha, nofun⟩
    · rw [ruleSetOf, hnv]
      exact hset
    · rw [ht, settle_epoch, respond_epoch, pruneOld_only]
      exact hepoch
    · rw [ruleSetOf, hnv]
      exact hother n hn

theorem rulesetDrainEnd_exec {s : State} {e : Nat} (he : e ∈ drainedLoads s) :
    exec .rulesetDrainEnd s = .next (settle s (answerAll (fun w => w.op == 0x0601 && (drainedLoads s).contains w.obj)
      (fun w => (stOk, 0, w.body)) (pruneOld { s with drains := s.drains.filter fun e => !(drainedLoads s).contains e }))) := by
  simp only [exec, execRulesetDrainEnd]
  cases h : drainedLoads s with
  | nil => exact absurd (h ▸ he) List.not_mem_nil
  | cons x xs => rfl

theorem mem_drainedLoads {s : State} {e : Nat} : e ∈ drainedLoads s ↔ e ∈ s.drains ∧ s.work.any (ruleStepDue e) = false := by
  simp [drainedLoads]

theorem quiet_answerAll {s : State} (hq : quiet s = true) (p : Waiter → Bool) (reply : Waiter → Nat × Nat × Bytes) :
    quiet (answerAll p reply s) = true :=
  quiet_of_same hq (answerAll_work ..) (answerAll_jrn ..) (answerAll_nv ..)

theorem answerAll_waiters (p : Waiter → Bool) (reply : Waiter → Nat × Nat × Bytes) (s : State) :
    (answerAll p reply s).waiters = s.waiters.filter fun w => !p w := by
  unfold answerAll
  simp only []
  refine foldl_keeps (P := fun t => t.waiters = s.waiters.filter fun w => !p w) _ _ _ rfl fun t w h => ?_
  rw [answerWaiter_only, h]

theorem rulesetDrainEnd_acts {s : State} (hq : quiet s = true) {e : Nat} (he : e ∈ s.drains) (hpassed : s.work.any (ruleStepDue e) = false) :
    To .rulesetDrainEnd s fun t =>
      e ∉ t.drains ∧ (∀ w ∈ t.waiters, ¬(w.op = 0x0601 ∧ w.obj = e)) ∧ t.nv = s.nv ∧ t.work = s.work
        ∧ (∀ e' ∈ s.drains, s.work.any (ruleStepDue e') = true → e' ∈ t.drains)
        ∧ ∀ w, s.waiters = [w] → w.op = 0x0601 → w.obj = e → w.orphan = false → Answered 0x0601 w.req stOk 0 w.body t := by
  have hin : e ∈ drainedLoads s := mem_drainedLoads.mpr ⟨he, hpassed⟩
  have hexec := rulesetDrainEnd_exec hin
  generalize hu : pruneOld { s with drains := s.drains.filter fun e => !(drainedLoads s).contains e } = u at hexec
  have honly := pruneOld_only { s with drains := s.drains.filter fun e => !(drainedLoads s).contains e }
  rw [hu] at honly
  have hdrains : u.drains = s.drains.filter fun e => !(drainedLoads s).contains e := by rw [honly]
  have hwaiters : u.waiters = s.waiters := by rw [honly]
  have hquiet : quiet u = true := quiet_of_same hq (by rw [honly]) (by rw [honly]) (by rw [honly])
  have hn := settle_quiet s
    (quiet_answerAll hquiet (fun w => w.op == 0x0601 && (drainedLoads s).contains w.obj) fun w => (stOk, 0, w.body))
  refine ⟨_, hexec, ?_, fun w hw => ?_, ?_, ?_, fun e' he' hstill => ?_, fun w hw hop hobj horphan => ?_⟩
  · rw [settle_drains, answerAll_drains, hdrains]
    simp [hin]
  · rw [settle_waiters, answerAll_waiters, List.mem_filter] at hw
    rintro ⟨hop, hobj⟩
    simp [hop, hobj, hin] at hw
  · rw [settle_nv, answerAll_nv, honly]
  · rw [work_of_notified hn, answerAll_work, honly]
  · rw [settle_drains, answerAll_drains, hdrains, List.mem_filter]
    refine ⟨he', ?_⟩
    have hnot : e' ∉ drainedLoads s := fun hmem => by
      rw [mem_drainedLoads, hstill] at hmem
      exact absurd hmem.2 (by decide)
    simp [hnot]
  · rw [answerAll_single (by rw [hwaiters, hw]) (by simp [hop, hobj, hin]) horphan, hop]
    exact answered_settle s (answered_respond ..)

section
variable {r : Req} {s : State} {x : RuleSet} (hx : ruleSetOf s (fld r 0 2) = some x) (hrsv : fld r 2 2 = 0)
include hx hrsv

theorem rulesetForm_ok : firstBad [((ruleSetOf s (fld r 0 2)).isNone, 16), (fld r 2 2 != 0, 18)] = none := by
  simp [firstBad, hx, hrsv]

theorem rulesetQuery_does (hq : quiet s = true) (h : accepts 0x0602 r (some 4) s = true) :
    Does (.rulesetQuery r) 0x0602 r s
      (x.body.take 5 ++ [0] ++ slice x.body 6 2 ++ le 4 (ruleUses s (fld r 0 2)) ++ zeros 4 ++ h384 (sha384 x.body)) s := by
  refine does_of_done rfl h ?_ hq
  simp only [rulesetQueryRun, rulesetForm_ok hx hrsv]
  simp only [hx]

theorem rulesetDelete_of_used (hused : ruleUses s (fld r 0 2) ≠ 0) : rulesetDeleteRun r s = .refuse s stBusyOwned 0 := by
  simp only [rulesetDeleteRun, rulesetForm_ok hx hrsv]
  simp only [hx, if_pos hused]

theorem rulesetDelete_of_free (hfree : ruleUses s (fld r 0 2) = 0) (hentry : entryRefusal false s = none) :
    rulesetDeleteRun r s = .done (journalEntry 0x03 false (ruleEntry (fld r 0 2) 0 x.body)
      { s with nv := { s.nv with ruleSets := tdel s.nv.ruleSets (fld r 0 2) } }) stOk 0 [] := by
  simp only [rulesetDeleteRun, rulesetForm_ok hx hrsv]
  simp only [hx, hfree, ne_eq, not_true_eq_false, if_false, hentry]

theorem rulesetDelete_refused (hq : quiet s = true) (h : accepts 0x0603 r (some 4) s = true) (hused : ruleUses s (fld r 0 2) ≠ 0) :
    To (.rulesetDelete r) s fun t => Answered 0x0603 r stBusyOwned 0 [] t ∧ Responded r s t :=
  answers_of_done rfl h (rulesetDelete_of_used hx hrsv hused) hq

theorem rulesetDelete_deletes (h : accepts 0x0603 r (some 4) s = true) (hfree : ruleUses s (fld r 0 2) = 0)
    (hentry : entryRefusal false s = none) (hring : ringTakes s = true) :
    To (.rulesetDelete r) s fun t =>
      ruleSetOf t (fld r 0 2) = none ∧ (∀ n, n ≠ fld r 0 2 → ruleSetOf t n = ruleSetOf s n) ∧ t.epoch = s.epoch
        ∧ Journalled 0x03 (le 2 (fld r 0 2) ++ le 2 0 ++ zeros 4 ++ h384 (sha384 x.body)) s t
        ∧ Answered 0x0603 r stOk 0 [] t := by
  have hrun := rulesetDelete_of_free hx hrsv hfree hentry
  have hring' := (ringTakes_of_ruleSets s (tdel s.nv.ruleSets (fld r 0 2))).trans hring
  generalize hs1 : { s with nv := { s.nv with ruleSets := tdel s.nv.ruleSets (fld r 0 2) } } = s1 at hrun hring'
  have hj := journalEntry_journalled 0x03 false (ruleEntry (fld r 0 2) 0 x.body) s1 (by decide) (by simp [ruleEntry]) hring'
  have hsets : (journalEntry 0x03 false (ruleEntry (fld r 0 2) 0 x.body) s1).nv.ruleSets = tdel s.nv.ruleSets (fld r 0 2) := by
    rw [journalEntry_nv, ← hs1]
  have hepoch : (journalEntry 0x03 false (ruleEntry (fld r 0 2) 0 x.body) s1).epoch = s.epoch := by rw [journalEntry_epoch, ← hs1]
  have hseq : s.jrn.nextSeq = s1.jrn.nextSeq := by rw [← hs1]
  refine to_of_answer rfl h hrun fun t ht ha => ?_
  generalize journalEntry 0x03 false (ruleEntry (fld r 0 2) 0 x.body) s1 = u at *
  have hnv : t.nv = u.nv := by rw [ht, settle_nv, respond_nv]
  refine ⟨?_, fun n hn => ?_, ?_, ?_, ha⟩
  · rw [ruleSetOf, hnv, hsets]
    exact tget_tdel_self ..
  · rw [ruleSetOf, hnv, hsets]
    exact tget_tdel_ne _ hn
  · rw [ht, settle_epoch, respond_epoch, hepoch]
  · exact journalled_congr hseq (by rw [ht, settle_nextSeq, respond_jrn]) (congrArg Nv.ring hnv) hj

end

/-- Settles O56. -/
theorem ruleSetCommandsAct : Obligations.RuleSetCommandsAct := by
  intro r s hq
  refine ⟨?_, fun e => rulesetDrainEnd_acts hq, fun x hx hrsv => ⟨rulesetQuery_does hx hrsv hq, fun h => ⟨rulesetDelete_refused hx hrsv hq h, ?_⟩⟩⟩
  · rintro _ rfl
    exact rulesetLoad_acts
  · exact rulesetDelete_deletes hx hrsv h

end Sys2Proof.Entries
end

section
/-! # Identity, status, requested tests and the bounds of waits (O59) -/
namespace Sys2Proof.DeviceCommands
open Sys2Proof Sys2Proof.Machine Sys2Proof.Told Sys2Proof.Replies Sys2Proof.Entries Sys2Proof.HoldUp Sys2Proof.Redundancy

/-! ## The form of DIAG_SELFTEST (R209, R418) -/

/-- The steps of a requested test, by its TARGET (R418). -/
def testOf (target unit : Nat) (force : Bool) (c : CapReading) (s : State) : Reply :=
  match target with
  | 1 => testSlot 1 unit unit force s
  | 2 => testOfLane unit force s
  | 3 => testOfBank unit force s
  | 4 => testOfPke unit force s
  | _ => testOfCap c s

section
variable {r : Req} {s : State} (c : CapReading) (hflags : fld r 2 1 ≤ 1) (hrsv : fld r 3 1 = 0)
  (hlanes : lanesBusy s = false) (htest : s.sched.laneTest = none)
include hflags hrsv hlanes htest

/-- A test of a unit that exists, with nothing under test, is begun by the target's own steps. -/
theorem selftest_runs (hunit : fld r 1 1 < testUnits (fld r 0 1)) :
    selftestRun r c s = testOf (fld r 0 1) (fld r 1 1) (fld r 2 1 == 1) c s := by
  have hknown : testUnits (fld r 0 1) ≠ 0 := by omega
  have hform : firstBad [(decide (testUnits (fld r 0 1) ≤ fld r 1 1), 17), (decide (1 < fld r 2 1), 18), (fld r 3 1 != 0, 19)] = none := by
    simp only [firstBad]
    rw [if_neg (by simpa using hunit), if_neg (by simpa using hflags), if_neg (by simpa using hrsv)]
  have hforce : bit (fld r 2 1) 0 = (fld r 2 1 == 1) := by
    have : fld r 2 1 = 0 ∨ fld r 2 1 = 1 := by omega
    rcases this with h | h <;> rw [h] <;> rfl
  simp only [selftestRun, if_neg hknown, hform, hlanes, htest, hforce]
  exact if_neg Bool.false_ne_true

end

theorem selftest_unknown {r : Req} {s : State} (c : CapReading) (h : fld r 0 1 = 0 ∨ 5 < fld r 0 1) :
    selftestRun r c s = .refuse s stUnsupported 0 := by
  have hknown : testUnits (fld r 0 1) = 0 := by
    unfold testUnits
    split <;> omega
  simp only [selftestRun, hknown, if_true]

/-- What a test that is deferred leaves (R209). -/
theorem deferred_told {i : Instr} {r : Req} {need : Option Nat} {run : State → Reply} {s : State} {target unit : Nat} {P : State → Prop}
    (hexec : exec i s = .next (command i 0x0903 r need run s)) (h : accepts 0x0903 r need s = true)
    (hrun : run s = deferTest target unit s)
    (hP : ∀ t, Answered 0x0903 r stTestDeferred 0 [] t → t.banks = s.banks → t.pkes = s.pkes → t.slots = s.slots → t.lanes = s.lanes → P t) :
    To i s P := by
  refine to_of_answer hexec h hrun fun t ht ha => hP t ha ?_ ?_ ?_ ?_ <;> rw [ht] <;> simp [testDeferred]

/-! ## The tests of each kind of unit -/

/-- A requested measurement of the capacitor is judged and answered at once (R59). -/
theorem testOfCap_answers {i : Instr} {r : Req} {need : Option Nat} {run : State → Reply} {s : State} {c : CapReading} {fail : Bool}
    (hfail : fail = (decide (capUf ⟨true, c⟩ < 150) || decide (500 < capMohm ⟨true, c⟩)))
    (hexec : exec i s = .next (command i 0x0903 r need run s)) (h : accepts 0x0903 r need s = true) (hrun : run s = testOfCap c s) :
    To i s fun t =>
      t.pwr.cap = ⟨true, c⟩ ∧ t.pwr.capOpsec = s.opsec ∧ t.pwr.degraded = (s.pwr.degraded || fail)
        ∧ ∃ d, Answered 0x0903 r stOk 0 (le 1 5 ++ le 1 0 ++ le 1 (b2n fail) ++ [0] ++ le 4 d) t := by
  have hreason : (serviceReason ⟨true, c⟩).isSome = fail := by
    have hiff := serviceReason_eq_none_iff ⟨true, c⟩
    rw [Bool.eq_iff_iff, Option.isSome_iff_ne_none, ne_eq, hiff, hfail, Bool.or_eq_true, decide_eq_true_eq, decide_eq_true_eq]
    tauto
  have hpwr := pwr_judgeCap ⟨true, c⟩ s
  rw [Bool.or_assoc, ← hfail] at hpwr
  generalize hu : (if fail = true then event 0x0109 (unitArg 0x15 0) (judgeCap ⟨true, c⟩ s) else judgeCap ⟨true, c⟩ s) = u at *
  have hupwr : u.pwr = (judgeCap ⟨true, c⟩ s).pwr := by
    rw [← hu]
    split
    · rw [event_pwr]
    · rfl
  have hdone : run s = .done (drew u) stOk 0 (testBody 5 0 fail u) := by
    rw [hrun, testOfCap]
    simp only [hreason, hu]
  refine to_of_answer hexec h hdone fun t ht ha => ?_
  have htpwr : t.pwr = (judgeCap ⟨true, c⟩ s).pwr := by
    rw [ht, settle_pwr, respond_pwr, ← hupwr]
    rfl
  rw [htpwr, hpwr]
  exact ⟨rfl, rfl, rfl, _, ha⟩

/-- A lane that was OFF, with a seed and under test (R186, R209). -/
def laneUnderTest (n : Nat) (s : State) : State :=
  let t := laneDomains n .on (modLane n (fun l => { l with
    st := .testing, isolated := true, keys := [], out := [], seeded := true, maskSeed := (takeSeed s).1 }) (takeSeed s).2)
  { t with sched := { t.sched with laneTest := some { lanes := [n], failed := false } } }

theorem testOfLane_off {s : State} {n : Nat} (force : Bool) (hoff : (laneOf s n).st = .off) (hup : condUp s 1 = true) :
    testOfLane n force s = .wait (laneUnderTest n s) (2 + 256 * n) [] := by
  simp only [testOfLane, hoff, hup, if_true]
  rfl

theorem laneUnderTest_acts {s : State} {n : Nat} (hlen : n < s.lanes.length) :
    (laneOf (laneUnderTest n s) n).st = .testing ∧ (laneUnderTest n s).nv = s.nv := by
  have honly := takeSeed_only s
  have hlanes : (takeSeed s).2.lanes = s.lanes := by rw [honly]
  have hnv : (takeSeed s).2.nv = s.nv := by rw [honly]
  have hself := laneOf_modLane_self (s := (takeSeed s).2) (hlanes ▸ hlen) fun l => { l with
    st := .testing, isolated := true, keys := [], out := [], seeded := true, maskSeed := (takeSeed s).1 }
  have hunder : (laneUnderTest n s).lanes = (modLane n (fun l => { l with
      st := .testing, isolated := true, keys := [], out := [], seeded := true, maskSeed := (takeSeed s).1 }) (takeSeed s).2).lanes := by
    simp only [laneUnderTest, laneDomains_lanes]
  refine ⟨by rw [laneOf_congr hunder, hself], ?_⟩
  simp [laneUnderTest, laneDomains, hnv]

theorem bankOf_modBank_self {b : Nat} {s : State} (h : b < s.banks.length) (f : Bank → Bank) : bankOf (modBank b f s) b = f (bankOf s b) := by
  simp [bankOf, modBank, modAt, List.getD_eq_getElem?_getD, h]

/-- A test of a bank out of service starts it; the calibration follows (R215, R221). -/
theorem testOfBank_starts {s : State} {b : Nat} (force : Bool) (h : (bankOf s b).st = .off ∨ (bankOf s b).st = .suspended) :
    testOfBank b force s = .wait (modBank b (fun x => { x with wantCal := true }) (startBank b s)) (3 + 256 * b) [] := by
  rcases h with h | h <;> (simp only [testOfBank, h]; rfl)

theorem startBank_acts {s : State} {b : Nat} (hlen : b < s.banks.length) :
    (bankOf (modBank b (fun x => { x with wantCal := true }) (startBank b s)) b).st = .starting := by
  have hstart : bankOf (startBank b s) b = { bankOf s b with st := .starting, retry := false, ready := false } := bankOf_modBank_self hlen _
  have hlen' : b < (startBank b s).banks.length := by simpa [startBank, modBank] using hlen
  rw [bankOf_modBank_self hlen', hstart]

theorem testOfBank_serving {s : State} {b : Nat} (force : Bool) (h : (bankOf s b).st = .serving) (hcal : bankCalibrating s = false) :
    testOfBank b force s = if othersServing s b < 2 && !force then deferTest 3 b s
      else .wait (modBank b (fun x => { x with wantCal := true }) (calibrate b s)) (3 + 256 * b) [] := by
  simp only [testOfBank, h, hcal]
  rfl

theorem calibrate_acts {s : State} {b : Nat} (hlen : b < s.banks.length) :
    (bankOf (modBank b (fun x => { x with wantCal := true }) (calibrate b s)) b).st = .calibrating := by
  have hcal : bankOf (calibrate b s) b = { bankOf s b with st := .calibrating, deferred := false, ready := false, heldRaw := none } :=
    bankOf_modBank_self hlen _
  have hlen' : b < (calibrate b s).banks.length := by simpa [calibrate, modBank] using hlen
  rw [bankOf_modBank_self hlen', hcal]

theorem testOfPke_idle {s : State} {k : Nat} (force : Bool) (hin : (s.pkes.getD k {}).inService = true) (hidle : ∀ p ∈ s.pkes, p.testing = false) :
    testOfPke k force s = if !(s.pkes.getD (1 - k) {}).inService && !force then deferTest 4 k s
      else .wait (setDomain (13 + k) .on { s with pkes := modAt s.pkes k fun p => { p with testing := true, on := true } }) (4 + 256 * k) [] := by
  have hnone : s.pkes.any (·.testing) = false := by
    rw [List.any_eq_false]
    exact fun p hp => by simp [hidle p hp]
  simp only [testOfPke, hnone, hin]
  rfl

theorem beginTest_sched (p : Nat) (s : State) : (beginTest p s).sched = s.sched := by
  have hstart : ∀ n (u : State), (startLane p n u).sched = u.sched := by
    intro n u
    have hseed : (takeSeed u).2.sched = u.sched := by rw [takeSeed_only]
    simp [startLane, laneDomains, hseed]
  unfold beginTest
  split
  · rw [hstart, hstart]
  · rfl

/-- A requested test of a pair slot in service (R208, R209). -/
theorem testSlot_in {s : State} (target unit : Nat) {p : Nat} (force : Bool) (hin : (slotOf s p).inService = true) :
    testSlot target unit p force s = if wouldStarve s && !force then deferTest target unit s
      else .wait (beginTest p { s with
        sched := { s.sched with laneTest := some { lanes := [(slotOf s p).l0, (slotOf s p).l1], failed := false } } }) (target + 256 * unit) [] := by
  simp only [testSlot, hin]
  rfl

/-! ## The clauses of DIAG_SELFTEST -/

section
variable {r : Req} {s : State} (c : CapReading) (h : accepts 0x0903 r (some 4) s = true) (hflags : fld r 2 1 ≤ 1) (hrsv : fld r 3 1 = 0)
  (hlanes : lanesBusy s = false) (htest : s.sched.laneTest = none)
include h hflags hrsv hlanes htest

/-- A test that waits for its end: what holds of the state in which it is begun holds afterwards, where no completion has a part in it. -/
theorem selftest_waits {u : State} {obj : Nat} {P : State → Prop} (hunit : fld r 1 1 < testUnits (fld r 0 1))
    (hrun : testOf (fld r 0 1) (fld r 1 1) (fld r 2 1 == 1) c s = .wait u obj [])
    (hP : ∀ t : State, Waits 0x0903 r obj t → t.lanes = u.lanes → t.banks = u.banks → t.pkes = u.pkes → t.sched = u.sched → t.nv = u.nv → P t) :
    To (.diagSelftest r c) s P := by
  refine to_of_waiting rfl h ((selftest_runs c hflags hrsv hlanes htest hunit).trans hrun) fun t ht hw => hP t hw ?_ ?_ ?_ ?_ ?_ <;> rw [ht] <;> rfl

theorem selftest_defers {target unit : Nat} {P : State → Prop} (hunit : fld r 1 1 < testUnits (fld r 0 1))
    (hrun : testOf (fld r 0 1) (fld r 1 1) (fld r 2 1 == 1) c s = deferTest target unit s)
    (hP : ∀ t, Answered 0x0903 r stTestDeferred 0 [] t → t.banks = s.banks → t.pkes = s.pkes → t.slots = s.slots → t.lanes = s.lanes → P t) :
    To (.diagSelftest r c) s P :=
  deferred_told rfl h ((selftest_runs c hflags hrsv hlanes htest hunit).trans hrun) hP

theorem selftest_of_lane (hq : quiet s = true) {n : Nat} (htarget : fld r 0 1 = 2) (hn : fld r 1 1 = n) (hlt : n < 8) (hlen : s.lanes.length = 8) :
    ((laneOf s n).st = .off → condUp s 1 = true →
      To (.diagSelftest r c) s fun t => Waits 0x0903 r (2 + 256 * n) t ∧ (laneOf t n).st = .testing ∧ t.nv = s.nv)
    ∧ ((laneOf s n).st = .failed →
      To (.diagSelftest r c) s fun t => Answered 0x0903 r stUnsupported 0 [] t ∧ Responded r s t) := by
  subst hn
  have hunit : fld r 1 1 < testUnits (fld r 0 1) := by rw [htarget]; exact hlt
  refine ⟨fun hoff hup => ?_, fun hfailed => ?_⟩
  · refine selftest_waits c h hflags hrsv hlanes htest hunit (by rw [htarget]; exact testOfLane_off _ hoff hup)
      fun t hw hlanes' _ _ _ hnv => ?_
    obtain ⟨hst, hnv'⟩ := laneUnderTest_acts (s := s) (n := fld r 1 1) (by omega)
    exact ⟨hw, by rw [laneOf_congr hlanes', hst], hnv.trans hnv'⟩
  · have hrun := selftest_runs c hflags hrsv hlanes htest hunit
    rw [htarget] at hrun
    have hlane : testOfLane (fld r 1 1) (fld r 2 1 == 1) s = .refuse s stUnsupported 0 := by simp only [testOfLane, hfailed]
    exact answers_of_done rfl h (hrun.trans hlane) hq

theorem selftest_of_bank {b : Nat} (htarget : fld r 0 1 = 3) (hb : fld r 1 1 = b) (hlt : b < 3) (hlen : s.banks.length = 3) :
    (((bankOf s b).st = .off ∨ (bankOf s b).st = .suspended) →
      To (.diagSelftest r c) s fun t => Waits 0x0903 r (3 + 256 * b) t ∧ (bankOf t b).st = .starting ∧ t.nv = s.nv)
    ∧ ((bankOf s b).st = .serving → bankCalibrating s = false →
      ((2 ≤ othersServing s b ∨ fld r 2 1 = 1) →
        To (.diagSelftest r c) s fun t => Waits 0x0903 r (3 + 256 * b) t ∧ (bankOf t b).st = .calibrating ∧ t.nv = s.nv)
      ∧ (othersServing s b < 2 → fld r 2 1 = 0 →
        To (.diagSelftest r c) s fun t => Answered 0x0903 r stTestDeferred 0 [] t ∧ t.banks = s.banks)) := by
  subst hb
  have hunit : fld r 1 1 < testUnits (fld r 0 1) := by rw [htarget]; exact hlt
  refine ⟨fun hst => ?_, fun hst hcal => ⟨fun hmay => ?_, fun hfew hforce => ?_⟩⟩
  · refine selftest_waits c h hflags hrsv hlanes htest hunit (by rw [htarget]; exact testOfBank_starts _ hst) fun t hw _ hbanks _ _ hnv => ?_
    refine ⟨hw, ?_, hnv⟩
    rw [bankOf, hbanks]
    exact startBank_acts (by omega)
  · have hgo : (decide (othersServing s (fld r 1 1) < 2) && !(fld r 2 1 == 1)) = false := by
      rcases hmay with hmay | hmay
      · simp [not_lt.mpr hmay]
      · simp [hmay]
    have hrun := testOfBank_serving (fld r 2 1 == 1) hst hcal
    rw [if_neg (by rw [hgo]; exact Bool.false_ne_true)] at hrun
    refine selftest_waits c h hflags hrsv hlanes htest hunit (by rw [htarget]; exact hrun) fun t hw _ hbanks _ _ hnv => ?_
    refine ⟨hw, ?_, hnv⟩
    rw [bankOf, hbanks]
    exact calibrate_acts (by omega)
  · have hrun := testOfBank_serving (fld r 2 1 == 1) hst hcal
    rw [if_pos (by simp [hfew, hforce])] at hrun
    exact selftest_defers c h hflags hrsv hlanes htest hunit (by rw [htarget]; exact hrun) fun t ha hbanks _ _ _ => ⟨ha, hbanks⟩

theorem selftest_of_pke {k : Nat} (htarget : fld r 0 1 = 4) (hk : fld r 1 1 = k) (hlt : k < 2) (hlen : s.pkes.length = 2)
    (hin : (s.pkes.getD k {}).inService = true) (hidle : ∀ p ∈ s.pkes, p.testing = false) :
    (((s.pkes.getD (1 - k) {}).inService = true ∨ fld r 2 1 = 1) →
      To (.diagSelftest r c) s fun t => Waits 0x0903 r (4 + 256 * k) t ∧ (t.pkes.getD k {}).testing = true)
    ∧ ((s.pkes.getD (1 - k) {}).inService = false → fld r 2 1 = 0 →
      To (.diagSelftest r c) s fun t => Answered 0x0903 r stTestDeferred 0 [] t ∧ t.pkes = s.pkes) := by
  subst hk
  have hunit : fld r 1 1 < testUnits (fld r 0 1) := by rw [htarget]; exact hlt
  have hrun := testOfPke_idle (fld r 2 1 == 1) hin hidle
  refine ⟨fun hmay => ?_, fun hout hforce => ?_⟩
  · have hgo : (!(s.pkes.getD (1 - fld r 1 1) {}).inService && !(fld r 2 1 == 1)) = false := by
      rcases hmay with hmay | hmay
      · rw [hmay]
        rfl
      · simp [hmay]
    rw [if_neg (by rw [hgo]; exact Bool.false_ne_true)] at hrun
    refine selftest_waits c h hflags hrsv hlanes htest hunit (by rw [htarget]; exact hrun) fun t hw _ _ hpkes _ _ => ⟨hw, ?_⟩
    have hlt' : fld r 1 1 < s.pkes.length := by omega
    rw [hpkes]
    simp [modAt, List.getD_eq_getElem?_getD, hlt']
  · rw [if_pos (by rw [hout, hforce]; rfl)] at hrun
    exact selftest_defers c h hflags hrsv hlanes htest hunit (by rw [htarget]; exact hrun) fun t ha _ hpkes _ _ => ⟨ha, hpkes⟩

theorem selftest_of_slot {p : Nat} (htarget : fld r 0 1 = 1) (hp : fld r 1 1 = p) (hlt : p < 3) (hin : (slotOf s p).inService = true) :
    (wouldStarve s = true → fld r 2 1 = 0 →
      To (.diagSelftest r c) s fun t => Answered 0x0903 r stTestDeferred 0 [] t ∧ t.slots = s.slots ∧ t.lanes = s.lanes)
    ∧ ((wouldStarve s = false ∨ fld r 2 1 = 1) →
      To (.diagSelftest r c) s fun t =>
        Waits 0x0903 r (1 + 256 * p) t ∧ t.sched.laneTest = some ⟨[(slotOf s p).l0, (slotOf s p).l1], false⟩) := by
  subst hp
  have hunit : fld r 1 1 < testUnits (fld r 0 1) := by rw [htarget]; exact hlt
  have hrun := testSlot_in 1 (fld r 1 1) (fld r 2 1 == 1) hin
  refine ⟨fun hstarve hforce => ?_, fun hmay => ?_⟩
  · rw [if_pos (by rw [hstarve, hforce]; rfl)] at hrun
    exact selftest_defers c h hflags hrsv hlanes htest hunit (by rw [htarget]; exact hrun)
      fun t ha _ _ hslots hlanes' => ⟨ha, hslots, hlanes'⟩
  · have hgo : (wouldStarve s && !(fld r 2 1 == 1)) = false := by
      rcases hmay with hmay | hmay
      · rw [hmay]
        rfl
      · simp [hmay]
    rw [if_neg (by rw [hgo]; exact Bool.false_ne_true)] at hrun
    refine selftest_waits c h hflags hrsv hlanes htest hunit (by rw [htarget]; exact hrun) fun t hw _ _ _ hsched _ => ⟨hw, ?_⟩
    rw [hsched, beginTest_sched]

end

/-! ## The bounds of waiting commands (R183, R229, R277) -/

theorem commandWaitTimeout_answers {s : State} {w : Waiter} {status detail : Nat} {body : Bytes} (hq : quiet s = true) (hw : s.waiters = [w])
    (horphan : w.orphan = false) (hbound : boundAnswer s w = some (status, detail, body)) :
    To (.commandWaitTimeout w.req.fn w.req.mbx) s fun t =>
      Answered w.op w.req status detail body t ∧ Responded w.req { s with waiters := [] } t := by
  have hexec : exec (.commandWaitTimeout w.req.fn w.req.mbx) s = .next (settle s (answerAll
      (fun x => x.req.fn == w.req.fn && x.req.mbx == w.req.mbx && (boundAnswer s x).isSome)
      (fun x => (boundAnswer s x).getD (0, 0, [])) s)) := rfl
  rw [answerAll_single hw (by simp [hbound]) horphan, hbound] at hexec
  exact to_of_response hexec hq

/-- Settles O59. -/
theorem deviceCommandsAct : Obligations.DeviceCommandsAct := by
  intro r s hq
  refine ⟨fun h => does_of_done rfl h rfl hq, fun h => does_of_done rfl h rfl hq, fun op hop htakes hform => ?_,
    fun c h hunknown => answers_of_done rfl h (selftest_unknown c hunknown) hq, fun c h hflags hrsv hlanes htest => ⟨?_, ?_, ?_, ?_, ?_⟩, ?_⟩
  · have hadmission : admission op.toNat r none s = some (stUnsupported, 0) := by
      have hpath : pathOk r s = true := by
        simp only [takes, Bool.and_eq_true] at htakes
        exact htakes.1.1.2
      simp [admission, hpath, hform, opcodeIssued, hop]
    have hexec : exec (.mailboxUnknownOpcode r op) s
        = .next (command (.mailboxUnknownOpcode r op) op.toNat r none (fun s => .refuse s stUnsupported 0) s) := by
      simp only [exec, execMailboxUnknownOpcode, hop, Bool.false_eq_true, if_false]
    exact ⟨_, hexec, command_refuses htakes hadmission hq _ _⟩
  · intro htarget hunit fail hfail
    have hrun := selftest_runs c hflags hrsv hlanes htest (by rw [htarget, hunit]; decide)
    rw [htarget] at hrun
    exact testOfCap_answers hfail rfl h hrun
  · intro n htarget hn hlt hlen
    exact selftest_of_lane c h hflags hrsv hlanes htest hq htarget hn hlt hlen
  · intro b htarget hb hlt hlen
    exact selftest_of_bank c h hflags hrsv hlanes htest htarget hb hlt hlen
  · intro k htarget hk hlt hlen hin hidle
    exact selftest_of_pke c h hflags hrsv hlanes htest htarget hk hlt hlen hin hidle
  · intro p htarget hp hlt hin
    exact selftest_of_slot c h hflags hrsv hlanes htest htarget hp hlt hin
  · rintro w _ _ hw rfl rfl horphan
    refine ⟨fun hop => ?_, fun hop => ?_, fun hop => ?_⟩
    · obtain ⟨t, hexec, ha, hr⟩ := commandWaitTimeout_answers hq hw horphan (status := stBusyOwned) (detail := 0) (body := [])
        (by simp only [boundAnswer, hop])
      exact ⟨t, hexec, waiters_of_responded hr, hop ▸ ha, hr⟩
    · obtain ⟨t, hexec, ha, hr⟩ := commandWaitTimeout_answers hq hw horphan (status := stBusyOwned) (detail := 0) (body := w.body)
        (by simp only [boundAnswer, hop])
      exact ⟨t, hexec, waiters_of_responded hr, hop ▸ ha, by rw [hr.1]⟩
    · obtain ⟨t, hexec, ha, hr⟩ := commandWaitTimeout_answers hq hw horphan (status := stBusyOwned) (detail := 0) (body := syncBody s)
        (by simp only [boundAnswer, hop])
      exact ⟨t, hexec, waiters_of_responded hr, hop ▸ ha⟩

end Sys2Proof.DeviceCommands
end

section
/-! # NOP in its slot of the completion ring (O23) -/
namespace Sys2Proof.NopCompletion
open Sys2Proof Sys2Proof.Machine Sys2Proof.Told Sys2Proof.Admission

/-! ## What is sent is only added to -/

/-- The bytes and messages sent since `s`. -/
def Sent (s t : State) : Prop := ∃ more, t.out = s.out ++ more

theorem sent_refl (s : State) : Sent s s := ⟨[], (List.append_nil _).symm⟩

theorem sent_trans {s t u : State} (h : Sent s t) (h' : Sent t u) : Sent s u := by
  obtain ⟨a, ha⟩ := h
  obtain ⟨b, hb⟩ := h'
  exact ⟨a ++ b, by rw [hb, ha, List.append_assoc]⟩

theorem message_out (f v : Nat) (p : Post) : ∃ more, (p.message f v).out = p.out ++ more := by
  unfold Post.message
  simp only []
  split
  · exact ⟨[], (List.append_nil _).symm⟩
  · exact ⟨_, rfl⟩

theorem signal_out (f v : Nat) (p : Post) : ∃ more, (p.signal f v).out = p.out ++ more := by
  unfold Post.signal
  simp only []
  split
  · exact message_out f v p
  · exact ⟨[], (List.append_nil _).symm⟩

theorem devEvent_sent (f b : Nat) (s : State) : Sent s (devEvent f b s) := by
  unfold devEvent
  simp only []
  split
  · exact message_out _ _ _
  · exact sent_refl s

theorem devEventAll_sent (b : Nat) (s : State) : Sent s (devEventAll b s) := by
  unfold devEventAll
  refine foldl_keeps (P := Sent s) _ _ _ (sent_refl s) fun t f h => ?_
  split
  · exact sent_trans h (devEvent_sent f b t)
  · exact h

theorem noteChanges_sent (s0 s : State) : Sent s (noteChanges s0 s) := by
  have hstep : ∀ (p : Prop) [Decidable p] (b : Nat) (t : State), Sent s t → Sent s (if p then devEventAll b t else t) := by
    intro p _ b t h
    split
    · exact sent_trans h (devEventAll_sent b t)
    · exact h
  unfold noteChanges
  simp only []
  refine foldl_keeps (P := Sent s) _ _ _ ?_ fun t f h => ?_
  · exact hstep _ 2 _ (hstep _ 1 _ (hstep _ 0 _ (sent_refl s)))
  · split
    · exact sent_trans h (devEvent_sent f 3 t)
    · exact h

/-! ## The one completion that is due (R136, R137, R140) -/

theorem finalStatus_of_no_seq {j : Journal} {w : Work} (h : w.seq = 0) : finalStatus j w = w.status := by simp [finalStatus, h]

/-- The one entry, which is done, completes. -/
theorem deliver_single {s : State} {w : Work} (hw : s.work = [w]) (hmay : mayComplete s.jrn w = true) :
    ∃ d : Deliver, d = Deliver.put s.gates w.qix (eHtag w.ent) w.seq (finalStatus s.jrn w) w.detail w.acc
        ⟨s.queues, s.post, s.link.usbOut, s.spi.compl, []⟩
      ∧ deliver s = d.faults.foldl (fun t f => gateFault f t) (recharge { s with
          work := [], queues := d.queues, vecs := d.post.vecs, out := d.post.out, pmon := d.post.pmon
          link := { s.link with usbOut := d.usb }, spi := { s.spi with compl := d.spi } }) := by
  refine ⟨_, rfl, ?_⟩
  have hall : ∀ d, deliverAll s.gates s.jrn [w] [] d
      = ([], d.put s.gates w.qix (eHtag w.ent) w.seq (finalStatus s.jrn w) w.detail w.acc) := by
    intro d
    simp [deliverAll, hmay]
  unfold deliver
  simp only [hw, hall, List.length_nil, List.length_singleton, Nat.zero_ne_one, if_false]

/-- A completion in a ring whose slot the gate lets through (R136, R139). -/
theorem put_in_ring {gates : List Gate} {qix htag seq status detail : Nat} {output : Bytes} {d : Deliver} {q : Queue}
    (hq : tgetD d.queues qix {} = q) (hpath : q.path = .pcie)
    (hgate : judgeHost gates qix q.fn true (q.cqBase.toNat + 16 * q.cqTail) 16 = none) :
    (d.put gates qix htag seq status detail output).faults = d.faults
      ∧ (∃ more, (d.put gates qix htag seq status detail output).post.out
          = d.post.out ++ Out.mem q.fn (q.cqBase.toNat + 16 * q.cqTail) (completionEntry q htag seq status detail) :: more)
      ∧ tgetD (d.put gates qix htag seq status detail output).queues qix {} = { q with
          cqTail := if q.entries ≤ q.cqTail + 1 then 0 else q.cqTail + 1
          phase := if q.entries ≤ q.cqTail + 1 then !q.phase else q.phase
          unreleased := q.unreleased + 1 } := by
  simp only [Deliver.put, hq, hpath, hgate, Option.toList_none, List.append_nil, Option.isNone_none, if_true, tgetD_tset_self, and_true,
    true_and]
  obtain ⟨more, hmore⟩ := signal_out q.fn q.vector { d.post with
    pmon := _, out := d.post.out ++ [Out.mem q.fn (q.cqBase.toNat + 16 * q.cqTail) (completionEntry q htag seq status detail)] }
  exact ⟨more, by rw [hmore]; simp⟩

/-- Settles O23. -/
theorem nopCompletesInRingOrder : Obligations.NopCompletesInRingOrder := by
  intro q w s hwork hqix hstage hopc hseq hdur hpath hdue hfill hgate
  have hwaits : nopWaits q w = true := by simp [nopWaits, hqix, hstage, hopc]
  generalize hu : modWork (nopWaits q) (Work.decided stOk 0) s = u
  have hexec : exec (.nop q) s = .next (sleepIfDue (settle s u)) := by
    simp only [exec, execNop, hwork, List.any_cons, hwaits, Bool.true_or, if_true, hu]
  have hmod : u = recharge { s with work := [w.decided stOk 0] } := by
    rw [← hu, modWork, hwork, modFirst, if_pos hwaits]
  rw [sleepIfDue_awake (by rw [settle_pwr, hmod]; exact hdue)] at hexec
  have huwork : u.work = [w.decided stOk 0] := by rw [hmod]; rfl
  have hmay : mayComplete u.jrn (w.decided stOk 0) = true := by simp [mayComplete, Work.decided, hdur]
  obtain ⟨d, hd, hdeliver⟩ := deliver_single huwork hmay
  rw [finalStatus_of_no_seq (by exact hseq)] at hd
  obtain ⟨hfaults, ⟨more, hout⟩, hqueue⟩ := put_in_ring (gates := u.gates) (qix := (w.decided stOk 0).qix) (htag := eHtag w.ent) (seq := w.seq)
    (status := stOk) (detail := 0) (output := w.acc) (d := ⟨u.queues, u.post, u.link.usbOut, u.spi.compl, []⟩) (q := queueOf s q)
    (by rw [hmod]; exact hqix ▸ rfl) hpath (by rw [hmod]; exact hqix ▸ hgate)
  have hd' : d = Deliver.put u.gates (w.decided stOk 0).qix (eHtag w.ent) w.seq stOk 0 w.acc
      ⟨u.queues, u.post, u.link.usbOut, u.spi.compl, []⟩ := hd
  rw [← hd'] at hfaults hout hqueue
  rw [hfaults, List.foldl_nil] at hdeliver
  generalize hv : deliver u = v at hdeliver
  have hquiet : quiet v = true := by
    rw [hdeliver, hmod]
    simp [quiet, recharge, hfill]
    rfl
  have hn := noteChanges_notified s v
  obtain ⟨told, htold⟩ := noteChanges_sent s v
  have hsettle : (settle s u).work = v.work ∧ (settle s u).jrn = { u.jrn with fill := v.jrn.fill } ∧ (settle s u).queues = v.queues
      ∧ (settle s u).out = (noteChanges s v).out := by
    unfold settle
    simp only []
    rw [hv, fillEvents_quiet hquiet, work_of_notified hn, queues_of_notified hn, jrn_of_notified hn]
    exact ⟨rfl, rfl, rfl, rfl⟩
  obtain ⟨htwork, htjrn, htqueues, htout⟩ := hsettle
  refine to_of_eq hexec ⟨?_, ?_, ?_, ⟨more ++ told, ?_⟩, ?_, ?_⟩
  · rw [htwork, hdeliver]
    rfl
  · rw [settle_nv, hmod]
    rfl
  · rw [htjrn, hdeliver, hmod]
    rfl
  · rw [htout, htold, hdeliver]
    have hsent : d.post.out = s.out ++ Out.mem (queueOf s q).fn ((queueOf s q).cqBase.toNat + 16 * (queueOf s q).cqTail)
        (completionEntry (queueOf s q) (eHtag w.ent) w.seq stOk 0) :: more := hout.trans (by rw [hmod]; rfl)
    show d.post.out ++ told = _
    rw [hsent, hseq]
    simp
  · have hq' : queueOf (settle s u) q = tgetD d.queues (w.decided stOk 0).qix {} := by
      rw [queueOf, htqueues, hdeliver, ← hqix]
      rfl
    rw [hq', hqueue]
  · have hq' : queueOf (settle s u) q = tgetD d.queues (w.decided stOk 0).qix {} := by
      rw [queueOf, htqueues, hdeliver, ← hqix]
      rfl
    rw [hq', hqueue]

end Sys2Proof.NopCompletion
end

section
/-! # OPEN reads what SEAL wrote (O29) -/
namespace Sys2Proof.OpenOfSeal
open Sys2Proof Sys2Proof.Machine

/-! ## The parts of a sealed unit (R166, R167) -/

theorem length_sealHeader (s : State) (w : Work) (id : Nat) : (sealHeader s w id).length = 32 := by
  simp [sealHeader, nonceBytes, be]

theorem iv_of_sealHeader (s : State) (w : Work) (id : Nat) : slice (sealHeader s w id) 12 12 = nonceBytes w.nonce := by
  have h : sealHeader s w id = (le 2 0x0102 ++ le 2 (sflags s) ++ le 6 w.seq ++ zeros 2) ++ (nonceBytes w.nonce ++ (le 4 id ++ zeros 4)) := by
    simp [sealHeader]
  have hlen : (le 2 0x0102 ++ le 2 (sflags s) ++ le 6 w.seq ++ zeros 2).length = 12 := by simp
  rw [h, slice, ← hlen, List.drop_left, hlen]
  exact List.take_left' (by simp [nonceBytes, be])

theorem key_of_sealHeader (s : State) (w : Work) {id : Nat} (hid : id < 2 ^ 32) : num (sealHeader s w id) 24 4 = id := by
  have h : sealHeader s w id = (le 2 0x0102 ++ le 2 (sflags s) ++ le 6 w.seq ++ zeros 2 ++ nonceBytes w.nonce) ++ (le 4 id ++ zeros 4) := by
    simp [sealHeader]
  have hlen : (le 2 0x0102 ++ le 2 (sflags s) ++ le 6 w.seq ++ zeros 2 ++ nonceBytes w.nonce).length = 24 := by simp [nonceBytes, be]
  rw [num, h, slice, ← hlen, List.drop_left, List.take_left' (by simp)]
  simp [leVal_le]
  omega

theorem slice_middle (a b c : Bytes) {n m : Nat} (hn : n = a.length) (hm : m = b.length) : slice (a ++ b ++ c) n m = b := by
  rw [slice, hn, hm, List.append_assoc, List.drop_left, List.take_left]

theorem tagAt_last (a : Bytes) (t : BitVec 128) {n : Nat} (hn : n = a.length) : tagAt (a ++ tagBytes t) n = t := by
  have hlen : (tagBytes t).length = 16 := by simp [tagBytes, be]
  rw [tagAt, slice, hn, List.drop_left, ← hlen, List.take_length, tagBytes, beVal, be, List.reverse_reverse, leVal_le]
  apply BitVec.eq_of_toNat_eq
  have := t.isLt
  rw [BitVec.toNat_ofNat]
  omega

/-- Settles O29: the header names nonce and key, GCM undoes itself, and the tag stands at the end. -/
theorem openReadsWhatSealWrote : Obligations.OpenReadsWhatSealWrote := by
  intro s s' w w' id k _ _ hkey hkey' hid haad hlen hsrc hunits hunits' hsrc'
  generalize hh : sealHeader s w id = h
  generalize hA : w.src.take (eAadLen w.ent) = A
  generalize hpt : w.src.drop (eAadLen w.ent) = pt
  generalize hc : gcmSeal k (nonceBytes w.nonce) (h ++ A) pt = c
  have hAlen : A.length = eAadLen w.ent := by
    rw [← hA, List.length_take]
    omega
  have hptlen : pt.length = eLen w.ent := by
    rw [← hpt, List.length_drop]
    omega
  have hhlen : h.length = 32 := hh ▸ length_sealHeader s w id
  have hclen : c.1.length = eLen w.ent := by rw [← hc, length_gcmSeal, hptlen]
  have hseal : sealUnit s w = finished stOk 0 (h ++ c.1 ++ tagBytes c.2) c.2 w := by
    simp only [sealUnit, hkey, hunits, if_true, hh, hA, hpt, hc]
  have hsrc2 : w'.src = A ++ h ++ c.1 ++ tagBytes c.2 := by
    rw [hsrc', hseal, hA]
    simp [finished]
  have hhead : slice w'.src (eAadLen w'.ent) 32 = h := by
    rw [hsrc2, List.append_assoc (A ++ h), slice_middle _ _ _ (by rw [haad, hAlen]) hhlen.symm]
  have hbody : slice w'.src (eAadLen w'.ent + 32) (eLen w'.ent) = c.1 := by
    rw [hsrc2, slice_middle _ _ _ (by rw [haad, List.length_append, hAlen, hhlen]) (by rw [hlen, hclen])]
  have htag : tagAt w'.src (eAadLen w'.ent + 32 + eLen w'.ent) = c.2 := by
    rw [hsrc2, tagAt_last _ _ (by simp only [List.length_append, haad, hlen, hAlen, hhlen, hclen])]
  have htake : w'.src.take (eAadLen w'.ent) = A := by
    rw [hsrc2, haad, ← hAlen, List.append_assoc, List.append_assoc, List.take_left]
  have hnum : num h 24 4 = id := hh ▸ key_of_sealHeader s w hid
  have hiv : slice h 12 12 = nonceBytes w.nonce := hh ▸ iv_of_sealHeader s w id
  have hplain : gcmOpen k (nonceBytes w.nonce) (h ++ A) c.1 c.2 = some pt := by
    rw [← hc]
    exact gcmOpen_gcmSeal ..
  have hctr : gcmCtr k (nonceBytes w.nonce) c.1 = pt := by
    rw [← hc]
    exact gcmCtr_gcmSeal ..
  have hopen : openUnit s' w' = finished stOk 0 pt c.2 w' := by
    simp only [openUnit, hkey', hhead, hnum, hiv, hbody, htag, htake, hunits', hplain, hctr, ne_eq, not_true_eq_false, if_false, if_true,
      Option.isSome_some]
  rw [hopen, hseal]
  exact ⟨rfl, rfl, rfl, rfl⟩

end Sys2Proof.OpenOfSeal
end

section
/-! # Vectors: coalescing, masks and pending messages (O18) -/
namespace Sys2Proof.Vectors
open Sys2Proof Sys2Proof.Machine Sys2Proof.Told

/-- A vector of a function (R102). -/
def vecOf (s : State) (f n : Nat) : Vec := tgetD s.vecs (2048 * f + n) {}

theorem vecOf_modVec (f n : Nat) (g : Vec → Vec) (s : State) : vecOf (modVec f n g s) f n = g (vecOf s f n) := tgetD_tset_self ..

theorem tget_modVec_ne (f n : Nat) (g : Vec → Vec) (s : State) {k : Nat} (hk : k ≠ 2048 * f + n) :
    tget (modVec f n g s).vecs k = tget s.vecs k := tget_tset_ne _ _ hk

theorem mute_iff {f : Nat} (hf : f < 16) (s : State) : s.post.mute.contains f = !canSignal s f := by
  rw [Bool.eq_iff_iff, List.contains_iff_mem]
  simp [State.post, hf]

/-- A message that is due goes out where neither mask nor function holds it (R102, R104, R105). -/
theorem message_sends {f n : Nat} {s : State} (hf : f < 16) (hmask : (vecOf s f n).masked = false) (hcan : canSignal s f = true) :
    message f n s = { s with
      vecs := tset s.vecs (2048 * f + n) { vecOf s f n with held := 0 }, out := s.out ++ [.msix f n], pmon := s.pmon.count 0x07 f 1 } := by
  have hmute := mute_iff hf s
  rw [hcan] at hmute
  have hfree : ((tgetD s.vecs (2048 * f + n) {}).masked || s.post.mute.contains f) = false := by
    rw [hmute]
    simpa [vecOf] using hmask
  have hpost : s.post.message f n = { s.post with
      vecs := tset s.vecs (2048 * f + n) { vecOf s f n with held := 0 }, out := s.out ++ [.msix f n], pmon := s.pmon.count 0x07 f 1 } :=
    if_neg (by rw [show s.post.vecs = s.vecs from rfl, hfree]; exact Bool.false_ne_true)
  rw [message, hpost]
  rfl

/-- Held back, it is pending. -/
theorem message_pends {f n : Nat} {s : State} (hf : f < 16) (h : (vecOf s f n).masked = true ∨ canSignal s f = false) :
    message f n s = { s with vecs := tset s.vecs (2048 * f + n) { vecOf s f n with held := 0, pend := true } } := by
  have hheld : ((tgetD s.vecs (2048 * f + n) {}).masked || s.post.mute.contains f) = true := by
    rw [mute_iff hf, Bool.or_eq_true]
    exact h.imp id fun h => by simp [h]
  have hpost : s.post.message f n = { s.post with vecs := tset s.vecs (2048 * f + n) { vecOf s f n with held := 0, pend := true } } :=
    if_pos hheld
  rw [message, hpost]
  rfl

theorem message_keeps {f n : Nat} {s : State} (hf : f < 16) :
    (vecOf (message f n s) f n).count = (vecOf s f n).count ∧ (vecOf (message f n s) f n).time = (vecOf s f n).time
      ∧ (∀ k, k ≠ 2048 * f + n → tget (message f n s).vecs k = tget s.vecs k)
      ∧ message f n s = { s with vecs := (message f n s).vecs, out := (message f n s).out, pmon := (message f n s).pmon } := by
  by_cases h : (vecOf s f n).masked = true ∨ canSignal s f = false
  · rw [message_pends hf h]
    simp only [vecOf, tgetD_tset_self, and_true, true_and]
    exact fun k hk => tget_tset_ne _ _ hk
  · rw [not_or, Bool.not_eq_true, Bool.not_eq_false] at h
    rw [message_sends hf h.1 h.2]
    simp only [vecOf, tgetD_tset_self, and_true, true_and]
    exact fun k hk => tget_tset_ne _ _ hk

/-! ## The registers (R100 to R105) -/

theorem linkCtrl_sets {s : State} (v : BitVec 32) (hup : barUp s 0 = true) :
    To (.linkCtrl v) s fun t =>
      t = { s with link := { s.link with cto := if 1 ≤ v.toNat % 64 ∧ v.toNat % 64 ≤ 50 then v.toNat % 64 else s.link.cto } } := by
  have hexec : exec (.linkCtrl v) s = .next (setCto v s) := by simp [exec, execLinkCtrl, hup]
  refine to_of_eq hexec ?_
  simp only [setCto, BitVec.toNat_setWidth, Nat.reducePow]
  split <;> rfl

theorem coal_sets {s : State} {f n : Nat} (v : BitVec 32) (hf : f < 16) (hn : n < vectorsOf f) (hup : barUp s f = true) :
    To (.coal f n v) s fun t =>
      (tgetD t.vecs (2048 * f + n) {}).count = v.setWidth 8 ∧ (tgetD t.vecs (2048 * f + n) {}).time = (v >>> 8).setWidth 16
        ∧ (∀ k, k ≠ 2048 * f + n → tget t.vecs k = tget s.vecs k)
        ∧ t = { s with vecs := t.vecs, out := t.out, pmon := t.pmon } := by
  have hexec : exec (.coal f n v) s = .next (setCoal f n v s) := by simp [exec, execCoal, hup, hn]
  refine to_of_eq hexec ?_
  unfold setCoal
  generalize hg : (fun x : Vec => { x with count := v.setWidth 8, time := (v >>> 8).setWidth 16 }) = g
  have hself : vecOf (modVec f n g s) f n = g (vecOf s f n) := vecOf_modVec ..
  have hother : ∀ k, k ≠ 2048 * f + n → tget (modVec f n g s).vecs k = tget s.vecs k := fun k hk => tget_modVec_ne _ _ _ _ hk
  have honly : modVec f n g s = { s with vecs := (modVec f n g s).vecs } := rfl
  simp only []
  split
  · obtain ⟨hcount, htime, hrest, hmsg⟩ := message_keeps (n := n) (s := modVec f n g s) hf
    refine ⟨hcount.trans ?_, htime.trans ?_, fun k hk => (hrest k hk).trans (hother k hk), ?_⟩
    · rw [hself, ← hg]
    · rw [hself, ← hg]
    · rw [hmsg, honly]
  · refine ⟨?_, ?_, hother, honly⟩
    · exact (congrArg Vec.count hself).trans (by rw [← hg])
    · exact (congrArg Vec.time hself).trans (by rw [← hg])

/-- Settles O18. -/
theorem vectorsSendTheirMessages : Obligations.VectorsSendTheirMessages := by
  intro s
  refine ⟨fun v => linkCtrl_sets v, fun f n hf hn => ⟨fun v => coal_sets v hf hn, fun hheld hmask hcan => ?_, fun hheld hblocked => ?_,
    fun hup => ?_⟩⟩
  · have hexec : exec (.coalesceTimeout f n) s = .next (message f n s) := if_pos hheld
    rw [message_sends hf hmask hcan] at hexec
    exact to_of_eq hexec ⟨rfl, by simp, rfl⟩
  · have hexec : exec (.coalesceTimeout f n) s = .next (message f n s) := if_pos hheld
    rw [message_pends hf hblocked] at hexec
    exact to_of_eq hexec ⟨rfl, by simp, rfl⟩
  · generalize hp : (tgetD s.vecs (2048 * f + n) {}).pend = p
    generalize hs1 : modVec f n (fun x => { x with masked := false, pend := false }) s = s1
    have hexec : exec (.vectorUnmask f n) s = .next (if p then message f n s1 else s1) := by
      simp only [exec, execVectorUnmask, hup, hn, decide_true, Bool.and_self, if_true, unmask, hp, hs1]
    have hvec : vecOf s1 f n = { vecOf s f n with masked := false, pend := false } := hs1 ▸ vecOf_modVec ..
    have honly : s1 = { s with vecs := s1.vecs } := hs1 ▸ rfl
    have hout : s1.out = s.out := by rw [honly]
    have hcan1 : canSignal s1 f = canSignal s f := by rw [honly]; rfl
    cases p with
    | false =>
      rw [if_neg Bool.false_ne_true] at hexec
      refine to_of_eq hexec ⟨?_, ?_, ?_, by subst hs1; rfl⟩
      · exact (congrArg Vec.masked hvec).trans rfl
      · exact (congrArg Vec.pend hvec).trans rfl
      · simpa using hout
    | true =>
      cases hcan : canSignal s f with
      | true =>
        rw [if_pos rfl, message_sends hf (by rw [hvec]) (hcan1.trans hcan), hvec] at hexec
        refine to_of_eq hexec ⟨by simp, by simp, by simp [hout], ?_⟩
        subst hs1
        rfl
      | false =>
        rw [if_pos rfl, message_pends hf (.inr (hcan1.trans hcan)), hvec] at hexec
        refine to_of_eq hexec ⟨by simp, by simp, by simp [hout], ?_⟩
        subst hs1
        rfl

end Sys2Proof.Vectors
end

section
/-! # Doorbells (O17) -/
namespace Sys2Proof.Doorbells
open Sys2Proof Sys2Proof.Machine Sys2Proof.Told Sys2Proof.MeterPort

/-! ## The context cache (R11, R16, R192) -/

theorem quiet_modFirst {s : State} (hq : quiet s = true) (p : Work → Bool) {f : Work → Work}
    (hf : ∀ j w, mayComplete j w = false → mayComplete j (f w) = false) : quiet { s with work := modFirst p f s.work } = true := by
  have hall : ∀ ws : List Work, ws.all (fun w => !mayComplete s.jrn w) = true → (modFirst p f ws).all (fun w => !mayComplete s.jrn w) = true := by
    intro ws
    induction ws with
    | nil => exact id
    | cons w ws ih =>
      intro h
      simp only [List.all_cons, Bool.and_eq_true] at h
      unfold modFirst
      split
      · simp only [List.all_cons, Bool.and_eq_true]
        exact ⟨by simpa using hf s.jrn w (by simpa using h.1), h.2⟩
      · simp only [List.all_cons, Bool.and_eq_true]
        exact ⟨h.1, ih h.2⟩
  simp only [quiet, Bool.and_eq_true] at hq ⊢
  exact ⟨hall s.work hq.1, hq.2⟩

/-- The parts of the state that bringing in a context may change. -/
def ContextOnly (s t : State) : Prop :=
  t = { s with cache := t.cache, work := t.work, dram := t.dram, ev := t.ev, free := t.free, pmon := t.pmon }

theorem contextOnly_trans {s t u : State} (h : ContextOnly s t) (h' : ContextOnly t u) : ContextOnly s u := by
  unfold ContextOnly at *
  rw [h', h]

/-- Counting leaves what bringing in a context leaves. -/
theorem context_count {s t : State} {q : Nat} (src fn n : Nat)
    (h : ContextOnly s t ∧ quiet t = true ∧ (q % 8 < s.cache.length → (t.cache.getD (q % 8) []).contains q = true)) :
    ContextOnly s (count src fn n t) ∧ quiet (count src fn n t) = true
      ∧ (q % 8 < s.cache.length → ((count src fn n t).cache.getD (q % 8) []).contains q = true) :=
  ⟨contextOnly_trans h.1 rfl, h.2⟩

theorem wrapSaved_context (q : Nat) {s : State} (hq : quiet s = true) :
    ContextOnly s (wrapSaved q s) ∧ (wrapSaved q s).cache = s.cache ∧ quiet (wrapSaved q s) = true := by
  unfold wrapSaved
  split
  · exact ⟨rfl, rfl, hq⟩
  · exact ⟨rfl, rfl, quiet_modFirst hq _ fun j w h => h⟩

theorem unwrapSaved_context (q : Nat) {s : State} (hq : quiet s = true) :
    ContextOnly s (unwrapSaved q s) ∧ (unwrapSaved q s).cache = s.cache ∧ quiet (unwrapSaved q s) = true := by
  unfold unwrapSaved
  split
  · exact ⟨rfl, rfl, hq⟩
  · split
    · exact ⟨rfl, rfl, quiet_modFirst hq _ fun j w h => h⟩
    · refine ⟨?_, ?_, (quiet_eventX ..).trans (quiet_modFirst hq _ fun j w _ => rfl)⟩
      · rw [ContextOnly, eventX_only]
      · rw [eventX_cache]

/-- A context that is there is found; another one is brought in (R16). -/
theorem findContext_hit {q : Nat} {s : State} (fn : Nat) (h : (s.cache.getD (q % 8) []).contains q = true) :
    findContext q fn s = count 0x20 fn 1 s := if_pos h

theorem getD_set_self {α : Type} (l : List α) {i : Nat} (x d : α) (h : i < l.length) : (l.set i x).getD i d = x := by
  simp [List.getD_eq_getElem?_getD, h]

theorem findContext_acts (q fn : Nat) {s : State} (hq : quiet s = true) :
    ContextOnly s (findContext q fn s) ∧ quiet (findContext q fn s) = true
      ∧ (q % 8 < s.cache.length → ((findContext q fn s).cache.getD (q % 8) []).contains q = true) := by
  unfold findContext
  simp only []
  split
  case isTrue hit => exact ⟨rfl, hq, fun _ => hit⟩
  case isFalse =>
    have hin : ∀ c : List Nat, q % 8 < s.cache.length → ((s.cache.set (q % 8) (q :: c)).getD (q % 8) []).contains q = true := by
      intro c hlt
      rw [getD_set_self _ _ _ hlt]
      simp
    split
    · generalize hs1 : { s with cache := s.cache.set (q % 8) (q :: s.cache.getD (q % 8) []) } = s1
      have hquiet1 : quiet s1 = true := hs1 ▸ hq
      obtain ⟨honly, hcache, hquiet⟩ := unwrapSaved_context q hquiet1
      have hfirst : ContextOnly s s1 := hs1 ▸ rfl
      refine context_count _ _ _ (context_count _ _ _ ⟨contextOnly_trans hfirst honly, hquiet, fun hlt => ?_⟩)
      rw [hcache, ← hs1]
      exact hin _ hlt
    · generalize Config.freeNat s.free % (s.cache.getD (q % 8) []).length = k
      generalize (s.cache.getD (q % 8) []).getD k 0 = out
      generalize hs1 : drew { s with cache := s.cache.set (q % 8) (q :: (s.cache.getD (q % 8) []).eraseIdx k) } = s1
      have hquiet1 : quiet s1 = true := hs1 ▸ hq
      obtain ⟨honly1, hcache1, hquiet2⟩ := wrapSaved_context out hquiet1
      obtain ⟨honly2, hcache2, hquiet⟩ := unwrapSaved_context q hquiet2
      have hfirst : ContextOnly s s1 := hs1 ▸ rfl
      generalize unwrapSaved q (wrapSaved out s1) = u at honly2 hcache2 hquiet ⊢
      refine context_count _ _ _ (context_count _ _ _ (context_count _ _ _ (context_count _ _ _
        ⟨contextOnly_trans hfirst (contextOnly_trans honly1 honly2), hquiet, fun hlt => ?_⟩)))
      rw [hcache2, hcache1, ← hs1]
      exact hin _ hlt

/-! ## A doorbell that the host path brings (R97, R134, R138) -/

theorem applyDoorbell_fields (v : BitVec 32) (q : Queue) :
    (applyDoorbell v q).sqTail = (if v.getLsbD 30 then (v.setWidth 12).toNat else q.sqTail)
      ∧ (applyDoorbell v q).cqHead = (if v.getLsbD 31 then ((v >>> 16).setWidth 12).toNat else q.cqHead)
      ∧ applyDoorbell v q = { q with
          sqTail := (applyDoorbell v q).sqTail, cqHead := (applyDoorbell v q).cqHead, unreleased := (applyDoorbell v q).unreleased } := by
  unfold applyDoorbell
  cases v.getLsbD 30 <;> cases v.getLsbD 31 <;> exact ⟨rfl, rfl, rfl⟩

section
variable {f q : Nat} {v : BitVec 32} {s : State} (hup : barUp s f = true) (hq : quiet s = true) (hstandby : s.pwr.standby = false)
  (hdue : s.pwr.standbyDue = false) (hhost : s.link.hostPath = some .pcie)
include hup hstandby hdue hhost

/-- What a whole write of the doorbell does, by the queue it names. -/
theorem doorbell_rings :
    exec (.doorbell f q v true) s = .next (settle s
      (if (queueOf s q).st = .free ∨ (queueOf s q).fn ≠ f then dropDoorbell f q 0 s
      else if (queueOf s q).path = .spi then dropDoorbell f q 1 s
      else if (queueOf s q).st ≠ .active ∧ (queueOf s q).stopDue = none then count 0x04 f 1 s
      else if doorbellBad (queueOf s q) v then dropDoorbell f q 2 s
      else count 0x03 f 1 (findContext q f
        (modQueue q (applyDoorbell (if (queueOf s q).st = .active then v else v &&& 0xBFFFFFFF#32)) s)))) := by
  have hwake : { s with pwr := { s.pwr with wake := s.pwr.wake || s.pwr.standby || s.pwr.standbyDue } } = s := by
    rw [hstandby, hdue, Bool.or_false, Bool.or_false]
  simp only [exec, execDoorbell, hup, if_true, bar2Write, hhost, BEq.rfl, Bool.and_self, ring, hwake]

include hq

theorem doorbell_dropped {why : Nat}
    (h : (if (queueOf s q).st = .free ∨ (queueOf s q).fn ≠ f then dropDoorbell f q 0 s
      else if (queueOf s q).path = .spi then dropDoorbell f q 1 s
      else if (queueOf s q).st ≠ .active ∧ (queueOf s q).stopDue = none then count 0x04 f 1 s
      else if doorbellBad (queueOf s q) v then dropDoorbell f q 2 s
      else count 0x03 f 1 (findContext q f
        (modQueue q (applyDoorbell (if (queueOf s q).st = .active then v else v &&& 0xBFFFFFFF#32)) s))) = dropDoorbell f q why s) :
    To (.doorbell f q v true) s fun t => Notified { s with ev := (event 0x0201 (q + 2 ^ 18 * f + 2 ^ 22 * why) s).ev } t := by
  have hexec := doorbell_rings (q := q) (v := v) hup hstandby hdue hhost
  rw [h] at hexec
  refine to_of_settle hexec ?_ fun t ht => ?_
  · exact (quiet_event ..).trans hq
  · have hn := told_of_event s ht rfl rfl rfl rfl rfl
    exact notified_trans (notified_count 0x04 f 1 _) hn

theorem doorbell_taken (hst : (queueOf s q).st = .active) (hfn : (queueOf s q).fn = f) (hpath : (queueOf s q).path ≠ .spi)
    (hgood : doorbellBad (queueOf s q) v = false) :
    To (.doorbell f q v true) s fun t =>
      Notified { s with queues := t.queues, cache := t.cache, work := t.work, dram := t.dram, ev := t.ev, free := t.free } t
        ∧ ((s.cache.getD (q % 8) []).contains q = true → Notified { s with queues := t.queues } t)
        ∧ (queueOf t q).sqTail = (if v.getLsbD 30 then (v.setWidth 12).toNat else (queueOf s q).sqTail)
        ∧ (queueOf t q).cqHead = (if v.getLsbD 31 then ((v >>> 16).setWidth 12).toNat else (queueOf s q).cqHead)
        ∧ queueOf t q = { queueOf s q with
            sqTail := (queueOf t q).sqTail, cqHead := (queueOf t q).cqHead, unreleased := (queueOf t q).unreleased }
        ∧ (q % 8 < s.cache.length → (t.cache.getD (q % 8) []).contains q = true)
        ∧ ∀ q', q' ≠ q → queueOf t q' = queueOf s q' := by
  have hexec := doorbell_rings (q := q) (v := v) hup hstandby hdue hhost
  rw [if_neg (by simp [hst, hfn]), if_neg hpath, if_neg (by simp [hst]), if_neg (by simp [hgood]), if_pos hst] at hexec
  generalize hs1 : modQueue q (applyDoorbell v) s = s1 at hexec
  have hqueues : s1 = { s with queues := s1.queues } := hs1 ▸ rfl
  have hself : queueOf s1 q = applyDoorbell v (queueOf s q) := hs1 ▸ tgetD_tset_self ..
  have hother : ∀ q', q' ≠ q → queueOf s1 q' = queueOf s q' := fun q' hq' => hs1 ▸ tgetD_tset_ne _ _ _ hq'
  have hquiet1 : quiet s1 = true := hs1 ▸ hq
  obtain ⟨honly, hquiet, hin⟩ := findContext_acts q f hquiet1
  have hhit := fun h => findContext_hit (q := q) (s := s1) f h
  have hcache1 : s1.cache = s.cache := by rw [hqueues]
  rw [hcache1] at hin hhit
  generalize findContext q f s1 = c at hexec honly hquiet hin hhit
  have hcq : c.queues = s1.queues := by rw [honly]
  refine to_of_settle hexec hquiet fun t ht => ?_
  have htq : t.queues = s1.queues := (queues_of_notified ht).trans hcq
  have hof : ∀ k, queueOf t k = queueOf s1 k := fun k => by rw [queueOf, htq, queueOf]
  obtain ⟨htail, hhead, hrest⟩ := applyDoorbell_fields v (queueOf s q)
  refine ⟨?_, fun h => ?_, ?_, ?_, ?_, fun hlt => ?_, fun q' hq' => by rw [hof, hother q' hq']⟩
  · refine ⟨?_, ht.2.trans ?_⟩
    · rw [htq]
      conv_lhs => rw [ht.1, honly, hqueues]
      rw [ht.1]
      rfl
    · rw [show (count 0x03 f 1 c).fns = s1.fns by rw [honly]; rfl, hqueues]
  · rw [htq]
    rw [hhit h] at ht
    have hn : Notified s1 t := notified_trans (notified_count 0x20 f 1 s1) (notified_trans (notified_count 0x03 f 1 _) ht)
    rw [hqueues] at hn
    exact hn
  · rw [hof, hself, htail]
  · rw [hof, hself, hhead]
  · rw [hof, hself]
    exact hrest
  · rw [show t.cache = c.cache by rw [ht.1]; rfl]
    exact hin hlt

end

/-- Settles O17. -/
theorem doorbellsMoveTheRings : Obligations.DoorbellsMoveTheRings := by
  intro f q v s hup hq hstandby hdue
  have hcounted : exec (.doorbell f q v false) s = .next (settle s (count 0x04 f 1 s))
      ∧ (s.link.hostPath ≠ some .pcie → exec (.doorbell f q v true) s = .next (settle s (count 0x04 f 1 s))) := by
    refine ⟨by simp [exec, execDoorbell, hup, bar2Write], fun hhost => ?_⟩
    simp [exec, execDoorbell, hup, bar2Write, hhost]
  have hsame : settle s (count 0x04 f 1 s) = { s with pmon := s.pmon.count 0x04 f 1 } := settle_same hq rfl rfl rfl rfl rfl rfl
  rw [hsame] at hcounted
  refine ⟨fun hhost => ⟨doorbell_taken hup hq hstandby hdue hhost, fun hst hfn hpath hbad => ?_, fun hnot => ?_, fun hst hfn hpath => ?_⟩,
    to_of_eq hcounted.1 rfl, fun hhost => to_of_eq (hcounted.2 hhost) rfl⟩
  · exact doorbell_dropped (why := 2) hup hq hstandby hdue hhost (by
      rw [if_neg (by simp [hst, hfn]), if_neg hpath, if_neg (by simp [hst]), if_pos hbad])
  · exact doorbell_dropped (why := 0) hup hq hstandby hdue hhost (if_pos hnot)
  · exact doorbell_dropped (why := 1) hup hq hstandby hdue hhost (by rw [if_neg (by simp [hst, hfn]), if_pos hpath])

end Sys2Proof.Doorbells
end

section
/-! # Counters, marks and meter pages are written through (O54) -/
namespace Sys2Proof.WriteThrough
open Sys2Proof Sys2Proof.Machine Sys2Proof.Told Sys2Proof.MeterPort Sys2Proof.Firmware Sys2Proof.Entries

/-! ## What is left inside after completions -/

theorem mem_of_deliverAll (gates : List Gate) (j : Journal) (ws : List Work) (blocked : List Nat) (d : Deliver) {w : Work}
    (h : w ∈ (deliverAll gates j ws blocked d).1) : w ∈ ws := by
  induction ws generalizing blocked d with
  | nil => exact h
  | cons x ws ih =>
    unfold deliverAll at h
    split at h
    · exact List.mem_cons_of_mem _ (ih _ _ h)
    · rcases List.mem_cons.mp h with rfl | h
      · exact List.mem_cons_self
      · exact List.mem_cons_of_mem _ (ih _ _ h)

theorem mem_work_of_deliver {s : State} {w : Work} (h : w ∈ (deliver s).work) : w ∈ s.work := by
  unfold deliver at h
  simp only [] at h
  split at h
  · exact h
  · rw [foldl_keeps (P := fun t : State => t.work = (deliverAll s.gates s.jrn s.work [] ⟨s.queues, s.post, s.link.usbOut, s.spi.compl, []⟩).1)
      _ _ _ rfl fun t f ht => (gateFault_work f t).trans ht] at h
    exact mem_of_deliverAll _ _ _ _ _ h

theorem fillEvents_work (s : State) : (fillEvents s).work = s.work := by
  unfold fillEvents
  split
  · rfl
  · simp only []
    repeat' split
    all_goals simp

/-- Entries that complete leave; no other comes in with it. -/
theorem mem_work_of_settle {s0 s : State} {w : Work} (h : w ∈ (settle s0 s).work) : w ∈ s.work := by
  have hn := noteChanges_notified s0 (fillEvents (deliver s))
  have hwork : (settle s0 s).work = (noteChanges s0 (fillEvents (deliver s))).work := rfl
  rw [hwork, work_of_notified hn, fillEvents_work] at h
  exact mem_work_of_deliver h

/-! ## Counters in all three copies (R281, R282) -/

theorem setCtr_live {n : Nat} (v : Nat) {s : State} (h : (ctrOf s n).lost = false) :
    setCtr n v s = { s with nv := { s.nv with
      ctrs := tset s.nv.ctrs n (Counter.write (ctrWidth n) v s.opsec { ctrOf s n with live := v }) } } := by
  simp [setCtr, h]

theorem ctrOf_setCtr_ne {m n : Nat} (v : Nat) (s : State) (h : m ≠ n) : ctrOf (setCtr n v s) m = ctrOf s m := by
  unfold setCtr
  simp only []
  split
  · rfl
  · exact tgetD_tset_ne _ _ _ h

/-- The three copies of a counter after a write: each reads as its largest cell (R281). -/
theorem copies_setCtr {n : Nat} (v : Nat) {s : State} (h : (ctrOf s n).lost = false) :
    (ctrOf (setCtr n v s) n).c0.value = some (max v ((ctrOf s n).c0.value.getD 0))
      ∧ (ctrOf (setCtr n v s) n).c1.value = some (max v ((ctrOf s n).c1.value.getD 0))
      ∧ (ctrOf (setCtr n v s) n).c2.value = some (max v ((ctrOf s n).c2.value.getD 0)) := by
  rw [ctrOf_setCtr h]
  exact ⟨rfl, rfl, rfl⟩

theorem ctrVal_setCtr {n : Nat} (v : Nat) {s : State} (h : (ctrOf s n).lost = false) : ctrVal (setCtr n v s) n = v := by
  rw [ctrVal, ctrOf_setCtr h]
  simp [Counter.write, h]

theorem seqMarkRaise_raises {s : State} (hw : writerOn s = true) (hq : quiet s = true) (hlive : (ctrOf s 0).lost = false)
    (hdue : seqMark s ≤ s.jrn.nextSeq + 2 ^ 22) (hroom : seqMark s < 2 ^ 48 - 2 ^ 20) :
    To .seqMarkRaise s fun t =>
      (seqMark t = min (seqMark s + 2 ^ 24) (2 ^ 48 - 2 ^ 20)
        ∧ (ctrOf t 0).c0.value = some (max (min (seqMark s + 2 ^ 24) (2 ^ 48 - 2 ^ 20)) ((ctrOf s 0).c0.value.getD 0))
        ∧ (ctrOf t 0).c1.value = some (max (min (seqMark s + 2 ^ 24) (2 ^ 48 - 2 ^ 20)) ((ctrOf s 0).c1.value.getD 0))
        ∧ (ctrOf t 0).c2.value = some (max (min (seqMark s + 2 ^ 24) (2 ^ 48 - 2 ^ 20)) ((ctrOf s 0).c2.value.getD 0)))
      ∧ (∀ n, n ≠ 0 → ctrOf t n = ctrOf s n) ∧ Notified { s with nv := { s.nv with ctrs := t.nv.ctrs } } t := by
  have hraise : raiseMark s = setCtr 0 (min (seqMark s + 2 ^ 24) (2 ^ 48 - 2 ^ 20)) s := by
    rw [raiseMark, raisedMark, seqReserveStart, if_pos hroom]
  have hexec : exec .seqMarkRaise s = .next (settle s (setCtr 0 (min (seqMark s + 2 ^ 24) (2 ^ 48 - 2 ^ 20)) s)) := by
    have hroom' : seqMark s < seqReserveStart := hroom
    simp only [exec, execSeqMarkRaise, hw, decide_eq_true hdue, decide_eq_true hroom', Bool.and_self, if_true, hraise]
  generalize min (seqMark s + 2 ^ 24) (2 ^ 48 - 2 ^ 20) = v at hexec ⊢
  have honly := setCtr_live v hlive
  have hcopies := copies_setCtr v hlive
  have hother := fun m (h : m ≠ 0) => ctrOf_setCtr_ne v s h
  have hmark : (ctrOf (setCtr 0 v s) 0).live = v := by rw [ctrOf_setCtr hlive]; rfl
  generalize setCtr 0 v s = u at *
  have hquiet : quiet u = true := by rw [honly]; exact hq
  refine to_of_settle hexec hquiet fun t ht => ?_
  have hctr : ∀ n, ctrOf t n = ctrOf u n := fun n => by rw [ctrOf, nv_of_notified ht, ctrOf]
  refine ⟨⟨?_, ?_⟩, fun n hn => by rw [hctr, hother n hn], ?_⟩
  · rw [seqMark, hctr, hmark]
  · rw [hctr]
    exact hcopies
  · rw [nv_of_notified ht]
    rw [honly] at ht ⊢
    exact ht

/-- A queue entry that holds no SEQ is decided once the reserve of sequence numbers begins (R262). -/
def decidedAtReserve (w : Work) : Work :=
  if w.seq == 0 && w.stage != .done && w.stage != .fetched && eOpc w.ent != 0 then w.decided stQueueDisabled 0 else w

theorem decidedAtReserve_stage {w : Work} (hseq : (decidedAtReserve w).seq = 0) (hopc : eOpc (decidedAtReserve w).ent ≠ 0) :
    (decidedAtReserve w).stage = .done ∨ (decidedAtReserve w).stage = .fetched := by
  unfold decidedAtReserve at *
  split
  · exact .inl rfl
  case isFalse hnot =>
    simp only [hnot, Bool.false_eq_true, if_false] at hseq hopc
    simpa [hseq, hopc, not_and_or, or_iff_not_imp_left] using hnot

theorem seqReservePoint_decides {s : State} (hw : writerOn s = true) (hreserve : seqReserve s = true) (hout : s.jrn.seqOut = false) :
    To .seqReservePoint s fun t =>
      t.jrn.seqOut = true ∧ (∀ w ∈ t.work, w.seq = 0 → eOpc w.ent ≠ 0 → w.stage = .done ∨ w.stage = .fetched) ∧ t.nv = s.nv ∧ t.keys = s.keys
        ∧ t.jrn.nextSeq = s.jrn.nextSeq := by
  have hexec : exec .seqReservePoint s = .next (settle s (event 0x010B 1 (recharge { s with
      jrn := { s.jrn with seqOut := true }, work := s.work.map decidedAtReserve }))) := by
    simp only [exec, execSeqReservePoint, hw, hreserve, hout, Bool.not_false, Bool.and_self, if_true]
    rfl
  refine to_of_eq hexec ⟨?_, fun w hin hseq hopc => ?_, by simp, by simp, ?_⟩
  · exact congrArg Journal.seqOut (event_jrn ..)
  · have hmem := mem_work_of_settle hin
    rw [event_work, recharge_work] at hmem
    obtain ⟨x, -, rfl⟩ := List.mem_map.mp hmem
    exact decidedAtReserve_stage hseq hopc
  · rw [settle_nextSeq, event_jrn]
    rfl

theorem opsecCheckpoint_writes {s : State} (hw : writerOn s = true) (hlive : (ctrOf s 3).lost = false) (hdue : s.sched.secondsAt + 3600 ≤ s.opsec) :
    To .opsecCheckpoint s fun t =>
      ctrVal t 3 = s.opsec
        ∧ ((ctrOf t 3).c0.value = some (max s.opsec ((ctrOf s 3).c0.value.getD 0))
          ∧ (ctrOf t 3).c1.value = some (max s.opsec ((ctrOf s 3).c1.value.getD 0))
          ∧ (ctrOf t 3).c2.value = some (max s.opsec ((ctrOf s 3).c2.value.getD 0)))
        ∧ (∀ n, n ≠ 3 → ctrOf t n = ctrOf s n)
        ∧ t = { s with nv := { s.nv with ctrs := t.nv.ctrs }, sched := { s.sched with secondsAt := s.opsec } } := by
  have hexec : exec .opsecCheckpoint s = .next (setCtr 3 s.opsec { s with sched := { s.sched with secondsAt := s.opsec } }) := by
    simp only [exec, execOpsecCheckpoint, hw, decide_eq_true hdue, Bool.and_self, if_true]
  generalize hs1 : { s with sched := { s.sched with secondsAt := s.opsec } } = s1 at hexec
  have hctr : ∀ n, ctrOf s1 n = ctrOf s n := fun n => hs1 ▸ rfl
  have hlive1 : (ctrOf s1 3).lost = false := by rw [hctr, hlive]
  refine to_of_eq hexec ⟨ctrVal_setCtr _ hlive1, ?_, fun n hn => ?_, ?_⟩
  · rw [← hctr]
    exact copies_setCtr s.opsec hlive1
  · rw [ctrOf_setCtr_ne _ _ hn, hctr]
  · rw [setCtr_live _ hlive1, ← hs1]

theorem counterBackWrite_writes {s : State} {c : Nat} (hp : powered s = true) (hdirty : s.dirtyCtrs.contains c = true)
    (hlive : (ctrOf s c).lost = false) :
    To (.counterBackWrite c) s fun t =>
      ctrVal t c = ctrVal s c
        ∧ ((ctrOf t c).c0.value = some (max (ctrVal s c) ((ctrOf s c).c0.value.getD 0))
          ∧ (ctrOf t c).c1.value = some (max (ctrVal s c) ((ctrOf s c).c1.value.getD 0))
          ∧ (ctrOf t c).c2.value = some (max (ctrVal s c) ((ctrOf s c).c2.value.getD 0)))
        ∧ (∀ n, n ≠ c → ctrOf t n = ctrOf s n)
        ∧ t.dirtyCtrs = s.dirtyCtrs.filter (· ≠ c)
        ∧ t = { s with
            nv := { s.nv with ctrs := t.nv.ctrs }, dirtyCtrs := t.dirtyCtrs
            meter := { s.meter with forcedBusy := s.meter.forcedBusy && s.dirtyCtrs.head? != some c } } := by
  have hexec : exec (.counterBackWrite c) s = .next (backWrite c { s with
      meter := { s.meter with forcedBusy := s.meter.forcedBusy && s.dirtyCtrs.head? != some c } }) := by
    simp only [exec, execCounterBackWrite, hp, hdirty, Bool.and_self, if_true]
  have hval : ctrVal s c = (ctrOf s c).live := by simp [ctrVal, hlive]
  generalize hs1 : { s with meter := { s.meter with forcedBusy := s.meter.forcedBusy && s.dirtyCtrs.head? != some c } } = s1 at hexec
  have hctr : ∀ n, ctrOf s1 n = ctrOf s n := fun n => hs1 ▸ rfl
  have hdirty1 : s1.dirtyCtrs = s.dirtyCtrs := hs1 ▸ rfl
  have hlive1 : (ctrOf s1 c).lost = false := by rw [hctr, hlive]
  have hback : ∀ n, ctrOf (backWrite c s1) n = ctrOf (setCtr c (ctrVal s c) s1) n := fun n => by rw [hval, ← hctr]; rfl
  refine to_of_eq hexec ⟨?_, ?_, fun n hn => ?_, ?_, ?_⟩
  · rw [ctrVal, hback, ← ctrVal, ctrVal_setCtr _ hlive1]
  · rw [hback, ← hctr]
    exact copies_setCtr _ hlive1
  · rw [hback, ctrOf_setCtr_ne _ _ hn, hctr]
  · rw [backWrite, hdirty1]
  · rw [backWrite, setCtr_live _ hlive1, ← hs1]

theorem meterWriteBehind_writes {s : State} {p : Nat} (hp : powered s = true) (hdirty : s.meter.dirty.contains p = true) :
    To (.meterWriteBehind p) s fun t =>
      mreads t.nv.meter (256 * p) 248 = mreads s.meter.mirror (256 * p) 248
        ∧ (∀ a, a < 256 * p ∨ 256 * p + 248 ≤ a → mread t.nv.meter a = mread s.nv.meter a)
        ∧ tgetD t.nv.meterCnt p 0 = tgetD s.nv.meterCnt p 0 + 1
        ∧ t.meter = { s.meter with dirty := s.meter.dirty.filter (· ≠ p) }
        ∧ t = { s with nv := { s.nv with meter := t.nv.meter, meterCnt := t.nv.meterCnt }, meter := t.meter, pmon := t.pmon } := by
  have hexec : exec (.meterWriteBehind p) s = .next (writeMeterPage p s) := by
    simp only [exec, execMeterWriteBehind, hp, hdirty, Bool.and_self, if_true]
  have hlen : (mreads s.meter.mirror (256 * p) 248).length = 248 := length_mreads ..
  have hwritten := mreads_mwrites s.nv.meter (256 * p) (mreads s.meter.mirror (256 * p) 248)
  have hout := fun a => mread_mwrites_out (mreads s.meter.mirror (256 * p) 248) s.nv.meter (256 * p) a
  rw [hlen] at hwritten
  simp only [hlen] at hout
  rw [writeMeterPage] at hexec
  generalize mreads s.meter.mirror (256 * p) 248 = page at *
  exact to_of_eq hexec ⟨hwritten, hout, tgetD_tset_self .., rfl, rfl⟩

/-- Settles O54. -/
theorem countersAreWrittenThrough : Obligations.CountersAreWrittenThrough := by
  intro s
  refine ⟨fun hw => ⟨seqMarkRaise_raises hw, seqReservePoint_decides hw, opsecCheckpoint_writes hw, fun hearly => ?_⟩, fun c => counterBackWrite_writes,
    fun p => meterWriteBehind_writes⟩
  have hlate : ¬ s.sched.secondsAt + 3600 ≤ s.opsec := by omega
  have hnot : decide (s.sched.secondsAt + 3600 ≤ s.opsec) = false := decide_eq_false hlate
  simp only [exec, execOpsecCheckpoint, hnot, Bool.and_false, Bool.false_eq_true, if_false]

end Sys2Proof.WriteThrough
end

section
/-! # QUEUE_DELETE takes the queue's cached context along (O20)

The obligation's clause on QUEUE_DELETE lists the queues and the session table as all that changes beside the answer. Freeing a
queue also drops its context from the bank that caches it (R95), and `cache` is not among the two. -/
namespace Sys2Proof.QueueDelete
open Sys2Proof Sys2Proof.Machine

/-- In service over PCIe, queue 0 of PF0 is DISABLED and its context is in bank 0 of the cache. -/
def cachedQueueDisabled : State :=
  { State.reset with
    pwr := { State.reset.pwr with phase := .service }
    lc := .field
    link := { State.reset.link with hostPath := some .pcie }
    queues := [(0, { st := .disabled })]
    cache := [[0], [], [], [], [], [], [], []] }

/-- QUEUE_DELETE of queue 0. -/
def deleteQueueZero : Req := { Req.blank with len := 20, body := [0, 0, 0, 0] }

/-- Bank 0 of the context cache after an outcome. -/
def firstBankOf : Host.Outcome State Fault Refusal → Option (List Nat)
  | .next t => t.cache.head?
  | _ => none

theorem queueDelete_empties_firstBank :
    firstBankOf (exec (.queueDelete deleteQueueZero) cachedQueueDisabled) = some [] := by decide

/-- Refutes O20: its clause on QUEUE_DELETE keeps the context cache, and the deletion in `cachedQueueDisabled` empties bank 0. -/
theorem not_queueCommandsAct : ¬ Obligations.QueueCommandsAct := by
  intro h
  obtain ⟨-, -, -, hdelete, -⟩ := h.2 deleteQueueZero cachedQueueDisabled (by decide) (by decide) (by decide)
  obtain ⟨t, ht, -, -, hkept, -⟩ := hdelete (by decide) (by decide)
  have hcache : t.cache = cachedQueueDisabled.cache := by rw [hkept.1]
  have hbank := queueDelete_empties_firstBank
  rw [ht, firstBankOf, hcache] at hbank
  exact absurd hbank (by decide)

end Sys2Proof.QueueDelete
end

section
/-! # Register and mailbox buffer accesses (O19) -/
namespace Sys2Proof.Registers
open Sys2Proof Sys2Proof.Machine Sys2Proof.Told Sys2Proof.MeterPort Sys2Proof.Admission

/-- A state that differs from the one before in nothing that flags and completions are read off needs no telling. -/
theorem settle_plain {s u : State} (hq : quiet u = true) (hcode : stateCode u = stateCode s) (hdegraded : u.pwr.degraded = s.pwr.degraded)
    (hlc : u.lc = s.lc) (halert : alert u = alert s) (hfill : u.jrn.fill = s.jrn.fill)
    (henabled : ∀ f, (fnOf u f).enabled = (fnOf s f).enabled) : settle s u = u := by
  have hnote : noteChanges s u = u := by simp [noteChanges, hcode, hdegraded, hlc, halert, hfill, henabled]
  unfold settle
  simp only []
  rw [deliver_quiet hq, fillEvents_quiet hq, hnote]

theorem fnOf_modAt_self {s : State} {f : Nat} (g : Fn → Fn) (hf : f < s.fns.length) :
    fnOf { s with fns := modAt s.fns f g } f = g (fnOf s f) := by
  simp [fnOf, modAt, List.getD_eq_getElem?_getD, hf]

theorem fnOf_modAt_ne {s : State} {f k : Nat} (g : Fn → Fn) (h : k ≠ f) : fnOf { s with fns := modAt s.fns f g } k = fnOf s k := by
  simp [fnOf, modAt, List.getD_eq_getElem?_getD, Ne.symm h]

theorem enabled_modAt {s : State} {f : Nat} {g : Fn → Fn} (hf : f < s.fns.length) (hg : ∀ x, (g x).enabled = x.enabled) (k : Nat) :
    (fnOf { s with fns := modAt s.fns f g } k).enabled = (fnOf s k).enabled := by
  by_cases hk : k = f
  · rw [hk, fnOf_modAt_self g hf, hg]
  · rw [fnOf_modAt_ne g hk]

section
variable {f : Nat} {s : State}

theorem registerWrite_runs {space : Space} {off size : Nat} {v : BitVec 64} {u : State} (hup : spaceUp s f space = true)
    (hrun : hostRegWrite f space off size v s = u) : exec (.registerWrite f space off size (some v)) s = .next (settle s u) := by
  rw [← hrun]
  exact if_pos hup

theorem registerRead_runs {space : Space} {off size : Nat} {u : State} (hup : spaceUp s f space = true)
    (hrun : hostRegRead f space off size s = u) : exec (.registerWrite f space off size none) s = .next (settle s u) := by
  rw [← hrun]
  exact if_pos hup

/-- A function's flags, or a mailbox, or the monitors after a write: nothing that tells the host of anything else. -/
theorem settle_modFn (hq : quiet s = true) (hf : f < s.fns.length) {g : Fn → Fn} (hg : ∀ x, (g x).enabled = x.enabled) :
    settle s { s with fns := modAt s.fns f g } = { s with fns := modAt s.fns f g } :=
  settle_plain (quiet_of_same hq rfl rfl rfl) rfl rfl rfl rfl rfl (enabled_modAt hf hg)

theorem settle_modMbx (hq : quiet s = true) (n : Nat) (g : Mbx → Mbx) : settle s (modMbx f n g s) = modMbx f n g s :=
  settle_plain (quiet_of_same hq rfl rfl rfl) rfl rfl rfl rfl rfl fun _ => rfl

theorem settle_returned (hq : quiet s = true) (v : Nat) : settle s (returned v s) = returned v s :=
  settle_plain (quiet_of_same hq rfl rfl rfl) rfl rfl rfl rfl rfl fun _ => rfl

/-- A read that only drives its data. -/
theorem read_drives {space : Space} {off size v : Nat} (hq : quiet s = true) (hup : spaceUp s f space = true)
    (hrun : hostRegRead f space off size s = returned v s) :
    To (.registerWrite f space off size none) s fun t => t.out = s.out ++ [.reg v] ∧ Notified s t :=
  ⟨returned v s, by rw [registerRead_runs hup hrun, settle_returned hq], rfl, rfl, rfl⟩

/-! ## Where an offset lies (R95, R96) -/

theorem below_buffers (f : Nat) : 0x8000 ≤ (barMap f).buffers ∧ (barMap f).buffers + 4096 * (barMap f).mailboxes ≤ bar0Size f
    ∧ 0x100 + 64 * (barMap f).mailboxes ≤ 0x8000 ∧ 0x8000 ≤ bar0Size f := by
  unfold barMap bar0Size
  split <;> simp

theorem writeBar0_register {off : Nat} (v : BitVec 64) (hoff : off < 0x8000) (halign : off % 4 = 0) :
    writeBar0 f off 4 v s = write32 f off (v.setWidth 32) s := by
  obtain ⟨hlow, -, -, hsize⟩ := below_buffers f
  unfold writeBar0
  simp only []
  rw [if_neg (by omega : ¬bar0Size f ≤ off), if_neg (fun h => by omega), if_pos ⟨trivial, halign⟩]

theorem readBar0_register {off : Nat} (hoff : off < 0x8000) (halign : off % 4 = 0) :
    readBar0 f off 4 s = returned (read32 s f off) s := by
  obtain ⟨hlow, -, -, hsize⟩ := below_buffers f
  unfold readBar0
  simp only []
  rw [if_neg (by omega : ¬bar0Size f ≤ off), if_neg (fun h => by omega), if_pos ⟨trivial, halign⟩]

theorem readBar0_misaligned {off : Nat} (hoff : off < 0x8000) (halign : off % 4 ≠ 0) :
    readBar0 f off 4 s = returned 0xFFFFFFFF (aer f .unsupportedRequest s) := by
  obtain ⟨hlow, -, -, hsize⟩ := below_buffers f
  unfold readBar0
  simp only []
  rw [if_neg (by omega : ¬bar0Size f ≤ off), if_neg (fun h => by omega), if_neg (fun h => halign h.2),
    if_neg (fun h => absurd h.1 (by decide))]
  rfl

section
variable {n off : Nat} (hn : n < (barMap f).mailboxes) (hoff : off < 4096)
include hn hoff

theorem writeBar0_buffer (v : BitVec 64) :
    writeBar0 f ((barMap f).buffers + 4096 * n + off) 1 v s = writeBuf f n off [v.setWidth 8] s := by
  obtain ⟨-, hsize, -⟩ := below_buffers f
  have hmbx : ((barMap f).buffers + 4096 * n + off - (barMap f).buffers) / 4096 = n := by omega
  have hin : ((barMap f).buffers + 4096 * n + off - (barMap f).buffers) % 4096 = off := by omega
  have hbyte : le 1 v.toNat = [v.setWidth 8] := by
    simp only [le, List.cons.injEq, and_true]
    apply BitVec.eq_of_toNat_eq
    simp
  unfold writeBar0
  simp only []
  rw [if_neg (by omega), if_pos (by omega), if_pos ⟨Or.inl trivial, Nat.mod_one _⟩, hmbx, hin, hbyte]

theorem readBar0_buffer :
    readBar0 f ((barMap f).buffers + 4096 * n + off) 1 s = returned (readBuf (mbxOf s f n) off 1) s := by
  obtain ⟨-, hsize, -⟩ := below_buffers f
  have hmbx : ((barMap f).buffers + 4096 * n + off - (barMap f).buffers) / 4096 = n := by omega
  have hin : ((barMap f).buffers + 4096 * n + off - (barMap f).buffers) % 4096 = off := by omega
  unfold readBar0
  simp only []
  rw [if_neg (by omega), if_pos ⟨by omega, by omega, Or.inl trivial, Nat.mod_one _⟩, hmbx, hin]

end

/-! ## Registers -/

variable (hup : barUp s f = true) (hq : quiet s = true)
include hup hq

theorem irqEn_written (hf : f < s.fns.length) (v : BitVec 64) :
    To (.registerWrite f .bar0 0x34 4 (some v)) s fun t =>
      (fnOf t f).irqEn = v.setWidth 32 &&& 0x1F ∧ Notified { s with fns := t.fns } t ∧ ∀ g, g ≠ f → (fnOf t g).irqEn = (fnOf s g).irqEn := by
  have hrun : hostRegWrite f .bar0 0x34 4 v s = setIrqEn f (v.setWidth 32) s := writeBar0_register v (by decide) (by decide)
  refine to_of_eq ((registerWrite_runs (space := .bar0) hup hrun).trans (congrArg _ (settle_modFn hq hf fun _ => rfl))) ⟨?_, ⟨rfl, rfl⟩, fun g hg => ?_⟩
  · rw [fnOf_modAt_self _ hf]; rfl
  · rw [fnOf_modAt_ne _ hg]

theorem devEvent_cleared (hf : f < s.fns.length) (v : BitVec 64) :
    To (.registerWrite f .bar0 0x30 4 (some v)) s fun t =>
      (fnOf t f).devEvent = (fnOf s f).devEvent &&& ~~~v.setWidth 32 ∧ Notified { s with fns := t.fns } t := by
  have hrun : hostRegWrite f .bar0 0x30 4 v s = clearDevEvent f (v.setWidth 32) s := writeBar0_register v (by decide) (by decide)
  refine to_of_eq ((registerWrite_runs (space := .bar0) hup hrun).trans (congrArg _ (settle_modFn hq hf fun _ => rfl))) ⟨?_, rfl, rfl⟩
  rw [fnOf_modAt_self _ hf]

/-- DEV_STATUS is read-only. -/
theorem devStatus_ignores (v : BitVec 64) : To (.registerWrite f .bar0 0x00 4 (some v)) s fun t => Notified s t := by
  have hread : write32 f 0 (v.setWidth 32) s = s := by
    unfold write32 barMap
    by_cases hf : f = 0 <;> simp [hf]
  have hrun : hostRegWrite f .bar0 0x00 4 v s = s := (writeBar0_register v (by decide) (by decide)).trans hread
  exact to_of_settle (registerWrite_runs (space := .bar0) hup hrun) hq fun t h => h

theorem statusBlock_read {off : Nat} (hoff : off < 0x40) (halign : off % 4 = 0) :
    To (.registerWrite f .bar0 off 4 none) s fun t => t.out = s.out ++ [.reg (num (statusBlock s f) off 4)] ∧ Notified s t := by
  have hread : read32 s f off = num (statusBlock s f) off 4 := if_pos (by omega)
  exact read_drives hq hup ((readBar0_register (by omega) halign).trans (by rw [hread]))

theorem misaligned_read (hf : f < s.fns.length) {off : Nat} (hoff : off < 0x8000) (halign : off % 4 ≠ 0) :
    To (.registerWrite f .bar0 off 4 none) s fun t =>
      t.out = s.out ++ [.reg 0xFFFFFFFF] ∧ t.link.aer = s.link.aer ++ [(f, .unsupportedRequest)] := by
  have htun : s.link.pcieTun = true := by
    simp only [barUp, Bool.and_eq_true] at hup
    exact hup.1.1.1.2
  have haer : aer f .unsupportedRequest s = { s with
      link := { s.link with aer := s.link.aer ++ [(f, .unsupportedRequest)] }, fns := modAt s.fns f (noteAer .unsupportedRequest) } :=
    if_pos htun
  have henabled : ∀ k, (fnOf (aer f .unsupportedRequest s) k).enabled = (fnOf s k).enabled := by
    rw [haer]
    exact enabled_modAt hf fun x => rfl
  have hsettle : settle s (returned 0xFFFFFFFF (aer f .unsupportedRequest s)) = returned 0xFFFFFFFF (aer f .unsupportedRequest s) := by
    rw [haer] at henabled ⊢
    exact settle_plain (quiet_of_same hq rfl rfl rfl) rfl rfl rfl rfl rfl henabled
  refine to_of_eq ((registerRead_runs (space := .bar0) hup (readBar0_misaligned hoff halign)).trans (congrArg _ hsettle)) ?_
  rw [haer]
  exact ⟨rfl, rfl⟩

omit hup in
/-- FREEZE of PMON_CTRL, in PF0's BAR4. -/
theorem freeze_follows (hup : barUp s 0 = true) (v : BitVec 64) :
    To (.registerWrite 0 .bar4 0x1000 4 (some (v &&& 1))) s fun t => t.pmon = { s.pmon with freeze := v.getLsbD 0 } ∧ Notified s t := by
  have hpmon : writePmon 0x1000 ((v &&& 1).setWidth 32) s.pmon = { s.pmon with freeze := v.getLsbD 0 } := by
    have hclear : ((v &&& 1).setWidth 32).getLsbD 1 = false := by simp
    have hfreeze : ((v &&& 1).setWidth 32).getLsbD 0 = v.getLsbD 0 := by simp
    simp only [writePmon, hclear, hfreeze]
    rfl
  have hrun : hostRegWrite 0 .bar4 0x1000 4 (v &&& 1) s = { s with pmon := { s.pmon with freeze := v.getLsbD 0 } } := by
    rw [← hpmon]
    rfl
  refine to_of_eq ((registerWrite_runs (by rw [spaceUp, hup]; rfl) hrun).trans (congrArg _ (settle_plain (quiet_of_same hq rfl rfl rfl) rfl rfl rfl rfl rfl fun _ => rfl))) ⟨rfl, rfl, rfl⟩

/-! ## Mailbox buffers -/

section
variable {n off : Nat} (hn : n < (barMap f).mailboxes) (hoff : off < 4096) (v : BitVec 64)
include hn hoff

theorem buffer_written (hidle : (mbxOf s f n).busy = false) :
    To (.registerWrite f .bar0 ((barMap f).buffers + 4096 * n + off) 1 (some v)) s fun t =>
      mread (mbxOf t f n).buf off = v.setWidth 8
        ∧ (∀ a, a ≠ off → mread (mbxOf t f n).buf a = mread (mbxOf s f n).buf a) ∧ Notified { s with mbxs := t.mbxs } t := by
  have hbuf : writeBuf f n off [v.setWidth 8] s = modMbx f n (fun m => { m with buf := mwrite m.buf off (v.setWidth 8) }) s := by
    unfold writeBuf modMbx
    simp [hidle, mwrites]
  have hrun : hostRegWrite f .bar0 ((barMap f).buffers + 4096 * n + off) 1 v s = _ := (writeBar0_buffer hn hoff v).trans hbuf
  refine to_of_eq ((registerWrite_runs (space := .bar0) hup hrun).trans (congrArg _ (settle_modMbx hq n _))) ⟨?_, fun a ha => ?_, rfl, rfl⟩
  · rw [mbxOf_modMbx_self, mread_mwrite_self]
  · rw [mbxOf_modMbx_self, mread_mwrite_ne _ _ ha]

theorem busyBuffer_discards (hbusy : (mbxOf s f n).busy = true) :
    To (.registerWrite f .bar0 ((barMap f).buffers + 4096 * n + off) 1 (some v)) s fun t =>
      mbxOf t f n = { mbxOf s f n with overrun := true } ∧ Notified { s with mbxs := t.mbxs } t := by
  have hrun : hostRegWrite f .bar0 ((barMap f).buffers + 4096 * n + off) 1 v s = _ := writeBar0_buffer hn hoff v
  refine to_of_eq ((registerWrite_runs (space := .bar0) hup hrun).trans (congrArg _ (settle_modMbx hq n _))) ⟨?_, rfl, rfl⟩
  rw [mbxOf_modMbx_self, if_pos hbusy]

omit v in
theorem buffer_read {x : Nat} (hx : readBuf (mbxOf s f n) off 1 = x) :
    To (.registerWrite f .bar0 ((barMap f).buffers + 4096 * n + off) 1 none) s fun t => t.out = s.out ++ [.reg x] ∧ Notified s t :=
  read_drives hq hup (hx ▸ readBar0_buffer hn hoff)

end

/-- GO on a mailbox that is BUSY is ignored, and sets OVERRUN. -/
theorem busyMailbox_ignores_go {n : Nat} (hn : n < (barMap f).mailboxes) (hbusy : (mbxOf s f n).busy = true)
    (hpath : s.link.hostPath = some .pcie) (hfw : f = 0 → n ≠ 63) :
    To (.registerWrite f .bar0 (0x100 + 64 * n) 4 (some 1)) s fun t =>
      (mbxOf t f n).overrun = true ∧ (mbxOf t f n).buf = (mbxOf s f n).buf ∧ Notified { s with mbxs := t.mbxs } t := by
  obtain ⟨-, -, hctrl, -⟩ := below_buffers f
  have hctrl' : write32 f (0x100 + 64 * n) 1 s = writeMbxCtrl f n 1 s := by
    unfold write32
    simp only []
    rw [if_neg (by omega), if_neg (by omega), if_pos ⟨by omega, by omega⟩, if_pos (by omega), show (0x100 + 64 * n - 0x100) / 64 = n by omega]
  have hhost : (f == 0 && n == 63) = false := by
    by_cases hf : f = 0
    · simp [hfw hf]
    · simp [hf]
  generalize hg : (fun m : Mbx => { m with
    done := m.done && !(1 : BitVec 32).getLsbD 2, irqEn := (1 : BitVec 32).getLsbD 3, overrun := m.overrun && !(1 : BitVec 32).getLsbD 4 }) = g
  have hgbusy : (mbxOf (modMbx f n g s) f n).busy = true := by rw [mbxOf_modMbx_self, ← hg]; exact hbusy
  have hwrite : writeMbxCtrl f n 1 s = modMbx f n (fun m => { m with overrun := true }) (modMbx f n g s) := by
    unfold writeMbxCtrl
    simp only [hg]
    rw [if_pos (by decide), if_pos]
    simp [hgbusy, hhost, hpath]
  have hrun : hostRegWrite f .bar0 (0x100 + 64 * n) 4 1 s = modMbx f n (fun m => { m with overrun := true }) (modMbx f n g s) :=
    ((writeBar0_register 1 (by omega) (by omega)).trans hctrl').trans hwrite
  refine to_of_eq ((registerWrite_runs (space := .bar0) hup hrun).trans (congrArg _ (settle_plain (quiet_of_same hq rfl rfl rfl) rfl rfl rfl rfl rfl fun _ => rfl)))
    ⟨?_, ?_, rfl, rfl⟩
  · rw [mbxOf_modMbx_self]
  · rw [mbxOf_modMbx_self, mbxOf_modMbx_self, ← hg]

end

/-- Settles O19. -/
theorem registerWritesReachTheirRegister : Obligations.RegisterWritesReachTheirRegister := by
  intro f s hup hf hfns hq
  have hlt : f < s.fns.length := hfns ▸ hf
  refine ⟨fun v => ⟨irqEn_written hup hq hlt v, devEvent_cleared hup hq hlt v, devStatus_ignores hup hq v, ?_⟩,
    fun off hoff halign => statusBlock_read hup hq hoff halign, fun off size => read_drives hq hup rfl,
    fun off hoff halign => misaligned_read hup hq hlt hoff halign,
    fun n off hn hoff v => ⟨fun hidle => ⟨buffer_written hup hq hn hoff v hidle, buffer_read hup hq hn hoff ?_⟩,
      fun hbusy => ⟨busyBuffer_discards hup hq hn hoff v hbusy, buffer_read hup hq hn hoff ?_, busyMailbox_ignores_go hup hq hn hbusy⟩⟩⟩
  · rintro rfl
    exact freeze_follows hq hup v
  · simp [readBuf, hidle, mreads, leVal]
  · simp [readBuf, hbusy]

end Sys2Proof.Registers
end

section
/-! # A function-level reset of PF0 and a VF whose own reset goes on (O16)

The obligation's clause on PF0_FLR wants every queue of the host path FREE. A VF that has the cause of a function-level reset
already is passed over by the reset of PF0, and the clause has no premise that excludes such a VF with a queue of its own. -/
namespace Sys2Proof.FunctionReset
open Sys2Proof Sys2Proof.Machine

/-- In service with the link up: PF0 and VF 1 exist, VF 1 is disabled by a reset of its own, and queue 0 of VF 1 is ACTIVE. -/
def vfResetUnderWay : State :=
  { State.reset with
    pwr := { State.reset.pwr with phase := .service }
    link := { State.reset.link with enabled := true }
    fns := { present := true } :: { present := true, causes := [.flr] } :: State.reset.fns.drop 2
    queues := [(0, { st := .active, fn := 1 })] }

/-- The state of queue 0 after an outcome. -/
def queueZeroOf : Host.Outcome State Fault Refusal → Option QState
  | .next t => some (queueOf t 0).st
  | _ => none

theorem pf0Flr_leaves_queueZero : queueZeroOf (exec .pf0Flr vfResetUnderWay) = some .active := by decide +kernel

/-- Refutes O16: after PF0_FLR in `vfResetUnderWay` the queue of VF 1 is ACTIVE still. -/
theorem not_functionsComeAndGo : ¬ Obligations.FunctionsComeAndGo := by
  intro h
  obtain ⟨-, hreset, -⟩ := h
  obtain ⟨-, hpf0, -⟩ := hreset vfResetUnderWay (by decide) (by decide) (by decide)
  obtain ⟨t, ht, -, -, -, -, hqueues, -⟩ := hpf0 (by decide) (by decide) (by decide)
  have hst := pf0Flr_leaves_queueZero
  rw [ht] at hst
  have hactive : (queueOf t 0).st = .active := Option.some.inj hst
  rcases hqueues 0 (by decide) (by decide) with hfree | hgone
  · exact absurd (hactive.symm.trans hfree) (by decide)
  · exact absurd hgone (by decide)

end Sys2Proof.FunctionReset
end

section
/-! # What stopping functions and their queues leaves (R84, R105, R134, R148) -/
namespace Sys2Proof.Functions
open Sys2Proof Sys2Proof.Machine Sys2Proof.Told Sys2Proof.WriteThrough

/-! ## Functions, but for credit in use and flags -/

/-- A function without its credit in use and its event flags, which completing entries and telling the host change. -/
def plain (x : Fn) : Fn := { x with inUsed := 0, stUsed := 0, devEvent := 0 }

/-- The functions are the same but for credit in use and flags. -/
def SameFns (s t : State) : Prop := ∀ k, plain (fnOf t k) = plain (fnOf s k)

theorem sameFns_refl (s : State) : SameFns s s := fun _ => rfl

theorem sameFns_trans {s t u : State} (h : SameFns s t) (h' : SameFns t u) : SameFns s u := fun k => (h' k).trans (h k)

theorem sameFns_of_fns {s t : State} (h : t.fns = s.fns) : SameFns s t := fun k => by rw [fnOf, fnOf, h]

theorem sameFns_of_notified {s t : State} (h : Notified s t) : SameFns s t := fun k =>
  congrArg (fun x : Fn => { x with inUsed := 0, stUsed := 0 }) (fnOf_of_sansFlags h.2 k)

section
variable {x y : Fn} (h : plain x = plain y)
include h
theorem enabled_of_plain : x.enabled = y.enabled := by have he := congrArg Fn.enabled h; exact he
theorem causes_of_plain : x.causes = y.causes := by have he := congrArg Fn.causes h; exact he
theorem present_of_plain : x.present = y.present := by have he := congrArg Fn.present h; exact he
end

theorem fnOf_map {s : State} {g : Nat → Fn → Fn} (k : Nat) (hg : g k {} = {}) :
    fnOf { s with fns := s.fns.mapIdx g } k = g k (fnOf s k) := by
  simp only [fnOf, List.getD_eq_getElem?_getD, List.getElem?_mapIdx]
  cases s.fns[k]? with
  | none => exact hg.symm
  | some x => rfl

theorem recharge_sameFns (s : State) : SameFns s (recharge s) := fun k => by
  have hof : fnOf (recharge s) k = (s.fns.mapIdx fun f x => { x with inUsed := chargeOf s f, stUsed := stChargeOf s.work f }).getD k {} := rfl
  rw [hof, fnOf, List.getD_eq_getElem?_getD, List.getD_eq_getElem?_getD, List.getElem?_mapIdx]
  cases s.fns[k]? <;> rfl

theorem deliver_sameFns (s : State) : SameFns s (deliver s) := by
  unfold deliver
  simp only []
  split
  · exact sameFns_refl s
  · refine foldl_keeps (P := SameFns s) _ _ _ (sameFns_trans (sameFns_of_fns rfl) (recharge_sameFns _)) fun t f h => ?_
    exact sameFns_trans h (sameFns_of_fns (gateFault_fns f t))

/-- The fill of the journal tells the host by records only. -/
theorem fillEvents_only (s : State) :
    fillEvents s = { s with ev := (fillEvents s).ev, pmon := (fillEvents s).pmon, jrn := { s.jrn with fill := (fillEvents s).jrn.fill } } := by
  unfold fillEvents
  split
  · rfl
  · simp only []
    have step : ∀ (old new level code pct : Nat) (t : State), t = { s with ev := t.ev, pmon := t.pmon } →
        (if old < level ∧ level ≤ new then event code pct t else if new < level ∧ level ≤ old then event code (256 + pct) t else t)
          = { s with
              ev := (if old < level ∧ level ≤ new then event code pct t
                else if new < level ∧ level ≤ old then event code (256 + pct) t else t).ev
              pmon := (if old < level ∧ level ≤ new then event code pct t
                else if new < level ∧ level ≤ old then event code (256 + pct) t else t).pmon } := by
      intro old new level code pct t ht
      split
      · rw [event_only, ht]
      · split
        · rw [event_only, ht]
        · exact ht
    exact congrArg (fun t : State => { t with jrn := { t.jrn with fill := jfill s } })
      (step _ _ _ _ _ _ (step _ _ _ _ _ _ (step _ _ _ _ _ s rfl)))

theorem settle_sameFns (s0 s : State) : SameFns s (settle s0 s) := by
  refine sameFns_trans (deliver_sameFns s) (sameFns_trans (t := fillEvents (deliver s)) (sameFns_of_fns ?_) ?_)
  · rw [fillEvents_only]
  · exact sameFns_trans (sameFns_of_notified (noteChanges_notified s0 _)) (sameFns_of_fns rfl)

/-! ## Queues, but for where their completion ring stands -/

/-- A queue without what a completion moves on. -/
def unmoved (q : Queue) : Queue := { q with cqTail := 0, phase := false, unreleased := 0 }

theorem put_unmoved (gates : List Gate) (qix htag seq status detail : Nat) (output : Bytes) (d : Deliver) (q : Nat) :
    unmoved (tgetD (d.put gates qix htag seq status detail output).queues q {}) = unmoved (tgetD d.queues q {}) := by
  unfold Deliver.put
  simp only []
  split
  · by_cases hq : q = qix
    · subst hq
      rw [tgetD_tset_self]
      rfl
    · rw [tgetD_tset_ne _ _ _ hq]
  · rfl
  · rfl

theorem deliverAll_unmoved (gates : List Gate) (j : Journal) (ws : List Work) (blocked : List Nat) (d : Deliver) (q : Nat) :
    unmoved (tgetD (deliverAll gates j ws blocked d).2.queues q {}) = unmoved (tgetD d.queues q {}) := by
  induction ws generalizing blocked d with
  | nil => rfl
  | cons w ws ih =>
    unfold deliverAll
    split
    · rw [ih, put_unmoved]
    · exact ih _ _

theorem deliver_unmoved (s : State) (q : Nat) : unmoved (queueOf (deliver s) q) = unmoved (queueOf s q) := by
  unfold deliver
  simp only []
  split
  · rfl
  · refine foldl_keeps (P := fun t => unmoved (queueOf t q) = unmoved (queueOf s q)) _ _ _ ?_ fun t f h => ?_
    · exact deliverAll_unmoved s.gates s.jrn s.work [] _ q
    · rw [queueOf, gateFault_queues]
      exact h

theorem settle_unmoved (s0 s : State) (q : Nat) : unmoved (queueOf (settle s0 s) q) = unmoved (queueOf s q) := by
  have hqueues : (settle s0 s).queues = (deliver s).queues := by
    show (noteChanges s0 (fillEvents (deliver s))).queues = _
    rw [queues_of_notified (noteChanges_notified _ _), fillEvents_only]
  rw [queueOf, hqueues]
  exact deliver_unmoved s q

theorem settle_queue_st (s0 s : State) (q : Nat) : (queueOf (settle s0 s) q).st = (queueOf s q).st :=
  by have h := congrArg Queue.st (settle_unmoved s0 s q); exact h

/-! ## Stopping and freeing queues -/

@[simp] theorem freeQueue_queues (q : Nat) (s : State) : (freeQueue q s).queues = tdel s.queues q := rfl

theorem queueOf_freeQueue_self (q : Nat) (s : State) : queueOf (freeQueue q s) q = {} := tgetD_tdel_self ..

theorem queueOf_freeQueue_ne {q k : Nat} (s : State) (h : k ≠ q) : queueOf (freeQueue q s) k = queueOf s k := tgetD_tdel_ne _ _ h

/-- What `stopQueues` keeps of the work. -/
def keptOf (qs : List Nat) (s : State) : List Work :=
  s.work.filter fun w => !(qs.contains w.qix && w.stage != .fetched && (w.seq == 0 || w.journalled))

@[simp] theorem freeQueue_work (q : Nat) (s : State) : (freeQueue q s).work = s.work := by rw [freeQueue_only]

theorem stopQueues_work (qs : List Nat) (s : State) : (stopQueues qs s).work = keptOf qs s := by
  unfold stopQueues
  refine foldl_keeps (P := fun t : State => t.work = keptOf qs s) _ _ _ rfl fun t q h => ?_
  split
  · exact h
  · rw [freeQueue_work]; exact h

theorem stopQueues_sameFns (qs : List Nat) (s : State) : SameFns s (stopQueues qs s) := by
  unfold stopQueues
  refine sameFns_trans ?_ (recharge_sameFns _)
  refine foldl_keeps (P := SameFns s) _ _ _ (sameFns_of_fns rfl) fun t q h => ?_
  split
  · exact h
  · exact sameFns_trans h (sameFns_of_fns (by rw [freeQueue_only]))

/-- A queue that is not among those that stop stays. -/
theorem queueOf_stopQueues_ne {qs : List Nat} {q : Nat} (s : State) (h : q ∉ qs) : queueOf (stopQueues qs s) q = queueOf s q := by
  show queueOf (qs.foldl _ _) q = _
  refine List.foldlRecOn (motive := fun t => queueOf t q = queueOf s q) qs _ rfl fun t ht k hk => ?_
  have hne : q ≠ k := fun heq => h (heq ▸ hk)
  split
  · exact (tgetD_tset_ne _ _ _ hne).trans ht
  · exact (queueOf_freeQueue_ne _ hne).trans ht

/-- A queue that stops is FREE where nothing of it is left. -/
theorem queueOf_stopQueues_mem {qs : List Nat} {q : Nat} (s : State) (h : q ∈ qs) (hidle : (keptOf qs s).any (·.qix == q) = false) :
    queueOf (stopQueues qs s) q = {} := by
  show queueOf (qs.foldl _ _) q = _
  generalize { s with work := _ } = u
  have hleft : ∀ (l : List Nat) (t : State), q ∈ l ∨ queueOf t q = {} →
      queueOf (l.foldl (fun t k => if (keptOf qs s).any (·.qix == k) then
        modQueue k (fun x => { x with st := .disabling, byFn := true, stopDue := none }) t else freeQueue k t) t) q = {} := by
    intro l
    induction l with
    | nil => exact fun t h => h.resolve_left List.not_mem_nil
    | cons k l ih =>
      intro t ht
      rw [List.foldl_cons]
      refine ih _ ?_
      by_cases hk : k = q
      · subst hk
        rw [if_neg (by simp [hidle])]
        exact .inr (queueOf_freeQueue_self k t)
      · rcases ht with hmem | hfree
        · exact .inl ((List.mem_cons.mp hmem).resolve_left (Ne.symm hk))
        · refine .inr ?_
          split
          · exact (tgetD_tset_ne _ _ _ (Ne.symm hk)).trans hfree
          · exact (queueOf_freeQueue_ne _ (Ne.symm hk)).trans hfree
  exact hleft qs u (.inl h)

/-! ## Disabling and enabling a function -/

theorem fnOf_modFn_self {s : State} {f : Nat} (g : Fn → Fn) (hf : f < s.fns.length) :
    fnOf { s with fns := modAt s.fns f g } f = g (fnOf s f) := Registers.fnOf_modAt_self g hf

section
variable {cause : FnCause} {f : Nat} {s : State}

/-- The state in which a function is disabled for a cause and its queues have not stopped yet. -/
def barred (cause : FnCause) (f : Nat) (s : State) : State :=
  { s with fns := modAt s.fns f fun x => { x with enabled := false, causes := cause :: x.causes } }

theorem disableFn_of_new (hpresent : (fnOf s f).present = true) (hcauses : (fnOf s f).causes.contains cause = false) :
    disableFn cause f s = event 0x0206 (f + 16 * causeCode cause) (stopQueues (queuesOf cause f (barred cause f s)) (barred cause f s)) := by
  unfold disableFn
  simp only []
  rw [if_neg (by rw [hpresent, hcauses]; decide), barred]

theorem disableFn_sameFns (cause : FnCause) (f : Nat) (s : State) : SameFns (barred cause f s) (disableFn cause f s) ∨ disableFn cause f s = s := by
  unfold disableFn
  simp only []
  split
  · exact .inr rfl
  · exact .inl (sameFns_trans (stopQueues_sameFns _ _) (sameFns_of_fns (event_fns ..)))

/-- Disabling a function leaves the others. -/
theorem fnOf_disableFn_ne {k : Nat} (h : k ≠ f) : plain (fnOf (disableFn cause f s) k) = plain (fnOf s k) := by
  rcases disableFn_sameFns cause f s with hsame | hsame
  · rw [hsame k, barred, Registers.fnOf_modAt_ne _ h]
  · rw [hsame]

theorem fnOf_disableFn_self (hpresent : (fnOf s f).present = true) (hcauses : (fnOf s f).causes.contains cause = false)
    (hf : f < s.fns.length) :
    plain (fnOf (disableFn cause f s) f) = plain { fnOf s f with enabled := false, causes := cause :: (fnOf s f).causes } := by
  rw [disableFn_of_new hpresent hcauses, sameFns_of_fns (event_fns ..) f, stopQueues_sameFns _ _ f, barred, fnOf_modFn_self _ hf]

/-- A queue that the cause does not reach stays. -/
theorem queueOf_disableFn_of_unreached {q : Nat} (h : reaches cause s f q = false) : queueOf (disableFn cause f s) q = queueOf s q := by
  unfold disableFn
  simp only []
  split
  · rfl
  · rw [queueOf, event_queues]
    refine (queueOf_stopQueues_ne _ fun hmem => ?_)
    have hreach := (List.mem_filter.mp hmem).2
    exact absurd (hreach.symm.trans h) (by decide)

theorem mem_work_of_disableFn {w : Work} (h : w ∈ (disableFn cause f s).work) : w ∈ s.work := by
  unfold disableFn at h
  simp only [] at h
  split at h
  · exact h
  · rw [event_work, stopQueues_work] at h
    exact (List.mem_filter.mp h).1

/-- Less work, and the same journal and MRAM, is quiet where there was quiet. -/
theorem quiet_of_less {t : State} (hq : quiet s = true) (hwork : ∀ w ∈ t.work, w ∈ s.work) (hj : t.jrn = s.jrn) (hn : t.nv = s.nv) :
    quiet t = true := by
  simp only [quiet, jfill, ringUsed, hj, hn, Bool.and_eq_true, List.all_eq_true] at hq ⊢
  exact ⟨fun w hw => hq.1 w (hwork w hw), hq.2⟩

/-- The last cause ends, and the function is enabled where it may be. -/
theorem fnOf_endCause_self (hf : f < s.fns.length) (hpresent : (fnOf s f).present = true) (hcauses : (fnOf s f).causes = [cause])
    (hmay : mayEnable s = true) : fnOf (endCause cause f s) f = { fnOf s f with causes := [], enabled := true } := by
  rw [endCause, fnOf_modFn_self _ hf]
  simp [hpresent, hcauses, hmay]

theorem fnOf_endCause_ne {k : Nat} (h : k ≠ f) : fnOf (endCause cause f s) k = fnOf s k := Registers.fnOf_modAt_ne _ h

end

end Sys2Proof.Functions
end

section
/-! # Link loss, detach and return (O15) -/
namespace Sys2Proof.LinkLoss
open Sys2Proof Sys2Proof.Machine Sys2Proof.Told Sys2Proof.Functions

/-! ## A reset of PF0 with its VFs (R84, R91, R105) -/

/-- The functions after a reset of each that is there: PF0 by its cause, a VF as by a function-level reset. -/
def resetAll (cause : FnCause) (s : State) : State :=
  (List.range 16).foldl (fun t f => resetFn (if f = 0 then cause else .flr) f t) s

theorem resetPf0_eq (cause : FnCause) (s : State) : resetPf0 cause s = releaseDgu .host (dropVfs (resetAll cause s)) := rfl

theorem resetAll_only (cause : FnCause) (s : State) :
    resetAll cause s = { s with
      fns := (resetAll cause s).fns, vecs := (resetAll cause s).vecs, mbxs := (resetAll cause s).mbxs
      queues := (resetAll cause s).queues, cache := (resetAll cause s).cache, work := (resetAll cause s).work
      keys := (resetAll cause s).keys, dram := (resetAll cause s).dram, ev := (resetAll cause s).ev
      pmon := (resetAll cause s).pmon, spi := (resetAll cause s).spi, waiters := (resetAll cause s).waiters
      held := (resetAll cause s).held } := by
  refine foldl_keeps (P := fun t : State => t = { s with
      fns := t.fns, vecs := t.vecs, mbxs := t.mbxs, queues := t.queues, cache := t.cache, work := t.work, keys := t.keys
      dram := t.dram, ev := t.ev, pmon := t.pmon, spi := t.spi, waiters := t.waiters, held := t.held }) _ _ _ rfl fun t f h => ?_
  rw [resetFn_only, h]

theorem resetPf0_only (cause : FnCause) (s : State) :
    resetPf0 cause s = { resetAll cause s with
      fns := (resetPf0 cause s).fns, link := { s.link with vfEnable := false, numVFs := 0 }, dgu1 := (resetPf0 cause s).dgu1 } := by
  have hlink : (resetAll cause s).link = s.link := by rw [resetAll_only]
  rw [resetPf0_eq, releaseDgu_only, dropVfs, hlink]

theorem resetPf0_fns (cause : FnCause) (s : State) : (resetPf0 cause s).fns = (dropVfs (resetAll cause s)).fns := by
  rw [resetPf0_eq, releaseDgu_only]

/-! ### Functions -/

section
variable {cause : FnCause} {f k : Nat} {s : State}

theorem fnOf_resetFnRegs_ne (h : k ≠ f) : fnOf (resetFnRegs f s) k = fnOf s k :=
  Registers.fnOf_modAt_ne (s := { dropRequests f s with fns := (dropRequests f s).fns }) _ h

theorem fnOf_resetFnRegs_self (h : f < s.fns.length) :
    fnOf (resetFnRegs f s) f = { fnOf s f with devEvent := 0, irqEn := 0, bme := false, cfg := [] } :=
  fnOf_modFn_self (s := dropRequests f s) _ h

theorem fnOf_resetFn_ne (h : k ≠ f) : plain (fnOf (resetFn cause f s) k) = plain (fnOf s k) := by
  unfold resetFn
  split
  · rw [fnOf_disableFn_ne h, fnOf_resetFnRegs_ne h]
  · rfl

theorem length_resetFnRegs : (resetFnRegs f s).fns.length = s.fns.length := List.length_modify ..

theorem fnOf_resetFn_self (hpresent : (fnOf s f).present = true) (hcauses : (fnOf s f).causes.contains cause = false) (hf : f < s.fns.length) :
    (fnOf (resetFn cause f s) f).enabled = false ∧ (fnOf (resetFn cause f s) f).causes = cause :: (fnOf s f).causes := by
  have hregs := fnOf_resetFnRegs_self hf
  have hplain := fnOf_disableFn_self (cause := cause) (f := f) (s := resetFnRegs f s) (by rw [hregs]; exact hpresent)
    (by rw [hregs]; exact hcauses) (by rw [length_resetFnRegs]; exact hf)
  rw [resetFn, if_pos hpresent]
  exact ⟨enabled_of_plain hplain, by rw [causes_of_plain hplain, hregs]⟩

/-- PF0 after the resets: the VFs' own leave it. -/
theorem pf0_of_resetAll (cause : FnCause) (s : State) : plain (fnOf (resetAll cause s) 0) = plain (fnOf (resetFn cause 0 s) 0) := by
  have hrange : List.range 16 = 0 :: (List.range 15).map Nat.succ := List.range_succ_eq_map
  rw [resetAll, hrange, List.foldl_cons, if_pos rfl]
  refine List.foldlRecOn (motive := fun t => plain (fnOf t 0) = plain (fnOf (resetFn cause 0 s) 0)) _ _ rfl fun t ht k hk => ?_
  have hne : 0 ≠ k := by
    obtain ⟨j, -, rfl⟩ := List.mem_map.mp hk
    exact (Nat.succ_ne_zero j).symm
  exact (fnOf_resetFn_ne hne).trans ht

theorem fnOf_dropVfs_pf0 (s : State) : fnOf (dropVfs s) 0 = fnOf s 0 :=
  fnOf_map (s := { s with link := { s.link with vfEnable := false, numVFs := 0 } }) 0 rfl

theorem fnOf_dropVfs_vf (s : State) (hk : k ≠ 0) :
    fnOf (dropVfs s) k = { fnOf s k with present := false, enabled := false, causes := (fnOf s k).causes.filter (· == .fnDisable) } := by
  refine (fnOf_map (s := { s with link := { s.link with vfEnable := false, numVFs := 0 } }) k ?_).trans (if_neg hk)
  exact if_neg hk

/-! ### SPI queues (R85, R91) -/

theorem queueOf_resetFn_spi {q : Nat} (hcause : cause ≠ .testRoot ∧ cause ≠ .fnDisable) (hspi : (queueOf s q).path = .spi) :
    queueOf (resetFn cause f s) q = queueOf s q := by
  unfold resetFn
  split
  · refine queueOf_disableFn_of_unreached ?_
    have hpath : (queueOf (resetFnRegs f s) q).path = .spi := hspi
    simp [reaches, hostQueue, hpath, hcause.1, hcause.2]
  · rfl

theorem queueOf_resetAll_spi {q : Nat} (hcause : cause ≠ .testRoot ∧ cause ≠ .fnDisable) (hspi : (queueOf s q).path = .spi) :
    queueOf (resetAll cause s) q = queueOf s q := by
  refine foldl_keeps (P := fun t => queueOf t q = queueOf s q) _ _ _ rfl fun t f h => ?_
  have hstep : (if f = 0 then cause else .flr) ≠ FnCause.testRoot ∧ (if f = 0 then cause else .flr) ≠ FnCause.fnDisable := by
    split
    · exact hcause
    · exact ⟨by decide, by decide⟩
  exact (queueOf_resetFn_spi hstep (by rw [h, hspi])).trans h

theorem mem_work_of_resetAll {w : Work} (h : w ∈ (resetAll cause s).work) : w ∈ s.work := by
  revert h
  refine foldl_keeps (P := fun t : State => w ∈ t.work → w ∈ s.work) _ _ _ id fun t f h hmem => ?_
  rw [resetFn] at hmem
  split at hmem
  · exact h (mem_work_of_disableFn (s := resetFnRegs f t) hmem)
  · exact h hmem

end

/-! ## The path that gives up the host role -/

section
variable (c : LinkCause) (s : State)

theorem losePath_eq : ∃ code l, losePath c s = { resetPf0 .link (event 0x0204 code s) with link := l } := ⟨_, _, rfl⟩

theorem losePath_only :
    losePath c s = { s with
      fns := (losePath c s).fns, vecs := (losePath c s).vecs, mbxs := (losePath c s).mbxs, queues := (losePath c s).queues
      cache := (losePath c s).cache, work := (losePath c s).work, keys := (losePath c s).keys, dram := (losePath c s).dram
      ev := (losePath c s).ev, pmon := (losePath c s).pmon, spi := (losePath c s).spi, waiters := (losePath c s).waiters
      held := (losePath c s).held, link := (losePath c s).link, dgu1 := (losePath c s).dgu1 } := by
  obtain ⟨code, l, h⟩ := losePath_eq c s
  rw [h, resetPf0_only, resetAll_only, event_only]

theorem losePath_hostPath : (losePath c s).link.hostPath = none := by
  unfold losePath
  simp only []
  split <;> rfl

theorem losePath_paths (h : c ≠ .conventional) :
    (losePath c s).link.gen = 0 ∧ (losePath c s).link.pcieTun = false ∧ (losePath c s).link.usb3Tun = false := by
  unfold losePath
  simp only [if_neg h, and_self]

/-- What the resets of the functions leave is what the path leaves of functions, queues and work. -/
theorem losePath_parts : ∃ code, (losePath c s).fns = (dropVfs (resetAll .link (event 0x0204 code s))).fns
    ∧ (losePath c s).queues = (resetAll .link (event 0x0204 code s)).queues
    ∧ (losePath c s).work = (resetAll .link (event 0x0204 code s)).work := by
  obtain ⟨code, l, h⟩ := losePath_eq c s
  refine ⟨code, ?_, ?_, ?_⟩
  · rw [h, ← resetPf0_fns]
  · rw [h, resetPf0_only]
  · rw [h, resetPf0_only]

variable {c s}

theorem losePath_disables (hpresent : (fnOf s 0).present = true) (hcauses : (fnOf s 0).causes = []) (hfns : s.fns.length = 16) :
    (fnOf (losePath c s) 0).causes = [.link] ∧ ∀ k, (fnOf (losePath c s) k).enabled = false ∧ (k ≠ 0 → (fnOf (losePath c s) k).present = false) := by
  obtain ⟨code, hf, -, -⟩ := losePath_parts c s
  have hof : ∀ k, fnOf (losePath c s) k = fnOf (dropVfs (resetAll .link (event 0x0204 code s))) k := fun k => by rw [fnOf, hf, ← fnOf]
  have hsame : fnOf (event 0x0204 code s) 0 = fnOf s 0 := by rw [fnOf, event_fns, ← fnOf]
  obtain ⟨henabled, hlink⟩ := fnOf_resetFn_self (cause := .link) (f := 0) (s := event 0x0204 code s) (by rw [hsame]; exact hpresent)
    (by rw [hsame, hcauses]; rfl) (by rw [event_fns]; omega)
  have hpf0 := pf0_of_resetAll .link (event 0x0204 code s)
  refine ⟨?_, fun k => ?_⟩
  · rw [hof, fnOf_dropVfs_pf0, causes_of_plain hpf0, hlink, hsame, hcauses]
  · rw [hof]
    by_cases hk : k = 0
    · subst hk
      rw [fnOf_dropVfs_pf0, enabled_of_plain hpf0]
      exact ⟨henabled, fun h => absurd rfl h⟩
    · rw [fnOf_dropVfs_vf _ hk]
      exact ⟨rfl, fun _ => rfl⟩

theorem queueOf_losePath_spi {q : Nat} (hspi : (queueOf s q).path = .spi) : queueOf (losePath c s) q = queueOf s q := by
  obtain ⟨code, -, hq, -⟩ := losePath_parts c s
  have hsame : queueOf (event 0x0204 code s) q = queueOf s q := by rw [queueOf, event_queues, ← queueOf]
  rw [queueOf, hq]
  exact (queueOf_resetAll_spi ⟨by decide, by decide⟩ (by rw [hsame]; exact hspi)).trans hsame

theorem quiet_losePath (hq : quiet s = true) : quiet (losePath c s) = true := by
  obtain ⟨code, -, -, hw⟩ := losePath_parts c s
  refine quiet_of_less hq (fun w hmem => ?_) (by rw [losePath_only]) (by rw [losePath_only])
  rw [hw] at hmem
  have h := mem_work_of_resetAll hmem
  rwa [event_work] at h

end

theorem linkLoss_acts (c : LinkCause) {s : State} (hup : linkUp s = true) (hfns : s.fns.length = 16) (hpresent : (fnOf s 0).present = true)
    (hcauses : (fnOf s 0).causes = []) :
    To (.linkLoss c) s fun t =>
      t.link.hostPath = none ∧ (c ≠ .conventional → t.link.gen = 0 ∧ t.link.pcieTun = false ∧ t.link.usb3Tun = false)
        ∧ (∀ f, f < 16 → (fnOf t f).enabled = false)
        ∧ (∀ f, 1 ≤ f → f < 16 → (fnOf t f).present = false) ∧ (fnOf t 0).causes = [.link]
        ∧ (∀ q, (queueOf s q).path = .spi → (queueOf t q).st = (queueOf s q).st ∧ (queueOf t q).path = .spi)
        ∧ (quiet s = true → ∀ q, (queueOf s q).path = .spi → (queueOf s q).st ≠ .free → queueOf t q = queueOf s q)
        ∧ t.nv = s.nv ∧ t.meter = s.meter ∧ t.tamper = s.tamper ∧ t.opsec = s.opsec := by
  obtain ⟨hlink, hdisabled⟩ := losePath_disables (c := c) hpresent hcauses hfns
  have hpath := losePath_hostPath c s
  have hpaths := losePath_paths c s
  have hquiet := quiet_losePath (c := c) (s := s)
  have hqueue := fun q => queueOf_losePath_spi (c := c) (s := s) (q := q)
  have honly := losePath_only c s
  have hexec : exec (.linkLoss c) s = .next (settle s (linkDomains (losePath c s))) := if_pos hup
  generalize losePath c s = v at *
  have hfn := settle_sameFns s (linkDomains v)
  refine to_of_eq hexec ⟨hpath, hpaths, fun k _ => ?_, fun k hk _ => ?_, ?_, fun q hspi => ?_, fun hq q hspi _ => ?_, ?_, ?_, ?_, ?_⟩
  · exact (enabled_of_plain (hfn k)).trans (hdisabled k).1
  · exact (present_of_plain (hfn k)).trans ((hdisabled k).2 (by omega))
  · exact (causes_of_plain (hfn 0)).trans hlink
  · have hu : unmoved (queueOf (settle s (linkDomains v)) q) = unmoved (queueOf s q) :=
      (settle_unmoved s (linkDomains v) q).trans (congrArg unmoved (hqueue q hspi))
    have hst := congrArg Queue.st hu
    have hspi' := congrArg Queue.path hu
    exact ⟨hst, hspi'.trans hspi⟩
  · have hn := settle_quiet s (s := linkDomains v) (quiet_of_same (hquiet hq) rfl rfl rfl)
    rw [queueOf, queues_of_notified hn]
    exact hqueue q hspi
  · rw [settle_nv, linkDomains, honly]
  · rw [settle_meter, linkDomains, honly]
  · rw [settle_tamper, linkDomains, honly]
  · rw [settle_opsec, linkDomains, honly]

theorem usbDetach_acts {s : State} (hup : linkUp s = true) (hfns : s.fns.length = 16) (hattached : s.link.attached = true)
    (hpresent : (fnOf s 0).present = true) (hcauses : (fnOf s 0).causes = []) :
    To .usbDetach s fun t =>
      t.link.attached = false ∧ t.link.usb4Mode = false ∧ t.link.hostPath = none ∧ t.link.contract = false
        ∧ (∀ f, f < 16 → (fnOf t f).enabled = false) ∧ t.nv = s.nv ∧ t.meter = s.meter := by
  obtain ⟨-, hdisabled⟩ := losePath_disables (c := .detach) hpresent hcauses hfns
  have hpath := losePath_hostPath .detach s
  have honly := losePath_only .detach s
  have hexec : exec .usbDetach s = .next (settle s (linkDomains { losePath .detach s with
      link := { (losePath .detach s).link with attached := false, usb4Mode := false, contract := false } })) :=
    if_pos (by rw [hup, hattached]; rfl)
  generalize losePath .detach s = v at *
  have hfn := settle_sameFns s (linkDomains { v with link := { v.link with attached := false, usb4Mode := false, contract := false } })
  refine to_of_eq hexec ⟨rfl, rfl, hpath, rfl, fun k _ => (enabled_of_plain (hfn k)).trans (hdisabled k).1, ?_, ?_⟩
  · rw [settle_nv, linkDomains, honly]
  · rw [settle_meter, linkDomains, honly]

/-! ## The link returns -/

theorem endCauseAll_pf0 {s : State} (hfns : s.fns.length = 16) (hpresent : (fnOf s 0).present = true) (hcauses : (fnOf s 0).causes = [.link])
    (hmay : mayEnable s = true) : fnOf (endCauseAll .link s) 0 = { fnOf s 0 with causes := [], enabled := true } := by
  have hrange : List.range 16 = 0 :: (List.range 15).map Nat.succ := List.range_succ_eq_map
  have hfirst : (if (fnOf s 0).causes.contains .link then endCause .link 0 s else s) = endCause .link 0 s := by rw [hcauses]; rfl
  rw [endCauseAll, hrange, List.foldl_cons, hfirst, ← fnOf_endCause_self (by omega) hpresent hcauses hmay]
  refine List.foldlRecOn (motive := fun t => fnOf t 0 = fnOf (endCause .link 0 s) 0) _ _ rfl fun t ht k hk => ?_
  have hne : 0 ≠ k := by
    obtain ⟨j, -, rfl⟩ := List.mem_map.mp hk
    exact (Nat.succ_ne_zero j).symm
  split
  · exact (fnOf_endCause_ne hne).trans ht
  · exact ht

theorem linkReturn_acts {s : State} (gen width : BitVec 2) (p : PathSetup) (hup : linkUp s = true) (hfns : s.fns.length = 16)
    (hcodes : linkCodes gen width = true) (hpresent : (fnOf s 0).present = true) (hcauses : (fnOf s 0).causes = [.link])
    (hmay : mayEnable s = true) :
    To (.linkReturn gen width p) s fun t =>
      t.link.gen = gen ∧ t.link.width = width ∧ t.link.usb3Tun = p.usb3 ∧ t.link.pcieTun = p.pcie ∧ t.link.tmu = p.tmu
        ∧ t.link.cl = p.cl ∧ (fnOf t 0).enabled = true ∧ (fnOf t 0).causes = [] ∧ t.nv = s.nv := by
  generalize hu : linkDomains { s with link := { s.link with
      gen := gen, width := width, usb3Tun := p.usb3, pcieTun := p.pcie, tmu := p.tmu, cl := p.cl } } = u
  have hexec : exec (.linkReturn gen width p) s = .next (settle s (endCauseAll .link u)) := by
    rw [← hu]
    exact if_pos (by rw [hup, hcodes]; rfl)
  have hpf0 : fnOf (endCauseAll .link u) 0 = { fnOf u 0 with causes := [], enabled := true } := by
    subst hu
    exact endCauseAll_pf0 hfns hpresent hcauses hmay
  have hlink : (endCauseAll .link u).link = u.link := by rw [endCauseAll_only]
  have hfn := settle_sameFns s (endCauseAll .link u) 0
  have hparts : ∀ {α : Type} (g : Link → α), (∀ l a b, g { l with usbOut := a, usbNotify := b } = g l) →
      g (settle s (endCauseAll .link u)).link = g u.link := fun g hg => by
    rw [← hlink]
    exact hg _ _ _
  refine to_of_eq hexec ⟨?_, ?_, ?_, ?_, ?_, ?_, ?_, ?_, ?_⟩
  · rw [hparts Link.gen fun _ _ _ => rfl, ← hu]; rfl
  · rw [hparts Link.width fun _ _ _ => rfl, ← hu]; rfl
  · rw [hparts Link.usb3Tun fun _ _ _ => rfl, ← hu]; rfl
  · rw [hparts Link.pcieTun fun _ _ _ => rfl, ← hu]; rfl
  · rw [hparts Link.tmu fun _ _ _ => rfl, ← hu]; rfl
  · rw [hparts Link.cl fun _ _ _ => rfl, ← hu]; rfl
  · rw [enabled_of_plain hfn, hpf0]
  · rw [causes_of_plain hfn, hpf0]
  · rw [settle_nv, endCauseAll_only, ← hu]
    rfl

/-- Settles O15. -/
theorem linkLossDisablesTheHostPath : Obligations.LinkLossDisablesTheHostPath := by
  intro s hup hfns
  exact ⟨fun c hpresent hcauses => linkLoss_acts c hup hfns hpresent hcauses,
    fun hattached hpresent hcauses => usbDetach_acts hup hfns hattached hpresent hcauses,
    fun gen width p hcodes hpresent hcauses hmay => linkReturn_acts gen width p hup hfns hcodes hpresent hcauses hmay⟩

end Sys2Proof.LinkLoss
end

section
/-! # FN_CONFIG, FN_DISABLE, FN_ENABLE and the stop and drain of queues (O21) -/
namespace Sys2Proof.FunctionStop
open Sys2Proof Sys2Proof.Machine Sys2Proof.Told Sys2Proof.Replies Sys2Proof.Functions Sys2Proof.WriteThrough Sys2Proof.NopCompletion
  Sys2Proof.Entries

/-! ## FN_CONFIG, FN_DISABLE and FN_ENABLE (R131, R148) -/

section
variable {r : Req} {s : State}

theorem fnConfig_does (hq : quiet s = true) (h : accepts 0x0201 r (some 48) s = true) (hform : fnConfigBad s r = none)
    (hholds : holdsQueue s (fld r 0 1) = false) :
    Does (.fnConfig r) 0x0201 r s [] { s with
      fns := s.fns.modify (fld r 0 1) fun x => { x with
        weight := fld r 1 1, quota := fld r 4 4, inGuar := fld r 8 4, inCap := fld r 12 4, staging := fld r 16 4
        groupW := (List.range 16).map fun i => fld r (20 + i) 1 } } := by
  refine does_of_done (run := fnConfigRun r) rfl h ?_ (quiet_of_same hq rfl rfl rfl)
  unfold fnConfigRun
  simp only [hform, hholds, Bool.false_and, Bool.false_eq_true, if_false]
  rfl

theorem fnFieldBad_none (hhigh : fld r 0 1 ≤ 15) (hrest : fld r 1 3 = 0) : fnFieldBad r = none := by
  simp [fnFieldBad, firstBad, hrest, Nat.not_lt.mpr hhigh]

theorem fnEnable_acts (hq : quiet s = true) (hfns : s.fns.length = 16) (h : accepts 0x0207 r (some 4) s = true) (hlow : 1 ≤ fld r 0 1)
    (hhigh : fld r 0 1 ≤ 15) (hrest : fld r 1 3 = 0) (hpresent : (fnOf s (fld r 0 1)).present = true)
    (hcauses : (fnOf s (fld r 0 1)).causes = [.fnDisable]) (hmay : mayEnable s = true) :
    To (.fnEnable r) s fun t =>
      Answered 0x0207 r stOk 0 [] t ∧ (fnOf t (fld r 0 1)).enabled = true ∧ (fnOf t (fld r 0 1)).causes = []
        ∧ Responded r { s with fns := t.fns } t := by
  have hrun : fnEnableRun r s = .done (endCause .fnDisable (fld r 0 1) s) stOk 0 [] := by
    unfold fnEnableRun
    rw [fnFieldBad_none hhigh hrest]
    exact if_neg (by omega)
  refine to_of_done (run := fnEnableRun r) rfl h hrun (quiet_of_same hq (by rw [endCause_only]) (by rw [endCause_only]) (by rw [endCause_only]))
    fun t ha hr => ?_
  have hfn := fnOf_of_sansFlags hr.2.1 (fld r 0 1)
  rw [fnOf_endCause_self (by omega) hpresent hcauses hmay] at hfn
  have henabled := congrArg Fn.enabled hfn
  have hnone := congrArg Fn.causes hfn
  refine ⟨ha, henabled, hnone, ?_, rfl, fun k hk => ?_⟩
  · have hform := hr.1
    rw [endCause_only] at hform
    exact hform
  · exact (hr.2.2 k hk).trans (by rw [endCause_only])

/-- The requests of a function that go leave its queues and all work. -/
theorem quiet_dropRequests (f : Nat) : quiet (dropRequests f s) = quiet s := rfl

end

section
variable {f : Nat} {s : State}

/-- With nothing of a function in the lanes, a stop of its queues takes no work away. -/
theorem keptOf_of_idle {qs : List Nat} (h : ∀ w ∈ s.work, w.qix ∉ qs) : keptOf qs s = s.work := by
  refine List.filter_eq_self.mpr fun w hw => ?_
  have hnot : qs.contains w.qix = false := by simpa using h w hw
  rw [hnot]
  rfl

theorem mem_queuesOf {cause : FnCause} {q : Nat} :
    q ∈ queuesOf cause f s ↔ q ∈ s.queues.map (·.1) ∧ reaches cause s f q = true := List.mem_filter

theorem reaches_fnDisable (q : Nat) : reaches .fnDisable s f q = true ↔ (queueOf s q).fn = f := by
  simp [reaches]

theorem tget_none_of_not_mem {α : Type} {t : Tab α} {k : Nat} (h : k ∉ t.map (·.1)) : tget t k = none := by
  induction t with
  | nil => rfl
  | cons e t ih =>
    simp only [List.map_cons, List.mem_cons, not_or] at h
    exact (if_neg h.1).trans (ih h.2)

/-- An index that the table does not list is FREE and of function 0. -/
theorem queueOf_unlisted {q : Nat} (h : q ∉ s.queues.map (·.1)) : queueOf s q = {} := by
  rw [queueOf, tgetD, tget_none_of_not_mem h]
  rfl

/-- A VF without work is disabled at once: its queues are FREE, every other one stays. -/
theorem disableFn_idle (hf0 : f ≠ 0) (hpresent : (fnOf s f).present = true) (hcauses : (fnOf s f).causes = [])
    (hidle : ∀ w ∈ s.work, (queueOf s w.qix).fn ≠ f) :
    (∀ q, (queueOf s q).fn = f → queueOf (disableFn .fnDisable f s) q = {})
      ∧ (∀ q, (queueOf s q).fn ≠ f → queueOf (disableFn .fnDisable f s) q = queueOf s q)
      ∧ (disableFn .fnDisable f s).work = s.work := by
  have hnew := disableFn_of_new (cause := .fnDisable) hpresent (by rw [hcauses]; rfl)
  generalize hqs : queuesOf .fnDisable f (barred .fnDisable f s) = qs at hnew
  have hmem : ∀ q, q ∈ qs ↔ q ∈ s.queues.map (·.1) ∧ (queueOf s q).fn = f := fun q => by
    rw [← hqs, mem_queuesOf, reaches_fnDisable]
    rfl
  have hkept : keptOf qs (barred .fnDisable f s) = s.work :=
    keptOf_of_idle (s := barred .fnDisable f s) fun w hw hin => hidle w hw ((hmem _).mp hin).2
  have hqueue : ∀ q, queueOf (disableFn .fnDisable f s) q = queueOf (stopQueues qs (barred .fnDisable f s)) q := fun q => by
    rw [hnew, queueOf, event_queues, ← queueOf]
  refine ⟨fun q hq => ?_, fun q hq => ?_, ?_⟩
  · rw [hqueue]
    have hlisted : q ∈ s.queues.map (·.1) := by
      by_contra hnot
      rw [queueOf_unlisted hnot] at hq
      exact hf0 hq.symm
    refine queueOf_stopQueues_mem _ ((hmem q).mpr ⟨hlisted, hq⟩) ?_
    rw [hkept, List.any_eq_false]
    intro w hw hwq
    exact hidle w hw (by rw [eq_of_beq hwq]; exact hq)
  · rw [hqueue, queueOf_stopQueues_ne _ fun hin => hq ((hmem q).mp hin).2]
    rfl
  · rw [hnew, event_work, stopQueues_work, hkept]

/-- The queues after a VF without work was disabled: none drains. -/
theorem draining_disableFn_idle (hpresent : (fnOf s f).present = true) (hcauses : (fnOf s f).causes = [])
    (hidle : ∀ w ∈ s.work, (queueOf s w.qix).fn ≠ f) (hdrain : s.queues.all (fun e => !e.2.byFn) = true) :
    draining (disableFn .fnDisable f s) f = false := by
  have hnew := disableFn_of_new (cause := .fnDisable) hpresent (by rw [hcauses]; rfl)
  generalize hqs : queuesOf .fnDisable f (barred .fnDisable f s) = qs at hnew
  have hnot : ∀ w ∈ s.work, w.qix ∉ qs := fun w hw hin => by
    rw [← hqs, mem_queuesOf, reaches_fnDisable] at hin
    exact hidle w hw hin.2
  have hkept : keptOf qs (barred .fnDisable f s) = s.work := keptOf_of_idle (s := barred .fnDisable f s) hnot
  have hall : (disableFn .fnDisable f s).queues.all (fun e => !e.2.byFn) = true := by
    rw [hnew, event_queues]
    show (qs.foldl _ _ : State).queues.all (fun e => !e.2.byFn) = true
    refine List.foldlRecOn (motive := fun t : State => t.queues.all (fun e => !e.2.byFn) = true) qs _ hdrain fun t ht k hk => ?_
    have hnone : (keptOf qs (barred .fnDisable f s)).any (·.qix == k) = false := by
      rw [hkept, List.any_eq_false]
      intro w hw hwk
      exact hnot w hw (by rw [eq_of_beq hwk]; exact hk)
    rw [if_neg (by rw [← keptOf, hnone]; decide), freeQueue_queues]
    simp only [List.all_eq_true, tdel] at ht ⊢
    exact fun e he => ht e (List.mem_filter.mp he).1
  simp only [draining, List.any_eq_false, List.all_eq_true] at hall ⊢
  intro e he hboth
  have hbyFn := hall e he
  simp_all

end

theorem fnDisable_acts {r : Req} {s : State} (hq : quiet s = true) (hfns : s.fns.length = 16) (h : accepts 0x0206 r (some 4) s = true)
    (hlow : 1 ≤ fld r 0 1) (hhigh : fld r 0 1 ≤ 15) (hrest : fld r 1 3 = 0) (hpresent : (fnOf s (fld r 0 1)).present = true)
    (hcauses : (fnOf s (fld r 0 1)).causes = []) (hidle : ∀ w ∈ s.work, (queueOf s w.qix).fn ≠ fld r 0 1)
    (hdrain : s.queues.all (fun e => !e.2.byFn) = true) :
    To (.fnDisable r) s fun t =>
      Answered 0x0206 r stOk 0 [] t ∧ (fnOf t (fld r 0 1)).enabled = false ∧ (fnOf t (fld r 0 1)).causes = [.fnDisable]
        ∧ (∀ q, (queueOf s q).fn = fld r 0 1 → (queueOf t q).st = .free)
        ∧ (∀ q, (queueOf s q).fn ≠ fld r 0 1 → queueOf t q = queueOf s q) ∧ t.nv = s.nv ∧ t.work = s.work := by
  generalize hf : fld r 0 1 = f at *
  obtain ⟨hfree, hother, hwork⟩ := disableFn_idle (s := dropRequests f s) (f := f) (by omega) hpresent hcauses hidle
  have hnone := draining_disableFn_idle (s := dropRequests f s) (f := f) hpresent hcauses hidle hdrain
  have hfn := fnOf_disableFn_self (s := dropRequests f s) (f := f) (cause := .fnDisable) hpresent
    (by show (fnOf s f).causes.contains .fnDisable = false; rw [hcauses]; rfl) (by show f < s.fns.length; omega)
  have hrun : fnDisableRun r s = .done (disableFn .fnDisable f (dropRequests f s)) stOk 0 [] := by
    unfold fnDisableRun
    rw [fnFieldBad_none (by omega) hrest, hf]
    simp only []
    rw [if_neg (by omega), if_pos hpresent, if_neg (by rw [hnone]; decide)]
  have hnv : (disableFn .fnDisable f (dropRequests f s)).nv = s.nv := by rw [disableFn_only]; rfl
  have hjrn : (disableFn .fnDisable f (dropRequests f s)).jrn = s.jrn := by rw [disableFn_only]; rfl
  generalize disableFn .fnDisable f (dropRequests f s) = u at *
  refine to_of_done (run := fnDisableRun r) rfl h hrun (quiet_of_same hq hwork hjrn hnv) fun t ha hr => ?_
  have hflags := fnOf_of_sansFlags hr.2.1 f
  have hq' : ∀ q, queueOf t q = queueOf u q := fun q => by rw [queueOf, queues_of_responded hr, ← queueOf]
  refine ⟨ha, ?_, ?_, fun q hfq => ?_, fun q hfq => ?_, (nv_of_responded hr).trans hnv, (work_of_responded hr).trans hwork⟩
  · have he : (fnOf t f).enabled = (fnOf u f).enabled := by have he := congrArg Fn.enabled hflags; exact he
    exact he.trans (enabled_of_plain hfn)
  · have hc : (fnOf t f).causes = (fnOf u f).causes := by have hc := congrArg Fn.causes hflags; exact hc
    refine hc.trans ((causes_of_plain hfn).trans ?_)
    show .fnDisable :: (fnOf s f).causes = _
    rw [hcauses]
  · rw [hq', hfree q hfq]
  · rw [hq', hother q hfq]
    rfl

/-! ## The stop of one queue (R133, R139) -/

section
variable {q why : Nat} {s : State}

/-- The completion that tells of a stop, put into the queue's path. -/
def stopPut (q : Nat) (s : State) : Deliver :=
  Deliver.put s.gates q 0 0 stQueueDisabled 1 [] ⟨s.queues, s.post, s.link.usbOut, s.spi.compl, []⟩

/-- The state with that completion handed over, before it is told. -/
def stopWritten (q : Nat) (s : State) : State :=
  modQueue q (fun x => { x with stopDue := none }) ((stopPut q s).faults.foldl (fun t f => gateFault f t) { s.withPost (stopPut q s).post with
    queues := (stopPut q s).queues, link := { s.link with usbOut := (stopPut q s).usb }, spi := { s.spi with compl := (stopPut q s).spi } })

theorem writeStop_eq (q why : Nat) (s : State) :
    writeStop q why s = event 0x0205 (q + 2 ^ 18 * (queueOf s q).fn + 2 ^ 22 * why) (devEvent (queueOf s q).fn 4 (stopWritten q s)) := rfl

theorem foldl_gateFault_queues (fs : List GateFault) (s : State) : (fs.foldl (fun t f => gateFault f t) s).queues = s.queues :=
  foldl_keeps (P := fun t : State => t.queues = s.queues) _ _ _ rfl fun t f h => (gateFault_queues f t).trans h

/-- A stop that is written changes the queue's ring and its mark, and no other queue. -/
theorem queueOf_writeStop (q why : Nat) (s : State) :
    (queueOf (writeStop q why s) q).stopDue = none ∧ (queueOf (writeStop q why s) q).st = (queueOf s q).st
      ∧ ∀ k, k ≠ q → queueOf (writeStop q why s) k = queueOf s k := by
  have hqueues : (writeStop q why s).queues = (stopWritten q s).queues := by
    rw [writeStop_eq, event_queues, devEvent_queues]
  have hof : ∀ k, queueOf (writeStop q why s) k = queueOf (stopWritten q s) k := fun k => by rw [queueOf, hqueues, ← queueOf]
  have hself : queueOf (stopWritten q s) q = { tgetD (stopPut q s).queues q {} with stopDue := none } := by
    rw [queueOf, stopWritten, modQueue, tgetD_tset_self, queueOf, foldl_gateFault_queues]
  have hput := fun k => put_unmoved s.gates q 0 0 stQueueDisabled 1 [] ⟨s.queues, s.post, s.link.usbOut, s.spi.compl, []⟩ k
  refine ⟨by rw [hof, hself], ?_, fun k hk => ?_⟩
  · rw [hof, hself]
    have hst := congrArg Queue.st (hput q)
    exact hst
  · rw [hof, queueOf, stopWritten, modQueue, tgetD_tset_ne _ _ _ hk, foldl_gateFault_queues]
    show tgetD (stopPut q s).queues k {} = _
    unfold stopPut Deliver.put
    simp only []
    split
    · rw [tgetD_tset_ne _ _ _ hk, ← queueOf]
    · rfl
    · rfl

theorem foldl_gateFault_only (fs : List GateFault) (s : State) :
    fs.foldl (fun t f => gateFault f t) s = { s with
      gates := (fs.foldl (fun t f => gateFault f t) s).gates, ev := (fs.foldl (fun t f => gateFault f t) s).ev
      pmon := (fs.foldl (fun t f => gateFault f t) s).pmon } :=
  foldl_keeps (P := fun t : State => t = { s with gates := t.gates, ev := t.ev, pmon := t.pmon }) _ _ _ rfl fun t f h => by
    rw [gateFault_only, h]

theorem writeStop_only (q why : Nat) (s : State) :
    writeStop q why s = { s with
      queues := (writeStop q why s).queues, gates := (writeStop q why s).gates, ev := (writeStop q why s).ev
      pmon := (writeStop q why s).pmon, vecs := (writeStop q why s).vecs, out := (writeStop q why s).out
      fns := (writeStop q why s).fns, link := (writeStop q why s).link, spi := (writeStop q why s).spi } := by
  have hput := foldl_gateFault_only (stopPut q s).faults { s.withPost (stopPut q s).post with
    queues := (stopPut q s).queues, link := { s.link with usbOut := (stopPut q s).usb }, spi := { s.spi with compl := (stopPut q s).spi } }
  generalize hv : (stopPut q s).faults.foldl _ _ = v at hput
  have hwritten : stopWritten q s = modQueue q (fun x => { x with stopDue := none }) v := by rw [← hv]; rfl
  rw [writeStop_eq, event_only, devEvent_only, hwritten, hput]
  rfl

theorem slotFree_of_idle (hwork : s.work = []) (hroom : (queueOf s q).unreleased < (queueOf s q).entries) : slotFree s q = true := by
  simp [slotFree, outstanding, hwork, hroom]

theorem quiet_writeStop (hq : quiet s = true) : quiet (writeStop q why s) = true :=
  quiet_of_same hq (by rw [writeStop_only]) (by rw [writeStop_only]) (by rw [writeStop_only])

/-- The queue-stop completion in the ring of a queue whose slot the gate lets through, and the record of the stop. -/
theorem writeStop_in_ring (hpath : (queueOf s q).path = .pcie)
    (hgate : judgeHost s.gates q (queueOf s q).fn true ((queueOf s q).cqBase.toNat + 16 * (queueOf s q).cqTail) 16 = none) :
    (∃ more, (writeStop q why s).out = s.out ++ .mem (queueOf s q).fn ((queueOf s q).cqBase.toNat + 16 * (queueOf s q).cqTail)
        (completionEntry (queueOf s q) 0 0 stQueueDisabled 1) :: more)
      ∧ (writeStop q why s).ev = (event 0x0205 (q + 2 ^ 18 * (queueOf s q).fn + 2 ^ 22 * why) s).ev := by
  obtain ⟨hfaults, ⟨more, hout⟩, -⟩ := put_in_ring (gates := s.gates) (qix := q) (htag := 0) (seq := 0) (status := stQueueDisabled)
    (detail := 1) (output := []) (d := ⟨s.queues, s.post, s.link.usbOut, s.spi.compl, []⟩) (q := queueOf s q) rfl hpath hgate
  have hwritten : stopWritten q s = modQueue q (fun x => { x with stopDue := none }) { s.withPost (stopPut q s).post with
      queues := (stopPut q s).queues, link := { s.link with usbOut := (stopPut q s).usb }
      spi := { s.spi with compl := (stopPut q s).spi } } := by
    rw [stopWritten, stopPut, hfaults]
    rfl
  change (stopPut q s).post.out = s.out ++ _ at hout
  rw [writeStop_eq, hwritten]
  generalize stopPut q s = d at hout
  constructor
  · obtain ⟨told, htold⟩ := devEvent_sent (queueOf s q).fn 4 (modQueue q (fun x => { x with stopDue := none }) { s.withPost d.post with
      queues := d.queues, link := { s.link with usbOut := d.usb }, spi := { s.spi with compl := d.spi } })
    refine ⟨more ++ told, ?_⟩
    rw [event_out, htold]
    show d.post.out ++ told = _
    rw [hout]
    simp
  · refine eventX_ev_congr ?_ ?_ ?_ ?_ ?_ _ _ _
    all_goals rw [devEvent_only]; rfl

theorem queueStop_writes (hq : quiet s = true) (hdue : (queueOf s q).stopDue = some why) (hpath : (queueOf s q).path = .pcie)
    (hwork : s.work = []) (hroom : (queueOf s q).unreleased < (queueOf s q).entries)
    (hgate : judgeHost s.gates q (queueOf s q).fn true ((queueOf s q).cqBase.toNat + 16 * (queueOf s q).cqTail) 16 = none) :
    To (.queueStop q) s fun t =>
      (queueOf t q).stopDue = none ∧ (queueOf t q).st = (queueOf s q).st
        ∧ (∃ more, t.out = s.out ++ .mem (queueOf s q).fn ((queueOf s q).cqBase.toNat + 16 * (queueOf s q).cqTail)
            (completionEntry (queueOf s q) 0 0 stQueueDisabled 1) :: more)
        ∧ t.ev = (event 0x0205 (q + 2 ^ 18 * (queueOf s q).fn + 2 ^ 22 * why) s).ev ∧ t.nv = s.nv
        ∧ ∀ q', q' ≠ q → queueOf t q' = queueOf s q' := by
  have hstop : stopIfFree q s = writeStop q why s := by
    unfold stopIfFree
    rw [hdue]
    exact if_pos ⟨.inl (by simp [outstanding, hwork]), slotFree_of_idle hwork hroom⟩
  obtain ⟨hdone, hst, hother⟩ := queueOf_writeStop q why s
  obtain ⟨⟨more, hout⟩, hev⟩ := writeStop_in_ring (why := why) hpath hgate
  have hquiet := quiet_writeStop (q := q) (why := why) hq
  have hnv : (writeStop q why s).nv = s.nv := by rw [writeStop_only]
  have hexec : exec (.queueStop q) s = .next (settle s (writeStop q why s)) := congrArg (fun u => Host.Outcome.next (settle s u)) hstop
  generalize writeStop q why s = u at *
  have hn := settle_quiet s hquiet
  have hof : ∀ k, queueOf (settle s u) k = queueOf u k := fun k => by rw [queueOf, queues_of_notified hn, ← queueOf]
  refine to_of_eq hexec ⟨?_, ?_, ?_, (ev_of_notified hn).trans hev, (nv_of_notified hn).trans hnv, fun k hk => ?_⟩
  · rw [hof, hdone]
  · rw [hof, hst]
  · obtain ⟨told, htold⟩ := noteChanges_sent s u
    refine ⟨more ++ told, ?_⟩
    show (noteChanges s (fillEvents (deliver u))).out = _
    rw [deliver_quiet hquiet, fillEvents_quiet hquiet, htold, hout]
    simp
  · rw [hof, hother k hk]

/-- The end of a queue's nonces stops it, and the entries that are not scheduled are decided (R139). -/
theorem nonceExhausted_stops (hactive : (queueOf s q).st = .active) (hnonce : tgetD s.nonces q 0 = 2 ^ 54 - 1) :
    To (.nonceExhausted q) s fun t =>
      (queueOf t q).st = .disabling ∧ (queueOf t q).stopDue = (if slotFree s q then none else some 1)
        ∧ tgetD t.nonces q 0 = 2 ^ 54 - 1
        ∧ (∀ w ∈ t.work, w.qix = q → w.seq = 0 → w.stage = .done ∨ w.stage = .fetched) ∧ t.nv = s.nv := by
  generalize hs1 : modQueue q (fun x => { x with st := .disabling, stopDue := some 1 }) s = s1
  have hstop : stopQueue q 1 s = s1 := (if_pos hactive).trans hs1
  have hqueue : queueOf s1 q = { queueOf s q with st := .disabling, stopDue := some 1 } := by
    rw [← hs1, queueOf, modQueue, tgetD_tset_self]
  have hslot : slotFree s1 q = slotFree s q := by
    unfold slotFree outstanding
    rw [hqueue, ← hs1]
    rfl
  have hkept : s1.nv = s.nv ∧ s1.nonces = s.nonces := by rw [← hs1]; exact ⟨rfl, rfl⟩
  have hfree : ∃ u, stopIfFree q s1 = u ∧ (queueOf u q).st = .disabling ∧ (queueOf u q).stopDue = (if slotFree s q then none else some 1)
      ∧ u.nv = s.nv ∧ u.nonces = s.nonces := by
    refine ⟨_, rfl, ?_⟩
    have hdue : (queueOf s1 q).stopDue = some 1 := by rw [hqueue]
    unfold stopIfFree
    rw [hdue]
    simp only [or_true, true_and, hslot]
    obtain ⟨hdone, hst, -⟩ := queueOf_writeStop q 1 s1
    split
    · exact ⟨by rw [hst, hqueue], hdone, by rw [writeStop_only]; exact hkept.1, by rw [writeStop_only]; exact hkept.2⟩
    · exact ⟨by rw [hqueue], hdue, hkept.1, hkept.2⟩
  obtain ⟨u, hu, hst, hdue, hnv, hnonces⟩ := hfree
  have hexec : exec (.nonceExhausted q) s = .next (settle s (cancelUnscheduled q u)) := by
    have hend : nonceOf s q = nonceEnd := hnonce
    have hif : ((queueOf s q).st == .active && nonceOf s q == nonceEnd) = true := by rw [hactive, hend]; decide
    rw [← hu, ← hstop]
    exact if_pos hif
  have hunmoved := settle_unmoved s (cancelUnscheduled q u) q
  have hst' := congrArg Queue.st hunmoved
  have hdue' := congrArg Queue.stopDue hunmoved
  refine to_of_eq hexec ⟨hst'.trans hst, hdue'.trans hdue, ?_, fun w hw hq hseq => ?_, ?_⟩
  · rw [settle_nonces]
    exact (congrArg (fun n => tgetD n q 0) hnonces).trans hnonce
  · have hmem := mem_work_of_settle hw
    obtain ⟨x, -, rfl⟩ := List.mem_map.mp hmem
    by_cases hcancel : (x.qix == q && x.seq == 0 && x.stage != .done && x.stage != .fetched) = true
    · rw [if_pos hcancel]
      exact .inl rfl
    · rw [if_neg hcancel] at hq hseq ⊢
      simp only [hq, hseq, beq_self_eq_true, Bool.true_and, Bool.and_eq_true, bne_iff_ne, not_and, not_not] at hcancel
      by_cases hd : x.stage = .done
      · exact .inl hd
      · exact .inr (hcancel hd)
  · rw [settle_nv]
    exact hnv

/-! ## The end of a queue's drain (R134, R147) -/

theorem queueDrained_disables (hq : quiet s = true) (hst : (queueOf s q).st = .disabling) (hdue : (queueOf s q).stopDue = none)
    (hidle : s.work.all (fun w => w.qix != q) = true) (hbyFn : (queueOf s q).byFn = false) :
    To (.queueDrained q) s fun t =>
      (queueOf t q).st = .disabled ∧ (∀ w ∈ t.waiters, ¬(w.op = 0x0203 ∧ w.obj = q))
        ∧ (∀ q', q' ≠ q → queueOf t q' = queueOf s q') ∧ t.nv = s.nv ∧ t.work = s.work := by
  generalize hu : answerAll (fun w => w.op == 0x0203 && w.obj == q) (fun _ => (stOk, 0, []))
    (modQueue q (fun x => { x with st := .disabled }) s) = u
  have hout : outstanding s q = 0 := by
    rw [outstanding, List.length_eq_zero_iff, List.filter_eq_nil_iff]
    intro w hw heq
    have hne := List.all_eq_true.mp hidle w hw
    simp_all
  have hexec : exec (.queueDrained q) s = .next (settle s u) := by
    rw [← hu]
    simp only [exec, execQueueDrained, hst, hdue, hout, hbyFn]
    rfl
  have hquiet : quiet u = true := hu ▸ quiet_answerAll (s := modQueue q (fun x => { x with st := .disabled }) s) hq _ _
  have hn := settle_quiet s hquiet
  have hqueues : u.queues = (modQueue q (fun x => { x with st := .disabled }) s).queues := by rw [← hu, answerAll_only]
  have hof : ∀ k, queueOf (settle s u) k = queueOf (modQueue q (fun x => { x with st := .disabled }) s) k := fun k => by
    rw [queueOf, queues_of_notified hn, hqueues, ← queueOf]
  refine to_of_eq hexec ⟨?_, fun w hw => ?_, fun k hk => ?_, ?_, ?_⟩
  · rw [hof, queueOf, modQueue, tgetD_tset_self]
  · have hwaiters : (settle s u).waiters = u.waiters := by rw [hn.1]
    rw [hwaiters, ← hu, answerAll_waiters] at hw
    have hp := (List.mem_filter.mp hw).2
    rintro ⟨hop, hobj⟩
    simp [hop, hobj] at hp
  · rw [hof]
    exact tgetD_tset_ne _ _ _ hk
  · rw [nv_of_notified hn, ← hu, answerAll_only]
    rfl
  · rw [work_of_notified hn, ← hu, answerAll_only]
    rfl

theorem queueDrained_frees (hq : quiet s = true) (hst : (queueOf s q).st = .disabling) (hdue : (queueOf s q).stopDue = none)
    (hidle : s.work.all (fun w => w.qix != q) = true) (hbyFn : (queueOf s q).byFn = true) :
    To (.queueDrained q) s fun t => (queueOf t q).st = .free ∧ ∀ q', q' ≠ q → queueOf t q' = queueOf s q' := by
  generalize hu : answerFnDisable (queueOf s q).fn (resetDone (queueOf s q).fn (freeQueue q s)) = u
  have hout : outstanding s q = 0 := by
    rw [outstanding, List.length_eq_zero_iff, List.filter_eq_nil_iff]
    intro w hw heq
    have hne := List.all_eq_true.mp hidle w hw
    simp_all
  have hexec : exec (.queueDrained q) s = .next (settle s u) := by
    rw [← hu]
    simp only [exec, execQueueDrained, hst, hdue, hout, hbyFn]
    rfl
  have hreset : ∀ f (t : State), (resetDone f t).queues = t.queues ∧ quiet (resetDone f t) = quiet t := by
    intro f t
    unfold resetDone
    split
    · exact ⟨by rw [devEvent_only, endCause_only], quiet_congr (by rw [devEvent_only, endCause_only]) (by rw [devEvent_only, endCause_only])
        (by rw [jfill, jfill, ringUsed, ringUsed, devEvent_only, endCause_only])⟩
    · exact ⟨rfl, rfl⟩
  have hanswer : ∀ f (t : State), quiet t = true → (answerFnDisable f t).queues = t.queues ∧ quiet (answerFnDisable f t) = true := by
    intro f t ht
    unfold answerFnDisable
    split
    · exact ⟨rfl, ht⟩
    · exact ⟨by rw [answerAll_only], quiet_answerAll ht _ _⟩
  have hfreed : quiet (freeQueue q s) = true := quiet_of_same hq (by rw [freeQueue_only]) (by rw [freeQueue_only]) (by rw [freeQueue_only])
  obtain ⟨hqueues, hquiet⟩ := hanswer (queueOf s q).fn _ ((hreset (queueOf s q).fn (freeQueue q s)).2.trans hfreed)
  rw [hu, (hreset _ _).1] at hqueues
  rw [hu] at hquiet
  have hn := settle_quiet s hquiet
  have hof : ∀ k, queueOf (settle s u) k = queueOf (freeQueue q s) k := fun k => by
    rw [queueOf, queues_of_notified hn, hqueues, ← queueOf]
  refine to_of_eq hexec ⟨?_, fun k hk => ?_⟩
  · rw [hof, queueOf_freeQueue_self]
  · rw [hof, queueOf_freeQueue_ne _ hk]

end

/-- Settles O21. -/
theorem queuesAndFunctionsStop : Obligations.QueuesAndFunctionsStop := by
  refine ⟨fun r s hq hfns => ⟨fnConfig_does hq, fun h hlow hhigh hrest hpresent hcauses hidle howner hdrain _ => ?_,
    fnEnable_acts hq hfns⟩, fun q s hq => ⟨fun why => queueStop_writes hq, nonceExhausted_stops, queueDrained_disables hq, queueDrained_frees hq⟩⟩
  refine fnDisable_acts hq hfns h hlow hhigh hrest hpresent hcauses (fun w hw heq => ?_) hdrain
  have hfn := List.all_eq_true.mp hidle w hw
  have hown := List.all_eq_true.mp howner w hw
  simp_all

end Sys2Proof.FunctionStop
end

section
/-! # The meter store that a cut flush gives back (O5)

What a flush finds in the meter store is kept (`preFlush`) until the next start, which puts it back where the flush was cut
(R278). `memoriesWf` speaks of the meter store, but not of the copy that is kept, so a step does not keep it. -/
namespace Sys2Proof.CutFlush
open Sys2Proof Sys2Proof.Machine

/-- A start in which every unit fails its test, after a flush that was cut before its first page. -/
def startAfterCut : StartFacts :=
  { cap := ⟨0, 0, 0, false⟩, lanes := 0, dgus := 0, pkes := 0, drbg := false, bank0 := ⟨[], 0⟩, bank1 := ⟨[], 0⟩, bank2 := ⟨[], 0⟩
    failed := [], dram := false, attacks := [], temp := 80, damage := [.flushCut 0 none .old] }

/-- The start is due, and the meter store kept from before the flush lists a zero byte. -/
def zeroByteKept : State :=
  { State.reset with
    pwr := { State.reset.pwr with phase := .startDue }
    nv := { State.reset.nv with lastPseq := 1, preFlush := some { meter := [(0, 0)] } }
    pending := [.start startAfterCut] }

/-- The mirror of the meter store after an outcome. -/
def mirrorOf : Host.Outcome State Fault Refusal → Option Memory
  | .next t => some t.meter.mirror
  | _ => none

theorem start_loads_zeroByte : mirrorOf (step zeroByteKept) = some [(0, 0)] := by decide +kernel

/-- Refutes O5: in `zeroByteKept` the six memories are in canonical form, and the start lists a zero byte in the mirror. -/
theorem not_byteMemoriesStayCanonical : ¬ Obligations.ByteMemoriesStayCanonical := by
  intro h
  have hmirror := start_loads_zeroByte
  cases hstep : step zeroByteKept with
  | next t =>
    have hwf := h zeroByteKept t (by decide) hstep
    rw [hstep] at hmirror
    have hlisted : t.meter.mirror = [(0, 0)] := Option.some.inj hmirror
    simp only [State.memoriesWf, Bool.and_eq_true, hlisted] at hwf
    obtain ⟨⟨⟨⟨⟨-, hzero⟩, -⟩, -⟩, -⟩, -⟩ := hwf
    exact absurd hzero (by decide)
  | fault _ => simp [hstep, mirrorOf] at hmirror
  | refused _ => simp [hstep, mirrorOf] at hmirror

end Sys2Proof.CutFlush
end

section
/-! # Failed units, resets that follow, and readings latched while unpowered (O38) -/
namespace Sys2Proof.UnitsAndResets
open Sys2Proof Sys2Proof.Machine Sys2Proof.Told

section
variable {s : State}

theorem unitFailed_stopsFetching {unit index : Nat} (hon : sensorsOn s = true) (hlow : 1 ≤ unit) (hhigh : unit ≤ 9) :
    To (.unitFailed unit index) s fun t =>
      t.pwr.fetchOff = true ∧ (unit, index) ∈ t.pwr.unitsFailed ∧ (∀ u, u ∈ s.pwr.unitsFailed → u ∈ t.pwr.unitsFailed)
        ∧ t.nv = s.nv ∧ t.keys = s.keys := by
  have hexec : exec (.unitFailed unit index) s = .next (settle s (unitFails unit index s)) := if_pos (by simp [hon, hlow, hhigh])
  have hpwr : (unitFails unit index s).pwr = { s.pwr with
      unitsFailed := if s.pwr.unitsFailed.contains (unit, index) then s.pwr.unitsFailed else s.pwr.unitsFailed ++ [(unit, index)]
      fetchOff := true } := by rw [unitFails, aer_only, event_only]
  refine to_of_eq hexec ⟨?_, ?_, fun u hu => ?_, ?_, ?_⟩
  · rw [settle_pwr, hpwr]
  · rw [settle_pwr, hpwr]
    show (unit, index) ∈ if _ then _ else _
    split
    case isTrue hc => exact List.contains_iff_mem.mp hc
    case isFalse => simp
  · rw [settle_pwr, hpwr]
    show u ∈ if _ then _ else _
    split
    · exact hu
    · exact List.mem_append_left _ hu
  · rw [settle_nv, unitFails_only]
  · rw [settle_keys, unitFails_only]

/-- The reset that a T4 response or a life-cycle transition ends in (R352, R382). -/
theorem beginReset_acts (s : State) :
    (beginReset false s).pwr.phase = .flushReset ∧ (beginReset false s).pwr.reason = .nreset ∧ (beginReset false s).keys = {}
      ∧ (beginReset false s).nv = (flush s).nv ∧ (beginReset false s).otp = s.otp := by
  have hotp : (flush s).otp = s.otp := by rw [flush_only]
  unfold beginReset
  generalize flush s = u at *
  exact ⟨rfl, rfl, rfl, rfl, hotp⟩

theorem pkeTestDone_returns {core : Nat} {pass : Bool} {p : Pke} (hp : s.pkes[core]? = some p) (htesting : p.testing = true) :
    To (.pkeTestDone core pass) s fun t =>
      (t.pkes[core]?).map (fun x => (x.testing, x.inService)) = some (false, pass && !p.out)
        ∧ (∀ k, k ≠ core → t.pkes[k]? = s.pkes[k]?) ∧ t.nv = s.nv := by
  generalize hs1 : { s with pkes := modAt s.pkes core fun p => { p with testing := false, inService := pass && !p.out } } = s1
  generalize hs2 : (if pass then s1 else event 0x0109 (unitArg 0x12 core) s1) = s2
  generalize hu : answerAll (fun w => w.op == 0x0903 && w.obj == 4 + 256 * core) (fun _ => (stOk, 0, testBody 4 core (!pass) s2)) (drew s2) = u
  have hexec : exec (.pkeTestDone core pass) s = .next (settle s u) := by
    subst hs1 hs2 hu
    simp only [exec, execPkeTestDone, hp, htesting, if_true]
  have hkept : s2.pkes = s1.pkes ∧ s2.nv = s1.nv := by
    rw [← hs2]
    split
    · exact ⟨rfl, rfl⟩
    · exact ⟨event_pkes .., event_nv ..⟩
  have hpkes : (settle s u).pkes = modAt s.pkes core fun p => { p with testing := false, inService := pass && !p.out } := by
    rw [settle_pkes, ← hu, answerAll_pkes]
    exact hkept.1.trans (hs1 ▸ rfl)
  refine to_of_eq hexec ⟨?_, fun k hk => ?_, ?_⟩
  · rw [hpkes]
    simp [modAt, hp]
  · rw [hpkes]
    simp [modAt, Ne.symm hk]
  · rw [settle_nv, ← hu, answerAll_nv]
    exact hkept.2.trans (hs1 ▸ rfl)

/-! ## PD00's latch (R63, R384) -/

theorem unpoweredWatch_of_phase (h : (s.pwr.phase = .off ∧ s.pwr.vbatPresent = true) ∨ s.pwr.phase = .held ∨ s.pwr.phase = .startDue
    ∨ s.pwr.phase = .flushPower ∨ s.pwr.phase = .flushReset) : unpoweredWatch s = true := by
  unfold unpoweredWatch
  rcases h with ⟨hp, hv⟩ | hp | hp | hp | hp <;> rw [hp]
  exact hv

theorem latchReading_new {code : Nat} (h : s.tamper.latch.any (fun l => l.1 == code) = false) :
    latchReading code s = { s with tamper := { s.tamper with
      latch := s.tamper.latch ++ [(code, 0, s.pwrCyc)]
      offOpsec := if s.pwr.phase = .off then s.tamper.offOpsec else s.opsec } } := if_neg (by rw [h]; decide)

theorem latchReading_again {code : Nat} (h : s.tamper.latch.any (fun l => l.1 == code) = true) : latchReading code s = s := if_pos h

theorem unpoweredTamperLatch_latches {x : Sensor} {code : Nat} (hx : (x, code) ∈ [(Sensor.cardigan, 7), (.loopA, 8), (.loopB, 9)])
    (hwatch : unpoweredWatch s = true) : exec (.unpoweredTamperLatch x) s = .next (latchReading code s) := by
  simp only [List.mem_cons, Prod.mk.injEq, List.not_mem_nil, or_false] at hx
  obtain ⟨rfl, rfl⟩ | ⟨rfl, rfl⟩ | ⟨rfl, rfl⟩ := hx
  all_goals exact if_pos hwatch

theorem unpoweredTamperLatch_blind (hoff : s.pwr.phase = .off) (hvbat : s.pwr.vbatPresent = false) (x : Sensor) :
    exec (.unpoweredTamperLatch x) s = .next s := by
  have hblind : unpoweredWatch s = false := by rw [unpoweredWatch, hoff]; exact hvbat
  simp only [exec, execUnpoweredTamperLatch]
  split
  all_goals simp [hblind]

/-! ## The loops (R372, R431) -/

theorem loopReading_low {x : Sensor} {ohms : Nat} (h : ohms ≤ 1000) : loopReading x ohms s = s := if_pos h

theorem loopMeasure_low {a b : Nat} (ha : a ≤ 1000) (hb : b ≤ 1000) (hq : quiet s = true) :
    To (.loopResistanceMeasure a b) s fun t => Notified s t := by
  have hexec : exec (.loopResistanceMeasure a b) s = .next (settle s s) := by
    simp only [exec, execLoopResistanceMeasure, loopReading_low ha, loopReading_low hb]
  exact to_of_settle hexec hq fun t h => h

theorem loopMeasure_latched {a b : Nat} (ha : 1000 < a) (hb : b ≤ 1000) (hoff : s.pwr.phase = .off) (hvbat : s.pwr.vbatPresent = true)
    (hq : quiet s = true) (hnew : s.tamper.latch.any (fun l => l.1 == 8) = false) :
    To (.loopResistanceMeasure a b) s fun t =>
      Notified { s with tamper := { s.tamper with latch := s.tamper.latch ++ [(8, 0, s.pwrCyc)] } } t := by
  have hread : loopReading .loopA a s = { s with tamper := { s.tamper with latch := s.tamper.latch ++ [(8, 0, s.pwrCyc)] } } := by
    unfold loopReading
    rw [if_neg (by omega), if_pos (unpoweredWatch_of_phase (.inl ⟨hoff, hvbat⟩))]
    refine (latchReading_new hnew).trans ?_
    rw [if_pos hoff]
  have hexec : exec (.loopResistanceMeasure a b) s = .next (settle s (loopReading .loopA a s)) := by
    simp only [exec, execLoopResistanceMeasure, loopReading_low hb]
  rw [hread] at hexec
  exact to_of_settle hexec (quiet_of_same hq rfl rfl rfl) fun t h => h

theorem loopMeasure_sensed {a b : Nat} (ha : 1000 < a) (hb : b ≤ 1000) (hon : sensorsOn s = true) :
    exec (.loopResistanceMeasure a b) s = exec (.tamperInput ⟨.loopA, .attack, .powerDomain 0, false⟩ false) s := by
  have hwatch : unpoweredWatch s = false := by
    revert hon
    unfold sensorsOn unpoweredWatch
    cases s.pwr.phase <;> simp
  simp only [exec, execLoopResistanceMeasure, loopReading_low hb, execTamperInput, hon, if_true]
  rw [loopReading, if_neg (by omega), if_neg (by rw [hwatch]; decide), if_pos hon]

end

/-- Settles O38. -/
theorem unitsFailAndResetsFollow : Obligations.UnitsFailAndResetsFollow := by
  refine ⟨fun s => ⟨fun unit index => unitFailed_stopsFetching, fun hup hdue => to_of_eq (if_pos (by simp [hup, hdue])) (beginReset_acts s),
    fun hup hdue => to_of_eq (if_pos (by simp [hup, hdue])) (beginReset_acts s), fun core pass p => pkeTestDone_returns⟩,
    fun s => ⟨fun x code hx hphase => ⟨fun hnew => ?_, fun hagain => ?_⟩, unpoweredTamperLatch_blind, fun a b => loopMeasure_low,
      fun a b => loopMeasure_latched, fun a b => loopMeasure_sensed⟩⟩
  · rw [unpoweredTamperLatch_latches hx (unpoweredWatch_of_phase hphase), latchReading_new hnew]
  · rw [unpoweredTamperLatch_latches hx (unpoweredWatch_of_phase hphase), latchReading_again hagain]

end Sys2Proof.UnitsAndResets
end

section
/-! # What the journal's writer leaves of the MRAM (R253, R263 to R267) -/
namespace Sys2Proof.RingWrites
open Sys2Proof Sys2Proof.Machine

/-- Of the MRAM only what the ring takes is written: its counters, pages, entries and the PSEQ. -/
def RingOnly (a b : Nv) : Prop := b = { a with ctrs := b.ctrs, pages := b.pages, ring := b.ring, lastPseq := b.lastPseq }

theorem ringOnly_refl (a : Nv) : RingOnly a a := rfl

theorem ringOnly_trans {a b c : Nv} (h : RingOnly a b) (h' : RingOnly b c) : RingOnly a c := by
  unfold RingOnly at *
  rw [h', h]

theorem journalEntry_rings (type : Nat) (claimed : Bool) (body : Bytes) (s : State) : RingOnly s.nv (journalEntry type claimed body s).nv :=
  journalEntry_nv type claimed body s

theorem sealPages_rings (n : Nat) (s : State) : RingOnly s.nv (sealPages n s).nv := rfl

theorem writePages_rings {a : Nv} {s : State} (h : RingOnly a s.nv) : RingOnly a (writePages s).nv := ringOnly_trans h (ringOnly_refl _)

theorem makeRoom_rings (n : Nat) (s : State) : RingOnly s.nv (makeRoom n s).nv := by
  unfold makeRoom
  split
  · exact ringOnly_refl _
  · exact sealPages_rings ..

theorem closeBatch_rings (s : State) : RingOnly s.nv (closeBatch s).nv := by
  unfold closeBatch
  simp only []
  split
  · exact ringOnly_refl _
  · have h := makeRoom_rings 64 s
    generalize makeRoom 64 s = u at h
    split
    · exact writePages_rings h
    · exact h

theorem foldLeaf_rings (l : Leaf) (s : State) : RingOnly s.nv (foldLeaf l s).nv := by
  unfold foldLeaf
  simp only []
  split
  · exact writePages_rings (closeBatch_rings _)
  · split
    · exact closeBatch_rings _
    · exact ringOnly_refl _

theorem foldAll_rings (fuel : Nat) (s : State) : RingOnly s.nv (foldAll fuel s).nv := by
  induction fuel generalizing s with
  | zero => exact ringOnly_refl _
  | succ n ih =>
    unfold foldAll
    split
    · exact ringOnly_refl _
    · exact ringOnly_trans (foldLeaf_rings _ s) (ih _)

theorem flushJournal_rings (s : State) : RingOnly s.nv (flushJournal s).nv := by
  unfold flushJournal
  exact writePages_rings (ringOnly_trans (foldAll_rings _ (abandonAll s)) (closeBatch_rings _))

end Sys2Proof.RingWrites
end

section
/-! # What a tamper input of class T1, T3 and T4 does (O37) -/
namespace Sys2Proof.TamperResponse
open Sys2Proof Sys2Proof.Machine Sys2Proof.Told Sys2Proof.Functions Sys2Proof.RingWrites Sys2Proof.LinkLoss

/-! ## The T3 response, step by step (R379) -/

/-- What stops first: MP_VALID, fetching and standby. -/
def fetchStopped (s : State) : State :=
  { s with
    pwr := { s.pwr with mpValid := false, fetchOff := true, standby := false, domains := s.pwr.domains.mapIdx (cutStandby s) }
    tamper := { s.tamper with t3 := true } }

/-- The journal flushed and nothing left inside. -/
def emptied (s : State) : State := { flushJournal (mpFalls (fetchStopped s)) with work := [] }

/-- Every function disabled, and the debug rights ended. -/
def allDisabled (s : State) : State := endDebug 4 (disableAll .fnDisable (emptied s))

/-- The credit returned, the regions swept, and the cache empty. -/
def swept (s : State) : State :=
  { s with
    fns := s.fns.map fun x => { x with inUsed := 0, stUsed := 0 }
    lark := { s.lark with drbgOn := s.lark.drbgOn, runWait := [] }
    dram := s.dram.filter fun l => !sweptByT3 l.1
    cache := List.replicate 8 []
    pwr := { s.pwr with wake := false } }

theorem respondT3_eq {s : State} (h : s.tamper.t3 = false) :
    respondT3 s = haltWaiters (swept (zeroiseSecrets (allDisabled s))) := by
  simp only [respondT3, h, Bool.false_eq_true, if_false, swept, allDisabled, emptied, fetchStopped]

section
variable (s : State)

theorem emptied_only : emptied s = { fetchStopped s with
    nv := (flushJournal (mpFalls (fetchStopped s))).nv, work := [], jrn := (emptied s).jrn, pmon := (emptied s).pmon
    meter := (emptied s).meter, dgu1 := (emptied s).dgu1 } := by
  unfold emptied
  rw [flushJournal_only, mpFalls_only]

theorem emptied_group : (emptied s).meter.group = none := by
  unfold emptied
  rw [flushJournal_only]
  show (mpFalls (fetchStopped s)).meter.group = none
  unfold mpFalls
  rw [releaseDgu_only]

theorem emptied_rings : RingOnly s.nv (emptied s).nv := by
  have h := flushJournal_rings (mpFalls (fetchStopped s))
  have hnv : (mpFalls (fetchStopped s)).nv = s.nv := by rw [mpFalls_only]; rfl
  rw [hnv] at h
  exact h

theorem work_of_disableAll {cause : FnCause} (h : s.work = []) : (disableAll cause s).work = [] := by
  unfold disableAll
  refine foldl_keeps (P := fun t : State => t.work = []) _ _ _ h fun t f ht => ?_
  refine List.eq_nil_iff_forall_not_mem.mpr fun w hw => ?_
  have hmem := mem_work_of_disableFn hw
  rw [ht] at hmem
  exact List.not_mem_nil hmem

theorem freeQueue_root (q : Nat) (s : State) : (freeQueue q s).keys.root = s.keys.root := by
  show (dropSess _ s).keys.root = _
  unfold dropSess
  split <;> rfl

theorem disableFn_root (cause : FnCause) (f : Nat) : (disableFn cause f s).keys.root = s.keys.root := by
  unfold disableFn
  simp only []
  split
  · rfl
  · rw [event_keys]
    unfold stopQueues
    refine foldl_keeps (P := fun t : State => t.keys.root = s.keys.root) _ _ _ rfl fun t q h => ?_
    split
    · exact h
    · rw [freeQueue_root]; exact h

theorem disableAll_root (cause : FnCause) : (disableAll cause s).keys.root = s.keys.root := by
  unfold disableAll
  refine foldl_keeps (P := fun t : State => t.keys.root = s.keys.root) _ _ _ rfl fun t f h => ?_
  rw [disableFn_root]
  exact h

theorem endDebug_cert (reason : Nat) : (endDebug reason s).dbg.cert = none := by
  unfold endDebug
  split
  case h_1 h => exact h
  case h_2 => rw [journalEntry_dbg]; rfl

theorem endDebug_rings (reason : Nat) : RingOnly s.nv (endDebug reason s).nv := by
  unfold endDebug
  split
  · exact ringOnly_refl _
  · refine ringOnly_trans (b := (bumpEpoch (setGate gDbg [] { s with dbg := { s.dbg with cert := none, halted := false } })).nv) ?_
      (journalEntry_rings ..)
    exact ringOnly_refl _

/-- Disabling every function leaves each that is there and had no cause disabled. -/
theorem disableAll_disables {f : Nat} (hf : f < 16) (hlen : f < s.fns.length) (hpresent : (fnOf s f).present = true)
    (hcauses : (fnOf s f).causes = []) (cause : FnCause) : (fnOf (disableAll cause s) f).enabled = false := by
  have hkeep : ∀ (l : List Nat) (t : State), f ∉ l → plain (fnOf (l.foldl (fun t f => disableFn cause f t) t) f) = plain (fnOf t f) := by
    intro l
    induction l with
    | nil => exact fun t _ => rfl
    | cons k l ih =>
      intro t hnot
      obtain ⟨hne, hl⟩ := not_or.mp (mt List.mem_cons.mpr hnot)
      exact (ih _ hl).trans (fnOf_disableFn_ne hne)
  have hlength : ∀ (l : List Nat) (t : State), (l.foldl (fun t f => disableFn cause f t) t).fns.length = t.fns.length := by
    intro l t
    refine foldl_keeps (P := fun u : State => u.fns.length = t.fns.length) _ _ _ rfl fun u k h => ?_
    rw [← h]
    unfold disableFn
    simp only []
    split
    · rfl
    · rw [event_fns]
      unfold stopQueues
      show (recharge _).fns.length = _
      rw [show ∀ v : State, (recharge v).fns.length = v.fns.length from fun v => List.length_mapIdx]
      refine foldl_keeps (P := fun v : State => v.fns.length = u.fns.length) _ _ _ (List.length_modify ..) fun v q hv => ?_
      split
      · exact hv
      · rw [freeQueue_only]; exact hv
  have hsplit : List.range 16 = List.range f ++ f :: (List.range (16 - f - 1)).map (· + (f + 1)) := by
    have h16 : 16 = f + (1 + (16 - f - 1)) := by omega
    conv_lhs => rw [h16, List.range_add, List.range_add]
    simp [Nat.add_comm, Nat.add_left_comm, Function.comp_def]
  rw [disableAll, hsplit, List.foldl_append, List.foldl_cons]
  have hbefore := hkeep (List.range f) s (by simp)
  have hlen' := hlength (List.range f) s
  generalize (List.range f).foldl (fun t f => disableFn cause f t) s = u at hbefore hlen' ⊢
  have hself := fnOf_disableFn_self (cause := cause) (f := f) (s := u) ((present_of_plain hbefore).trans hpresent)
    (by rw [causes_of_plain hbefore, hcauses]; rfl) (by omega)
  rw [enabled_of_plain (hkeep _ _ (by simp; omega)), enabled_of_plain hself]

/-! ### What the whole response leaves -/

theorem allDisabled_tamper : (allDisabled s).tamper = { s.tamper with t3 := true } := by
  rw [allDisabled, endDebug_only, disableAll_only, emptied_only]
  rfl

theorem allDisabled_root : (allDisabled s).keys.root = s.keys.root := by
  rw [allDisabled, endDebug_keys, disableAll_root, emptied_only]
  rfl

theorem allDisabled_work : (allDisabled s).work = [] := by
  rw [allDisabled, endDebug_work, work_of_disableAll (emptied s) rfl]

theorem allDisabled_rings : RingOnly s.nv (allDisabled s).nv := by
  have h := emptied_rings s
  have hkept : (disableAll .fnDisable (emptied s)).nv = (emptied s).nv := by rw [disableAll_only]
  rw [← hkept] at h
  exact ringOnly_trans h (endDebug_rings _ 4)

theorem emptied_fns : (emptied s).fns = s.fns := by
  rw [emptied_only]
  rfl

variable {s}

/-- The response (R379): fetching and MP_VALID fall, the entries inside are gone, functions are disabled, secrets are zeroised but the
root, debug rights and an open group have ended. -/
theorem respondT3_acts (h3 : s.tamper.t3 = false) :
    (respondT3 s).tamper = { s.tamper with t3 := true } ∧ (respondT3 s).pwr.mpValid = false ∧ (respondT3 s).pwr.fetchOff = true
      ∧ (respondT3 s).pwr.phase = s.pwr.phase ∧ (respondT3 s).work = [] ∧ (respondT3 s).lc = s.lc
      ∧ (respondT3 s).dbg.cert = none ∧ (respondT3 s).meter.group = none ∧ ∀ n, genOf (respondT3 s) n = genOf s n := by
  have hrings := allDisabled_rings s
  have hcert : (allDisabled s).dbg.cert = none := by rw [allDisabled, endDebug_cert]
  have hwork := allDisabled_work s
  have htamper := allDisabled_tamper s
  have hgroup : (allDisabled s).meter.group = none := by
    rw [allDisabled, endDebug_only, disableAll_only]
    exact emptied_group s
  have hpwr : (allDisabled s).pwr = (fetchStopped s).pwr := by rw [allDisabled, endDebug_only, disableAll_only, emptied_only]
  have hlc : (allDisabled s).lc = s.lc := by
    rw [allDisabled, endDebug_only, disableAll_only, emptied_only]
    rfl
  have hgen : ∀ n, genOf (allDisabled s) n = genOf s n := fun n => by
    unfold RingOnly at hrings
    rw [genOf, genOf, hrings]
  rw [respondT3_eq h3, haltWaiters_only]
  generalize allDisabled s = v at *
  refine ⟨?_, ?_, ?_, ?_, ?_, ?_, ?_, ?_, fun n => (Eq.trans ?_ (hgen n))⟩
  · rw [← htamper, swept, zeroiseSecrets_only]
  · rw [swept, zeroiseSecrets_only]
    exact congrArg Power.mpValid hpwr
  · rw [swept, zeroiseSecrets_only]
    exact congrArg Power.fetchOff hpwr
  · rw [swept, zeroiseSecrets_only]
    show v.pwr.phase = s.pwr.phase
    rw [hpwr, fetchStopped]
  · rw [swept, zeroiseSecrets_only]
    exact hwork
  · rw [swept, zeroiseSecrets_only]
    exact hlc
  · rw [swept, zeroiseSecrets_only]
    exact hcert
  · rw [swept, zeroiseSecrets_only]
    exact hgroup
  · have hzero : (zeroiseSecrets v).nv.genRecs = v.nv.genRecs := by
      unfold zeroiseSecrets
      rw [zeroiseConditioner_only]
    rw [swept, genOf, genOf, ← hzero]

theorem respondT3_keys (h3 : s.tamper.t3 = false) :
    (respondT3 s).keys.hot = [] ∧ (respondT3 s).keys.sess = [] ∧ (respondT3 s).keys.sessWrap = 0 ∧ (respondT3 s).keys.saveWrap = 0
      ∧ (respondT3 s).keys.pkeKey = [false, false] ∧ (respondT3 s).keys.root = s.keys.root := by
  have hkeys : (respondT3 s).keys = (zeroiseSecrets (allDisabled s)).keys := by rw [respondT3_eq h3, haltWaiters_only, swept]
  have hroot := allDisabled_root s
  rw [hkeys]
  generalize allDisabled s = v at *
  exact ⟨rfl, rfl, rfl, rfl, rfl, hroot⟩

theorem fnOf_respondT3 (h3 : s.tamper.t3 = false) (k : Nat) :
    plain (fnOf (respondT3 s) k) = plain (fnOf (disableAll .fnDisable (emptied s)) k) := by
  have hfns : (respondT3 s).fns = (swept (zeroiseSecrets (allDisabled s))).fns := by rw [respondT3_eq h3, haltWaiters_only]
  have hzero : (zeroiseSecrets (allDisabled s)).fns = (disableAll .fnDisable (emptied s)).fns := by
    rw [zeroiseSecrets_only, allDisabled, endDebug_only]
  have hsame : (respondT3 s).fns = (disableAll .fnDisable (emptied s)).fns.map fun x => { x with inUsed := 0, stUsed := 0 } := by
    rw [hfns, swept, hzero]
  rw [fnOf, hsame, fnOf, List.getD_eq_getElem?_getD, List.getD_eq_getElem?_getD, List.getElem?_map]
  cases (disableAll .fnDisable (emptied s)).fns[k]? <;> rfl

theorem present_of_disableAll (cause : FnCause) (s : State) (k : Nat) : (fnOf (disableAll cause s) k).present = (fnOf s k).present := by
  unfold disableAll
  refine foldl_keeps (P := fun t => (fnOf t k).present = (fnOf s k).present) _ _ _ rfl fun t f h => ?_
  rw [← h]
  rcases disableFn_sameFns cause f t with hsame | hsame
  · rw [present_of_plain (hsame k), barred]
    by_cases hk : k = f
    · subst hk
      simp only [fnOf, modAt, List.getD_eq_getElem?_getD, List.getElem?_modify_eq]
      cases t.fns[k]? <;> rfl
    · rw [Registers.fnOf_modAt_ne _ hk]
  · rw [hsame]

theorem respondT3_disables (h3 : s.tamper.t3 = false) (hfns : s.fns.length = 16) {f : Nat} (hf : f < 16)
    (hpresent : (fnOf (respondT3 s) f).present = true) (hcauses : (fnOf s f).causes = []) : (fnOf (respondT3 s) f).enabled = false := by
  have hplain := fnOf_respondT3 h3 f
  have hsame : fnOf (emptied s) f = fnOf s f := by rw [fnOf, emptied_fns, ← fnOf]
  rw [present_of_plain hplain, present_of_disableAll] at hpresent
  rw [enabled_of_plain hplain]
  exact disableAll_disables (emptied s) hf (by rw [emptied_fns]; omega) hpresent (by rw [hsame]; exact hcauses) _

/-! ## The burns and generations of T4 (R319, R382) -/

theorem genOf_invalidateDomain (t : State) (i n : Nat) :
    genOf (invalidateDomain t i) n = if n = i then genOf t i + 1 else genOf t n := by
  unfold invalidateDomain
  simp only []
  generalize hu : journalEntry 0x31 false _ t = u
  have hrings : RingOnly t.nv u.nv := hu ▸ journalEntry_rings ..
  have hrecs : u.nv.genRecs = t.nv.genRecs := by
    unfold RingOnly at hrings
    rw [hrings]
  rw [genOf, setGen_nv]
  split
  case isTrue h =>
    subst h
    rw [tgetD_tset_self, AB.value_update]
  case isFalse h => rw [tgetD_tset_ne _ _ _ h, hrecs, genOf]

theorem invalidateDomain_only (t : State) (i : Nat) :
    invalidateDomain t i = { t with nv := (invalidateDomain t i).nv, jrn := (invalidateDomain t i).jrn, pmon := (invalidateDomain t i).pmon } := by
  unfold invalidateDomain
  simp only []
  rw [setGen, journalEntry_only]

theorem genOf_invalidateDomains (t : State) (n : Nat) :
    genOf (invalidateDomains t) n = if n < 3 then genOf t n + (if t.pwr.phase = .recovery then 0 else 1) else genOf t n := by
  unfold invalidateDomains
  split
  · simp
  · simp only [List.foldl_cons, List.foldl_nil, genOf_invalidateDomain]
    rcases n with _ | _ | _ | n <;> simp

theorem invalidateDomains_only (t : State) :
    invalidateDomains t = { t with
      nv := (invalidateDomains t).nv, jrn := (invalidateDomains t).jrn, pmon := (invalidateDomains t).pmon } := by
  unfold invalidateDomains
  split
  · rfl
  · refine foldl_keeps (P := fun u : State => u = { t with nv := u.nv, jrn := u.jrn, pmon := u.pmon }) _ _ _ rfl fun u i h => ?_
    rw [invalidateDomain_only, h]

theorem groupMask_tampered (k : Nat) (hk : k < 16) : (groupMask 2).getLsbD (4 * k + 2) = true := by
  revert k
  decide

theorem burnTampered_burns (t : State) :
    (∀ k, k < 16 → otpBit (burnTampered t) 97 (4 * k + 2) = true)
      ∧ ∀ k, k < 64 → (intentValue (lcCode t.lc) 15).getLsbD k = true → otpBit (burnTampered t) 106 k = true := by
  have h97 : tgetD (burnTampered t).otp 97 0 = tgetD (burn (intentWord 15) (intentValue (lcCode t.lc) 15) t).otp 97 0 ||| groupMask 2 :=
    tgetD_tset_self ..
  have h106 : tgetD (burnTampered t).otp 106 0 = tgetD t.otp 106 0 ||| intentValue (lcCode t.lc) 15 :=
    (tgetD_tset_ne _ _ _ (by decide)).trans (tgetD_tset_self ..)
  refine ⟨fun k hk => ?_, fun k _ hbit => ?_⟩
  · rw [otpBit, h97, BitVec.getLsbD_or, groupMask_tampered k hk, Bool.or_true]
  · rw [otpBit, h106, BitVec.getLsbD_or, hbit, Bool.or_true]

/-- The response adds to that of T3 the burns and the raised generations. -/
theorem respondT4_eq (hlost : s.lc ≠ .lost) (h3 : s.tamper.t3 = false) :
    respondT4 s = { invalidateDomains (burnTampered (respondT3 s)) with
      tamper := { (invalidateDomains (burnTampered (respondT3 s))).tamper with t4Due := true } } := by
  have hlc : ((respondT3 s).lc == .lost) = false := by
    obtain ⟨-, -, -, -, -, hlc, -⟩ := respondT3_acts h3
    rw [hlc]
    simpa using hlost
  unfold respondT4
  have hlc' : (s.lc == .lost) = false := by simpa using hlost
  simp only [hlc', Bool.false_eq_true, if_false]

end

/-! ## The input (R376) -/

section
variable {i : TamperIn} {w : Bool} {c : TClass} {counts : Bool} {s : State}

/-- The state in which an input has been noted. -/
def noted (i : TamperIn) (counts w : Bool) (s : State) : State :=
  drew { s with tamper := { s.tamper with
    window := windowWith i counts w s, windowAt := if counts then s.opsec else s.tamper.windowAt } }

/-- An input that stands alone is answered by its own class. -/
theorem senseInput_alone (act : State → State) (hjudge : judgeInput s i = some (c, counts)) (hscrap : s.lc ≠ .scrap)
    (hwindow : s.tamper.window = []) (harray : lastArray i s = false) :
    senseInput act i w s = respondTo c (sensorCode i.sensor) (unitKey i.unit).2 (classBits c s) act (noted i counts w s) := by
  have hlength : (windowWith i counts w s).length < 2 := by
    simp only [windowWith, hwindow]
    split <;> split <;> simp
  have halone : correlated i counts (windowWith i counts w s) s = false := by
    simp [correlated, harray, hlength]
  rw [senseInput, hjudge]
  simp only [hscrap, if_false, halone, Bool.false_eq_true]
  rfl

theorem takeInput_alone (hjudge : judgeInput s i = some (c, counts)) (hscrap : s.lc ≠ .scrap) (hwindow : s.tamper.window = [])
    (harray : lastArray i s = false) (hvbat : ¬(i.sensor = .vbat ∧ i.reading = .fault)) :
    takeInput i w s = respondTo c (sensorCode i.sensor) (unitKey i.unit).2 (classBits c s) (t2Action i) (noted i counts w s) := by
  rw [takeInput, if_neg hvbat, senseInput_alone _ hjudge hscrap hwindow harray]

theorem tamperInput_runs {u : State} (hon : sensorsOn s = true) (hu : takeInput i w s = u) :
    exec (.tamperInput i w) s = .next (settle s u) := by
  rw [← hu]
  exact if_pos hon

/-- T1 is recorded, and no more. -/
theorem tamperInput_t1 (hon : sensorsOn s = true) (hq : quiet s = true)
    (hu : takeInput i w s = respondTo .t1 (sensorCode i.sensor) (unitKey i.unit).2 (classBits .t1 s) (t2Action i) (noted i counts w s)) :
    To (.tamperInput i w) s fun t =>
      Notified { s with
        tamper := { s.tamper with window := t.tamper.window, windowAt := t.tamper.windowAt }
        ev := (event 0x0D01 (sensorCode i.sensor + 256 * ((unitKey i.unit).2 % 256) + 65536) s).ev
        free := s.free + 1 } t := by
  refine to_of_settle (tamperInput_runs hon hu) ((quiet_event ..).trans (quiet_of_same hq rfl rfl rfl)) fun t h => ?_
  have ht := told_of_event s h rfl rfl rfl rfl rfl
  have htamper := tamper_of_notified ht
  rw [htamper]
  exact ht

/-- What T3 and T4 have in common, of a state that the response leaves. -/
def Halted (s t : State) : Prop :=
  t.tamper.t3 = true ∧ t.pwr.mpValid = false ∧ t.pwr.fetchOff = true ∧ t.work = []
    ∧ (∀ f, f < 16 → (fnOf t f).present = true → (fnOf s f).causes = [] → (fnOf t f).enabled = false)
    ∧ t.keys.hot = [] ∧ t.keys.sess = [] ∧ t.keys.sessWrap = 0 ∧ t.keys.saveWrap = 0 ∧ t.keys.pkeKey = [false, false]
    ∧ t.keys.root = s.keys.root ∧ t.dbg.cert = none ∧ t.meter.group = none

/-- An event in the state in which the input has been noted. -/
theorem event_noted (code arg : Nat) (h3 : s.tamper.t3 = false) :
    let e := event code arg (noted i counts w s)
    e.tamper.t3 = false ∧ e.tamper.t4Due = s.tamper.t4Due ∧ e.fns = s.fns ∧ e.keys.root = s.keys.root ∧ e.lc = s.lc ∧ e.otp = s.otp
      ∧ e.pwr.phase = s.pwr.phase ∧ ∀ n, genOf e n = genOf s n := by
  intro e
  have he : e = { noted i counts w s with ev := e.ev, pmon := e.pmon } := event_only ..
  rw [he]
  exact ⟨h3, rfl, rfl, rfl, rfl, rfl, rfl, fun _ => rfl⟩

theorem halted_respondT3 {e : State} (h3 : e.tamper.t3 = false) (hfns : e.fns.length = 16) : Halted e (respondT3 e) := by
  obtain ⟨htamper, hmp, hfetch, -, hwork, -, hcert, hgroup, -⟩ := respondT3_acts h3
  obtain ⟨hhot, hsess, hwrap, hsave, hpke, hroot⟩ := respondT3_keys h3
  exact ⟨by rw [htamper], hmp, hfetch, hwork, fun f hf hp hc => respondT3_disables h3 hfns hf hp hc, hhot, hsess, hwrap, hsave, hpke, hroot,
    hcert, hgroup⟩

/-- The end of the step keeps what the response left. -/
theorem halted_settle {e u : State} (s0 : State) (h : Halted e u) : Halted e (settle s0 u) := by
  obtain ⟨h3, hmp, hfetch, hwork, hfns, hrest⟩ := h
  have hfn := settle_sameFns s0 u
  refine ⟨h3, hmp, hfetch, ?_, fun f hf hp hc => ?_, hrest⟩
  · refine List.eq_nil_iff_forall_not_mem.mpr fun x hx => ?_
    have hmem := WriteThrough.mem_work_of_settle hx
    rw [hwork] at hmem
    exact List.not_mem_nil hmem
  · rw [enabled_of_plain (hfn f)]
    exact hfns f hf ((present_of_plain (hfn f)).symm.trans hp) hc

theorem tamperInput_t3 (hon : sensorsOn s = true) (h3 : s.tamper.t3 = false) (hfns : s.fns.length = 16)
    (hu : takeInput i w s = respondTo .t3 (sensorCode i.sensor) (unitKey i.unit).2 (classBits .t3 s) (t2Action i) (noted i counts w s)) :
    To (.tamperInput i w) s fun t =>
      Halted s t ∧ t.otp = s.otp ∧ t.tamper.t4Due = s.tamper.t4Due ∧ ∀ n, genOf t n = genOf s n := by
  obtain ⟨he3, hdue, hefns, hroot, -, hotp, -, hgen⟩ :=
    event_noted (i := i) (w := w) (counts := counts) 0x0D03 (tamperArg (sensorCode i.sensor) (unitKey i.unit).2 (classBits .t3 s)) h3
  simp only [respondTo] at hu
  generalize event 0x0D03 _ (noted i counts w s) = e at *
  have hhalted := halted_settle s (halted_respondT3 he3 (by rw [hefns]; exact hfns))
  obtain ⟨htamper, -, -, -, -, -, -, -, hgen3⟩ := respondT3_acts he3
  refine to_of_eq (tamperInput_runs hon hu) ⟨?_, ?_, ?_, fun n => ?_⟩
  · simpa only [Halted, fnOf, hefns, hroot] using hhalted
  · rw [settle_otp, respondT3_otp, hotp]
  · rw [settle_tamper, htamper]
    exact hdue
  · exact (hgen3 n).trans (hgen n)

theorem tamperInput_t4 (hon : sensorsOn s = true) (h3 : s.tamper.t3 = false) (hfns : s.fns.length = 16) (hlost : s.lc ≠ .lost)
    (hu : takeInput i w s = respondTo .t4 (sensorCode i.sensor) (unitKey i.unit).2 (classBits .t4 s) (t2Action i) (noted i counts w s)) :
    To (.tamperInput i w) s fun t =>
      Halted s t ∧ t.tamper.t4Due = true ∧ (∀ k, k < 16 → otpBit t 97 (4 * k + 2) = true)
        ∧ (∀ k, k < 64 → (intentValue (lcCode s.lc) 15).getLsbD k = true → otpBit t 106 k = true)
        ∧ (∀ n, n < 3 → genOf t n = genOf s n + (if s.pwr.phase = .recovery then 0 else 1))
        ∧ ∀ n, 3 ≤ n → genOf t n = genOf s n := by
  obtain ⟨he3, -, hefns, hroot, hlc, -, hphase, hgen⟩ :=
    event_noted (i := i) (w := w) (counts := counts) 0x0D04 (tamperArg (sensorCode i.sensor) (unitKey i.unit).2 (classBits .t4 s)) h3
  simp only [respondTo] at hu
  generalize event 0x0D04 _ (noted i counts w s) = e at *
  rw [respondT4_eq (by rw [hlc]; exact hlost) he3] at hu
  have hhalt3 := halted_respondT3 he3 (by rw [hefns]; exact hfns)
  obtain ⟨-, -, -, hphase3, -, hlc3, -, -, hgen3⟩ := respondT3_acts he3
  have hburns := burnTampered_burns (respondT3 e)
  have hgenb : ∀ n, genOf (burnTampered (respondT3 e)) n = genOf s n := fun n => (hgen3 n).trans (hgen n)
  have hphaseb : (burnTampered (respondT3 e)).pwr.phase = s.pwr.phase := hphase3.trans hphase
  have hhaltb : Halted e (burnTampered (respondT3 e)) := hhalt3
  have honly := invalidateDomains_only (burnTampered (respondT3 e))
  have hgens := genOf_invalidateDomains (burnTampered (respondT3 e))
  rw [hlc3, hlc] at hburns
  generalize burnTampered (respondT3 e) = b at *
  have hhalti : Halted e (invalidateDomains b) := by
    rw [honly]
    exact hhaltb
  have hotp : (invalidateDomains b).otp = b.otp := by rw [honly]
  generalize invalidateDomains b = v at *
  have hhalted : Halted e (settle s { v with tamper := { v.tamper with t4Due := true } }) := halted_settle s hhalti
  refine to_of_eq (tamperInput_runs hon hu) ⟨?_, rfl, fun k hk => ?_, fun k hk hbit => ?_, fun n hn => ?_, fun n hn => ?_⟩
  · simpa only [Halted, fnOf, hefns, hroot] using hhalted
  · rw [otpBit, settle_otp]
    show (tgetD v.otp 97 0).getLsbD _ = true
    rw [hotp]
    exact hburns.1 k hk
  · rw [otpBit, settle_otp]
    show (tgetD v.otp 106 0).getLsbD k = true
    rw [hotp]
    exact hburns.2 k hk hbit
  · have h := hgens n
    rw [if_pos hn, hgenb, hphaseb] at h
    exact h
  · have h := hgens n
    rw [if_neg (by omega), hgenb] at h
    exact h

end

/-- Settles O37. -/
theorem tamperClassesRespond : Obligations.TamperClassesRespond := by
  intro i w c counts s hon hscrap hlost hjudge hwindow harray hvbat hq hfns h3
  have hu := takeInput_alone (w := w) hjudge hscrap hwindow harray hvbat
  refine ⟨?_, ?_⟩
  · rintro rfl
    exact tamperInput_t1 hon hq hu
  · rintro (rfl | rfl)
    · obtain ⟨t, ht, hhalted, hrest⟩ := tamperInput_t3 hon h3 hfns hu
      obtain ⟨hstop, hmp, hfetch, hwork, hfn, hhot, hsess, hwrap, hsave, hpke, hroot, hcert, hgroup⟩ := hhalted
      exact ⟨t, ht, hstop, hmp, hfetch, hwork, hfn, hhot, hsess, hwrap, hsave, hpke, hroot, hcert, hgroup, fun _ => hrest,
        fun h => absurd h (by decide)⟩
    · obtain ⟨t, ht, hhalted, hrest⟩ := tamperInput_t4 hon h3 hfns hlost hu
      obtain ⟨hstop, hmp, hfetch, hwork, hfn, hhot, hsess, hwrap, hsave, hpke, hroot, hcert, hgroup⟩ := hhalted
      exact ⟨t, ht, hstop, hmp, hfetch, hwork, hfn, hhot, hsess, hwrap, hsave, hpke, hroot, hcert, hgroup,
        fun h => absurd h (by decide), fun _ => hrest⟩

end Sys2Proof.TamperResponse
end

section
/-! # What lane and slot operations leave of the state (R186 to R210) -/
namespace Sys2Proof.LaneWork
open Sys2Proof Sys2Proof.Machine Sys2Proof.Told Sys2Proof.Redundancy

/-- The parts that starting, withdrawing, testing and filling may change: the power domains, lanes, slots and their schedule, what seeds
are drawn from, and what is recorded, counted and answered with it. -/
def LaneOnly (s t : State) : Prop :=
  t = { s with
    pwr := { s.pwr with domains := t.pwr.domains }
    lanes := t.lanes, slots := t.slots, sched := t.sched, banks := t.banks, lark := t.lark, ev := t.ev, pmon := t.pmon, free := t.free
    link := t.link, fns := t.fns, vecs := t.vecs, mbxs := t.mbxs, spi := t.spi, waiters := t.waiters, out := t.out }

theorem laneOnly_refl (s : State) : LaneOnly s s := rfl

theorem laneOnly_trans {s t u : State} (h : LaneOnly s t) (h' : LaneOnly t u) : LaneOnly s u := by
  unfold LaneOnly at *
  rw [h', h]

section
variable {s t : State} (h : LaneOnly s t)
include h
theorem LaneOnly.nv : t.nv = s.nv := by rw [LaneOnly] at h; rw [h]
theorem LaneOnly.nonces : t.nonces = s.nonces := by rw [LaneOnly] at h; rw [h]
theorem LaneOnly.work : t.work = s.work := by rw [LaneOnly] at h; rw [h]
theorem LaneOnly.jrn : t.jrn = s.jrn := by rw [LaneOnly] at h; rw [h]
theorem LaneOnly.opsec : t.opsec = s.opsec := by rw [LaneOnly] at h; rw [h]
theorem LaneOnly.standby : t.pwr.standby = s.pwr.standby := by rw [LaneOnly] at h; rw [h]
theorem LaneOnly.wake : t.pwr.wake = s.pwr.wake := by rw [LaneOnly] at h; rw [h]
theorem LaneOnly.held : t.held = s.held := by rw [LaneOnly] at h; rw [h]
theorem LaneOnly.quiet (hq : quiet s = true) : quiet t = true := quiet_of_same hq h.work h.jrn h.nv
end

theorem sched_lane {s t : State} (h : LaneOnly s t) (x : Sched) : LaneOnly s { t with sched := x } :=
  laneOnly_trans (u := { t with sched := x }) h rfl

theorem drew_lane {s t : State} (h : LaneOnly s t) : LaneOnly s (drew t) := laneOnly_trans (u := drew t) h rfl

theorem eventX_lane {s t : State} (h : LaneOnly s t) (code arg : Nat) (ext : Bytes) : LaneOnly s (eventX code arg ext t) :=
  laneOnly_trans h (by rw [LaneOnly, eventX_only])

theorem event_lane {s t : State} (h : LaneOnly s t) (code arg : Nat) : LaneOnly s (event code arg t) := eventX_lane h code arg []

theorem modLane_lane {s t : State} (h : LaneOnly s t) (n : Nat) (f : Lane → Lane) : LaneOnly s (modLane n f t) := laneOnly_trans h rfl

theorem modSlot_lane {s t : State} (h : LaneOnly s t) (p : Nat) (f : Slot → Slot) : LaneOnly s (modSlot p f t) := laneOnly_trans h rfl

theorem laneDomains_lane {s t : State} (h : LaneOnly s t) (n : Nat) (d : DomState) : LaneOnly s (laneDomains n d t) := laneOnly_trans h rfl

theorem takeSeed_lane {s t : State} (h : LaneOnly s t) : LaneOnly s (takeSeed t).2 := laneOnly_trans h (by rw [LaneOnly, takeSeed_only])

theorem aer_lane {s t : State} (h : LaneOnly s t) (f : Nat) (e : AerError) : LaneOnly s (aer f e t) :=
  laneOnly_trans h (by rw [LaneOnly, aer_only])

theorem answerAll_lane {s t : State} (h : LaneOnly s t) (p : Waiter → Bool) (reply : Waiter → Nat × Nat × Bytes) :
    LaneOnly s (answerAll p reply t) := laneOnly_trans h (by rw [LaneOnly, answerAll_only])

theorem laneDown_lane {s t : State} (h : LaneOnly s t) (st : LaneSt) (n : Nat) : LaneOnly s (laneDown st n t) :=
  laneDomains_lane (modLane_lane h _ _) _ _

theorem laneFails_lane {s t : State} (h : LaneOnly s t) (n : Nat) : LaneOnly s (laneFails n t) :=
  aer_lane (event_lane (laneDown_lane h _ _) _ _) _ _

theorem startLane_lane {s t : State} (h : LaneOnly s t) (p n : Nat) : LaneOnly s (startLane p n t) :=
  laneDomains_lane (modLane_lane (takeSeed_lane h) _ _) _ _

theorem reseedLane_lane {s t : State} (h : LaneOnly s t) (n : Nat) : LaneOnly s (reseedLane n t) := by
  unfold reseedLane
  split
  · exact modLane_lane (takeSeed_lane h) _ _
  · exact h

theorem seedLanes_lane {s t : State} (h : LaneOnly s t) : LaneOnly s (seedLanes t) := by
  unfold seedLanes
  refine foldl_keeps (P := LaneOnly s) _ _ _ h fun u n hu => ?_
  split
  · exact hu
  · exact reseedLane_lane hu n

theorem withdrawLane_lane {s t : State} (h : LaneOnly s t) (st : LaneSt) (n : Nat) : LaneOnly s (withdrawLane st n t) := modLane_lane h _ _

theorem fillSlot_lane {s t : State} (h : LaneOnly s t) (p a b : Nat) : LaneOnly s (fillSlot p a b t) :=
  modLane_lane (modLane_lane (modSlot_lane h _ _) _ _) _ _

theorem beginRebuild_lane {s t : State} (h : LaneOnly s t) (p : Nat) : LaneOnly s (beginRebuild p t) := by
  unfold beginRebuild
  simp only []
  split
  · exact startLane_lane (startLane_lane (modSlot_lane h _ _) _ _) _ _
  · exact modSlot_lane h _ _

theorem drainSlot_lane {s t : State} (h : LaneOnly s t) (p : Nat) : LaneOnly s (drainSlot p t) :=
  modLane_lane (modLane_lane (modSlot_lane h _ _) _ _) _ _

theorem beginTest_lane {s t : State} (h : LaneOnly s t) (p : Nat) : LaneOnly s (beginTest p t) := by
  unfold beginTest
  split
  · exact startLane_lane (startLane_lane h _ _) _ _
  · exact drainSlot_lane h _

theorem rotationStays_lane {s t : State} (h : LaneOnly s t) (p : Nat) : LaneOnly s (rotationStays p t) :=
  event_lane (sched_lane h _) _ _

theorem periodicTest_lane {s t : State} (h : LaneOnly s t) : LaneOnly s (periodicTest t) := by
  unfold periodicTest
  simp only []
  split
  · exact sched_lane h _
  · split
    · exact rotationStays_lane h _
    · exact beginTest_lane (sched_lane h _) _

theorem runPending_lane {s t : State} (h : LaneOnly s t) : LaneOnly s (runPending t) := by
  unfold runPending
  split
  · exact periodicTest_lane (sched_lane h _)
  · exact h

theorem answerTests_lane {s t : State} (h : LaneOnly s t) (target : Nat) (fail : Bool) : LaneOnly s (answerTests target fail t) :=
  answerAll_lane (drew_lane h) _ _

theorem noteTest_lane {s t : State} (h : LaneOnly s t) (n : Nat) (pass : Bool) : LaneOnly s (noteTest n pass t) := by
  have hnoted : LaneOnly s (if pass then t else event 0x0109 (unitArg 0x10 n) t) := by
    split
    · exact h
    · exact event_lane h _ _
  unfold noteTest
  split
  · exact h
  · split
    · simp only []
      split
      · exact answerTests_lane (answerTests_lane (sched_lane hnoted _) _ _) _ _
      · exact sched_lane hnoted _
    · exact h

theorem testLane_lane {s t : State} (h : LaneOnly s t) (n : Nat) : LaneOnly s (testLane n t) := by
  unfold testLane
  split
  · split
    · exact noteTest_lane (laneFails_lane h n) _ _
    · exact withdrawLane_lane h _ _
  · exact h

theorem rebuildSlots_lane {s t : State} (h : LaneOnly s t) : LaneOnly s (rebuildSlots t) := by
  unfold rebuildSlots
  refine foldl_keeps (P := LaneOnly s) _ _ _ h fun u p hu => ?_
  simp only []
  split
  · split
    · exact beginRebuild_lane hu p
    · split
      · exact modSlot_lane hu _ _
      · exact hu
  · exact hu

end Sys2Proof.LaneWork
end

section
/-! # Standby is entered once nothing is in its way, and left on a wake (O13) -/
namespace Sys2Proof.Standby
open Sys2Proof Sys2Proof.Machine Sys2Proof.Told Sys2Proof.Replies Sys2Proof.Admission Sys2Proof.Entries Sys2Proof.LaneWork

/-! ## The way in (R48, R50, R128) -/

/-- Of the commands that are answered together, the last one's response stands. -/
theorem answerAll_last {p : Waiter → Bool} {reply : Waiter → Nat × Nat × Bytes} {s : State} {l : List Waiter} {w : Waiter}
    (hwaiters : s.waiters = l ++ [w]) (hp : p w = true) (horphan : w.orphan = false) :
    ∃ u, answerAll p reply s = respond w.op w.req (reply w).1 (reply w).2.1 (reply w).2.2 u := by
  have hhit : s.waiters.filter p = l.filter p ++ [w] := by simp [hwaiters, hp]
  unfold answerAll
  simp only [hhit, List.foldl_append, List.foldl_cons, List.foldl_nil]
  generalize (List.filter p l).foldl _ _ = u
  exact ⟨u, by simp only [answerWaiter, horphan, Bool.false_eq_true, if_false]⟩

section
variable {r : Req} {s : State}

/-- The state in which DEV_STANDBY waits. -/
def standbyWaits (r : Req) (s : State) : State :=
  settle s (waiting 0x0103 r 0 [] { s with pwr := { s.pwr with standbyDue := true } })

theorem devStandby_command (h : accepts 0x0103 r (some 0) s = true) :
    command (.devStandby r) 0x0103 r (some 0) (fun s => .wait { s with pwr := { s.pwr with standbyDue := true } } 0 []) s
      = standbyWaits r s := by
  rw [command_accepts h, runCommand, admission_of_accepts h]
  rfl

theorem devStandby_waits (h : accepts 0x0103 r (some 0) s = true) :
    exec (.devStandby r) s = .next (sleepIfDue (standbyWaits r s)) := by
  rw [← devStandby_command h]
  rfl

theorem standbyReady_iff : standbyReady (standbyWaits r s) = ((standbyWaits r s).work == [] && (s.tamper.t3 || !drawsUnderway s)) := rfl

theorem standbyWaits_work (hwork : s.work = []) : (standbyWaits r s).work = [] := by
  refine List.eq_nil_iff_forall_not_mem.mpr fun w hw => ?_
  have hmem : w ∈ s.work :=
    WriteThrough.mem_work_of_settle (s0 := s) (s := waiting 0x0103 r 0 [] { s with pwr := { s.pwr with standbyDue := true } }) hw
  rw [hwork] at hmem
  exact List.not_mem_nil hmem

/-- What standby switches off. -/
def asleep (s : State) : State :=
  { s with
    pwr := { s.pwr with standby := true, standbyDue := false, domains := s.pwr.domains.mapIdx standbyDomain }
    lanes := s.lanes.map fun l => { l with keys := [], out := [], seeded := false, maskSeed := 0 }
    banks := s.banks.map fun b => if b.st = .failed then b else { b with st := .off, ready := false, heldRaw := none }
    pkes := s.pkes.map fun p => { p with on := false } }

theorem enterStandby_eq (s : State) :
    enterStandby s = answerAll (fun w => w.op == 0x0103) (fun _ => (stOk, 0, [])) (event 0x010C 1 (asleep s)) := rfl

theorem enterStandby_only (s : State) : LaneOnly (asleep s) (enterStandby s) := by
  rw [enterStandby_eq]
  exact answerAll_lane (event_lane (laneOnly_refl _) _ _) _ _

theorem enterStandby_parts (s : State) : (enterStandby s).pwr = (asleep s).pwr ∧ (enterStandby s).lanes = (asleep s).lanes
    ∧ (enterStandby s).banks = (asleep s).banks ∧ (enterStandby s).nv = (asleep s).nv := by
  rw [enterStandby_eq, answerAll_only, event_only]
  exact ⟨rfl, rfl, rfl, rfl⟩

theorem standby_entered (h : accepts 0x0103 r (some 0) s = true) (hwork : s.work = [])
    (hdraws : s.tamper.t3 = true ∨ drawsUnderway s = false) :
    To (.devStandby r) s fun t =>
      t.pwr.standby = true ∧ t.pwr.standbyDue = false ∧ t.pwr.domains = s.pwr.domains.mapIdx standbyDomain
        ∧ (∀ l ∈ t.lanes, l.keys = [] ∧ l.seeded = false ∧ l.maskSeed = 0) ∧ (∀ b ∈ t.banks, b.st = .off ∨ b.st = .failed)
        ∧ t.nv = s.nv ∧ Answered 0x0103 r stOk 0 [] t := by
  have hready : standbyReady (standbyWaits r s) = true := by
    rw [standbyReady_iff, standbyWaits_work hwork]
    rcases hdraws with ht3 | hno
    · rw [ht3]; rfl
    · rw [hno, Bool.not_false, Bool.or_true]; rfl
  have hexec := devStandby_waits h
  rw [sleepIfDue, if_pos hready] at hexec
  have hwaiters : (event 0x010C 1 (asleep (standbyWaits r s))).waiters = s.waiters ++ [{ req := r, op := 0x0103, obj := 0, body := [] }] := by
    rw [event_waiters]
    rfl
  obtain ⟨u, hu⟩ := answerAll_last (p := fun w => w.op == 0x0103) (reply := fun _ => (stOk, 0, [])) hwaiters rfl rfl
  rw [← enterStandby_eq] at hu
  have hanswer : Answered 0x0103 r stOk 0 [] (enterStandby (standbyWaits r s)) := by
    rw [hu]
    exact answered_respond ..
  obtain ⟨hpwr, hlanes, hbanks, hnv⟩ := enterStandby_parts (standbyWaits r s)
  have hsame : (standbyWaits r s).pwr = { s.pwr with standbyDue := true } ∧ (standbyWaits r s).nv = s.nv := ⟨rfl, rfl⟩
  generalize standbyWaits r s = v at *
  refine to_of_eq hexec ⟨?_, ?_, ?_, fun l hl => ?_, fun b hb => ?_, ?_, answered_settle v hanswer⟩
  · rw [settle_pwr, hpwr]; rfl
  · rw [settle_pwr, hpwr]; rfl
  · rw [settle_pwr, hpwr, asleep, hsame.1]
  · rw [settle_lanes, hlanes] at hl
    obtain ⟨x, -, rfl⟩ := List.mem_map.mp hl
    exact ⟨rfl, rfl, rfl⟩
  · rw [settle_banks, hbanks] at hb
    obtain ⟨x, -, rfl⟩ := List.mem_map.mp hb
    split
    case isTrue hfailed => exact .inr hfailed
    case isFalse => exact .inl rfl
  · rw [settle_nv, hnv]
    exact hsame.2

theorem standby_waits (h : accepts 0x0103 r (some 0) s = true) (hbusy : s.work ≠ [] ∨ (s.tamper.t3 = false ∧ drawsUnderway s = true))
    (hq : quiet s = true) :
    To (.devStandby r) s fun t =>
      Waits 0x0103 r 0 t ∧ t.pwr.standby = false ∧ t.pwr.standbyDue = true ∧ t.work = s.work ∧ t.nv = s.nv := by
  have hn : Notified (waiting 0x0103 r 0 [] { s with pwr := { s.pwr with standbyDue := true } }) (standbyWaits r s) :=
    settle_quiet s (quiet_of_same hq rfl rfl rfl)
  have hwork : (standbyWaits r s).work = s.work := (work_of_notified hn).trans rfl
  have hready : standbyReady (standbyWaits r s) = false := by
    rw [standbyReady_iff, hwork]
    rcases hbusy with hne | ⟨ht3, hdraws⟩
    · simp [hne]
    · simp [ht3, hdraws]
  have hwaits := command_waits h (run := fun s => .wait { s with pwr := { s.pwr with standbyDue := true } } 0 []) rfl (.devStandby r)
  have hexec := devStandby_waits h
  rw [sleepIfDue, if_neg (by rw [hready]; decide)] at hexec
  have hawake : s.pwr.standby = false := by
    simp only [accepts, takes, mustHold, Bool.and_eq_true, Bool.not_eq_true', Bool.or_eq_false_iff] at h
    exact h.1.2.1.1.1
  have hpwr : (standbyWaits r s).pwr = { s.pwr with standbyDue := true } := settle_pwr ..
  have hnv : (standbyWaits r s).nv = s.nv := settle_nv ..
  rw [devStandby_command h] at hwaits
  generalize standbyWaits r s = t at *
  exact to_of_eq hexec ⟨hwaits, by rw [hpwr, hawake], by rw [hpwr], hwork, hnv⟩

end

/-! ## The way out -/

/-- What a noise bank is apart from the blocks taken from it. -/
def marks (x : Bank) : Bank := { x with blocks := 0, heldRaw := none }

/-- The noise banks are the same, whatever blocks were taken from them. -/
def SameBanks (s t : State) : Prop := ∀ b, marks (bankOf t b) = marks (bankOf s b)

theorem SameBanks.st {s t : State} (h : SameBanks s t) (b : Nat) : (bankOf t b).st = (bankOf s b).st :=
  show (marks (bankOf t b)).st = (marks (bankOf s b)).st by rw [h b]

theorem sameBanks_refl (s : State) : SameBanks s s := fun _ => rfl

theorem sameBanks_trans {s t u : State} (h : SameBanks s t) (h' : SameBanks t u) : SameBanks s u := fun b => (h' b).trans (h b)

theorem sameBanks_of_banks {s t : State} (h : t.banks = s.banks) : SameBanks s t := fun b => by rw [bankOf, bankOf, h]

theorem takeFrom_sameBanks (b : Nat) (s : State) : SameBanks s (takeFrom b s).2 := fun k => by
  have hbanks : (takeFrom b s).2.banks
      = modAt s.banks b fun x => { x with blocks := x.blocks + 1, heldRaw := some (Config.raw s.free) } := by
    simp only [takeFrom, count, drew]
  simp only [bankOf, hbanks]
  simp only [modAt, List.getD_eq_getElem?_getD, List.getElem?_modify]
  cases s.banks[k]? with
  | none => rfl
  | some x =>
    by_cases hk : b = k
    · simp [hk, marks]
    · simp [hk]

theorem takeBlock_sameBanks (s : State) : SameBanks s (takeBlock s).2 := by
  unfold takeBlock
  split
  case h_1 b _ =>
    have h := takeFrom_sameBanks b s
    generalize takeFrom b s = x at h ⊢
    exact h
  case h_2 => exact sameBanks_refl s

theorem takeBlocks_sameBanks (n : Nat) (s : State) : SameBanks s (takeBlocks n s).2 := by
  induction n generalizing s with
  | zero => exact sameBanks_refl s
  | succ n ih =>
    have h := takeBlock_sameBanks s
    unfold takeBlocks
    generalize takeBlock s = x at h ⊢
    exact sameBanks_trans h (ih x.2)

theorem takeSeed_sameBanks (s : State) : SameBanks s (takeSeed s).2 := by
  have h := takeBlocks_sameBanks 2 s
  unfold takeSeed
  generalize takeBlocks 2 s = x at h ⊢
  exact h

theorem reseedLane_sameBanks (n : Nat) (s : State) : SameBanks s (reseedLane n s) := by
  have h := takeSeed_sameBanks s
  unfold reseedLane
  generalize takeSeed s = x at h ⊢
  split
  · exact h
  · exact sameBanks_refl s

theorem seedLanes_sameBanks (s : State) : SameBanks s (seedLanes s) := by
  unfold seedLanes
  refine foldl_keeps (P := SameBanks s) _ _ _ (sameBanks_refl s) fun t n h => ?_
  split
  · exact h
  · exact sameBanks_trans h (reseedLane_sameBanks n t)

theorem startLane_sameBanks (p n : Nat) (s : State) : SameBanks s (startLane p n s) := by
  have h := takeSeed_sameBanks s
  unfold startLane
  generalize takeSeed s = x at h ⊢
  refine sameBanks_trans h (sameBanks_of_banks ?_)
  simp only [laneDomains, setDomain, modLane]

theorem beginTest_sameBanks (p : Nat) (s : State) : SameBanks s (beginTest p s) := by
  unfold beginTest
  split
  · exact sameBanks_trans (startLane_sameBanks _ _ s) (startLane_sameBanks _ _ _)
  · exact sameBanks_of_banks rfl

theorem periodicTest_sameBanks (s : State) : SameBanks s (periodicTest s) := by
  unfold periodicTest
  simp only []
  split
  · exact sameBanks_refl s
  · split
    · exact sameBanks_of_banks (event_banks ..)
    · exact sameBanks_trans (t := { s with sched := { s.sched with rotation := (s.sched.rotation + 1) % 3 } }) (sameBanks_of_banks rfl)
        (beginTest_sameBanks _ _)

theorem runPending_sameBanks (s : State) : SameBanks s (runPending s) := by
  unfold runPending
  split
  · exact sameBanks_trans (t := { s with sched := { s.sched with testPending := false } }) (sameBanks_of_banks rfl) (periodicTest_sameBanks _)
  · exact sameBanks_refl s

/-- A bank that has not failed starts. -/
def startIfSound (t : State) (b : Nat) : State := if (bankOf t b).st = .failed then t else startBank b t

theorem startIfSound_only (t : State) (b : Nat) :
    startIfSound t b = { t with pwr := { t.pwr with domains := (startIfSound t b).pwr.domains }, banks := (startIfSound t b).banks } := by
  unfold startIfSound
  split <;> rfl

theorem bankOf_startIfSound {t : State} {b : Nat} (hb : b < t.banks.length) (k : Nat) :
    bankOf (startIfSound t b) k = if k = b ∧ (bankOf t b).st ≠ .failed then { bankOf t b with st := .starting, retry := false, ready := false }
      else bankOf t k := by
  unfold startIfSound
  by_cases hfailed : (bankOf t b).st = .failed
  · simp [hfailed]
  · rw [if_neg hfailed]
    by_cases hk : k = b
    · subst hk
      rw [if_pos ⟨rfl, hfailed⟩]
      exact DeviceCommands.bankOf_modBank_self hb _
    · rw [if_neg fun h => hk h.1]
      show (modAt t.banks b _).getD k {} = t.banks.getD k {}
      simp [modAt, List.getD_eq_getElem?_getD, Ne.symm hk]

theorem length_startIfSound (t : State) (b : Nat) : (startIfSound t b).banks.length = t.banks.length := by
  unfold startIfSound
  split
  · rfl
  · exact List.length_modify ..

/-- The three banks, each once. -/
theorem startBanks_sts {s : State} (hlen : s.banks.length = 3) {b : Nat} (hb : b < 3) :
    (bankOf ((List.range 3).foldl startIfSound s) b).st = if (bankOf s b).st = .failed then .failed else .starting := by
  have hrange : List.range 3 = [0, 1, 2] := rfl
  rw [hrange, List.foldl_cons, List.foldl_cons, List.foldl_cons, List.foldl_nil,
    bankOf_startIfSound (by rw [length_startIfSound, length_startIfSound]; omega)]
  simp only [bankOf_startIfSound (show 1 < (startIfSound s 0).banks.length by rw [length_startIfSound]; omega),
    bankOf_startIfSound (show 0 < s.banks.length by omega)]
  obtain rfl | rfl | rfl : b = 0 ∨ b = 1 ∨ b = 2 := by omega
  all_goals
    simp
    split <;> simp_all

theorem standby_left {s : State} (hup : powered s = true) (hstandby : s.pwr.standby = true) (hwake : s.pwr.wake = true) (hheld : s.held = [])
    (hlen : s.banks.length = 3) :
    To .standbyExit s fun t =>
      t.pwr.standby = false ∧ t.pwr.wake = false ∧ t.nv = s.nv
        ∧ ∀ b, b < 3 → (bankOf t b).st = if (bankOf s b).st = .failed then .failed else .starting := by
  generalize hs1 : { s with pwr := { s.pwr with standby := false, wake := false, domains := s.pwr.domains.mapIdx (wakeDomain s) } } = s1
  generalize hs2 : (List.range 3).foldl startIfSound s1 = s2
  have honly2 : LaneOnly s1 s2 := by
    rw [← hs2]
    refine foldl_keeps (P := LaneOnly s1) _ _ _ (laneOnly_refl s1) fun t b h => laneOnly_trans h ?_
    rw [LaneOnly, startIfSound_only]
  have hleave : leaveStandby s = runPending (event 0x010C 0 (seedLanes s2)) := by
    subst hs1 hs2
    rfl
  have hlane : LaneOnly s1 (leaveStandby s) := by
    rw [hleave]
    exact runPending_lane (event_lane (seedLanes_lane honly2) _ _)
  have hbanks : SameBanks s2 (leaveStandby s) := by
    rw [hleave]
    exact sameBanks_trans (seedLanes_sameBanks s2) (sameBanks_trans (sameBanks_of_banks (event_banks ..)) (runPending_sameBanks _))
  have hsts : ∀ b, b < 3 → (bankOf s2 b).st = if (bankOf s b).st = .failed then .failed else .starting := fun b hb => by
    rw [← hs2, startBanks_sts (by rw [← hs1]; exact hlen) hb, ← hs1]
    rfl
  have hone : s1.held = [] ∧ s1.nv = s.nv ∧ s1.pwr.standby = false ∧ s1.pwr.wake = false := by
    subst hs1
    exact ⟨hheld, rfl, rfl, rfl⟩
  obtain ⟨hheld1, hnv1, hstandby1, hwake1⟩ := hone
  have hexec : exec .standbyExit s = .next (serveHeld (settle s (leaveStandby s))) := if_pos (by rw [hup, hstandby, hwake]; rfl)
  generalize leaveStandby s = u at *
  have hserve : serveHeld (settle s u) = settle s u := by
    have hnone : (settle s u).held = [] := hlane.held.trans hheld1
    generalize settle s u = v at hnone
    unfold serveHeld
    rw [hnone, List.foldl_nil, ← hnone]
  rw [hserve] at hexec
  refine to_of_eq hexec ⟨hlane.standby.trans hstandby1, hlane.wake.trans hwake1, hlane.nv.trans hnv1, fun b hb => ?_⟩
  rw [← hsts b hb, ← hbanks.st b]
  rfl

/-- Settles O13. -/
theorem standbyIsEnteredAndLeft : Obligations.StandbyIsEnteredAndLeft := by
  intro s
  exact ⟨fun r h => ⟨standby_entered h, standby_waits h⟩, standby_left⟩

end Sys2Proof.Standby
end

section
/-! # A failed start test of a lane that its own slot names (O35)

The obligation's clause on a lane that fails its start test has no premise that the slot does not name that lane already, as the clause
on a rotation has. Where it does, and the slot drains for its test, the failed lane is marked DRAINING with the pair. -/
namespace Sys2Proof.LaneTests
open Sys2Proof Sys2Proof.Machine

/-- Three slots in service; slot 0 names lanes 1 and 2, and lanes 0 and 1 start for it. -/
def startingLaneNamed : State :=
  { State.reset with
    lanes := [{ st := .starting, forSlot := some 0 }, { st := .starting, forSlot := some 0 }, {}, {}, {}, {}, {}, {}]
    slots := [{ inService := true, l0 := 1, l1 := 2 }, { inService := true }, { inService := true }] }

/-- The state of lane 1 after an outcome. -/
def laneOneOf : Host.Outcome State Fault Refusal → Option LaneSt
  | .next t => some (laneOf t 1).st
  | _ => none

theorem laneStartTestDone_drains_laneOne : laneOneOf (exec (.laneStartTestDone 0 true false) startingLaneNamed) = some .draining := by
  decide +kernel

/-- Refutes O35: in `startingLaneNamed` lane 1 fails its start test, and slot 0, which names it, drains for its own test. -/
theorem not_laneTestsRotateAndDecide : ¬ Obligations.LaneTestsRotateAndDecide := by
  intro h
  obtain ⟨-, -, hfails⟩ := h.1 0 0 1 startingLaneNamed rfl rfl (by decide) (by decide) (by decide) (by decide) (by decide) rfl
  obtain ⟨t, ht, hfailed, -⟩ := hfails
  have hst := laneStartTestDone_drains_laneOne
  rw [ht] at hst
  have hdraining : (laneOf t 1).st = .draining := Option.some.inj hst
  exact absurd (hfailed.symm.trans hdraining) (by decide)

end Sys2Proof.LaneTests
end

section
/-! # Noise banks start, calibrate, are suspended and return (O36) -/
namespace Sys2Proof.NoiseBanks
open Sys2Proof Sys2Proof.Machine Sys2Proof.Told Sys2Proof.LaneWork Sys2Proof.Standby Sys2Proof.TamperResponse
open Sys2Proof.DeviceCommands (bankOf_modBank_self)

/-! ## One bank -/

theorem bankOf_modBank_ne {b c : Nat} (h : c ≠ b) (f : Bank → Bank) (s : State) : bankOf (modBank b f s) c = bankOf s c := by
  simp [bankOf, modBank, modAt, List.getD_eq_getElem?_getD, Ne.symm h]

theorem bankOf_congr {s t : State} (h : t.banks = s.banks) (c : Nat) : bankOf t c = bankOf s c := by rw [bankOf, bankOf, h]

theorem bankOf_settle (s u : State) (c : Nat) : bankOf (settle s u) c = bankOf u c := bankOf_congr (settle_banks ..) c

theorem bankOf_event (code arg : Nat) (s : State) (c : Nat) : bankOf (event code arg s) c = bankOf s c := bankOf_congr (event_banks ..) c

theorem bankOf_calibrate {b : Nat} {s : State} (h : b < s.banks.length) :
    bankOf (calibrate b s) b = { bankOf s b with st := .calibrating, deferred := false, ready := false, heldRaw := none } :=
  bankOf_modBank_self h _

theorem bankOf_calibrate_ne {b c : Nat} (h : c ≠ b) (s : State) : bankOf (calibrate b s) c = bankOf s c := bankOf_modBank_ne h _ s

theorem eq_of_marks {x y : Bank} (h : marks x = marks y) : x = { y with blocks := x.blocks, heldRaw := x.heldRaw } := by
  cases x
  cases y
  simpa [marks] using h

/-! ## What follows a change of the banks -/

theorem beginRebuild_sameBanks (p : Nat) (s : State) : SameBanks s (beginRebuild p s) := by
  unfold beginRebuild
  simp only []
  split
  · exact sameBanks_trans (t := modSlot p (fun x => { x with rebuilding := true }) s) (sameBanks_of_banks rfl)
      (sameBanks_trans (startLane_sameBanks _ _ _) (startLane_sameBanks _ _ _))
  · exact sameBanks_of_banks rfl

theorem rebuildSlots_sameBanks (s : State) : SameBanks s (rebuildSlots s) := by
  unfold rebuildSlots
  refine foldl_keeps (P := SameBanks s) _ _ _ (sameBanks_refl s) fun t p h => ?_
  simp only []
  split
  · split
    · exact sameBanks_trans h (beginRebuild_sameBanks p t)
    · split
      · exact sameBanks_trans h (sameBanks_of_banks rfl)
      · exact h
  · exact h

theorem freshWraps_sameBanks (s : State) : SameBanks s (freshWraps s) := by
  unfold freshWraps
  simp only []
  split
  · generalize hs1 : ({ s with keys := _ } : State) = s1
    have hfirst : SameBanks s s1 := sameBanks_of_banks (by rw [← hs1])
    have ha := takeSeed_sameBanks s1
    generalize takeSeed s1 = a at ha ⊢
    have hb := takeSeed_sameBanks a.2
    generalize takeSeed a.2 = b at hb ⊢
    exact sameBanks_trans hfirst (sameBanks_trans ha hb)
  · exact sameBanks_of_banks rfl

theorem engineKeys_sameBanks (s : State) : SameBanks s (engineKeys s) := by
  unfold engineKeys
  simp only []
  split
  · have ha := takeBlocks_sameBanks 4 s
    generalize takeBlocks 4 s = a at ha ⊢
    have hb := takeSeed_sameBanks a.2
    generalize takeSeed a.2 = b at hb ⊢
    exact sameBanks_trans ha hb
  · exact sameBanks_refl s

theorem engineKeys_nv (s : State) : (engineKeys s).nv = s.nv := by
  unfold engineKeys
  simp only []
  split
  · have ha : (takeBlocks 4 s).2.nv = s.nv := by rw [takeBlocks_only]
    generalize takeBlocks 4 s = a at ha ⊢
    have hb : (takeSeed a.2).2.nv = a.2.nv := by rw [takeSeed_only]
    generalize takeSeed a.2 = b at hb ⊢
    exact hb.trans ha
  · rfl

theorem drawWaiting_keeps (s : State) : SameBanks s (drawWaiting s) ∧ (drawWaiting s).nv = s.nv := by
  have hwraps : SameBanks s (if s.keys.root.isSome && !s.keys.wrapSet && !s.tamper.t3 then freshWraps s else s)
      ∧ (if s.keys.root.isSome && !s.keys.wrapSet && !s.tamper.t3 then freshWraps s else s).nv = s.nv := by
    split
    · exact ⟨freshWraps_sameBanks s, by rw [freshWraps_only]⟩
    · exact ⟨sameBanks_refl s, rfl⟩
  unfold drawWaiting
  simp only []
  generalize (if s.keys.root.isSome && !s.keys.wrapSet && !s.tamper.t3 then freshWraps s else s) = s1 at hwraps ⊢
  split
  · exact hwraps
  · exact ⟨sameBanks_trans hwraps.1 (engineKeys_sameBanks s1), (engineKeys_nv s1).trans hwraps.2⟩

section
variable {s : State} {b : Nat}

theorem calibrateNext_spares (hst : (bankOf s b).st ≠ .starting) :
    bankOf (calibrateNext s) b = bankOf s b ∧ (calibrateNext s).nv = s.nv := by
  unfold calibrateNext
  split
  · exact ⟨rfl, rfl⟩
  · split
    case h_1 c hc =>
      have hpicked := List.find?_some hc
      simp only [Bool.and_eq_true, beq_iff_eq] at hpicked
      exact ⟨bankOf_calibrate_ne (fun h => hst (by rw [h]; exact hpicked.2)) s, rfl⟩
    case h_2 => exact ⟨rfl, rfl⟩

theorem startDeferred_spares (hdeferred : (bankOf s b).deferred = false) :
    bankOf (startDeferred s) b = bankOf s b ∧ (startDeferred s).nv = s.nv := by
  unfold startDeferred
  split
  · exact ⟨rfl, rfl⟩
  · split
    case h_1 c hc =>
      obtain ⟨i, -, hi⟩ := List.exists_of_findSome?_eq_some hc
      have hpicked : (bankOf s c).deferred = true := by
        simp only [Bool.and_eq_true] at hi
        split at hi
        case isTrue h => exact Option.some.inj hi ▸ h.1.1
        case isFalse => exact absurd hi nofun
      have hne : b ≠ c := fun h => by rw [h, hpicked] at hdeferred; exact absurd hdeferred (by decide)
      exact ⟨bankOf_calibrate_ne hne _, rfl⟩
    case h_2 => exact ⟨rfl, rfl⟩

/-- A bank that neither starts nor has a calibration deferred is left alone. -/
theorem bankChanged_spares (hrun : s.lark.runWait = []) (hst : (bankOf s b).st ≠ .starting) (hdeferred : (bankOf s b).deferred = false) :
    (∃ n r, bankOf (bankChanged s) b = { bankOf s b with blocks := n, heldRaw := r }) ∧ (bankChanged s).nv = s.nv := by
  have hserve : serveRuns s = s := by
    unfold serveRuns
    rw [hrun, List.foldl_nil, ← hrun]
  obtain ⟨hdrawn, hdrawnNv⟩ := drawWaiting_keeps s
  unfold bankChanged
  rw [hserve]
  generalize drawWaiting s = s1 at *
  have hsame : SameBanks s (rebuildSlots (seedLanes s1)) :=
    sameBanks_trans hdrawn (sameBanks_trans (seedLanes_sameBanks s1) (rebuildSlots_sameBanks _))
  have hnv : (rebuildSlots (seedLanes s1)).nv = s.nv := ((rebuildSlots_lane (seedLanes_lane (laneOnly_refl s1))).nv).trans hdrawnNv
  generalize rebuildSlots (seedLanes s1) = u at *
  have hmarks := hsame b
  obtain ⟨hcal, hcalNv⟩ := calibrateNext_spares (s := u) (b := b) (by rw [hsame.st b]; exact hst)
  have hdeferred' : (bankOf (calibrateNext u) b).deferred = false := by
    rw [hcal]
    exact (congrArg Bank.deferred hmarks).trans hdeferred
  obtain ⟨hstart, hstartNv⟩ := startDeferred_spares hdeferred'
  exact ⟨⟨_, _, by rw [hstart, hcal]; exact eq_of_marks hmarks⟩, by rw [hstartNv, hcalNv, hnv]⟩

/-! ## The tamper input of a bank (R217) -/

/-- A failing bank is an input of class T2, which is noted and recorded. -/
theorem bankInput_noted (hwindow : s.tamper.window = []) (hscrap : s.lc ≠ .scrap) (b : Nat) :
    bankInput b s = event 0x0D01 (tamperArg (sensorCode .noiseBank) (unitKey (.bank b)).2 2)
      (noted { sensor := .noiseBank, reading := .attack, unit := .bank b, quiet := false } true (windowFresh s) s) := by
  rw [bankInput, raiseInput, senseInput_alone id (c := .t2) (counts := true) rfl hscrap hwindow rfl]
  rfl

theorem bankInput_keeps (hwindow : s.tamper.window = []) (hscrap : s.lc ≠ .scrap) (b : Nat) :
    (bankInput b s).banks = s.banks ∧ (bankInput b s).nv = s.nv ∧ (bankInput b s).lark = s.lark ∧ (bankInput b s).opsec = s.opsec := by
  rw [bankInput_noted hwindow hscrap, event_only]
  exact ⟨rfl, rfl, rfl, rfl⟩

/-- The streams that fail are noted in the bank (R222), and recorded. -/
theorem healthFails_only (b : Nat) (streams : BitVec 32) (prop : Bool) (s : State) :
    healthFails b streams prop s = { s with
      banks := modAt s.banks b (fun x => { x with streams := x.streams ||| streams })
      ev := (healthFails b streams prop s).ev, pmon := (healthFails b streams prop s).pmon } := by
  unfold healthFails
  refine foldl_keeps (P := fun t : State => t = { s with
    banks := modAt s.banks b (fun x => { x with streams := x.streams ||| streams }), ev := t.ev, pmon := t.pmon }) _ _ _ rfl fun t i h => ?_
  split
  · rw [event_only, h]
  · exact h

theorem failing_keeps (hwindow : s.tamper.window = []) (hscrap : s.lc ≠ .scrap) (b : Nat) (streams : BitVec 32) (prop : Bool) :
    (bankInput b (healthFails b streams prop s)).banks = modAt s.banks b (fun x => { x with streams := x.streams ||| streams })
      ∧ (bankInput b (healthFails b streams prop s)).nv = s.nv ∧ (bankInput b (healthFails b streams prop s)).lark = s.lark
      ∧ (bankInput b (healthFails b streams prop s)).opsec = s.opsec := by
  have honly := healthFails_only b streams prop s
  have h := bankInput_keeps (s := healthFails b streams prop s) (by rw [honly]; exact hwindow) (by rw [honly]; exact hscrap) b
  obtain ⟨hbanks, hnv, hlark, hopsec⟩ := h
  exact ⟨by rw [hbanks, honly], by rw [hnv, honly], by rw [hlark, honly], by rw [hopsec, honly]⟩

theorem bankAnswer_unasked (h : (bankOf s b).wantCal = false) (fail : Bool) : bankAnswer b fail s = s := by
  rw [bankAnswer, h]
  rfl

/-! ## A bank dies or is suspended (R216, R217) -/

theorem bankDies_keeps (hb : b < s.banks.length) :
    bankOf (bankDies b s) b = { bankOf s b with st := .failed, credited := false, deferred := false, ready := false, heldRaw := none }
      ∧ (bankDies b s).nv = s.nv ∧ (bankDies b s).lark = s.lark := by
  rw [bankDies, event_only]
  exact ⟨bankOf_modBank_self hb _, rfl, rfl⟩

/-- What suspension makes of a bank. -/
def suspended (x : Bank) (opsec : Nat) : Bank :=
  { x with st := .suspended, credited := false, deferred := false, heldRaw := none, suspOpsec := opsec, entries := x.entries ++ [opsec] }

/-- The suspended bank, recorded (R417). -/
def suspension (b : Nat) (s : State) : State :=
  aer 0 .correctedInternal (eventX 0x0402 b (le 2 (bankOf s b).bound) (modBank b (fun x => suspended x s.opsec) s))

theorem suspendBank_eq (b : Nat) (s : State) :
    suspendBank b s = if 3 ≤ bankFails (suspension b s) b ∨ 3 ≤ (bankOf (suspension b s) b).low then bankDies b (suspension b s)
      else suspension b s := rfl

theorem suspension_keeps (hb : b < s.banks.length) :
    bankOf (suspension b s) b = suspended (bankOf s b) s.opsec ∧ (suspension b s).nv = s.nv ∧ (suspension b s).lark = s.lark
      ∧ (suspension b s).opsec = s.opsec ∧ (suspension b s).banks.length = s.banks.length := by
  rw [suspension, aer_only, eventX_only]
  exact ⟨bankOf_modBank_self hb _, rfl, rfl, rfl, List.length_modify ..⟩

/-- A failure counts for an hour; the third one in it ends the bank. -/
def failsAgain (x : Bank) (opsec : Nat) : Prop := 2 ≤ (x.entries.filter fun e => opsec < e + 3600).length ∨ 3 ≤ x.low

theorem bankFails_suspension (hb : b < s.banks.length) :
    bankFails (suspension b s) b = ((bankOf s b).entries.filter fun e => s.opsec < e + 3600).length + 1 := by
  obtain ⟨hbank, -, -, hopsec, -⟩ := suspension_keeps hb
  rw [bankFails, hbank, hopsec]
  simp [suspended]

theorem suspendBank_keeps (hb : b < s.banks.length) :
    ((bankOf (suspendBank b s) b).st = .failed ↔ failsAgain (bankOf s b) s.opsec)
      ∧ ((bankOf (suspendBank b s) b).st = .suspended ∨ (bankOf (suspendBank b s) b).st = .failed)
      ∧ (bankOf (suspendBank b s) b).credited = false ∧ (bankOf (suspendBank b s) b).deferred = false
      ∧ (bankOf (suspendBank b s) b).wantCal = (bankOf s b).wantCal ∧ (bankOf (suspendBank b s) b).streams = (bankOf s b).streams
      ∧ (bankOf (suspendBank b s) b).entries = (bankOf s b).entries ++ [s.opsec]
      ∧ (suspendBank b s).nv = s.nv ∧ (suspendBank b s).lark = s.lark := by
  obtain ⟨hbank, hnv, hlark, -, hlength⟩ := suspension_keeps hb
  have hfails : (3 ≤ bankFails (suspension b s) b ∨ 3 ≤ (bankOf (suspension b s) b).low) ↔ failsAgain (bankOf s b) s.opsec := by
    rw [bankFails_suspension hb, hbank, failsAgain]
    simp only [suspended]
    omega
  rw [suspendBank_eq]
  split
  case isTrue h =>
    obtain ⟨hdead, hdeadNv, hdeadLark⟩ := bankDies_keeps (s := suspension b s) (b := b) (by rw [hlength]; exact hb)
    rw [hdead, hbank, hdeadNv, hdeadLark]
    exact ⟨⟨fun _ => hfails.mp h, fun _ => rfl⟩, .inr rfl, rfl, rfl, rfl, rfl, rfl, hnv, hlark⟩
  case isFalse h =>
    rw [hbank]
    exact ⟨⟨fun hst => absurd hst (by simp [suspended]), fun hf => absurd (hfails.mpr hf) h⟩, .inl rfl, rfl, rfl, rfl, rfl, rfl, hnv, hlark⟩

/-! ## The start-up test (R214) -/

theorem startupTest_passes {streams : BitVec 32} {prop : Bool} (hb : b < 3) (hlen : s.banks.length = 3) (hst : (bankOf s b).st = .starting)
    (hfree : bankCalibrating s = false) (hready : ∀ c, c ≠ b → (bankOf s c).ready = false) :
    To (.nbStartupTestDone b true streams prop) s fun t => (bankOf t b).st = .calibrating ∧ t.nv = s.nv := by
  have hlt : b < s.banks.length := by omega
  have hself := bankOf_modBank_self hlt fun x => { x with ready := true }
  have hidle : bankCalibrating (modBank b (fun x => { x with ready := true }) s) = false := by
    rw [bankCalibrating, List.any_eq_false] at hfree ⊢
    intro x hx
    obtain ⟨i, hi, rfl⟩ := List.mem_iff_getElem.mp hx
    simp only [modBank, modAt, List.length_modify] at hi
    have hold := hfree _ (List.getElem_mem hi)
    simp only [modBank, modAt, List.getElem_modify]
    split <;> exact hold
  have hfind : [0, 1, 2].find? (fun c => (bankOf (modBank b (fun x => { x with ready := true }) s) c).ready
      && (bankOf (modBank b (fun x => { x with ready := true }) s) c).st == .starting) = some b := by
    have hother : ∀ c, c ≠ b → (bankOf (modBank b (fun x => { x with ready := true }) s) c).ready = false := fun c hc => by
      rw [bankOf_modBank_ne hc, hready c hc]
    obtain rfl | rfl | rfl : b = 0 ∨ b = 1 ∨ b = 2 := by omega
    · simp [hself, hst]
    · simp [hself, hst, hother 0]
    · simp [hself, hst, hother 0, hother 1]
  have hexec : exec (.nbStartupTestDone b true streams prop) s
      = .next (settle s (calibrateNext (modBank b (fun x => { x with ready := true }) s))) := if_pos (beq_iff_eq.mpr hst)
  have hlength : b < (modBank b (fun x => { x with ready := true }) s).banks.length := by simpa [modBank, modAt] using hlt
  have hnv : (modBank b (fun x => { x with ready := true }) s).nv = s.nv := rfl
  generalize modBank b (fun x => { x with ready := true }) s = u at *
  have hcal : calibrateNext u = calibrate b u := by
    rw [calibrateNext, hidle, hfind]
    rfl
  rw [hcal] at hexec
  exact ⟨_, hexec, by rw [bankOf_settle, bankOf_calibrate hlength], by rw [settle_nv]; exact hnv⟩

theorem startupTest_waits {streams : BitVec 32} {prop : Bool} (hlt : b < s.banks.length) (hst : (bankOf s b).st = .starting)
    (hbusy : bankCalibrating s = true) :
    To (.nbStartupTestDone b true streams prop) s fun t => (bankOf t b).st = .starting ∧ (bankOf t b).ready = true ∧ t.nv = s.nv := by
  have hself := bankOf_modBank_self hlt fun x => { x with ready := true }
  have hstill : bankCalibrating (modBank b (fun x => { x with ready := true }) s) = true := by
    rw [bankCalibrating, List.any_eq_true] at hbusy ⊢
    obtain ⟨x, hx, hcal⟩ := hbusy
    obtain ⟨i, hi, rfl⟩ := List.mem_iff_getElem.mp hx
    have hi' : i < (modBank b (fun x => { x with ready := true }) s).banks.length := by simpa [modBank, modAt] using hi
    refine ⟨_, List.getElem_mem hi', ?_⟩
    simp only [modBank, modAt, List.getElem_modify]
    split <;> exact hcal
  have hexec : exec (.nbStartupTestDone b true streams prop) s
      = .next (settle s (calibrateNext (modBank b (fun x => { x with ready := true }) s))) := if_pos (beq_iff_eq.mpr hst)
  rw [calibrateNext, if_pos hstill] at hexec
  refine ⟨_, hexec, ?_, ?_, settle_nv ..⟩ <;> rw [bankOf_settle, hself]
  exact hst

theorem startupTest_repeats {streams : BitVec 32} {prop : Bool} (hlt : b < s.banks.length) (hst : (bankOf s b).st = .starting)
    (hwindow : s.tamper.window = []) (hscrap : s.lc ≠ .scrap) (hfirst : (bankOf s b).retry = false) :
    To (.nbStartupTestDone b false streams prop) s fun t => (bankOf t b).st = .starting ∧ (bankOf t b).retry = true ∧ t.nv = s.nv := by
  have hexec : exec (.nbStartupTestDone b false streams prop) s
      = .next (settle s (modBank b (fun x => { x with retry := true }) (bankInput b (healthFails b streams prop s)))) := by
    show execNbStartupTestDone b false streams prop s = _
    rw [execNbStartupTestDone, if_pos (beq_iff_eq.mpr hst)]
    simp only [hfirst, Bool.false_eq_true, if_false]
  obtain ⟨hbanks, hnv, -, -⟩ := failing_keeps hwindow hscrap b streams prop
  generalize bankInput b (healthFails b streams prop s) = u at *
  have hu : bankOf u b = { bankOf s b with streams := (bankOf s b).streams ||| streams } :=
    (bankOf_congr (t := u) (s := modBank b _ s) hbanks b).trans (bankOf_modBank_self hlt _)
  have hself := bankOf_modBank_self (b := b) (s := u) (by rw [hbanks]; simpa [modAt] using hlt) fun x => { x with retry := true }
  rw [hu] at hself
  exact ⟨_, hexec, by rw [bankOf_settle, hself]; exact hst, by rw [bankOf_settle, hself], (settle_nv ..).trans hnv⟩

theorem startupTest_fails {streams : BitVec 32} {prop : Bool} (hlt : b < s.banks.length) (hst : (bankOf s b).st = .starting)
    (hrun : s.lark.runWait = []) (hwant : (bankOf s b).wantCal = false)
    (hwindow : s.tamper.window = []) (hscrap : s.lc ≠ .scrap) (hsecond : (bankOf s b).retry = true) :
    To (.nbStartupTestDone b false streams prop) s fun t =>
      (bankOf t b).st = .failed ∧ (bankOf t b).credited = false ∧ t.nv = s.nv := by
  have hexec : exec (.nbStartupTestDone b false streams prop) s
      = .next (settle s (bankChanged (bankAnswer b true (bankDies b (bankInput b (healthFails b streams prop s)))))) := by
    show execNbStartupTestDone b false streams prop s = _
    rw [execNbStartupTestDone, if_pos (beq_iff_eq.mpr hst)]
    simp only [hsecond, if_true, Bool.false_eq_true, if_false]
  obtain ⟨hbanks, hnv, hlark, -⟩ := failing_keeps hwindow hscrap b streams prop
  generalize bankInput b (healthFails b streams prop s) = u at *
  have hu : bankOf u b = { bankOf s b with streams := (bankOf s b).streams ||| streams } :=
    (bankOf_congr (t := u) (s := modBank b _ s) hbanks b).trans (bankOf_modBank_self hlt _)
  obtain ⟨hdead, hdeadNv, hdeadLark⟩ := bankDies_keeps (s := u) (b := b) (by rw [hbanks]; simpa [modAt] using hlt)
  rw [hu] at hdead
  generalize bankDies b u = v at *
  rw [bankAnswer_unasked (by rw [hdead]; exact hwant)] at hexec
  obtain ⟨⟨n, r, hbankOf⟩, hchangedNv⟩ := bankChanged_spares (s := v) (b := b) (by rw [hdeadLark, hlark, hrun]) (by rw [hdead]; exact nofun) (by rw [hdead])
  rw [hdead] at hbankOf
  refine to_of_eq hexec ⟨?_, ?_, by rw [settle_nv, hchangedNv, hdeadNv, hnv]⟩ <;> rw [bankOf_settle, hbankOf]

/-! ## The calibration (R215) -/

/-- What a calibration notes in the bank. -/
def calibrated (bound : Nat) (s : State) (x : Bank) : Bank :=
  { x with
    bound := bound, calOpsec := s.opsec, calTemp := s.pwr.tempNow, streams := 0
    low := if decide (450 ≤ bound) then 0 else x.low + 1 }

theorem calibration_runs (bound : Nat) (hst : (bankOf s b).st = .calibrating) :
    exec (.nbCalibrationDone b bound) s = .next (settle s (bankChanged (bankAnswer b (!decide (450 ≤ bound))
      (if decide (450 ≤ bound) then bankServes b (modBank b (calibrated bound s) s)
        else suspendBank b (bankInput b (modBank b (calibrated bound s) s)))))) :=
  if_pos (beq_iff_eq.mpr hst)

theorem calibration_serves {bound : Nat} (hlt : b < s.banks.length) (hst : (bankOf s b).st = .calibrating)
    (hrun : s.lark.runWait = []) (hwant : (bankOf s b).wantCal = false) (hdeferred : (bankOf s b).deferred = false) (hgood : 450 ≤ bound) :
    To (.nbCalibrationDone b bound) s fun t =>
      (bankOf t b).st = .serving ∧ (bankOf t b).credited = true ∧ (bankOf t b).bound = bound ∧ (bankOf t b).calOpsec = s.opsec
        ∧ (bankOf t b).calTemp = s.pwr.tempNow ∧ (bankOf t b).low = 0 ∧ t.nv = s.nv := by
  have hexec := calibration_runs bound hst
  rw [if_pos (decide_eq_true hgood)] at hexec
  have hbank : bankOf (bankServes b (modBank b (calibrated bound s) s)) b
      = { calibrated bound s (bankOf s b) with st := .serving, credited := true, heldRaw := some (Config.raw s.free) } := by
    have hone := bankOf_modBank_self hlt (calibrated bound s)
    rw [← hone]
    exact bankOf_modBank_self (s := modBank b (calibrated bound s) s) (by simpa [modBank, modAt] using hlt) _
  have hkept : (bankServes b (modBank b (calibrated bound s) s)).nv = s.nv
      ∧ (bankServes b (modBank b (calibrated bound s) s)).lark = s.lark := ⟨rfl, rfl⟩
  generalize bankServes b (modBank b (calibrated bound s) s) = v at *
  rw [bankAnswer_unasked (by rw [hbank]; exact hwant)] at hexec
  obtain ⟨⟨n, r, hbankOf⟩, hnv⟩ := bankChanged_spares (s := v) (b := b) (by rw [hkept.2, hrun]) (by rw [hbank]; exact nofun) (by rw [hbank]; exact hdeferred)
  rw [hbank] at hbankOf
  have hlow : (calibrated bound s (bankOf s b)).low = 0 := by simp [calibrated, hgood]
  refine to_of_eq hexec ?_
  rw [bankOf_settle, settle_nv, hnv, hbankOf]
  exact ⟨rfl, rfl, rfl, rfl, rfl, hlow, hkept.1⟩

theorem calibration_suspends {bound : Nat} (hlt : b < s.banks.length) (hst : (bankOf s b).st = .calibrating)
    (hrun : s.lark.runWait = []) (hwant : (bankOf s b).wantCal = false)
    (hwindow : s.tamper.window = []) (hscrap : s.lc ≠ .scrap) (hbad : bound < 450) :
    To (.nbCalibrationDone b bound) s fun t =>
      ((bankOf t b).st = .suspended ∨ (bankOf t b).st = .failed) ∧ (bankOf t b).credited = false
        ∧ ((2 ≤ (bankOf s b).low ∨ 2 ≤ ((bankOf s b).entries.filter fun e => s.opsec < e + 3600).length) ↔ (bankOf t b).st = .failed)
        ∧ t.nv = s.nv := by
  have hnot : decide (450 ≤ bound) = false := decide_eq_false (by omega)
  have hexec := calibration_runs bound hst
  rw [hnot, if_neg Bool.false_ne_true] at hexec
  obtain ⟨hbanks, hnv, hlark, hopsec⟩ := bankInput_keeps (s := modBank b (calibrated bound s) s) hwindow hscrap b
  generalize bankInput b (modBank b (calibrated bound s) s) = u at *
  have hu : bankOf u b = calibrated bound s (bankOf s b) := (bankOf_congr hbanks b).trans (bankOf_modBank_self hlt _)
  obtain ⟨hfails, hst', hcredited, hdeferred', hwant', -, -, hnv', hlark'⟩ :=
    suspendBank_keeps (s := u) (b := b) (by rw [hbanks]; simpa [modBank, modAt] using hlt)
  generalize suspendBank b u = v at *
  rw [bankAnswer_unasked (by rw [hwant', hu]; exact hwant)] at hexec
  obtain ⟨⟨n, r, hbankOf⟩, hchangedNv⟩ := bankChanged_spares (s := v) (b := b) (by rw [hlark', hlark]; exact hrun)
    (by rcases hst' with h | h <;> rw [h] <;> exact nofun) hdeferred'
  have hlow : failsAgain (bankOf u b) u.opsec
      ↔ 2 ≤ (bankOf s b).low ∨ 2 ≤ ((bankOf s b).entries.filter fun e => s.opsec < e + 3600).length := by
    rw [hu, hopsec, failsAgain]
    have hsecond : (modBank b (calibrated bound s) s).opsec = s.opsec := rfl
    simp only [calibrated, hnot, Bool.false_eq_true, if_false, hsecond]
    omega
  refine to_of_eq hexec ?_
  rw [bankOf_settle, settle_nv, hbankOf, hchangedNv, hnv', hnv]
  exact ⟨hst', hcredited, (hfails.trans hlow).symm, rfl⟩

/-! ## Failures in service, and the return (R212, R216) -/

theorem healthFail_suspends {stream : Nat} (prop : Bool) (hlt : b < s.banks.length) (hrun : s.lark.runWait = [])
    (hwindow : s.tamper.window = []) (hscrap : s.lc ≠ .scrap) (hstream : stream < 32)
    (hst : (bankOf s b).st = .serving ∨ (bankOf s b).st = .calibrating) (hwant : (bankOf s b).wantCal = false) :
    To (.nbHealthFail b stream prop) s fun t =>
      ((bankOf t b).st = .suspended ∨ (bankOf t b).st = .failed) ∧ (bankOf t b).credited = false
        ∧ (bankOf t b).streams.getLsbD stream = true ∧ s.opsec ∈ (bankOf t b).entries ∧ t.nv = s.nv := by
  have hexec : exec (.nbHealthFail b stream prop) s = .next (settle s (bankChanged (bankAnswer b true
      (suspendBank b (bankInput b (healthFails b (1#32 <<< stream) prop s)))))) := by
    show execNbHealthFail b stream prop s = _
    rcases hst with h | h <;> (unfold execNbHealthFail; rw [h])
  obtain ⟨hbanks, hnv, hlark, hopsec⟩ := failing_keeps hwindow hscrap b (1#32 <<< stream) prop
  generalize bankInput b (healthFails b (1#32 <<< stream) prop s) = u at *
  have hu : bankOf u b = { bankOf s b with streams := (bankOf s b).streams ||| 1#32 <<< stream } :=
    (bankOf_congr (t := u) (s := modBank b _ s) hbanks b).trans (bankOf_modBank_self hlt _)
  obtain ⟨-, hst', hcredited, hdeferred', hwant', hstreams, hentries, hnv', hlark'⟩ :=
    suspendBank_keeps (s := u) (b := b) (by rw [hbanks]; simpa [modAt] using hlt)
  generalize suspendBank b u = v at *
  rw [bankAnswer_unasked (by rw [hwant', hu]; exact hwant)] at hexec
  obtain ⟨⟨n, r, hbankOf⟩, hchangedNv⟩ := bankChanged_spares (s := v) (b := b) (by rw [hlark', hlark]; exact hrun)
    (by rcases hst' with h | h <;> rw [h] <;> exact nofun) hdeferred'
  refine to_of_eq hexec ?_
  rw [bankOf_settle, settle_nv, hbankOf, hchangedNv, hnv', hnv]
  refine ⟨hst', hcredited, ?_, ?_, rfl⟩
  · simp [hstreams, hu, hstream]
  · simp [hentries, hopsec]

theorem restart_starts (hlt : b < s.banks.length) (hst : (bankOf s b).st = .suspended) (hdue : (bankOf s b).suspOpsec + 60 ≤ s.opsec) :
    To (.nbRestart b) s fun t =>
      (bankOf t b).st = .starting ∧ (bankOf t b).retry = false ∧ (∀ c, c ≠ b → bankOf t c = bankOf s c) ∧ t.nv = s.nv := by
  have hexec : exec (.nbRestart b) s = .next (settle s (startBank b s)) := if_pos (by simp [hst, hdue])
  have hself : bankOf (startBank b s) b = { bankOf s b with st := .starting, retry := false, ready := false } := bankOf_modBank_self hlt _
  refine ⟨_, hexec, by rw [bankOf_settle, hself], by rw [bankOf_settle, hself], fun c hc => ?_, settle_nv ..⟩
  rw [bankOf_settle]
  exact bankOf_modBank_ne hc _ s

/-! ## Calibrations that are due (R215) -/

theorem calibrationDue_begins (hlt : b < s.banks.length) (hst : (bankOf s b).st = .serving) (hothers : 2 ≤ othersServing s b) :
    (bankOf (calibrationDue b s) b).st = .calibrating ∧ (∀ c, c ≠ b → bankOf (calibrationDue b s) c = bankOf s c)
      ∧ (calibrationDue b s).nv = s.nv ∧ (calibrationDue b s).pwr = s.pwr := by
  rw [calibrationDue, if_pos hst, if_pos hothers]
  exact ⟨congrArg Bank.st (bankOf_calibrate (s := { s with lark := { s.lark with calTurn := (b + 1) % 3 } }) hlt),
    fun c hc => bankOf_calibrate_ne hc _, rfl, rfl⟩

theorem calibrationDue_deferred (hlt : b < s.banks.length) (hst : (bankOf s b).st = .serving) (hothers : othersServing s b < 2) :
    (bankOf (calibrationDue b s) b).st = .serving ∧ (bankOf (calibrationDue b s) b).deferred = true
      ∧ (∀ c, c ≠ b → bankOf (calibrationDue b s) c = bankOf s c) ∧ (calibrationDue b s).nv = s.nv ∧ (calibrationDue b s).pwr = s.pwr := by
  have hself := bankOf_modBank_self hlt fun x => { x with deferred := true }
  rw [calibrationDue, if_pos hst, if_neg (by omega)]
  refine ⟨?_, ?_, fun c hc => ?_, event_nv .., event_pwr ..⟩ <;> rw [bankOf_event]
  · rw [hself]; exact hst
  · rw [hself]
  · exact bankOf_modBank_ne hc _ s

theorem calPeriodic_runs (hturn : calTurnBank s = some b) : exec (.calPeriodic b) s = .next (settle s (calibrationDue b s)) := if_pos hturn

theorem calTemperature_runs {temp : Nat} (hserved : served s = true)
    (hfar : temp + 20 < (bankOf s b).calTemp ∨ (bankOf s b).calTemp + 20 < temp) :
    exec (.calTemperature b temp) s = .next (settle s (calibrationDue b (noteTemp temp s))) :=
  if_pos (by simp [hserved, hfar])

theorem calPeriodic_acts (hlt : b < s.banks.length) (hst : (bankOf s b).st = .serving) (hturn : calTurnBank s = some b) :
    (2 ≤ othersServing s b →
      To (.calPeriodic b) s fun t => (bankOf t b).st = .calibrating ∧ (∀ c, c ≠ b → bankOf t c = bankOf s c) ∧ t.nv = s.nv)
    ∧ (othersServing s b < 2 →
      To (.calPeriodic b) s fun t =>
        (bankOf t b).st = .serving ∧ (bankOf t b).deferred = true ∧ (∀ c, c ≠ b → bankOf t c = bankOf s c) ∧ t.nv = s.nv) := by
  refine ⟨fun h => ⟨_, calPeriodic_runs hturn, ?_⟩, fun h => ⟨_, calPeriodic_runs hturn, ?_⟩⟩ <;>
    simp only [bankOf_settle, settle_nv]
  · obtain ⟨hcal, hne, hnv, -⟩ := calibrationDue_begins hlt hst h
    exact ⟨hcal, hne, hnv⟩
  · obtain ⟨hserving, hdeferred, hne, hnv, -⟩ := calibrationDue_deferred hlt hst h
    exact ⟨hserving, hdeferred, hne, hnv⟩

theorem calTemperature_acts {temp : Nat} (hlt : b < s.banks.length) (hst : (bankOf s b).st = .serving) (hserved : served s = true)
    (hfar : temp + 20 < (bankOf s b).calTemp ∨ (bankOf s b).calTemp + 20 < temp) :
    (2 ≤ othersServing s b →
      To (.calTemperature b temp) s fun t =>
        (bankOf t b).st = .calibrating ∧ t.pwr.tempNow = temp ∧ (∀ c, c ≠ b → bankOf t c = bankOf s c) ∧ t.nv = s.nv)
    ∧ (othersServing s b < 2 →
      To (.calTemperature b temp) s fun t =>
        (bankOf t b).st = .serving ∧ (bankOf t b).deferred = true ∧ t.pwr.tempNow = temp
          ∧ (∀ c, c ≠ b → bankOf t c = bankOf s c) ∧ t.nv = s.nv) := by
  refine ⟨fun h => ⟨_, calTemperature_runs hserved hfar, ?_⟩, fun h => ⟨_, calTemperature_runs hserved hfar, ?_⟩⟩ <;>
    simp only [bankOf_settle, settle_nv, settle_pwr]
  · obtain ⟨hcal, hne, hnv, hpwr⟩ := calibrationDue_begins (s := noteTemp temp s) hlt hst h
    exact ⟨hcal, by rw [hpwr, noteTemp], hne, hnv⟩
  · obtain ⟨hserving, hdeferred, hne, hnv, hpwr⟩ := calibrationDue_deferred (s := noteTemp temp s) hlt hst h
    exact ⟨hserving, hdeferred, by rw [hpwr, noteTemp], hne, hnv⟩

theorem calTemperature_near {temp : Nat} (hlow : temp ≤ (bankOf s b).calTemp + 20) (hhigh : (bankOf s b).calTemp ≤ temp + 20) :
    exec (.calTemperature b temp) s
      = .next { s with pwr := { s.pwr with tempNow := temp, tempMax := max s.pwr.tempMax temp } } := by
  refine if_neg ?_
  simp only [Bool.and_eq_true, Bool.or_eq_true, decide_eq_true_eq]
  omega

end

/-- Settles O36. -/
theorem noiseBanksFollowTheirTests : Obligations.NoiseBanksFollowTheirTests := by
  refine ⟨fun b s hb hlen hrun hdeferred hwant hwindow hscrap => ?_, fun b s hb hlen hrun hwindow hscrap => ?_⟩
  all_goals have hlt : b < s.banks.length := by omega
  · exact ⟨fun streams prop hst => ⟨startupTest_passes hb hlen hst, startupTest_waits hlt hst, startupTest_repeats hlt hst hwindow hscrap,
        startupTest_fails hlt hst hrun hwant hwindow hscrap⟩,
      fun hst => ⟨fun bound => calibration_serves hlt hst hrun hwant hdeferred,
        fun bound => calibration_suspends hlt hst hrun hwant hwindow hscrap⟩⟩
  · exact ⟨fun stream prop hstream hst hwant => healthFail_suspends prop hlt hrun hwindow hscrap hstream hst hwant,
      restart_starts hlt,
      fun hst => ⟨calPeriodic_acts hlt hst, fun temp => calTemperature_acts hlt hst⟩,
      fun temp => calTemperature_near⟩

end Sys2Proof.NoiseBanks
end

section
/-! # Failover and LAGGARD withdraw a pair with an advance of the claim number (O33) -/
namespace Sys2Proof.PairWithdrawal
open Sys2Proof Sys2Proof.Machine Sys2Proof.Told Sys2Proof.Redundancy Sys2Proof.LaneWork Sys2Proof.TamperResponse

/-! ## The slots -/

section
variable {s : State} {p : Nat}

theorem slotOf_modSlot_self (h : p < s.slots.length) (f : Slot → Slot) : slotOf (modSlot p f s) p = f (slotOf s p) := by
  simp [slotOf, modAt, List.getD_eq_getElem?_getD, h]

theorem slotOf_modSlot_ne {k : Nat} (h : k ≠ p) (f : Slot → Slot) (s : State) : slotOf (modSlot p f s) k = slotOf s k := by
  simp [slotOf, modAt, List.getD_eq_getElem?_getD, h.symm]

theorem slotOf_congr {t : State} (h : t.slots = s.slots) (k : Nat) : slotOf t k = slotOf s k := by rw [slotOf, slotOf, h]

theorem takeSeed_slots (s : State) : (takeSeed s).2.slots = s.slots := by rw [takeSeed_only]

theorem startLane_slots (p n : Nat) (s : State) : (startLane p n s).slots = s.slots := by
  have h := takeSeed_slots s
  unfold startLane
  generalize takeSeed s = x at h ⊢
  exact h

theorem noteTest_slots (n : Nat) (pass : Bool) (s : State) : (noteTest n pass s).slots = s.slots := by
  unfold noteTest
  split
  · rfl
  · split
    · simp only []
      split <;> simp [answerTests, apply_ite State.slots]
    · rfl

theorem testLane_slots (n : Nat) (s : State) : (testLane n s).slots = s.slots := by
  unfold testLane
  split
  · split
    · rw [noteTest_slots, laneFails, aer_only, event_slots]
      rfl
    · rfl
  · rfl

theorem beginRebuild_slots (p : Nat) (s : State) : (beginRebuild p s).slots = modAt s.slots p fun x => { x with rebuilding := true } := by
  unfold beginRebuild
  simp only []
  split
  · rw [startLane_slots, startLane_slots, modSlot_slots]
  · rw [modSlot_slots]

/-! ## Results that are still in output buffers -/

/-- Every result in an output buffer was in one before. -/
def OutsWithin (s t : State) : Prop := ∀ l ∈ t.lanes, ∀ r ∈ l.out, ∃ l' ∈ s.lanes, r ∈ l'.out

theorem outsWithin_trans {t u : State} (h : OutsWithin s t) (h' : OutsWithin t u) : OutsWithin s u := fun l hl r hr =>
  let ⟨l', hl', hr'⟩ := h' l hl r hr
  h l' hl' r hr'

theorem outsWithin_of_lanes {t : State} (h : t.lanes = s.lanes) : OutsWithin s t := fun l hl _ hr => ⟨l, h ▸ hl, hr⟩

theorem outsWithin_modLane (n : Nat) {f : Lane → Lane} (hf : ∀ l, (f l).out = []) (s : State) : OutsWithin s (modLane n f s) := by
  intro l hl r hr
  obtain ⟨i, hi, rfl⟩ := List.mem_iff_getElem.mp hl
  simp only [modLane, modAt, List.length_modify] at hi
  simp only [modLane, modAt, List.getElem_modify] at hr
  split at hr
  · rw [hf] at hr
    exact absurd hr List.not_mem_nil
  · exact ⟨_, List.getElem_mem hi, hr⟩

theorem outsWithin_startLane (p n : Nat) (s : State) : OutsWithin s (startLane p n s) := by
  have h : OutsWithin s (takeSeed s).2 := outsWithin_of_lanes (takeSeed_lanes s)
  unfold startLane
  generalize takeSeed s = x at h ⊢
  exact outsWithin_trans h (outsWithin_trans (outsWithin_modLane n (fun _ => rfl) x.2) (outsWithin_of_lanes rfl))

theorem outsWithin_testLane (n : Nat) (s : State) : OutsWithin s (testLane n s) := by
  unfold testLane
  split
  · split
    · refine outsWithin_trans (t := laneFails n s) ?_ (outsWithin_of_lanes (noteTest_lanes ..))
      exact outsWithin_trans (t := modLane n _ s) (outsWithin_modLane n (fun _ => rfl) s) (outsWithin_of_lanes (laneFails_lanes n s))
    · exact outsWithin_modLane n (fun _ => rfl) s
  · exact outsWithin_of_lanes rfl

theorem outsWithin_beginRebuild (p : Nat) (s : State) : OutsWithin s (beginRebuild p s) := by
  unfold beginRebuild
  simp only []
  split
  · exact outsWithin_trans (t := modSlot p _ s) (outsWithin_of_lanes rfl)
      (outsWithin_trans (outsWithin_startLane _ _ _) (outsWithin_startLane _ _ _))
  · exact outsWithin_of_lanes rfl

/-! ## Lanes out of service -/

/-- The lane is isolated and serves no slot. -/
def OutOfService (s : State) (n : Nat) : Prop := n < s.lanes.length ∧ (laneOf s n).st ≠ .serving ∧ (laneOf s n).isolated = true

theorem outOfService_congr {t : State} {n : Nat} (h : t.lanes = s.lanes) (ho : OutOfService s n) : OutOfService t n := by
  rw [OutOfService, laneOf_congr h, h]
  exact ho

theorem outOfService_modLane {n : Nat} (m : Nat) {f : Lane → Lane} (hf : ∀ l, (f l).st ≠ .serving ∧ (f l).isolated = true)
    (h : OutOfService s n) : OutOfService (modLane m f s) n := by
  obtain ⟨hn, ho⟩ := h
  refine ⟨by simpa using hn, ?_⟩
  by_cases hm : n = m
  · subst hm
    rw [laneOf_modLane_self hn]
    exact hf _
  · rwa [laneOf_modLane_ne hm]

theorem outOfService_withdrawLane {n : Nat} {st : LaneSt} (hst : st ≠ .serving) (m : Nat) (h : OutOfService s n) :
    OutOfService (withdrawLane st m s) n := outOfService_modLane m (fun _ => ⟨hst, rfl⟩) h

theorem withdrawLane_outOfService {n : Nat} {st : LaneSt} (hst : st ≠ .serving) (hn : n < s.lanes.length) :
    OutOfService (withdrawLane st n s) n := by
  have hself := laneOf_modLane_self hn fun l => { l with st := st, isolated := true, keys := [], out := [] }
  refine ⟨by simpa [withdrawLane] using hn, ?_⟩
  rw [withdrawLane, hself]
  exact ⟨hst, rfl⟩

theorem outOfService_startLane {n : Nat} (p m : Nat) (h : OutOfService s n) : OutOfService (startLane p m s) n := by
  have hseed : OutOfService (takeSeed s).2 n := outOfService_congr (takeSeed_lanes s) h
  unfold startLane
  generalize takeSeed s = x at hseed ⊢
  exact outOfService_congr rfl (outOfService_modLane m (fun _ => ⟨nofun, rfl⟩) hseed)

theorem outOfService_testLane {n : Nat} (m : Nat) (h : OutOfService s n) : OutOfService (testLane m s) n := by
  unfold testLane
  split
  · split
    · refine outOfService_congr (s := laneFails m s) (noteTest_lanes ..) (outOfService_congr (laneFails_lanes m s) ?_)
      exact outOfService_congr rfl (outOfService_modLane m (fun _ => ⟨nofun, rfl⟩) h)
    · exact outOfService_withdrawLane (st := .testing) nofun m h
  · exact h

theorem outOfService_beginRebuild {n : Nat} (p : Nat) (h : OutOfService s n) : OutOfService (beginRebuild p s) n := by
  unfold beginRebuild
  simp only []
  split
  · exact outOfService_startLane _ _ (outOfService_startLane _ _ (outOfService_congr rfl h))
  · exact outOfService_congr rfl h

theorem outOfService_withdraw {n : Nat} (p cause : Nat) (new : Option (Nat × Nat)) (h : OutOfService s n) :
    OutOfService (withdraw p cause new s) n := by
  obtain ⟨o, ho⟩ := laneOf_withdraw p cause n new s
  rw [OutOfService, length_withdraw, ho]
  exact h

/-! ## The withdrawal -/

/-- A unit that the withdrawn pair held is taken back. -/
def back (p : Nat) (w : Work) : Work := if ofSlot p w then { w with stage := .takenBack, cost := 0 } else w

theorem ofSlot_iff (p : Nat) (w : Work) : ofSlot p w = true ↔ w.slot = p ∧ (w.stage = .dispatched ∨ w.stage = .computed) := by
  simp [ofSlot]

theorem takeBack_only (p : Nat) (s : State) :
    takeBack p s = { s with lanes := (dropResults p s).lanes, work := s.work.map (back p), pmon := (takeBack p s).pmon } := by
  simp only [takeBack, count, dropResults]
  rfl

theorem withdraw_only (p cause : Nat) (new : Option (Nat × Nat)) (s : State) :
    withdraw p cause new s = { s with
      slots := modAt s.slots p fun x => { x with claim := (x.claim + 1) % 65536, inService := false, credit := 8192 }
      lanes := (dropResults p s).lanes, work := s.work.map (back p), pmon := (withdraw p cause new s).pmon
      ev := (withdraw p cause new s).ev, free := (withdraw p cause new s).free } := by
  have hback := takeBack_only p (modSlot p (fun x => { x with claim := (x.claim + 1) % 65536, inService := false, credit := 8192 }) s)
  unfold withdraw claimEvent
  simp only []
  generalize takeBack p _ = u at hback ⊢
  rw [eventX_only, drew, hback]
  simp only [modSlot, dropResults]

theorem withdraw_lane (p cause : Nat) (new : Option (Nat × Nat)) {s t : State} (h : LaneOnly s t) :
    LaneOnly { s with work := t.work.map (back p) } (withdraw p cause new t) := by
  unfold LaneOnly at h ⊢
  rw [withdraw_only, h]

theorem quiet_back (h : quiet s = true) (p : Nat) : quiet { s with work := s.work.map (back p) } = true := by
  simp only [quiet, Bool.and_eq_true, List.all_eq_true] at h ⊢
  obtain ⟨hnone, hfill⟩ := h
  refine ⟨fun w hw => ?_, hfill⟩
  obtain ⟨v, hv, rfl⟩ := List.mem_map.mp hw
  unfold back
  split
  · rfl
  · exact hnone v hv

theorem outsWithin_withdraw (p cause : Nat) (new : Option (Nat × Nat)) (s : State) : OutsWithin (dropResults p s) (withdraw p cause new s) :=
  outsWithin_of_lanes (by rw [withdraw_only])

/-- No buffer holds a result of a unit taken back. -/
theorem dropResults_drops {l : Lane} (hl : l ∈ (dropResults p s).lanes) {r : UnitResult} (hr : r ∈ l.out) {w : Work} (hw : w ∈ s.work)
    (hof : ofSlot p w = true) : w.seq ≠ r.seq := by
  obtain ⟨l0, -, rfl⟩ := List.mem_map.mp hl
  intro heq
  have hkept := (List.mem_filter.mp hr).2
  rw [Bool.not_eq_true', List.any_eq_false] at hkept
  exact hkept w hw (by rw [hof, heq]; simp)

/-! ## The spare pair -/

theorem sparePair_congr {t : State} (hbanks : t.banks = s.banks) (hlark : t.lark = s.lark)
    (hoff : ∀ n, ((laneOf t n).st == .off) = ((laneOf s n).st == .off)) : sparePair t = sparePair s := by
  have hlanes : offLanes t = offLanes s := List.filter_congr fun n _ => hoff n
  have hcond : condUp t 1 = condUp s 1 := by rw [condUp, condUp, banksIn, banksIn, hbanks, hlark]
  rw [sparePair, sparePair, hlanes, hcond]

theorem sparePair_lanes {x y : Nat} (h : sparePair s = some (x, y)) : x < 8 ∧ y < 8 ∧ x ≠ y := by
  have hnodup : (offLanes s).Nodup := List.nodup_range.filter _
  have hlt : ∀ m ∈ offLanes s, m < 8 := fun m hm => List.mem_range.mp (List.mem_filter.mp hm).1
  unfold sparePair at h
  split at h
  case isTrue =>
    split at h
    case h_1 hlist =>
      obtain ⟨rfl, rfl⟩ : _ = x ∧ _ = y := by simpa using h
      rw [hlist] at hnodup
      exact ⟨hlt _ (by simp [hlist]), hlt _ (by simp [hlist]), fun h => (List.nodup_cons.mp hnodup).1 (by simp [h])⟩
    case h_2 => exact absurd h nofun
  case isFalse => exact absurd h nofun

theorem laneOf_startLane_self {n : Nat} (h : n < s.lanes.length) (p : Nat) :
    (laneOf (startLane p n s) n).st = .starting ∧ (laneOf (startLane p n s) n).forSlot = some p := by
  have hlanes := takeSeed_lanes s
  unfold startLane
  generalize takeSeed s = x at hlanes ⊢
  rw [laneOf_congr (laneDomains_lanes ..), laneOf_modLane_self (by rw [hlanes]; exact h)]
  exact ⟨rfl, rfl⟩

/-- With two lanes OFF and a seed to be had, these start for the slot. -/
theorem beginRebuild_starts {x y : Nat} (h : sparePair s = some (x, y)) (hlen : s.lanes.length = 8) (p : Nat) :
    (laneOf (beginRebuild p s) x).st = .starting ∧ (laneOf (beginRebuild p s) y).st = .starting
      ∧ (laneOf (beginRebuild p s) x).forSlot = some p ∧ (laneOf (beginRebuild p s) y).forSlot = some p := by
  obtain ⟨hx, hy, hne⟩ := sparePair_lanes h
  have hrebuild : beginRebuild p s = startLane p y (startLane p x (modSlot p (fun x => { x with rebuilding := true }) s)) := by
    unfold beginRebuild
    rw [h]
  rw [hrebuild]
  obtain ⟨hxst, hxfor⟩ := laneOf_startLane_self (s := modSlot p (fun x => { x with rebuilding := true }) s) (n := x) (by rw [modSlot_lanes]; omega) p
  have hlength : (startLane p x (modSlot p (fun x => { x with rebuilding := true }) s)).lanes.length = 8 := by
    rw [startLane, laneDomains_lanes, modLane_lanes, length_modAt, takeSeed_lanes, modSlot_lanes, hlen]
  generalize startLane p x (modSlot p (fun x => { x with rebuilding := true }) s) = u at *
  obtain ⟨hyst, hyfor⟩ := laneOf_startLane_self (s := u) (n := y) (by omega) p
  rw [laneOf_startLane_ne hne]
  exact ⟨hxst, hyst, hxfor, hyfor⟩

/-! ## FAILOVER (R196, R199, R200) -/

/-- ARG of the event of a failover (R415). -/
def failCode : FailCause → Nat
  | .mismatch => 0
  | .laneError => 1
  | .laser => 2

/-- The pair that fails, suspect. -/
def suspectPair (p : Nat) (cause : FailCause) (s : State) : State :=
  withdrawLane .suspect (slotOf s p).l1 (withdrawLane .suspect (slotOf s p).l0 (event 0x0C01 (p + 16 * failCode cause) s))

/-- The pair withdrawn, and the slot rebuilt where it can be. -/
def replaced (p : Nat) (cause : FailCause) (s : State) : State :=
  beginRebuild p (withdraw p 0 (sparePair s) (suspectPair p cause s))

theorem failover_alone (cause : FailCause) (h : lanesFor s p = []) :
    failover p cause s = if (sparePair s).isSome then replaced p cause s
      else testLane (slotOf s p).l1 (testLane (slotOf s p).l0 (replaced p cause s)) := by
  unfold failover
  rw [h]
  cases cause <;> rfl

theorem suspectPair_only (p : Nat) (cause : FailCause) (s : State) :
    suspectPair p cause s = { s with
      lanes := (suspectPair p cause s).lanes, ev := (suspectPair p cause s).ev, pmon := (suspectPair p cause s).pmon } := by
  unfold suspectPair
  rw [event_only]
  rfl

theorem outsWithin_suspectPair (p : Nat) (cause : FailCause) (s : State) : OutsWithin s (suspectPair p cause s) :=
  outsWithin_trans (outsWithin_of_lanes (event_lanes ..))
    (outsWithin_trans (outsWithin_modLane _ (fun _ => rfl) _) (outsWithin_modLane _ (fun _ => rfl) _))

theorem length_suspectPair (p : Nat) (cause : FailCause) (s : State) : (suspectPair p cause s).lanes.length = s.lanes.length := by
  simp [suspectPair, withdrawLane]

theorem suspectPair_outOfService (cause : FailCause) (h0 : (slotOf s p).l0 < s.lanes.length) (h1 : (slotOf s p).l1 < s.lanes.length) :
    OutOfService (suspectPair p cause s) (slotOf s p).l0 ∧ OutOfService (suspectPair p cause s) (slotOf s p).l1 := by
  have hlen : ∀ arg, (event 0x0C01 arg s).lanes.length = s.lanes.length := fun arg => by rw [event_lanes]
  unfold suspectPair
  exact ⟨outOfService_withdrawLane (st := .suspect) nofun _ (withdrawLane_outOfService (st := .suspect) nofun (by rw [hlen]; exact h0)),
    withdrawLane_outOfService (st := .suspect) nofun (by simpa [withdrawLane, hlen] using h1)⟩

/-- A lane is OFF after the pair became suspect where it was OFF before. -/
theorem suspectPair_off (cause : FailCause) (h0 : (slotOf s p).l0 < s.lanes.length) (h1 : (slotOf s p).l1 < s.lanes.length)
    (hs0 : (laneOf s (slotOf s p).l0).st = .serving) (hs1 : (laneOf s (slotOf s p).l1).st = .serving) (n : Nat) :
    ((laneOf (suspectPair p cause s) n).st == .off) = ((laneOf s n).st == .off) := by
  have hone : ∀ (m : Nat) (u : State), (laneOf u m).st ≠ .off → m < u.lanes.length →
      ((laneOf (withdrawLane .suspect m u) n).st == .off) = ((laneOf u n).st == .off) := fun m u hu hm => by
    by_cases hn : n = m
    · subst hn
      rw [withdrawLane, laneOf_modLane_self hm]
      exact (beq_eq_false_iff_ne.mpr hu).symm
    · rw [withdrawLane, laneOf_modLane_ne hn]
  have hevent := laneOf_congr (event_lanes 0x0C01 (p + 16 * failCode cause) s)
  have hl1 : (laneOf (withdrawLane .suspect (slotOf s p).l0 (event 0x0C01 (p + 16 * failCode cause) s)) (slotOf s p).l1).st ≠ .off := by
    by_cases hsame : (slotOf s p).l1 = (slotOf s p).l0
    · rw [hsame, withdrawLane, laneOf_modLane_self (by rw [event_lanes]; exact h0)]
      exact nofun
    · rw [withdrawLane, laneOf_modLane_ne hsame, hevent, hs1]
      exact nofun
  unfold suspectPair
  rw [hone _ _ hl1 (by simpa [withdrawLane] using h1), hone _ _ (by rw [hevent, hs0]; exact nofun) (by rw [event_lanes]; exact h0), hevent]

/-- What a failover that no lane waits for leaves. -/
structure Failed (p : Nat) (s u : State) : Prop where
  only : LaneOnly { s with work := s.work.map (back p) } u
  slots : u.slots = modAt (modAt s.slots p fun x => { x with claim := (x.claim + 1) % 65536, inService := false, credit := 8192 }) p
    fun x => { x with rebuilding := true }
  outs : OutsWithin (dropResults p s) u
  l0 : OutOfService u (slotOf s p).l0
  l1 : OutOfService u (slotOf s p).l1

theorem dropResults_within {t : State} (h : OutsWithin s t) (hwork : t.work = s.work) : OutsWithin (dropResults p s) (dropResults p t) := by
  intro l hl r hr
  obtain ⟨l0, hl0, rfl⟩ := List.mem_map.mp hl
  obtain ⟨hin, hkept⟩ := List.mem_filter.mp hr
  obtain ⟨l', hl', hr'⟩ := h l0 hl0 r hin
  rw [hwork] at hkept
  exact ⟨_, List.mem_map.mpr ⟨l', hl', rfl⟩, List.mem_filter.mpr ⟨hr', hkept⟩⟩

theorem replaced_failed (cause : FailCause) (h0 : (slotOf s p).l0 < s.lanes.length) (h1 : (slotOf s p).l1 < s.lanes.length) :
    Failed p s (replaced p cause s) := by
  obtain ⟨ho0, ho1⟩ := suspectPair_outOfService cause h0 h1
  have honly := suspectPair_only p cause s
  have hlane : LaneOnly s (suspectPair p cause s) := by rw [LaneOnly, honly]
  have houts := outsWithin_suspectPair p cause s
  have hwork : (suspectPair p cause s).work = s.work := by rw [honly]
  have hslots : (suspectPair p cause s).slots = s.slots := by rw [honly]
  unfold replaced
  generalize suspectPair p cause s = v at *
  have hwithdrawn := withdraw_lane p 0 (sparePair s) hlane
  rw [hwork] at hwithdrawn
  exact {
    only := beginRebuild_lane hwithdrawn p
    slots := by rw [beginRebuild_slots, withdraw_only, hslots]
    outs := outsWithin_trans (dropResults_within houts hwork)
      (outsWithin_trans (outsWithin_withdraw p 0 (sparePair s) v) (outsWithin_beginRebuild p _))
    l0 := outOfService_beginRebuild p (outOfService_withdraw p 0 _ ho0)
    l1 := outOfService_beginRebuild p (outOfService_withdraw p 0 _ ho1) }

theorem Failed.testLane {u : State} (h : Failed p s u) (n : Nat) : Failed p s (testLane n u) where
  only := testLane_lane h.only n
  slots := (testLane_slots n u).trans h.slots
  outs := outsWithin_trans h.outs (outsWithin_testLane n u)
  l0 := outOfService_testLane n h.l0
  l1 := outOfService_testLane n h.l1

theorem failover_failed (cause : FailCause) (hnone : lanesFor s p = []) (h0 : (slotOf s p).l0 < s.lanes.length)
    (h1 : (slotOf s p).l1 < s.lanes.length) : Failed p s (failover p cause s) := by
  have h := replaced_failed cause h0 h1
  rw [failover_alone cause hnone]
  split
  · exact h
  · exact (h.testLane _).testLane _

theorem failover_starts (cause : FailCause) (hnone : lanesFor s p = []) (hlen : s.lanes.length = 8)
    (h0 : (slotOf s p).l0 < s.lanes.length) (h1 : (slotOf s p).l1 < s.lanes.length)
    (hs0 : (laneOf s (slotOf s p).l0).st = .serving) (hs1 : (laneOf s (slotOf s p).l1).st = .serving) {x y : Nat}
    (h : sparePair s = some (x, y)) :
    (laneOf (failover p cause s) x).st = .starting ∧ (laneOf (failover p cause s) y).st = .starting
      ∧ (laneOf (failover p cause s) x).forSlot = some p ∧ (laneOf (failover p cause s) y).forSlot = some p := by
  have honly := suspectPair_only p cause s
  have hspare : sparePair (withdraw p 0 (sparePair s) (suspectPair p cause s)) = some (x, y) := by
    rw [← h]
    refine sparePair_congr (by rw [withdraw_only, honly]) (by rw [withdraw_only, honly]) fun n => ?_
    obtain ⟨o, ho⟩ := laneOf_withdraw p 0 n (sparePair s) (suspectPair p cause s)
    rw [ho, ← suspectPair_off cause h0 h1 hs0 hs1 n]
  rw [failover_alone cause hnone, if_pos (by rw [h]; rfl)]
  exact beginRebuild_starts hspare (by rw [length_withdraw, length_suspectPair, hlen]) p

end

/-! ## The input of a failover (R371) -/

section
variable {s : State} {p : Nat}

theorem event_noted_only (code arg : Nat) (i : TamperIn) (counts w : Bool) (s : State) :
    event code arg (noted i counts w s) = { s with
      tamper := (noted i counts w s).tamper, ev := (event code arg (noted i counts w s)).ev
      pmon := (event code arg (noted i counts w s)).pmon, free := s.free + 1 } :=
  (event_only ..).trans (by simp only [noted, drew])

/-- A failover that stands alone acts in the state in which its input is noted and recorded. -/
theorem failover_input (cause : FailCause) (hwindow : s.tamper.window = []) (hscrap : s.lc ≠ .scrap) :
    ∃ tamper ev pmon free, raiseInput (failover p cause) (failInput p cause s).1 (failInput p cause s).2 s
      = failover p cause { s with tamper := tamper, ev := ev, pmon := pmon, free := free } := by
  have hjudge : judgeInput s { sensor := (failInput p cause s).1, reading := .attack, unit := (failInput p cause s).2, quiet := false }
      = some (.t2, true) := by cases cause <;> rfl
  have harray : lastArray { sensor := (failInput p cause s).1, reading := .attack, unit := (failInput p cause s).2, quiet := false } s
      = false := by cases cause <;> rfl
  rw [raiseInput, senseInput_alone _ hjudge hscrap hwindow harray]
  exact ⟨_, _, _, _, congrArg (failover p cause) (event_noted_only ..)⟩

end

theorem failover_withdraws {p a b : Nat} {cause : FailCause} {s : State} (hserved : served s = true) (hin : (slotOf s p).inService = true)
    (hp : p < 3) (hslots : s.slots.length = 3) (hlanes : s.lanes.length = 8) (h0 : (slotOf s p).l0 = a) (h1 : (slotOf s p).l1 = b)
    (ha : a < 8) (hb : b < 8) (hsa : (laneOf s a).st = .serving) (hsb : (laneOf s b).st = .serving)
    (hnone : lanesFor s p = []) (hwindow : s.tamper.window = []) (hscrap : s.lc ≠ .scrap) (hq : quiet s = true) :
    To (.failover p cause) s fun t =>
      (slotOf t p).claim = ((slotOf s p).claim + 1) % 65536 ∧ (slotOf t p).inService = false
        ∧ (laneOf t a).st ≠ .serving ∧ (laneOf t b).st ≠ .serving ∧ (laneOf t a).isolated = true ∧ (laneOf t b).isolated = true
        ∧ t.work = s.work.map (fun w =>
            if w.slot = p ∧ (w.stage = .dispatched ∨ w.stage = .computed) then { w with stage := .takenBack, cost := 0 } else w)
        ∧ (∀ x y, sparePair s = some (x, y) →
            (laneOf t x).st = .starting ∧ (laneOf t y).st = .starting ∧ (laneOf t x).forSlot = some p ∧ (laneOf t y).forSlot = some p
              ∧ (slotOf t p).rebuilding = true)
        ∧ (∀ l ∈ t.lanes, ∀ r ∈ l.out, ∀ w ∈ s.work, w.slot = p → (w.stage = .dispatched ∨ w.stage = .computed) → w.seq ≠ r.seq)
        ∧ (∀ p', p' ≠ p → slotOf t p' = slotOf s p') ∧ t.nv = s.nv ∧ t.nonces = s.nonces := by
  obtain ⟨tamper, ev, pmon, free, hinput⟩ := failover_input (p := p) cause hwindow hscrap
  have hexec : exec (.failover p cause) s = .next (settle s (failover p cause { s with tamper := tamper, ev := ev, pmon := pmon, free := free })) := by
    rw [← hinput]
    exact if_pos (by rw [hserved, hin]; rfl)
  subst h0 h1
  generalize hs1 : ({ s with tamper := tamper, ev := ev, pmon := pmon, free := free } : State) = s1 at hexec
  have hsame : s1.slots = s.slots ∧ s1.lanes = s.lanes ∧ s1.work = s.work ∧ s1.jrn = s.jrn ∧ s1.nv = s.nv ∧ s1.nonces = s.nonces
      ∧ s1.banks = s.banks ∧ s1.lark = s.lark := by
    rw [← hs1]
    exact ⟨rfl, rfl, rfl, rfl, rfl, rfl, rfl, rfl⟩
  obtain ⟨hslots1, hlanes1, hwork1, hjrn1, hnv1, hnonces1, hbanks1, hlark1⟩ := hsame
  clear hs1 hinput
  have hslot := slotOf_congr hslots1
  have hlane := laneOf_congr hlanes1
  have hnone1 : lanesFor s1 p = [] := by
    rw [← hnone, lanesFor, lanesFor]
    exact List.filter_congr fun n _ => by rw [hlane]
  have hlt0 : (slotOf s1 p).l0 < s1.lanes.length := by rw [hslot, hlanes1, hlanes]; exact ha
  have hlt1 : (slotOf s1 p).l1 < s1.lanes.length := by rw [hslot, hlanes1, hlanes]; exact hb
  have hfailed := failover_failed cause hnone1 hlt0 hlt1
  have hstarts : ∀ x y, sparePair s = some (x, y) → _ := fun x y h =>
    failover_starts cause hnone1 (by rw [hlanes1, hlanes]) hlt0 hlt1 (by rw [hslot, hlane]; exact hsa) (by rw [hslot, hlane]; exact hsb)
      ((sparePair_congr hbanks1 hlark1 fun n => by rw [hlane]).trans h)
  generalize failover p cause s1 = u at *
  have hplen : p < s1.slots.length := by rw [hslots1, hslots]; exact hp
  have hqu : quiet u = true := hfailed.only.quiet (quiet_back (quiet_of_same hq hwork1 hjrn1 hnv1) p)
  have hself : slotOf u p = { slotOf s p with
      claim := ((slotOf s p).claim + 1) % 65536, inService := false, credit := 8192, rebuilding := true } := by
    rw [slotOf, hfailed.slots, ← hslot]
    simp [modAt, slotOf, List.getD_eq_getElem?_getD, hplen]
  have hothers : ∀ k, k ≠ p → slotOf u k = slotOf s k := fun k hk => by
    rw [slotOf, hfailed.slots, ← hslot]
    simp [modAt, slotOf, List.getD_eq_getElem?_getD, Ne.symm hk]
  refine to_of_settle hexec hqu fun t ht => ?_
  have htslot := slotOf_congr (slots_of_notified ht)
  have htlane := laneOf_congr (lanes_of_notified ht)
  have ho0 := hfailed.l0
  have ho1 := hfailed.l1
  rw [hslot] at ho0 ho1
  refine ⟨by rw [htslot, hself], by rw [htslot, hself], by rw [htlane]; exact ho0.2.1, by rw [htlane]; exact ho1.2.1,
    by rw [htlane]; exact ho0.2.2, by rw [htlane]; exact ho1.2.2, ?_, fun x y h => ?_, fun l hl r hr w hw hwp hwst => ?_,
    fun k hk => by rw [htslot, hothers k hk], ?_, ?_⟩
  · rw [work_of_notified ht, hfailed.only.work]
    show s1.work.map (back p) = _
    rw [hwork1]
    refine List.map_congr_left fun w _ => ?_
    simp only [back, ofSlot_iff]
  · obtain ⟨hx, hy, hxp, hyp⟩ := hstarts x y h
    exact ⟨by rw [htlane, hx], by rw [htlane, hy], by rw [htlane, hxp], by rw [htlane, hyp], by rw [htslot, hself]⟩
  · rw [lanes_of_notified ht] at hl
    obtain ⟨l', hl', hr'⟩ := hfailed.outs l hl r hr
    exact dropResults_drops hl' hr' (by rw [hwork1]; exact hw) ((ofSlot_iff p w).mpr ⟨hwp, hwst⟩)
  · rw [nv_of_notified ht, hfailed.only.nv]
    exact hnv1
  · rw [ht.1]
    exact hfailed.only.nonces.trans hnonces1

/-! ## LAGGARD and the end of its drain (R204, R205) -/

section
variable {s : State} {p : Nat}

/-- The lanes that a marking names. -/
def lateLanes (m : LagMeasure) (later : Nat) (sl : Slot) : List Nat :=
  if m == .skew && (later == sl.l0 || later == sl.l1) then [later] else [sl.l0, sl.l1]

/-- A lane notes the second of its marking. -/
def markLane (opsec : Nat) (l : Lane) : Lane := { l with marks := l.marks ++ [opsec] }

/-- A lane takes no new units. -/
def drainLane (l : Lane) : Lane := { l with st := .draining }

/-- The slot marked, its pair draining. -/
def marked (p : Nat) (suspects : List Nat) (s : State) : State :=
  modLane (slotOf s p).l1 drainLane (modLane (slotOf s p).l0 drainLane
    (modSlot p (fun x => { x with laggard := true, suspects := suspects }) (suspects.foldl (fun t n => modLane n (markLane s.opsec) t) s)))

theorem laggard_runs {m : LagMeasure} {later : Nat} (hserved : served s = true) (hin : (slotOf s p).inService = true)
    (hlag : (slotOf s p).laggard = false) (hdue : m ≠ .lag ∨ lagging s p = true) :
    exec (.laggard p m later) s = .next (settle s
      (event 0x0C03 (p + 4 * measureCode m + 256 * ((lateLanes m later (slotOf s p)).map fun n => 2 ^ n).sum)
        (marked p (lateLanes m later (slotOf s p)) s))) :=
  if_pos (by
    rw [hserved, hin, hlag]
    rcases hdue with h | h
    · simp [h]
    · simp [h])

theorem lateLanes_eq (m : LagMeasure) (later : Nat) (sl : Slot) :
    lateLanes m later sl = if m = .skew ∧ (later = sl.l0 ∨ later = sl.l1) then [later] else [sl.l0, sl.l1] := by
  simp [lateLanes]

theorem lateLanes_lt {m : LagMeasure} {later n k : Nat} {sl : Slot} (h0 : sl.l0 < k) (h1 : sl.l1 < k) (hn : n ∈ lateLanes m later sl) :
    n < k := by
  rw [lateLanes_eq] at hn
  split at hn
  case isTrue h =>
    rw [List.mem_singleton] at hn
    omega
  case isFalse =>
    simp only [List.mem_cons, List.not_mem_nil, or_false] at hn
    omega

/-- Marking the lanes changes the lanes alone, and no lane's count. -/
theorem markLanes_only (opsec : Nat) (l : List Nat) (s : State) :
    l.foldl (fun t n => modLane n (markLane opsec) t) s = { s with lanes := (l.foldl (fun t n => modLane n (markLane opsec) t) s).lanes }
      ∧ (l.foldl (fun t n => modLane n (markLane opsec) t) s).lanes.length = s.lanes.length := by
  refine foldl_keeps (P := fun t : State => t = { s with lanes := t.lanes } ∧ t.lanes.length = s.lanes.length) _ _ _ ⟨rfl, rfl⟩ fun t n h => ?_
  obtain ⟨honly, hlen⟩ := h
  exact ⟨(congrArg (modLane n (markLane opsec)) honly).trans rfl, by rw [modLane_lanes, length_modAt, hlen]⟩

theorem mem_marks_modLane {n m opsec : Nat} {f : Lane → Lane} (hf : ∀ l, opsec ∈ l.marks → opsec ∈ (f l).marks) (hm : m < s.lanes.length)
    (h : opsec ∈ (laneOf s n).marks) : opsec ∈ (laneOf (modLane m f s) n).marks := by
  by_cases hn : n = m
  · subst hn
    rw [laneOf_modLane_self hm]
    exact hf _ h
  · rwa [laneOf_modLane_ne hn]

/-- Every lane that is marked has the second noted. -/
theorem mem_marks_markLanes {opsec n : Nat} (l : List Nat) (s : State) (hlt : ∀ k ∈ l, k < s.lanes.length) (hn : n ∈ l) :
    opsec ∈ (laneOf (l.foldl (fun t k => modLane k (markLane opsec) t) s) n).marks := by
  have hkeep : ∀ (l : List Nat) (s : State), (∀ k ∈ l, k < s.lanes.length) → opsec ∈ (laneOf s n).marks →
      opsec ∈ (laneOf (l.foldl (fun t k => modLane k (markLane opsec) t) s) n).marks := by
    intro l
    induction l with
    | nil => exact fun _ _ h => h
    | cons k l ih =>
      intro s hlt h
      refine ih _ (fun j hj => by simpa using hlt j (List.mem_cons_of_mem _ hj)) ?_
      exact mem_marks_modLane (fun x hx => List.mem_append_left _ hx) (hlt k List.mem_cons_self) h
  induction l generalizing s with
  | nil => exact absurd hn List.not_mem_nil
  | cons k l ih =>
    have hlt' : ∀ j ∈ l, j < (modLane k (markLane opsec) s).lanes.length := fun j hj => by simpa using hlt j (List.mem_cons_of_mem _ hj)
    rcases List.mem_cons.mp hn with rfl | hl
    · refine hkeep l _ hlt' ?_
      rw [laneOf_modLane_self (hlt n List.mem_cons_self)]
      exact List.mem_append_right _ (List.mem_singleton.mpr rfl)
    · exact ih _ hlt' hl

theorem marked_only (p : Nat) (l : List Nat) (s : State) :
    marked p l s = { s with
      slots := modAt s.slots p (fun x => { x with laggard := true, suspects := l }), lanes := (marked p l s).lanes } := by
  unfold marked
  rw [(markLanes_only s.opsec l s).1]
  rfl

theorem marked_lanes {l : List Nat} (h0 : (slotOf s p).l0 < s.lanes.length) (h1 : (slotOf s p).l1 < s.lanes.length)
    (hl : ∀ n ∈ l, n < s.lanes.length) :
    (laneOf (marked p l s) (slotOf s p).l0).st = .draining ∧ (laneOf (marked p l s) (slotOf s p).l1).st = .draining
      ∧ ∀ n ∈ l, s.opsec ∈ (laneOf (marked p l s) n).marks := by
  have hmarks : ∀ n ∈ l, _ := fun n hn => mem_marks_markLanes (opsec := s.opsec) l s hl hn
  have hlen := (markLanes_only s.opsec l s).2
  unfold marked
  generalize l.foldl (fun t n => modLane n (markLane s.opsec) t) s = u at *
  generalize (slotOf s p).l0 = a at *
  generalize (slotOf s p).l1 = b at *
  have hlt : ∀ {n}, n < s.lanes.length → n < (modSlot p (fun x => { x with laggard := true, suspects := l }) u).lanes.length := fun hn => by
    rw [modSlot_lanes, hlen]; exact hn
  have hmarks' : ∀ n ∈ l, s.opsec ∈ (laneOf (modSlot p (fun x => { x with laggard := true, suspects := l }) u) n).marks := fun n hn => by
    rw [laneOf_modSlot]; exact hmarks n hn
  generalize modSlot p (fun x => { x with laggard := true, suspects := l }) u = v at *
  have hb : b < (modLane a drainLane v).lanes.length := by simpa using hlt h1
  refine ⟨?_, by rw [laneOf_modLane_self hb]; rfl, fun n hn => ?_⟩
  · by_cases hab : a = b
    · subst hab
      rw [laneOf_modLane_self hb]
      rfl
    · rw [laneOf_modLane_ne hab, laneOf_modLane_self (hlt h0)]
      rfl
  · exact mem_marks_modLane (f := drainLane) (fun _ h => h) hb (mem_marks_modLane (f := drainLane) (fun _ h => h) (hlt h0) (hmarks' n hn))

theorem laggard_marks {m : LagMeasure} {later : Nat} (hserved : served s = true) (hp : p < 3) (hslots : s.slots.length = 3)
    (hlanes : s.lanes.length = 8) (hq : quiet s = true) (hin : (slotOf s p).inService = true) (hlag : (slotOf s p).laggard = false)
    (h0 : (slotOf s p).l0 < 8) (h1 : (slotOf s p).l1 < 8)
    (hdue : m = .lag → ∃ w ∈ s.work, w.slot = p ∧ (w.stage = .dispatched ∨ w.stage = .computed) ∧ 4096 < w.lag) :
    To (.laggard p m later) s fun t =>
      (slotOf t p).laggard = true ∧ slotTakes t (slotOf t p) = false
        ∧ (slotOf t p).suspects = (if m = .skew ∧ (later = (slotOf s p).l0 ∨ later = (slotOf s p).l1) then [later]
            else [(slotOf s p).l0, (slotOf s p).l1])
        ∧ (laneOf t (slotOf s p).l0).st = .draining ∧ (laneOf t (slotOf s p).l1).st = .draining
        ∧ (∀ n, n ∈ (slotOf t p).suspects → s.opsec ∈ (laneOf t n).marks)
        ∧ Notified { s with slots := t.slots, lanes := t.lanes, ev := t.ev } t := by
  have hlags : m ≠ .lag ∨ lagging s p = true := by
    by_cases hm : m = .lag
    · obtain ⟨w, hw, hwp, hwst, hwlag⟩ := hdue hm
      refine .inr (List.any_eq_true.mpr ⟨w, hw, ?_⟩)
      rw [(ofSlot_iff p w).mpr ⟨hwp, hwst⟩]
      simp [hwlag]
    · exact .inl hm
  have hexec := laggard_runs (later := later) hserved hin hlag hlags
  obtain ⟨hd0, hd1, hmarks⟩ := marked_lanes (s := s) (p := p) (l := lateLanes m later (slotOf s p)) (by omega) (by omega)
    fun n hn => lateLanes_lt (by omega) (by omega) hn
  have honly := marked_only p (lateLanes m later (slotOf s p)) s
  generalize hu : marked p (lateLanes m later (slotOf s p)) s = u at *
  have hqu : quiet (event 0x0C03 (p + 4 * measureCode m + 256 * ((lateLanes m later (slotOf s p)).map fun n => 2 ^ n).sum) u) = true := by
    rw [quiet_event]
    exact quiet_of_same hq (by rw [honly]) (by rw [honly]) (by rw [honly])
  refine to_of_settle hexec hqu fun t ht => ?_
  have hslots' : t.slots = u.slots := (slots_of_notified ht).trans (event_slots ..)
  have hlanes' : t.lanes = u.lanes := (lanes_of_notified ht).trans (event_lanes ..)
  have hself : slotOf t p = { slotOf s p with laggard := true, suspects := lateLanes m later (slotOf s p) } := by
    rw [slotOf_congr hslots', honly]
    exact slotOf_modSlot_self (by rw [hslots]; exact hp) _
  have htold : Notified u { t with ev := u.ev } := by
    have h := notified_trans (event_notified ..) ht
    obtain ⟨heq, hfns⟩ := h
    refine ⟨?_, hfns⟩
    rw [heq]
  refine ⟨by rw [hself], by simp [slotTakes, hself], by rw [hself, ← lateLanes_eq], by rw [laneOf_congr hlanes', hd0],
    by rw [laneOf_congr hlanes', hd1], fun n hn => ?_, ?_⟩
  · rw [hself] at hn
    rw [laneOf_congr hlanes']
    exact hmarks n hn
  · obtain ⟨heq, hfns⟩ := notified_trans (event_notified ..) ht
    rw [hslots', hlanes']
    refine ⟨?_, hfns.trans (by rw [honly])⟩
    rw [heq, honly]

theorem laggard_early {m : LagMeasure} {later : Nat} (hm : m = .lag) (hnone : ∀ w ∈ s.work, w.slot = p → w.lag ≤ 4096) :
    exec (.laggard p m later) s = .next s := by
  have hlags : lagging s p = false := by
    refine List.any_eq_false.mpr fun w hw h => ?_
    rw [Bool.and_eq_true, ofSlot_iff, decide_eq_true_eq] at h
    have := hnone w hw h.1.1
    omega
  refine if_neg ?_
  subst hm
  simp [hlags]

/-- Rebuilding leaves the service of a slot and its claim number. -/
theorem rebuildSlots_service (s : State) (p : Nat) :
    (slotOf (rebuildSlots s) p).inService = (slotOf s p).inService ∧ (slotOf (rebuildSlots s) p).claim = (slotOf s p).claim := by
  have hset : ∀ (b : Bool) (k : Nat) (t : State), (slotOf { t with slots := modAt t.slots k fun x => { x with rebuilding := b } } p).inService
      = (slotOf t p).inService
      ∧ (slotOf { t with slots := modAt t.slots k fun x => { x with rebuilding := b } } p).claim = (slotOf t p).claim := fun b k t => by
    simp only [slotOf, modAt, List.getD_eq_getElem?_getD, List.getElem?_modify]
    cases t.slots[p]? with
    | none => exact ⟨rfl, rfl⟩
    | some x => by_cases hk : k = p <;> simp [hk]
  unfold rebuildSlots
  refine foldl_keeps (P := fun t => (slotOf t p).inService = (slotOf s p).inService ∧ (slotOf t p).claim = (slotOf s p).claim) _ _ _
    ⟨rfl, rfl⟩ fun t k h => ?_
  obtain ⟨hin, hclaim⟩ := h
  simp only []
  split
  · split
    · obtain ⟨hin', hclaim'⟩ := hset true k t
      have hslot := slotOf_congr (t := beginRebuild k t)
        (s := { t with slots := modAt t.slots k fun x => { x with rebuilding := true } }) (beginRebuild_slots k t) p
      exact ⟨by rw [hslot, hin', hin], by rw [hslot, hclaim', hclaim]⟩
    · split
      · obtain ⟨hin', hclaim'⟩ := hset false k t
        exact ⟨hin'.trans hin, hclaim'.trans hclaim⟩
      · exact ⟨hin, hclaim⟩
  · exact ⟨hin, hclaim⟩

/-- The pair of the slot withdrawn and tested. -/
def drained (p : Nat) (s : State) : State :=
  testLane (slotOf s p).l1 (testLane (slotOf s p).l0 (withdraw p 1 (sparePair s) s))

theorem drained_lane (p : Nat) (s : State) : LaneOnly { s with work := s.work.map (back p) } (drained p s) :=
  testLane_lane (testLane_lane (withdraw_lane p 1 (sparePair s) (laneOnly_refl s)) _) _

theorem drained_slots (p : Nat) (s : State) :
    (drained p s).slots = modAt s.slots p fun x => { x with claim := (x.claim + 1) % 65536, inService := false, credit := 8192 } := by
  rw [drained, testLane_slots, testLane_slots, withdraw_only]

theorem drainEnd_runs (hserved : served s = true) (hin : (slotOf s p).inService = true) (hlag : (slotOf s p).laggard = true)
    (hnone : lanesFor s p = []) :
    exec (.laggardDrainEnd p) s = if (sparePair s).isSome then .next (settle s (beginRebuild p (drained p s)))
      else .next (settle s (rebuildSlots (modSlot p (fun x => { x with rebuilding := true }) (drained p s)))) := by
  show execLaggardDrainEnd p s = _
  unfold execLaggardDrainEnd
  simp only [hserved, hin, hlag, hnone, Bool.true_and, Bool.true_or, if_true, List.filter_nil, ne_eq, not_true_eq_false, if_false]
  rfl

theorem drainEnd_withdraws (hserved : served s = true) (hp : p < 3) (hslots : s.slots.length = 3)
    (hin : (slotOf s p).inService = true) (hlag : (slotOf s p).laggard = true) (hnone : lanesFor s p = []) :
    To (.laggardDrainEnd p) s fun t =>
      (slotOf t p).inService = false ∧ (slotOf t p).claim = ((slotOf s p).claim + 1) % 65536 ∧ t.nv = s.nv ∧ t.nonces = s.nonces := by
  have hexec := drainEnd_runs hserved hin hlag hnone
  have hlane := drained_lane p s
  have hplen : p < (drained p s).slots.length := by rw [drained_slots, length_modAt, hslots]; exact hp
  have hself : slotOf (drained p s) p = { slotOf s p with claim := ((slotOf s p).claim + 1) % 65536, inService := false, credit := 8192 } := by
    rw [slotOf, drained_slots]
    simp [modAt, slotOf, List.getD_eq_getElem?_getD, hslots, hp]
  generalize drained p s = u at *
  have hrebuilding := slotOf_modSlot_self hplen fun x => { x with rebuilding := true }
  rw [hself] at hrebuilding
  split at hexec
  · have hkept : LaneOnly _ (beginRebuild p u) := beginRebuild_lane hlane p
    have hslot := slotOf_congr (s := modSlot p (fun x => { x with rebuilding := true }) u) (beginRebuild_slots p u) p
    rw [hrebuilding] at hslot
    generalize beginRebuild p u = v at *
    refine to_of_eq hexec ⟨?_, ?_, (settle_nv ..).trans hkept.nv, hkept.nonces⟩
    · rw [slotOf_congr (settle_slots s v), hslot]
    · rw [slotOf_congr (settle_slots s v), hslot]
  · obtain ⟨hserv, hclaim⟩ := rebuildSlots_service (modSlot p (fun x => { x with rebuilding := true }) u) p
    rw [hrebuilding] at hserv hclaim
    have hkept : LaneOnly _ (rebuildSlots (modSlot p (fun x => { x with rebuilding := true }) u)) :=
      rebuildSlots_lane (modSlot_lane hlane p _)
    generalize rebuildSlots (modSlot p (fun x => { x with rebuilding := true }) u) = v at *
    refine to_of_eq hexec ⟨?_, ?_, (settle_nv ..).trans hkept.nv, hkept.nonces⟩
    · rw [slotOf_congr (settle_slots s v), hserv]
    · rw [slotOf_congr (settle_slots s v), hclaim]

end

/-- Settles O33. -/
theorem pairsAreWithdrawn : Obligations.PairsAreWithdrawn := by
  refine ⟨fun p a b cause s hserved hin hp hslots hlanes h0 h1 ha hb _ hsa hsb hnone hwindow hscrap hq =>
    failover_withdraws hserved hin hp hslots hlanes h0 h1 ha hb hsa hsb hnone hwindow hscrap hq,
    fun p s hserved hp hslots hlanes hq => ⟨fun m later hin hlag h0 h1 => ⟨?_, laggard_early⟩, ?_⟩⟩
  · exact laggard_marks hserved hp hslots hlanes hq hin hlag h0 h1
  · exact drainEnd_withdraws hserved hp hslots

end Sys2Proof.PairWithdrawal
end

section
/-! # TAP instructions act where their right is in force (O46) -/
namespace Sys2Proof.Tap
open Sys2Proof Sys2Proof.Machine Sys2Proof.Told Sys2Proof.MeterPort Sys2Proof.NopCompletion

/-! ## Selecting an instruction (R367) -/

section
variable {s : State}

/-- The state with an instruction selected. -/
def selected (code : BitVec 8) (s : State) : State := { s with dbg := { s.dbg with ir := code } }

theorem selectIr_eq (hhold : s.pwr.tapHold = false) (code : Nat) : selectIr code s = selected (BitVec.ofNat 8 code) s := by
  rw [selectIr, leaveExtest, hhold]
  rfl

theorem withRight_denied {mask code : Nat} {run : State → State} (hon : tapOn s = true) (hhold : s.pwr.tapHold = false)
    (h : hasRight s mask = false) : withRight mask code run s = { s with dbg := { s.dbg with ir := 0xFF, rightErr := true } } := by
  rw [withRight, hon, h]
  simp only [selectBypassErr, selectIr_eq hhold]
  rfl

theorem withRight_granted {mask code : Nat} {run : State → State} (hon : tapOn s = true) (hhold : s.pwr.tapHold = false)
    (h : hasRight s mask = true) : withRight mask code run s = run (selected (BitVec.ofNat 8 code) s) := by
  rw [withRight, hon, h, selectIr_eq hhold]
  rfl

theorem length_openBytes (seed n : Nat) : (openBytes seed n).length = n := by simp [openBytes]

/-! ## Instructions that need no right -/

theorem plain_instructions (hon : tapOn s = true) (hhold : s.pwr.tapHold = false) :
    (exec .tapReset s = .next { s with dbg := { s.dbg with ir := 1 } })
    ∧ (exec .idcode s = .next { s with dbg := { s.dbg with ir := 1 }, out := s.out ++ [.tdo (le 4 idcodeValue)] })
    ∧ (∀ cells : BitVec 128, To (.samplePreload cells) s fun t =>
        t.dbg = { s.dbg with ir := 2, bscan := cells } ∧ (∃ b : Bytes, b.length = 16 ∧ t.out = s.out ++ [.tdo b])
          ∧ t = { s with dbg := t.dbg, out := t.out, free := s.free + 1 })
    ∧ (∀ u : BitVec 32, exec (.dbgStatus u) s = .next { s with
        dbg := { s.dbg with
          ir := 0x10, gateErr := s.dbg.gateErr && !u.getLsbD 6, rightErr := s.dbg.rightErr && !u.getLsbD 7 }
        out := s.out ++ [.tdo (le 4 (dbgStatusValue s))] }) := by
  refine ⟨?_, ?_, fun cells => ?_, fun u => ?_⟩
  · show execTapReset s = _
    rw [execTapReset, if_pos hon, selectIr_eq hhold]
    rfl
  · show execIdcode s = _
    rw [execIdcode, if_pos hon, selectIr_eq hhold]
    rfl
  · refine ⟨_, if_pos hon, ?_⟩
    rw [selectIr_eq hhold]
    exact ⟨rfl, ⟨_, length_openBytes _ 16, rfl⟩, rfl⟩
  · show execDbgStatus u s = _
    rw [execDbgStatus, if_pos hon, selectIr_eq hhold]
    rfl

theorem bypass_drives {code : BitVec 8} (hon : tapOn s = true) (hhold : s.pwr.tapHold = false)
    (h : (3 ≤ code.toNat ∧ code.toNat ≤ 15) ∨ (0x16 ≤ code.toNat ∧ code.toNat ≤ 0x1F) ∨ 0x30 ≤ code.toNat) :
    exec (.bypass code) s = .next { s with dbg := { s.dbg with ir := 0xFF }, out := s.out ++ [.tdo [0]] } := by
  have hunknown : ([0x00, 0x01, 0x02, 0x10, 0x11, 0x12, 0x13, 0x14, 0x15].contains code.toNat || (0x20 ≤ code.toNat && code.toNat ≤ 0x2F))
      = false := by
    simp
    omega
  show execBypass code s = _
  rw [execBypass, hunknown, hon, selectIr_eq hhold]
  rfl

theorem denied_instructions {mask : Nat} {i : Instr} {w : Bool} {a : BitVec 64} {b : Bytes} {op : CoreOp} {word : Nat} {chain : BitVec 4}
    (hon : tapOn s = true) (hhold : s.pwr.tapHold = false)
    (hi : (mask, i) ∈ [(0x40, Instr.extest), (0x26, .dbgMem w a b), (0x01, .dbgCore op), (0x08, .dbgTrace), (0x80, .dbgOtp word),
      (0x10, .dbgScan chain)]) (h : hasRight s mask = false) :
    exec i s = .next { s with dbg := { s.dbg with ir := 0xFF, rightErr := true } } := by
  simp only [List.mem_cons, Prod.mk.injEq, List.not_mem_nil, or_false] at hi
  rcases hi with ⟨rfl, rfl⟩ | ⟨rfl, rfl⟩ | ⟨rfl, rfl⟩ | ⟨rfl, rfl⟩ | ⟨rfl, rfl⟩ | ⟨rfl, rfl⟩
  case inl =>
    show execExtest s = _
    rw [execExtest, hon, h]
    simp only [selectBypassErr, selectIr_eq hhold]
    rfl
  all_goals exact congrArg Host.Outcome.next (withRight_denied hon hhold h)

/-! ## DBG_LOAD (R367, R368) -/

theorem endDebug_ir (reason : Nat) (s : State) : (endDebug reason s).dbg.ir = s.dbg.ir := by
  unfold endDebug
  split
  · rfl
  · rw [journalEntry_dbg]
    rfl

/-- A certificate that is accepted is in force with its rights. -/
theorem acceptCert_dbg (p : Bytes) (s : State) :
    (acceptCert p s).dbg.ir = s.dbg.ir
      ∧ (acceptCert p s).dbg.cert
        = some { rights := BitVec.ofNat 32 (num p 24 4), opsecLast := num p 40 8, serial := BitVec.ofNat 64 (num p 48 8) } := by
  have hir := endDebug_ir 3 s
  unfold acceptCert
  simp only []
  generalize endDebug 3 s = u at hir ⊢
  split
  · rw [toTestRoot_only, journalEntry_dbg]
    exact ⟨hir, rfl⟩
  · rw [journalEntry_dbg]
    exact ⟨hir, rfl⟩

theorem dbgLoad_loads {p : Bytes} (hon : tapOn s = true) (hhold : s.pwr.tapHold = false) (hup : mailboxUp s = true)
    (hmode : modeRefusal 0x0704 s = none) (hp : p.length ≤ 32768) :
    To (.dbgLoad p) s fun t =>
      t.dbg.ir = 0x11
        ∧ match certRefusal p { s with dbg := { s.dbg with ir := 0x11 } } with
          | some (st, det) =>
            t = { s with dbg := { s.dbg with ir := 0x11, loadResult := BitVec.ofNat 4 (
              if st = stMalformed then (if det = 8 ∧ 24 ≤ p.length then 3 else 2) else if st = stAuthFail then 5
              else if st = stUnsupported ∧ det = 0 then 4 else 6) } }
          | none => t.dbg.loadResult = 1 ∧ rightsNow t = num p 24 4 % 2 ^ 32 := by
  have hexec : exec (.dbgLoad p) s = match certRefusal p (selected 0x11 s) with
      | some (st, det) => .next { selected 0x11 s with dbg := { (selected 0x11 s).dbg with
          loadResult := BitVec.ofNat 4 (loadResult (decide (24 ≤ p.length)) st det) } }
      | none => .next (settle s { acceptCert p (selected 0x11 s) with dbg := { (acceptCert p (selected 0x11 s)).dbg with loadResult := 1 } }) := by
    show execDbgLoad p s = _
    rw [execDbgLoad, hon, hup, hmode, selectIr_eq hhold]
    simp only [Bool.not_true, Bool.false_eq_true, if_false, Option.isSome_none, Bool.or_self, Nat.not_lt.mpr hp]
    rfl
  cases hrefusal : certRefusal p (selected 0x11 s) with
  | some r =>
    obtain ⟨st, det⟩ := r
    rw [hrefusal] at hexec
    have hrefusal' : certRefusal p { s with dbg := { s.dbg with ir := 0x11 } } = some (st, det) := hrefusal
    refine to_of_eq hexec ⟨rfl, ?_⟩
    rw [hrefusal']
    simp only [selected, loadResult, decide_eq_true_eq, and_comm]
  | none =>
    rw [hrefusal] at hexec
    have hrefusal' : certRefusal p { s with dbg := { s.dbg with ir := 0x11 } } = none := hrefusal
    obtain ⟨hir, hcert⟩ := acceptCert_dbg p (selected 0x11 s)
    generalize acceptCert p (selected 0x11 s) = u at hexec hir hcert
    refine to_of_eq hexec ⟨?_, ?_⟩
    · rw [settle_dbg]
      exact hir
    · rw [hrefusal', rightsNow, settle_dbg, hcert]
      exact ⟨rfl, by simp⟩

/-! ## EXTEST (R370) -/

theorem extest_holds (hon : tapOn s = true) (hright : hasRight s 0x40 = true) :
    To .extest s fun t =>
      t.pwr.phase = .flushReset ∧ t.pwr.tapHold = true ∧ resetHeld t.pwr = true ∧ t.dbg.ir = 0 ∧ t.keys = {} ∧ t.work = [] := by
  have hexec : exec .extest s = .next { beginReset false (settle s (selectIr 0 s)) with
      pwr := { (beginReset false (settle s (selectIr 0 s))).pwr with tapHold := true }
      dbg := { (beginReset false (settle s (selectIr 0 s))).dbg with ir := 0 } } := by
    show execExtest s = _
    rw [execExtest, hon, hright]
    rfl
  generalize settle s (selectIr 0 s) = u at hexec
  unfold beginReset at hexec
  generalize flush u = v at hexec
  exact to_of_eq hexec ⟨rfl, rfl, by simp [resetHeld], rfl, rfl, rfl⟩

/-! ## DBG_MEM (R346) -/

/-- What a debug access sees of the memory is what was there before it was selected. -/
theorem judgeDebug_selected (code : BitVec 8) (a : Acc) : judgeDebug (selected code s) a = judgeDebug s a := rfl

theorem debugByte_selected (code : BitVec 8) (x : Nat) : debugByte (selected code s) x = debugByte s x := rfl

/-- With nothing due, telling the host only sends more. -/
theorem settle_sent {u : State} (hq : quiet u = true) (s : State) : Sent u (settle s u) := by
  have h := noteChanges_sent s u
  unfold settle
  simp only []
  rw [deliver_quiet hq, fillEvents_quiet hq]
  exact h

theorem debugDenied_keeps (a : Acc) (kind entry n : Nat) (s : State) :
    (debugDenied a kind entry n s).dbg.gateErr = true ∧ (debugDenied a kind entry n s).dram = s.dram
      ∧ (debugDenied a kind entry n s).nv = s.nv ∧ (debugDenied a kind entry n s).keys = s.keys
      ∧ (debugDenied a kind entry n s).work = s.work ∧ (debugDenied a kind entry n s).jrn = s.jrn
      ∧ (debugDenied a kind entry n s).out = s.out ++ if a.kind = 0 then [.tdo (zeros n)] else [] := by
  unfold debugDenied
  simp only []
  generalize hu : quietFault gDbg _ = u
  have hkeep : u.dbg.gateErr = true ∧ u.dram = s.dram ∧ u.nv = s.nv ∧ u.keys = s.keys ∧ u.work = s.work ∧ u.jrn = s.jrn ∧ u.out = s.out := by
    rw [← hu, quietFault_only, eventX_only]
    exact ⟨rfl, rfl, rfl, rfl, rfl, rfl, rfl⟩
  obtain ⟨hgate, hdram, hnv, hkeys, hwork, hjrn, hout⟩ := hkeep
  split
  · exact ⟨hgate, hdram, hnv, hkeys, hwork, hjrn, by rw [← hout]; rfl⟩
  · exact ⟨hgate, hdram, hnv, hkeys, hwork, hjrn, by rw [hout, List.append_nil]⟩

/-- The byte of a DRAM address. -/
def lineByte (t : Tab Line) (x : Nat) : Byte :=
  if (tgetD t ((x - 2 ^ 32) / 64) {}).bad then 0 else (tgetD t ((x - 2 ^ 32) / 64) {}).data.getD (x % 64) 0

theorem debugByte_dram {x : Nat} (hx : 2 ^ 32 ≤ x) (s : State) : debugByte s x = lineByte s.dram x := if_pos hx

/-- Every line holds 64 bytes and reads correctable. -/
def SoundLines (t : Tab Line) : Prop := ∀ l, (tgetD t l {}).data.length = 64 ∧ (tgetD t l {}).bad = false

theorem debugWriteByte_sound {t : Tab Line} (h : SoundLines t) (a : Nat) (b : Byte) : SoundLines (debugWriteByte t a b) := by
  intro l
  unfold debugWriteByte
  split
  · simp only []
    split
    · exact h l
    · by_cases hl : l = (a - 2 ^ 32) / 64
      · subst hl
        rw [tgetD_tset_self]
        exact ⟨by rw [List.length_set, (h _).1], (h _).2⟩
      · rw [tgetD_tset_ne _ _ _ hl]
        exact h l
  · exact h l

theorem lineByte_writeByte {t : Tab Line} (h : SoundLines t) {a x : Nat} (ha : 2 ^ 32 ≤ a) (hx : 2 ^ 32 ≤ x) (b : Byte) :
    lineByte (debugWriteByte t a b) x = if x = a then b else lineByte t x := by
  obtain ⟨hlen, hbad⟩ := h ((a - 2 ^ 32) / 64)
  have hwrite : debugWriteByte t a b = tset t ((a - 2 ^ 32) / 64)
      { tgetD t ((a - 2 ^ 32) / 64) {} with data := (tgetD t ((a - 2 ^ 32) / 64) {}).data.set (a % 64) b, colour := 0 } := by
    rw [debugWriteByte, if_pos ha]
    simp only [hbad, Bool.false_eq_true, if_false]
  have hmod : a % 64 < 64 := Nat.mod_lt _ (by decide)
  rw [hwrite]
  unfold lineByte
  by_cases hline : (x - 2 ^ 32) / 64 = (a - 2 ^ 32) / 64
  · rw [hline, tgetD_tset_self]
    simp only [hbad, Bool.false_eq_true, if_false, List.getD_eq_getElem?_getD, List.getElem?_set, hlen, hmod]
    by_cases hxa : x = a
    · simp [hxa]
    · have hne : a % 64 ≠ x % 64 := by omega
      simp [hxa, hne]
  · rw [tgetD_tset_ne _ _ _ hline, if_neg (show x ≠ a from fun h => hline (by rw [h]))]

theorem lineByte_debugWrite {bs : Bytes} {t : Tab Line} (h : SoundLines t) {a x : Nat} (ha : 2 ^ 32 ≤ a) (hx : 2 ^ 32 ≤ x) :
    lineByte (debugWrite t a bs) x = if a ≤ x ∧ x < a + bs.length then bs.getD (x - a) 0 else lineByte t x := by
  induction bs generalizing t a with
  | nil => simp [debugWrite]
  | cons b bs ih =>
    rw [debugWrite, ih (debugWriteByte_sound h a b) (by omega), lineByte_writeByte h ha hx]
    by_cases hxa : x = a
    · simp [hxa]
    · rw [if_neg hxa, List.length_cons]
      by_cases hin : a + 1 ≤ x ∧ x < a + 1 + bs.length
      · obtain ⟨k, hk⟩ : ∃ k, x - a = k + 1 := ⟨x - a - 1, by omega⟩
        rw [if_pos hin, if_pos (by omega), hk, List.getD_cons_succ, show x - (a + 1) = k by omega]
      · rw [if_neg hin, if_neg (by omega)]

/-- A line that is to be written whole starts afresh; every other line stays. -/
theorem freshLines_keeps (a : Acc) {t : Tab Line} (h : SoundLines t) :
    SoundLines (freshLines a t) ∧ ∀ l, a.wholeLine l = false → tgetD (freshLines a t) l {} = tgetD t l {} := by
  unfold freshLines
  generalize linesOf a = ls
  induction ls generalizing t with
  | nil => exact ⟨h, fun _ _ => rfl⟩
  | cons k ls ih =>
    rw [List.foldl_cons]
    split
    case isTrue hwhole =>
      have hdel : SoundLines (tdel t k) := fun l => by
        by_cases hl : l = k
        · subst hl
          rw [tgetD_tdel_self]
          exact ⟨rfl, rfl⟩
        · rw [tgetD_tdel_ne _ _ hl]
          exact h l
      obtain ⟨hsound, hkeep⟩ := ih hdel
      refine ⟨hsound, fun l hl => ?_⟩
      rw [hkeep l hl, tgetD_tdel_ne _ _ fun heq => by rw [heq, hwhole] at hl; exact absurd hl (by decide)]
    case isFalse => exact ih h

theorem lineByte_freshLines {a : Acc} {t : Tab Line} (h : SoundLines t) {x : Nat} (hx : 2 ^ 32 ≤ x) (hout : x < a.first ∨ a.last < x) :
    lineByte (freshLines a t) x = lineByte t x := by
  have hpart : a.wholeLine ((x - 2 ^ 32) / 64) = false := by
    simp only [Acc.wholeLine, Bool.and_eq_false_iff, decide_eq_false_iff_not]
    omega
  rw [lineByte, (freshLines_keeps a h).2 _ hpart, lineByte]

/-- The access of DBG_MEM. -/
def debugAcc (w : Bool) (a : BitVec 64) (b : Bytes) : Acc :=
  { host := false, first := a.toNat, last := a.toNat + b.length - 1, kind := if w then 1 else 0, level := 2, colour := 0 }

theorem dbgMem_runs {w : Bool} {a : BitVec 64} {b : Bytes} (hon : tapOn s = true) (hhold : s.pwr.tapHold = false)
    (hright : hasRight s 0x26 = true) : exec (.dbgMem w a b) s = .next (settle s (debugAccess w a.toNat b (selected 0x12 s))) := by
  show execDbgMem w a b s = _
  rw [execDbgMem, withRight_granted hon hhold hright]
  rfl

theorem dbgMem_faults {w : Bool} {a : BitVec 64} {b : Bytes} (hon : tapOn s = true) (hhold : s.pwr.tapHold = false) (hq : quiet s = true)
    (hright : hasRight s 0x26 = true) (hb : b ≠ []) {f : Nat × Nat} (hf : judgeDebug s (debugAcc w a b) = some f) :
    To (.dbgMem w a b) s fun t =>
      t.dbg.gateErr = true ∧ t.dram = s.dram ∧ t.nv = s.nv ∧ t.keys = s.keys
        ∧ (w = false → ∃ more, t.out = s.out ++ .tdo (zeros b.length) :: more) := by
  have hexec := dbgMem_runs (w := w) (a := a) (b := b) hon hhold hright
  have hdenied : debugAccess w a.toNat b (selected 0x12 s) = debugDenied (debugAcc w a b) f.1 f.2 b.length (selected 0x12 s) := by
    rw [debugAccess, if_neg hb]
    simp only [← judgeDebug_selected (s := s) 0x12, debugAcc] at hf ⊢
    rw [hf]
  rw [hdenied] at hexec
  obtain ⟨hgate, hdram, hnv, hkeys, hwork, hjrn, hout⟩ := debugDenied_keeps (debugAcc w a b) f.1 f.2 b.length (selected 0x12 s)
  generalize debugDenied (debugAcc w a b) f.1 f.2 b.length (selected 0x12 s) = u at *
  have hqu : quiet u = true := quiet_of_same hq hwork hjrn hnv
  obtain ⟨more, hmore⟩ := settle_sent hqu s
  refine to_of_eq hexec ⟨by rw [settle_dbg]; exact hgate, by rw [settle_dram]; exact hdram, by rw [settle_nv]; exact hnv,
    by rw [settle_keys]; exact hkeys, fun hw => ⟨more, ?_⟩⟩
  subst hw
  rw [hmore, hout]
  simp [selected, debugAcc]

theorem dbgMem_reads {a : BitVec 64} {b : Bytes} (hon : tapOn s = true) (hhold : s.pwr.tapHold = false) (hq : quiet s = true)
    (hright : hasRight s 0x26 = true) (hb : b ≠ []) (hf : judgeDebug s (debugAcc false a b) = none) :
    To (.dbgMem false a b) s fun t =>
      t = { s with
        dbg := { s.dbg with ir := 0x12 }, free := s.free + 1
        out := s.out ++ [.tdo ((List.range b.length).map fun k => debugByte s (a.toNat + k))] } := by
  have hexec := dbgMem_runs (w := false) (a := a) (b := b) hon hhold hright
  have hread : debugAccess false a.toNat b (selected 0x12 s) = { s with
      dbg := { s.dbg with ir := 0x12 }, free := s.free + 1
      out := s.out ++ [.tdo ((List.range b.length).map fun k => debugByte s (a.toNat + k))] } := by
    rw [debugAccess, if_neg hb]
    simp only [← judgeDebug_selected (s := s) 0x12, debugAcc] at hf ⊢
    rw [hf]
    rfl
  rw [hread] at hexec
  exact to_of_eq hexec (settle_same (quiet_of_same hq rfl rfl rfl) rfl rfl rfl rfl rfl rfl)

theorem dbgMem_writes {a : BitVec 64} {b : Bytes} (hon : tapOn s = true) (hhold : s.pwr.tapHold = false) (hq : quiet s = true)
    (hright : hasRight s 0x26 = true) (hb : b ≠ []) (hf : judgeDebug s (debugAcc true a b) = none) (ha : 2 ^ 32 ≤ a.toNat)
    (hsound : SoundLines s.dram) :
    To (.dbgMem true a b) s fun t =>
      (∀ k, k < b.length → debugByte t (a.toNat + k) = b.getD k 0)
        ∧ (∀ x, 2 ^ 32 ≤ x → (x < a.toNat ∨ a.toNat + b.length ≤ x) → debugByte t x = debugByte s x)
        ∧ t = { s with dbg := { s.dbg with ir := 0x12 }, dram := t.dram } := by
  have hlength : 0 < b.length := List.length_pos_iff.mpr hb
  have hexec := dbgMem_runs (w := true) (a := a) (b := b) hon hhold hright
  have hwrite : debugAccess true a.toNat b (selected 0x12 s) = { s with
      dbg := { s.dbg with ir := 0x12 }, dram := debugWrite (freshLines (debugAcc true a b) s.dram) a.toNat b } := by
    rw [debugAccess, if_neg hb]
    simp only [← judgeDebug_selected (s := s) 0x12, debugAcc] at hf ⊢
    rw [hf]
    rfl
  have hfresh := (freshLines_keeps (debugAcc true a b) hsound).1
  have hbyte : ∀ x, 2 ^ 32 ≤ x → lineByte (debugWrite (freshLines (debugAcc true a b) s.dram) a.toNat b) x = _ := fun x hx =>
    lineByte_debugWrite (bs := b) hfresh ha hx
  have hother : ∀ x, 2 ^ 32 ≤ x → (x < a.toNat ∨ a.toNat + b.length ≤ x) →
      lineByte (freshLines (debugAcc true a b) s.dram) x = lineByte s.dram x := fun x hx hout =>
    lineByte_freshLines hsound hx (by simp only [debugAcc]; omega)
  generalize debugWrite (freshLines (debugAcc true a b) s.dram) a.toNat b = d at *
  have hsettle : settle s (debugAccess true a.toNat b (selected 0x12 s)) = debugAccess true a.toNat b (selected 0x12 s) := by
    rw [hwrite]
    exact settle_same (quiet_of_same hq rfl rfl rfl) rfl rfl rfl rfl rfl rfl
  rw [hsettle, hwrite] at hexec
  refine to_of_eq hexec ⟨fun k hk => ?_, fun x hx hout => ?_, rfl⟩
  · rw [debugByte_dram (by omega), hbyte _ (by omega), if_pos (by omega), Nat.add_sub_cancel_left]
  · rw [debugByte_dram hx, debugByte_dram hx, hbyte x hx, if_neg (by omega), hother x hx hout]

/-! ## DBG_CORE, DBG_TRACE, DBG_OTP and DBG_SCAN (R370) -/

theorem dbgCore_runs {op : CoreOp} (hon : tapOn s = true) (hhold : s.pwr.tapHold = false) (hright : hasRight s 0x01 = true) :
    exec (.dbgCore op) s = .next (coreStep op (selected 0x13 s)) := congrArg Host.Outcome.next (withRight_granted hon hhold hright)

theorem dbgCore_writes (n : Nat) (v : BitVec 64) (hon : tapOn s = true) (hhold : s.pwr.tapHold = false) (hright : hasRight s 0x01 = true) :
    To (.dbgCore (.writeReg n v)) s fun t =>
      tget t.dbg.coreRegs n = some v ∧ (∀ k, k ≠ n → tget t.dbg.coreRegs k = tget s.dbg.coreRegs k)
        ∧ t = { s with dbg := { s.dbg with ir := 0x13, coreRegs := t.dbg.coreRegs } }
        ∧ (hasRight t 0x01 = true → To (.dbgCore (.readReg n)) t fun u => u.out = s.out ++ [.tdo (le 8 v.toNat)]) := by
  refine to_of_eq (dbgCore_runs hon hhold hright) ⟨tget_tset_self .., fun k hk => tget_tset_ne _ _ hk, rfl, fun hagain => ?_⟩
  refine to_of_eq (dbgCore_runs (s := coreStep (.writeReg n v) (selected 0x13 s)) hon hhold hagain) ?_
  have hreg : tgetD (tset s.dbg.coreRegs n v) n (Config.freeValue s.free) = v := tgetD_tset_self ..
  show s.out ++ [Out.tdo (le 8 (tgetD (tset s.dbg.coreRegs n v) n (Config.freeValue s.free)).toNat)] = _
  rw [hreg]

theorem dbgTrace_drives (hon : tapOn s = true) (hhold : s.pwr.tapHold = false) (hright : hasRight s 0x08 = true) :
    To .dbgTrace s fun t =>
      (∃ b : Bytes, b.length = 8 ∧ t.out = s.out ++ [.tdo b])
        ∧ t = { s with dbg := { s.dbg with ir := 0x14 }, out := t.out, free := s.free + 1 } :=
  to_of_eq (congrArg Host.Outcome.next (withRight_granted hon hhold hright)) ⟨⟨_, length_openBytes _ 8, rfl⟩, rfl⟩

theorem dbgOtp_drives (word : Nat) (hon : tapOn s = true) (hhold : s.pwr.tapHold = false) (hright : hasRight s 0x80 = true) :
    exec (.dbgOtp word) s = .next { s with
      dbg := { s.dbg with ir := 0x15 }
      out := s.out ++ [.tdo (le 8 (if (32 ≤ word ∧ word ≤ 81) ∨ 256 ≤ word then 0 else (tgetD s.otp word 0).toNat))] } := by
  refine (congrArg Host.Outcome.next (withRight_granted hon hhold hright)).trans ?_
  have hhidden : (rootWord word || decide (256 ≤ word)) = decide ((32 ≤ word ∧ word ≤ 81) ∨ 256 ≤ word) := by
    simp [rootWord]
  simp only [hhidden, decide_eq_true_eq]
  rfl

theorem dbgScan_zeroises (chain : BitVec 4) (hon : tapOn s = true) (hhold : s.pwr.tapHold = false) (hright : hasRight s 0x10 = true) :
    To (.dbgScan chain) s fun t =>
      t.dbg.sealStop = true ∧ t.keys.hot = [] ∧ t.keys.sess = [] ∧ t.keys.sessWrap = 0 ∧ t.keys.saveWrap = 0
        ∧ t.keys.root = s.keys.root ∧ t.otp = s.otp ∧ ∃ b : Bytes, b.length = 16 ∧ t.out = s.out ++ [.tdo b] := by
  have hexec : exec (.dbgScan chain) s = .next (selectScan (selected (BitVec.ofNat 8 (0x20 + chain.toNat)) s)) :=
    congrArg Host.Outcome.next (withRight_granted hon hhold hright)
  have hkept : (zeroiseConditioner (selected (BitVec.ofNat 8 (0x20 + chain.toNat)) s)).keys.root = s.keys.root
      ∧ (zeroiseConditioner (selected (BitVec.ofNat 8 (0x20 + chain.toNat)) s)).otp = s.otp
      ∧ (zeroiseConditioner (selected (BitVec.ofNat 8 (0x20 + chain.toNat)) s)).out = s.out := by
    rw [zeroiseConditioner_only]
    exact ⟨rfl, rfl, rfl⟩
  obtain ⟨hroot, hotp, hout⟩ := hkept
  unfold selectScan zeroiseSecrets at hexec
  generalize zeroiseConditioner _ = u at *
  exact to_of_eq hexec ⟨rfl, rfl, rfl, rfl, rfl, hroot, hotp, _, length_openBytes _ 16, congrArg (· ++ _) hout⟩

end

/-- Settles O46. -/
theorem tapInstructionsNeedTheirRight : Obligations.TapInstructionsNeedTheirRight := by
  intro s hon hhold hq
  obtain ⟨hreset, hid, hsample, hstatus⟩ := plain_instructions hon hhold
  exact ⟨hreset, hid, hsample, hstatus, fun p => dbgLoad_loads hon hhold, fun code => bypass_drives hon hhold,
    fun mask i w a b op word chain => denied_instructions hon hhold, fun hright _ => extest_holds hon hright,
    fun hright a b hb w => ⟨fun f => dbgMem_faults hon hhold hq hright hb,
      fun hf hw => by subst hw; exact dbgMem_reads hon hhold hq hright hb hf,
      fun hf hw ha hsound => by subst hw; exact dbgMem_writes hon hhold hq hright hb hf ha hsound⟩,
    fun hright => ⟨dbgCore_runs hon hhold hright, dbgCore_runs hon hhold hright, dbgCore_runs hon hhold hright,
      fun n v => dbgCore_writes n v hon hhold hright⟩,
    dbgTrace_drives hon hhold, fun hright word => dbgOtp_drives word hon hhold hright,
    fun hright chain => dbgScan_zeroises chain hon hhold hright⟩

end Sys2Proof.Tap
end

section
/-! # SPI and USB frames (O45) -/
namespace Sys2Proof.Frames
open Sys2Proof Sys2Proof.Machine Sys2Proof.Told Sys2Proof.Registers Sys2Proof.Doorbells
open Sys2Proof.MeterPort (settle_same)

/-! ## Bytes -/

theorem leVal_zeros {b : Bytes} (h : ∀ x ∈ b, x = 0) : leVal b = 0 := by
  induction b with
  | nil => rfl
  | cons x b ih =>
    rw [leVal, ih fun y hy => h y (List.mem_cons_of_mem _ hy), h x List.mem_cons_self]
    rfl

/-- A field of bytes that are zero is zero. -/
theorem num_of_allZero {b : Bytes} {k off : Nat} (h : allZero (b.drop k) = true) (hk : k ≤ off) (len : Nat) : num b off len = 0 := by
  refine leVal_zeros fun x hx => ?_
  have hdrop : b.drop off = (b.drop k).drop (off - k) := by rw [List.drop_drop, Nat.add_sub_cancel' hk]
  rw [slice, hdrop] at hx
  exact eq_of_beq (List.all_eq_true.mp h x (List.mem_of_mem_drop (List.mem_of_mem_take hx)))

theorem le_leVal (b : Bytes) : le b.length (leVal b) = b := by
  induction b with
  | nil => rfl
  | cons x b ih =>
    have hx := x.isLt
    have hdiv : (x.toNat + 256 * leVal b) / 256 = leVal b := by omega
    have hbyte : BitVec.ofNat 8 (x.toNat + 256 * leVal b) = x := BitVec.eq_of_toNat_eq (by rw [BitVec.toNat_ofNat]; omega)
    rw [List.length_cons, leVal, le, hdiv, hbyte, ih]

theorem slice_slice (b : Bytes) (i j n m : Nat) (h : j + m ≤ n) : slice (slice b i n) j m = slice b (i + j) m := by
  simp only [slice, List.drop_take, List.drop_drop, List.take_take]
  rw [Nat.min_eq_left (by omega)]

/-- HTAG of an entry in a frame. -/
theorem le_eHtag {f : Bytes} (hf : 48 ≤ f.length) : le 4 (eHtag (slice f 16 32)) = slice f 28 4 := by
  have hlen : (slice f 28 4).length = 4 := by simp [slice]; omega
  rw [eHtag, num, slice_slice f 16 12 32 4 (by decide)]
  conv_rhs => rw [← le_leVal (slice f 28 4)]
  rw [hlen]

/-! ## A transaction of the SPI target that runs no request (R113 to R117) -/

section
variable {s : State}

theorem rdStatus_drives (hup : spiUp s = true) :
    exec .rdStatus s = .next { s with
      spi := { s.spi with crcErr := false }, out := s.out ++ [.spi (spiStatus s ++ le 4 (crc32 (spiStatus s)).toNat)] } :=
  if_pos hup

theorem badCrc_dropped (hup : spiUp s = true) {arg : BitVec 32} {d : Bytes} {crc : BitVec 32} (hcrc : crc ≠ crc32 d) {i : Instr}
    (hi : i ∈ [Instr.wrMbx arg d crc true, Instr.spiSubmit arg d crc true]) :
    exec i s = .next { s with spi := { s.spi with crcErr := true } } := by
  have hbad : spiGood d crc true = false := by simp [spiGood, Ne.symm hcrc]
  simp only [List.mem_cons, List.not_mem_nil, or_false] at hi
  rcases hi with rfl | rfl
  · show execWrMbx arg d crc true s = _
    rw [execWrMbx, if_neg (by rw [hup]; decide), if_pos (by simp [hbad])]
    rfl
  · show execSpiSubmit arg d crc true s = _
    simp only [execSpiSubmit]
    rw [if_neg (by rw [hup]; decide), if_pos (by simp [hbad])]
    rfl

theorem unknown_dropped (hup : spiUp s = true) {cmd : BitVec 8} {arg : BitVec 32}
    (h : cmd = 0 ∨ 5 < cmd.toNat ∨ ((cmd = 1 ∨ cmd = 3) ∧ arg ≠ 0) ∨ (cmd = 2 ∧ (arg = 0 ∨ 4096 < arg.toNat)) ∨ (cmd = 4 ∧ 2 ^ 18 ≤ arg.toNat)
      ∨ (cmd = 5 ∧ 1 < arg.toNat)) :
    exec (.spiUnknownCommand cmd arg) s = .next { s with spi := { s.spi with crcErr := true } } := by
  have hunknown : spiUnknown cmd arg = true := by
    rcases h with rfl | h | ⟨rfl | rfl, h⟩ | ⟨rfl, h⟩ | ⟨rfl, h⟩ | ⟨rfl, h⟩
    · rfl
    · unfold spiUnknown
      split <;> first | omega | rfl
    · exact bne_iff_ne.mpr h
    · exact bne_iff_ne.mpr h
    · show (arg == 0 || decide (4096 < arg.toNat)) = true
      simpa using h
    · exact decide_eq_true h
    · exact decide_eq_true h
  exact if_pos (by rw [hup, hunknown]; rfl)

theorem rdMbx_drives (hup : spiUp s = true) {b : Bytes} (hb : s.spi.resp = some b) :
    exec .rdMbx s = .next { s with out := s.out ++ [.spi (le 4 b.length ++ b ++ le 4 (crc32 (le 4 b.length ++ b)).toNat)] } := by
  show execRdMbx s = _
  rw [execRdMbx, if_pos hup, hb]
  rfl

theorem rdCompl_drives (hup : spiUp s = true) {c d : Bytes × Bytes} {rest : List (Bytes × Bytes)} (hcompl : s.spi.compl = c :: d :: rest)
    (ack : Bool) :
    To (.rdCompl ack) s fun t =>
      t.spi.compl = (if ack && s.spi.shown then d :: rest else c :: d :: rest) ∧ t.spi.shown = true
        ∧ t.out = s.out ++ [.spi (complBytes (if ack && s.spi.shown then d else c)
            ++ le 4 (crc32 (complBytes (if ack && s.spi.shown then d else c))).toNat)]
        ∧ t = { s with spi := { s.spi with compl := t.spi.compl, shown := t.spi.shown }, out := t.out } := by
  show ∃ t, execRdCompl ack s = .next t ∧ _
  rw [execRdCompl, if_pos hup, hcompl]
  cases h : (ack && s.spi.shown)
  · exact ⟨_, rfl, rfl, rfl, rfl, rfl⟩
  · exact ⟨_, rfl, rfl, rfl, rfl, rfl⟩

/-! ## A request for the identity (R122, R125) -/

/-- The request as its path delivers it. -/
def identityReq (p : Path) (mbx : Nat) (b : Bytes) (s : State) : Req := reqFrom p 0 mbx b (.data (openBytes s.free dmaMost))

/-- The state in which it is judged. -/
def delivered (s : State) : State := { s with free := s.free + 7 }

theorem identity_accepted {p : Path} {mbx : Nat} {b : Bytes} (hexists : mailboxExists p 0 mbx = true)
    (hpath : p = .spi ∨ (s.link.hostPath = some p ∧ mbx ≠ 63)) (hlen : b.length = 16) (hsize : num b 2 2 = 16)
    (hzero : allZero (b.drop 8) = true) (hbusy : (mbxOf s 0 mbx).busy = false) (hserving : serving s = true)
    (hstandby : s.pwr.standby = false) (hdue : s.pwr.standbyDue = false) (hmode : modeRefusal 0x0101 s = none)
    (hpresent : (fnOf s 0).present = true) : accepts 0x0101 (identityReq p mbx b s) (some 0) (delivered s) = true := by
  have hphase : s.pwr.phase = .ready ∨ s.pwr.phase = .service := by
    unfold serving at hserving
    split at hserving
    case h_1 h => exact .inl h
    case h_2 h => exact .inr h
    case h_3 => exact absurd hserving (by decide)
  have hok : pathOk (identityReq p mbx b s) (delivered s) = true := by
    rcases hpath with rfl | ⟨hhost, hne⟩
    · rfl
    · cases p
      · simp [pathOk, identityReq, reqFrom, delivered, hhost, hne]
      · simp [pathOk, identityReq, reqFrom, delivered, hhost, hne]
      · rfl
  have hreach : unreachable (identityReq p mbx b s) (delivered s) = false := by
    have hfn : (fnOf (delivered s) 0).present = true := hpresent
    have hcode : (delivered s).pwr.phase = s.pwr.phase := rfl
    rcases hphase with h | h <;> simp [unreachable, identityReq, reqFrom, hexists, hfn, hcode, h]
  have hhold : mustHold 0x0101 (delivered s) = false := by
    rcases hphase with h | h <;> simp [mustHold, delivered, hstandby, hdue, mailboxUp, h, serviceOnly]
  have hfree : (mbxOf (delivered s) (identityReq p mbx b s).fn (identityReq p mbx b s).mbx).busy = false := hbusy
  have hbody : (identityReq p mbx b s).body = [] := by simp [identityReq, reqFrom, hlen]
  have hreqLen : (identityReq p mbx b s).len = 16 := by simp [identityReq, reqFrom, hlen, hsize]
  have hz8 : (identityReq p mbx b s).rsv8 = 0 := by simp [identityReq, reqFrom, num_of_allZero hzero (Nat.le_refl 8)]
  have hz10 : (identityReq p mbx b s).rsv10 = 0 := by simp [identityReq, reqFrom, num_of_allZero hzero (show 8 ≤ 10 by decide)]
  have hz12 : (identityReq p mbx b s).rsv12 = 0 := by simp [identityReq, reqFrom, num_of_allZero hzero (show 8 ≤ 12 by decide)]
  have hheader : headerBad (identityReq p mbx b s) = none := by
    simp [headerBad, firstBad, reqSize, hbody, hreqLen, hz8, hz10, hz12]
  have hmode' : modeRefusal 0x0101 (delivered s) = none := hmode
  have hunits : ∀ u, commandNeeds 0x0101 (identityReq p mbx b s) u = false := fun u => by
    unfold commandNeeds
    split <;> simp
  have hissued : opcodeIssued 0x0101 (identityReq p mbx b s) = true := rfl
  have hadmit : admission 0x0101 (identityReq p mbx b s) (some 0) (delivered s) = none := by
    simp [admission, hok, hheader, hissued, hmode', hbody, hunits]
  rw [accepts, takes, hreach, hok, hfree, hhold, hadmit]
  rfl

theorem identity_runs {p : Path} {mbx : Nat} {b : Bytes} (hop : num b 0 2 = 0x0101)
    (h : accepts 0x0101 (identityReq p mbx b s) (some 0) (delivered s) = true) :
    runRequest p 0 mbx b s = settle (delivered s)
      (respond 0x0101 (identityReq p mbx b s) stOk 0 (identityBody s 0) (delivered s)) := by
  have hrun : runRequest p 0 mbx b s = command (.devIdentity (identityReq p mbx b s)) 0x0101 (identityReq p mbx b s) (some 0)
      (fun t => .done t stOk 0 (identityBody t (identityReq p mbx b s).fn)) (delivered s) := by
    simp only [runRequest, hop]
    rfl
  rw [hrun, command_accepts h, runCommand, admission_of_accepts h]
  rfl

/-- A request through WR_MBX is answered in the SPI target. -/
theorem wrMbx_answers (hq : quiet s = true) (hup : spiUp s = true) {d : Bytes} (hlen : d.length = 16) (hop : num d 0 2 = 0x0101)
    (hsize : num d 2 2 = 16) (hzero : allZero (d.drop 8) = true) (hbusy : (mbxOf s 0 63).busy = false) (hserving : serving s = true)
    (hstandby : s.pwr.standby = false) (hdue : s.pwr.standbyDue = false) (hmode : modeRefusal 0x0101 s = none)
    (hpresent : (fnOf s 0).present = true) :
    To (.wrMbx 16 d (crc32 d) true) s fun t =>
      t.spi.resp = some (mbxBytes 0x0101 (BitVec.ofNat 32 (num d 4 4)) stOk 0 (identityBody s 0))
        ∧ t = { s with
            spi := { s.spi with resp := t.spi.resp }, mbxs := t.mbxs, free := t.free, link := { s.link with spiSeen := true } } := by
  generalize hs2 : ({ s with link := { s.link with spiSeen := true }, spi := { s.spi with resp := none } } : State) = s2
  have hexec : exec (.wrMbx 16 d (crc32 d) true) s = .next (sleepIfDue (runRequest .spi 0 63 d s2)) := by
    have hgood : ¬((16 : BitVec 32) = 0 ∨ 4096 < (16 : BitVec 32).toNat ∨ d.length ≠ (16 : BitVec 32).toNat ∨ !spiGood d (crc32 d) true) := by
      simp [hlen, spiGood]
    show execWrMbx 16 d (crc32 d) true s = _
    rw [execWrMbx, if_neg (by rw [hup]; decide), if_neg hgood, hbusy, ← hs2]
    rfl
  have haccepts : accepts 0x0101 (identityReq .spi 63 d s2) (some 0) (delivered s2) = true := by
    subst hs2
    exact identity_accepted rfl (.inl rfl) hlen hsize hzero hbusy hserving hstandby hdue hmode hpresent
  have hbody : identityBody s2 0 = identityBody s 0 := by
    subst hs2
    rfl
  have hrespond : respond 0x0101 (identityReq .spi 63 d s2) stOk 0 (identityBody s 0) (delivered s2)
      = { modMbx 0 63 (fun m => { m with busy := false }) (delivered s2) with
          spi := { s2.spi with resp := some (mbxBytes 0x0101 (BitVec.ofNat 32 (num d 4 4)) stOk 0 (identityBody s 0)) } } := rfl
  have hqs2 : quiet s2 = true := by
    subst hs2
    exact hq
  have hsettle : settle (delivered s2) (respond 0x0101 (identityReq .spi 63 d s2) stOk 0 (identityBody s 0) (delivered s2))
      = respond 0x0101 (identityReq .spi 63 d s2) stOk 0 (identityBody s 0) (delivered s2) := by
    rw [hrespond]
    exact settle_same (quiet_of_same hqs2 rfl rfl rfl) rfl rfl rfl rfl rfl rfl
  have hdue2 : s2.pwr.standbyDue = false := by
    subst hs2
    exact hdue
  have hawake : ∀ u : State, u.pwr.standbyDue = false → sleepIfDue u = u := fun u hu => by
    rw [sleepIfDue, standbyReady, hu]
    rfl
  rw [identity_runs hop haccepts, hbody, hsettle, hawake _ (by rw [hrespond]; exact hdue2), hrespond] at hexec
  subst hs2
  exact to_of_eq hexec ⟨rfl, rfl⟩

/-- A request frame is answered by a response frame. -/
theorem mbxReq_answers (hq : quiet s = true) (hup : usbUp s = true) {f : Bytes} {m : Nat} (hlen : f.length = 32) (htype : num f 0 2 = 3)
    (h2 : num f 2 2 = 0) (h4 : num f 4 4 = 0) (hm : m = num f 8 2) (hmlt : m < 63) (h10 : num f 10 2 = 0) (h12 : num f 12 4 = 16)
    (hop : num f 16 2 = 0x0101) (hsize : num f 18 2 = 16) (hzero : allZero (f.drop 24) = true) (hhost : s.link.hostPath = some .usb)
    (hbusy : (mbxOf s 0 m).busy = false) (hserving : serving s = true) (hstandby : s.pwr.standby = false)
    (hdue : s.pwr.standbyDue = false) (hmode : modeRefusal 0x0101 s = none) (hpresent : (fnOf s 0).present = true) :
    To (.usbSubmit f) s fun t =>
      t.link.usbMbx.getLast? = some (usbHeader 4 0 m (16 + (identityBody s 0).length)
          ++ mbxBytes 0x0101 (BitVec.ofNat 32 (num f 20 4)) stOk 0 (identityBody s 0))
        ∧ t = { s with
            mbxs := t.mbxs, free := t.free
            link := { s.link with usbMbx := t.link.usbMbx, usbNotify := t.link.usbNotify } } := by
  have hbytes : slice f 16 4096 = f.drop 16 := by
    rw [slice, List.take_of_length_le]
    simp
    omega
  have hdrop : ∀ off len, num (f.drop 16) off len = num f (16 + off) len := fun off len => by
    rw [num, num, slice, slice, List.drop_drop]
  have hheader : mbxReqHeader f = true := by simp [mbxReqHeader, htype, h2, h4, ← hm, h10, h12, hlen]; omega
  have hexec : exec (.usbSubmit f) s = .next (runRequest .usb 0 m (f.drop 16) s) := by
    show execUsbSubmit f s = _
    rw [execUsbSubmit, if_neg (by rw [hup]; decide), if_pos htype, if_pos hheader, hbytes, ← hm]
  have haccepts : accepts 0x0101 (identityReq .usb m (f.drop 16) s) (some 0) (delivered s) = true :=
    identity_accepted (by simp [mailboxExists]; omega) (.inr ⟨hhost, by omega⟩) (by simp [hlen]) (by rw [hdrop]; exact hsize)
      (by rw [List.drop_drop]; exact hzero) hbusy hserving hstandby hdue hmode hpresent
  have hrespond : respond 0x0101 (identityReq .usb m (f.drop 16) s) stOk 0 (identityBody s 0) (delivered s)
      = { modMbx 0 m (fun m => { m with busy := false }) (delivered s) with
          link := { s.link with
            usbMbx := s.link.usbMbx ++ [usbHeader 4 0 m (mbxBytes 0x0101 (BitVec.ofNat 32 (num (f.drop 16) 4 4)) stOk 0 (identityBody s 0)).length
              ++ mbxBytes 0x0101 (BitVec.ofNat 32 (num (f.drop 16) 4 4)) stOk 0 (identityBody s 0)]
            usbNotify := s.link.usbNotify ||| 1 } } := rfl
  have hlength : ∀ tag, (mbxBytes 0x0101 tag stOk 0 (identityBody s 0)).length = 16 + (identityBody s 0).length := fun tag => by
    simp [mbxBytes, zeros, le]
    omega
  have hsettle : settle (delivered s) (respond 0x0101 (identityReq .usb m (f.drop 16) s) stOk 0 (identityBody s 0) (delivered s))
      = respond 0x0101 (identityReq .usb m (f.drop 16) s) stOk 0 (identityBody s 0) (delivered s) := by
    rw [hrespond]
    exact settle_same (quiet_of_same hq rfl rfl rfl) rfl rfl rfl rfl rfl rfl
  rw [identity_runs (by rw [hdrop]; exact hop) haccepts, hsettle, hrespond, hlength, hdrop] at hexec
  exact to_of_eq hexec ⟨List.getLast?_concat, rfl⟩

/-! ## What a look-up of a context leaves of the newest entry -/

/-- The newest entry stays, behind as many as before, and no cause of an alert comes or goes with what is recorded. -/
structure KeepsLast (w : Work) (s t : State) : Prop where
  last : ∀ l, s.work = l ++ [w] → ∃ l', t.work = l' ++ [w] ∧ l'.length = l.length
  latched : t.ev.latched = s.ev.latched
  clear : t.ev.clear = s.ev.clear

theorem keepsLast_of_same {w : Work} {t : State} (hwork : t.work = s.work) (hev : t.ev = s.ev) : KeepsLast w s t :=
  ⟨fun l hl => ⟨l, hwork.trans hl, rfl⟩, by rw [hev], by rw [hev]⟩

theorem keepsLast_trans {w : Work} {t u : State} (h : KeepsLast w s t) (h' : KeepsLast w t u) : KeepsLast w s u :=
  ⟨fun l hl =>
    let ⟨l1, h1, hlen1⟩ := h.last l hl
    let ⟨l2, h2, hlen2⟩ := h'.last l1 h1
    ⟨l2, h2, hlen2.trans hlen1⟩, h'.latched.trans h.latched, h'.clear.trans h.clear⟩

theorem keepsLast_count {w : Work} {t : State} (h : KeepsLast w s t) (src fn n : Nat) : KeepsLast w s (count src fn n t) :=
  ⟨h.last, h.latched, h.clear⟩

theorem modFirst_append {p : Work → Bool} {w : Work} (hw : p w = false) (f : Work → Work) (l : List Work) :
    ∃ l', modFirst p f (l ++ [w]) = l' ++ [w] ∧ l'.length = l.length := by
  induction l with
  | nil => exact ⟨[], by simp [modFirst, hw], rfl⟩
  | cons x l ih =>
    obtain ⟨l', hl', hlen⟩ := ih
    rw [List.cons_append, modFirst]
    split
    · exact ⟨f x :: l, rfl, rfl⟩
    · exact ⟨x :: l', by rw [hl']; rfl, by rw [List.length_cons, List.length_cons, hlen]⟩

/-- A record that is not latched leaves what is latched (R417). -/
theorem eventX_unlatched {code arg : Nat} (h : evLatch code arg = false) (ext : Bytes) (s : State) :
    (eventX code arg ext s).ev.latched = s.ev.latched ∧ (eventX code arg ext s).ev.clear = s.ev.clear := by
  have hlatch : (mkEvt s code arg ext).latch = false := h
  have hpush : ∀ v : Events, (v.push s.opsec (mkEvt s code arg ext)).latched = v.latched
      ∧ (v.push s.opsec (mkEvt s code arg ext)).clear = v.clear := fun v => by
    unfold Events.push
    simp only [hlatch, Bool.false_eq_true, if_false]
    split <;> exact ⟨rfl, rfl⟩
  have hrecord : (s.ev.record s.diag.rate s.opsec (mkEvt s code arg ext)).latched = s.ev.latched
      ∧ (s.ev.record s.diag.rate s.opsec (mkEvt s code arg ext)).clear = s.ev.clear := by
    unfold Events.record
    split
    · exact hpush _
    · split
      · exact hpush _
      · exact ⟨rfl, rfl⟩
  unfold eventX
  split
  case h_6 => exact hrecord
  all_goals exact ⟨rfl, rfl⟩

section
variable {w : Work} (hsaved : w.saved = none)
include hsaved

theorem savedAt_none (wrapped : Bool) (q : Nat) : savedAt wrapped q w = false := by simp [savedAt, hsaved]

theorem wrapSaved_keepsLast (q : Nat) (s : State) : KeepsLast w s (wrapSaved q s) := by
  unfold wrapSaved
  split
  · exact keepsLast_of_same rfl rfl
  · exact ⟨fun l hl => by
      show ∃ l', modFirst _ _ s.work = _ ∧ _
      rw [hl]
      exact modFirst_append (savedAt_none hsaved false q) _ l, rfl, rfl⟩

theorem unwrapSaved_keepsLast (q : Nat) (s : State) : KeepsLast w s (unwrapSaved q s) := by
  unfold unwrapSaved
  split
  · exact keepsLast_of_same rfl rfl
  · split
    · exact ⟨fun l hl => by
        show ∃ l', modFirst _ _ s.work = _ ∧ _
        rw [hl]
        exact modFirst_append (savedAt_none hsaved true q) _ l, rfl, rfl⟩
    · obtain ⟨hlatched, hclear⟩ := eventX_unlatched (code := 0x0A03) (arg := 0) rfl (le 8 (2 ^ 32 + 64 * (contextLine q + 2)))
        { s with work := modFirst (savedAt true q) Work.restarted s.work }
      refine ⟨fun l hl => ?_, hlatched, hclear⟩
      rw [eventX_work]
      show ∃ l', modFirst _ _ s.work = _ ∧ _
      rw [hl]
      exact modFirst_append (savedAt_none hsaved true q) _ l

theorem findContext_keepsLast (q fn : Nat) (s : State) : KeepsLast w s (findContext q fn s) := by
  unfold findContext
  simp only []
  split
  · exact keepsLast_count (keepsLast_of_same rfl rfl) _ _ _
  · split
    · generalize hs1 : ({ s with cache := _ } : State) = s1
      have hfirst : KeepsLast w s s1 := hs1 ▸ keepsLast_of_same rfl rfl
      exact keepsLast_count (keepsLast_count (keepsLast_trans hfirst (unwrapSaved_keepsLast hsaved q s1)) _ _ _) _ _ _
    · generalize (s.cache.getD (q % 8) []).getD _ 0 = out
      generalize hs1 : drew ({ s with cache := _ } : State) = s1
      have hfirst : KeepsLast w s s1 := hs1 ▸ keepsLast_of_same rfl rfl
      have hswapped := keepsLast_trans hfirst (keepsLast_trans (wrapSaved_keepsLast hsaved out s1) (unwrapSaved_keepsLast hsaved q _))
      exact keepsLast_count (keepsLast_count (keepsLast_count (keepsLast_count hswapped _ _ _) _ _ _) _ _ _) _ _ _

end

/-! ## A submission with its source (R111, R116, R145) -/

/-- The entry of a frame, with its source. -/
def frameEntry (s : State) (q : Nat) (e src : Bytes) (pool : Bool) : Work :=
  takeSource src { qix := q, fn := (queueOf s q).fn, ent := e, epoch := s.epoch, cto := s.link.cto, charge := ingressCharge e, pooled := pool
                   stCharge := stagingCharge e }

/-- The state in which its queue's context is looked up. -/
def admitted (w : Work) (s : State) : State := recharge { s with work := s.work ++ [w] }

theorem takeFrame_eq {q : Nat} {e src : Bytes} (pool : Bool) (h1 : stage1 s (queueOf s q) e = none) :
    takeFrame q e src pool s = count 0x09 (queueOf s q).fn ((src.length + 63) / 64) (count 0x05 (queueOf s q).fn 1
      (findContext q (queueOf s q).fn (admitted (frameEntry s q e src pool) s))) := by
  simp only [takeFrame, h1]
  rfl

theorem frameEntry_arrived {q : Nat} {e src : Bytes} (pool : Bool) (h2 : stage2 e src = none) :
    (frameEntry s q e src pool).qix = q ∧ (frameEntry s q e src pool).ent = e ∧ (frameEntry s q e src pool).src = src
      ∧ (frameEntry s q e src pool).stage = .arrived ∧ (frameEntry s q e src pool).seq = 0 ∧ (frameEntry s q e src pool).saved = none := by
  unfold frameEntry takeSource
  rw [h2]
  exact ⟨rfl, rfl, rfl, rfl, rfl, rfl⟩

theorem quiet_admitted {w : Work} (hq : quiet s = true) (hstage : w.stage = .arrived) : quiet (admitted w s) = true := by
  have hnew : mayComplete s.jrn w = false := by simp [mayComplete, hstage]
  simp only [quiet, Bool.and_eq_true] at hq ⊢
  refine ⟨?_, hq.2⟩
  show (s.work ++ [w]).all (fun v => !mayComplete s.jrn v) = true
  simp only [List.all_append, List.all_cons, List.all_nil, Bool.and_true, hnew, Bool.not_false]
  exact hq.1

theorem alert_of_context {t : State} (h : ContextOnly s t) (hlatched : t.ev.latched = s.ev.latched) (hclear : t.ev.clear = s.ev.clear) :
    alert t = alert s := by
  have hev : alert t = alert { s with ev := t.ev } := by rw [h]; rfl
  rw [hev]
  simp only [alert, alertCause, hlatched, hclear]
  rfl

theorem enabled_admitted (w : Work) (s : State) (f : Nat) : (fnOf (admitted w s) f).enabled = (fnOf s f).enabled := by
  simp only [fnOf, admitted, recharge, List.getD_eq_getElem?_getD, List.getElem?_mapIdx]
  cases s.fns[f]? <;> rfl

/-- The frame is taken with its source, and nothing is told the host. -/
theorem takeFrame_takes {v : State} {q : Nat} {e src : Bytes} (pool : Bool) {l : Link} (hv : v = { s with link := l }) (hq : quiet s = true)
    (h1 : stage1 v (queueOf v q) e = none) (h2 : stage2 e src = none) {i : Instr}
    (hexec : exec i s = .next (settle s (takeFrame q e src pool v))) :
    To i s fun t =>
      (∃ w : Work, t.work.getLast? = some w ∧ w.qix = q ∧ w.ent = e ∧ w.src = src ∧ w.stage = .arrived ∧ w.seq = 0)
        ∧ t.work.length = s.work.length + 1 ∧ ((s.cache.getD (q % 8) []).contains q = true → t.work.dropLast = s.work)
        ∧ t.queues = s.queues ∧ t.nv = s.nv ∧ t.spi.crcErr = s.spi.crcErr ∧ t.link = l ∧ t.out = s.out := by
  obtain ⟨hqix, hent, hsrc, hstage, hseq, hsaved⟩ := frameEntry_arrived (s := v) (q := q) pool h2
  have hvq : quiet v = true := by
    subst hv
    exact hq
  have hquiet := quiet_admitted hvq hstage
  obtain ⟨honly, hquietFound, -⟩ := findContext_acts q (queueOf v q).fn hquiet
  have hkeeps := findContext_keepsLast hsaved q (queueOf v q).fn (admitted (frameEntry v q e src pool) v)
  have hhit : (s.cache.getD (q % 8) []).contains q = true →
      (findContext q (queueOf v q).fn (admitted (frameEntry v q e src pool) v)).work = s.work ++ [frameEntry v q e src pool] := fun h => by
    have hcache : ((admitted (frameEntry v q e src pool) v).cache.getD (q % 8) []).contains q = true := by
      subst hv
      exact h
    rw [findContext_hit _ hcache]
    subst hv
    rfl
  have henabled : ∀ f, (fnOf (admitted (frameEntry v q e src pool) v) f).enabled = (fnOf s f).enabled := fun f => by
    rw [enabled_admitted]
    subst hv
    rfl
  have hsame : stateCode (admitted (frameEntry v q e src pool) v) = stateCode s ∧ alert (admitted (frameEntry v q e src pool) v) = alert s := by
    subst hv
    exact ⟨rfl, rfl⟩
  rw [takeFrame_eq pool h1] at hexec
  generalize frameEntry v q e src pool = w at *
  generalize findContext q (queueOf v q).fn (admitted w v) = u at *
  have halert : alert u = alert s := (alert_of_context honly hkeeps.latched hkeeps.clear).trans hsame.2
  have hcode : stateCode u = stateCode s := by
    rw [ContextOnly] at honly
    rw [← hsame.1, honly]
    rfl
  have hrest : u.pwr = s.pwr ∧ u.lc = s.lc ∧ u.jrn = s.jrn ∧ u.fns = (admitted w v).fns ∧ u.queues = s.queues ∧ u.nv = s.nv
      ∧ u.spi.crcErr = s.spi.crcErr ∧ u.link = l ∧ u.out = s.out := by
    rw [ContextOnly] at honly
    rw [honly]
    subst hv
    exact ⟨rfl, rfl, rfl, rfl, rfl, rfl, rfl, rfl, rfl⟩
  obtain ⟨hpwr, hlc, hjrn, hfns, hqueues, hnv, hcrc, hlink, hout⟩ := hrest
  have hfnOf : ∀ f, (fnOf u f).enabled = (fnOf s f).enabled := fun f => by rw [fnOf, hfns, ← fnOf, henabled]
  obtain ⟨l', hwork, hlen⟩ := hkeeps.last v.work rfl
  have hvwork : v.work = s.work := by
    subst hv
    rfl
  have hsettle : settle s (count 0x09 (queueOf v q).fn ((src.length + 63) / 64) (count 0x05 (queueOf v q).fn 1 u))
      = count 0x09 (queueOf v q).fn ((src.length + 63) / 64) (count 0x05 (queueOf v q).fn 1 u) :=
    settle_plain hquietFound hcode (congrArg Power.degraded hpwr) hlc halert (congrArg Journal.fill hjrn) hfnOf
  rw [hsettle] at hexec
  refine to_of_eq hexec ⟨⟨w, ?_, hqix, hent, hsrc, hstage, hseq⟩, ?_, fun h => ?_, hqueues, hnv, hcrc, hlink, hout⟩
  · show u.work.getLast? = some w
    rw [hwork, List.getLast?_concat]
  · show u.work.length = s.work.length + 1
    rw [hwork, List.length_append, hlen, hvwork]
    rfl
  · show u.work.dropLast = s.work
    rw [hhit h, List.dropLast_concat]

theorem spiSubmit_takes (hq : quiet s = true) (hup : spiUp s = true) {q : Nat} {d : Bytes} (hqlt : q < 2 ^ 18) (hlen : 32 ≤ d.length)
    (hopen : fetchOpen s = true) (hfull : submitFull s = false) (hqueue : frameQueue s .spi q = true)
    (h1 : stage1 s (queueOf s q) (d.take 32) = none) (h2 : stage2 (d.take 32) (d.drop 32) = none)
    (hroom : ingressCharge (d.take 32) ≤ spiFree s) :
    To (.spiSubmit (BitVec.ofNat 32 q) d (crc32 d) true) s fun t =>
      (∃ w : Work, t.work.getLast? = some w ∧ w.qix = q ∧ w.ent = d.take 32 ∧ w.src = d.drop 32 ∧ w.stage = .arrived ∧ w.seq = 0)
        ∧ t.work.length = s.work.length + 1 ∧ ((s.cache.getD (q % 8) []).contains q = true → t.work.dropLast = s.work)
        ∧ t.queues = s.queues ∧ t.nv = s.nv ∧ t.spi.crcErr = s.spi.crcErr ∧ t.out = s.out := by
  have harg : (BitVec.ofNat 32 q).toNat = q := by rw [BitVec.toNat_ofNat]; omega
  have hexec : exec (.spiSubmit (BitVec.ofNat 32 q) d (crc32 d) true) s
      = .next (settle s (takeFrame q (d.take 32) (d.drop 32) false (spiSeen s))) := by
    show execSpiSubmit _ d (crc32 d) true s = _
    simp only [execSpiSubmit, harg]
    rw [if_neg (by rw [hup]; decide), if_neg (by simp [spiGood]; omega), if_neg (by simp [hopen, hfull, hqueue]),
      if_neg (by simp [h1]; omega)]
  obtain ⟨t, ht, hwork, hlength, hhit, hqueues, hnv, hcrc, -, hout⟩ :=
    takeFrame_takes (v := spiSeen s) (l := { s.link with spiSeen := true }) false rfl hq h1 h2 hexec
  exact ⟨t, ht, hwork, hlength, hhit, hqueues, hnv, hcrc, hout⟩

/-! ## SUBMIT frames on USB (R84, R109 to R112) -/

theorem usbSubmit_runs (hup : usbUp s = true) {f : Bytes} (htype : num f 0 2 ≠ 3) : exec (.usbSubmit f) s = .next (settle s (usbSubmit f s)) := by
  show execUsbSubmit f s = _
  rw [execUsbSubmit, if_neg (by rw [hup]; decide), if_neg htype]

theorem shortFrame_recorded (hq : quiet s = true) (hup : usbUp s = true) {f : Bytes} (htype : num f 0 2 ≠ 3) (hlen : f.length < 48) :
    To (.usbSubmit f) s fun t => Notified { s with ev := (event 0x0202 f.length s).ev } t := by
  have hexec := usbSubmit_runs hup htype
  rw [usbSubmit, if_pos hlen] at hexec
  exact to_of_settle hexec ((quiet_event ..).trans hq) fun t ht => told_of_event s ht rfl rfl rfl rfl rfl

theorem submitHeader_fields {f : Bytes} (h : submitHeader f = true) : num f 0 2 ≠ 3 ∧ num f 4 4 % 2 ^ 18 = num f 4 4 := by
  simp only [submitHeader, Bool.and_eq_true, beq_iff_eq, decide_eq_true_eq] at h
  obtain ⟨⟨⟨htype, -⟩, hqix⟩, -⟩ := h
  exact ⟨by omega, Nat.mod_eq_of_lt hqix⟩

theorem submit_refused (hq : quiet s = true) (hup : usbUp s = true) {f : Bytes} (hlen : 48 ≤ f.length) (hheader : submitHeader f = true)
    (hhost : s.link.hostPath ≠ some .usb) :
    To (.usbSubmit f) s fun t =>
      t = { s with link := { s.link with
        usbOut := s.link.usbOut ++ [usbHeader 2 (num f 4 4) 0 16 ++ slice f 28 4 ++ zeros 6 ++ le 2 stBusyOwned ++ zeros 4] } } := by
  obtain ⟨htype, hqix⟩ := submitHeader_fields hheader
  have hexec := usbSubmit_runs hup htype
  have hrun : usbSubmit f s = { s with link := { s.link with
      usbOut := s.link.usbOut ++ [usbHeader 2 (num f 4 4) 0 16 ++ slice f 28 4 ++ zeros 6 ++ le 2 stBusyOwned ++ zeros 4] } } := by
    simp only [usbSubmit, hqix]
    rw [if_neg (by omega), if_neg (by rw [hheader]; decide), if_pos hhost, usbRefusal, le_eHtag hlen]
  rw [hrun] at hexec
  exact to_of_eq hexec (settle_same (quiet_of_same hq rfl rfl rfl) rfl rfl rfl rfl rfl rfl)

theorem submit_taken (hq : quiet s = true) (hup : usbUp s = true) {f : Bytes} (hlen : 48 ≤ f.length) (hheader : submitHeader f = true)
    (hhost : s.link.hostPath = some .usb) (hqueue : frameQueue s .usb (num f 4 4) = true)
    (hheld : usbHeldBack s (num f 4 4) (slice f 16 32) = false) (h1 : stage1 s (queueOf s (num f 4 4)) (slice f 16 32) = none)
    (h2 : stage2 (slice f 16 32) (f.drop 48) = none) :
    To (.usbSubmit f) s fun t =>
      (∃ w : Work, t.work.getLast? = some w ∧ w.qix = num f 4 4 ∧ w.ent = slice f 16 32 ∧ w.src = f.drop 48 ∧ w.stage = .arrived ∧ w.seq = 0)
        ∧ t.work.length = s.work.length + 1 ∧ ((s.cache.getD (num f 4 4 % 8) []).contains (num f 4 4) = true → t.work.dropLast = s.work)
        ∧ t.queues = s.queues ∧ t.nv = s.nv ∧ t.link = s.link ∧ t.out = s.out := by
  obtain ⟨htype, hqix⟩ := submitHeader_fields hheader
  have hexec := usbSubmit_runs hup htype
  have hrun : usbSubmit f s = takeFrame (num f 4 4) (slice f 16 32) (f.drop 48)
      ((creditFor s 0 (ingressCharge (slice f 16 32))).getD false) s := by
    simp only [usbSubmit, hqix]
    rw [if_neg (by omega), if_neg (by rw [hheader]; decide), if_neg (not_not.mpr hhost), if_neg (by simp [hqueue, hheld])]
  rw [hrun] at hexec
  obtain ⟨t, ht, hwork, hlength, hhit, hqueues, hnv, -, hlink, hout⟩ := takeFrame_takes (v := s) (l := s.link) _ rfl hq h1 h2 hexec
  exact ⟨t, ht, hwork, hlength, hhit, hqueues, hnv, hlink, hout⟩

end

/-- Settles O45. -/
theorem framedPathsAreServed : Obligations.FramedPathsAreServed := by
  intro s hq
  refine ⟨fun hup => ⟨rdStatus_drives hup, fun arg d crc hcrc i => badCrc_dropped hup hcrc, fun cmd arg => unknown_dropped hup, ?_,
    fun b => rdMbx_drives hup, fun c d rest hcompl => rdCompl_drives hup hcompl, ?_⟩, fun hup => ⟨fun f => shortFrame_recorded hq hup, ?_, ?_⟩⟩
  · exact fun d hlen hop hsize hzero => wrMbx_answers hq hup hlen hop hsize hzero
  · exact fun q d hqlt hlen => spiSubmit_takes hq hup hqlt hlen
  · exact fun f hlen hheader => ⟨submit_refused hq hup hlen hheader, submit_taken hq hup hlen hheader⟩
  · exact fun f m hlen htype h2 h4 hm hmlt h10 h12 hop hsize hzero => mbxReq_answers hq hup hlen htype h2 h4 hm hmlt h10 h12 hop hsize hzero

end Sys2Proof.Frames
end

section
/-! # Packages that arrive in chunks, and entries formed one after another -/
namespace Sys2Proof.Packages
open Sys2Proof Sys2Proof.Machine Sys2Proof.Told Sys2Proof.Replies Sys2Proof.Entries

/-! ## The ring takes an entry, whatever else changes (R251, R262) -/

theorem sealPages_congr {s t : State} (n : Nat) (hpwr : t.pwr = s.pwr) (hjrn : t.jrn = s.jrn) (hnv : t.nv = s.nv) :
    (sealPages n t).nv = (sealPages n s).nv ∧ (sealPages n t).jrn = (sealPages n s).jrn := by
  simp only [sealPages, ringWorks, freePages, ringUsed, hpwr, hjrn, hnv]
  exact ⟨rfl, rfl⟩

theorem makeRoom_congr {s t : State} (n : Nat) (hpwr : t.pwr = s.pwr) (hjrn : t.jrn = s.jrn) (hnv : t.nv = s.nv) :
    (makeRoom n t).nv = (makeRoom n s).nv ∧ (makeRoom n t).jrn = (makeRoom n s).jrn := by
  unfold makeRoom
  rw [hjrn]
  split
  · exact ⟨hnv, hjrn⟩
  · exact sealPages_congr _ hpwr hjrn hnv

section
variable {s t : State} (hpwr : t.pwr = s.pwr) (hjrn : t.jrn = s.jrn) (hnv : t.nv = s.nv) (hd0 : t.dgu0 = s.dgu0) (hd1 : t.dgu1 = s.dgu1)
include hpwr hjrn hnv hd0 hd1

theorem ringTakes_congr : ringTakes t = ringTakes s := by
  obtain ⟨hroomNv, hroomJrn⟩ := makeRoom_congr 2040 hpwr hjrn hnv
  simp only [ringTakes, entriesStop, seqExhausted, chainOn, ringWorks, roomForEntry, freePages, ringUsed, hroomNv, hroomJrn, hpwr, hjrn, hd0, hd1]
  rfl

theorem entryRefusal_congr (reserve : Bool) : entryRefusal reserve t = entryRefusal reserve s := by
  obtain ⟨-, hroomJrn⟩ := makeRoom_congr 2040 hpwr hjrn hnv
  simp only [entryRefusal, seqExhausted, seqReserve, chainOn, ringWorks, journalFull, jfill, ringUsed, roomForEntry, hroomJrn, hpwr, hjrn,
    hnv, hd0, hd1]
  rfl

end

theorem ringTakes_of_same {s t : State} (h : ringTakes s = true) (hpwr : t.pwr = s.pwr) (hjrn : t.jrn = s.jrn) (hnv : t.nv = s.nv)
    (hd0 : t.dgu0 = s.dgu0) (hd1 : t.dgu1 = s.dgu1) : ringTakes t = true := by rw [ringTakes_congr hpwr hjrn hnv hd0 hd1, h]

theorem entryRefusal_of_same {s t : State} {reserve : Bool} (h : entryRefusal reserve s = none) (hpwr : t.pwr = s.pwr)
    (hjrn : t.jrn = s.jrn) (hnv : t.nv = s.nv) (hd0 : t.dgu0 = s.dgu0) (hd1 : t.dgu1 = s.dgu1) : entryRefusal reserve t = none := by
  rw [entryRefusal_congr hpwr hjrn hnv hd0 hd1, h]

/-- With room for it the entry takes the next SEQ. -/
theorem entrySeq_of_ringTakes {s : State} (h : ringTakes s = true) : entrySeq s = s.jrn.nextSeq := by
  rw [entrySeq, if_neg (by rw [(ringTakes_parts h).1]; decide)]

/-! ## The ring keeps what it holds -/

theorem takeSeq_ring (s : State) : (takeSeq s).nv.ring = s.nv.ring := by rw [takeSeq_nv]

theorem writePages_ring (s : State) : ∃ l, (writePages s).nv.ring = s.nv.ring ++ l := ⟨_, rfl⟩

theorem journalEntry_ring (type : Nat) (claimed : Bool) (body : Bytes) (s : State) {e : Entry} (he : e ∈ s.nv.ring) :
    e ∈ (journalEntry type claimed body s).nv.ring := by
  obtain ⟨l, hl⟩ := makeRoom_ring 2040 s
  have htaken : (takeSeq (makeRoom 2040 s)).nv.ring = s.nv.ring ++ l := (takeSeq_ring _).trans hl
  unfold journalEntry
  split
  · exact he
  · generalize takeSeq (makeRoom 2040 s) = u at htaken ⊢
    simp only []
    generalize hv : ({ u with jrn := _ } : State) = v
    have hring : v.nv.ring = s.nv.ring ++ l := by rw [← hv]; exact htaken
    obtain ⟨m, hm⟩ := writePages_ring v
    rw [hm, hring]
    exact List.mem_append_left _ (List.mem_append_left _ he)

theorem journalEntry_nextSeq (type : Nat) (claimed : Bool) (body : Bytes) (s : State) :
    s.jrn.nextSeq ≤ (journalEntry type claimed body s).jrn.nextSeq := by
  unfold journalEntry
  split
  · exact Nat.le_refl _
  · show s.jrn.nextSeq ≤ (takeSeq (makeRoom 2040 s)).jrn.nextSeq
    rw [takeSeq_nextSeq, makeRoom_nextSeq]
    exact Nat.le_succ _

/-- An entry that is followed by another stays in the ring. -/
theorem journalled_then {type later : Nat} {claimed : Bool} {body more : Bytes} {s t u : State} (h : Journalled type body s t)
    (hjrn : u.jrn = t.jrn) (hnv : u.nv = t.nv) : Journalled type body s (journalEntry later claimed more u) := by
  obtain ⟨hseq, e, he, hfirst, hlast, htype, hbody⟩ := h
  refine ⟨Nat.lt_of_lt_of_le hseq ?_, e, journalEntry_ring _ _ _ u (by rw [hnv]; exact he), hfirst, hlast, htype, hbody⟩
  rw [← hjrn]
  exact journalEntry_nextSeq ..

/-! ## Chunks (R302, R361) -/

/-- The state once the bytes of a chunk have come. -/
def fetched (r : Req) (s : State) : State := if bit (fld r 0 4) 0 then hostRead r.fn (fld r 16 8) (fld r 8 4) false s else s

theorem fetched_only (r : Req) (s : State) : fetched r s = { s with out := (fetched r s).out } := by
  unfold fetched
  split <;> rfl

/-- The bytes of a chunk. -/
def chunkBytes (r : Req) : Bytes :=
  if bit (fld r 0 4) 0 then
    match r.dma with
    | .data b => fit (fld r 8 4) b
    | .aerError _ => []
  else r.body.drop 24

/-- What is known of a request once its chunk has been taken. -/
structure Chunk (op limit : Nat) (r : Req) (s : State) (p : Bytes) : Prop where
  long : 24 ≤ r.body.length
  range : chunkRange r = none
  length : r.body.length = if bit (fld r 0 4) 0 then 24 else 24 + fld r 8 4
  good : chunkBad r (pkgOf op r s).length = none
  within : fld r 4 4 + fld r 8 4 ≤ limit
  whole : p = (if fld r 4 4 = 0 then [] else pkgOf op r s) ++ chunkBytes r
  path : bit (fld r 0 4) 0 = true → r.path = .pcie
  read : bit (fld r 0 4) 0 = true → dmaRead r (fld r 16 8) (fld r 8 4) s = (some (chunkBytes r), fetched r s)

theorem chunk_of_whole {op limit : Nat} {r : Req} {s : State} {p : Bytes} (h : chunkWhole op limit r s = some p) : Chunk op limit r s p := by
  unfold chunkWhole at h
  simp only [Option.ite_none_right_eq_some] at h
  obtain ⟨⟨hlong, hrange, hlength, hgood, hwithin⟩, h⟩ := h
  by_cases hdma : bit (fld r 0 4) 0 = true
  · rw [if_pos hdma] at h
    cases hread : r.dma with
    | aerError k =>
      rw [hread] at h
      exact absurd h (Option.some_ne_none p).symm
    | data b =>
      rw [hread] at h
      simp only [Option.ite_none_right_eq_some] at h
      obtain ⟨⟨hpath, hbme, hfault⟩, h⟩ := h
      have hbytes : chunkBytes r = fit (fld r 8 4) b := by rw [chunkBytes, if_pos hdma, hread]
      refine ⟨hlong, hrange, hlength, hgood, hwithin, ?_, fun _ => hpath, fun _ => ?_⟩
      · rw [hbytes]
        exact (Option.some.inj h).symm
      · rw [hbytes, dmaRead, hbme, hfault, hread, fetched, if_pos hdma]
        rfl
  · rw [if_neg hdma] at h
    refine ⟨hlong, hrange, hlength, hgood, hwithin, ?_, fun hd => absurd hd hdma, fun hd => absurd hd hdma⟩
    rw [chunkBytes, if_neg hdma]
    exact (Option.some.inj h).symm

theorem dmaRead_error {r : Req} {k : ReadError} (h : r.dma = .aerError k) (addr len : Nat) (s : State) : (dmaRead r addr len s).1 = none := by
  unfold dmaRead
  rw [h]
  split
  · rfl
  · cases dmaFault r false addr len s <;> rfl

/-- Flags of a chunk are below 4, and it holds bytes. -/
theorem chunkRange_none {r : Req} (h : chunkRange r = none) : fld r 0 4 < 4 ∧ 0 < fld r 8 4 := by
  simp only [chunkRange, firstBad, Bool.or_eq_true, beq_iff_eq, decide_eq_true_eq] at h
  by_cases hflags : 4 ≤ fld r 0 4
  · rw [if_pos hflags] at h
    exact absurd h (Option.some_ne_none _)
  · rw [if_neg hflags] at h
    by_cases hzero : fld r 8 4 = 0
    · rw [if_pos (.inl hzero)] at h
      exact absurd h (Option.some_ne_none _)
    · omega

theorem chunk_nonempty {op limit : Nat} {r : Req} {s : State} {p : Bytes} (h : Chunk op limit r s p) : p ≠ [] := by
  have hpos := (chunkRange_none h.range).2
  have hlen := h.length
  have hbytes : 0 < (chunkBytes r).length := by
    unfold chunkBytes
    by_cases hdma : bit (fld r 0 4) 0 = true
    · have hread := congrArg Prod.fst (h.read hdma)
      rw [if_pos hdma]
      split
      case h_1 b _ =>
        simp [fit, zeros]
        omega
      case h_2 k hk => exact absurd (hread.symm.trans (dmaRead_error hk ..)) (Option.some_ne_none _)
    · rw [if_neg hdma] at hlen ⊢
      simp [hlen]
      exact hpos
  rw [h.whole]
  intro hnil
  rw [(List.append_eq_nil_iff.mp hnil).2] at hbytes
  exact absurd hbytes (by decide)

theorem chunkRun_takes {op limit : Nat} {final : Bytes → State → Reply} {r : Req} {s : State} {p : Bytes} (h : Chunk op limit r s p) :
    chunkRun op limit final r s = if bit (fld r 0 4) 1 then final p (dropPkg r (fetched r s)) else .done (setPkg op r p (fetched r s)) stOk 0 [] := by
  have hlong := h.long
  have hread : (if bit (fld r 0 4) 0 then dmaRead r (fld r 16 8) (fld r 8 4) s else (some (r.body.drop 24), s))
      = (some (chunkBytes r), fetched r s) := by
    by_cases hdma : bit (fld r 0 4) 0 = true
    · rw [if_pos hdma, h.read hdma]
    · rw [if_neg hdma, chunkBytes, if_neg hdma, fetched, if_neg hdma]
  have hpath : (bit (fld r 0 4) 0 && r.path != .pcie) = false := by
    by_cases hdma : bit (fld r 0 4) 0 = true
    · rw [h.path hdma, hdma]; rfl
    · rw [Bool.not_eq_true] at hdma; rw [hdma]; rfl
  unfold chunkRun
  simp only [h.range, h.good, hread, hpath, if_neg (Nat.not_lt.mpr hlong), if_neg (not_not.mpr h.length), if_neg (Nat.not_lt.mpr h.within),
    Bool.false_eq_true, if_false, ← h.whole]

/-! ## What the request's own mailbox holds of it -/

/-- The package is gone, and the bytes of the last chunk have come. -/
def taken (r : Req) (s : State) : State := dropPkg r (fetched r s)

theorem taken_only (r : Req) (s : State) : taken r s = { s with mbxs := (taken r s).mbxs, out := (taken r s).out } := by
  have h := fetched_only r s
  unfold taken dropPkg setPkg modMbx
  generalize fetched r s = u at h ⊢
  rw [h]

theorem quiet_taken {r : Req} {s : State} (hq : quiet s = true) : quiet (taken r s) = true := by
  rw [taken_only]
  exact quiet_of_same hq rfl rfl rfl

theorem setPkg_fetched_only (op : Nat) (r : Req) (p : Bytes) (s : State) :
    setPkg op r p (fetched r s) = { s with mbxs := (setPkg op r p (fetched r s)).mbxs, out := (setPkg op r p (fetched r s)).out } := by
  have h := fetched_only r s
  unfold setPkg modMbx
  generalize fetched r s = u at h ⊢
  rw [h]

/-- A response after a change of the request's own mailbox and of what has been sent. -/
theorem responded_of_own {r : Req} {s u t : State} (h : Responded r u t) (hu : u = { s with mbxs := u.mbxs, out := u.out })
    (hothers : ∀ k, k ≠ 64 * r.fn + r.mbx → tget u.mbxs k = tget s.mbxs k) : Responded r s t := by
  obtain ⟨heq, hfns, hmbxs⟩ := h
  refine ⟨?_, ?_, fun k hk => (hmbxs k hk).trans (hothers k hk)⟩
  · rw [heq, hu]
  · rw [hfns, hu]

theorem setPkg_others (op : Nat) (r : Req) (p : Bytes) (s : State) {k : Nat} (hk : k ≠ 64 * r.fn + r.mbx) :
    tget (setPkg op r p (fetched r s)).mbxs k = tget s.mbxs k := by
  rw [setPkg, Admission.tget_modMbx_ne _ _ _ _ hk, fetched_only]

theorem responded_of_taken {r : Req} {s t : State} (h : Responded r (taken r s) t) : Responded r s t :=
  responded_of_own h (taken_only r s) fun _ hk => setPkg_others 0 r [] s hk

/-- A response leaves the package that the mailbox holds. -/
theorem respond_pkg (op : Nat) (r : Req) (status detail : Nat) (body : Bytes) (s : State) :
    (mbxOf (respond op r status detail body s) r.fn r.mbx).pkg = (mbxOf s r.fn r.mbx).pkg
      ∧ (mbxOf (respond op r status detail body s) r.fn r.mbx).pkgOp = (mbxOf s r.fn r.mbx).pkgOp
      ∧ (mbxOf (respond op r status detail body s) r.fn r.mbx).pkgOpsec = (mbxOf s r.fn r.mbx).pkgOpsec := by
  have hkept : ∀ (g : Mbx → Mbx) (u v : State), (∀ m, (g m).pkg = m.pkg ∧ (g m).pkgOp = m.pkgOp ∧ (g m).pkgOpsec = m.pkgOpsec) →
      v.mbxs = (modMbx r.fn r.mbx g u).mbxs → (mbxOf v r.fn r.mbx).pkg = (mbxOf u r.fn r.mbx).pkg
        ∧ (mbxOf v r.fn r.mbx).pkgOp = (mbxOf u r.fn r.mbx).pkgOp ∧ (mbxOf v r.fn r.mbx).pkgOpsec = (mbxOf u r.fn r.mbx).pkgOpsec :=
    fun g u v hg hv => by
      have hbox : mbxOf v r.fn r.mbx = g (mbxOf u r.fn r.mbx) := by
        rw [mbxOf, hv, ← mbxOf]
        exact Admission.mbxOf_modMbx_self ..
      rw [hbox]
      exact hg _
  unfold respond
  simp only []
  split
  · refine hkept (fun m => { m with
      busy := false, done := true
      buf := loadBytes (mbxBytes op r.tag status detail body ++ openBytes s.free (4096 - (mbxBytes op r.tag status detail body).length)) })
      (drew s) _ (fun m => ⟨rfl, rfl, rfl⟩) ?_
    split
    · exact message_mbxs ..
    · rfl
  · exact hkept (fun m => { m with busy := false }) s _ (fun m => ⟨rfl, rfl, rfl⟩) rfl
  · exact hkept (fun m => { m with busy := false }) s _ (fun m => ⟨rfl, rfl, rfl⟩) rfl

section
variable {i : Instr} {op limit : Nat} {final : Bytes → State → Reply} {r : Req} {s : State} {p : Bytes} {run : State → Reply}

/-- A chunk that is not the last is kept. -/
theorem chunk_kept (hexec : exec i s = .next (command i op r none run s)) (h : accepts op r none s = true) (hq : quiet s = true)
    (hchunk : Chunk op limit r s p) (hrun : run s = chunkRun op limit final r s) (hmore : bit (fld r 0 4) 1 = false) :
    To i s fun t => Answered op r stOk 0 [] t ∧ Responded r s t ∧ (mbxOf t r.fn r.mbx).pkg = p ∧ (mbxOf t r.fn r.mbx).pkgOp = op
      ∧ (mbxOf t r.fn r.mbx).pkgOpsec = s.opsec := by
  have hdone : run s = .done (setPkg op r p (fetched r s)) stOk 0 [] := by
    rw [hrun, chunkRun_takes hchunk, hmore]
    rfl
  have hquiet : quiet (setPkg op r p (fetched r s)) = true := by
    rw [setPkg_fetched_only]
    exact quiet_of_same hq rfl rfl rfl
  have hbox : mbxOf (setPkg op r p (fetched r s)) r.fn r.mbx
      = { mbxOf (fetched r s) r.fn r.mbx with pkg := p, pkgOp := op, pkgOpsec := (fetched r s).opsec } := by
    rw [setPkg, if_neg (chunk_nonempty hchunk)]
    exact Admission.mbxOf_modMbx_self ..
  have hopsec : (fetched r s).opsec = s.opsec := by rw [fetched_only]
  have hresponded : ∀ t, Responded r (setPkg op r p (fetched r s)) t → Responded r s t := fun t ht =>
    responded_of_own ht (setPkg_fetched_only op r p s) fun _ hk => setPkg_others op r p s hk
  obtain ⟨hanswered, hresp⟩ := command_answers h hdone hquiet i
  have hcommand : command i op r none run s = settle s (respond op r stOk 0 [] (setPkg op r p (fetched r s))) := by
    rw [command_accepts h, runCommand, admission_of_accepts h, hdone]
  obtain ⟨hpkg, hpkgOp, hpkgOpsec⟩ := respond_pkg op r stOk 0 [] (setPkg op r p (fetched r s))
  rw [hbox] at hpkg hpkgOp hpkgOpsec
  have hmbx : ∀ u : State, mbxOf (settle s u) r.fn r.mbx = mbxOf u r.fn r.mbx := fun u => rfl
  refine to_of_eq hexec ⟨hanswered, hresponded _ hresp, ?_⟩
  rw [hcommand, hmbx, hpkg, hpkgOp, hpkgOpsec, hopsec]
  exact ⟨rfl, rfl, rfl⟩

/-- The last chunk has the package judged. -/
theorem chunk_judged (hchunk : Chunk op limit r s p) (hrun : run s = chunkRun op limit final r s) (hlast : bit (fld r 0 4) 1 = true) :
    run s = final p (taken r s) := by
  rw [hrun, chunkRun_takes hchunk, hlast]
  rfl

/-- A package that is refused changes nothing but its own mailbox. -/
theorem package_refused (hexec : exec i s = .next (command i op r none run s)) (h : accepts op r none s = true) (hq : quiet s = true)
    {st det : Nat} (hrun : run s = .refuse (taken r s) st det) : To i s fun t => Answered op r st det [] t ∧ Responded r s t :=
  to_of_done hexec h hrun (quiet_taken hq) fun _ ha hr => ⟨ha, responded_of_taken hr⟩

end

end Sys2Proof.Packages
end

section
/-! # Debug rights come into force and end (O47) -/
namespace Sys2Proof.DebugRights
open Sys2Proof Sys2Proof.Machine Sys2Proof.Told Sys2Proof.Replies Sys2Proof.Entries Sys2Proof.Packages
open Sys2Proof.Functions (fillEvents_only)

/-! ## The entries of a gate (R335) -/

theorem ents_note (f : GateFault) (s : State) (g : Nat) : (gateOf (gateFault f s) g).ents = (gateOf s g).ents := by
  have hnote : ∀ (rec : Bytes) (x : Gate), (x.note rec).ents = x.ents := fun rec x => by
    unfold Gate.note
    split
    · split <;> rfl
    · split <;> rfl
  have hgates : (gateFault f s).gates = modAt s.gates f.gate (Gate.note (f.record s.opsec)) := by
    unfold gateFault
    simp only []
    rw [quietFault_only, eventX_only]
    rfl
  rw [gateOf, hgates, gateOf]
  simp only [modAt, List.getD_eq_getElem?_getD, List.getElem?_modify]
  cases s.gates[g]? with
  | none => rfl
  | some x =>
    by_cases hg : f.gate = g
    · simp [hg, hnote]
    · simp [hg]

/-- Completions that go out may be noted as faults in a gate, and leave its entries. -/
theorem ents_settle (s u : State) (g : Nat) : (gateOf (settle s u) g).ents = (gateOf u g).ents := by
  have hdeliver : (gateOf (deliver u) g).ents = (gateOf u g).ents := by
    unfold deliver
    simp only []
    split
    · rfl
    · refine foldl_keeps (P := fun t => (gateOf t g).ents = (gateOf u g).ents) _ _ _ rfl fun t f h => ?_
      rw [ents_note, h]
  have hgates : (settle s u).gates = (noteChanges s (fillEvents (deliver u))).gates := rfl
  have hnotes : (noteChanges s (fillEvents (deliver u))).gates = (deliver u).gates := by
    rw [(noteChanges_notified s _).1, fillEvents_only]
  rw [gateOf, hgates, hnotes]
  exact hdeliver

theorem ents_setGate {s : State} {g : Nat} (hg : g < s.gates.length) (es : Tab GEntry) : (gateOf (setGate g es s) g).ents = es := by
  simp [gateOf, setGate, modAt, List.getD_eq_getElem?_getD, hg]

/-! ## The test root (R304) -/

section
variable {s : State}

/-- The key store with the test root, before its keys are told. -/
def testRooted (s : State) : State :=
  freshWraps { fenceAll (fun _ => true) (disableAll .testRoot s) with
    keys := { (fenceAll (fun _ => true) (disableAll .testRoot s)).keys with
      hot := [], pkeKey := [false, false], root := some testRootValue, testRoot := true, forcedTest := true } }

theorem toTestRoot_eq (h : s.keys.testRoot = false) :
    toTestRoot s = endCauseAll .testRoot (journalEntry 0x33 false (deviceKeysBody (testRooted s)) (testRooted s)) := by
  simp only [toTestRoot, h, Bool.false_eq_true, if_false, testRooted]

theorem testRooted_keeps (s : State) :
    (testRooted s).keys.testRoot = true ∧ (testRooted s).jrn = s.jrn ∧ (testRooted s).nv = s.nv := by
  have hdisabled := disableAll_only .testRoot s
  unfold testRooted
  generalize disableAll .testRoot s = a at hdisabled ⊢
  have hkept : (fenceAll (fun _ => true) a).jrn = s.jrn ∧ (fenceAll (fun _ => true) a).nv = s.nv := by
    rw [hdisabled]
    exact ⟨rfl, rfl⟩
  obtain ⟨hjrn, hnv⟩ := hkept
  generalize fenceAll (fun _ => true) a = b at hjrn hnv ⊢
  refine ⟨?_, by rw [freshWraps_only, hjrn], by rw [freshWraps_only, hnv]⟩
  unfold freshWraps
  simp only []
  split
  · rw [takeSeed_only, takeSeed_only]
  · rfl

/-- Going over to the test root takes no entry out of the ring. -/
theorem toTestRoot_acts (s : State) :
    (toTestRoot s).keys.testRoot = true ∧ ∀ type body s0, Journalled type body s0 s → Journalled type body s0 (toTestRoot s) := by
  by_cases h : s.keys.testRoot = true
  · have hsame : toTestRoot s = { s with keys := { s.keys with forcedTest := true } } := by
      unfold toTestRoot
      rw [if_pos h]
    rw [hsame]
    exact ⟨h, fun type body s0 hj => hj⟩
  · obtain ⟨htest, hjrn, hnv⟩ := testRooted_keeps s
    have htest' : (journalEntry 0x33 false (deviceKeysBody (testRooted s)) (testRooted s)).keys.testRoot = true := by
      rw [journalEntry_keys, htest]
    have hkept : ∀ type body s0, Journalled type body s0 s →
        Journalled type body s0 (journalEntry 0x33 false (deviceKeysBody (testRooted s)) (testRooted s)) :=
      fun type body s0 hj => journalled_then hj hjrn hnv
    rw [toTestRoot_eq (by simpa using h)]
    generalize journalEntry 0x33 false (deviceKeysBody (testRooted s)) (testRooted s) = u at *
    rw [endCauseAll_only]
    exact ⟨htest', fun type body s0 hj => journalled_congr (s := s0) (t := u) rfl rfl rfl (hkept _ _ _ hj)⟩

/-! ## A certificate comes into force (R367 to R369) -/

/-- The rights and limits of a certificate. -/
def certOf (p : Bytes) : Cert :=
  { rights := BitVec.ofNat 32 (num p 24 4), opsecLast := num p 40 8, serial := BitVec.ofNat 64 (num p 48 8) }

/-- Its ranges. -/
def certRanges (p : Bytes) : Tab GEntry := (List.range (num p 31 1)).map fun i => (i, entryFrom (slice p (64 + 32 * i) 32))

/-- The certificate in force, under a new epoch, before its entry. -/
def certified (p : Bytes) (s : State) : State := bumpEpoch (setGate gDbg (certRanges p) { s with dbg := { s.dbg with cert := some (certOf p) } })

theorem acceptCert_eq {p : Bytes} (h : s.dbg.cert = none) :
    acceptCert p s = if invasive (num p 24 4) then toTestRoot (journalEntry 0x3A false (certEntry p) (certified p s))
      else journalEntry 0x3A false (certEntry p) (certified p s) := by
  have hnone : endDebug 3 s = s := by
    unfold endDebug
    rw [h]
  unfold acceptCert
  rw [hnone]
  rfl

theorem length_certEntry (p : Bytes) : (certEntry p).length ≤ 2024 := by
  simp [certEntry, slice, zeros]
  omega

theorem certified_journalled {p : Bytes} (hring : ringTakes s = true) :
    Journalled 0x3A (certEntry p) s (journalEntry 0x3A false (certEntry p) (certified p s)) :=
  journalled_congr (s := certified p s) rfl rfl rfl
    (journalEntry_journalled 0x3A false (certEntry p) (certified p s) (by decide) (length_certEntry p)
      (ringTakes_of_same hring rfl rfl rfl rfl rfl))

theorem acceptCert_acts {p : Bytes} (h : s.dbg.cert = none) (hring : ringTakes s = true) (hgates : s.gates.length = 21) :
    (acceptCert p s).dbg.cert = some (certOf p) ∧ Journalled 0x3A (certEntry p) s (acceptCert p s)
      ∧ (invasive (num p 24 4) = false → (acceptCert p s).epoch = s.epoch + 1 ∧ (acceptCert p s).keys = s.keys
          ∧ (gateOf (acceptCert p s) gDbg).ents = certRanges p)
      ∧ (invasive (num p 24 4) = true → (acceptCert p s).keys.testRoot = true) := by
  have hcert := (Tap.acceptCert_dbg p s).2
  have hj := certified_journalled (p := p) hring
  have hents : (gateOf (certified p s) gDbg).ents = certRanges p :=
    ents_setGate (s := { s with dbg := { s.dbg with cert := some (certOf p) } }) (by rw [hgates]; decide) _
  have honly := journalEntry_only 0x3A false (certEntry p) (certified p s)
  rw [acceptCert_eq h] at hcert ⊢
  generalize hu : journalEntry 0x3A false (certEntry p) (certified p s) = u at *
  have hepoch : u.epoch = s.epoch + 1 := by rw [honly]; rfl
  have hkeys : u.keys = s.keys := by rw [honly]; rfl
  have hgate : (gateOf u gDbg).ents = certRanges p := by
    rw [← hents, gateOf, gateOf, ← hu, journalEntry_gates]
  cases hinv : invasive (num p 24 4) with
  | true =>
    obtain ⟨htest, hkept⟩ := toTestRoot_acts u
    rw [hinv] at hcert
    exact ⟨hcert, hkept _ _ _ hj, nofun, fun _ => htest⟩
  | false =>
    rw [hinv] at hcert
    exact ⟨hcert, hj, fun _ => ⟨hepoch, hkeys, hgate⟩, nofun⟩

/-! ## The end of the rights (R369) -/

/-- The rights gone, before the entry that says so. -/
def uncertified (s : State) : State := bumpEpoch (setGate gDbg [] { s with dbg := { s.dbg with cert := none, halted := false } })

theorem endDebug_acts {c : Cert} {reason : Nat} (h : s.dbg.cert = some c) (hring : ringTakes s = true) (hgates : s.gates.length = 21) :
    (endDebug reason s).dbg = { s.dbg with cert := none, halted := false } ∧ (gateOf (endDebug reason s) gDbg).ents = []
      ∧ (endDebug reason s).epoch = s.epoch + 1 ∧ (endDebug reason s).keys = s.keys
      ∧ Journalled 0x3B (le 1 reason ++ zeros 7) s (endDebug reason s) := by
  have heq : endDebug reason s = journalEntry 0x3B false (le 1 reason ++ zeros 7) (uncertified s) := by
    unfold endDebug
    rw [h]
    rfl
  have hj : Journalled 0x3B (le 1 reason ++ zeros 7) s (endDebug reason s) := by
    rw [heq]
    exact journalled_congr (s := uncertified s) rfl rfl rfl (journalEntry_journalled 0x3B false _ (uncertified s) (by decide)
      (by simp [le, zeros]) (ringTakes_of_same hring rfl rfl rfl rfl rfl))
  have hents : (gateOf (uncertified s) gDbg).ents = [] :=
    ents_setGate (s := { s with dbg := { s.dbg with cert := none, halted := false } }) (by rw [hgates]; decide) _
  refine ⟨by rw [heq, journalEntry_dbg]; rfl, ?_, by rw [heq, journalEntry_epoch]; rfl, by rw [heq, journalEntry_keys]; rfl, hj⟩
  rw [gateOf, heq, journalEntry_gates]
  exact hents

theorem expiry_ends {c : Cert} (hc : s.dbg.cert = some c) (hlate : c.opsecLast < s.opsec) (hring : ringTakes s = true)
    (hgates : s.gates.length = 21) :
    To .dbgRightsExpiry s fun t =>
      t.dbg = { s.dbg with cert := none, halted := false } ∧ (gateOf t gDbg).ents = [] ∧ t.epoch = s.epoch + 1
        ∧ t.keys = s.keys ∧ Journalled 0x3B (le 1 1 ++ zeros 7) s t := by
  have hexec : exec .dbgRightsExpiry s = .next (settle s (endDebug 1 s)) := by
    simp only [exec, execDbgRightsExpiry, hc, hlate, if_true]
  obtain ⟨hdbg, hents, hepoch, hkeys, hj⟩ := endDebug_acts (reason := 1) hc hring hgates
  generalize endDebug 1 s = u at *
  exact to_of_eq hexec ⟨by rw [settle_dbg, hdbg], by rw [ents_settle, hents], by rw [settle_epoch, hepoch], by rw [settle_keys, hkeys],
    journalled_congr rfl (settle_nextSeq ..) (by rw [settle_nv]) hj⟩

theorem expiry_early (h : ∀ c : Cert, s.dbg.cert = some c → s.opsec ≤ c.opsecLast) : exec .dbgRightsExpiry s = .next s := by
  cases hc : s.dbg.cert with
  | none => simp only [exec, execDbgRightsExpiry, hc]
  | some c => simp only [exec, execDbgRightsExpiry, hc, if_neg (not_lt.mpr (h c hc))]

/-! ## DBG_CERT_LOAD -/

variable {r : Req}

/-- What a refusal of a certificate depends on. -/
theorem certRefusal_taken (p : Bytes) (r : Req) (s : State) : certRefusal p (taken r s) = certRefusal p s := by
  have hentry := entryRefusal_congr (s := s) (t := { s with mbxs := (taken r s).mbxs, out := (taken r s).out }) rfl rfl rfl rfl rfl false
  rw [taken_only]
  unfold certRefusal
  rw [hentry]
  rfl

theorem certLoad_chunk {p : Bytes} (hchunk : Chunk 0x0704 32768 r s p) : dbgCertLoadRun r s = chunkRun 0x0704 32768 certFinal r s := by
  have hflags := (chunkRange_none hchunk.range).1
  have hbit : bit (fld r 0 4) 2 = false := Nat.testBit_lt_two_pow (by omega)
  rw [dbgCertLoadRun, hbit, if_neg (by simp)]

theorem certLoad_judges {p : Bytes} (h : accepts 0x0704 r none s = true) (hq : quiet s = true) (hgates : s.gates.length = 21)
    (hchunk : Chunk 0x0704 32768 r s p) (hlast : bit (fld r 0 4) 1 = true) :
    To (.dbgCertLoad r) s fun t =>
      match certRefusal p s with
      | some (st, det) => Answered 0x0704 r st det [] t ∧ Responded r s t
      | none =>
        ringTakes s = true → s.dbg.cert = none →
          t.dbg.cert = some ⟨BitVec.ofNat 32 (num p 24 4), num p 40 8, BitVec.ofNat 64 (num p 48 8)⟩ ∧ Journalled 0x3A (certEntry p) s t
            ∧ Answered 0x0704 r stOk 0 (slice p 24 4 ++ zeros 4 ++ le 8 t.epoch) t
            ∧ (invasive (num p 24 4) = false → t.epoch = s.epoch + 1 ∧ t.keys = s.keys
                ∧ (gateOf t gDbg).ents = (List.range (num p 31 1)).map fun i => (i, entryFrom (slice p (64 + 32 * i) 32)))
            ∧ (invasive (num p 24 4) = true → t.keys.testRoot = true) := by
  have hrun := chunk_judged hchunk (certLoad_chunk hchunk) hlast
  have hrefusal := certRefusal_taken p r s
  cases hcase : certRefusal p s with
  | some x =>
    obtain ⟨st, det⟩ := x
    rw [hcase] at hrefusal
    rw [certFinal, hrefusal] at hrun
    exact package_refused rfl h hq hrun
  | none =>
    rw [hcase] at hrefusal
    rw [certFinal, hrefusal] at hrun
    refine to_of_answer rfl h hrun fun t ht ha hring hnone => ?_
    have hring'' : ringTakes { s with mbxs := (taken r s).mbxs, out := (taken r s).out } = true :=
      ringTakes_of_same hring rfl rfl rfl rfl rfl
    have hsame : ringTakes (taken r s) = true ∧ (taken r s).dbg.cert = none ∧ (taken r s).gates.length = 21
        ∧ (taken r s).epoch = s.epoch ∧ (taken r s).keys = s.keys ∧ (taken r s).jrn.nextSeq = s.jrn.nextSeq := by
      rw [taken_only]
      exact ⟨hring'', hnone, hgates, rfl, rfl, rfl⟩
    obtain ⟨hring', hnone', hgates', hepoch, hkeys, hseq⟩ := hsame
    obtain ⟨hcert, hj, hplain, hinvasive⟩ := acceptCert_acts (p := p) hnone' hring' hgates'
    generalize acceptCert p (taken r s) = u at *
    have htu : t.dbg = u.dbg ∧ t.epoch = u.epoch ∧ t.keys = u.keys ∧ t.nv = u.nv ∧ t.jrn.nextSeq = u.jrn.nextSeq := by
      rw [ht]
      exact ⟨by rw [settle_dbg, respond_dbg], by rw [settle_epoch, respond_epoch], by rw [settle_keys, respond_keys],
        by rw [settle_nv, respond_nv], by rw [settle_nextSeq, respond_jrn]⟩
    obtain ⟨htdbg, htepoch, htkeys, htnv, htseq⟩ := htu
    have htents : (gateOf t gDbg).ents = (gateOf u gDbg).ents := by
      rw [ht, ents_settle, gateOf, respond_gates, gateOf]
    refine ⟨by rw [htdbg, hcert]; rfl, journalled_congr hseq.symm htseq (congrArg Nv.ring htnv) hj, by rw [htepoch]; exact ha,
      fun hinv => ?_, fun hinv => by rw [htkeys]; exact hinvasive hinv⟩
    obtain ⟨hne, hnk, hng⟩ := hplain hinv
    exact ⟨by rw [htepoch, hne, hepoch], by rw [htkeys, hnk, hkeys], by rw [htents, hng]; rfl⟩

theorem revoke_runs (hlen : r.body.length = 24) (hflags : fld r 0 4 = 6) (h4 : fld r 4 4 = 0) (h8 : fld r 8 4 = 0) (h12 : fld r 12 4 = 0)
    (h16 : fld r 16 8 = 0) : dbgCertLoadRun r s = .done (endDebug 2 (dropPkg r s)) stOk 0 [] := by
  have hgood : revokeBad r = none := by
    simp [revokeBad, firstBad, hflags, h8, hlen, h4, h12, h16]
  have hbit : bit 6 2 = true := rfl
  rw [dbgCertLoadRun, hflags, hbit, hgood, if_pos (by simp [hlen])]

theorem dropPkg_only (r : Req) (s : State) : dropPkg r s = { s with mbxs := (dropPkg r s).mbxs } := rfl

theorem revoke_without (h : accepts 0x0704 r none s = true) (hq : quiet s = true)
    (hrun : dbgCertLoadRun r s = .done (endDebug 2 (dropPkg r s)) stOk 0 []) (hnone : s.dbg.cert = none) :
    To (.dbgCertLoad r) s fun t => Answered 0x0704 r stOk 0 [] t ∧ Responded r s t := by
  have hsame : endDebug 2 (dropPkg r s) = dropPkg r s := by
    unfold endDebug
    rw [show (dropPkg r s).dbg.cert = none from hnone]
  rw [hsame] at hrun
  exact to_of_done rfl h hrun (quiet_of_same hq rfl rfl rfl) fun t ha hr =>
    ⟨ha, responded_of_own hr (dropPkg_only r s) fun k hk => Admission.tget_modMbx_ne _ _ _ _ hk⟩

theorem revoke_ends (h : accepts 0x0704 r none s = true) (hgates : s.gates.length = 21)
    (hrun : dbgCertLoadRun r s = .done (endDebug 2 (dropPkg r s)) stOk 0 []) (hsome : s.dbg.cert.isSome = true) (hring : ringTakes s = true) :
    To (.dbgCertLoad r) s fun t =>
      t.dbg = { s.dbg with cert := none, halted := false } ∧ (gateOf t gDbg).ents = [] ∧ t.epoch = s.epoch + 1
        ∧ t.keys = s.keys ∧ Journalled 0x3B (le 1 2 ++ zeros 7) s t ∧ Answered 0x0704 r stOk 0 [] t := by
  obtain ⟨c, hc⟩ := Option.isSome_iff_exists.mp hsome
  have hring' : ringTakes (dropPkg r s) = true := ringTakes_of_same hring rfl rfl rfl rfl rfl
  obtain ⟨hdbg, hents, hepoch, hkeys, hj⟩ := endDebug_acts (s := dropPkg r s) (c := c) (reason := 2) hc hring' hgates
  refine to_of_answer rfl h hrun fun t ht ha => ?_
  generalize endDebug 2 (dropPkg r s) = u at *
  have htnv : t.nv = u.nv := by rw [ht, settle_nv, respond_nv]
  have htseq : t.jrn.nextSeq = u.jrn.nextSeq := by rw [ht, settle_nextSeq, respond_jrn]
  refine ⟨by rw [ht, settle_dbg, respond_dbg, hdbg]; rfl, ?_, by rw [ht, settle_epoch, respond_epoch, hepoch]; rfl,
    by rw [ht, settle_keys, respond_keys, hkeys]; rfl, journalled_congr (s := dropPkg r s) rfl htseq (congrArg Nv.ring htnv) hj, ha⟩
  rw [ht, ents_settle, gateOf, respond_gates]
  exact hents

end

/-- Settles O47. -/
theorem debugRightsEnd : Obligations.DebugRightsEnd := by
  intro r s hq hgates
  refine ⟨fun p h hwhole => ?_, fun c hc hlate hring => expiry_ends hc hlate hring hgates, expiry_early,
    fun h hlen hflags h4 h8 h12 h16 => ?_⟩
  · have hchunk := chunk_of_whole hwhole
    refine ⟨fun hmore => ?_, certLoad_judges h hq hgates hchunk⟩
    obtain ⟨t, ht, ha, hr, hpkg, hop, -⟩ := chunk_kept (i := .dbgCertLoad r) rfl h hq hchunk (certLoad_chunk hchunk) hmore
    exact ⟨t, ht, ha, hr, hpkg, hop⟩
  · have hrun := revoke_runs (s := s) hlen hflags h4 h8 h12 h16
    exact ⟨revoke_without h hq hrun, revoke_ends h hgates hrun⟩

end Sys2Proof.DebugRights
end

section
/-! # Life-cycle requests (O57) -/
namespace Sys2Proof.LifeCycle
open Sys2Proof Sys2Proof.Machine Sys2Proof.Told Sys2Proof.Replies Sys2Proof.Entries Sys2Proof.Packages

/-! ## Burns (R356, R357) -/

/-- Nothing but the OTP differs. -/
def OnlyOtp (s t : State) : Prop := ∃ o, t = { s with otp := o }

theorem OnlyOtp.refl (s : State) : OnlyOtp s s := ⟨s.otp, rfl⟩

theorem OnlyOtp.trans {s t u : State} (h : OnlyOtp s t) (h' : OnlyOtp t u) : OnlyOtp s u := by
  obtain ⟨o, rfl⟩ := h
  obtain ⟨o', rfl⟩ := h'
  exact ⟨o', rfl⟩

theorem burn_onlyOtp (w : Nat) (v : BitVec 64) (s : State) : OnlyOtp s (burn w v s) := ⟨_, rfl⟩

theorem burnRole_onlyOtp (role slot : Nat) (key : Bytes) (s : State) : OnlyOtp s (burnRole role slot key s) := by
  unfold burnRole
  exact .trans (foldl_keeps (P := OnlyOtp s) _ _ _ (.refl s) fun t i h => h.trans (burn_onlyOtp ..)) (burn_onlyOtp ..)

theorem burnRoles_onlyOtp (p : Bytes) (s : State) : OnlyOtp s (burnRoles p s) := by
  unfold burnRoles
  refine foldl_keeps (P := OnlyOtp s) _ _ _ (.refl s) fun t role h => ?_
  split
  · exact h.trans (burnRole_onlyOtp ..)
  · exact h

theorem burnPolicy_onlyOtp (p : Bytes) (s : State) : OnlyOtp s (burnPolicy p s) := by
  unfold burnPolicy
  split
  · exact burn_onlyOtp ..
  · exact .refl s

theorem burnFlags_onlyOtp (b : Nat) (s : State) : OnlyOtp s (burnFlags b s) := by
  unfold burnFlags
  split
  · exact .refl s
  · exact burn_onlyOtp ..

theorem burnTransition_onlyOtp (p : Bytes) (s : State) : OnlyOtp s (burnTransition p s) := by
  unfold burnTransition
  exact (burn_onlyOtp _ _ s).trans (.trans (burnRoles_onlyOtp p _) (.trans (burnPolicy_onlyOtp p _)
    (.trans (burnFlags_onlyOtp _ _) (burn_onlyOtp ..))))

theorem burnRequest_onlyOtp (p : Bytes) (s : State) : OnlyOtp s (burnRequest p s) := by
  unfold burnRequest
  split
  · exact burnFlags_onlyOtp 1 s
  · exact burnRoles_onlyOtp p s

theorem groupMask_covers : ∀ g < 4, ∀ k < 16, (groupMask g).getLsbD (4 * k + g) = true := by decide

theorem groupOf_lt (code : Nat) : (groupOf code).2 < 4 := by
  unfold groupOf
  split <;> decide

/-- After a transition's burns every bit of the target's group is burnt. -/
theorem burnTransition_group (p : Bytes) (s : State) {k : Nat} (hk : k < 16) :
    otpBit (burnTransition p s) (groupOf (num p 6 1)).1 (4 * k + (groupOf (num p 6 1)).2) = true := by
  unfold burnTransition otpBit
  simp only [burn_otp, tgetD_tset_self, BitVec.getLsbD_or, groupMask_covers _ (groupOf_lt _) k hk, Bool.or_true]

/-- After its flag is burnt countersigning is required (R355). -/
theorem countersignRequired_burnt (s : State) : countersignRequired (burnFlags 1 s) = true := by
  have hbits : ∀ k ∈ List.range 16, ((tgetD (burnFlags 1 s).otp 98 0).getLsbD (4 * k + 0)) = true := fun k hk => by
    rw [burnFlags, if_neg (by decide), burn_otp, tgetD_tset_self]
    have hmask := groupMask_covers 0 (by decide) k (List.mem_range.mp hk)
    have hflag : bit 1 0 = true := rfl
    simp only [BitVec.getLsbD_or, hflag, if_true, hmask, Bool.true_or, Bool.or_true]
  have hall : otpGroup (burnFlags 1 s) 98 0 = 16 := by
    rw [otpGroup, List.filter_eq_self.mpr hbits, List.length_range]
  simp [countersignRequired, hall]

/-- A word that is burnt by other words' burns keeps its value. -/
theorem burn_other {w k : Nat} (v : BitVec 64) (s : State) (h : k ≠ w) : tgetD (burn w v s).otp k 0 = tgetD s.otp k 0 :=
  tgetD_tset_ne _ _ _ h

/-- The words of a digest are burnt into a slot one after another. -/
theorem burnWords_get (w : Nat) (v : Nat → BitVec 64) (s : State) : ∀ n i,
    tgetD ((List.range n).foldl (fun t i => burn (w + i) (v i) t) s).otp (w + i) 0
      = if i < n then tgetD s.otp (w + i) 0 ||| v i else tgetD s.otp (w + i) 0
  | 0, _ => rfl
  | n + 1, i => by
    rw [List.range_succ, List.foldl_append]
    simp only [List.foldl_cons, List.foldl_nil]
    rcases Nat.lt_trichotomy i n with hlt | heq | hgt
    · rw [burn_other _ _ (by omega), burnWords_get w v s n i, if_pos hlt, if_pos (by omega)]
    · rw [heq, burn_otp, tgetD_tset_self, burnWords_get w v s n n, if_neg (Nat.lt_irrefl n), if_pos (Nat.lt_succ_self n)]
    · rw [burn_other _ _ (by omega), burnWords_get w v s n i, if_neg (by omega), if_neg (by omega)]

theorem burnRole_word (role slot : Nat) (key : Bytes) (s : State) {i : Nat} (hi : i < 6) :
    tgetD (burnRole role slot key s).otp (roleWord role slot + i) 0
      = tgetD s.otp (roleWord role slot + i) 0 ||| BitVec.ofNat 64 (num (h384 (sha384 key)) (8 * i) 8) := by
  unfold burnRole
  simp only []
  rw [burn_other _ _ (by omega), burnWords_get, if_pos hi]

/-- A package with one role's key burns that key. -/
theorem burnRoles_single {p key : Bytes} {role slot : Nat} (s : State) (hrole : role = 1 ∨ role = 2) (honly : num p 104 1 = role)
    (hkey : lcNewKey p role = some key) (hslot : roleFree s role = some slot) : burnRoles p s = burnRole role slot key s := by
  have hother : ∀ other, other = 1 ∨ other = 2 → other ≠ role → lcNewKey p other = none := fun other ho hne => by
    rw [lcNewKey, honly]
    rcases hrole with rfl | rfl <;> rcases ho with rfl | rfl
    · exact absurd rfl hne
    · rfl
    · rfl
    · exact absurd rfl hne
  unfold burnRoles
  simp only [List.foldl_cons, List.foldl_nil]
  rcases hrole with rfl | rfl
  · rw [hkey, hslot, hother 2 (.inr rfl) (by decide)]
  · rw [hother 1 (.inl rfl) (by decide), hkey, hslot]

/-! ## The judgement of a package rests on nothing of its mailbox -/

section
variable {r : Req} {s : State} {p : Bytes}

theorem taken_same (r : Req) (s : State) :
    (taken r s).keys = s.keys ∧ (taken r s).otp = s.otp ∧ (taken r s).nv = s.nv ∧ (taken r s).lcResetDue = s.lcResetDue
      ∧ (taken r s).jrn = s.jrn ∧ (taken r s).lc = s.lc ∧ (taken r s).pwr = s.pwr ∧ (taken r s).dgu0 = s.dgu0
      ∧ (taken r s).dgu1 = s.dgu1 := by
  rw [taken_only]
  exact ⟨rfl, rfl, rfl, rfl, rfl, rfl, rfl, rfl, rfl⟩

theorem lcFormBad_taken (flag : Bool) (p : Bytes) (r : Req) (s : State) : lcFormBad (taken r s) flag p = lcFormBad s flag p := by
  rw [taken_only]
  rfl

theorem transitionPermit_taken (p : Bytes) (r : Req) (s : State) : transitionPermit (taken r s) p = transitionPermit s p := by
  rw [taken_only]
  rfl

theorem flagPermit_taken (p : Bytes) (r : Req) (s : State) : flagPermit (taken r s) p = flagPermit s p := by
  rw [taken_only]
  rfl

theorem lcAuthority_taken (p : Bytes) (need : Nat) (r : Req) (s : State) : lcAuthority (taken r s) p need = lcAuthority s p need := by
  rw [taken_only]
  rfl

theorem entryRefusal_taken (reserve : Bool) (r : Req) (s : State) : entryRefusal reserve (taken r s) = entryRefusal reserve s := by
  obtain ⟨-, -, hnv, -, hjrn, -, hpwr, hd0, hd1⟩ := taken_same r s
  exact entryRefusal_congr hpwr hjrn hnv hd0 hd1 _

theorem ringTakes_taken (r : Req) (s : State) : ringTakes (taken r s) = ringTakes s := by
  obtain ⟨-, -, hnv, -, hjrn, -, hpwr, hd0, hd1⟩ := taken_same r s
  exact ringTakes_congr hpwr hjrn hnv hd0 hd1

theorem transitionRefusal_taken (toC : Nat) (r : Req) (s : State) : transitionRefusal (taken r s) toC = transitionRefusal s toC := by
  unfold transitionRefusal
  rw [entryRefusal_taken, taken_only]
  rfl

/-! ## The entry of a request (R364) -/

theorem length_lcRequestBody (p : Bytes) : (lcRequestBody p).length ≤ 2024 := by
  simp [lcRequestBody, slice, zeros]
  omega

theorem consumed_ring (h : ringTakes s = true) : ringTakes (consumeChallenge s) = true := ringTakes_of_same h rfl rfl rfl rfl rfl

theorem recordRequest_writes (p : Bytes) (scrap : Bool) (h : scrap = false ∨ (s.lc ≠ .lost ∧ entryRefusal false s = none)) :
    recordRequest p scrap (consumeChallenge s)
      = (entrySeq (consumeChallenge s), journalEntry 0x38 false (lcRequestBody p) (consumeChallenge s)) := by
  have hentry := entryRefusal_congr (s := s) (t := consumeChallenge s) rfl rfl rfl rfl rfl false
  rw [recordRequest, hentry, if_neg]
  rintro hbad
  rw [Bool.and_eq_true, Bool.or_eq_true, beq_iff_eq] at hbad
  rcases h with rfl | ⟨hlc, hnone⟩
  · exact absurd hbad.1 (by decide)
  · rw [hnone] at hbad
    exact hbad.2.elim hlc (by decide)

theorem recordRequest_keys (p : Bytes) (scrap : Bool) (s : State) : (recordRequest p scrap s).2.keys = s.keys := by
  unfold recordRequest
  split
  · rfl
  · exact journalEntry_keys ..

theorem recordRequest_otp (p : Bytes) (scrap : Bool) (s : State) : (recordRequest p scrap s).2.otp = s.otp := by
  unfold recordRequest
  split
  · rfl
  · exact journalEntry_otp ..

theorem recordRequest_lcResetDue (p : Bytes) (scrap : Bool) (s : State) : (recordRequest p scrap s).2.lcResetDue = s.lcResetDue := by
  unfold recordRequest
  split
  · rfl
  · exact journalEntry_lcResetDue ..

/-- The entry stands in the ring whatever is burnt after it. -/
theorem lcRequest_journalled {u : State} (h : ringTakes s = true)
    (hnv : u.nv = (journalEntry 0x38 false (lcRequestBody p) (consumeChallenge s)).nv)
    (hseq : u.jrn.nextSeq = (journalEntry 0x38 false (lcRequestBody p) (consumeChallenge s)).jrn.nextSeq) :
    Journalled 0x38 (lcRequestBody p) s u :=
  journalled_congr (s := consumeChallenge s) rfl hseq (congrArg Nv.ring hnv)
    (journalEntry_journalled 0x38 false _ (consumeChallenge s) (by decide) (length_lcRequestBody p) (consumed_ring h))

/-! ## LC_TRANSITION -/

/-- The state after a transition's entry and its burns. -/
def transitioned (p : Bytes) (s : State) : State :=
  { burnTransition p (recordRequest p (num p 6 1 == 6) (consumeChallenge s)).2 with lcResetDue := true }

theorem transitioned_acts (p : Bytes) (s : State) :
    (transitioned p s).keys = { s.keys with challenge := none } ∧ (transitioned p s).lcResetDue = true
      ∧ (∀ k, k < 16 → otpBit (transitioned p s) (groupOf (num p 6 1)).1 (4 * k + (groupOf (num p 6 1)).2) = true)
      ∧ (ringTakes s = true → entryRefusal false s = none → s.lc ≠ .lost → Journalled 0x38 (lcRequestBody p) s (transitioned p s)) := by
  obtain ⟨o, hburn⟩ := burnTransition_onlyOtp p (recordRequest p (num p 6 1 == 6) (consumeChallenge s)).2
  refine ⟨?_, rfl, fun k hk => burnTransition_group p _ hk, fun hring hnone hlc => ?_⟩
  · have hkeys := recordRequest_keys p (num p 6 1 == 6) (consumeChallenge s)
    rw [transitioned, hburn]
    exact hkeys
  · have hwrites := recordRequest_writes p (num p 6 1 == 6) (.inr ⟨hlc, hnone⟩)
    rw [hwrites] at hburn
    rw [transitioned, hwrites, hburn]
    exact lcRequest_journalled hring rfl rfl

theorem transitionFinal_denies {need : Nat} (hform : lcFormBad s false p = none) (hpermit : transitionPermit s p = some need)
    (hrefusal : transitionRefusal s (num p 6 1) = none) (hauth : lcAuthority s p need = false) :
    transitionFinal p s = .refuse (consumeChallenge s) stAuthFail 0 := by
  simp only [transitionFinal, hform, hpermit, hrefusal, hauth, Bool.not_false, if_true]

theorem transitionFinal_burns {need : Nat} (hform : lcFormBad s false p = none) (hpermit : transitionPermit s p = some need)
    (hrefusal : transitionRefusal s (num p 6 1) = none) (hauth : lcAuthority s p need = true) (hcharged : 10000 ≤ s.pwr.vhold) :
    transitionFinal p s
      = .done (transitioned p s) stOk 0 (lcBody (num p 6 1) (recordRequest p (num p 6 1 == 6) (consumeChallenge s)).1) := by
  simp only [transitionFinal, hform, hpermit, hrefusal, hauth, Bool.not_true, if_false, Bool.false_eq_true,
    if_neg (Nat.not_lt.mpr hcharged), transitioned]

/-- Without the signatures the challenge is used up, and nothing else is. -/
theorem package_denied {i : Instr} {op : Nat} {run : State → Reply} (hexec : exec i s = .next (command i op r none run s))
    (h : accepts op r none s = true) (hrun : run s = .refuse (consumeChallenge (taken r s)) stAuthFail 0) :
    To i s fun t => t.keys = { s.keys with challenge := none } ∧ t.lcResetDue = s.lcResetDue ∧ Answered op r stAuthFail 0 [] t
      ∧ t.otp = s.otp ∧ t.nv = s.nv := by
  obtain ⟨hkeys, hotp, hnv, hdue, -⟩ := taken_same r s
  refine to_of_answer hexec h hrun fun t ht ha => ⟨?_, ?_, ha, ?_, ?_⟩
  · rw [ht, settle_keys, respond_keys, ← hkeys]
    rfl
  · rw [ht, settle_lcResetDue, respond_lcResetDue]
    exact hdue
  · rw [ht, settle_otp, respond_otp]
    exact hotp
  · rw [ht, settle_nv, respond_nv]
    exact hnv

theorem transition_judged {need : Nat} (h : accepts 0x0702 r none s = true) (hchunk : Chunk 0x0702 32768 r s p)
    (hlast : bit (fld r 0 4) 1 = true) (hform : lcFormBad s false p = none) (hpermit : transitionPermit s p = some need)
    (hrefusal : transitionRefusal s (num p 6 1) = none) (hcharged : 10000 ≤ s.pwr.vhold) :
    To (.lcTransition r) s fun t =>
      t.keys = { s.keys with challenge := none }
        ∧ if lcAuthority s p need then
            t.lcResetDue = true ∧ (∀ k, k < 16 → otpBit t (groupOf (num p 6 1)).1 (4 * k + (groupOf (num p 6 1)).2) = true)
              ∧ (∃ seq, Answered 0x0702 r stOk 0 (le 1 (num p 6 1) ++ zeros 7 ++ le 6 seq ++ zeros 2) t)
              ∧ (ringTakes s = true → entryRefusal false s = none → s.lc ≠ .lost →
                  Journalled 0x38 (slice p 4 4 ++ slice p 104 2 ++ zeros 2 ++ h384 (sha384 (p.take (lcSigned p)))) s t)
          else Answered 0x0702 r stAuthFail 0 [] t ∧ t.otp = s.otp ∧ t.lcResetDue = s.lcResetDue ∧ t.nv = s.nv := by
  have hrun : lcTransitionRun r s = transitionFinal p (taken r s) := chunk_judged hchunk rfl hlast
  rw [← lcFormBad_taken false p r s] at hform
  rw [← transitionPermit_taken p r s] at hpermit
  rw [← transitionRefusal_taken _ r s] at hrefusal
  cases hauth : lcAuthority s p need with
  | false =>
    rw [← lcAuthority_taken p need r s] at hauth
    rw [transitionFinal_denies hform hpermit hrefusal hauth] at hrun
    obtain ⟨t, ht, hkeys, hdue, ha, hotp, hnv⟩ := package_denied (i := .lcTransition r) rfl h hrun
    exact ⟨t, ht, hkeys, ha, hotp, hdue, hnv⟩
  | true =>
    rw [← lcAuthority_taken p need r s] at hauth
    obtain ⟨hkeys, -, -, -, hjrn, hlc, hpwr, -⟩ := taken_same r s
    rw [transitionFinal_burns hform hpermit hrefusal hauth (by rw [hpwr]; exact hcharged)] at hrun
    obtain ⟨hchallenge, hdue, hgroup, hj⟩ := transitioned_acts p (taken r s)
    rw [ringTakes_taken, entryRefusal_taken, hlc] at hj
    rw [hkeys] at hchallenge
    refine to_of_answer rfl h hrun fun t ht ha => ?_
    generalize transitioned p (taken r s) = u at *
    have hotp : t.otp = u.otp := by rw [ht, settle_otp, respond_otp]
    have hnv : t.nv = u.nv := by rw [ht, settle_nv, respond_nv]
    have hseq : t.jrn.nextSeq = u.jrn.nextSeq := by rw [ht, settle_nextSeq, respond_jrn]
    refine ⟨by rw [ht, settle_keys, respond_keys, hchallenge], by rw [ht, settle_lcResetDue, respond_lcResetDue, hdue],
      fun k hk => ?_, ⟨_, ha⟩, fun hring hnone hlost =>
        journalled_congr (by rw [hjrn]) hseq (congrArg Nv.ring hnv) (hj hring hnone hlost)⟩
    rw [otpBit, hotp]
    exact hgroup k hk

/-! ## LC_FLAG_BURN -/

/-- The state after the entry and the burns of a flag request. -/
def flagged (p : Bytes) (s : State) : State := burnRequest p (journalEntry 0x38 false (lcRequestBody p) (consumeChallenge s))

theorem flagged_keeps (h : ringTakes s = true) :
    (flagged p s).keys = { s.keys with challenge := none } ∧ (flagged p s).lcResetDue = s.lcResetDue
      ∧ Journalled 0x38 (lcRequestBody p) s (flagged p s) := by
  obtain ⟨o, hburn⟩ := burnRequest_onlyOtp p (journalEntry 0x38 false (lcRequestBody p) (consumeChallenge s))
  have hkeys := journalEntry_keys 0x38 false (lcRequestBody p) (consumeChallenge s)
  have hdue := journalEntry_lcResetDue 0x38 false (lcRequestBody p) (consumeChallenge s)
  have hj : ∀ u : State, u.nv = (journalEntry 0x38 false (lcRequestBody p) (consumeChallenge s)).nv →
      u.jrn.nextSeq = (journalEntry 0x38 false (lcRequestBody p) (consumeChallenge s)).jrn.nextSeq →
      Journalled 0x38 (lcRequestBody p) s u := fun u => lcRequest_journalled h
  rw [flagged]
  generalize journalEntry 0x38 false (lcRequestBody p) (consumeChallenge s) = v at *
  rw [hburn]
  exact ⟨hkeys, hdue, hj _ rfl rfl⟩

theorem firstBad_none {l : List (Bool × Nat)} (h : firstBad l = none) : ∀ x ∈ l, x.1 = false := by
  induction l with
  | nil => exact fun x hx => absurd hx List.not_mem_nil
  | cons y l ih =>
    obtain ⟨bad, off⟩ := y
    cases bad with
    | true => exact absurd h (Option.some_ne_none _)
    | false => exact List.forall_mem_cons.mpr ⟨rfl, ih h⟩

/-- The role key of a permitted request is the only one it brings (R354, R355). -/
theorem flagPermit_role {need : Nat} (hform : lcFormBad s true p = none) (hpermit : flagPermit s p = some need) (hact : num p 4 1 = 3) :
    (num p 6 1 = 1 ∨ num p 6 1 = 2) ∧ num p 104 1 = num p 6 1 := by
  have hgood := firstBad_none hform
  simp only [List.mem_cons, List.not_mem_nil, or_false, forall_eq_or_imp, forall_eq, pkgBad, bne_eq_false_iff_eq] at hgood
  obtain ⟨-, -, -, hto, -, -, -, -, -, -, -, -, hlen⟩ := hgood
  have hlong : 128 ≤ p.length := by
    rw [hlen, lcSigned]
    omega
  constructor
  · rw [decide_eq_true (by omega), Bool.true_and, hact] at hto
    simpa [or_iff_not_imp_left] using hto
  · by_contra hne
    rw [flagPermit, if_neg (by omega), if_pos (.inl hne)] at hpermit
    exact absurd hpermit (Option.some_ne_none _).symm

theorem flagged_acts {need : Nat} (hform : lcFormBad s true p = none) (hpermit : flagPermit s p = some need) :
    (num p 4 1 = 2 → countersignRequired (flagged p s) = true)
      ∧ (num p 4 1 = 3 → ∀ key slot, lcNewKey p (num p 6 1) = some key → roleFree s (num p 6 1) = some slot → ∀ i, i < 6 →
          tgetD (flagged p s).otp (roleWord (num p 6 1) slot + i) 0
            = tgetD s.otp (roleWord (num p 6 1) slot + i) 0 ||| BitVec.ofNat 64 (num (h384 (sha384 key)) (8 * i) 8)) := by
  have hotp : (journalEntry 0x38 false (lcRequestBody p) (consumeChallenge s)).otp = s.otp := journalEntry_otp ..
  unfold flagged burnRequest
  generalize journalEntry 0x38 false (lcRequestBody p) (consumeChallenge s) = v at *
  refine ⟨fun hact => ?_, fun hact key slot hkey hslot i hi => ?_⟩
  · rw [if_pos hact]
    exact countersignRequired_burnt v
  · obtain ⟨hrole, honly⟩ := flagPermit_role hform hpermit hact
    have hfree : roleFree v (num p 6 1) = some slot := by
      rw [← hslot, roleFree, roleFree]
      simp only [slotBlank, hotp]
    rw [if_neg (by omega), burnRoles_single v hrole honly hkey hfree, burnRole_word _ _ _ _ hi, hotp]

theorem flagFinal_denies {need : Nat} (hform : lcFormBad s true p = none) (hpermit : flagPermit s p = some need)
    (hrefusal : entryRefusal false s = none) (hauth : lcAuthority s p need = false) :
    flagFinal p s = .refuse (consumeChallenge s) stAuthFail 0 := by
  simp only [flagFinal, hform, hpermit, hrefusal, hauth, Bool.not_false, if_true]

theorem flagFinal_burns {need : Nat} (hform : lcFormBad s true p = none) (hpermit : flagPermit s p = some need)
    (hrefusal : entryRefusal false s = none) (hauth : lcAuthority s p need = true) (hring : ringTakes s = true) :
    flagFinal p s = .done (flagged p s) stOk 0 (lcBody (num p 6 1) s.jrn.nextSeq) := by
  have hseq : entrySeq (consumeChallenge s) = s.jrn.nextSeq := entrySeq_of_ringTakes (consumed_ring hring)
  simp only [flagFinal, hform, hpermit, hrefusal, hauth, Bool.not_true, if_false, Bool.false_eq_true,
    recordRequest_writes p false (.inl rfl), hseq, flagged]

theorem flag_judged {need : Nat} (h : accepts 0x0703 r none s = true) (hchunk : Chunk 0x0703 32768 r s p)
    (hlast : bit (fld r 0 4) 1 = true) (hform : lcFormBad s true p = none) (hpermit : flagPermit s p = some need)
    (hrefusal : entryRefusal false s = none) (hring : ringTakes s = true) :
    To (.lcFlagBurn r) s fun t =>
      t.keys = { s.keys with challenge := none } ∧ t.lcResetDue = s.lcResetDue
        ∧ if lcAuthority s p need then
            Answered 0x0703 r stOk 0 (le 1 (num p 6 1) ++ zeros 7 ++ le 6 s.jrn.nextSeq ++ zeros 2) t
              ∧ Journalled 0x38 (slice p 4 4 ++ slice p 104 2 ++ zeros 2 ++ h384 (sha384 (p.take (lcSigned p)))) s t
              ∧ (num p 4 1 = 2 → countersignRequired t = true)
              ∧ (num p 4 1 = 3 → ∀ key slot, lcNewKey p (num p 6 1) = some key → roleFree s (num p 6 1) = some slot → ∀ i, i < 6 →
                  tgetD t.otp (roleWord (num p 6 1) slot + i) 0
                    = tgetD s.otp (roleWord (num p 6 1) slot + i) 0 ||| BitVec.ofNat 64 (num (h384 (sha384 key)) (8 * i) 8))
          else Answered 0x0703 r stAuthFail 0 [] t ∧ t.otp = s.otp ∧ t.nv = s.nv := by
  have hrun : chunkRun 0x0703 32768 flagFinal r s = flagFinal p (taken r s) := chunk_judged hchunk rfl hlast
  rw [← lcFormBad_taken true p r s] at hform
  rw [← flagPermit_taken p r s] at hpermit
  rw [← entryRefusal_taken _ r s] at hrefusal
  cases hauth : lcAuthority s p need with
  | false =>
    rw [← lcAuthority_taken p need r s] at hauth
    rw [flagFinal_denies hform hpermit hrefusal hauth] at hrun
    exact package_denied (i := .lcFlagBurn r) rfl h hrun
  | true =>
    rw [← lcAuthority_taken p need r s] at hauth
    rw [← ringTakes_taken r s] at hring
    obtain ⟨hkeys, hotp, -, hdue, hjrn, -⟩ := taken_same r s
    rw [flagFinal_burns hform hpermit hrefusal hauth hring, hjrn] at hrun
    obtain ⟨hchallenge, hreset, hj⟩ := flagged_keeps (p := p) hring
    obtain ⟨hflag, hrole⟩ := flagged_acts hform hpermit
    have hfree : ∀ role, roleFree (taken r s) role = roleFree s role := fun role => by
      simp only [roleFree, slotBlank, hotp]
    simp only [hfree, hotp] at hrole
    rw [hkeys] at hchallenge
    rw [hdue] at hreset
    refine to_of_answer rfl h hrun fun t ht ha => ?_
    generalize flagged p (taken r s) = u at *
    have htotp : t.otp = u.otp := by rw [ht, settle_otp, respond_otp]
    have hnv : t.nv = u.nv := by rw [ht, settle_nv, respond_nv]
    have hseq : t.jrn.nextSeq = u.jrn.nextSeq := by rw [ht, settle_nextSeq, respond_jrn]
    refine ⟨by rw [ht, settle_keys, respond_keys, hchallenge], by rw [ht, settle_lcResetDue, respond_lcResetDue, hreset], ha,
      journalled_congr (by rw [hjrn]) hseq (congrArg Nv.ring hnv) hj, fun hact => ?_, ?_⟩
    · rw [countersignRequired, otpGroup, htotp]
      exact hflag hact
    · rw [htotp]
      exact hrole

end

/-- Settles O57. -/
theorem lifeCycleRequestsAct : Obligations.LifeCycleRequestsAct := by
  intro r s p hq
  refine ⟨fun h => does_of_done rfl h rfl hq, fun h hwhole => ?_, fun h hwhole => ?_⟩
  · have hchunk := chunk_of_whole hwhole
    refine ⟨fun hmore => ?_, fun off hlast hform => ?_, fun need hlast hform hpermit hrefusal => transition_judged h hchunk hlast hform hpermit hrefusal⟩
    · obtain ⟨t, ht, ha, hr, hpkg, hop, hsec⟩ := chunk_kept (i := .lcTransition r) (run := lcTransitionRun r) rfl h hq hchunk rfl hmore
      exact ⟨t, ht, hpkg, hop, hsec, ha, hr⟩
    · have hrun : lcTransitionRun r s = transitionFinal p (taken r s) := chunk_judged hchunk rfl hlast
      rw [transitionFinal, lcFormBad_taken, hform] at hrun
      exact package_refused rfl h hq hrun
  · have hchunk := chunk_of_whole hwhole
    refine ⟨fun hmore => ?_, fun off hlast hform => ?_, fun need hlast hform hpermit hrefusal hring => flag_judged h hchunk hlast hform hpermit hrefusal hring⟩
    · obtain ⟨t, ht, ha, hr, hpkg, hop, hsec⟩ :=
        chunk_kept (i := .lcFlagBurn r) (run := chunkRun 0x0703 32768 flagFinal r) rfl h hq hchunk rfl hmore
      exact ⟨t, ht, hpkg, hop, hsec, ha, hr⟩
    · have hrun : chunkRun 0x0703 32768 flagFinal r s = flagFinal p (taken r s) := chunk_judged hchunk rfl hlast
      rw [flagFinal, lcFormBad_taken, hform] at hrun
      exact package_refused rfl h hq hrun

end Sys2Proof.LifeCycle
end

section
/-! # Keys are derived, imported, invalidated and queried (O49) -/
namespace Sys2Proof.KeyCommands
open Sys2Proof Sys2Proof.Machine Sys2Proof.Told Sys2Proof.Replies Sys2Proof.Entries Sys2Proof.Packages
open Sys2Proof.LifeCycle (firstBad_none taken_same entryRefusal_taken)
open Sys2Proof.Frames (le_leVal)

/-! ## What an answer keeps of the key store -/

section
variable {i : Instr} {op : Nat} {r : Req} {need : Option Nat} {run : State → Reply} {s u t : State} {status detail : Nat} {body : Bytes}

/-- The parts of the state that the key store's keys and entries are in are the same. -/
structure SameKeys (u t : State) : Prop where
  keys : t.keys = u.keys
  nv : t.nv = u.nv
  nextSeq : t.jrn.nextSeq = u.jrn.nextSeq
  epoch : t.epoch = u.epoch

theorem to_of_same {P : State → Prop} (hexec : exec i s = .next (command i op r need run s)) (h : accepts op r need s = true)
    (hrun : run s = .done u status detail body) (hP : ∀ t, SameKeys u t → Answered op r status detail body t → P t) : To i s P :=
  to_of_answer hexec h hrun fun t ht ha => hP t
    ⟨by rw [ht, settle_keys, respond_keys], by rw [ht, settle_nv, respond_nv], by rw [ht, settle_nextSeq, respond_jrn],
      by rw [ht, settle_epoch, respond_epoch]⟩ ha

theorem to_of_same_refusal {P : State → Prop} (hexec : exec i s = .next (command i op r need run s)) (h : accepts op r need s = true)
    (hrun : run s = .refuse u status detail) (hP : ∀ t, SameKeys u t → Answered op r status detail [] t → P t) : To i s P :=
  to_of_same hexec h hrun hP

theorem SameKeys.keyRec (h : SameKeys u t) (j : Nat) : keyRec t j = keyRec u j := by rw [Machine.keyRec, h.nv, Machine.keyRec]
theorem SameKeys.genOf (h : SameKeys u t) (j : Nat) : genOf t j = genOf u j := by rw [Machine.genOf, h.nv, Machine.genOf]
theorem SameKeys.sessCount (h : SameKeys u t) (j : Nat) : sessCount t j = sessCount u j := by rw [Machine.sessCount, h.nv, Machine.sessCount]
theorem SameKeys.sessSecret (h : SameKeys u t) (j : Nat) : sessSecret t j = sessSecret u j := by
  rw [Machine.sessSecret, h.keys, Machine.sessSecret]

/-! ## A key is created (R292, R296 to R299, R304) -/

/-- A session key stands at its index, and nothing else of the key store or the MRAM has changed. -/
structure SessionMade (n : NewKey) (i : Nat) (s t : State) : Prop where
  record : ∃ x, tget t.keys.sess i = some x ∧ x.live = true ∧ x.owner = n.owner ∧ x.parent = n.parent ∧ x.bound = none
    ∧ x.test = s.keys.testRoot ∧ x.keyId = BitVec.ofNat 32 n.keyId
  secret : sessSecret t i = some n.secret
  count : sessCount t i = (sessCount s i + 1) % 4096
  others : ∀ j, j ≠ i → tget t.keys.sess j = tget s.keys.sess j ∧ sessCount t j = sessCount s j
  nv : t.nv = { s.nv with sessCnt := t.nv.sessCnt }
  challenge : t.keys.challenge = s.keys.challenge

theorem writeSession_makes (n : NewKey) (i : Nat) (s : State) : SessionMade n i s (writeSession n i s) where
  record := ⟨_, tget_tset_self .., rfl, rfl, rfl, rfl, rfl, rfl⟩
  secret := by
    unfold writeSession sessSecret
    simp only [drew, tget_tset_self]
    exact gcmOpen_gcmSeal ..
  count := tgetD_tset_self ..
  others := fun j hj => ⟨tget_tset_ne _ _ hj, tgetD_tset_ne _ _ _ hj⟩
  nv := rfl
  challenge := rfl

@[simp] theorem writeSession_queues (n : NewKey) (i : Nat) (s : State) : (writeSession n i s).queues = s.queues := rfl

theorem SessionMade.congr {n : NewKey} {i : Nat} {s t t' : State} (h : SessionMade n i s t) (hkeys : t'.keys = t.keys) (hnv : t'.nv = t.nv) :
    SessionMade n i s t' := by
  obtain ⟨hrecord, hsecret, hcount, hothers, hsame, hchallenge⟩ := h
  refine ⟨by rwa [hkeys], by rwa [sessSecret, hkeys, ← sessSecret], by rwa [sessCount, hnv, ← sessCount], fun j hj => ?_, by rwa [hnv],
    by rwa [hkeys]⟩
  rw [hkeys, sessCount, hnv, ← sessCount]
  exact hothers j hj

theorem quiet_made {n : NewKey} {i : Nat} (hq : quiet s = true) (h : SessionMade n i s t) (hw : t.work = s.work) (hj : t.jrn = s.jrn) :
    quiet t = true :=
  (quiet_congr hw hj (by rw [jfill, jfill, ringUsed, ringUsed, h.nv])).trans hq

/-- The handle of a key that has just been created. -/
theorem SessionMade.handle {n : NewKey} {i : Nat} {s t : State} (h : SessionMade n i s t) (hi : i < 2 ^ 18) :
    sessHandle t i = 2 ^ 30 + (sessCount s i + 1) % 4096 * 2 ^ 18 + i := by
  rw [sessHandle, h.count, Nat.mod_mod, Nat.mod_eq_of_lt hi]

/-- The body of the KEY_CREATE entry of a new key (R320). -/
def keyCreated (n : NewKey) (i : Nat) (s : State) : Bytes := createBody s n (handleOf s i) (b2n s.keys.testRoot + 2 * b2n (n.method ≠ 0))

/-- A persistent key has its record at its index and its entry, and no other key has changed. -/
structure KeyMade (n : NewKey) (i : Nat) (s t : State) : Prop where
  record : ∃ rseq x, keyRec t i = .ok rseq x ∧ x.kind = n.kind ∧ x.owner = n.owner ∧ x.parent = n.parent ∧ x.gen = genOf s i
    ∧ x.keyId = BitVec.ofNat 32 n.keyId ∧ x.users = BitVec.ofNat 16 n.users ∧ x.createSeq = s.jrn.nextSeq
  others : ∀ j, j ≠ i → keyRec t j = keyRec s j
  gens : ∀ j, genOf t j = genOf s j
  entry : Journalled 0x30 (keyCreated n i s) s t
  challenge : t.keys.challenge = s.keys.challenge

theorem KeyMade.congr {n : NewKey} {i : Nat} {s t t' : State} (h : KeyMade n i s t) (hsame : SameKeys t t') : KeyMade n i s t' := by
  obtain ⟨hrecord, hothers, hgens, hentry, hchallenge⟩ := h
  refine ⟨by rwa [hsame.keyRec], fun j hj => by rw [hsame.keyRec, hothers j hj], fun j => by rw [hsame.genOf, hgens],
    journalled_congr rfl hsame.nextSeq (congrArg Nv.ring hsame.nv) hentry, by rw [hsame.keys, hchallenge]⟩

theorem length_keyCreated (n : NewKey) (i : Nat) (s : State) : (keyCreated n i s).length ≤ 2024 := by
  simp [keyCreated, createBody]

/-- A sealed record that has been written over whatever stood there is in force. -/
theorem resolve_sealed (recs : Tab (AB KeyRec)) (s : State) (i q : Nat) (k : KeyRec) (iv wrap secret : Bytes) (old : AB KeyRec) :
    ∃ rseq x, AB.resolve (tgetD (tset recs i (old.update (sealRec s i q k iv wrap secret))) i ⟨.blank, .blank⟩) = .ok rseq x
      ∧ x.kind = k.kind ∧ x.owner = k.owner ∧ x.parent = k.parent ∧ x.gen = k.gen ∧ x.keyId = k.keyId ∧ x.users = k.users
      ∧ x.createSeq = k.createSeq := by
  rw [tgetD_tset_self]
  obtain ⟨rseq, hres⟩ := AB.resolve_update old (sealRec s i q k iv wrap secret)
  exact ⟨rseq, _, hres, rfl, rfl, rfl, rfl, rfl, rfl, rfl⟩

theorem writeKey_makes (n : NewKey) (i : Nat) {s : State} (hring : ringTakes s = true) : KeyMade n i s (writeKey n i s) := by
  have hblock := takeBlock_only s
  have hj := journalEntry_journalled 0x30 false (keyCreated n i s) (takeBlock s).2 (by decide) (length_keyCreated n i s)
  have hseq := entrySeq_of_ringTakes hring
  unfold writeKey
  simp only [hseq]
  generalize (takeBlock s).1 = iv
  generalize (takeBlock s).2 = v at *
  have hring' : ringTakes v = true := ringTakes_of_same hring (by rw [hblock]) (by rw [hblock]) (by rw [hblock]) (by rw [hblock]) (by rw [hblock])
  have hnext : v.jrn.nextSeq = s.jrn.nextSeq := by rw [hblock]
  have hnv := journalEntry_nv 0x30 false (keyCreated n i s) v
  have hkeys := journalEntry_keys 0x30 false (keyCreated n i s) v
  rw [show v.nv = s.nv by rw [hblock]] at hnv
  rw [show v.keys = s.keys by rw [hblock]] at hkeys
  replace hj := journalled_congr (t' := journalEntry 0x30 false (keyCreated n i s) v) hnext.symm rfl rfl (hj hring')
  rw [keyCreated] at hj hnv hkeys
  generalize journalEntry 0x30 false _ v = w at *
  have hrecs : w.nv.keyRecs = s.nv.keyRecs := by rw [hnv]
  have hgens : w.nv.genRecs = s.nv.genRecs := by rw [hnv]
  refine ⟨?_, fun j hj => ?_, fun j => ?_, journalled_congr (t := w) rfl rfl rfl hj, ?_⟩
  · exact resolve_sealed w.nv.keyRecs s i _ _ _ _ _ _
  · show AB.resolve (tgetD (tset w.nv.keyRecs i _) j _) = _
    rw [tgetD_tset_ne _ _ _ hj, hrecs, keyRec]
  · show AB.value (tgetD w.nv.genRecs j _) 0 = _
    rw [hgens, genOf]
  · show w.keys.challenge = _
    rw [hkeys]

theorem createKey_session {n : NewKey} {i : Nat} (hup : keyStoreUp s = true) (hkind : n.kind = 0x10) (hplace : placeSession s n.index = some i)
    (hi : i < 2 ^ 18) (hwrap : s.keys.wrapSet = true) :
    createKey n s = .done (writeSession n i s) stOk 0
      (le 4 (2 ^ 30 + (sessCount s i + 1) % 4096 * 2 ^ 18 + i) ++ le 4 n.keyId ++ le 6 0 ++ zeros 2) := by
  have hrefusal : createRefusal n.kind s = none := by rw [createRefusal, if_pos hkind, if_pos hwrap]
  simp only [createKey, hup, hkind, hplace, ← (writeSession_makes n i s).handle hi, createdBody, Bool.not_true, Bool.false_eq_true,
    if_false, if_true, hkind ▸ hrefusal]

theorem createKey_persistent {n : NewKey} {i : Nat} (hup : keyStoreUp s = true) (hkind : n.kind ≠ 0x10)
    (hplace : placePersistent s n.index = some i) (hid : keyIdTaken s n.keyId = false) (hentry : entryRefusal false s = none)
    (hring : ringTakes s = true) (hcond : condUp s 1 = true) :
    createKey n s = .done (writeKey n i s) stOk 0 (le 4 (handleOf s i) ++ le 4 n.keyId ++ le 6 s.jrn.nextSeq ++ zeros 2) := by
  have hrefusal : createRefusal n.kind s = none := by
    rw [createRefusal, if_neg hkind, hentry]
    simp only [hcond, if_true]
  simp only [createKey, hup, if_neg hkind, hplace, hid, hrefusal, entrySeq_of_ringTakes hring, createdBody, Bool.not_true, Bool.false_eq_true,
    if_false]

/-! ## KEY_DERIVE (R301) -/

/-- The key that a request asks for under parent `p`. -/
def derivedKey (r : Req) (p : Nat) (s : State) : NewKey :=
  { kind := fld r 0 1, owner := fld r 2 1, parent := p, index := fld r 8 4, keyId := fld r 12 4, users := 0, method := 0
    secret := deriveSecret ((operatorSecret s p).getD []) (fld r 0 1) (slice r.body 32 32) }

theorem keyDeriveRun_creates {p : Nat} {k : KeyRec} (hform : deriveBad r = none) (hfn : r.fn = 0 ∨ pfKind (fld r 0 1) = false)
    (hparent : findKey s r.fn (fld r 4 4) 0x02 = .key p k) : keyDeriveRun r s = createKey (derivedKey r p s) s := by
  have hfind : findParent s r.fn (fld r 4 4) = .key p k := by rw [findParent, hparent]
  have hallowed : ¬ (r.fn ≠ 0 ∧ pfKind (fld r 0 1) = true) := fun ⟨hne, hpf⟩ =>
    hfn.elim hne fun hno => absurd (hno.symm.trans hpf) Bool.false_ne_true
  simp only [keyDeriveRun, hform, if_neg hallowed, hfind, parentRefusal, derivedKey]

theorem derive_session {p i : Nat} {k : KeyRec} (h : accepts 0x0301 r (some 64) s = true) (hq : quiet s = true) (hform : deriveBad r = none)
    (hup : keyStoreUp s = true) (hparent : findKey s r.fn (fld r 4 4) 0x02 = .key p k) (hkind : fld r 0 1 = 0x10)
    (hplace : placeSession s (fld r 8 4) = some i) (hi : i < 2 ^ 18) (hwrap : s.keys.wrapSet = true) :
    To (.keyDerive r) s fun t =>
      Answered 0x0301 r stOk 0 (le 4 (2 ^ 30 + (sessCount s i + 1) % 4096 * 2 ^ 18 + i) ++ le 4 (fld r 12 4) ++ le 6 0 ++ zeros 2) t
        ∧ (∃ x, tget t.keys.sess i = some x ∧ x.live = true ∧ x.owner = fld r 2 1 ∧ x.parent = p ∧ x.bound = none
            ∧ x.test = s.keys.testRoot ∧ x.keyId = BitVec.ofNat 32 (fld r 12 4))
        ∧ sessSecret t i = some (kdf ((operatorSecret s p).getD []) "FLDERIVE" (be 1 0x10 ++ zeros 3 ++ slice r.body 32 32) 256)
        ∧ sessCount t i = (sessCount s i + 1) % 4096
        ∧ (∀ j, j ≠ i → tget t.keys.sess j = tget s.keys.sess j ∧ sessCount t j = sessCount s j)
        ∧ t.nv = { s.nv with sessCnt := t.nv.sessCnt } ∧ t.queues = s.queues := by
  have hrun := keyDeriveRun_creates hform (.inr (by rw [hkind]; rfl)) hparent
  rw [createKey_session (n := derivedKey r p s) hup hkind hplace hi hwrap] at hrun
  have hsecret : (derivedKey r p s).secret
      = kdf ((operatorSecret s p).getD []) "FLDERIVE" (be 1 0x10 ++ zeros 3 ++ slice r.body 32 32) 256 := by
    rw [derivedKey, hkind]
    rfl
  have hquiet := quiet_made hq (writeSession_makes (derivedKey r p s) i s) rfl rfl
  refine to_of_done rfl h hrun hquiet fun t ha hr => ?_
  obtain ⟨hrecord, hopens, hcount, hothers, hnv, -⟩ :=
    (writeSession_makes (derivedKey r p s) i s).congr (keys_of_responded hr) (nv_of_responded hr)
  rw [hsecret] at hopens
  exact ⟨ha, hrecord, hopens, hcount, hothers, hnv, (queues_of_responded hr).trans (writeSession_queues _ i s)⟩

theorem derive_persistent {p i : Nat} {k : KeyRec} (h : accepts 0x0301 r (some 64) s = true) (hform : deriveBad r = none)
    (hup : keyStoreUp s = true) (hparent : findKey s r.fn (fld r 4 4) 0x02 = .key p k) (hkind : fld r 0 1 ≠ 0x10)
    (hfn : r.fn = 0 ∨ pfKind (fld r 0 1) = false) (hid : keyIdTaken s (fld r 12 4) = false) (hplace : placePersistent s (fld r 8 4) = some i)
    (hentry : entryRefusal false s = none) (hring : ringTakes s = true) (hcond : condUp s 1 = true) :
    To (.keyDerive r) s fun t =>
      Answered 0x0301 r stOk 0 (le 4 (handleOf s i) ++ le 4 (fld r 12 4) ++ le 6 s.jrn.nextSeq ++ zeros 2) t
        ∧ (∃ rseq x, keyRec t i = .ok rseq x ∧ x.kind = fld r 0 1 ∧ x.owner = fld r 2 1 ∧ x.parent = p ∧ x.gen = genOf s i
            ∧ x.keyId = BitVec.ofNat 32 (fld r 12 4) ∧ x.createSeq = s.jrn.nextSeq)
        ∧ (∀ j, j ≠ i → keyRec t j = keyRec s j) ∧ (∀ j, genOf t j = genOf s j)
        ∧ Journalled 0x30 (le 4 (handleOf s i) ++ le 4 (fld r 12 4) ++ le 1 (fld r 0 1) ++ le 1 0 ++ le 1 (fld r 2 1)
            ++ le 1 (b2n s.keys.testRoot) ++ le 4 (handleOf s p) ++ le 2 0 ++ zeros 6) s t := by
  have hrun := keyDeriveRun_creates hform hfn hparent
  rw [createKey_persistent (n := derivedKey r p s) hup hkind hplace hid hentry hring hcond] at hrun
  refine to_of_same rfl h hrun fun t hsame ha => ?_
  obtain ⟨⟨rseq, x, hrec, hk, ho, hp, hg, hkid, -, hseq⟩, hothers, hgens, hj, -⟩ := (writeKey_makes (derivedKey r p s) i hring).congr hsame
  exact ⟨ha, ⟨rseq, x, hrec, hk, ho, hp, hg, hkid, hseq⟩, hothers, hgens, hj⟩

/-! ## KEY_IMPORT (R302 to R304) -/

theorem usedPke_only (s : State) : ∃ ps d, usedPke s = { s with pkes := ps, pwr := { s.pwr with domains := d } } := by
  unfold usedPke
  split
  · exact ⟨_, _, rfl⟩
  · exact ⟨s.pkes, s.pwr.domains, rfl⟩

/-- The state in which a package's signature and ciphertext are judged: the challenge of a SIGNED package is used up. -/
def judged (r : Req) (p : Bytes) (s : State) : State := usedPke (if pkgSigned p then consumeChallenge (taken r s) else taken r s)

theorem judged_only (r : Req) (p : Bytes) (s : State) : ∃ ps d ms os, judged r p s = { s with
    mbxs := ms, out := os, pkes := ps, pwr := { s.pwr with domains := d }
    keys := { s.keys with challenge := if pkgSigned p then none else s.keys.challenge } } := by
  have htaken := taken_only r s
  unfold judged
  obtain ⟨ps, d, hused⟩ := usedPke_only (if pkgSigned p then consumeChallenge (taken r s) else taken r s)
  rw [hused]
  generalize taken r s = u at *
  refine ⟨ps, d, u.mbxs, u.out, ?_⟩
  rw [htaken]
  cases pkgSigned p <;> rfl

end

section
variable {r : Req} {s : State} {p : Bytes} {parent i : Nat}

theorem importParent_taken (r : Req) (fn : Nat) (p : Bytes) (s : State) : importParent fn p (taken r s) = importParent fn p s := by
  rw [taken_only]
  rfl

theorem importSigned_taken (r : Req) (p : Bytes) (s : State) : importSigned (taken r s) p = importSigned s p := by
  rw [taken_only]
  rfl

theorem importSecret_taken (r : Req) (parent : Nat) (p : Bytes) (s : State) : importSecret (taken r s) parent p = importSecret s parent p := by
  rw [taken_only]
  rfl

theorem createRefusal_taken (kind : Nat) (r : Req) (s : State) : createRefusal kind (taken r s) = createRefusal kind s := by
  unfold createRefusal
  rw [entryRefusal_taken, taken_only]
  rfl

/-- The key that a package brings. -/
def importedKey (p secret : Bytes) (parent : Nat) : NewKey :=
  { kind := num p 4 1, owner := num p 7 1, parent := parent, index := num p 12 4, keyId := num p 16 4, users := num p 20 2
    method := num p 5 1, secret := secret }

theorem importFinal_judges (hform : importBad r.fn p = none) (hparent : importParent r.fn p s = .ok parent) (hpke : pkeUp s = true)
    (hrefusal : createRefusal (num p 4 1) s = none) :
    importFinal r p (taken r s)
      = ((if importSigned s p then importSecret s parent p else none).elim (.refuse (judged r p s) stAuthFail 0) fun secret =>
          createKey (importedKey p secret parent) (judged r p s)) := by
  have hpke' : pkeUp (taken r s) = true := by
    rw [taken_only]
    exact hpke
  unfold importFinal
  simp only [hform, importParent_taken, hparent, hpke', createRefusal_taken, hrefusal, importSigned_taken, importSecret_taken,
    Bool.not_true, Bool.false_eq_true, if_false]
  cases importSigned s p with
  | false => rfl
  | true => cases importSecret s parent p <;> rfl

/-- What a judgement of a package leaves of the state. -/
structure Judged (p : Bytes) (s v : State) : Prop where
  up : keyStoreUp v = keyStoreUp s
  session : ∀ idx, placeSession v idx = placeSession s idx
  wrapSet : v.keys.wrapSet = s.keys.wrapSet
  place : ∀ idx, placePersistent v idx = placePersistent s idx
  id : ∀ k, keyIdTaken v k = keyIdTaken s k
  refusal : entryRefusal false v = entryRefusal false s
  ring : ringTakes v = ringTakes s
  cond : ∀ n, condUp v n = condUp s n
  handle : ∀ j, handleOf v j = handleOf s j
  gen : ∀ j, genOf v j = genOf s j
  record : ∀ j, keyRec v j = keyRec s j
  nv : v.nv = s.nv
  jrn : v.jrn = s.jrn
  sess : v.keys.sess = s.keys.sess
  testRoot : v.keys.testRoot = s.keys.testRoot
  challenge : v.keys.challenge = if pkgSigned p then none else s.keys.challenge

/-- Whether the ring takes an entry does not rest on the domains that are on. -/
theorem makeRoom_domains (n : Nat) (d : List DomState) (s : State) :
    makeRoom n { s with pwr := { s.pwr with domains := d } } = { makeRoom n s with pwr := { s.pwr with domains := d } } := by
  unfold makeRoom
  split <;> rfl

theorem ringTakes_domains (d : List DomState) (s : State) : ringTakes { s with pwr := { s.pwr with domains := d } } = ringTakes s := by
  simp only [ringTakes, entriesStop, seqExhausted, chainOn, ringWorks, roomForEntry, freePages, ringUsed, makeRoom_domains]
  rfl

theorem entryRefusal_domains (d : List DomState) (s : State) :
    entryRefusal false { s with pwr := { s.pwr with domains := d } } = entryRefusal false s := by
  simp only [entryRefusal, seqExhausted, seqReserve, chainOn, ringWorks, journalFull, jfill, ringUsed, roomForEntry, makeRoom_domains]
  rfl

theorem entries_domains {v : State} {d : List DomState} (hpwr : v.pwr = { s.pwr with domains := d }) (hjrn : v.jrn = s.jrn) (hnv : v.nv = s.nv)
    (hd0 : v.dgu0 = s.dgu0) (hd1 : v.dgu1 = s.dgu1) : entryRefusal false v = entryRefusal false s ∧ ringTakes v = ringTakes s := by
  have hrefusal := entryRefusal_domains d s
  have hring := ringTakes_domains d s
  generalize hu : ({ s with pwr := { s.pwr with domains := d } } : State) = u at hrefusal hring
  have hsame : u.pwr = { s.pwr with domains := d } ∧ u.jrn = s.jrn ∧ u.nv = s.nv ∧ u.dgu0 = s.dgu0 ∧ u.dgu1 = s.dgu1 := by
    rw [← hu]
    exact ⟨rfl, rfl, rfl, rfl, rfl⟩
  obtain ⟨hupwr, hujrn, hunv, hu0, hu1⟩ := hsame
  rw [← hupwr] at hpwr
  rw [← hujrn] at hjrn
  rw [← hunv] at hnv
  rw [← hu0] at hd0
  rw [← hu1] at hd1
  rw [← hrefusal, ← hring]
  exact ⟨entryRefusal_congr hpwr hjrn hnv hd0 hd1 false, ringTakes_congr hpwr hjrn hnv hd0 hd1⟩

theorem judged_judged (r : Req) (p : Bytes) (s : State) : Judged p s (judged r p s) := by
  obtain ⟨ps, d, ms, os, hv⟩ := judged_only r p s
  rw [hv]
  obtain ⟨hrefusal, hring⟩ := entries_domains (s := s) (v := { s with
    mbxs := ms, out := os, pkes := ps, pwr := { s.pwr with domains := d }
    keys := { s.keys with challenge := if pkgSigned p then none else s.keys.challenge } }) rfl rfl rfl rfl rfl
  exact ⟨rfl, fun _ => rfl, rfl, fun _ => rfl, fun _ => rfl, hrefusal, hring, fun _ => rfl, fun _ => rfl, fun _ => rfl, fun _ => rfl, rfl, rfl, rfl,
    rfl, rfl⟩

/-- The ranges of a package that has all its bytes (R303). -/
theorem importBad_none (h : importBad r.fn p = none) : 160 ≤ p.length ∧ (num p 5 1 = 1 ∨ num p 5 1 = 2) := by
  have hgood := firstBad_none h
  simp only [List.mem_cons, List.not_mem_nil, or_false, forall_eq_or_imp, forall_eq, pkgBad, bne_eq_false_iff_eq] at hgood
  obtain ⟨-, -, hmethod, -, -, -, -, -, -, -, -, hlen⟩ := hgood
  have hlong : 160 ≤ p.length := by
    rw [hlen]
    omega
  refine ⟨hlong, ?_⟩
  rw [decide_eq_true (by omega), Bool.true_and] at hmethod
  simpa [or_iff_not_imp_left] using hmethod

/-- USERS is written as the package spells it. -/
theorem users_bytes (h : 160 ≤ p.length) : le 2 (num p 20 2) = slice p 20 2 := by
  have hlen : (slice p 20 2).length = 2 := by
    simp [slice]
    omega
  have hbytes := le_leVal (slice p 20 2)
  rw [hlen] at hbytes
  exact hbytes

theorem users_lt (h : 160 ≤ p.length) : num p 20 2 < 2 ^ 16 := by
  have hbytes := leVal_le 2 (num p 20 2)
  rw [users_bytes h] at hbytes
  have hlt := Nat.mod_lt (num p 20 2) (show 0 < 256 ^ 2 by decide)
  rwa [← hbytes] at hlt

theorem import_denied (h : accepts 0x0302 r none s = true)
    (hrun : chunkRun 0x0302 8192 (importFinal r) r s = .refuse (judged r p s) stAuthFail 0) :
    To (.keyImport r) s fun t =>
      t.keys.challenge = (if pkgSigned p then none else s.keys.challenge)
        ∧ Answered 0x0302 r stAuthFail 0 [] t ∧ t.keys.sess = s.keys.sess ∧ t.nv = s.nv := by
  have hv := judged_judged r p s
  exact to_of_same_refusal rfl h hrun fun t hsame ha =>
    ⟨by rw [hsame.keys, hv.challenge], ha, by rw [hsame.keys, hv.sess], by rw [hsame.nv, hv.nv]⟩

theorem import_session {secret : Bytes} (h : accepts 0x0302 r none s = true)
    (hrun : chunkRun 0x0302 8192 (importFinal r) r s = createKey (importedKey p secret parent) (judged r p s)) (hup : keyStoreUp s = true)
    (hkind : num p 4 1 = 0x10) (hplace : placeSession s (num p 12 4) = some i) (hi : i < 2 ^ 18) (hwrap : s.keys.wrapSet = true) :
    To (.keyImport r) s fun t =>
      t.keys.challenge = (if pkgSigned p then none else s.keys.challenge)
        ∧ Answered 0x0302 r stOk 0 (le 4 (2 ^ 30 + (sessCount s i + 1) % 4096 * 2 ^ 18 + i) ++ le 4 (num p 16 4) ++ le 6 0 ++ zeros 2) t
        ∧ sessSecret t i = some secret ∧ ∀ j, j ≠ i → tget t.keys.sess j = tget s.keys.sess j := by
  have hv := judged_judged r p s
  rw [← hv.up] at hup
  rw [← hv.session] at hplace
  rw [← hv.wrapSet] at hwrap
  have hcount : sessCount (judged r p s) i = sessCount s i := by rw [sessCount, hv.nv, sessCount]
  rw [createKey_session (n := importedKey p secret parent) hup hkind hplace hi hwrap, hcount] at hrun
  refine to_of_same rfl h hrun fun t hsame ha => ?_
  obtain ⟨-, hopens, -, hothers, -, hchallenge⟩ :=
    (writeSession_makes (importedKey p secret parent) i (judged r p s)).congr hsame.keys hsame.nv
  refine ⟨by rw [hchallenge, hv.challenge], ha, hopens, fun j hj => ?_⟩
  rw [(hothers j hj).1, hv.sess]

theorem import_persistent {secret : Bytes} (h : accepts 0x0302 r none s = true) (hform : importBad r.fn p = none)
    (hrun : chunkRun 0x0302 8192 (importFinal r) r s = createKey (importedKey p secret parent) (judged r p s)) (hup : keyStoreUp s = true)
    (hkind : num p 4 1 ≠ 0x10) (hplace : placePersistent s (num p 12 4) = some i) (hid : keyIdTaken s (num p 16 4) = false)
    (hentry : entryRefusal false s = none) (hring : ringTakes s = true) (hcond : condUp s 1 = true) :
    To (.keyImport r) s fun t =>
      t.keys.challenge = (if pkgSigned p then none else s.keys.challenge)
        ∧ Answered 0x0302 r stOk 0 (le 4 (handleOf s i) ++ le 4 (num p 16 4) ++ le 6 s.jrn.nextSeq ++ zeros 2) t
        ∧ (∃ rseq x, keyRec t i = .ok rseq x ∧ x.kind = num p 4 1 ∧ x.owner = num p 7 1 ∧ x.parent = parent ∧ x.gen = genOf s i
            ∧ x.keyId = BitVec.ofNat 32 (num p 16 4) ∧ x.users.toNat = num p 20 2 ∧ x.createSeq = s.jrn.nextSeq)
        ∧ (∀ j, j ≠ i → keyRec t j = keyRec s j)
        ∧ Journalled 0x30 (le 4 (handleOf s i) ++ le 4 (num p 16 4) ++ le 1 (num p 4 1) ++ le 1 (num p 5 1) ++ le 1 (num p 7 1)
            ++ le 1 (b2n s.keys.testRoot + 2) ++ le 4 (handleOf s parent) ++ slice p 20 2 ++ zeros 6) s t := by
  obtain ⟨hlong, hmethod⟩ := importBad_none hform
  have hv := judged_judged r p s
  rw [← hv.up] at hup
  rw [← hv.place] at hplace
  rw [← hv.id] at hid
  rw [← hv.refusal] at hentry
  rw [← hv.ring] at hring
  rw [← hv.cond] at hcond
  rw [createKey_persistent (n := importedKey p secret parent) hup hkind hplace hid hentry hring hcond, hv.handle, hv.jrn] at hrun
  have hbody : keyCreated (importedKey p secret parent) i (judged r p s)
      = le 4 (handleOf s i) ++ le 4 (num p 16 4) ++ le 1 (num p 4 1) ++ le 1 (num p 5 1) ++ le 1 (num p 7 1)
        ++ le 1 (b2n s.keys.testRoot + 2) ++ le 4 (handleOf s parent) ++ slice p 20 2 ++ zeros 6 := by
    have hflag : decide (num p 5 1 ≠ 0) = true := decide_eq_true (by omega)
    rw [keyCreated, createBody, importedKey, hv.handle, hv.handle, hv.testRoot, hflag, ← users_bytes hlong]
    rfl
  have hmade := writeKey_makes (importedKey p secret parent) i hring
  refine to_of_same rfl h hrun fun t hsame ha => ?_
  obtain ⟨⟨rseq, x, hrec, hk, ho, hp, hg, hkid, husers, hseq⟩, hothers, -, hj, hchallenge⟩ := hmade.congr hsame
  rw [hbody] at hj
  rw [hv.gen] at hg
  rw [hv.jrn] at hseq
  refine ⟨by rw [hchallenge, hv.challenge], ha, ⟨rseq, x, hrec, hk, ho, hp, hg, hkid, ?_, hseq⟩, fun j hj => by rw [hothers j hj, hv.record],
    journalled_congr (by rw [hv.jrn]) rfl rfl hj⟩
  rw [husers]
  exact Nat.mod_eq_of_lt (users_lt hlong)

theorem import_runs {parent : Nat} (hchunk : Chunk 0x0302 8192 r s p) (hlast : bit (fld r 0 4) 1 = true) (hform : importBad r.fn p = none)
    (hparent : importParent r.fn p s = .ok parent) (hpke : pkeUp s = true) (hrefusal : createRefusal (num p 4 1) s = none) :
    chunkRun 0x0302 8192 (importFinal r) r s
      = ((if importSigned s p then importSecret s parent p else none).elim (.refuse (judged r p s) stAuthFail 0) fun secret =>
          createKey (importedKey p secret parent) (judged r p s)) :=
  (chunk_judged (final := importFinal r) hchunk rfl hlast).trans (importFinal_judges hform hparent hpke hrefusal)

/-! ## KEY_INVALIDATE (R310, R311) -/

theorem invalidateSession_acts (i h : Nat) (s : State) :
    tget (invalidateSession i h s).keys.sess i = none ∧ (invalidateSession i h s).epoch = s.epoch + 1
      ∧ (∀ j, j ≠ i → tget (invalidateSession i h s).keys.sess j = tget s.keys.sess j) ∧ (invalidateSession i h s).nv = s.nv :=
  ⟨tget_tdel_self .., rfl, fun _ hj => tget_tdel_ne _ hj, rfl⟩

theorem keyInvalidate_session (hzero : fld r 4 4 = 0) (hform : unsignedBad r = none) (hname : nameOf s (fld r 0 4) = .session i)
    (hheld : sessFree s i = false) :
    keyInvalidateRun r s
      = .done (invalidateSession i (fld r 0 4) s) stOk 0 (zeros 16 ++ le 8 (s.epoch + 1)) := by
  unfold keyInvalidateRun
  simp only [if_neg (not_not.mpr hzero), hname, hheld, Bool.false_eq_true, if_false, hform]
  rfl

theorem invalidateKey_acts {keyId : Nat} (hring : ringTakes s = true) :
    genOf (invalidateKey i keyId s) i = genOf s i + 1 ∧ (∀ j, j ≠ i → genOf (invalidateKey i keyId s) j = genOf s j)
      ∧ (invalidateKey i keyId s).epoch = s.epoch + 1 ∧ (∀ e ∈ (invalidateKey i keyId s).keys.hot, ∀ c ∈ e.chain, c.1 ≠ i)
      ∧ Journalled 0x31 (le 4 (handleOf s i) ++ le 4 keyId ++ le 4 (genOf s i + 1) ++ le 1 1 ++ zeros 3) s (invalidateKey i keyId s) := by
  have hj := journalEntry_journalled 0x31 false (invalidateBody (handleOf s i) keyId (genOf s i + 1) 1) s (by decide)
    (by simp [invalidateBody]) hring
  have hnv := journalEntry_nv 0x31 false (invalidateBody (handleOf s i) keyId (genOf s i + 1) 1) s
  have hepoch := journalEntry_epoch 0x31 false (invalidateBody (handleOf s i) keyId (genOf s i + 1) 1) s
  unfold invalidateKey
  simp only []
  generalize journalEntry 0x31 false _ s = w at *
  have hgens : w.nv.genRecs = s.nv.genRecs := by rw [hnv]
  refine ⟨?_, fun j hne => ?_, congrArg (· + 1) hepoch, fun e he c hc => ?_, journalled_congr (t := w) rfl rfl rfl hj⟩
  · show AB.value (tgetD (tset w.nv.genRecs i _) i _) 0 = _
    rw [tgetD_tset_self, AB.value_update]
  · show AB.value (tgetD (tset w.nv.genRecs i _) j _) 0 = _
    rw [tgetD_tset_ne _ _ _ hne, hgens, genOf]
  · have hkept := (List.mem_filter.mp he).2
    rw [Bool.not_eq_true', List.any_eq_false] at hkept
    simpa using hkept c hc

theorem keyInvalidate_persistent {keyId : Nat} (hzero : fld r 4 4 = 0) (hform : unsignedBad r = none)
    (hname : nameOf s (fld r 0 4) = .persistent i) (hi : 6 ≤ i) (htarget : invalidTarget s i = some (keyId, false))
    (hgen : genOf s i < 0x3FFFF) (hdraws : drawsNeed s i = false) (hentry : entryRefusal true s = none) (hring : ringTakes s = true) :
    keyInvalidateRun r s = .done (invalidateKey i keyId s) stOk 0
      (le 4 (genOf s i + 1) ++ zeros 4 ++ le 6 s.jrn.nextSeq ++ zeros 2 ++ le 8 (s.epoch + 1)) := by
  have hepoch := (invalidateKey_acts (i := i) (keyId := keyId) hring).2.2.1
  unfold keyInvalidateRun invalidatePersistent
  simp only [if_neg (not_not.mpr hzero), hname, if_neg (Nat.not_lt.mpr hi), htarget, hform, if_neg (Nat.not_le.mpr hgen), hdraws, hentry,
    Bool.false_eq_true, if_false, Bool.false_and, invalidatedBody, entrySeq_of_ringTakes hring, hepoch]

/-! ## KEY_QUERY (R315) -/

theorem keyQuery_done (hzero : fld r 4 4 = 0) (hname : nameOf s (fld r 0 4) = .persistent i) :
    keyQueryRun r s = .done s stOk 0 (queryPersistent s r.fn i) := by
  unfold keyQueryRun
  simp only [if_neg (not_not.mpr hzero), hname]

theorem queryPersistent_held {rseq : Nat} {k : KeyRec} (hrec : keyRec s i = .ok rseq k) (huse : mayUse s r.fn k = true) :
    queryPersistent s r.fn i = le 4 (handleOf s i) ++ le 4 k.keyId.toNat ++ le 1 k.kind ++ le 1 (keyState s i) ++ le 1 k.owner ++ le 1 k.flags
      ++ le 4 (k.parentGen % 2 ^ 18 * 4096 + k.parent) ++ le 4 k.gen ++ le 4 k.parentGen ++ le 2 k.users.toNat
      ++ le 2 ((hotSlot s (handleOf s i)).getD 0xFFFF) ++ le 4 (keyUse s (handleOf s i)) ++ le 6 k.createSeq ++ zeros 10 := by
  simp only [queryPersistent, hrec, huse, if_true, keyQueryBody]

theorem queryPersistent_blank (fn : Nat) (hrec : keyRec s i = .blank) :
    queryPersistent s fn i = le 4 (handleOf s i) ++ zeros 22 ++ le 2 ((hotSlot s (handleOf s i)).getD 0xFFFF)
      ++ le 4 (keyUse s (handleOf s i)) ++ zeros 16 := by
  simp only [queryPersistent, hrec, emptyQuery, keyQueryBody]
  have hzeros : ∀ n, le n 0 = zeros n := fun n => by
    induction n with
    | zero => rfl
    | succ n ih => exact congrArg (0 :: ·) ih
  simp only [hzeros, zeros, List.append_assoc, List.replicate_append_replicate]

end

/-- Settles O49. -/
theorem keyCommandsAct : Obligations.KeyCommandsAct := by
  intro r s hq
  refine ⟨fun p i k h hform hup hparent => ⟨fun hkind hplace hi hwrap => derive_session h hq hform hup hparent hkind hplace hi hwrap,
    fun hkind hfn hid hplace hentry hring hcond => derive_persistent h hform hup hparent hkind hfn hid hplace hentry hring hcond⟩,
    fun p h hwhole => ?_, fun h hzero hform => ⟨fun i hname hheld => ?_, fun i keyId hname hi htarget hgen hdraws hentry hring => ?_⟩,
    fun h hzero i hname => ⟨fun rseq k hrec huse => ?_, fun hrec => ?_⟩⟩
  · have hchunk := chunk_of_whole hwhole
    refine ⟨fun hmore => ?_, fun off hlast hform => ?_, fun st det hlast hform hparent => ?_,
      fun parent i hlast hform hparent hpke hup hplace => ?_⟩
    · obtain ⟨t, ht, ha, hr, hpkg, hop, -⟩ :=
        chunk_kept (i := .keyImport r) (run := chunkRun 0x0302 8192 (importFinal r) r) rfl h hq hchunk rfl hmore
      exact ⟨t, ht, ha, hr, hpkg, hop⟩
    · have hrun : chunkRun 0x0302 8192 (importFinal r) r s = importFinal r p (taken r s) := chunk_judged hchunk rfl hlast
      rw [importFinal, hform] at hrun
      exact package_refused rfl h hq hrun
    · have hrun : chunkRun 0x0302 8192 (importFinal r) r s = importFinal r p (taken r s) := chunk_judged hchunk rfl hlast
      rw [importFinal, hform, importParent_taken, hparent] at hrun
      exact package_refused rfl h hq hrun
    · by_cases hkind : num p 4 1 = 0x10
      · rw [if_pos hkind] at hplace
        obtain ⟨hfree, hi, hwrap⟩ := hplace
        have hrun := import_runs hchunk hlast hform hparent hpke (by rw [createRefusal, if_pos hkind, if_pos hwrap])
        simp only [if_pos hkind]
        cases hsecret : (if importSigned s p then importSecret s parent p else none) with
        | none => exact import_denied h (by rw [hrun, hsecret]; rfl)
        | some secret => exact import_session h (by rw [hrun, hsecret]; rfl) hup hkind hfree hi hwrap
      · rw [if_neg hkind] at hplace
        obtain ⟨hfree, hid, hentry, hring, hcond⟩ := hplace
        have hrun := import_runs hchunk hlast hform hparent hpke (by rw [createRefusal, if_neg hkind, hentry]; simp only [hcond, if_true])
        simp only [if_neg hkind]
        cases hsecret : (if importSigned s p then importSecret s parent p else none) with
        | none => exact import_denied h (by rw [hrun, hsecret]; rfl)
        | some secret => exact import_persistent h hform (by rw [hrun, hsecret]; rfl) hup hkind hfree hid hentry hring hcond
  · obtain ⟨hgone, hepoch, hothers, hnv⟩ := invalidateSession_acts i (fld r 0 4) s
    refine to_of_same (i := .keyInvalidate r) rfl h (keyInvalidate_session hzero hform hname hheld) fun t hsame ha => ?_
    rw [hsame.keys, hsame.nv, hsame.epoch]
    exact ⟨hgone, hepoch, ha, hothers, hnv⟩
  · have hrun := keyInvalidate_persistent hzero hform hname hi htarget hgen hdraws hentry hring
    obtain ⟨hraised, hothers, hepoch, hhot, hj⟩ := invalidateKey_acts (i := i) (keyId := keyId) hring
    refine to_of_same (i := .keyInvalidate r) rfl h hrun fun t hsame ha => ?_
    refine ⟨by rw [hsame.genOf, hraised], fun j hj => by rw [hsame.genOf, hothers j hj], by rw [hsame.epoch, hepoch], ?_,
      journalled_congr rfl hsame.nextSeq (congrArg Nv.ring hsame.nv) hj, ha⟩
    rw [hsame.keys]
    exact hhot
  · rw [← queryPersistent_held hrec huse]
    exact does_of_done (i := .keyQuery r) rfl h (keyQuery_done hzero hname) hq
  · rw [← queryPersistent_blank r.fn hrec]
    exact does_of_done (i := .keyQuery r) rfl h (keyQuery_done hzero hname) hq

end Sys2Proof.KeyCommands
end

section
/-! # Event records, schedules, monitors and memory fault counts (O48) -/
namespace Sys2Proof.Monitors
open Sys2Proof Sys2Proof.Machine Sys2Proof.Told Sys2Proof.Replies Sys2Proof.Entries
open Sys2Proof.Registers (settle_plain)

/-! ## Telling the host leaves FREEZE and the selects (R421) -/

/-- The performance monitors count the same sources. -/
def SameSelects (p q : Pmon) : Prop := q.freeze = p.freeze ∧ q.sel = p.sel

theorem SameSelects.trans {p q x : Pmon} (h : SameSelects p q) (h' : SameSelects q x) : SameSelects p x :=
  ⟨h'.1.trans h.1, h'.2.trans h.2⟩

theorem count_selects (p : Pmon) (src fn n : Nat) : SameSelects p (p.count src fn n) := by
  unfold Pmon.count
  split <;> exact ⟨rfl, rfl⟩

theorem message_selects (f v : Nat) (s : State) : SameSelects s.pmon (message f v s).pmon := by
  show SameSelects s.post.pmon (s.post.message f v).pmon
  unfold Post.message
  simp only []
  split
  · exact ⟨rfl, rfl⟩
  · exact count_selects ..

theorem devEvent_selects (f b : Nat) (s : State) : SameSelects s.pmon (devEvent f b s).pmon := by
  unfold devEvent
  simp only []
  split
  · exact message_selects f 0 _
  · exact ⟨rfl, rfl⟩

theorem devEventAll_selects (b : Nat) (s : State) : SameSelects s.pmon (devEventAll b s).pmon := by
  unfold devEventAll
  refine foldl_keeps (P := fun t : State => SameSelects s.pmon t.pmon) _ _ _ ⟨rfl, rfl⟩ fun t f h => ?_
  split
  · exact h.trans (devEvent_selects f b t)
  · exact h

theorem noteChanges_selects (s0 s : State) : SameSelects s.pmon (noteChanges s0 s).pmon := by
  have hstep : ∀ (p : Prop) [Decidable p] (b : Nat) (t : State), SameSelects s.pmon t.pmon →
      SameSelects s.pmon (if p then devEventAll b t else t).pmon := by
    intro p _ b t h
    split
    · exact h.trans (devEventAll_selects b t)
    · exact h
  unfold noteChanges
  simp only []
  refine foldl_keeps (P := fun t : State => SameSelects s.pmon t.pmon) _ _ _ ?_ fun t f h => ?_
  · exact hstep _ 2 _ (hstep _ 1 _ (hstep _ 0 _ ⟨rfl, rfl⟩))
  · split
    · exact h.trans (devEvent_selects f 3 t)
    · exact h

theorem settle_selects (s : State) {u : State} (hq : quiet u = true) : SameSelects u.pmon (settle s u).pmon := by
  have hpmon : (settle s u).pmon = (noteChanges s u).pmon := by
    unfold settle
    simp only []
    rw [deliver_quiet hq, fillEvents_quiet hq]
  rw [hpmon]
  exact noteChanges_selects s u

theorem respond_selects (op : Nat) (r : Req) (status detail : Nat) (body : Bytes) (s : State) :
    SameSelects s.pmon (respond op r status detail body s).pmon := by
  unfold respond
  simp only []
  split
  · split
    · exact message_selects r.fn 0 (modMbx r.fn r.mbx _ (drew s))
    · exact ⟨rfl, rfl⟩
  · exact ⟨rfl, rfl⟩
  · exact ⟨rfl, rfl⟩

/-! ## PMON_CONFIG and the monitor's registers (R421) -/

section
variable {r : Req} {s : State}

/-- The monitors after a PMON_CONFIG. -/
def configured (r : Req) (p : Pmon) : Pmon :=
  match fld r 0 1 with
  | 1 => { p with sel := (List.range 16).map fun i => BitVec.ofNat 32 (fld r (4 + 4 * i) 4) }
  | 2 => { p with freeze := true }
  | 3 => { p with freeze := false }
  | 4 => p.clear
  | _ => p

theorem configured_freeze (r : Req) (p : Pmon) :
    (configured r p).freeze = if fld r 0 1 = 2 then true else if fld r 0 1 = 3 then false else p.freeze := by
  unfold configured
  split
  case h_5 h1 h2 h3 h4 => rw [if_neg h2, if_neg h3]
  all_goals simp_all [Pmon.clear]

theorem configured_sel (r : Req) (p : Pmon) :
    (configured r p).sel = if fld r 0 1 = 1 then (List.range 16).map fun i => BitVec.ofNat 32 (fld r (4 + 4 * i) 4) else p.sel := by
  unfold configured
  split
  case h_5 h1 h2 h3 h4 => rw [if_neg h1]
  all_goals simp_all [Pmon.clear]

theorem selectsBad_none (hsel : fld r 0 1 = 1 → ∀ i, i < 16 → fld r (4 + 4 * i) 4 < 2 ^ 13) : ∀ x ∈ selectsBad r, x.1 = false := by
  intro x hx
  obtain ⟨i, hi, rfl⟩ := List.mem_map.mp hx
  by_cases hop : fld r 0 1 = 1
  · have hlt := hsel hop i (List.mem_range.mp hi)
    simp only [decide_eq_false (Nat.not_le.mpr hlt), Bool.and_false]
  · simp [hop]

theorem firstBad_of_good {l : List (Bool × Nat)} (h : ∀ x ∈ l, x.1 = false) : firstBad l = none := by
  induction l with
  | nil => rfl
  | cons y l ih =>
    obtain ⟨bad, off⟩ := y
    have hy : bad = false := h (bad, off) List.mem_cons_self
    subst hy
    exact ih fun x hx => h x (List.mem_cons_of_mem _ hx)

theorem pmonConfigRun_done (hop : fld r 0 1 ≤ 4) (hzero : fld r 1 3 = 0)
    (hsel : fld r 0 1 = 1 → ∀ i, i < 16 → fld r (4 + 4 * i) 4 < 2 ^ 13) :
    pmonConfigRun r s = .done { s with pmon := configured r s.pmon } stOk 0
      (le 4 (pmonCtrl (configured r s.pmon)) ++ le 4 (configured r s.pmon).ovf.toNat ++ ((configured r s.pmon).cnt.map (le 8)).flatten) := by
  have hgood : firstBad ([(decide (4 < fld r 0 1), 16), (fld r 1 3 != 0, 17)] ++ selectsBad r) = none := by
    refine firstBad_of_good fun x hx => ?_
    rcases List.mem_append.mp hx with hx | hx
    · rw [decide_eq_false (Nat.not_lt.mpr hop), hzero] at hx
      simp only [List.mem_cons, List.not_mem_nil, or_false] at hx
      rcases hx with rfl | rfl <;> rfl
    · exact selectsBad_none hsel x hx
  rw [pmonConfigRun, hgood]
  rfl

theorem pmonConfig_acts (h : accepts 0x0906 r (some 68) s = true) (hq : quiet s = true) (hop : fld r 0 1 ≤ 4) (hzero : fld r 1 3 = 0)
    (hsel : fld r 0 1 = 1 → ∀ i, i < 16 → fld r (4 + 4 * i) 4 < 2 ^ 13) :
    To (.pmonConfig r) s fun t =>
      Responded r s t
        ∧ t.pmon.freeze = (if fld r 0 1 = 2 then true else if fld r 0 1 = 3 then false else s.pmon.freeze)
        ∧ t.pmon.sel = (if fld r 0 1 = 1 then (List.range 16).map fun i => BitVec.ofNat 32 (fld r (4 + 4 * i) 4) else s.pmon.sel)
        ∧ (fld r 0 1 = 4 → Answered 0x0906 r stOk 0 (le 4 (b2n s.pmon.freeze) ++ le 4 0 ++ (List.replicate 16 (le 8 0)).flatten) t) := by
  have hrun := pmonConfigRun_done (s := s) hop hzero hsel
  generalize hp : configured r s.pmon = p at hrun
  have hquiet : quiet { s with pmon := p } = true := quiet_of_same hq rfl rfl rfl
  obtain ⟨ha, hr⟩ := command_answers h hrun hquiet (.pmonConfig r)
  have hcommand : command (.pmonConfig r) 0x0906 r (some 68) (pmonConfigRun r) s
      = settle s (respond 0x0906 r stOk 0 (le 4 (pmonCtrl p) ++ le 4 p.ovf.toNat ++ (p.cnt.map (le 8)).flatten) { s with pmon := p }) := by
    rw [command_accepts h, runCommand, admission_of_accepts h, hrun]
  have hkept : SameSelects p (settle s (respond 0x0906 r stOk 0 (le 4 (pmonCtrl p) ++ le 4 p.ovf.toNat ++ (p.cnt.map (le 8)).flatten)
      { s with pmon := p })).pmon :=
    (respond_selects 0x0906 r stOk 0 _ { s with pmon := p }).trans (settle_selects s ((quiet_respond ..).trans hquiet))
  rw [← hcommand] at hkept
  obtain ⟨hfreeze, hselects⟩ := hkept
  refine to_of_eq (i := .pmonConfig r) rfl ?_
  generalize command (.pmonConfig r) 0x0906 r (some 68) (pmonConfigRun r) s = t at *
  refine ⟨hr, ?_, ?_, fun h4 => ?_⟩
  · rw [hfreeze, ← hp, configured_freeze]
  · rw [hselects, ← hp, configured_sel]
  · have hcleared : p = s.pmon.clear := by
      rw [← hp, configured, h4]
      rfl
    rw [hcleared] at ha
    exact ha

theorem pmonCntRead_latches (hup : barUp s 0 = true) {n : Nat} (hn : n < 16) :
    exec (.pmonCntRead n) s = .next { s with
      pmon := { s.pmon with latch := BitVec.ofNat 32 (s.pmon.cnt.getD n 0 / 2 ^ 32), latchOf := n }
      out := s.out ++ [.reg (s.pmon.cnt.getD n 0 % 2 ^ 32)] } := by
  show execPmonCntRead n s = _
  rw [execPmonCntRead, hup, if_pos (by simp [hn])]

/-! ## EVT_READ (R415) -/

theorem recordAt_only {e : EvRec} (hbuf : s.ev.buf = [e]) : recordAt s e.evn = some e.bytes := by
  simp [recordAt, hbuf]

/-- The one record of the buffer is found and fits. -/
theorem evScan_one {e : EvRec} {sev room : Nat} (hbuf : s.ev.buf = [e]) (hnext : s.ev.nextEvn = e.evn + 1) (hroom : 1 ≤ room)
    (hsev : sev ≤ num e.bytes 2 1 % 8) (hext : bit (num e.bytes 2 1) 4 = false) (hcode : num e.bytes 0 2 ≠ 0xFFFF) :
    evScan s sev 1 e.evn room = ([(e.evn, e.bytes)], e.evn + 1) := by
  simp only [evScan, hnext, if_neg (show ¬ e.evn + 1 ≤ e.evn by omega), recordAt_only hbuf, if_neg hcode, if_neg (Nat.not_lt.mpr hsev), hext,
    Bool.false_eq_true, if_false, if_neg (Nat.not_lt.mpr hroom), if_neg (show ¬ (1 = 2) by decide), List.cons_append, List.nil_append]

theorem evtReadRun_one {e : EvRec} (hbuf : s.ev.buf = [e]) (hnext : s.ev.nextEvn = e.evn + 1) (hpos : 1 ≤ e.evn) (hlt : e.evn < 262144)
    (hfrom : fld r 0 6 = e.evn) (h6 : fld r 6 2 = 0) (hmin : 1 ≤ fld r 8 2) (hmax : fld r 8 2 ≤ 253) (h11 : fld r 11 1 ≤ 1)
    (h12 : fld r 12 4 = 0) (hclear : fld r 11 1 = 1 ∨ s.ev.clear ≤ e.evn) (hsev : fld r 10 1 ≤ num e.bytes 2 1 % 8)
    (hext : bit (num e.bytes 2 1) 4 = false) (hcode : num e.bytes 0 2 ≠ 0xFFFF) :
    evtReadRun r s = .done s stOk 0 (le 8 e.evn ++ le 8 (e.evn + 1) ++ le 2 1 ++ le 2 0 ++ zeros 4 ++ e.bytes) := by
  have hgood : firstBad [(decide (fld r 6 2 ≠ 0), 16), (decide (fld r 8 2 = 0 ∨ 253 < fld r 8 2), 24), (decide (1 < fld r 11 1), 27),
      (decide (fld r 12 4 ≠ 0), 28)] = none := by
    rw [h6, h12, decide_eq_false (p := fld r 8 2 = 0 ∨ 253 < fld r 8 2) (by omega), decide_eq_false (p := 1 < fld r 11 1) (by omega)]
    rfl
  have holdest : oldestEvn s = 0 := by
    rw [oldestEvn, hnext, Nat.sub_eq_zero_iff_le]
    exact hlt
  have hfloor : (if bit (fld r 11 1) 0 then oldestEvn s else max (oldestEvn s) s.ev.clear) ≤ e.evn := by
    rw [holdest]
    split
    · exact Nat.zero_le _
    · next hbit =>
      refine max_le (Nat.zero_le _) (hclear.resolve_left fun h1 => hbit ?_)
      rw [h1]
      rfl
  rw [evtReadRun, hgood]
  simp only [hfrom, if_neg (show ¬ e.evn = 0 by omega), max_eq_left hfloor, hnext, Nat.add_sub_cancel_left,
    evScan_one hbuf hnext hmin hsev hext hcode]
  simp [b2n, holdest]

/-! ## EVT_CLEAR (R416) -/

/-- The mark moves, and the challenge that authorised it is used up. -/
def evtCleared (r : Req) (s : State) : State :=
  { consumeChallenge s with
    nv := { s.nv with evCtl := AB.update s.nv.evCtl { AB.value s.nv.evCtl {} with clear := fld r 48 8 } }
    ev := { s.ev with clear := fld r 48 8 } }

theorem evtClearRun_judges (hunit : slice r.body 0 16 = unitIdBytes) (hlow : s.ev.clear ≤ fld r 48 8) (hhigh : fld r 48 8 ≤ s.ev.nextEvn)
    (h56 : fld r 56 8 = 0) :
    evtClearRun r s = if challengeIs s (slice r.body 16 32) && operatorSigned s (slice r.body 0 64) (slice r.body 64 3405) then
        .done (eventX 0x0901 0 (le 6 s.ev.clear ++ le 6 (fld r 48 8)) (evtCleared r s)) stOk 0 (le 8 (fld r 48 8))
      else .refuse (consumeChallenge s) stAuthFail 0 := by
  have hgood : firstBad [(decide (slice r.body 0 16 ≠ unitIdBytes), 16), (decide (fld r 48 8 < s.ev.clear ∨ s.ev.nextEvn < fld r 48 8), 64),
      (decide (fld r 56 8 ≠ 0), 72)] = none := by
    rw [h56, hunit, decide_eq_false (p := fld r 48 8 < s.ev.clear ∨ s.ev.nextEvn < fld r 48 8) (by omega)]
    simp [firstBad]
  rw [evtClearRun, hgood]
  rfl

theorem evtClear_acts (h : accepts 0x0902 r (some 3469) s = true) (hq : quiet s = true) (hunit : slice r.body 0 16 = unitIdBytes)
    (hlow : s.ev.clear ≤ fld r 48 8) (hhigh : fld r 48 8 ≤ s.ev.nextEvn) (h56 : fld r 56 8 = 0) :
    To (.evtClear r) s fun t =>
      t.keys = { s.keys with challenge := none }
        ∧ (if challengeIs s (slice r.body 16 32) && operatorSigned s (slice r.body 0 64) (slice r.body 64 3405) then
            Answered 0x0902 r stOk 0 (le 8 (fld r 48 8)) t ∧ t.ev.clear = fld r 48 8
              ∧ Responded r { s with keys := t.keys, ev := t.ev, nv := { s.nv with evCtl := t.nv.evCtl } } t
              ∧ (AB.value t.nv.evCtl {}).clear = fld r 48 8
          else Answered 0x0902 r stAuthFail 0 [] t ∧ Responded r { s with keys := t.keys } t) := by
  have hrun := evtClearRun_judges hunit hlow hhigh h56
  by_cases hauth : (challengeIs s (slice r.body 16 32) && operatorSigned s (slice r.body 0 64) (slice r.body 64 3405)) = true
  · rw [if_pos hauth] at hrun
    simp only [if_pos hauth]
    have hquiet : quiet (eventX 0x0901 0 (le 6 s.ev.clear ++ le 6 (fld r 48 8)) (evtCleared r s)) = true :=
      (quiet_eventX ..).trans ((quiet_congr (s := s) rfl rfl rfl).trans hq)
    have hclear := (Frames.eventX_unlatched (code := 0x0901) (arg := 0) rfl (le 6 s.ev.clear ++ le 6 (fld r 48 8)) (evtCleared r s)).2
    refine to_of_done (i := .evtClear r) rfl h hrun hquiet fun t ha hr => ?_
    have hev := ev_of_responded hr
    have hr := responded_of_event hr rfl
    have hkeys : t.keys = { s.keys with challenge := none } := keys_of_responded hr
    have hnv : t.nv = { s.nv with evCtl := AB.update s.nv.evCtl { AB.value s.nv.evCtl {} with clear := fld r 48 8 } } := nv_of_responded hr
    refine ⟨hkeys, ha, by rw [hev, hclear]; rfl, ?_, by rw [hnv, AB.value_update]⟩
    rw [hkeys, hev, hnv]
    exact hr
  · rw [if_neg hauth] at hrun
    simp only [if_neg hauth]
    refine to_of_done (i := .evtClear r) (u := consumeChallenge s) rfl h hrun (quiet_of_same hq rfl rfl rfl) fun t ha hr => ?_
    have hkeys : t.keys = { s.keys with challenge := none } := keys_of_responded hr
    refine ⟨hkeys, ha, ?_⟩
    rw [hkeys]
    exact hr

/-! ## EVT_SUPPRESSED (R413) -/

/-- A record that is never rate-limited, and its extension, enter the buffer. -/
theorem eventX_recorded {code arg : Nat} {ext : Bytes} (hserved : served s = true) (hexempt : evExempt code (evSev code arg) = true) (hext : ext ≠ [])
    (hroom : s.ev.buf.length + 2 ≤ 4096) :
    (eventX code arg ext s).ev.nextEvn = s.ev.nextEvn + 2 ∧ (eventX code arg ext s).ev.supp = s.ev.supp := by
  have hrecords : (evRecords (mkEvt s code arg ext)).length = 2 := by
    simp [evRecords, evExt, mkEvt, hext]
  have hpush : Events.record s.diag.rate s.opsec (mkEvt s code arg ext) s.ev = Events.push s.opsec (mkEvt s code arg ext) s.ev := by
    rw [Events.record, mkEvt, if_pos hexempt]
  have hkept : (Events.push s.opsec (mkEvt s code arg ext) s.ev).nextEvn = s.ev.nextEvn + 2
      ∧ (Events.push s.opsec (mkEvt s code arg ext) s.ev).supp = s.ev.supp := by
    unfold Events.push
    simp only [hrecords, if_neg (show ¬ 4096 < s.ev.buf.length + 2 by omega)]
    exact ⟨trivial, trivial⟩
  unfold eventX
  split
  case h_6 =>
    simp only [hpush]
    exact hkept
  all_goals
    next hphase => simp [served, hphase] at hserved

theorem evtSuppressed_sums {code : Nat} (hq : quiet s = true) (hserved : served s = true) (hsupp : tgetD s.ev.supp code 0 ≠ 0)
    (hminute : tgetD s.ev.suppAt code 0 / 60 < s.opsec / 60) (hroom : s.ev.buf.length + 2 ≤ 4096) :
    To (.evtSuppressed code) s fun t =>
      tgetD t.ev.supp code 0 = 0 ∧ t.ev.nextEvn = s.ev.nextEvn + 2 ∧ (∀ c, c ≠ code → tgetD t.ev.supp c 0 = tgetD s.ev.supp c 0)
        ∧ Notified { s with ev := t.ev } t := by
  have hpowered : powered s = true := by
    unfold served at hserved
    unfold powered
    split at hserved <;> simp_all
  have hexec : exec (.evtSuppressed code) s = .next (settle s (suppressedSummary code s)) := by
    show execEvtSuppressed code s = _
    rw [execEvtSuppressed, if_pos (by simp [hpowered, hsupp, hminute])]
  obtain ⟨hnext, hkept⟩ := eventX_recorded (code := 0x0902) (arg := code) (ext := le 4 (min (tgetD s.ev.supp code 0) (2 ^ 32 - 1)))
    (s := { s with ev := { s.ev with supp := tdel s.ev.supp code, suppAt := tdel s.ev.suppAt code } }) hserved rfl (by simp [le]) hroom
  have hquiet : quiet (suppressedSummary code s) = true := (quiet_eventX ..).trans (quiet_of_same hq rfl rfl rfl)
  refine to_of_settle hexec hquiet fun t ht => ?_
  have hev : t.ev = (suppressedSummary code s).ev := ev_of_notified ht
  have htold : Notified { s with ev := (suppressedSummary code s).ev } t :=
    notified_trans (eventX_notified 0x0902 code (le 4 (min (tgetD s.ev.supp code 0) (2 ^ 32 - 1)))
      { s with ev := { s.ev with supp := tdel s.ev.supp code, suppAt := tdel s.ev.suppAt code } }) ht
  rw [hev]
  refine ⟨?_, hnext, fun c hc => ?_, htold⟩
  · rw [show (suppressedSummary code s).ev.supp = tdel s.ev.supp code from hkept, tgetD_tdel_self]
  · rw [show (suppressedSummary code s).ev.supp = tdel s.ev.supp code from hkept, tgetD_tdel_ne _ _ hc]

/-! ## DIAG_SCHEDULE (R419) -/

/-- The schedules that a request leaves in force. -/
def scheduled (r : Req) (d : Diag) : Diag where
  lanePer := keepZero (fld r 0 4) d.lanePer
  calPer := keepZero (fld r 4 4) d.calPer
  scrubPer := keepZero (fld r 8 4) d.scrubPer
  rate := keepZero (fld r 12 1) d.rate

theorem outside_none {v lo hi : Nat} (h : v = 0 ∨ lo ≤ v ∧ v ≤ hi) : outside v lo hi = false := by
  unfold outside
  simp only [Bool.and_eq_false_iff, Bool.or_eq_false_iff, decide_eq_false_iff_not]
  omega

theorem diagScheduleRun_done (h0 : fld r 0 4 = 0 ∨ 60 ≤ fld r 0 4 ∧ fld r 0 4 ≤ 86400)
    (h4 : fld r 4 4 = 0 ∨ 600 ≤ fld r 4 4 ∧ fld r 4 4 ≤ 86400) (h8 : fld r 8 4 = 0 ∨ 3600 ≤ fld r 8 4 ∧ fld r 8 4 ≤ 86400)
    (h13 : fld r 13 3 = 0) :
    diagScheduleRun r s = .done { s with diag := scheduled r s.diag, nv := { s.nv with diag := AB.update s.nv.diag (scheduled r s.diag) } }
      stOk 0 (diagBytes (scheduled r s.diag)) := by
  have hgood : firstBad [(outside (fld r 0 4) 60 86400, 16), (outside (fld r 4 4) 600 86400, 20), (outside (fld r 8 4) 3600 86400, 24),
      (decide (fld r 13 3 ≠ 0), 29)] = none := by
    rw [outside_none h0, outside_none h4, outside_none h8, h13]
    rfl
  rw [diagScheduleRun, hgood]
  rfl

end

/-! ## DRAM (R326 to R328) -/

section
variable {s : State} {line : Nat} {reader : LineReader}

theorem lineEffect_keeps (line : Nat) (reader : LineReader) (s : State) :
    (lineEffect line reader s).dram = s.dram ∧ (lineEffect line reader s).health = s.health := by
  unfold lineEffect
  cases reader with
  | staging q => exact ⟨rfl, rfl⟩
  | queueContext q =>
    simp only [stopQueue]
    split <;> exact ⟨rfl, rfl⟩
  | savedState q => exact ⟨rfl, rfl⟩
  | sessionRecord i => exact ⟨rfl, rfl⟩
  | detail q =>
    exact ⟨eventX_dram .., eventX_health ..⟩
  | drawWork id => exact ⟨rfl, rfl⟩
  | firmware =>
    show (unitFails 0x03 0 s).dram = s.dram ∧ (unitFails 0x03 0 s).health = s.health
    rw [unitFails_only]
    exact ⟨rfl, rfl⟩

/-- A line's tamper input that stands alone is recorded, and no more (R376). -/
theorem dramInput_keeps (hwindow : s.tamper.window = []) :
    (raiseInput id .dramLine (.powerDomain 40) s).dram = s.dram ∧ (raiseInput id .dramLine (.powerDomain 40) s).health = s.health := by
  have hlone : ∀ fresh, correlated { sensor := .dramLine, reading := .attack, unit := .powerDomain 40, quiet := false } true
      (windowWith { sensor := .dramLine, reading := .attack, unit := .powerDomain 40, quiet := false } true fresh s) s = false := fun fresh => by
    have hlen : (windowWith { sensor := .dramLine, reading := .attack, unit := .powerDomain 40, quiet := false } true fresh s).length < 2 := by
      simp only [windowWith, hwindow]
      split <;> split <;> simp
    simp [correlated, lastArray, hlen]
  unfold raiseInput senseInput
  simp only [judgeInput, hlone, Bool.false_eq_true, if_false, respondTo]
  split
  · rw [event_dram, event_health]
    exact ⟨rfl, rfl⟩
  · rw [event_dram, event_health]
    exact ⟨rfl, rfl⟩

/-- The line is counted and reads uncorrectable. -/
def noteLine (line : Nat) (s : State) : State :=
  { s with
    health := { s.health with dramBad := min 65535 (s.health.dramBad + 1), badTimes := badLines s }
    dram := tset s.dram line { tgetD s.dram line {} with bad := true } }

/-- What the loss of a line does, but for the failure of the DRAM path. -/
def lineLost (line : Nat) (reader : LineReader) (s : State) : State :=
  lineEffect line reader (raiseInput id .dramLine (.powerDomain 40) (eventX 0x0A03 0 (le 8 (lineAddr line)) (noteLine line s)))

theorem dramUncorrectable_runs (hserved : served s = true) :
    exec (.dramUncorrectable line reader) s
      = .next (settle s (if 16 < (badLines s).length then unitFails 0x03 0 (lineLost line reader s) else lineLost line reader s)) :=
  if_pos hserved

theorem lineLost_keeps (hwindow : s.tamper.window = []) :
    (lineLost line reader s).dram = (noteLine line s).dram ∧ (lineLost line reader s).health = (noteLine line s).health := by
  obtain ⟨hdram, hhealth⟩ := lineEffect_keeps line reader (raiseInput id .dramLine (.powerDomain 40) (eventX 0x0A03 0 (le 8 (lineAddr line)) (noteLine line s)))
  obtain ⟨hdram', hhealth'⟩ := dramInput_keeps (s := eventX 0x0A03 0 (le 8 (lineAddr line)) (noteLine line s)) (by rw [eventX_tamper]; exact hwindow)
  rw [eventX_dram] at hdram'
  rw [eventX_health] at hhealth'
  exact ⟨hdram.trans hdram', hhealth.trans hhealth'⟩

/-- A unit that fails is noted, and fetching stops (R33). -/
theorem unitFails_pwr (unit index : Nat) (s : State) :
    (unitFails unit index s).pwr.fetchOff = true ∧ (unit, index) ∈ (unitFails unit index s).pwr.unitsFailed := by
  have hpwr : (unitFails unit index s).pwr = { s.pwr with
      unitsFailed := if s.pwr.unitsFailed.contains (unit, index) then s.pwr.unitsFailed else s.pwr.unitsFailed ++ [(unit, index)]
      fetchOff := true } := by
    unfold unitFails
    rw [aer_only, event_only]
  rw [hpwr]
  refine ⟨rfl, ?_⟩
  simp only []
  split
  · next hin => exact List.contains_iff_mem.mp hin
  · exact List.mem_append_right _ (List.mem_singleton.mpr rfl)

theorem dramPath_fails (hserved : served s = true) (hmany : 16 ≤ (s.health.badTimes.filter fun t => s.opsec < t + 3600).length) :
    To (.dramUncorrectable line reader) s fun t => t.pwr.fetchOff = true ∧ (0x03, 0) ∈ t.pwr.unitsFailed := by
  have hlate : 16 < (badLines s).length := by
    rw [badLines, List.length_append]
    exact Nat.lt_succ_of_le hmany
  have hexec := dramUncorrectable_runs (line := line) (reader := reader) hserved
  rw [if_pos hlate] at hexec
  refine to_of_eq hexec ?_
  rw [settle_pwr]
  exact unitFails_pwr ..

theorem dramLine_noted (hserved : served s = true) (hwindow : s.tamper.window = []) :
    To (.dramUncorrectable line reader) s fun t =>
      t.health.dramBad = min 65535 (s.health.dramBad + 1) ∧ s.opsec ∈ t.health.badTimes ∧ (tgetD t.dram line {}).bad = true
        ∧ ∀ l, l ≠ line → tget t.dram l = tget s.dram l := by
  obtain ⟨hdram, hhealth⟩ := lineLost_keeps (line := line) (reader := reader) hwindow
  refine to_of_eq (dramUncorrectable_runs hserved) ?_
  have hkept : (if 16 < (badLines s).length then unitFails 0x03 0 (lineLost line reader s) else lineLost line reader s).dram = (noteLine line s).dram
      ∧ (if 16 < (badLines s).length then unitFails 0x03 0 (lineLost line reader s) else lineLost line reader s).health
        = (noteLine line s).health := by
    split
    · rw [unitFails_only]
      exact ⟨hdram, hhealth⟩
    · exact ⟨hdram, hhealth⟩
  rw [settle_dram, settle_health, hkept.1, hkept.2]
  refine ⟨rfl, List.mem_append_right _ (List.mem_singleton.mpr rfl), ?_, fun l hl => tget_tset_ne _ _ hl⟩
  show (tgetD (tset s.dram line _) line {}).bad = true
  rw [tgetD_tset_self]

/-- A pass that finds no stray colour. -/
def scrubbed (n : Nat) (s : State) : State :=
  { s with
    pmon := ((s.pmon.count 0x40 0 dramLines).count 0x41 0 n).count 0x42 0 n
    sched := { s.sched with scrubAt := s.opsec }
    health := { s.health with dramCorr := min (2 ^ 32 - 1) (s.health.dramCorr + n) } }

theorem scrub_counts {n : Nat} (hserved : served s = true) (hstandby : s.pwr.standby = false) (hq : quiet s = true)
    (hdue : s.sched.scrubAt + s.diag.scrubPer ≤ s.opsec) (hcolour : ∀ l ∈ s.dram, colour0Region l.1 = true → l.2.colour = 0) :
    To (.scrubPeriod n) s fun t =>
      t = { s with
        pmon := t.pmon, sched := { s.sched with scrubAt := s.opsec }
        health := { s.health with dramCorr := min (2 ^ 32 - 1) (s.health.dramCorr + n) } } := by
  have hstray : (s.dram.filter fun l => colour0Region l.1 && l.2.colour != 0) = [] := by
    rw [List.filter_eq_nil_iff]
    intro l hl hbad
    rw [Bool.and_eq_true, bne_iff_ne] at hbad
    exact hbad.2 (hcolour l hl hbad.1)
  have hexec : exec (.scrubPeriod n) s = .next (settle s (scrubbed n s)) := by
    show execScrubPeriod n s = _
    rw [execScrubPeriod, hserved, hstandby, if_pos (by simpa using hdue), hstray]
    rfl
  have hplain : settle s (scrubbed n s) = scrubbed n s := settle_plain (quiet_of_same hq rfl rfl rfl) rfl rfl rfl rfl rfl fun _ => rfl
  rw [hplain] at hexec
  refine to_of_eq hexec ?_
  unfold scrubbed
  rfl

theorem scrub_waits {n : Nat} (h : s.pwr.standby = true ∨ s.opsec < s.sched.scrubAt + s.diag.scrubPer) : exec (.scrubPeriod n) s = .next s := by
  show execScrubPeriod n s = _
  rw [execScrubPeriod, if_neg]
  simp only [Bool.and_eq_true, Bool.not_eq_true', decide_eq_true_eq]
  rintro ⟨⟨-, hawake⟩, hdue⟩
  rcases h with h | h
  · rw [h] at hawake
    exact absurd hawake (by decide)
  · omega

end

/-- Settles O48. -/
theorem eventsAndMonitorsAnswer : Obligations.EventsAndMonitorsAnswer := by
  refine ⟨fun r s hq => ⟨?_, evtClear_acts (hq := hq), fun code hserved hsupp hminute hroom => evtSuppressed_sums hq hserved hsupp hminute hroom,
    fun h h0 h4 h8 h13 => ?_, fun h => does_of_done rfl h rfl hq, fun h hop hzero hsel => pmonConfig_acts h hq hop hzero hsel,
    fun hup => ⟨fun v => if_pos hup, if_pos hup, fun n hn => pmonCntRead_latches hup hn⟩⟩,
    fun line reader s hserved => ⟨dramPath_fails hserved, dramLine_noted hserved, fun n hstandby hq hdue hcolour => scrub_counts hserved hstandby hq hdue hcolour,
      fun n h => scrub_waits h⟩⟩
  · rintro e _ h hbuf rfl hnext hpos hlt hfrom h6 hmin hmax h11 h12 hclear hsev hext hcode
    exact does_of_done rfl h (evtReadRun_one hbuf hnext hpos hlt hfrom h6 hmin hmax h11 h12 hclear hsev hext hcode) hq
  · have hquiet : ∀ d : Diag, quiet { s with diag := d, nv := { s.nv with diag := AB.update s.nv.diag d } } = true := fun d =>
      (quiet_congr (s := s) rfl rfl rfl).trans hq
    exact does_of_done rfl h (diagScheduleRun_done h0 h4 h8 h13) (hquiet _)

end Sys2Proof.Monitors
end

section
/-! # The draw table, and how a draw is defined and closed (O51) -/
namespace Sys2Proof.DrawTable
open Sys2Proof Sys2Proof.Machine Sys2Proof.Told Sys2Proof.Replies Sys2Proof.Entries Sys2Proof.Packages
open Sys2Proof.Registers (settle_plain)
open Sys2Proof.Monitors (firstBad_of_good)

/-! ## What the ring takes rests on (R251, R262) -/

/-- The states agree in all that decides whether the ring takes an entry. -/
structure RingSame (s t : State) : Prop where
  phase : t.pwr.phase = s.pwr.phase
  units : t.pwr.unitsFailed = s.pwr.unitsFailed
  jrn : t.jrn = s.jrn
  last : t.nv.lastPseq = s.nv.lastPseq
  oldest : t.nv.oldestPseq = s.nv.oldestPseq
  dgu0 : t.dgu0 = s.dgu0
  dgu1 : t.dgu1 = s.dgu1

section
variable {s t : State} (h : RingSame s t)
include h

theorem RingSame.makeRoom (n : Nat) : RingSame (makeRoom n s) (makeRoom n t) := by
  obtain ⟨hphase, hunits, hjrn, hlast, hold, hd0, hd1⟩ := h
  unfold Machine.makeRoom
  rw [hjrn]
  split
  · exact ⟨hphase, hunits, hjrn, hlast, hold, hd0, hd1⟩
  · have hworks : ringWorks t = ringWorks s := by rw [ringWorks, hunits, ringWorks]
    have hfree : freePages t = freePages s := by rw [freePages, ringUsed, hlast, hold, freePages, ringUsed]
    unfold sealPages
    simp only [hworks, hfree, hjrn, hlast]
    exact ⟨hphase, hunits, rfl, rfl, hold, hd0, hd1⟩

theorem RingSame.entriesStop : entriesStop t = entriesStop s := by
  have hroom := (h.makeRoom 2040).jrn
  simp only [Machine.entriesStop, seqExhausted, chainOn, ringWorks, roomForEntry, hroom, h.phase, h.units, h.jrn, h.dgu0, h.dgu1]

theorem RingSame.ringTakes : ringTakes t = ringTakes s := by
  have hroom := h.makeRoom 2040
  rw [Machine.ringTakes, Machine.ringTakes, h.entriesStop, freePages, ringUsed, hroom.last, hroom.oldest, freePages, ringUsed]

end

/-! ## The table (R225, R226) -/

section
variable {s t : State} {n : Nat} {d : Draw}

theorem drawOf_congr (h : t.nv.draws = s.nv.draws) (n : Nat) : drawOf t n = drawOf s n := by rw [drawOf, h, drawOf]

theorem id_of_drawOf (h : drawOf s n = some d) : d.id.toNat = n := by simpa using List.find?_some h

theorem drawOf_modDraw_self {f : Draw → Draw} (h : drawOf s n = some d) (hf : (f d).id = d.id) :
    drawOf (modDraw n f s) n = some (f d) := by
  have hid := id_of_drawOf h
  unfold drawOf modDraw at *
  simp only []
  generalize s.nv.draws = l at h
  induction l with
  | nil => exact absurd h (Option.some_ne_none d).symm
  | cons x l ih =>
    by_cases hx : x.id.toNat = n
    · have hxd : x = d := by simpa [List.find?_cons, hx] using h
      subst hxd
      rw [List.map_cons, if_pos hx, List.find?_cons, hf, beq_iff_eq.mpr hid]
    · rw [List.find?_cons, beq_false_of_ne hx] at h
      rw [List.map_cons, if_neg hx, List.find?_cons, beq_false_of_ne hx]
      exact ih h

theorem drawOf_modDraw_ne {f : Draw → Draw} {m : Nat} (hm : m ≠ n) (hf : ∀ d, d.id.toNat = n → (f d).id.toNat = n) :
    drawOf (modDraw n f s) m = drawOf s m := by
  unfold drawOf modDraw
  simp only []
  induction s.nv.draws with
  | nil => rfl
  | cons x l ih =>
    by_cases hx : x.id.toNat = n
    · rw [List.map_cons, if_pos hx, List.find?_cons, hf x hx, beq_false_of_ne hm.symm, List.find?_cons, hx, beq_false_of_ne hm.symm]
      exact ih
    · rw [List.map_cons, if_neg hx, List.find?_cons, List.find?_cons, ih]

theorem drawOf_journalEntry (type : Nat) (claimed : Bool) (body : Bytes) (s : State) (n : Nat) :
    drawOf (journalEntry type claimed body s) n = drawOf s n :=
  drawOf_congr (by rw [journalEntry_nv]) n

theorem dropDraw_absent (h : drawOf s n = none) : s.nv.draws.filter (fun d => d.id.toNat ≠ n) = s.nv.draws := by
  refine List.filter_eq_self.mpr fun d hd => ?_
  have hne := List.find?_eq_none.mp h d hd
  simpa using hne

/-- A draw that is not in the table yet is added at its end. -/
theorem putDraw_new (h : drawOf s n = none) (hid : d.id.toNat = n) :
    putDraw d s = { s with nv := { s.nv with draws := s.nv.draws ++ [d] } } := by
  simp only [putDraw, dropDraw, hid, dropDraw_absent h]

theorem drawOf_added_self (h : drawOf s n = none) (hid : d.id.toNat = n) :
    drawOf { s with nv := { s.nv with draws := s.nv.draws ++ [d] } } n = some d := by
  have hnone : s.nv.draws.find? (fun d => d.id.toNat == n) = none := h
  simp [drawOf, List.find?_append, hnone, hid]

theorem drawOf_added_ne {m : Nat} (hid : d.id.toNat = n) (hm : m ≠ n) :
    drawOf { s with nv := { s.nv with draws := s.nv.draws ++ [d] } } m = drawOf s m := by
  simp [drawOf, List.find?_append, hid, Ne.symm hm]

theorem draws_ringSame (s : State) (l : List Draw) : RingSame s { s with nv := { s.nv with draws := l } } :=
  ⟨rfl, rfl, rfl, rfl, rfl, rfl, rfl⟩

theorem leVal_lt (b : Bytes) : leVal b < 256 ^ b.length := by
  have hbytes := leVal_le b.length (leVal b)
  rw [Frames.le_leVal] at hbytes
  rw [hbytes]
  exact Nat.mod_lt _ (Nat.pow_pos (by decide))

theorem num_lt (b : Bytes) (off len : Nat) : num b off len < 256 ^ len :=
  Nat.lt_of_lt_of_le (leVal_lt _) (Nat.pow_le_pow_right (by decide) (List.length_take_le ..))

/-- A DRAW_ID of a request, as the table holds it. -/
theorem toNat_drawId (r : Req) (off : Nat) : (BitVec.ofNat 32 (fld r off 4)).toNat = fld r off 4 := by
  rw [BitVec.toNat_ofNat]
  exact Nat.mod_eq_of_lt (num_lt ..)

end

/-! ## DRAW_SCHEDULE (R226, R227) -/

section
variable {s : State} {r : Req} {id : Nat}

/-- The draw that a request's first chunk begins. -/
def begun (r : Req) (s : State) : Draw where
  id := BitVec.ofNat 32 (fld r 0 4)
  sigkey := BitVec.ofNat 32 (fld r 24 4)
  jkey := BitVec.ofNat 32 (fld r 28 4)
  params := r.body.drop 32
  opsec := s.opsec

/-- A first chunk that comes in the request itself. -/
structure FirstChunk (r : Req) (s : State) : Prop where
  new : drawOf s (fld r 0 4) = none
  named : fld r 0 4 ≠ 0xFFFFFFFF
  flags : fld r 4 4 = 0 ∨ fld r 4 4 = 2
  off : fld r 8 4 = 0
  some : 1 ≤ fld r 12 4
  most : fld r 12 4 ≤ 4048
  zero : fld r 16 8 = 0
  length : r.body.length = 32 + fld r 12 4
  room : s.nv.draws.length < 512
  bytes : paramBytes s (fld r 0 4) + fld r 12 4 ≤ 1048576

theorem scheduleDraw_new (h : FirstChunk r s) :
    scheduleDraw s r = .ok { id := BitVec.ofNat 32 (fld r 0 4), sigkey := BitVec.ofNat 32 (fld r 24 4), jkey := BitVec.ofNat 32 (fld r 28 4) } := by
  unfold scheduleDraw
  simp only [h.new, h.off, ne_eq, not_true, if_false, if_neg (Nat.not_le.mpr h.room)]

theorem scheduleBad_none (h : FirstChunk r s) : scheduleBad r = none := by
  have hdma : bit (fld r 4 4) 0 = false := by rcases h.flags with hf | hf <;> rw [hf] <;> rfl
  have hflags : ¬ 4 ≤ fld r 4 4 := by rcases h.flags with hf | hf <;> omega
  have hmost := h.most
  have hsome := h.some
  refine firstBad_of_good fun x hx => ?_
  simp only [hdma, List.mem_cons, List.not_mem_nil, or_false] at hx
  rcases hx with rfl | rfl | rfl | rfl
  · exact beq_false_of_ne h.named
  · exact decide_eq_false hflags
  · simp only [Bool.false_eq_true, if_false, Bool.or_eq_false_iff, beq_eq_false_iff_ne, decide_eq_false_iff_not]
    omega
  · simp [h.zero]

theorem drawScheduleRun_first (h : FirstChunk r s) :
    drawScheduleRun r s = if bit (fld r 4 4) 1 then scheduleFinal (begun r s) s else .done (putDraw (begun r s) s) stOk 0 [] := by
  have hdma : bit (fld r 4 4) 0 = false := by rcases h.flags with hf | hf <;> rw [hf] <;> rfl
  have hlong : ¬ r.body.length < 32 := by
    rw [h.length]
    omega
  unfold drawScheduleRun
  simp only [hdma, if_neg hlong, scheduleBad_none h, scheduleDraw_new h, Bool.false_and, Bool.false_eq_true, if_false, if_neg (not_not.mpr h.length),
    List.length_nil, Nat.add_zero, if_neg (Nat.not_lt.mpr h.bytes), List.nil_append]
  rfl

theorem drawSchedule_begins (hacc : accepts 0x0401 r none s = true) (hq : quiet s = true) (h : FirstChunk r s) (hmore : fld r 4 4 = 0) :
    Does (.drawSchedule r) 0x0401 r s [] { s with nv := { s.nv with draws := s.nv.draws ++ [begun r s] } } := by
  have hrun := drawScheduleRun_first h
  rw [hmore, putDraw_new h.new (toNat_drawId r 0)] at hrun
  exact does_of_done rfl hacc hrun ((quiet_congr (s := s) rfl rfl rfl).trans hq)

/-- The draw of a definition that is complete. -/
def opened (d : Draw) (seq : Nat) : Draw := { d with st := if pInstant d.params then .ready else .opened, lastSeq := seq }

/-- The body of its SCHEDULE entry. -/
def scheduleBody (d : Draw) : Bytes := le 4 d.id.toNat ++ le 1 (num d.params 5 1) ++ zeros 3 ++ h384 (sha384 d.params)

theorem length_scheduleBody (d : Draw) : (scheduleBody d).length ≤ 2024 := by simp [scheduleBody]

theorem scheduleFinal_opens {d : Draw} (hgood : finalBad s d = none) (hentry : entryRefusal false s = none) (hring : ringTakes s = true)
    (hnew : drawOf s d.id.toNat = none) :
    scheduleFinal d s = .done (journalEntry 0x10 false (scheduleBody d)
        { s with nv := { s.nv with draws := s.nv.draws ++ [opened d s.jrn.nextSeq] } }) stOk 0
      (h384 (sha384 d.params) ++ le 6 s.jrn.nextSeq ++ zeros 2) := by
  unfold scheduleFinal
  simp only [hgood, hentry, entrySeq_of_ringTakes hring]
  rw [← putDraw_new (d := opened d s.jrn.nextSeq) hnew rfl]
  rfl

theorem drawSchedule_opens (hacc : accepts 0x0401 r none s = true) (h : FirstChunk r s) (hlast : fld r 4 4 = 2)
    (hgood : finalBad s (begun r s) = none) (hentry : entryRefusal false s = none) (hring : ringTakes s = true) :
    To (.drawSchedule r) s fun t =>
      drawOf t (fld r 0 4) = some (opened (begun r s) s.jrn.nextSeq) ∧ (∀ n, n ≠ fld r 0 4 → drawOf t n = drawOf s n)
        ∧ Journalled 0x10 (scheduleBody (begun r s)) s t
        ∧ Answered 0x0401 r stOk 0 (h384 (sha384 (begun r s).params) ++ le 6 s.jrn.nextSeq ++ zeros 2) t := by
  have hid : (begun r s).id.toNat = fld r 0 4 := toNat_drawId r 0
  have hrun := drawScheduleRun_first h
  rw [hlast, if_pos (by rfl), scheduleFinal_opens hgood hentry hring (by rw [hid]; exact h.new)] at hrun
  generalize hu : ({ s with nv := { s.nv with draws := s.nv.draws ++ [opened (begun r s) s.jrn.nextSeq] } } : State) = u at hrun
  have hsame : RingSame s u := by
    rw [← hu]
    exact draws_ringSame s _
  have hself : drawOf u (fld r 0 4) = some (opened (begun r s) s.jrn.nextSeq) := by
    rw [← hu]
    exact drawOf_added_self h.new hid
  have hothers : ∀ n, n ≠ fld r 0 4 → drawOf u n = drawOf s n := fun n hn => by
    rw [← hu]
    exact drawOf_added_ne hid hn
  have hj := journalEntry_journalled 0x10 false (scheduleBody (begun r s)) u (by decide) (length_scheduleBody _)
    (by rw [hsame.ringTakes, hring])
  refine to_of_answer rfl hacc hrun fun t ht ha => ?_
  have hnv : t.nv = (journalEntry 0x10 false (scheduleBody (begun r s)) u).nv := by rw [ht, settle_nv, respond_nv]
  have hdraws : ∀ n, drawOf t n = drawOf u n := fun n =>
    (drawOf_congr (congrArg Nv.draws hnv) n).trans (drawOf_journalEntry ..)
  refine ⟨(hdraws _).trans hself, fun n hn => (hdraws n).trans (hothers n hn),
    journalled_congr (s := u) (by rw [hsame.jrn]) (by rw [ht, settle_nextSeq, respond_jrn]) (congrArg Nv.ring hnv) hj, ha⟩

/-! ## DRAW_DEFINE_TIMEOUT (R226) -/

theorem drawDefineTimeout_removes {n : BitVec 32} {d : Draw} (hq : quiet s = true) (hd : drawOf s n.toNat = some d) (hst : d.st = .defining)
    (hlate : d.opsec + 60 ≤ s.opsec) :
    To (.drawDefineTimeout n) s fun t =>
      t = { s with nv := { s.nv with draws := s.nv.draws.filter fun x => x.id ≠ n } } ∧ drawOf t n.toNat = none := by
  have hfilter : (s.nv.draws.filter fun x => x.id.toNat ≠ n.toNat) = s.nv.draws.filter fun x => x.id ≠ n := by
    refine List.filter_congr fun x _ => ?_
    rw [decide_eq_decide, ne_eq, ne_eq, BitVec.toNat_inj]
  have hdropped : dropDraw n.toNat s = { s with nv := { s.nv with draws := s.nv.draws.filter fun x => x.id ≠ n } } := by
    rw [dropDraw, hfilter]
  have hexec : exec (.drawDefineTimeout n) s = .next (settle s (dropDraw n.toNat s)) := by
    show execDrawDefineTimeout n s = _
    simp only [execDrawDefineTimeout, hd, hst, hlate, and_self, if_true]
  have hplain : settle s (dropDraw n.toNat s) = dropDraw n.toNat s :=
    settle_plain ((quiet_congr (s := s) rfl rfl rfl).trans hq) rfl rfl rfl rfl rfl fun _ => rfl
  rw [hplain] at hexec
  refine to_of_eq hexec ⟨hdropped, ?_⟩
  refine List.find?_eq_none.mpr fun x hx => ?_
  simpa using (List.mem_filter.mp hx).2

/-! ## DRAW_CLOSE (R228, R229) -/

/-- The draw once its close has begun. -/
def closing (d : Draw) (cancel : Bool) (s : State) : Draw :=
  { d with st := .closing, closing := cancel, closeFrom := d.st, closeEpoch := s.epoch + 1 }

/-- The draw once its close has ended. -/
def closed (d : Draw) (seq : Nat) : Draw :=
  { d with
    st := if d.closing then .cancelled else .closed, closeSeq := if d.closing then d.closeSeq else seq, lastSeq := seq, closing := false }

theorem length_closeBody (d : Draw) : (closeBody d).length ≤ 2024 := by simp [closeBody]

/-- The end of a close: the entry, the draw's new state, and nothing else. -/
structure CloseEnds (d : Draw) (s t : State) : Prop where
  self : drawOf t d.id.toNat = some (closed d s.jrn.nextSeq)
  others : ∀ n, n ≠ d.id.toNat → drawOf t n = drawOf s n
  epoch : t.epoch = s.epoch
  entry : Journalled (if d.closing then 0x12 else 0x11) (closeBody d) s t

theorem finishClose_ends {d : Draw} (hd : drawOf s d.id.toNat = some d) (hring : ringTakes s = true) : CloseEnds d s (finishClose d s) := by
  have hseq := entrySeq_of_ringTakes hring
  have htype : (if d.closing then 0x12 else 0x11) < 256 := by split <;> decide
  have hends : finishClose d s = journalEntry (if d.closing then 0x12 else 0x11) false (closeBody d)
      (modDraw d.id.toNat (fun d => closed d s.jrn.nextSeq) s) := by
    unfold finishClose
    rw [hseq]
    rfl
  rw [hends]
  generalize hu : modDraw d.id.toNat (fun d => closed d s.jrn.nextSeq) s = u
  have hsame : RingSame s u := by
    rw [← hu]
    exact draws_ringSame s _
  have hself : drawOf u d.id.toNat = some (closed d s.jrn.nextSeq) := by
    rw [← hu]
    exact drawOf_modDraw_self hd rfl
  have hothers : ∀ n, n ≠ d.id.toNat → drawOf u n = drawOf s n := fun n hn => by
    rw [← hu]
    exact drawOf_modDraw_ne hn fun _ hid => hid
  have hepoch : u.epoch = s.epoch := by rw [← hu]; rfl
  have hj := journalEntry_journalled (if d.closing then 0x12 else 0x11) false (closeBody d) u htype (length_closeBody d)
    (by rw [hsame.ringTakes, hring])
  exact ⟨(drawOf_journalEntry ..).trans hself, fun n hn => (drawOf_journalEntry ..).trans (hothers n hn), (journalEntry_epoch ..).trans hepoch,
    journalled_congr (s := u) (by rw [hsame.jrn]) rfl rfl hj⟩

theorem CloseEnds.congr {d : Draw} {t t' : State} (h : CloseEnds d s t) (hnv : t'.nv = t.nv) (hseq : t'.jrn.nextSeq = t.jrn.nextSeq)
    (hepoch : t'.epoch = t.epoch) : CloseEnds d s t' :=
  ⟨(drawOf_congr (congrArg Nv.draws hnv) _).trans h.self, fun n hn => (drawOf_congr (congrArg Nv.draws hnv) n).trans (h.others n hn),
    hepoch.trans h.epoch, journalled_congr rfl hseq (congrArg Nv.ring hnv) h.entry⟩

/-- The state once a close has begun: a new epoch, and the draw in CLOSING. -/
def closingState (d : Draw) (cancel : Bool) (s : State) : State := modDraw d.id.toNat (fun _ => closing d cancel s) (bumpEpoch s)

theorem drawCloseRun_begins {d : Draw} {cancel : Bool} (hd : drawOf s (fld r 0 4) = some d) (hst : d.st = .opened)
    (hentry : entryRefusal true s = none) (hflag : fld r 4 4 = if cancel then 1 else 0) :
    drawCloseRun r s = if drained s (s.epoch + 1) then
        .done (finishClose (closing d cancel s) (closingState d cancel s)) stOk 0 (closeReply (entrySeq (closingState d cancel s)) (s.epoch + 1))
      else .wait (closingState d cancel s) (fld r 0 4) [] := by
  have hlow : ¬ 1 < fld r 4 4 := by
    rw [hflag]
    cases cancel <;> decide
  have hcancel : bit (fld r 4 4) 0 = cancel := by
    rw [hflag]
    cases cancel <;> rfl
  have hmay : mayClose d cancel = true := by rw [mayClose, hst]
  have hdrained : drained (closingState d cancel s) (s.epoch + 1) = drained s (s.epoch + 1) := rfl
  have hbegin : beginClose d cancel s = (closing d cancel s, closingState d cancel s) := rfl
  have hepoch : (closing d cancel s).closeEpoch = s.epoch + 1 := rfl
  have hdirect : (cancel && d.st == .closed && !pInstant d.params) = false := by rw [hst, show (DrawSt.opened == DrawSt.closed) = false from rfl, Bool.and_false, Bool.false_and]
  unfold drawCloseRun
  simp only [if_neg hlow, hd, hcancel, hdirect, hmay, hentry, hbegin, hepoch, hdrained]
  simp only [hst, reduceCtorEq, if_false, false_or, Bool.not_true, Bool.false_and, Bool.false_eq_true]

theorem closingState_draw {d : Draw} (cancel : Bool) (hd : drawOf s (fld r 0 4) = some d) :
    drawOf (closingState d cancel s) (fld r 0 4) = some (closing d cancel s)
      ∧ ∀ n, n ≠ fld r 0 4 → drawOf (closingState d cancel s) n = drawOf s n := by
  have hid := id_of_drawOf hd
  unfold closingState
  rw [hid]
  exact ⟨drawOf_modDraw_self (s := bumpEpoch s) hd rfl, fun n hn => drawOf_modDraw_ne (s := bumpEpoch s) hn fun _ _ => hid⟩

theorem closingState_ring {d : Draw} {cancel : Bool} (hring : ringTakes s = true) : ringTakes (closingState d cancel s) = true := by
  have hsame : RingSame s (closingState d cancel s) := ⟨rfl, rfl, rfl, rfl, rfl, rfl, rfl⟩
  rw [hsame.ringTakes, hring]

theorem drawClose_ends {d : Draw} {cancel : Bool} (hacc : accepts 0x0402 r (some 8) s = true) (hd : drawOf s (fld r 0 4) = some d)
    (hst : d.st = .opened) (hentry : entryRefusal true s = none) (hflag : fld r 4 4 = if cancel then 1 else 0)
    (hdrained : drained s (s.epoch + 1) = true) (hring : ringTakes s = true) :
    To (.drawClose r) s fun t =>
      (∃ d', drawOf t (fld r 0 4) = some d' ∧ d'.st = (if cancel then .cancelled else .closed) ∧ d'.closeEpoch = s.epoch + 1
          ∧ d'.params = d.params ∧ d'.sold = d.sold ∧ d'.lastSeq = s.jrn.nextSeq)
        ∧ (∀ n, n ≠ fld r 0 4 → drawOf t n = drawOf s n) ∧ t.epoch = s.epoch + 1
        ∧ Journalled (if cancel then 0x12 else 0x11) (le 4 d.id.toNat ++ zeros 4 ++ le 8 (s.epoch + 1) ++ le 8 d.sold) s t
        ∧ Answered 0x0402 r stOk 0 (le 6 s.jrn.nextSeq ++ zeros 2 ++ le 8 (s.epoch + 1)) t := by
  have hid := id_of_drawOf hd
  have hring' := closingState_ring (d := d) (cancel := cancel) hring
  obtain ⟨hself, hothers⟩ := closingState_draw cancel hd
  have hrun := drawCloseRun_begins (cancel := cancel) hd hst hentry hflag
  rw [if_pos hdrained, entrySeq_of_ringTakes hring'] at hrun
  rw [← hid] at hself
  have hends := finishClose_ends (d := closing d cancel s) hself hring'
  refine to_of_answer rfl hacc hrun fun t ht ha => ?_
  obtain ⟨hclosed, hkept, hepoch, hj⟩ := hends.congr (t' := t) (by rw [ht, settle_nv, respond_nv]) (by rw [ht, settle_nextSeq, respond_jrn])
    (by rw [ht, settle_epoch, respond_epoch])
  have hcid : (closing d cancel s).id.toNat = fld r 0 4 := hid
  rw [hcid] at hclosed
  refine ⟨⟨_, hclosed, rfl, rfl, rfl, rfl, rfl⟩, fun n hn => ?_, hepoch, journalled_congr (s := closingState d cancel s) rfl rfl rfl hj, ha⟩
  rw [hkept n (by rw [hcid]; exact hn), hothers n hn]

theorem drawClose_waits {d : Draw} {cancel : Bool} (hacc : accepts 0x0402 r (some 8) s = true) (hq : quiet s = true)
    (hd : drawOf s (fld r 0 4) = some d) (hst : d.st = .opened) (hentry : entryRefusal true s = none)
    (hflag : fld r 4 4 = if cancel then 1 else 0) (hdrained : drained s (s.epoch + 1) = false) :
    To (.drawClose r) s fun t =>
      Waits 0x0402 r (fld r 0 4) t ∧ t.epoch = s.epoch + 1 ∧ t.work = s.work
        ∧ ∃ d', drawOf t (fld r 0 4) = some d' ∧ d'.st = .closing ∧ d'.closing = cancel ∧ d'.closeFrom = .opened
          ∧ d'.closeEpoch = s.epoch + 1 := by
  obtain ⟨hself, -⟩ := closingState_draw cancel hd
  have hrun := drawCloseRun_begins (cancel := cancel) hd hst hentry hflag
  rw [if_neg (by rw [hdrained]; decide)] at hrun
  generalize hu : closingState d cancel s = u at hself hrun
  have hsame : u.work = s.work ∧ u.epoch = s.epoch + 1 ∧ quiet u = true := by
    rw [← hu]
    exact ⟨rfl, rfl, (quiet_congr (s := s) rfl rfl rfl).trans hq⟩
  obtain ⟨hwork, hepoch, hquiet⟩ := hsame
  refine to_of_waiting rfl hacc hrun fun t ht hw => ?_
  have hn : Notified (waiting 0x0402 r (fld r 0 4) [] u) t := by
    rw [ht]
    exact settle_quiet s (quiet_of_same hquiet rfl rfl rfl)
  have hdraws : t.nv = u.nv := (nv_of_notified hn).trans rfl
  have htwork : t.work = u.work := (work_of_notified hn).trans rfl
  have htepoch : t.epoch = u.epoch := by rw [ht, settle_epoch]; rfl
  exact ⟨hw, htepoch.trans hepoch, htwork.trans hwork, _, (drawOf_congr (congrArg Nv.draws hdraws) _).trans hself, rfl, rfl, hst, rfl⟩

/-! ## DRAW_CLOSE_DRAINED (R228, R229) -/

theorem drawCloseDrained_ends {n : BitVec 32} {d : Draw} (hd : drawOf s n.toNat = some d) (hst : d.st = .closing)
    (hdrained : drained s d.closeEpoch = true) (hring : ringTakes s = true) :
    To (.drawCloseDrained n) s fun t =>
      (∃ d', drawOf t n.toNat = some d' ∧ d'.st = (if d.closing then .cancelled else .closed) ∧ d'.params = d.params)
        ∧ (∀ w ∈ t.waiters, ¬(w.op = 0x0402 ∧ w.obj = n.toNat)) ∧ t.epoch = s.epoch
        ∧ Journalled (if d.closing then 0x12 else 0x11) (le 4 d.id.toNat ++ zeros 4 ++ le 8 d.closeEpoch ++ le 8 d.sold) s t := by
  have hid := id_of_drawOf hd
  have hends := finishClose_ends (d := d) (by rw [hid]; exact hd) hring
  have hseq : seqExhausted s = false := by
    have hstop := (ringTakes_parts hring).1
    unfold entriesStop at hstop
    simp only [Bool.or_eq_false_iff] at hstop
    exact hstop.1.1.1.1
  have hexec : exec (.drawCloseDrained n) s
      = .next (settle s (answerFor 0x0402 n.toNat stOk 0 (closeReply (entrySeq s) d.closeEpoch) (finishClose d s))) := by
    show execDrawCloseDrained n s = _
    simp only [execDrawCloseDrained, hd, hst, hdrained, hseq, Bool.not_false, and_self, if_true]
  generalize finishClose d s = u at *
  have hanswered : ∀ body, CloseEnds d s (settle s (answerFor 0x0402 n.toNat stOk 0 body u)) := fun body =>
    hends.congr (by rw [settle_nv, answerFor, answerAll_nv]) (by rw [settle_nextSeq, answerFor, answerAll_jrn])
      (by rw [settle_epoch, answerFor, answerAll_epoch])
  obtain ⟨hclosed, -, hepoch, hj⟩ := hanswered (closeReply (entrySeq s) d.closeEpoch)
  rw [hid] at hclosed
  refine to_of_eq hexec ⟨⟨_, hclosed, rfl, rfl⟩, fun w hw => ?_, hepoch, hj⟩
  rw [settle_waiters, answerFor, answerAll_waiters, List.mem_filter] at hw
  rintro ⟨hop, hobj⟩
  have hother := hw.2
  rw [hop, hobj] at hother
  simp at hother

end

/-- Settles O51. -/
theorem drawsAreDefinedAndClosed : Obligations.DrawsAreDefinedAndClosed := by
  rintro r s _ rfl hq
  refine ⟨fun hacc hnew hnamed hoff hsome hmost hzero hlen hroom hbytes => ⟨fun hmore => ?_, fun hlast hgood hentry hring => ?_⟩,
    fun n d hd hst hlate => drawDefineTimeout_removes hq hd hst hlate,
    fun d cancel hd hst hentry hacc hflag =>
      ⟨drawClose_ends hacc hd hst hentry hflag, drawClose_waits hacc hq hd hst hentry hflag⟩,
    fun n d hd hst hdrained hring => drawCloseDrained_ends hd hst hdrained hring⟩
  · exact drawSchedule_begins hacc hq ⟨hnew, hnamed, .inl hmore, hoff, hsome, hmost, hzero, hlen, hroom, hbytes⟩ hmore
  · obtain ⟨t, ht, hself, hothers, hj, ha⟩ :=
      drawSchedule_opens hacc ⟨hnew, hnamed, .inr hlast, hoff, hsome, hmost, hzero, hlen, hroom, hbytes⟩ hlast hgood hentry hring
    rw [scheduleBody, show (begun r s).id.toNat = fld r 0 4 from toNat_drawId r 0] at hj
    exact ⟨t, ht, ⟨_, hself, rfl, rfl, rfl, rfl, rfl⟩, hothers, hj, ha⟩

end Sys2Proof.DrawTable
end

section
/-! # Draws commit, are computed and are certified (O52) -/
namespace Sys2Proof.DrawRuns
open Sys2Proof Sys2Proof.Machine Sys2Proof.Told Sys2Proof.Replies Sys2Proof.Entries Sys2Proof.Packages Sys2Proof.DrawTable
open Sys2Proof.Registers (settle_plain)
open Sys2Proof.Monitors (firstBad_of_good)
open Sys2Proof.Standby (SameBanks sameBanks_refl sameBanks_trans takeFrom_sameBanks takeBlock_sameBanks)
open Sys2Proof.WriteThrough (setCtr_live ctrOf_setCtr_ne ctrVal_setCtr)

/-! ## Blocks of the conditioner (R220, R221) -/

theorem length_condBlock (bank : Nat) (raw : BitVec 1024) : (condBlock bank raw).length = 16 := by
  unfold condBlock
  simp only []
  refine List.foldlRecOn (motive := fun m : Bytes => m.length = 16) _ _ (length_zeros 16) fun m _ x _ => ?_
  exact length_aesEncWith _ _ (length_lastKey _)

/-- Randomness has been drawn: the banks are as before but for the blocks taken, and nothing else but the conditioner's turn has moved. -/
structure Drew (s t : State) : Prop where
  only : t = { s with banks := t.banks, lark := { s.lark with turn := t.lark.turn }, pmon := t.pmon, free := t.free }
  banks : SameBanks s t

theorem drew_refl (s : State) : Drew s s := ⟨rfl, sameBanks_refl s⟩

theorem drew_trans {s t u : State} (h : Drew s t) (h' : Drew t u) : Drew s u := by
  refine ⟨?_, sameBanks_trans h.banks h'.banks⟩
  rw [h'.only, h.only]

theorem takeFrom_drew (b : Nat) (s : State) : Drew s (takeFrom b s).2 := ⟨rfl, takeFrom_sameBanks b s⟩

theorem length_takeFrom (b : Nat) (s : State) : (takeFrom b s).1.length = 16 := length_condBlock ..

theorem takeMany_drew (b : Nat) : ∀ (n : Nat) (s : State), Drew s (takeMany b n s).2 ∧ (takeMany b n s).1.length = 16 * n
  | 0, s => ⟨drew_refl s, rfl⟩
  | n + 1, s => by
    obtain ⟨hdrew, hlen⟩ := takeMany_drew b n (takeFrom b s).2
    refine ⟨drew_trans (takeFrom_drew b s) hdrew, ?_⟩
    show ((takeFrom b s).1 ++ (takeMany b n (takeFrom b s).2).1).length = _
    rw [List.length_append, length_takeFrom, hlen]
    omega

/-- A seed has 48 bytes (R231). -/
theorem formSeed_drew (s : State) : Drew s (formSeed s).2 ∧ (formSeed s).1.length = 48 := by
  unfold formSeed
  refine List.foldlRecOn (motive := fun a : Bytes × State => Drew s a.2 ∧ a.1.length = 48) _ _ ⟨drew_refl s, length_zeros 48⟩ fun a h b _ => ?_
  obtain ⟨hdrew, hlen⟩ := h
  refine ⟨drew_trans hdrew (takeMany_drew b 3 a.2).1, ?_⟩
  simp only [length_xorB, hlen, length_fit, Nat.min_self]

theorem turnBank_of_serving {s : State} {b : Nat} (hb : b < 3) (h : (bankOf s b).st = .serving) : (turnBank s).isSome = true := by
  unfold turnBank
  rw [List.findSome?_isSome_iff]
  refine ⟨(b + 3 - s.lark.turn % 3) % 3, ?_, ?_⟩
  · have hlt : (b + 3 - s.lark.turn % 3) % 3 < 3 := Nat.mod_lt _ (by decide)
    interval_cases (b + 3 - s.lark.turn % 3) % 3 <;> simp
  · have hturn : (s.lark.turn + (b + 3 - s.lark.turn % 3) % 3) % 3 = b := by omega
    have hst : (s.banks.getD b {}).st = .serving := h
    simp only [hturn, hst, if_true, Option.isSome_some]

theorem serving_of_condUp {s : State} {n : Nat} (hn : 0 < n) (h : condUp s n = true) : ∃ b < 3, (bankOf s b).st = .serving := by
  rw [condUp, Bool.and_eq_true, decide_eq_true_eq, banksIn] at h
  obtain ⟨b, hb⟩ := List.exists_mem_of_length_pos (Nat.lt_of_lt_of_le hn h.2)
  obtain ⟨hmem, hst⟩ := List.mem_filter.mp hb
  refine ⟨b, ?_, eq_of_beq hst⟩
  simp only [List.mem_cons, List.not_mem_nil, or_false] at hmem
  omega

theorem takeBlock_drew (s : State) : Drew s (takeBlock s).2 := by
  refine ⟨?_, takeBlock_sameBanks s⟩
  unfold takeBlock
  split <;> rfl

theorem length_takeBlock {s : State} (h : (turnBank s).isSome = true) : (takeBlock s).1.length = 16 := by
  obtain ⟨b, hb⟩ := Option.isSome_iff_exists.mp h
  unfold takeBlock
  rw [hb]
  exact length_takeFrom ..

theorem drew_ringSame {s t : State} (h : Drew s t) : RingSame s t := by
  rw [h.only]
  exact ⟨rfl, rfl, rfl, rfl, rfl, rfl, rfl⟩

/-! ## One entry after another (R251, R262) -/

/-- Writing the open pages empties the pending ring area while there are pages for all of it. -/
theorem writePages_empties {s : State} (hworks : ringWorks s = true) (hlen : s.jrn.pending.length ≤ pendingCap) (hfree : 63 ≤ freePages s) :
    (writePages s).jrn.pending = [] := by
  have hpad : (s.jrn.pad).pending.length = (s.jrn.pending.length + pagePayload - 1) / pagePayload * pagePayload := length_fit ..
  have hsealed : (writePages s).jrn.pending
      = (s.jrn.pad).pending.drop ((if ringWorks s then min ((s.jrn.pad).pending.length / pagePayload) (freePages s) else 0) * pagePayload) := rfl
  rw [hsealed, if_pos hworks]
  refine List.drop_eq_nil_of_le ?_
  rw [hpad]
  unfold pagePayload pendingCap at *
  omega

/-- What an entry leaves for the next one. -/
structure Entered (s t : State) : Prop where
  empty : t.jrn.pending = []
  nextSeq : t.jrn.nextSeq = s.jrn.nextSeq + 1
  pwr : t.pwr = s.pwr
  dgu0 : t.dgu0 = s.dgu0
  dgu1 : t.dgu1 = s.dgu1

theorem journalEntry_enters (type : Nat) (claimed : Bool) {body : Bytes} {s : State} (hbody : body.length ≤ 2024) (hring : ringTakes s = true) :
    Entered s (journalEntry type claimed body s) := by
  have honly := journalEntry_only type claimed body s
  obtain ⟨hgo, hfree⟩ := ringTakes_parts hring
  have hparts : ringWorks (makeRoom 2040 s) = true ∧ (makeRoom 2040 s).jrn.pending.length + 2040 ≤ pendingCap := by
    unfold ringWorks
    rw [makeRoom_pwr]
    simp only [entriesStop, Bool.or_eq_false_iff, Bool.not_eq_false', roomForEntry, decide_eq_true_eq] at hgo
    exact ⟨hgo.1.2, hgo.2⟩
  refine ⟨?_, ?_, by rw [honly], by rw [honly], by rw [honly]⟩
  · unfold journalEntry
    rw [if_neg (by rw [hgo]; decide)]
    simp only []
    have hlen := entryBytes_len s type claimed s.jrn.nextSeq hbody
    have hpending : (takeSeq (makeRoom 2040 s)).jrn.pending = (makeRoom 2040 s).jrn.pending := by rw [takeSeq_jrn]
    have hworks := ringWorks_takeSeq (makeRoom 2040 s)
    have hpages := freePages_takeSeq (makeRoom 2040 s)
    rw [hparts.1] at hworks
    rw [← hpages] at hfree
    generalize entryBytes s type claimed s.jrn.nextSeq body = b at hlen ⊢
    generalize takeSeq (makeRoom 2040 s) = u at *
    refine writePages_empties hworks ?_ hfree
    show (u.jrn.pending ++ b).length ≤ pendingCap
    rw [List.length_append, hpending]
    omega
  · unfold journalEntry
    rw [if_neg (by rw [hgo]; decide)]
    show (takeSeq (makeRoom 2040 s)).jrn.nextSeq = _
    rw [takeSeq_nextSeq, makeRoom_nextSeq]

/-- An entry may follow it, with the next SEQ. -/
theorem goesOn {s t u : State} (h : Entered s t) (hring : ringTakes s = true) (hreserve : seqReserve s = false) (hjrn : u.jrn = t.jrn)
    (hpwr : u.pwr = t.pwr) (hd0 : u.dgu0 = t.dgu0) (hd1 : u.dgu1 = t.dgu1) : entriesStop u = false ∧ entrySeq u = s.jrn.nextSeq + 1 := by
  obtain ⟨hempty, hnext, htpwr, htd0, htd1⟩ := h
  have hgo := (ringTakes_parts hring).1
  have hroom : (makeRoom 2040 u).jrn.pending = [] := by
    rw [makeRoom, if_pos (by rw [hjrn, hempty]; decide), hjrn, hempty]
  have hlow : ¬ 2 ^ 48 ≤ s.jrn.nextSeq + 1 := by
    have hbelow : ¬ seqReserveStart ≤ s.jrn.nextSeq := of_decide_eq_false hreserve
    unfold seqReserveStart at hbelow
    omega
  have hstop : entriesStop u = false := by
    simp only [entriesStop, Bool.or_eq_false_iff, seqExhausted, chainOn, ringWorks, roomForEntry, hroom, hjrn, hnext, hpwr, htpwr, hd0, htd0,
      hd1, htd1, decide_eq_false hlow] at hgo ⊢
    exact ⟨⟨⟨⟨trivial, hgo.1.1.1.2⟩, hgo.1.1.2⟩, hgo.1.2⟩, by decide⟩
  exact ⟨hstop, by rw [entrySeq, if_neg (by rw [hstop]; decide), hjrn, hnext]⟩

theorem ctrOf_takeSeq {n : Nat} (hn : n ≠ 0) (s : State) : ctrOf (takeSeq s) n = ctrOf s n := by
  unfold takeSeq
  by_cases hmark : s.jrn.nextSeq < seqMark s
  · rw [if_pos hmark]
    rfl
  · rw [if_neg hmark]
    exact ctrOf_setCtr_ne (raisedMark (seqMark s)) s hn

/-- An entry takes no counter but the SEQ mark on (R262). -/
theorem ctrOf_journalEntry {n : Nat} (hn : n ≠ 0) (type : Nat) (claimed : Bool) (body : Bytes) (s : State) :
    ctrOf (journalEntry type claimed body s) n = ctrOf s n := by
  have hmakes : (makeRoom 2040 s).nv.ctrs = s.nv.ctrs := by rw [makeRoom_nv]
  have hroom : ctrOf (makeRoom 2040 s) n = ctrOf s n := by rw [ctrOf, hmakes, ctrOf]
  by_cases hstop : entriesStop s = true
  · rw [journalEntry, if_pos hstop]
  · rw [journalEntry, if_neg hstop]
    simp only []
    generalize makeRoom 2040 s = m at hroom ⊢
    have htaken := (ctrOf_takeSeq hn m).trans hroom
    generalize takeSeq m = u at htaken ⊢
    generalize entryBytes _ _ _ _ _ = b
    exact htaken

/-! ## A run commits to its seed (R231) -/

section
variable {s t u : State} {d : Draw}

/-- The keys of a draw and its seed record are read off the same parts of the state. -/
structure KeysSame (s t : State) : Prop where
  keys : t.keys = s.keys
  recs : t.nv.keyRecs = s.nv.keyRecs
  gens : t.nv.genRecs = s.nv.genRecs
  counts : t.nv.sessCnt = s.nv.sessCnt

theorem KeysSame.active (h : KeysSame s t) (a : BitVec 32) (kind : Nat) : handleActive t a kind = handleActive s a kind := by
  obtain ⟨hkeys, hrecs, hgens, hcounts⟩ := h
  simp only [handleActive, nameOf, activeKey, keyState, genBad, keyRec, genUsed, genOf, sessCount, hkeys, hrecs, hgens, hcounts]
  rfl

theorem KeysSame.wrap (h : KeysSame s t) (i : Nat) : seedWrap t i = seedWrap s i := by
  obtain ⟨hkeys, hrecs, hgens, -⟩ := h
  simp only [seedWrap, secretOf, operatorSecret, domainSecret, rootBytes, genUsed, genOf, keyRec, hkeys, hrecs, hgens]

/-- A seed that has been sealed opens again (R231). -/
theorem seedOf_sealed {wrap iv seed : Bytes} {old : AB (Bytes × BitVec 128)} (hactive : handleActive s d.sigkey 0x13 = true)
    (hwrap : seedWrap s (keyIndex d.sigkey) = some wrap) (hiv : iv.length = 12)
    (hseed : d.seed = AB.update old (sealSeed wrap iv seed)) : seedOf s d = some seed := by
  obtain ⟨rseq, hres⟩ := AB.resolve_update old (sealSeed wrap iv seed)
  have htake : (sealSeed wrap iv seed).1.take 12 = iv := by rw [sealSeed, ← hiv, List.take_left]
  have hdrop : (sealSeed wrap iv seed).1.drop 12 = (gcmSeal wrap iv [] seed).1 := by rw [sealSeed, ← hiv, List.drop_left]
  have htag : (sealSeed wrap iv seed).2 = (gcmSeal wrap iv [] seed).2 := rfl
  rw [seedOf, hseed, hres]
  generalize sealSeed wrap iv seed = x at *
  obtain ⟨b, tag⟩ := x
  simp only at htake hdrop htag ⊢
  rw [if_pos hactive, hwrap, Option.bind_some, htake, hdrop, htag]
  exact gcmOpen_gcmSeal ..

/-- The state and the bytes that a run draws: the seed, and the block of the seed record's IV. -/
def seedDrawn (s : State) : State := (takeBlock (formSeed s).2).2

def seedIv (s : State) : Bytes := (takeBlock (formSeed s).2).1.take 12

theorem seedDrawn_drew (s : State) : Drew s (seedDrawn s) := drew_trans (formSeed_drew s).1 (takeBlock_drew _)

theorem length_seedIv (hcond : condUp s 2 = true) : (seedIv s).length = 12 := by
  obtain ⟨b, hb, hst⟩ := serving_of_condUp (by decide) hcond
  have hlen : (takeBlock (formSeed s).2).1.length = 16 :=
    length_takeBlock (turnBank_of_serving hb (((formSeed_drew s).1.banks.st b).trans hst))
  rw [seedIv, List.length_take, hlen]
  rfl

/-- The body of a COMMIT entry. -/
def commitEntry (d : Draw) (seed : Bytes) : Bytes :=
  le 4 d.id.toNat ++ zeros 4 ++ h384 (sha384 (commitBlock d seed)) ++ h384 (sha384 d.params)

theorem length_commitEntry (d : Draw) (seed : Bytes) : (commitEntry d seed).length ≤ 2024 := by simp [commitEntry]

/-- The state after the COMMIT entry. -/
def commitNoted (d : Draw) (s : State) : State := journalEntry 0x13 false (commitEntry d (formSeed s).1) (seedDrawn s)

/-- The counters of a run: one more commit, and the mark of a batch. -/
def runCounted (ctr : Option Nat) (s : State) : State :=
  match ctr with
  | some n => setCtr n ((ctrOf (setCtr 5 ((ctrOf s 5).live + 1) s) 5).live % 2 ^ 32 * 2 ^ 24) (setCtr 5 ((ctrOf s 5).live + 1) s)
  | none => setCtr 5 ((ctrOf s 5).live + 1) s

theorem runCounted_only (ctr : Option Nat) (s : State) :
    runCounted ctr s = { s with nv := { s.nv with ctrs := (runCounted ctr s).nv.ctrs } } := by
  have hset : ∀ n v (t : State), t = { s with nv := { s.nv with ctrs := t.nv.ctrs } } →
      setCtr n v t = { s with nv := { s.nv with ctrs := (setCtr n v t).nv.ctrs } } := fun n v t h => by
    rw [setCtr_only, setCtr_nv, h]
  unfold runCounted
  split
  · exact hset _ _ _ (hset _ _ _ rfl)
  · exact hset _ _ _ rfl

theorem ctrVal_runCounted {ctr : Option Nat} (hctr : ∀ n, ctr = some n → n ≠ 5) (hlive : (ctrOf s 5).lost = false) :
    ctrVal (runCounted ctr s) 5 = (ctrOf s 5).live + 1 := by
  unfold runCounted
  split
  case h_1 n =>
    rw [ctrVal, ctrOf_setCtr_ne _ _ (hctr n rfl).symm]
    exact ctrVal_setCtr _ hlive
  case h_2 => exact ctrVal_setCtr _ hlive

theorem freeBatchCtr_high {n : Nat} (h : freeBatchCtr s = some n) : n ≠ 5 := by
  have hall : ∀ m, freeBatchCtr s = some m → 16 ≤ m := by
    unfold freeBatchCtr
    refine List.foldlRecOn (motive := fun best : Option Nat => ∀ m, best = some m → 16 ≤ m) _ _ nofun fun best h c hc => ?_
    obtain ⟨i, -, rfl⟩ := List.mem_map.mp hc
    intro m hm
    split at hm
    · exact h m hm
    · split at hm
      · cases hm
        exact Nat.le_add_left ..
      · split at hm
        · cases hm
          exact Nat.le_add_left ..
        · exact h m hm
  have := hall n h
  omega

/-- A draw of the table once `d` is committed in its place. -/
def committing (d : Draw) (s : State) (opsec : Nat) (x : Draw) : Draw :=
  { x with
    st := .committed
    seed := AB.update (AB.update x.seed (sealSeed ((seedWrap s (keyIndex d.sigkey)).getD []) (seedIv s) (formSeed s).1))
      (sealSeed ((seedWrap s (keyIndex d.sigkey)).getD []) (seedIv s) (formSeed s).1)
    commit := sha384 (commitBlock d (formSeed s).1), commitSeq := s.jrn.nextSeq, lastSeq := s.jrn.nextSeq, opsecCommit := opsec
    ctr := if pInstant d.params then freeBatchCtr s else none, nextIdx := 0 }

theorem commitNoted_keeps (d : Draw) (s : State) :
    (∀ n, drawOf (commitNoted d s) n = drawOf s n) ∧ (ctrOf (commitNoted d s) 5 = ctrOf s 5)
      ∧ KeysSame s (commitNoted d s) ∧ (commitNoted d s).opsec = s.opsec := by
  have hdrew := (seedDrawn_drew s).only
  have hkeys := journalEntry_keys 0x13 false (commitEntry d (formSeed s).1) (seedDrawn s)
  have hnv := journalEntry_nv 0x13 false (commitEntry d (formSeed s).1) (seedDrawn s)
  have hopsec := journalEntry_opsec 0x13 false (commitEntry d (formSeed s).1) (seedDrawn s)
  have hctr := ctrOf_journalEntry (n := 5) (by decide) 0x13 false (commitEntry d (formSeed s).1) (seedDrawn s)
  have hdraws := drawOf_journalEntry 0x13 false (commitEntry d (formSeed s).1) (seedDrawn s)
  unfold commitNoted
  generalize journalEntry 0x13 false (commitEntry d (formSeed s).1) (seedDrawn s) = w at *
  have hnv' : (seedDrawn s).nv = s.nv := by rw [hdrew]
  generalize seedDrawn s = v at *
  refine ⟨fun n => (hdraws n).trans (drawOf_congr (by rw [hnv']) n), hctr.trans (by rw [ctrOf, hnv', ctrOf]), ⟨?_, ?_, ?_, ?_⟩, ?_⟩
  · rw [hkeys, hdrew]
  · rw [hnv, hnv']
  · rw [hnv, hnv']
  · rw [hnv, hnv']
  · rw [hopsec, hdrew]

/-- What a commit leaves. -/
structure Commits (d : Draw) (s t : State) : Prop where
  self : ∃ opsec, drawOf t d.id.toNat = some (committing d s opsec d)
  seed : ∀ opsec, seedOf t (committing d s opsec d) = some (formSeed s).1
  goes : entriesStop t = false
  nextSeq : entrySeq t = s.jrn.nextSeq + 1
  ctr : ctrVal t 5 = ctrVal s 5 + 1
  entry : Journalled 0x13 (commitEntry d (formSeed s).1) s t

theorem commitDraw_commits (hd : drawOf s d.id.toNat = some d) (hcond : condUp s 2 = true) (hactive : handleActive s d.sigkey 0x13 = true)
    (hwrap : (seedWrap s (keyIndex d.sigkey)).isSome = true) (hreserve : seqReserve s = false) (hring : ringTakes s = true)
    (hlive : (ctrOf s 5).lost = false) : Commits d s (commitDraw d s) := by
  obtain ⟨wrap, hwrap⟩ := Option.isSome_iff_exists.mp hwrap
  have hsame := drew_ringSame (seedDrawn_drew s)
  have hring' : ringTakes (seedDrawn s) = true := by rw [hsame.ringTakes, hring]
  have hreserve' : seqReserve (seedDrawn s) = false := by rw [seqReserve, hsame.jrn, ← seqReserve, hreserve]
  have hseq : entrySeq (seedDrawn s) = s.jrn.nextSeq := by rw [entrySeq_of_ringTakes hring', hsame.jrn]
  have heq : commitDraw d s = modDraw d.id.toNat
      (committing d s (runCounted (if pInstant d.params then freeBatchCtr s else none) (commitNoted d s)).opsec)
      (runCounted (if pInstant d.params then freeBatchCtr s else none) (commitNoted d s)) := by
    unfold committing
    rw [← hseq]
    rfl
  have hj := journalEntry_journalled 0x13 false (commitEntry d (formSeed s).1) (seedDrawn s) (by decide) (length_commitEntry ..) hring'
  have hentered := journalEntry_enters 0x13 false (length_commitEntry d (formSeed s).1) hring'
  obtain ⟨hdraws, hctr, hkeys, hnv⟩ := commitNoted_keeps d s
  change Journalled _ _ _ (commitNoted d s) at hj
  change Entered _ (commitNoted d s) at hentered
  have honly := runCounted_only (if pInstant d.params then freeBatchCtr s else none) (commitNoted d s)
  have hcounted := ctrVal_runCounted (s := commitNoted d s) (ctr := if pInstant d.params then freeBatchCtr s else none)
    (fun n hn => freeBatchCtr_high (s := s) (by split at hn; exacts [hn, absurd hn (Option.some_ne_none n).symm])) (by rw [hctr, hlive])
  generalize runCounted (if pInstant d.params then freeBatchCtr s else none) (commitNoted d s) = v at *
  generalize commitNoted d s = w at *
  have hself : drawOf v d.id.toNat = some d := (drawOf_congr (by rw [honly]) _).trans ((hdraws _).trans hd)
  have hval : ctrVal s 5 = (ctrOf s 5).live := by rw [ctrVal, if_neg (by rw [hlive]; decide)]
  have hsameKeys : KeysSame s (modDraw d.id.toNat (committing d s v.opsec) v) := by
    obtain ⟨hk, hr, hg, hc⟩ := hkeys
    have hv : v.keys = w.keys ∧ v.nv.keyRecs = w.nv.keyRecs ∧ v.nv.genRecs = w.nv.genRecs ∧ v.nv.sessCnt = w.nv.sessCnt := by
      rw [honly]
      exact ⟨rfl, rfl, rfl, rfl⟩
    exact ⟨hv.1.trans hk, hv.2.1.trans hr, hv.2.2.1.trans hg, hv.2.2.2.trans hc⟩
  have hkept : v.jrn = w.jrn ∧ v.pwr = w.pwr ∧ v.dgu0 = w.dgu0 ∧ v.dgu1 = w.dgu1 ∧ v.nv.ring = w.nv.ring := by
    rw [honly]
    exact ⟨rfl, rfl, rfl, rfl, rfl⟩
  obtain ⟨hvjrn, hvpwr, hvd0, hvd1, hvring⟩ := hkept
  obtain ⟨hstop, hnext⟩ := goesOn (u := modDraw d.id.toNat (committing d s v.opsec) v) hentered hring' hreserve' hvjrn hvpwr hvd0 hvd1
  rw [heq]
  refine ⟨⟨v.opsec, drawOf_modDraw_self hself rfl⟩, fun opsec => ?_, hstop, by rw [hnext, hsame.jrn], ?_,
    journalled_congr (s := seedDrawn s) (t := w) (by rw [hsame.jrn]) (congrArg Journal.nextSeq hvjrn) hvring hj⟩
  · refine seedOf_sealed (old := AB.update d.seed (sealSeed wrap (seedIv s) (formSeed s).1)) ((hsameKeys.active ..).trans hactive) ((hsameKeys.wrap _).trans hwrap) (length_seedIv hcond) ?_
    rw [committing, hwrap]
    rfl
  · rw [hval, ← hctr]
    exact hcounted

/-! ## The result (R231, R239) -/

theorem mismatches_only (id n : Nat) (s : State) : mismatches id n s = { s with ev := (mismatches id n s).ev, pmon := (mismatches id n s).pmon } := by
  unfold mismatches
  refine foldl_keeps (P := fun t : State => t = { s with ev := t.ev, pmon := t.pmon }) _ _ _ rfl fun t k h => ?_
  rw [eventX_only, h]

/-- The sampler's passes are counted, and their differences recorded. -/
def sampled (d : Draw) (seed : Bytes) (fails : Nat) (s : State) : State :=
  countWords d.params seed (fails + 1) (mismatches d.id.toNat fails s)

theorem sampled_only (d : Draw) (seed : Bytes) (fails : Nat) (s : State) :
    sampled d seed fails s = { s with ev := (sampled d seed fails s).ev, pmon := (sampled d seed fails s).pmon } := by
  have h := mismatches_only d.id.toNat fails s
  unfold sampled countWords
  generalize mismatches d.id.toNat fails s = t at h ⊢
  simp only [count]
  rw [h]

/-- A draw of the table with its result. -/
def resulting (d : Draw) (seed : Bytes) (seq : Nat) (x : Draw) : Draw :=
  { x with
    st := if pInstant d.params then .issuing else .resulted
    results := some (drawResult d.params seed), resultDigest := sha384 (resultBytes (drawResult d.params seed)), resultSeq := seq, lastSeq := seq }

theorem runDraw_draws {fails : Nat} (hfails : fails < 4) (h : Commits d s (commitDraw d s)) :
    ∃ opsec, drawOf (runDraw d fails s) d.id.toNat
        = some (resulting d (formSeed s).1 (s.jrn.nextSeq + 1) (committing d s opsec d))
      ∧ ctrVal (runDraw d fails s) 5 = ctrVal s 5 + 1 ∧ Journalled 0x13 (commitEntry d (formSeed s).1) s (runDraw d fails s) := by
  obtain ⟨⟨opsec, hself⟩, hseed, hstop, hseq, hctr, hj⟩ := h
  have hrun : runDraw d fails s = resultDraw (committing d s opsec d) (formSeed s).1 (sampled d (formSeed s).1 fails (commitDraw d s)) := by
    unfold runDraw computeDraw
    simp only [hself, hseed opsec, if_pos hfails]
    rfl
  have honly := sampled_only d (formSeed s).1 fails (commitDraw d s)
  rw [hrun]
  generalize commitDraw d s = u at *
  generalize sampled d (formSeed s).1 fails u = v at *
  have hvseq : entrySeq v = s.jrn.nextSeq + 1 := by
    have hsame : RingSame u v := by
      rw [honly]
      exact ⟨rfl, rfl, rfl, rfl, rfl, rfl, rfl⟩
    rw [← hseq, entrySeq, hsame.entriesStop, hsame.jrn, ← entrySeq]
  refine ⟨opsec, ?_, ?_, ?_⟩
  · unfold resultDraw
    simp only [hvseq]
    have hdraw : drawOf (journalEntry 0x14 false (le 4 (committing d s opsec d).id.toNat ++ le 4 (pK (committing d s opsec d).params)
        ++ h384 (sha384 (resultBytes (drawResult (committing d s opsec d).params (formSeed s).1)))) v) d.id.toNat
        = some (committing d s opsec d) :=
      (drawOf_journalEntry ..).trans ((drawOf_congr (by rw [honly]) _).trans hself)
    exact drawOf_modDraw_self hdraw rfl
  · have hv : ctrOf v 5 = ctrOf u 5 := by rw [ctrOf, honly, ctrOf]
    have hw := ctrOf_journalEntry (n := 5) (by decide) 0x14 false (le 4 (committing d s opsec d).id.toNat ++ le 4 (pK (committing d s opsec d).params)
        ++ h384 (sha384 (resultBytes (drawResult (committing d s opsec d).params (formSeed s).1)))) v
    rw [← hctr, ctrVal, ctrVal, ← hv, ← hw]
    rfl
  · have hv : Journalled 0x13 (commitEntry d (formSeed s).1) s v := by
      rw [honly]
      exact journalled_congr (s := s) (t := u) rfl rfl rfl hj
    have hw := journalled_then (later := 0x14) (claimed := false) (more := le 4 (committing d s opsec d).id.toNat ++ le 4 (pK (committing d s opsec d).params)
        ++ h384 (sha384 (resultBytes (drawResult (committing d s opsec d).params (formSeed s).1)))) (u := v) hv rfl rfl
    unfold resultDraw
    simp only []
    generalize journalEntry 0x14 false _ v = w at hw ⊢
    exact journalled_congr (s := s) (t := w) rfl rfl rfl hw

/-! ## DRAW_RUN and INSTANT_BATCH (R233, R243) -/

/-- The response of a run. -/
theorem recorded_result {x : Draw} {res : List (BitVec 32)} (hres : x.results = some res) :
    recorded s x = (stOk, 0, le 6 x.commitSeq ++ le 6 x.resultSeq ++ le 4 (pK x.params) ++ h384 x.resultDigest
      ++ (if !pInstant x.params && decide (pK x.params ≤ 256) then resultBytes res else [])) := by
  unfold recorded
  by_cases hlong : (pInstant x.params || decide (256 < pK x.params)) = true
  · have hshort : (!pInstant x.params && decide (pK x.params ≤ 256)) = false := by
      rw [Bool.or_eq_true, decide_eq_true_eq] at hlong
      rcases hlong with h | h
      · rw [h]; rfl
      · rw [decide_eq_false (Nat.not_le.mpr h), Bool.and_false]
    simp only [hlong, if_true, runBody, hshort, Bool.false_eq_true, if_false]
  · simp only [hlong, Bool.false_eq_true, if_false, resultsOf, hres, runBody]

variable {r : Req} {fails : Nat}

/-- What a run reports and leaves (R231). -/
def Ran (r : Req) (d : Draw) (s : State) (op : Nat) (st : DrawSt) (t : State) : Prop :=
  ∃ (seed : Bytes) (d' : Draw), drawOf t d.id.toNat = some d' ∧ seed.length = 48 ∧ d'.st = st
    ∧ d'.commit = sha384 (le 4 0x4D434C46 ++ le 4 d.id.toNat ++ unitIdBytes ++ h384 (sha384 d.params) ++ seed)
    ∧ d'.results = some (drawResult d.params seed)
    ∧ d'.resultDigest = sha384 (resultBytes (drawResult d.params seed))
    ∧ d'.commitSeq = s.jrn.nextSeq ∧ d'.resultSeq = s.jrn.nextSeq + 1 ∧ d'.params = d.params
    ∧ ctrVal t 5 = ctrVal s 5 + 1
    ∧ Journalled 0x13 (le 4 d.id.toNat ++ zeros 4 ++ h384 d'.commit ++ h384 (sha384 d.params)) s t
    ∧ Answered op r stOk 0 (le 6 d'.commitSeq ++ le 6 d'.resultSeq ++ le 4 (pK d.params) ++ h384 d'.resultDigest
        ++ (if op == 0x0403 && decide (pK d.params ≤ 256) then resultBytes (drawResult d.params seed) else [])) t

theorem to_of_run {i : Instr} {op : Nat} {need : Option Nat} {run : State → Reply} (hexec : exec i s = .next (command i op r need run s))
    (hacc : accepts op r need s = true) (hcommits : Commits d s (commitDraw d s)) (hfails : fails < 4)
    (hop : (!pInstant d.params && decide (pK d.params ≤ 256)) = (op == 0x0403 && decide (pK d.params ≤ 256)))
    (hrun : run s = .done (runDraw d fails s) (runReply (runDraw d fails s) d.id.toNat).1 (runReply (runDraw d fails s) d.id.toNat).2.1
      (runReply (runDraw d fails s) d.id.toNat).2.2) :
    To i s (Ran r d s op (if pInstant d.params then .issuing else .resulted)) := by
  obtain ⟨opsec, hself, hctr, hj⟩ := runDraw_draws hfails hcommits
  have hst : (resulting d (formSeed s).1 (s.jrn.nextSeq + 1) (committing d s opsec d)).st ≠ .committed := by
    show (if pInstant d.params then DrawSt.issuing else .resulted) ≠ .committed
    split <;> decide
  have hreply : runReply (runDraw d fails s) d.id.toNat = (stOk, 0, le 6 s.jrn.nextSeq ++ le 6 (s.jrn.nextSeq + 1) ++ le 4 (pK d.params)
      ++ h384 (sha384 (resultBytes (drawResult d.params (formSeed s).1)))
      ++ (if op == 0x0403 && decide (pK d.params ≤ 256) then resultBytes (drawResult d.params (formSeed s).1) else [])) := by
    rw [runReply, hself]
    simp only [if_neg hst]
    rw [recorded_result (res := drawResult d.params (formSeed s).1) rfl, ← hop]
    rfl
  rw [hreply] at hrun
  refine to_of_answer hexec hacc hrun fun t ht ha => ?_
  generalize runDraw d fails s = u at *
  have hnv : t.nv = u.nv := by rw [ht, settle_nv, respond_nv]
  have hseq : t.jrn.nextSeq = u.jrn.nextSeq := by rw [ht, settle_nextSeq, respond_jrn]
  refine ⟨(formSeed s).1, _, (drawOf_congr (congrArg Nv.draws hnv) _).trans hself, (formSeed_drew s).2, rfl, rfl, rfl, rfl, rfl, rfl, rfl, ?_,
    journalled_congr rfl hseq (congrArg Nv.ring hnv) hj, ha⟩
  rw [← hctr, ctrVal, ctrOf, hnv, ← ctrOf, ← ctrVal]

theorem runs_at_once {op : Nat} (hdrbg : s.lark.drbgOn = true) (hcond : condUp s 2 = true) (hactive : handleActive s d.sigkey 0x13 = true)
    (hentry : entryRefusal (!pInstant d.params) s = none) :
    startRun d op fails s = .done (runDraw d fails s) (runReply (runDraw d fails s) d.id.toNat).1 (runReply (runDraw d fails s) d.id.toNat).2.1
      (runReply (runDraw d fails s) d.id.toNat).2.2 := by
  have hrefusal : runRefusal s d = none := by
    simp only [runRefusal, hdrbg, hactive, hcond, hentry, Bool.not_true, Bool.false_and, Bool.false_eq_true, if_false]
  simp only [startRun, hrefusal, hcond, if_true]

theorem drawRun_runs (hacc : accepts 0x0403 r (some 8) s = true) (hd : drawOf s (fld r 0 4) = some d) (hzero : fld r 4 4 = 0) (hfails : fails < 4)
    (hst : d.st = .closed) (hscheduled : pInstant d.params = false) (hentry : entryRefusal true s = none) (hdrbg : s.lark.drbgOn = true)
    (hcond : condUp s 2 = true) (hactive : handleActive s d.sigkey 0x13 = true) (hcommits : Commits d s (commitDraw d s)) :
    To (.drawRun r fails) s (Ran r d s 0x0403 .resulted) := by
  have hrun : drawRunRun r fails s = startRun d 0x0403 fails s := by
    simp only [drawRunRun, if_neg (not_not.mpr hzero), hd, runByState, hscheduled, Bool.false_and, Bool.false_eq_true, if_false, hst]
  rw [runs_at_once hdrbg hcond hactive (by rw [hscheduled]; exact hentry)] at hrun
  have hran := to_of_run (i := .drawRun r fails) rfl hacc hcommits hfails (by rw [hscheduled]; rfl) hrun
  rw [hscheduled] at hran
  exact hran

theorem instantBatch_runs (hacc : accepts 0x0405 r (some 8) s = true) (hd : drawOf s (fld r 0 4) = some d) (hzero : fld r 4 4 = 0)
    (hfails : fails < 4) (hst : d.st = .ready) (hinstant : pInstant d.params = true) (hentry : entryRefusal false s = none)
    (hfree : (freeBatchCtr s).isSome = true) (hdrbg : s.lark.drbgOn = true) (hcond : condUp s 2 = true)
    (hactive : handleActive s d.sigkey 0x13 = true) (hcommits : Commits d s (commitDraw d s)) :
    To (.instantBatch r fails) s (Ran r d s 0x0405 .issuing) := by
  have hnone : (freeBatchCtr s).isNone = false := by rw [← Option.not_isSome, hfree, Bool.not_true]
  have hready : ¬ (d.st ≠ .ready ∨ (!pInstant d.params) = true ∨ (freeBatchCtr s).isNone = true) := by
    rw [hst, hinstant, hnone]
    decide
  have hrun : instantBatchRun r fails s = startRun d 0x0405 fails s := by
    simp only [instantBatchRun, if_neg (not_not.mpr hzero), hd, batchByState, if_neg hready]
  rw [runs_at_once hdrbg hcond hactive (by rw [hinstant]; exact hentry)] at hrun
  have hran := to_of_run (i := .instantBatch r fails) rfl hacc hcommits hfails (by rw [hinstant]; rfl) hrun
  rw [hinstant] at hran
  exact hran

/-! ## RESERVATION_MARK_RAISE (R244) -/

theorem settle_setCtr (hq : quiet s = true) (n v : Nat) : settle s (setCtr n v s) = setCtr n v s := by
  have hset : setCtr n v s = { s with nv := { s.nv with ctrs := (setCtr n v s).nv.ctrs } } := by rw [setCtr_only, setCtr_nv]
  generalize (setCtr n v s).nv.ctrs = l at hset
  rw [hset]
  exact settle_plain ((quiet_congr (s := s) rfl rfl rfl).trans hq) rfl rfl rfl rfl rfl fun _ => rfl

theorem reservationMark_raised {n : BitVec 32} {c : Nat} (hq : quiet s = true) (hd : drawOf s n.toNat = some d) (hctr : d.ctr = some c)
    (hst : d.st = .issuing) (hreached : batchMark s d ≤ d.nextIdx) (hmore : batchMark s d < pK d.params) (hlive : (ctrOf s c).lost = false) :
    To (.reservationMarkRaise n) s fun t =>
      (ctrOf t c).live = (ctrOf s c).live / 2 ^ 24 * 2 ^ 24 + min (batchMark s d + 4096) (pK d.params)
        ∧ (∀ m, m ≠ c → ctrOf t m = ctrOf s m) ∧ t = { s with nv := { s.nv with ctrs := t.nv.ctrs } } := by
  have hraise : raiseReservation d s
      = setCtr c ((ctrOf s c).live / 2 ^ 24 * 2 ^ 24 + min (batchMark s d + 4096) (pK d.params)) s := by
    unfold raiseReservation batchMark
    simp only [hctr]
  have hexec : exec (.reservationMarkRaise n) s
      = .next (setCtr c ((ctrOf s c).live / 2 ^ 24 * 2 ^ 24 + min (batchMark s d + 4096) (pK d.params)) s) := by
    show execReservationMarkRaise n s = _
    simp only [execReservationMarkRaise, hd, hst, hreached, hmore, and_self, if_true, hraise]
    rw [settle_setCtr hq]
  refine to_of_eq hexec ⟨?_, fun m hm => ctrOf_setCtr_ne _ _ hm, ?_⟩
  · rw [Firmware.ctrOf_setCtr hlive]
    rfl
  · rw [setCtr_only, setCtr_nv]

/-! ## DRAW_CERT_SIGNED (R231, R248) -/

/-- The draw as its certificate names it. -/
def certified (d : Draw) (s : State) : Draw := { d with issued := if pInstant d.params then batchMark s d else 0 }

/-- The draw once its certificate is signed. -/
def signedOff (d : Draw) (s : State) (seed sig : Bytes) : Draw :=
  { certified d s with
    st := .certified, cert := some (certBody s (certified d s) seed ++ sig), lastSeq := s.jrn.nextSeq, ctr := none }

theorem signed_ringSame (s : State) : RingSame s (signed s) ∧ (signed s).nv = s.nv := by
  obtain ⟨ps, dom, hused⟩ := KeyCommands.usedPke_only (count 0x70 0 1 (drew s))
  rw [signed, hused]
  exact ⟨⟨rfl, rfl, rfl, rfl, rfl, rfl, rfl⟩, rfl⟩

/-- A draw whose seed opens has a key that signs. -/
theorem certSign_some {seed : Bytes} (hseed : seedOf s d = some seed) (body : Bytes) : ∃ sig, certSign s (certified d s) body = some sig := by
  have hwrap : (seedWrap s (keyIndex d.sigkey)).isSome = true := by
    unfold seedOf at hseed
    split at hseed
    · split at hseed
      · obtain ⟨k, hk, -⟩ := Option.bind_eq_some_iff.mp hseed
        rw [hk]
        rfl
      · exact absurd hseed (Option.some_ne_none _).symm
    · exact absurd hseed (Option.some_ne_none _).symm
  rw [seedWrap, Option.isSome_map] at hwrap
  obtain ⟨k, hk⟩ := Option.isSome_iff_exists.mp hwrap
  have hkey : secretOf s (keyIndex (certified d s).sigkey) = some k := hk
  rw [certSign, drawPair, hkey]
  exact ⟨_, rfl⟩

theorem drawCertSigned_certifies {n : BitVec 32} {seed : Bytes} (hd : drawOf s n.toNat = some d) (hseed : seedOf s d = some seed)
    (hdue : certDue d = true) (hpke : pkeUp s = true) (halt : tamperHalt s = false) (hphase : s.pwr.phase = .service)
    (hring : ringTakes s = true) (hawake : s.pwr.standbyDue = false) :
    To (.drawCertSigned n) s fun t =>
      ∃ (d1 d' : Draw) (sig : Bytes), d1 = { d with issued := if pInstant d.params then batchMark s d else 0 }
        ∧ drawOf t n.toNat = some d' ∧ d'.st = .certified ∧ d'.cert = some (certBody s d1 seed ++ sig) ∧ d'.issued = d1.issued
        ∧ d'.results = d.results ∧ d'.lastSeq = s.jrn.nextSeq ∧ (∀ m, m ≠ n.toNat → drawOf t m = drawOf s m)
        ∧ Journalled 0x15 (le 4 d.id.toNat ++ zeros 4 ++ h384 (sha384 (certBody s d1 seed))) s t := by
  have hid := id_of_drawOf hd
  obtain ⟨sig, hsig⟩ := certSign_some hseed (certBody s (certified d s) seed)
  obtain ⟨hsame, hsnv⟩ := signed_ringSame s
  have hexhausted : seqExhausted s = false := by
    have hstop := (ringTakes_parts hring).1
    unfold entriesStop at hstop
    simp only [Bool.or_eq_false_iff] at hstop
    exact hstop.1.1.1.1
  have hcertify : certify d seed s = modDraw n.toNat
      (fun _ => signedOff d s seed sig) (journalEntry 0x15 false (le 4 d.id.toNat ++ zeros 4 ++ h384 (sha384 (certBody s (certified d s) seed))) (signed s)) := by
    rw [← hid]
    unfold certify signedOff
    rw [← entrySeq_of_ringTakes hring]
    simp only []
    rw [show certSign s { d with issued := if pInstant d.params then batchMark s d else 0 }
      (certBody s { d with issued := if pInstant d.params then batchMark s d else 0 } seed) = some sig from hsig]
    rfl
  have hexec : exec (.drawCertSigned n) s = .next (sleepIfDue (settle s (certify d seed s))) := by
    show execDrawCertSigned n s = _
    simp only [execDrawCertSigned, hd, hseed, hdue, hpke, halt, hphase, hexhausted, Bool.not_false, Bool.and_true]
    rfl
  have hj := journalEntry_journalled 0x15 false (le 4 d.id.toNat ++ zeros 4 ++ h384 (sha384 (certBody s (certified d s) seed))) (signed s)
    (by decide) (by simp) (by rw [hsame.ringTakes, hring])
  have hpwr := journalEntry_pwr 0x15 false (le 4 d.id.toNat ++ zeros 4 ++ h384 (sha384 (certBody s (certified d s) seed))) (signed s)
  have hdraws := drawOf_journalEntry 0x15 false (le 4 d.id.toNat ++ zeros 4 ++ h384 (sha384 (certBody s (certified d s) seed))) (signed s)
  have hsdraws : ∀ m, drawOf (signed s) m = drawOf s m := fun m => drawOf_congr (by rw [hsnv]) m
  have hsdue : (signed s).pwr.standbyDue = false := by
    obtain ⟨ps, dom, hused⟩ := KeyCommands.usedPke_only (count 0x70 0 1 (drew s))
    rw [signed, hused]
    exact hawake
  rw [hcertify] at hexec
  generalize journalEntry 0x15 false (le 4 d.id.toNat ++ zeros 4 ++ h384 (sha384 (certBody s (certified d s) seed))) (signed s) = v at *
  rw [Admission.sleepIfDue_awake (by rw [settle_pwr]; exact (congrArg Power.standbyDue hpwr).trans hsdue)] at hexec
  refine to_of_eq hexec ⟨certified d s, _, sig, rfl,
    (drawOf_congr (by rw [settle_nv]) _).trans (drawOf_modDraw_self ((hdraws _).trans ((hsdraws _).trans hd)) rfl), rfl, rfl, rfl, rfl, rfl,
    fun m hm => (drawOf_congr (by rw [settle_nv]) _).trans
      ((drawOf_modDraw_ne (f := fun _ => signedOff d s seed sig) hm fun _ _ => hid).trans ((hdraws m).trans (hsdraws m))), ?_⟩
  exact journalled_congr (s := signed s) (t := v) (by rw [hsame.jrn]) (settle_nextSeq ..) (by rw [settle_nv]; rfl) hj

/-! ## DRAW_CERT (R241, R242) -/

theorem drawCertRun_part {part : Bytes} (hd : drawOf s (fld r 0 4) = some d) (hst : d.st = .certified) (h6 : fld r 6 2 = 0)
    (hmin : 1 ≤ fld r 12 4) (hmax : fld r 12 4 ≤ 4064) (h16 : fld r 16 8 = 0)
    (hpart : (fld r 4 2 = 0 ∧ d.cert = some part) ∨ (fld r 4 2 = 1 ∧ (resultsOf s d).map resultBytes = some part)) :
    drawCertRun r s = .done s stOk 0
      (le 4 part.length ++ le 4 (slice part (fld r 8 4) (fld r 12 4)).length ++ zeros 8 ++ slice part (fld r 8 4) (fld r 12 4)) := by
  have hdma : bit (fld r 6 2) 0 = false := by rw [h6]; rfl
  have h4 : ¬ 1 < fld r 4 2 := by rcases hpart with ⟨h, -⟩ | ⟨h, -⟩ <;> omega
  have hgood : certBad r = none := by
    refine firstBad_of_good fun x hx => ?_
    simp only [hdma, List.mem_cons, List.not_mem_nil, or_false] at hx
    rcases hx with rfl | rfl | rfl | rfl
    · exact decide_eq_false h4
    · exact decide_eq_false (by omega)
    · simp only [Bool.false_eq_true, if_false, Bool.or_eq_false_iff, beq_eq_false_iff_ne, decide_eq_false_iff_not]
      omega
    · simp [h16]
  have hstates : ¬ (d.st = .cancelled ∨ d.st = .voided) := by rw [hst]; decide
  have hgive : certPart r part s = .done s stOk 0
      (le 4 part.length ++ le 4 (slice part (fld r 8 4) (fld r 12 4)).length ++ zeros 8 ++ slice part (fld r 8 4) (fld r 12 4)) := by
    simp only [certPart, hdma, Bool.false_eq_true, if_false]
  unfold drawCertRun
  simp only [hgood, hdma, Bool.false_and, Bool.false_eq_true, if_false, hd, if_neg hstates, if_neg (not_not.mpr hst)]
  rcases hpart with ⟨h, hcert⟩ | ⟨h, hres⟩
  · rw [if_pos h, certificate, hcert]
    exact hgive
  · obtain ⟨a, ha, hbytes⟩ := Option.map_eq_some_iff.mp hres
    rw [if_neg (by omega), ha, ← hgive, ← hbytes]

end

/-- Settles O52. -/
theorem drawsCommitBeforeTheResult : Obligations.DrawsCommitBeforeTheResult := by
  rintro r s _ d rfl hd hq
  have hid := id_of_drawOf hd
  have hnamed : drawOf s (BitVec.ofNat 32 (fld r 0 4)).toNat = some d := by rw [toNat_drawId]; exact hd
  refine ⟨fun fails hfails hzero hdrbg hcond hactive hwrap hreserve hring hlive => ?_, fun c hctr hst hreached hmore hlive => ?_,
    fun seed hseed hdue hpke halt hphase hring hawake => ?_, fun part hst hacc h6 hmin hmax h16 hpart => ?_, fun hacc => ?_⟩
  · have hcommits := commitDraw_commits (d := d) (by rw [hid]; exact hd) hcond hactive hwrap hreserve hring hlive
    refine ⟨fun hacc hst hscheduled hentry => ?_, fun hacc hst hinstant hentry hfree => ?_⟩
    · have h := drawRun_runs hacc hd hzero hfails hst hscheduled hentry hdrbg hcond hactive hcommits
      rw [← hid]
      exact h
    · have h := instantBatch_runs hacc hd hzero hfails hst hinstant hentry hfree hdrbg hcond hactive hcommits
      rw [← hid]
      exact h
  · exact reservationMark_raised hq hnamed hctr hst hreached hmore hlive
  · have h := drawCertSigned_certifies hnamed hseed hdue hpke halt hphase hring hawake
    rw [toNat_drawId] at h
    exact h
  · exact does_of_done rfl hacc (drawCertRun_part hd hst h6 hmin hmax h16 hpart) hq
  · exact does_of_done rfl hacc rfl hq

end Sys2Proof.DrawRuns
end

section
/-! # The journal writer: leaves, batches, pages and checkpoints (O53) -/
namespace Sys2Proof.JournalWriter
open Sys2Proof Sys2Proof.Machine Sys2Proof.Told Sys2Proof.Replies Sys2Proof.Entries Sys2Proof.Packages

/-! ## What is DURABLE stays and grows (R264) -/

/-- A SEQ is below the mark or within a range above it. -/
def Covers (d : Nat) (l : List (Nat × Nat)) (q : Nat) : Prop := q ≤ d ∨ ∃ c ∈ l, c.1 ≤ q ∧ q ≤ c.2

theorem durableSeq_iff (j : Journal) (q : Nat) : durableSeq j q = true ↔ Covers j.durable j.covered q := by
  simp [durableSeq, Covers]

theorem advance_covers {q : Nat} : ∀ (l : List (Nat × Nat)) (d : Nat), Covers d l q → Covers (advance d l).1 (advance d l).2 q
  | [], _, h => h
  | x :: xs, d, h => by
    unfold advance
    split
    · refine advance_covers xs (max d x.2) ?_
      rcases h with h | ⟨c, hc, hq⟩
      · exact .inl (le_max_of_le_left h)
      · rcases List.mem_cons.mp hc with rfl | hc
        · exact .inl (le_max_of_le_right hq.2)
        · exact .inr ⟨c, hc, hq⟩
    · have hrest : ∀ c, c ∈ xs → c.1 ≤ q ∧ q ≤ c.2 → Covers (advance d xs).1 (x :: (advance d xs).2) q := fun c hc hq => by
        rcases advance_covers xs d (.inr ⟨c, hc, hq⟩) with h | ⟨c', hc', hq'⟩
        · exact .inl h
        · exact .inr ⟨c', List.mem_cons_of_mem _ hc', hq'⟩
      rcases h with h | ⟨c, hc, hq⟩
      · rcases advance_covers xs d (.inl h) with h | ⟨c', hc', hq'⟩
        · exact .inl h
        · exact .inr ⟨c', List.mem_cons_of_mem _ hc', hq'⟩
      · rcases List.mem_cons.mp hc with rfl | hc
        · exact .inr ⟨_, List.mem_cons_self, hq⟩
        · exact hrest c hc hq

theorem mem_insertRange {r c : Nat × Nat} : ∀ {l : List (Nat × Nat)}, c = r ∨ c ∈ l → c ∈ insertRange r l
  | [], h => by simpa [insertRange] using h
  | x :: xs, h => by
    unfold insertRange
    split
    · simpa using h
    · rcases h with h | h
      · exact List.mem_cons_of_mem _ (mem_insertRange (.inl h))
      · rcases List.mem_cons.mp h with rfl | h
        · exact List.mem_cons_self
        · exact List.mem_cons_of_mem _ (mem_insertRange (.inr h))

theorem mem_inserted {e : Entry} : ∀ (es : List Entry) (l : List (Nat × Nat)),
    ((e.first, e.last) ∈ l ∨ e ∈ es) → (e.first, e.last) ∈ es.foldl (fun c e => insertRange (e.first, e.last) c) l
  | [], _, h => h.resolve_right List.not_mem_nil
  | x :: es, l, h => by
    refine mem_inserted es _ ?_
    rcases h with h | h
    · exact .inl (mem_insertRange (.inr h))
    · rcases List.mem_cons.mp h with rfl | h
      · exact .inl (mem_insertRange (.inl rfl))
      · exact .inr h

/-- The SEQs of entries that are sealed are DURABLE. -/
theorem cover_durable {es : List Entry} {e : Entry} (he : e ∈ es) (j : Journal) {q : Nat} (hlow : e.first ≤ q) (hhigh : q ≤ e.last) :
    durableSeq (j.cover es) q = true :=
  (durableSeq_iff _ _).mpr (advance_covers _ _ (.inr ⟨_, mem_inserted es j.covered (.inr he), hlow, hhigh⟩))

/-! ## Batches and pages (R253, R254, R259) -/

section
variable {s u : State}

/-- The ring takes another BATCH entry, and its page. -/
structure BatchRoom (s : State) : Prop where
  chain : chainOn s = true
  works : ringWorks s = true
  room : roomForEntry 64 s = true
  pages : 63 ≤ freePages (makeRoom 64 s)

theorem sealPages_freePages (n : Nat) (s : State) : freePages (sealPages n s) ≤ freePages s := by
  show ringPages - (s.nv.lastPseq + _ - s.nv.oldestPseq) ≤ ringPages - (s.nv.lastPseq - s.nv.oldestPseq)
  omega

theorem sealPages_pending (n : Nat) (s : State) :
    (sealPages n s).jrn.pending = s.jrn.pending.drop ((if ringWorks s then min n (freePages s) else 0) * pagePayload) := rfl

theorem ringWorks_makeRoom (n : Nat) (s : State) : ringWorks (makeRoom n s) = ringWorks s := by
  rw [ringWorks, makeRoom_pwr, ringWorks]

/-- Where an entry has room, a BATCH entry has. -/
theorem batchRoom_of_ringTakes (hring : ringTakes s = true) : BatchRoom s := by
  obtain ⟨hgo, hfree⟩ := ringTakes_parts hring
  simp only [entriesStop, Bool.or_eq_false_iff, Bool.not_eq_false', roomForEntry, decide_eq_true_eq] at hgo
  obtain ⟨⟨⟨-, hchain⟩, hworks⟩, hroom⟩ := hgo
  by_cases hshort : s.jrn.pending.length + 64 ≤ pendingCap
  · have hmake : makeRoom 64 s = s := if_pos hshort
    refine ⟨hchain, hworks, by rw [roomForEntry, hmake]; exact decide_eq_true hshort, ?_⟩
    rw [hmake]
    refine Nat.le_trans hfree ?_
    unfold makeRoom
    split
    · exact Nat.le_refl _
    · exact sealPages_freePages ..
  · have hmake : makeRoom 64 s = makeRoom 2040 s := by
      rw [makeRoom, if_neg hshort, makeRoom, if_neg (by omega)]
    refine ⟨hchain, hworks, ?_, by rw [hmake]; exact hfree⟩
    rw [roomForEntry, hmake]
    exact decide_eq_true (by omega)

/-- The room rests on the bytes that wait, the pages of the ring and the units. -/
theorem batchRoom_congr (h : BatchRoom s) (hpending : u.jrn.pending = s.jrn.pending) (hpwr : u.pwr = s.pwr) (hnv : u.nv = s.nv)
    (hd0 : u.dgu0 = s.dgu0) (hd1 : u.dgu1 = s.dgu1) : BatchRoom u := by
  obtain ⟨hchain, hworks, hroom, hpages⟩ := h
  have hw : ringWorks u = ringWorks s := by rw [ringWorks, hpwr, ringWorks]
  have hf : freePages u = freePages s := by rw [freePages, ringUsed, hnv, freePages, ringUsed]
  have hmake : (makeRoom 64 u).jrn.pending = (makeRoom 64 s).jrn.pending ∧ freePages (makeRoom 64 u) = freePages (makeRoom 64 s) := by
    unfold makeRoom
    rw [hpending]
    split
    · exact ⟨hpending, hf⟩
    · refine ⟨by rw [sealPages_pending, sealPages_pending, hw, hf, hpending], ?_⟩
      unfold sealPages freePages ringUsed
      simp only [hw, hnv]
  refine ⟨by rw [chainOn, hd0, hd1]; exact hchain, hw.trans hworks, ?_, by rw [hmake.2]; exact hpages⟩
  rw [roomForEntry, hmake.1]
  exact hroom

/-- An entry that waits for its page goes into the ring when every page with bytes is written. -/
theorem writePages_seals (hworks : ringWorks s = true) (hlen : s.jrn.pending.length ≤ pendingCap) (hfree : 63 ≤ freePages s) {e : Entry}
    (he : e ∈ s.jrn.unsealed) (hend : e.pageEnd ≤ s.nv.lastPseq + (s.jrn.pending.length + 247) / 248) : e ∈ (writePages s).nv.ring := by
  have hpad : (s.jrn.pad).pending.length = (s.jrn.pending.length + pagePayload - 1) / pagePayload * pagePayload := length_fit ..
  have hring : (writePages s).nv.ring = s.nv.ring ++ s.jrn.unsealed.filter (·.pageEnd ≤ s.nv.lastPseq
      + (if ringWorks s then min ((s.jrn.pad).pending.length / pagePayload) (freePages s) else 0)) := rfl
  rw [hring, if_pos hworks, hpad]
  refine List.mem_append_right _ (List.mem_filter.mpr ⟨he, decide_eq_true ?_⟩)
  unfold pagePayload pendingCap at *
  omega

theorem writePages_keeps_ring {e : Entry} (he : e ∈ s.nv.ring) : e ∈ (writePages s).nv.ring := by
  obtain ⟨l, hl⟩ := writePages_ring s
  rw [hl]
  exact List.mem_append_left _ he

theorem writePages_batch (s : State) : (writePages s).jrn.batch = s.jrn.batch ∧ (writePages s).jrn.inOrder = s.jrn.inOrder
    ∧ (writePages s).jrn.waiting = s.jrn.waiting ∧ (writePages s).jrn.nextSeq = s.jrn.nextSeq := ⟨rfl, rfl, rfl, rfl⟩

/-- The open batch is empty. -/
def batchClosed (j : Journal) : Journal := { j with batch := [] }

/-- The journal is `j`, and the batch is counted. -/
def batchCounted (j : Journal) (m : State) : State := { m with jrn := j, pmon := m.pmon.count 0x31 0 1 }

/-- The state in which the BATCH entry of the open batch of `s` has been placed in `m`. -/
def placedIn (s m : State) : State :=
  batchCounted (batchClosed (m.jrn.place m.nv.lastPseq (batchEntry s s.jrn.batch) ((s.jrn.batch.head?.map (·.seq)).getD 0)
    ((s.jrn.batch.getLast?.map (·.seq)).getD 0))) m

/-- The state in which the BATCH entry of the open batch has been placed. -/
def batchPlaced (s : State) : State := placedIn s (makeRoom 64 s)

theorem closeBatch_goes (hgo : ¬ (s.jrn.batch = [] || !chainOn s || !roomForEntry 64 s) = true) :
    closeBatch s = if s.pwr.degraded then writePages (batchPlaced s) else batchPlaced s := by
  unfold closeBatch batchPlaced placedIn batchCounted batchClosed
  simp only [if_neg hgo]

theorem closeBatch_stays (hstay : (s.jrn.batch = [] || !chainOn s || !roomForEntry 64 s) = true) : closeBatch s = s := by
  rw [closeBatch, if_pos hstay]

theorem closeBatch_places (h : BatchRoom s) (hbatch : s.jrn.batch ≠ []) :
    closeBatch s = if s.pwr.degraded then writePages (batchPlaced s) else batchPlaced s := by
  exact closeBatch_goes (by simp [hbatch, h.chain, h.room])

theorem closeBatch_empty (h : s.jrn.batch = []) : closeBatch s = s := by
  exact closeBatch_stays (by simp [h])

theorem makeRoom_jrn (n : Nat) (s : State) : (makeRoom n s).jrn.inOrder = s.jrn.inOrder ∧ (makeRoom n s).jrn.waiting = s.jrn.waiting
    ∧ (makeRoom n s).jrn.batch = s.jrn.batch := by
  unfold makeRoom
  split <;> exact ⟨rfl, rfl, rfl⟩

theorem length_batchEntry (s : State) (b : List Leaf) : (batchEntry s b).length = 64 := by simp [batchEntry]

/-- What the placing of a BATCH entry leaves. -/
structure Placed (s t : State) : Prop where
  batch : t.jrn.batch = []
  inOrder : t.jrn.inOrder = s.jrn.inOrder
  waiting : t.jrn.waiting = s.jrn.waiting
  nextSeq : t.jrn.nextSeq = s.jrn.nextSeq

theorem place_point (p first last : Nat) (b : Bytes) (j : Journal) : (j.place p b first last).inOrder = j.inOrder
    ∧ (j.place p b first last).waiting = j.waiting ∧ (j.place p b first last).nextSeq = j.nextSeq := by
  unfold Journal.place
  exact ⟨rfl, rfl, rfl⟩

theorem batchCounted_jrn (j : Journal) (m : State) : (batchCounted j m).jrn = j := rfl

theorem batchClosed_point (j : Journal) : (batchClosed j).batch = [] ∧ (batchClosed j).inOrder = j.inOrder
    ∧ (batchClosed j).waiting = j.waiting ∧ (batchClosed j).nextSeq = j.nextSeq := ⟨rfl, rfl, rfl, rfl⟩

theorem placedIn_point (s m : State) : (placedIn s m).jrn.batch = [] ∧ (placedIn s m).jrn.inOrder = m.jrn.inOrder
    ∧ (placedIn s m).jrn.waiting = m.jrn.waiting ∧ (placedIn s m).jrn.nextSeq = m.jrn.nextSeq := by
  rw [placedIn, batchCounted_jrn]
  obtain ⟨hb, hi, hw, hn⟩ := batchClosed_point (m.jrn.place m.nv.lastPseq (batchEntry s s.jrn.batch)
    ((s.jrn.batch.head?.map (·.seq)).getD 0) ((s.jrn.batch.getLast?.map (·.seq)).getD 0))
  obtain ⟨hi', hw', hn'⟩ := place_point m.nv.lastPseq ((s.jrn.batch.head?.map (·.seq)).getD 0)
    ((s.jrn.batch.getLast?.map (·.seq)).getD 0) (batchEntry s s.jrn.batch) m.jrn
  exact ⟨hb, hi.trans hi', hw.trans hw', hn.trans hn'⟩

theorem batchPlaced_placed (s : State) : Placed s (batchPlaced s) := by
  obtain ⟨hin, hwait, -⟩ := makeRoom_jrn 64 s
  obtain ⟨hb, hi, hw, hn⟩ := placedIn_point s (makeRoom 64 s)
  exact ⟨hb, hi.trans hin, hw.trans hwait, hn.trans (makeRoom_nextSeq 64 s)⟩

theorem closeBatch_placed (h : BatchRoom s) (hbatch : s.jrn.batch ≠ []) : Placed s (closeBatch s) := by
  rw [closeBatch_places h hbatch]
  have hplaced := batchPlaced_placed s
  split
  · obtain ⟨hb, hi, hw, hn⟩ := writePages_batch (batchPlaced s)
    exact ⟨hb.trans hplaced.batch, hi.trans hplaced.inOrder, hw.trans hplaced.waiting, hn.trans hplaced.nextSeq⟩
  · exact hplaced

/-- The BATCH entry, as it waits for its page. -/
theorem placedIn_entry {m : State} (hroom : m.jrn.pending.length + 64 ≤ pendingCap) :
    ∃ e ∈ (placedIn s m).jrn.unsealed, e.bytes = batchEntry s s.jrn.batch
    ∧ e.pageEnd ≤ (placedIn s m).nv.lastPseq + ((placedIn s m).jrn.pending.length + 247) / 248 ∧ (placedIn s m).jrn.pending.length ≤ pendingCap := by
  have hlen := length_batchEntry s s.jrn.batch
  unfold placedIn batchCounted batchClosed Journal.place
  generalize batchEntry s s.jrn.batch = b at *
  refine ⟨_, List.mem_append_right _ (List.mem_singleton.mpr rfl), rfl, ?_, ?_⟩
  · show m.nv.lastPseq + 1 + (m.jrn.pending.length + b.length - 1) / pagePayload ≤ m.nv.lastPseq + ((m.jrn.pending ++ b).length + 247) / 248
    rw [List.length_append, hlen]
    unfold pagePayload
    omega
  · show (m.jrn.pending ++ b).length ≤ pendingCap
    rw [List.length_append, hlen]
    exact hroom

theorem placedIn_ring (s m : State) : freePages (placedIn s m) = freePages m ∧ ringWorks (placedIn s m) = ringWorks m := by
  unfold freePages ringUsed ringWorks placedIn batchCounted
  exact ⟨rfl, rfl⟩

/-- The placed BATCH entry goes into the ring with its page. -/
theorem batchPlaced_entry (h : BatchRoom s) : ∃ e ∈ (batchPlaced s).jrn.unsealed, e.bytes = batchEntry s s.jrn.batch
    ∧ e ∈ (writePages (batchPlaced s)).nv.ring := by
  have hroom := h.room
  rw [roomForEntry, decide_eq_true_eq] at hroom
  have hworks : ringWorks (makeRoom 64 s) = true := (ringWorks_makeRoom 64 s).trans h.works
  have hpages := h.pages
  unfold batchPlaced
  generalize makeRoom 64 s = m at *
  obtain ⟨hfree, hring⟩ := placedIn_ring s m
  obtain ⟨e, he, hbytes, hend, hlen⟩ := placedIn_entry (s := s) hroom
  exact ⟨e, he, hbytes, writePages_seals (hring.trans hworks) hlen (hpages.trans_eq hfree.symm) he hend⟩

/-- The BATCH entry of a batch that closes. -/
theorem closeBatch_entry (h : BatchRoom s) (hbatch : s.jrn.batch ≠ []) :
    ∃ e ∈ (closeBatch s).jrn.unsealed ++ (closeBatch s).nv.ring, e.bytes = batchEntry s s.jrn.batch := by
  obtain ⟨e, he, hbytes, hring⟩ := batchPlaced_entry h
  refine ⟨e, ?_, hbytes⟩
  rw [closeBatch_places h hbatch]
  split
  · exact List.mem_append_right _ (hring)
  · exact List.mem_append_left _ he

/-- A batch that closes and has its page written. -/
theorem writePages_closeBatch_entry (h : BatchRoom s) (hbatch : s.jrn.batch ≠ []) :
    ∃ e ∈ (writePages (closeBatch s)).nv.ring, e.bytes = batchEntry s s.jrn.batch := by
  obtain ⟨e, he, hbytes, hring⟩ := batchPlaced_entry h
  refine ⟨e, ?_, hbytes⟩
  rw [closeBatch_places h hbatch]
  split
  · exact writePages_keeps_ring (hring)
  · exact hring

/-! ## What follows the writer's step -/

/-- The journal and the MRAM are those of `u`, but for the fill level that is told. -/
structure SameRecord (u t : State) : Prop where
  nv : t.nv = u.nv
  jrn : { t.jrn with fill := u.jrn.fill } = u.jrn

theorem sameRecord_trans {s t u : State} (h : SameRecord s t) (h' : SameRecord t u) : SameRecord s u := by
  refine ⟨h'.nv.trans h.nv, ?_⟩
  rw [← h.jrn, ← h'.jrn]

theorem settle_sameRecord (s0 u : State) : SameRecord u (settle s0 u) := ⟨settle_nv .., rfl⟩

theorem enterStandby_sameRecord (u : State) : SameRecord u (enterStandby u) := by
  unfold enterStandby
  exact ⟨by rw [answerAll_nv, event_nv], by rw [answerAll_jrn, event_jrn]⟩

theorem sleepIfDue_sameRecord (u : State) : SameRecord u (sleepIfDue u) := by
  unfold sleepIfDue
  split
  · exact sameRecord_trans (enterStandby_sameRecord u) (settle_sameRecord ..)
  · exact ⟨rfl, rfl⟩

theorem told_sameRecord (s u : State) : SameRecord u (sleepIfDue (settle s (answerSync u))) :=
  sameRecord_trans (t := answerSync u) ⟨answerAll_nv .., by rw [answerSync, answerAll_jrn]⟩
    (sameRecord_trans (settle_sameRecord ..) (sleepIfDue_sameRecord _))

theorem SameRecord.parts {t : State} (h : SameRecord u t) : t.jrn.batch = u.jrn.batch ∧ t.jrn.inOrder = u.jrn.inOrder
    ∧ t.jrn.waiting = u.jrn.waiting ∧ t.jrn.nextSeq = u.jrn.nextSeq ∧ t.jrn.unsealed = u.jrn.unsealed ∧ t.jrn.pending = u.jrn.pending
    ∧ t.jrn.durable = u.jrn.durable ∧ t.jrn.covered = u.jrn.covered := by
  rw [← h.jrn]
  exact ⟨rfl, rfl, rfl, rfl, rfl, rfl, rfl, rfl⟩

/-! ## LEAF_IN_ORDER (R259, R263, R266) -/

variable {l : Leaf}

/-- The leaf at the in-order point is in the open batch. -/
def folded (l : Leaf) (s : State) : State :=
  { s with
    jrn := Journal.skip { s.jrn with
      waiting := s.jrn.waiting.filter (fun x => x.seq ≠ l.seq), batch := s.jrn.batch ++ [l], inOrder := l.seq + 1 }
    pmon := s.pmon.count 0x30 0 1 }

theorem foldLeaf_eq (l : Leaf) (s : State) : foldLeaf l s = if bit (num l.desc 1 1) 0 then writePages (closeBatch (folded l s))
    else if 4096 ≤ (s.jrn.batch ++ [l]).length then closeBatch (folded l s) else folded l s := rfl

theorem folded_inOrder (h : s.jrn.standalone.contains (l.seq + 1) = false) : (folded l s).jrn.inOrder = l.seq + 1 := by
  show (skipStandalone s.jrn.standalone.length (l.seq + 1) s.jrn.standalone).1 = l.seq + 1
  cases s.jrn.standalone.length with
  | zero => rfl
  | succ n => rw [skipStandalone, if_neg (by rw [h]; decide)]

theorem folded_room (h : BatchRoom s) : BatchRoom (folded l s) := batchRoom_congr h rfl rfl rfl rfl rfl

theorem folded_batch : (folded l s).jrn.batch = s.jrn.batch ++ [l] ∧ (folded l s).jrn.batch ≠ []
    ∧ (folded l s).jrn.waiting = s.jrn.waiting.filter (fun x => x.seq ≠ l.seq) := ⟨rfl, by simp [folded, Journal.skip], rfl⟩

/-- The state after the leaf is folded, the batch closed and its page written where that is due. -/
def leafFolded (l : Leaf) (s : State) : State :=
  if syncNeeds s l.seq then writePages (closeBatch (foldLeaf l s)) else foldLeaf l s

theorem closeBatch_point (s : State) : (closeBatch s).jrn.inOrder = s.jrn.inOrder ∧ (closeBatch s).jrn.waiting = s.jrn.waiting := by
  obtain ⟨-, hin, hwait, -⟩ := batchPlaced_placed s
  obtain ⟨-, hpin, hpwait, -⟩ := writePages_batch (batchPlaced s)
  by_cases hstay : (s.jrn.batch = [] || !chainOn s || !roomForEntry 64 s) = true
  · rw [closeBatch_stays hstay]
    exact ⟨rfl, rfl⟩
  · rw [closeBatch_goes hstay]
    split
    · exact ⟨hpin.trans hin, hpwait.trans hwait⟩
    · exact ⟨hin, hwait⟩

theorem foldLeaf_point (l : Leaf) (s : State) :
    (foldLeaf l s).jrn.inOrder = (folded l s).jrn.inOrder ∧ (foldLeaf l s).jrn.waiting = (folded l s).jrn.waiting := by
  obtain ⟨hin, hwait⟩ := closeBatch_point (folded l s)
  obtain ⟨-, hpin, hpwait, -⟩ := writePages_batch (closeBatch (folded l s))
  rw [foldLeaf_eq]
  split
  · exact ⟨hpin.trans hin, hpwait.trans hwait⟩
  · split
    · exact ⟨hin, hwait⟩
    · exact ⟨rfl, rfl⟩

theorem leafFolded_point (l : Leaf) (s : State) :
    (leafFolded l s).jrn.inOrder = (folded l s).jrn.inOrder ∧ (leafFolded l s).jrn.waiting = (folded l s).jrn.waiting := by
  obtain ⟨hin, hwait⟩ := foldLeaf_point l s
  unfold leafFolded
  split
  · obtain ⟨hcin, hcwait⟩ := closeBatch_point (foldLeaf l s)
    obtain ⟨-, hpin, hpwait, -⟩ := writePages_batch (closeBatch (foldLeaf l s))
    exact ⟨hpin.trans (hcin.trans hin), hpwait.trans (hcwait.trans hwait)⟩
  · exact ⟨hin, hwait⟩

theorem batch_written (h : BatchRoom s) (hbatch : s.jrn.batch ≠ []) :
    (writePages (closeBatch s)).jrn.batch = [] ∧ ∃ e ∈ (writePages (closeBatch s)).nv.ring, e.bytes = batchEntry s s.jrn.batch :=
  ⟨(writePages_batch _).1.trans (closeBatch_placed h hbatch).batch, writePages_closeBatch_entry h hbatch⟩

/-! ## The leaf at the in-order point: its three fates -/

theorem folded_entry (l : Leaf) (s : State) : batchEntry (folded l s) (folded l s).jrn.batch = batchEntry s (s.jrn.batch ++ [l]) := rfl

/-- A leaf that nothing waits for, in a batch that is not full. -/
theorem leafFolded_waits (hflag : bit (num l.desc 1 1) 0 = false) (hneeds : syncNeeds s l.seq = false) (hfull : s.jrn.batch.length < 4095) :
    leafFolded l s = folded l s := by
  have hlen : (s.jrn.batch ++ [l]).length = s.jrn.batch.length + 1 := List.length_append
  rw [leafFolded, if_neg (by rw [hneeds]; decide), foldLeaf_eq, if_neg (by rw [hflag]; decide), if_neg (by omega)]

/-- A leaf that nothing waits for, and that fills its batch. -/
theorem leafFolded_full (hflag : bit (num l.desc 1 1) 0 = false) (hneeds : syncNeeds s l.seq = false) (hfull : 4095 ≤ s.jrn.batch.length) :
    leafFolded l s = closeBatch (folded l s) := by
  have hlen : (s.jrn.batch ++ [l]).length = s.jrn.batch.length + 1 := List.length_append
  rw [leafFolded, if_neg (by rw [hneeds]; decide), foldLeaf_eq, if_neg (by rw [hflag]; decide), if_pos (by omega)]

/-- Where the batch has closed, a further closing changes nothing. -/
theorem foldLeaf_closes (h : BatchRoom s) : closeBatch (foldLeaf l s) = writePages (closeBatch (folded l s))
    ∨ closeBatch (foldLeaf l s) = closeBatch (folded l s) := by
  have hroom := folded_room (l := l) h
  obtain ⟨hbatch, hne, -⟩ := folded_batch (l := l) (s := s)
  have hclosed := (closeBatch_placed hroom hne).batch
  rw [foldLeaf_eq]
  split
  · exact .inl (closeBatch_empty ((writePages_batch _).1.trans hclosed))
  · split
    · exact .inr (closeBatch_empty hclosed)
    · exact .inr rfl

/-- A leaf that a page waits for. -/
theorem leafFolded_sync (h : BatchRoom s) (hsync : (bit (num l.desc 1 1) 0 || syncNeeds s l.seq) = true) :
    (leafFolded l s).jrn.batch = [] ∧ ∃ e ∈ (leafFolded l s).nv.ring, e.bytes = batchEntry s (s.jrn.batch ++ [l]) := by
  obtain ⟨-, hne, -⟩ := folded_batch (l := l) (s := s)
  obtain ⟨hbatch, e, he, hbytes⟩ := batch_written (folded_room (l := l) h) hne
  rw [folded_entry] at hbytes
  cases hneeds : syncNeeds s l.seq with
  | true =>
    rw [leafFolded, if_pos hneeds]
    rcases foldLeaf_closes (l := l) h with hw | hw <;> rw [hw]
    · exact ⟨(writePages_batch _).1.trans hbatch, e, writePages_keeps_ring he, hbytes⟩
    · exact ⟨hbatch, e, he, hbytes⟩
  | false =>
    rw [hneeds, Bool.or_false] at hsync
    rw [leafFolded, if_neg (by rw [hneeds]; decide), foldLeaf_eq, if_pos hsync]
    exact ⟨hbatch, e, he, hbytes⟩

theorem leaf_folds (hon : writerOn s = true) (hl : leafAtPoint s.jrn = some l) :
    exec .leafInOrder s = .next (sleepIfDue (settle s (answerSync (leafFolded l s)))) := by
  show execLeafInOrder s = _
  rw [execLeafInOrder, hl]
  show (if _ then _ else _ : Host.Outcome State Fault Refusal) = _
  rw [if_pos hon]
  rfl

theorem leaf_clause (hon : writerOn s = true) (hl : leafAtPoint s.jrn = some l) :
    To .leafInOrder s fun t =>
      (s.jrn.standalone.contains (l.seq + 1) = false → t.jrn.inOrder = l.seq + 1)
        ∧ t.jrn.waiting = s.jrn.waiting.filter (fun x => x.seq ≠ l.seq)
        ∧ ((bit (num l.desc 1 1) 0 || syncNeeds s l.seq) = false → decide (4095 ≤ s.jrn.batch.length) = false →
          t.jrn.batch = s.jrn.batch ++ [l] ∧ t.nv = s.nv)
        ∧ ((bit (num l.desc 1 1) 0 || syncNeeds s l.seq) = false → decide (4095 ≤ s.jrn.batch.length) = true → ringTakes s = true →
            t.jrn.batch = [] ∧ ∃ e ∈ t.jrn.unsealed ++ t.nv.ring, e.bytes = batchEntry s (s.jrn.batch ++ [l]))
        ∧ ((bit (num l.desc 1 1) 0 || syncNeeds s l.seq) = true → ringTakes s = true →
            t.jrn.batch = [] ∧ ∃ e ∈ t.nv.ring, e.bytes = batchEntry s (s.jrn.batch ++ [l])) := by
  have hsame := told_sameRecord s (leafFolded l s)
  obtain ⟨hbatch, hin, hwait, -, hunsealed, -⟩ := hsame.parts
  obtain ⟨hfin, hfwait⟩ := leafFolded_point l s
  obtain ⟨-, hne, hfilter⟩ := folded_batch (l := l) (s := s)
  refine ⟨_, leaf_folds hon hl, fun hnext => hin.trans (hfin.trans (folded_inOrder hnext)), hwait.trans (hfwait.trans hfilter),
    fun hsync hfull => ?_, fun hsync hfull hring => ?_, fun hsync hring => ?_⟩
  · obtain ⟨hflag, hneeds⟩ := Bool.or_eq_false_iff.mp hsync
    have hw := leafFolded_waits hflag hneeds (Nat.lt_of_not_le (of_decide_eq_false hfull))
    exact ⟨hbatch.trans (by rw [hw]; rfl), hsame.nv.trans (by rw [hw]; rfl)⟩
  · obtain ⟨hflag, hneeds⟩ := Bool.or_eq_false_iff.mp hsync
    have hw := leafFolded_full hflag hneeds (of_decide_eq_true hfull)
    have hroom := folded_room (l := l) (batchRoom_of_ringTakes hring)
    rw [hbatch, hunsealed, hsame.nv, hw, ← folded_entry]
    exact ⟨(closeBatch_placed hroom hne).batch, closeBatch_entry hroom hne⟩
  · rw [hbatch, hsame.nv]
    exact leafFolded_sync (batchRoom_of_ringTakes hring) hsync

/-! ## Time-outs, a sealed page and the checkpoint (R254, R265, R280) -/

theorem batchTimeout_clause (hon : writerOn s = true) (hbatch : s.jrn.batch ≠ []) (hring : ringTakes s = true) :
    To .batchTimeout s fun t => t.jrn.batch = [] ∧ t.jrn.nextSeq = s.jrn.nextSeq
      ∧ ∃ e ∈ t.jrn.unsealed ++ t.nv.ring, e.bytes = batchEntry s s.jrn.batch := by
  have hroom := batchRoom_of_ringTakes hring
  have hplaced := closeBatch_placed hroom hbatch
  have hsame := told_sameRecord s (closeBatch s)
  obtain ⟨hb, -, -, hn, hu, -⟩ := hsame.parts
  refine ⟨_, if_pos hon, hb.trans hplaced.batch, hn.trans hplaced.nextSeq, ?_⟩
  rw [hu, hsame.nv]
  exact closeBatch_entry hroom hbatch

/-- The padding of the open page in bytes. -/
theorem pad_pending (j : Journal) : j.pad = { j with pending := j.pending ++ zeros ((248 - j.pending.length % 248) % 248) } := by
  have hlen : j.pending.length ≤ (j.pending.length + 248 - 1) / 248 * 248 := by omega
  have hzeros : (j.pending.length + 248 - 1) / 248 * 248 - j.pending.length = (248 - j.pending.length % 248) % 248 := by omega
  rw [Journal.pad, pagePayload, fit, List.take_of_length_le hlen, hzeros]

theorem pageTimeout_clause (hon : writerOn s = true) : To .pageTimeout s fun t =>
    t = { s with jrn := { s.jrn with pending := s.jrn.pending ++ zeros ((248 - s.jrn.pending.length % 248) % 248) } } := by
  refine ⟨_, if_pos hon, ?_⟩
  rw [pad_pending]

/-- What a sealed page leaves. -/
theorem sealPages_one (hworks : ringWorks s = true) (hfree : 1 ≤ freePages s) :
    (sealPages 1 s).nv.lastPseq = s.nv.lastPseq + 1 ∧ (sealPages 1 s).jrn.pending = s.jrn.pending.drop 248
      ∧ tget (sealPages 1 s).nv.pages ((s.nv.lastPseq + 1) % ringPages) = some (pageOf (s.nv.lastPseq + 1) (s.jrn.pending.take 248))
      ∧ (sealPages 1 s).nv.ring = s.nv.ring ++ s.jrn.unsealed.filter (fun e => decide (e.pageEnd ≤ s.nv.lastPseq + 1))
      ∧ ∀ e ∈ s.jrn.unsealed, e.pageEnd ≤ s.nv.lastPseq + 1 → ∀ q, e.first ≤ q → q ≤ e.last → durableSeq (sealPages 1 s).jrn q = true := by
  have hn : (if ringWorks s then min 1 (freePages s) else 0) = 1 := by rw [if_pos hworks]; omega
  unfold sealPages
  simp only [hn]
  refine ⟨trivial, rfl, ?_, trivial, fun e he hend q hlow hhigh =>
    cover_durable (List.mem_filter.mpr ⟨he, decide_eq_true hend⟩) _ hlow hhigh⟩
  show tget (tset s.nv.pages ((s.nv.lastPseq + 1 + 0) % ringPages) _) _ = _
  rw [Nat.add_zero, tget_tset_self]
  rfl

theorem pageSealed_clause (hon : writerOn s = true) (hlen : 248 ≤ s.jrn.pending.length) (hworks : ringWorks s = true)
    (hfree : 1 ≤ freePages s) :
    To .pageSealed s fun t =>
      t.nv.lastPseq = s.nv.lastPseq + 1 ∧ t.jrn.pending = s.jrn.pending.drop 248
        ∧ tget t.nv.pages ((s.nv.lastPseq + 1) % ringPages) = some (pageOf (s.nv.lastPseq + 1) (s.jrn.pending.take 248))
        ∧ t.nv.ring = s.nv.ring ++ s.jrn.unsealed.filter (fun e => decide (e.pageEnd ≤ s.nv.lastPseq + 1))
        ∧ ∀ e ∈ s.jrn.unsealed, e.pageEnd ≤ s.nv.lastPseq + 1 → ∀ q, e.first ≤ q → q ≤ e.last → durableSeq t.jrn q = true := by
  have hsame := told_sameRecord s (sealPages 1 s)
  obtain ⟨-, -, -, -, -, hpending, hdurable, hcovered⟩ := hsame.parts
  obtain ⟨hlast, hdrop, hpage, hentries, hcover⟩ := sealPages_one hworks hfree
  have hgo : (writerOn s && decide (pagePayload ≤ s.jrn.pending.length)) = true := by
    rw [hon, Bool.true_and]
    exact decide_eq_true hlen
  refine ⟨_, if_pos hgo, ?_⟩
  generalize sealPages 1 s = u at *
  rw [hsame.nv, hpending]
  refine ⟨hlast, hdrop, hpage, hentries, fun e he hend q hlow hhigh => ?_⟩
  have hd := (durableSeq_iff _ _).mp (hcover e he hend q hlow hhigh)
  rw [durableSeq_iff, hdurable, hcovered]
  exact hd

/-- The state with the control record's new half, once a second. -/
def checkpointed (s : State) : State :=
  { s with nv := { s.nv with jctl := AB.update s.nv.jctl (checkpoint s (jctlOf s)) }, sched := { s.sched with ckptAt := some s.opsec } }

theorem jctlOf_counted (src fn n : Nat) (u : State) : jctlOf (count src fn n u) = jctlOf u := rfl

theorem jctlOf_checkpointed (s : State) : jctlOf (checkpointed s) = checkpoint s (jctlOf s) := AB.value_update ..

theorem checkpoint_clause (hon : writerOn s = true) (hworks : ringWorks s = true) (hdue : s.sched.ckptAt ≠ some s.opsec) :
    To .journalCheckpoint s fun t =>
      jctlOf t = { jctlOf s with
          ckPos := s.nv.entryNo + s.nv.ring.length, ckPseq := s.nv.lastPseq, ckChain := chainBefore s s.nv.ring.length }
        ∧ t = { s with nv := { s.nv with jctl := t.nv.jctl }, sched := { s.sched with ckptAt := some s.opsec }, pmon := t.pmon } := by
  have hgo : (writerOn s && ringWorks s && s.sched.ckptAt != some s.opsec) = true := by simp [hon, hworks, hdue]
  refine ⟨count 0x44 0 1 (checkpointed s), if_pos hgo, ?_, rfl⟩
  rw [jctlOf_counted, jctlOf_checkpointed, checkpoint]

theorem checkpoint_rests (hdone : s.sched.ckptAt = some s.opsec) : exec .journalCheckpoint s = .next s :=
  if_neg (by simp [hdone])

end

/-- Settles O53, clause by clause: what follows the writer's step changes neither the ring nor the batch, so that each clause is
about `foldLeaf`, `closeBatch`, `sealPages` and the control record. -/
theorem leavesFoldInSeqOrder : Obligations.LeavesFoldInSeqOrder := by
  unfold Obligations.LeavesFoldInSeqOrder
  intro s hon
  exact ⟨fun _ hl => leaf_clause hon hl, batchTimeout_clause hon, pageTimeout_clause hon, pageSealed_clause hon,
    checkpoint_clause hon, checkpoint_rests⟩

end Sys2Proof.JournalWriter
end

section
/-! # Journal commands: status, query, sync, claimed time, segments exported and reclaimed (O55) -/
namespace Sys2Proof.JournalCommands
open Sys2Proof Sys2Proof.Machine Sys2Proof.Told Sys2Proof.Replies Sys2Proof.Entries Sys2Proof.Packages Sys2Proof.JournalWriter Sys2Proof.DrawTable

section
variable {r : Req} {s : State}

/-! ## JOURNAL_STATUS and JOURNAL_QUERY (R275, R276) -/

theorem status_does (hq : quiet s = true) (h : accepts 0x0501 r (some 0) s = true) : Does (.journalStatus r) 0x0501 r s (journalBody s) s :=
  does_of_done rfl h rfl hq

/-- The form of a query. -/
structure QueryGood (r : Req) : Prop where
  rsv : fld r 1 3 = 0
  index : fld r 4 4 < 2 ^ 18
  rsvMid : fld r 12 4 = 0
  rsvEnd : fld r 22 2 = 0

theorem query_runs (hgood : QueryGood r) (hmode : fld r 0 1 ≤ 1) : journalQueryRun r s = .done s stOk 0
    (if fld r 0 1 = 0 then queryTag s r.fn (fld r 4 4) (fld r 8 4) (fld r 16 6) else querySeq s r.fn (fld r 16 6)) := by
  obtain ⟨hrsv, hindex, hmid, hend⟩ := hgood
  have hform : firstBad [(decide (1 < fld r 0 1), 16), (fld r 1 3 != 0, 17), (decide (2 ^ 18 ≤ fld r 4 4), 20), (fld r 12 4 != 0, 28),
      (fld r 22 2 != 0, 38)] = none := by
    refine Monitors.firstBad_of_good ?_
    simp only [List.mem_cons, List.not_mem_nil, or_false, forall_eq_or_imp, forall_eq, decide_eq_false_iff_not, bne_eq_false_iff_eq]
    omega
  unfold journalQueryRun
  rw [hform]

/-- FOUND of a record. -/
theorem queryBody_found (l : Leaf) (n : Nat) : queryBody s (foundIn s l) n (some l)
    = le 1 (if s.jrn.cycleFirst ≤ l.seq then 1 else 2) ++ le 1 (b2n (decide (s.jrn.cycleFirst > l.seq) || durableSeq s.jrn l.seq))
      ++ le 2 (min n 65535) ++ zeros 12 ++ fit 64 (l.desc ++ tagBytes l.leaf) := by
  have hdur : (foundIn s l == 2 || durableSeq s.jrn l.seq) = (decide (s.jrn.cycleFirst > l.seq) || durableSeq s.jrn l.seq) := by
    unfold foundIn
    split <;> rename_i hold
    · rw [decide_eq_false (by omega)]
      rfl
    · rw [decide_eq_true (by omega)]
      rfl
  unfold queryBody
  simp only [hdur]
  rfl

/-- The body of a query that finds no record. -/
theorem queryBody_none (found : Nat) : queryBody s found 0 none = le 1 found ++ zeros 79 := by
  have hrest : le 1 (b2n false) ++ (le 2 (min 0 65535) ++ (zeros 12 ++ zeros 64)) = zeros 79 := by decide
  unfold queryBody
  simp only [List.append_assoc]
  rw [hrest]

section
variable (hq : quiet s = true) (h : accepts 0x0502 r (some 24) s = true) (hgood : QueryGood r)
include hq h hgood

/-- A query by SEQ. -/
theorem querySeq_does {body : Bytes} (hmode : fld r 0 1 = 1) (hbody : querySeq s r.fn (fld r 16 6) = body) :
    Does (.journalQuery r) 0x0502 r s body s := by
  refine does_of_done rfl h ?_ hq
  rw [query_runs hgood (by omega), if_neg (by omega), hbody]

/-- A query by queue index and HTAG. -/
theorem queryTag_does {body : Bytes} (hmode : fld r 0 1 = 0) (hbody : queryTag s r.fn (fld r 4 4) (fld r 8 4) (fld r 16 6) = body) :
    Does (.journalQuery r) 0x0502 r s body s := by
  refine does_of_done rfl h ?_ hq
  rw [query_runs hgood (by omega), if_pos hmode, hbody]

end

theorem querySeq_found {f seq : Nat} {l : Leaf} (hl : (heldDetail s.jrn).find? (fun l => l.seq == seq && findable f l) = some l) :
    querySeq s f seq = queryBody s (foundIn s l) 0 (some l) := by
  unfold querySeq
  rw [hl]

theorem querySeq_absent {f seq : Nat} (hl : (heldDetail s.jrn).find? (fun l => l.seq == seq && findable f l) = none) :
    querySeq s f seq = le 1 (if s.work.any fun w => w.inFlight && w.seq == seq && (f == 0 || w.fn == f) then 5
      else if s.jrn.highest < seq then 0 else 3) ++ zeros 79 := by
  unfold querySeq
  rw [hl]
  simp only [queryBody_none]
  split
  · rfl
  · split <;> rfl

theorem queryTag_found {f qix htag floor : Nat} {l : Leaf} (hl : highestLeaf (matching f qix htag floor (heldDetail s.jrn)) = some l) :
    queryTag s f qix htag floor
      = queryBody s (foundIn s l) (matching f qix htag floor (heldDetail s.jrn)).length (some l) := by
  unfold queryTag
  simp only [hl]

theorem queryTag_absent {f qix htag floor : Nat} (hl : matching f qix htag floor (heldDetail s.jrn) = []) :
    queryTag s f qix htag floor = le 1 (if s.work.any fun w => w.inFlight && w.qix == qix && decide (floor < w.seq) then 5
      else if searchComplete s floor then 0 else 4) ++ zeros 79 := by
  have hnone : highestLeaf [] = none := rfl
  unfold queryTag
  simp only [hl, hnone, queryBody_none]
  split <;> rfl

/-! ## JOURNAL_SYNC and JOURNAL_CLAIM_TIME (R277) -/

/-- With the batch closed and the pages written. -/
theorem synced (hring : ringTakes s = true) : (writePages (closeBatch s)).jrn.batch = []
    ∧ (writePages (closeBatch s)).jrn.nextSeq = s.jrn.nextSeq
    ∧ (s.jrn.batch ≠ [] → ∃ e ∈ (writePages (closeBatch s)).nv.ring, e.bytes = batchEntry s s.jrn.batch) := by
  obtain ⟨hb, -, -, hn⟩ := writePages_batch (closeBatch s)
  by_cases hbatch : s.jrn.batch = []
  · rw [closeBatch_empty hbatch] at hb hn ⊢
    exact ⟨hb.trans hbatch, hn, fun hne => absurd hbatch hne⟩
  · have hroom := batchRoom_of_ringTakes hring
    have hplaced := closeBatch_placed hroom hbatch
    exact ⟨hb.trans hplaced.batch, hn.trans hplaced.nextSeq, fun _ => (batch_written hroom hbatch).2⟩

theorem sync_answers (h : accepts 0x0505 r (some 0) s = true) (hring : ringTakes s = true)
    (hdurable : s.jrn.nextSeq - 1 ≤ (writePages (closeBatch s)).jrn.durable) :
    To (.journalSync r) s fun t =>
      Answered 0x0505 r stOk 0 (le 6 t.jrn.durable ++ zeros 2) t ∧ s.jrn.nextSeq - 1 ≤ t.jrn.durable ∧ t.jrn.batch = []
        ∧ t.jrn.nextSeq = s.jrn.nextSeq := by
  obtain ⟨hbatch, hnext, -⟩ := synced hring
  have hrun : journalSyncRun s = .done (writePages (closeBatch s)) stOk 0 (syncBody (writePages (closeBatch s))) := if_pos hdurable
  refine to_of_answer rfl h hrun fun t ht ha => ?_
  generalize writePages (closeBatch s) = u at *
  have hsame : SameRecord u t := by
    rw [ht]
    exact sameRecord_trans (t := respond 0x0505 r stOk 0 (syncBody u) u) ⟨respond_nv .., by rw [respond_jrn]⟩ (settle_sameRecord ..)
  obtain ⟨hb, -, -, hn, -, -, hd, -⟩ := hsame.parts
  rw [hb, hn, hd]
  exact ⟨ha, hdurable, hbatch, hnext⟩

theorem sync_waits (h : accepts 0x0505 r (some 0) s = true) (hring : ringTakes s = true)
    (hdurable : (writePages (closeBatch s)).jrn.durable < s.jrn.nextSeq - 1) :
    To (.journalSync r) s fun t =>
      Waits 0x0505 r (s.jrn.nextSeq - 1) t ∧ t.jrn.batch = [] ∧ t.jrn.nextSeq = s.jrn.nextSeq
        ∧ (s.jrn.batch ≠ [] → ∃ e ∈ t.nv.ring, e.bytes = batchEntry s s.jrn.batch) := by
  obtain ⟨hbatch, hnext, hentry⟩ := synced hring
  have hrun : journalSyncRun s = .wait (writePages (closeBatch s)) (s.jrn.nextSeq - 1) [] := if_neg (Nat.not_le.mpr hdurable)
  refine to_of_waiting rfl h hrun fun t ht hw => ?_
  generalize writePages (closeBatch s) = u at *
  have hsame : SameRecord u t := by
    rw [ht]
    exact sameRecord_trans (t := waiting 0x0505 r (s.jrn.nextSeq - 1) [] u) ⟨rfl, rfl⟩ (settle_sameRecord ..)
  obtain ⟨hb, -, -, hn, -⟩ := hsame.parts
  rw [hb, hn, hsame.nv]
  exact ⟨hw, hbatch, hnext, hentry⟩

/-- A command of fixed length that is taken has it. -/
theorem length_of_accepts {op n : Nat} (h : accepts op r (some n) s = true) : r.body.length = n := by
  have hnone := admission_of_accepts h
  by_contra hne
  unfold admission at hnone
  simp only [hne, not_false_eq_true, if_true, ne_eq] at hnone
  split at hnone
  · cases hnone
  · split at hnone
    · cases hnone
    · split at hnone
      · cases hnone
      · split at hnone <;> cases hnone

theorem claim_journals (h : accepts 0x0506 r (some 16) s = true) (hentry : entryRefusal false s = none) (hring : ringTakes s = true) :
    To (.journalClaimTime r) s fun t =>
      Journalled 0x04 r.body s t ∧ Answered 0x0506 r stOk 0 (le 6 s.jrn.nextSeq ++ zeros 2) t := by
  have hrun : journalClaimRun r s = .done (journalEntry 0x04 true r.body s) stOk 0 (le 6 (entrySeq s) ++ zeros 2) := by
    unfold journalClaimRun
    rw [hentry]
  rw [entrySeq_of_ringTakes hring] at hrun
  refine to_of_answer rfl h hrun fun t ht ha => ⟨?_, ha⟩
  rw [ht]
  exact journalled_congr rfl (by rw [settle_nextSeq, respond_jrn]) (by rw [settle_nv, respond_nv])
    (journalEntry_journalled 0x04 true r.body s (by decide) (by rw [length_of_accepts h]; decide) hring)

/-! ## JOURNAL_RECLAIM (R274) -/

/-- What writing the pages appends to the ring rests on nothing that the ring holds. -/
theorem writePages_split (u : State) :
    (writePages u).nv.ring = u.nv.ring ++ (writePages { u with nv := { u.nv with ring := [] } }).nv.ring := by
  unfold writePages
  simp only []
  rw [sealPages_ring, sealPages_ring]
  rfl

/-- The entry just formed stands among those that its forming appends to the ring. -/
theorem journalEntry_appends (type : Nat) (claimed : Bool) {body : Bytes} (ht : type < 256) (hb : body.length ≤ 2024)
    (hring : ringTakes s = true) : ∃ l, (journalEntry type claimed body s).nv.ring = s.nv.ring ++ l
      ∧ ∃ e ∈ l, e.first = s.jrn.nextSeq ∧ e.last = s.jrn.nextSeq ∧ num e.bytes 0 1 = type ∧ slice e.bytes 16 body.length = body := by
  obtain ⟨hgo, hfree⟩ := ringTakes_parts hring
  obtain ⟨x, hx⟩ := makeRoom_ring 2040 s
  have hnext := makeRoom_nextSeq 2040 s
  have hparts : ringWorks (makeRoom 2040 s) = true ∧ (makeRoom 2040 s).jrn.pending.length + 2040 ≤ pendingCap := by
    rw [ringWorks_makeRoom]
    simp only [entriesStop, Bool.or_eq_false_iff, Bool.not_eq_false', roomForEntry, decide_eq_true_eq] at hgo
    exact ⟨hgo.1.2, hgo.2⟩
  have hlen := entryBytes_len s type claimed s.jrn.nextSeq hb
  have hpos := length_entryBytes s type claimed s.jrn.nextSeq body
  have htype := entryBytes_type s claimed s.jrn.nextSeq body ht
  have hbody := entryBytes_body s type claimed s.jrn.nextSeq body
  rw [journalEntry, if_neg (by rw [hgo]; decide)]
  simp only []
  generalize entryBytes s type claimed s.jrn.nextSeq body = b at *
  generalize makeRoom 2040 s = m at *
  have hworks := (ringWorks_takeSeq m).trans hparts.1
  have hpages := hfree.trans_eq (freePages_takeSeq m).symm
  have hpending : (takeSeq m).jrn.pending = m.jrn.pending := by rw [takeSeq_jrn]
  have hseq : (takeSeq m).nv.ring = s.nv.ring ++ x := by rw [takeSeq_nv]; exact hx
  rw [← hpending] at hparts
  generalize takeSeq m = u at *
  obtain ⟨e, he, hbytes, hfirst, hlast⟩ := writePages_takes { u with nv := { u.nv with ring := [] } }
    { u.jrn with standalone := u.jrn.standalone ++ [s.jrn.nextSeq] } b s.jrn.nextSeq s.jrn.nextSeq hpos hworks (by
      show u.jrn.pending.length + b.length ≤ pendingCap
      omega) hpages
  refine ⟨x ++ _, ?_, e, List.mem_append_right _ he, hfirst, hlast, hbytes ▸ htype, hbytes ▸ hbody⟩
  rw [← List.append_assoc, ← hseq]
  exact writePages_split _

/-- Forming an entry leaves the held segment. -/
theorem journalEntry_seg (type : Nat) (claimed : Bool) (body : Bytes) (s : State) : (journalEntry type claimed body s).jrn.seg = s.jrn.seg := by
  have hroom : (makeRoom 2040 s).jrn.seg = s.jrn.seg := by
    unfold makeRoom
    split <;> rfl
  by_cases hstop : entriesStop s = true
  · rw [journalEntry, if_pos hstop]
  · rw [journalEntry, if_neg hstop]
    simp only []
    generalize entryBytes s type claimed s.jrn.nextSeq body = b
    generalize makeRoom 2040 s = m at *
    have htaken : (takeSeq m).jrn.seg = s.jrn.seg := by rw [takeSeq_jrn]; exact hroom
    generalize takeSeq m = u at *
    unfold writePages sealPages Journal.cover Journal.pad Journal.skip Journal.place
    exact htaken

/-- The entries up to the segment's last are given back, and the control record is renewed. -/
def givenBack (page n : Nat) (u : State) : State :=
  retireDraws { u with nv := { u.nv with
    jctl := AB.update u.nv.jctl (checkpoint u { (jctlOf u) with init := true, reclaimed := page, oldChain := chainBefore u n })
    ring := u.nv.ring.drop n, entryNo := u.nv.entryNo + n, oldestPseq := max u.nv.oldestPseq (page - 1) } }

theorem givenBack_keeps (page n : Nat) (u : State) : (givenBack page n u).nv.ring = u.nv.ring.drop n
    ∧ (givenBack page n u).nv.entryNo = u.nv.entryNo + n ∧ (givenBack page n u).jrn = u.jrn
    ∧ (givenBack page n u).nv.jctl
      = AB.update u.nv.jctl (checkpoint u { (jctlOf u) with init := true, reclaimed := page, oldChain := chainBefore u n }) := by
  unfold givenBack retireDraws
  exact ⟨rfl, rfl, rfl, rfl⟩

theorem givenBack_chain (page n : Nat) (u : State) : (jctlOf (givenBack page n u)).oldChain = chainBefore u n := by
  rw [jctlOf, (givenBack_keeps page n u).2.2.2, AB.value_update, checkpoint]

theorem reclaim_eq (g : Segment) (n : Nat) (s : State) : reclaim g n s
    = givenBack (keepPage s n) n (journalEntry 0x06 false (le 6 g.last ++ zeros 2 ++ h384 g.digest) s) := by
  unfold reclaim givenBack
  rfl

/-- The chain before an entry that the ring holds already. -/
theorem chainBefore_journalEntry {n : Nat} (hn : n ≤ s.nv.ring.length) (type : Nat) (claimed : Bool) (body : Bytes) :
    chainBefore (journalEntry type claimed body s) n = chainBefore s n := by
  obtain ⟨l, hl⟩ := Machine.journalEntry_ring type claimed body s
  have hctl : (journalEntry type claimed body s).nv.jctl = s.nv.jctl := by rw [journalEntry_nv]
  rw [chainBefore, chainBefore, jctlOf, jctlOf, hctl, hl, List.take_append_of_le_length hn]

/-- A reclaim that is executed. -/
theorem reclaim_runs {g : Segment} (hseg : s.jrn.seg = some g) (hno : g.no = fld r 0 4) (hdigest : h384 g.digest = slice r.body 8 48)
    (hrsv : fld r 4 4 = 0) (hpos : g.pos ≤ s.nv.entryNo) (hentry : entryRefusal true s = none) :
    journalReclaimRun r s = .done (reclaim g (g.pos + g.nEntries - s.nv.entryNo) s) stOk 0
      (le 4 (keepPage s (g.pos + g.nEntries - s.nv.entryNo) - 1 - s.nv.oldestPseq) ++ zeros 4 ++ le 6 (entrySeq s) ++ zeros 2) := by
  unfold journalReclaimRun
  rw [hseg]
  simp only [hno, hdigest, hpos, hrsv, hentry, and_self, if_true, ne_eq, not_true_eq_false, if_false]

theorem reclaim_gives {g : Segment} (h : accepts 0x0504 r (some 56) s = true) (hseg : s.jrn.seg = some g) (hno : g.no = fld r 0 4)
    (hdigest : h384 g.digest = slice r.body 8 48) (hrsv : fld r 4 4 = 0) (hpos : g.pos ≤ s.nv.entryNo)
    (hend : g.pos + g.nEntries ≤ s.nv.entryNo + s.nv.ring.length) (hentry : entryRefusal true s = none) (hring : ringTakes s = true) :
    let n := g.pos + g.nEntries - s.nv.entryNo
    To (.journalReclaim r) s fun t =>
      Journalled 0x06 (le 6 g.last ++ zeros 2 ++ h384 g.digest) s t
        ∧ t.nv.ring.take (s.nv.ring.length - n) = s.nv.ring.drop n ∧ t.nv.entryNo = s.nv.entryNo + n
        ∧ (jctlOf t).oldChain = chainBefore s n ∧ t.jrn.seg = s.jrn.seg
        ∧ Answered 0x0504 r stOk 0
            (le 4 (keepPage s n - 1 - s.nv.oldestPseq) ++ zeros 4 ++ le 6 s.jrn.nextSeq ++ zeros 2) t := by
  intro n
  have hn : n ≤ s.nv.ring.length := by omega
  have hrun := reclaim_runs hseg hno hdigest hrsv hpos hentry
  rw [entrySeq_of_ringTakes hring, reclaim_eq] at hrun
  have hbody : (le 6 g.last ++ zeros 2 ++ h384 g.digest).length ≤ 2024 := by simp
  have hseq := (journalEntry_journalled 0x06 false _ s (by decide) hbody hring).1
  obtain ⟨l, hl, e, he, hentry⟩ := journalEntry_appends 0x06 false (by decide) hbody hring
  have hchain := chainBefore_journalEntry hn 0x06 false (le 6 g.last ++ zeros 2 ++ h384 g.digest)
  have hsegment := journalEntry_seg 0x06 false (le 6 g.last ++ zeros 2 ++ h384 g.digest) s
  have hentryNo : (journalEntry 0x06 false (le 6 g.last ++ zeros 2 ++ h384 g.digest) s).nv.entryNo = s.nv.entryNo := by rw [journalEntry_nv]
  refine to_of_answer rfl h hrun fun t ht ha => ?_
  generalize journalEntry 0x06 false (le 6 g.last ++ zeros 2 ++ h384 g.digest) s = u at *
  obtain ⟨hdrop, hno', hjrn, -⟩ := givenBack_keeps (keepPage s n) n u
  have hback := givenBack_chain (keepPage s n) n u
  change t = settle s (respond _ r _ _ _ (givenBack (keepPage s n) n u)) at ht
  generalize givenBack (keepPage s n) n u = v at *
  have hnv : t.nv = v.nv := by rw [ht, settle_nv, respond_nv]
  have hnext : t.jrn.nextSeq = v.jrn.nextSeq := by rw [ht, settle_nextSeq, respond_jrn]
  have hheld : t.jrn.seg = v.jrn.seg := by
    rw [ht]
    show (respond _ r _ _ _ v).jrn.seg = _
    rw [respond_jrn]
  have hkept : v.nv.ring = s.nv.ring.drop n ++ l := by rw [hdrop, hl, List.drop_append_of_le_length hn]
  refine ⟨⟨by rw [hnext, hjrn]; exact hseq, e, ?_, hentry⟩, ?_, ?_, ?_, ?_, ha⟩
  · rw [hnv, hkept]
    exact List.mem_append_right _ he
  · rw [hnv, hkept, List.take_left' List.length_drop]
  · rw [hnv, hno', hentryNo]
  · rw [jctlOf, hnv]
    exact hback.trans hchain
  · rw [hheld, hjrn, hsegment]

theorem reclaim_refuses {g : Segment} (hq : quiet s = true) (h : accepts 0x0504 r (some 56) s = true) (hseg : s.jrn.seg = some g)
    (hother : g.no ≠ fld r 0 4 ∨ h384 g.digest ≠ slice r.body 8 48) :
    To (.journalReclaim r) s fun t => Answered 0x0504 r stMalformed 16 [] t ∧ Responded r s t := by
  refine answers_of_done rfl h ?_ hq
  unfold journalReclaimRun
  rw [hseg]
  exact if_neg fun hsame => hother.elim (absurd hsame.1) (absurd hsame.2.1)

/-! ## JOURNAL_EXPORT: what a segment gathers (R272, R273) -/

/-- What is gathered grows by `e`, and takes no detail where none is asked for. -/
structure Grows (want : Bool) (e : Entry) (g g' : Gather) : Prop where
  ents : g'.ents = g.ents ++ [e]
  plain : want = false → g'.detail = g.detail ∧ g'.gap = g.gap

/-- The next entry without detail has no room. -/
def Overfull (max : Nat) (e : Entry) (g : Gather) : Prop := ∀ gap b, ¬ (Gather.mk (g.ents ++ [e]) g.detail gap b).size ≤ max

/-- A step of the gathering stops there, for want of room where no batch has come yet, or goes on with one entry more. -/
theorem gather_step (max : Nat) (want : Bool) (e : Entry) (es : List Entry) (g : Gather) :
    (gather s max want (e :: es) g = g ∧ (g.batches = 0 → Overfull max e g))
      ∨ ∃ g', Grows want e g g' ∧ gather s max want (e :: es) g = gather s max want es g' := by
  rw [gather]
  simp only []
  split
  · split
    · rename_i hwant
      have hgrows : ∀ d b gap, Grows want e g ⟨g.ents ++ [e], d, gap, b⟩ := fun d b gap =>
        ⟨rfl, fun hno => absurd hwant (by rw [hno]; decide)⟩
      split
      · split
        · exact .inr ⟨_, hgrows .., rfl⟩
        · split
          · exact .inr ⟨_, hgrows .., rfl⟩
          · rename_i hfirst
            refine .inl ⟨rfl, fun hnone gap b hroom => hfirst ?_⟩
            rw [hnone]
            exact Bool.and_eq_true_iff.mpr ⟨rfl, decide_eq_true hroom⟩
      · split
        · exact .inr ⟨_, hgrows .., rfl⟩
        · rename_i hfull
          exact .inl ⟨rfl, fun _ _ _ hroom => hfull hroom⟩
    · rename_i hwant
      have hno : want = false := Bool.eq_false_iff.mpr hwant
      split
      · exact .inr ⟨⟨g.ents ++ [e], g.detail, g.gap || want, g.batches + 1⟩, ⟨rfl, fun _ => ⟨rfl, by rw [hno]; exact Bool.or_false _⟩⟩, rfl⟩
      · rename_i hfull
        exact .inl ⟨rfl, fun _ _ _ hroom => hfull hroom⟩
  · split
    · exact .inr ⟨⟨g.ents ++ [e], g.detail, g.gap, g.batches⟩, ⟨rfl, fun _ => ⟨rfl, rfl⟩⟩, rfl⟩
    · rename_i hfull
      exact .inl ⟨rfl, fun _ _ _ hroom => hfull hroom⟩

/-- What is gathered stays, and without a wish for detail there is none. -/
theorem gather_extends (max : Nat) (want : Bool) : ∀ (es : List Entry) (g : Gather), (∃ l, (gather s max want es g).ents = g.ents ++ l)
    ∧ (want = false → (gather s max want es g).detail = g.detail ∧ (gather s max want es g).gap = g.gap)
  | [], g => ⟨⟨[], (List.append_nil _).symm⟩, fun _ => ⟨rfl, rfl⟩⟩
  | e :: es, g => by
    rcases gather_step (s := s) max want e es g with ⟨hstop, -⟩ | ⟨g', hgrows, hstep⟩
    · rw [hstop]
      exact ⟨⟨[], (List.append_nil _).symm⟩, fun _ => ⟨rfl, rfl⟩⟩
    · obtain ⟨⟨l, hl⟩, hplain⟩ := gather_extends max want es g'
      rw [hstep]
      refine ⟨⟨e :: l, by rw [hl, hgrows.ents, List.append_assoc]; rfl⟩, fun hno => ?_⟩
      obtain ⟨hdetail, hgap⟩ := hplain hno
      obtain ⟨hdetail', hgap'⟩ := hgrows.plain hno
      exact ⟨hdetail.trans hdetail', hgap.trans hgap'⟩

/-- Bytes of a segment with its first entry. -/
theorem size_single (e : Entry) (gap : Bool) (b : Nat) : (Gather.mk [e] [] gap b).size = 160 + e.bytes.length + 3405 := by
  simp [Gather.size]

/-- A first entry that fits heads what is gathered. -/
theorem gather_first {max : Nat} {e : Entry} (hfits : 160 + e.bytes.length + 3405 ≤ max) (want : Bool) (es : List Entry) :
    ∃ l, (gather s max want (e :: es) ⟨[], [], false, 0⟩).ents = e :: l := by
  rcases gather_step (s := s) max want e es ⟨[], [], false, 0⟩ with ⟨-, hfull⟩ | ⟨g', hgrows, hstep⟩
  · exact absurd ((size_single e false 0).trans_le hfits) (hfull rfl false 0)
  · obtain ⟨⟨l, hl⟩, -⟩ := gather_extends (s := s) max want es g'
    exact ⟨l, by rw [hstep, hl, hgrows.ents]; rfl⟩

/-! ## JOURNAL_EXPORT: the bytes of a segment -/

/-- A segment's header (R272). -/
def segHead (s : State) (k no : Nat) (want : Bool) (g : Gather) : Bytes :=
  le 4 0x584A4C46 ++ le 2 1 ++ le 2 (b2n s.keys.testRoot + 2 * b2n want + 4 * b2n g.gap) ++ le 4 no
    ++ le 4 ((g.ents.map (·.bytes)).flatten).length
    ++ unitIdBytes ++ le 6 ((g.ents.head?.map (·.first)).getD 0) ++ zeros 2 ++ le 6 ((g.ents.getLast?.map (·.last)).getD 0)
    ++ zeros 2 ++ le 4 g.detail.length ++ le 4 0xFFFFFF04 ++ h384 (chainBefore s k) ++ h384 (chainOver (chainBefore s k) g.ents)
    ++ le 5 s.opsec ++ zeros 3

theorem length_segHead (s : State) (k no : Nat) (want : Bool) (g : Gather) : (segHead s k no want g).length = 160 := by
  simp [segHead, unitIdBytes]

theorem segBody_eq (s : State) (k no : Nat) (want : Bool) (g : Gather) : segBody s k no want g
    = segHead s k no want g ++ (g.ents.map (·.bytes)).flatten ++ (g.detail.map Leaf.detail).flatten := rfl

/-- The first entry's bytes follow the header. -/
theorem segBody_first (s : State) (k no : Nat) (want : Bool) {g : Gather} {e : Entry} {l : List Entry} (hents : g.ents = e :: l) (sig : Bytes) :
    slice (segBody s k no want g ++ sig) 160 e.bytes.length = e.bytes := by
  rw [segBody_eq, slice, ← length_segHead s k no want g, hents, List.map_cons, List.flatten_cons]
  simp only [List.append_assoc, List.drop_left, List.take_left]

/-! ## JOURNAL_EXPORT: the segment is built (R273) -/

/-- What the segment that starts at entry `k` gathers. -/
def gathered (r : Req) (k : Nat) (s : State) : Gather :=
  gather s (fld r 8 4) (bit (fld r 12 4) 1) (s.nv.ring.drop k) ⟨[], [], false, 0⟩

/-- SEG's bytes that are signed. -/
def segmentBody (r : Req) (k : Nat) (s : State) : Bytes := segBody s k (s.jrn.segNo + 1) (bit (fld r 12 4) 1) (gathered r k s)

/-- The segment that starts at entry `k`. -/
def segmentOf (r : Req) (k : Nat) (s : State) : Segment :=
  { no := s.jrn.segNo + 1
    bytes := segmentBody r k s ++ ((journalPair s).map fun p => hybridSign p (segmentBody r k s) s.free).getD []
    first := ((gathered r k s).ents.head?.map (·.first)).getD 0
    last := ((gathered r k s).ents.getLast?.map (·.last)).getD 0, nEntries := (gathered r k s).ents.length, pos := s.nv.entryNo + k
    digest := sha384 (segmentBody r k s) }

/-- The journal writer holds the segment. -/
def segmentKept (g : Segment) (s : State) : State :=
  { s with jrn := { s.jrn with seg := some g, segNo := s.jrn.segNo + 1, exported := g.last, exportPos := some (g.pos + g.nEntries) } }

/-- The segment is signed and held. -/
def segmentHeld (g : Segment) (s : State) : State := signed (segmentKept g s)

/-- The flags of the segment. -/
def exportFlags (r : Req) (k : Nat) (s : State) : Nat := b2n s.keys.testRoot + 2 * b2n (bit (fld r 12 4) 1) + 4 * b2n (gathered r k s).gap

theorem build_empty {k : Nat} (hend : s.nv.ring.drop k = []) : buildSegment r k s = .done s stOk 0 (zeros 80) := by
  unfold buildSegment
  rw [hend]
  exact if_pos rfl

theorem build_signs {k : Nat} (hents : (gathered r k s).ents ≠ []) (hpke : pkeUp s = true) (hpair : (journalPair s).isSome = true) :
    buildSegment r k s = if bit (fld r 12 4) 0 then
        if (dmaWrite r (fld r 16 8) (segmentOf r k s).bytes (segmentHeld (segmentOf r k s) s)).1 then
          .done (dmaWrite r (fld r 16 8) (segmentOf r k s).bytes (segmentHeld (segmentOf r k s) s)).2 stOk 0
            (exportBody (segmentOf r k s) (gathered r k s).detail.length (exportFlags r k s))
        else .refuse (dmaWrite r (fld r 16 8) (segmentOf r k s).bytes (segmentHeld (segmentOf r k s) s)).2
          (dmaStatus r true (fld r 16 8) (segmentOf r k s).bytes.length (segmentHeld (segmentOf r k s) s)) 0
      else .done (segmentHeld (segmentOf r k s) s) stOk 0
        (exportBody (segmentOf r k s) (gathered r k s).detail.length (exportFlags r k s)) := by
  have hkeys : ¬ (!pkeUp s || (journalPair s).isNone) = true := by
    rw [hpke, Bool.not_true, Bool.false_or, Option.isNone_iff_eq_none, Option.isSome_iff_ne_none.mp hpair |> eq_false]
    exact not_false
  show (if (gathered r k s).ents = [] then _ else _) = _
  rw [if_neg hents]
  show (if _ then _ else _ : Reply) = _
  rw [if_neg hkeys]
  rfl

/-- Signing and holding touch the PKE core, the counts and the journal writer's own record of the segment. -/
theorem segmentHeld_only (g : Segment) (s : State) : ∃ ps d, segmentHeld g s = { segmentKept g s with
    pkes := ps, pwr := { s.pwr with domains := d }, pmon := s.pmon.count 0x70 0 1, free := s.free + 1 } := by
  obtain ⟨ps, d, hused⟩ := KeyCommands.usedPke_only (count 0x70 0 1 (drew (segmentKept g s)))
  exact ⟨ps, d, hused⟩

theorem quiet_segmentKept (g : Segment) (s : State) : quiet (segmentKept g s) = quiet s := rfl

theorem quiet_segmentHeld (g : Segment) (s : State) : quiet (segmentHeld g s) = quiet s := by
  obtain ⟨ps, d, honly⟩ := segmentHeld_only g s
  rw [honly, ← quiet_segmentKept g s]
  exact quiet_congr rfl rfl rfl

theorem segmentHeld_keeps (g : Segment) (s : State) : (segmentHeld g s).nv = s.nv ∧ (segmentHeld g s).jrn = (segmentKept g s).jrn
    ∧ (segmentHeld g s).fns = s.fns ∧ (segmentHeld g s).gates = s.gates ∧ (segmentHeld g s).out = s.out := by
  obtain ⟨ps, d, honly⟩ := segmentHeld_only g s
  rw [honly]
  exact ⟨rfl, rfl, rfl, rfl, rfl⟩

/-- A write that the function may make and the gate lets through. -/
theorem dmaWrite_goes {addr : Nat} {b : Bytes} {u : State} (hbme : (fnOf u r.fn).bme = true) (hgate : dmaFault r true addr b.length u = none) :
    dmaWrite r addr b u = (true, hostWrite r.fn addr b u) := by
  unfold dmaWrite
  rw [hbme, hgate]
  rfl

theorem dmaWrite_keeps (r : Req) (addr : Nat) (b : Bytes) (u : State) :
    (dmaWrite r addr b u).2.nv = u.nv ∧ (dmaWrite r addr b u).2.jrn = u.jrn := by
  unfold dmaWrite
  split
  · exact ⟨rfl, rfl⟩
  · split
    · exact ⟨gateFault_nv .., gateFault_jrn ..⟩
    · exact ⟨rfl, rfl⟩

/-- What is written into host memory rests on the functions alone. -/
theorem hostWrite_out {u v : State} (hfns : u.fns = v.fns) (hout : u.out = v.out) (fn addr : Nat) (b : Bytes) :
    (hostWrite fn addr b u).out = (hostWrite fn addr b v).out := by
  unfold hostWrite maxPayload fnOf
  rw [hfns, hout]

theorem respond_sent (op status detail : Nat) (body : Bytes) (u : State) : NopCompletion.Sent u (respond op r status detail body u) := by
  unfold respond
  simp only []
  split
  · split
    · exact NopCompletion.message_out ..
    · exact ⟨[], (List.append_nil _).symm⟩
  · exact ⟨[], (List.append_nil _).symm⟩
  · exact ⟨[], (List.append_nil _).symm⟩

/-- The answer of a command is sent after what its own steps have sent. -/
theorem answer_sent {op status detail : Nat} {body : Bytes} {u : State} (hq : quiet u = true) :
    NopCompletion.Sent u (settle s (respond op r status detail body u)) :=
  NopCompletion.sent_trans (respond_sent op status detail body u) (Tap.settle_sent (by rwa [quiet_respond]) s)

/-! ## JOURNAL_EXPORT as a whole -/

/-- Exporting, when it is executed. -/
structure ExportGood (r : Req) (s : State) : Prop where
  form : exportBad s r = none
  path : bit (fld r 12 4) 0 = true → r.path = .pcie

/-- DMA is asked for on PCIe alone. -/
theorem export_path (hgood : ExportGood r s) : (bit (fld r 12 4) 0 && r.path != .pcie) = false := by
  cases hdma : bit (fld r 12 4) 0 with
  | true => simp [hgood.path hdma]
  | false => rfl

theorem export_builds (hgood : ExportGood r s) (hbuild : bit (fld r 12 4) 2 = false) {k : Nat} (hk : exportFrom s (fld r 0 6) = some k) :
    journalExportRun r s = buildSegment r k s := by
  unfold journalExportRun
  simp only [hgood.form, export_path hgood, hbuild, hk, Bool.false_eq_true, if_false]

theorem export_reads (hgood : ExportGood r s) (hread : bit (fld r 12 4) 2 = true) {g : Segment} (hg : s.jrn.seg = some g) :
    journalExportRun r s = readSegment r g.bytes s := by
  unfold journalExportRun
  simp only [hgood.form, export_path hgood, hread, hg, Bool.false_eq_true, if_false, if_true, Option.map_some, Option.getD_some]

theorem export_unsupported (hform : exportBad s r = none) (hdma : bit (fld r 12 4) 0 = true) (hpath : r.path ≠ .pcie) :
    journalExportRun r s = .refuse s stUnsupported 0 := by
  have hno : (bit (fld r 12 4) 0 && r.path != .pcie) = true := by rw [hdma, Bool.true_and]; exact bne_iff_ne.mpr hpath
  unfold journalExportRun
  simp only [hform, hno, if_true]

/-- The form in which the held segment is returned. -/
theorem read_plain (seg : Bytes) (hdma : bit (fld r 12 4) 0 = false) : readSegment r seg s = .done s stOk 0
    (le 4 seg.length ++ le 4 (slice seg (fld r 24 4) (fld r 28 4)).length ++ zeros 8 ++ slice seg (fld r 24 4) (fld r 28 4)) := by
  unfold readSegment
  simp only [hdma, Bool.false_eq_true, if_false]

theorem read_dma (seg : Bytes) (hdma : bit (fld r 12 4) 0 = true) (hbme : (fnOf s r.fn).bme = true)
    (hgate : dmaFault r true (fld r 16 8) (slice seg (fld r 24 4) (fld r 28 4)).length s = none) :
    readSegment r seg s = .done (hostWrite r.fn (fld r 16 8) (slice seg (fld r 24 4) (fld r 28 4)) s) stOk 0
      (le 4 seg.length ++ le 4 (slice seg (fld r 24 4) (fld r 28 4)).length ++ zeros 8) := by
  unfold readSegment
  simp only [hdma, if_true, dmaWrite_goes hbme hgate]

/-- The held segment is written into host memory. -/
theorem read_sends {b body : Bytes} {addr : Nat} (hq : quiet s = true) (h : accepts 0x0503 r (some 32) s = true)
    (hrun : journalExportRun r s = .done (hostWrite r.fn addr b s) stOk 0 body) :
    To (.journalExport r) s fun t => Answered 0x0503 r stOk 0 body t ∧ Responded r s t ∧ ∃ o, t.out = (hostWrite r.fn addr b s).out ++ o := by
  have hquiet : quiet (hostWrite r.fn addr b s) = true := quiet_of_same hq rfl rfl rfl
  refine to_of_answer rfl h hrun fun t ht ha => ⟨ha, ?_, ?_⟩
  · rw [ht]
    have hr := responded_of_notified (responded_respond 0x0503 r stOk 0 body (hostWrite r.fn addr b s))
      (settle_quiet s (by rwa [quiet_respond]))
    exact responded_of_own hr rfl fun _ _ => rfl
  · rw [ht]
    exact answer_sent hquiet

/-- The segment that is built holds what the statement says of it. -/
structure Holds (s : State) (k : Nat) (e : Entry) (g : Segment) (t : State) : Prop where
  seg : t.jrn.seg = some g
  no : g.no = s.jrn.segNo + 1
  segNo : t.jrn.segNo = s.jrn.segNo + 1
  first : g.first = e.first
  pos : g.pos = s.nv.entryNo + k
  bytes : slice g.bytes 160 e.bytes.length = e.bytes
  nv : t.nv = s.nv
  exported : t.jrn.exported = g.last

/-- The state that exporting leaves, with its answer. -/
theorem holds_of_run {k : Nat} {e : Entry} {l : List Entry} {w t : State} {status detail : Nat} {body : Bytes}
    (hents : (gathered r k s).ents = e :: l) (hnv : w.nv = s.nv) (hjrn : w.jrn = (segmentKept (segmentOf r k s) s).jrn)
    (ht : t = settle s (respond 0x0503 r status detail body w)) : Holds s k e (segmentOf r k s) t := by
  have hsame : SameRecord w t := by
    rw [ht]
    exact sameRecord_trans (t := respond 0x0503 r status detail body w) ⟨respond_nv .., by rw [respond_jrn]⟩ (settle_sameRecord ..)
  have hjrn' : { t.jrn with fill := w.jrn.fill } = (segmentKept (segmentOf r k s) s).jrn := hsame.jrn.trans hjrn
  refine ⟨?_, rfl, ?_, ?_, rfl, segBody_first s k _ _ hents _, hsame.nv.trans hnv, ?_⟩
  · exact congrArg Journal.seg hjrn'
  · exact congrArg Journal.segNo hjrn'
  · show ((gathered r k s).ents.head?.map (·.first)).getD 0 = e.first
    rw [hents]
    rfl
  · exact congrArg Journal.exported hjrn'

/-- Without a wish for detail the segment holds none, and no gap is flagged. -/
theorem exportFlags_plain {k : Nat} (hno : bit (fld r 12 4) 1 = false) :
    (gathered r k s).detail.length = 0 ∧ exportFlags r k s = b2n s.keys.testRoot := by
  obtain ⟨hdetail, hgap⟩ := (gather_extends (s := s) (fld r 8 4) (bit (fld r 12 4) 1) (s.nv.ring.drop k) ⟨[], [], false, 0⟩).2 hno
  refine ⟨congrArg List.length hdetail, ?_⟩
  unfold exportFlags
  rw [show (gathered r k s).gap = false from hgap, hno]
  rfl

/-- What a built segment's answer is, with and without DMA. -/
structure Answers (r : Req) (s : State) (g : Segment) (n flags : Nat) (t : State) : Prop where
  plain : bit (fld r 12 4) 0 = false → Answered 0x0503 r stOk 0 (exportBody g n flags) t
  dma : bit (fld r 12 4) 0 = true → (fnOf s r.fn).bme = true → dmaFault r true (fld r 16 8) g.bytes.length s = none →
    Answered 0x0503 r stOk 0 (exportBody g n flags) t ∧ ∃ o, t.out = (hostWrite r.fn (fld r 16 8) g.bytes s).out ++ o

theorem export_segment {k : Nat} {e : Entry} {rest : List Entry} (hq : quiet s = true) (h : accepts 0x0503 r (some 32) s = true)
    (hgood : ExportGood r s) (hbuild : bit (fld r 12 4) 2 = false) (hk : exportFrom s (fld r 0 6) = some k)
    (hrest : s.nv.ring.drop k = e :: rest) (hfits : 160 + e.bytes.length + 3405 ≤ fld r 8 4) (hpke : pkeUp s = true)
    (hpair : (journalPair s).isSome = true) :
    To (.journalExport r) s fun t => ∃ (g : Segment) (n flags : Nat), Holds s k e g t
      ∧ (bit (fld r 12 4) 1 = false → n = 0 ∧ flags = b2n s.keys.testRoot) ∧ Answers r s g n flags t := by
  obtain ⟨l, hl⟩ := gather_first (s := s) hfits (bit (fld r 12 4) 1) rest
  have hents : (gathered r k s).ents = e :: l := by rw [gathered, hrest, hl]
  have hrun := (export_builds hgood hbuild hk).trans (build_signs (by rw [hents]; exact List.cons_ne_nil _ _) hpke hpair)
  obtain ⟨hnv, hjrn, hfns, hgates, hout⟩ := segmentHeld_keeps (segmentOf r k s) s
  have hquiet := (quiet_segmentHeld (segmentOf r k s) s).trans hq
  have hflags := exportFlags_plain (r := r) (s := s) (k := k)
  have hheld := fun (w t : State) status detail body => holds_of_run (w := w) (t := t) (status := status) (detail := detail) (body := body) hents
  generalize segmentOf r k s = g at *
  generalize (gathered r k s).detail.length = n at *
  generalize exportFlags r k s = flags at *
  generalize segmentHeld g s = v at *
  have hbme : (fnOf v r.fn).bme = (fnOf s r.fn).bme := by rw [fnOf, hfns, fnOf]
  have hgate : dmaFault r true (fld r 16 8) g.bytes.length v = dmaFault r true (fld r 16 8) g.bytes.length s := by
    rw [dmaFault, hgates, dmaFault]
  cases hdma : bit (fld r 12 4) 0 with
  | false =>
    rw [if_neg (by rw [hdma]; decide)] at hrun
    exact to_of_answer rfl h hrun fun t ht ha => ⟨g, n, flags, hheld _ _ _ _ _ hnv hjrn ht, hflags,
      fun _ => ha, fun hyes => absurd hyes (by rw [hdma]; decide)⟩
  | true =>
    rw [if_pos hdma] at hrun
    have hplain : bit (fld r 12 4) 0 = false → ∀ P : Prop, P := fun hno => absurd hno (by rw [hdma]; decide)
    obtain ⟨hwnv, hwjrn⟩ := dmaWrite_keeps r (fld r 16 8) g.bytes v
    by_cases hgo : (fnOf s r.fn).bme = true ∧ dmaFault r true (fld r 16 8) g.bytes.length s = none
    · obtain ⟨hmaster, hfault⟩ := hgo
      have hwrite := dmaWrite_goes (b := g.bytes) (hbme.trans hmaster) (hgate.trans hfault)
      rw [hwrite] at hrun hwnv hwjrn
      rw [if_pos rfl] at hrun
      refine to_of_answer rfl h hrun fun t ht ha => ⟨g, n, flags, hheld _ _ _ _ _ (hwnv.trans hnv) (hwjrn.trans hjrn) ht, hflags,
        fun hno => hplain hno _, fun _ _ _ => ⟨ha, ?_⟩⟩
      rw [ht, ← hostWrite_out hfns hout]
      exact answer_sent (quiet_of_same hquiet rfl rfl rfl)
    · have hanswers : ∀ t, Answers r s g n flags t := fun t => ⟨fun hno => hplain hno _, fun _ hmaster hfault => absurd ⟨hmaster, hfault⟩ hgo⟩
      split at hrun
      · exact to_of_answer rfl h hrun fun t ht _ =>
          ⟨g, n, flags, hheld _ _ _ _ _ (hwnv.trans hnv) (hwjrn.trans hjrn) ht, hflags, hanswers t⟩
      · exact to_of_answer rfl h hrun fun t ht _ =>
          ⟨g, n, flags, hheld _ _ _ _ _ (hwnv.trans hnv) (hwjrn.trans hjrn) ht, hflags, hanswers t⟩

end

/-! ## The obligation -/

theorem query_clause {r : Req} {s : State} (hq : quiet s = true) (h : accepts 0x0502 r (some 24) s = true) (hgood : QueryGood r) :
    let dur := fun l : Leaf => b2n (decide (s.jrn.cycleFirst > l.seq) || durableSeq s.jrn l.seq)
    let found := fun (l : Leaf) => if s.jrn.cycleFirst ≤ l.seq then 1 else 2
    (fld r 0 1 = 1 →
      (∀ l : Leaf, (heldDetail s.jrn).find? (fun l => l.seq == fld r 16 6 && findable r.fn l) = some l →
        Does (.journalQuery r) 0x0502 r s (le 1 (found l) ++ le 1 (dur l) ++ le 2 0 ++ zeros 12 ++ fit 64 (l.desc ++ tagBytes l.leaf)) s)
      ∧ ((heldDetail s.jrn).find? (fun l => l.seq == fld r 16 6 && findable r.fn l) = none →
        Does (.journalQuery r) 0x0502 r s
          (le 1 (if s.work.any fun w => w.inFlight && w.seq == fld r 16 6 && (r.fn == 0 || w.fn == r.fn) then 5
            else if s.jrn.highest < fld r 16 6 then 0 else 3) ++ zeros 79) s))
    ∧ (fld r 0 1 = 0 → ∀ hits, hits = matching r.fn (fld r 4 4) (fld r 8 4) (fld r 16 6) (heldDetail s.jrn) →
      (∀ l : Leaf, highestLeaf hits = some l →
        Does (.journalQuery r) 0x0502 r s
          (le 1 (found l) ++ le 1 (dur l) ++ le 2 (min hits.length 65535) ++ zeros 12 ++ fit 64 (l.desc ++ tagBytes l.leaf)) s)
      ∧ (hits = [] →
        Does (.journalQuery r) 0x0502 r s
          (le 1 (if s.work.any fun w => w.inFlight && w.qix == fld r 4 4 && decide (fld r 16 6 < w.seq) then 5
            else if searchComplete s (fld r 16 6) then 0 else 4) ++ zeros 79) s)) := by
  refine ⟨fun hmode => ⟨fun l hl => ?_, fun hnone => ?_⟩, fun hmode hits hhits => ⟨fun l hl => ?_, fun hnone => ?_⟩⟩
  · exact querySeq_does hq h hgood hmode ((querySeq_found hl).trans (queryBody_found l 0))
  · exact querySeq_does hq h hgood hmode (querySeq_absent hnone)
  · subst hhits
    exact queryTag_does hq h hgood hmode ((queryTag_found hl).trans (queryBody_found l _))
  · exact queryTag_does hq h hgood hmode (queryTag_absent (hhits.symm.trans hnone))

/-- Settles O55: a segment begins with the entry asked for, since what is gathered only grows (`gather_extends`) and a first entry that fits is
taken; a RECLAIM entry stands among those that its forming appends (`journalEntry_appends`), so that giving entries back keeps it. -/
theorem journalCommandsAct : Obligations.JournalCommandsAct := by
  unfold Obligations.JournalCommandsAct
  refine ⟨fun r s hq => ⟨status_does hq, fun h hrsv hindex hmid hend => query_clause hq h ⟨hrsv, hindex, hmid, hend⟩,
    fun h hring => ⟨sync_answers h hring, sync_waits h hring⟩, claim_journals⟩,
    fun r s hq => ⟨fun h hform hpath => ?_, fun h hform hdma hpath => ?_, fun h g hg => ⟨?_, reclaim_refuses hq h hg⟩⟩⟩
  · have hgood : ExportGood r s := ⟨hform, hpath⟩
    refine ⟨fun hbuild k e rest hk hrest hfits hpke hpair => ?_, fun hbuild k hk hend => ?_, fun hread g hg b hb => ?_⟩
    · obtain ⟨t, hexec, g, n, flags, hholds, hflags, hanswers⟩ := export_segment hq h hgood hbuild hk hrest hfits hpke hpair
      obtain ⟨hseg, hno, hsegNo, hfirst, hpos, hbytes, hnv, hexported⟩ := hholds
      exact ⟨t, hexec, g, n, flags, hseg, hno, hsegNo, hfirst, hpos, hbytes, hnv, hexported, hflags, hanswers.plain, hanswers.dma⟩
    · exact does_of_done rfl h ((export_builds hgood hbuild hk).trans (build_empty hend)) hq
    · subst hb
      exact ⟨fun hdma => does_of_done rfl h ((export_reads hgood hread hg).trans (read_plain _ hdma)) hq,
        fun hdma hbme hgate => read_sends hq h ((export_reads hgood hread hg).trans (read_dma _ hdma hbme hgate))⟩
  · exact answers_of_done rfl h (export_unsupported hform hdma hpath) hq
  · exact fun hno hdigest hrsv hpos hend hentry hring => reclaim_gives h hg hno hdigest hrsv hpos hend hentry hring

end Sys2Proof.JournalCommands
end

section
/-! # What the lanes compute (O28) -/
namespace Sys2Proof.LaneResults
open Sys2Proof Sys2Proof.Machine

section
variable {seq : Nat} {s : State} {pre post : List Work} {w : Work}

/-- The entry `w` with SEQ `seq`, whose unit is in a slot. -/
structure Held (seq : Nat) (s : State) (pre post : List Work) (w : Work) : Prop where
  work : s.work = pre ++ w :: post
  first : pre.all (fun v => v.seq != seq) = true
  number : w.seq = seq
  issued : seq ≠ 0
  stage : w.stage = .dispatched
  kept : w.revoked = false

/-- Both lanes of the slot deliver status and output, once their buffers have room, and nothing else changes. -/
def Delivers (seq : Nat) (s : State) (pre post : List Work) (w : Work) (p : Slot) (i : Instr) (st : Nat) (out : Bytes) : Prop :=
  ((s.lanes.getD p.l0 {}).out.map (·.out.length)).sum + out.length ≤ 131072 →
    ((s.lanes.getD p.l1 {}).out.map (·.out.length)).sum + out.length ≤ 131072 →
    To i s fun t => ∃ r : UnitResult, r.seq = seq ∧ r.unit = w.unit ∧ r.status = st ∧ r.out = out
      ∧ t = { s with
          lanes := (s.lanes.modify p.l0 (Lane.put r)).modify p.l1 (Lane.put r)
          work := pre ++ { w with stage := .computed } :: post }

theorem inLanes_pre {ops : List Nat} (h : Held seq s pre post w) : ∀ v ∈ pre, inLanes seq ops v = false := fun v hv => by
  have hother : (v.seq == seq) = false := by simpa using List.all_eq_true.mp h.first v hv
  rw [inLanes, hother]
  rfl

theorem inLanes_self {ops : List Nat} (h : Held seq s pre post w) (hop : eOpc w.ent ∈ ops) : inLanes seq ops w = true := by
  simp [inLanes, h.number, h.issued, h.stage, h.kept, hop]

theorem find_of_pre {p : Work → Bool} (hpre : ∀ v ∈ pre, p v = false) (hw : p w = true) : (pre ++ w :: post).find? p = some w := by
  rw [List.find?_append, List.find?_eq_none.mpr fun v hv => by rw [hpre v hv]; decide, Option.none_or, List.find?_cons_of_pos hw]

theorem modFirst_of_pre {p : Work → Bool} {g : Work → Work} (hpre : ∀ v ∈ pre, p v = false) (hw : p w = true) :
    modFirst p g (pre ++ w :: post) = pre ++ g w :: post := by
  induction pre with
  | nil => simp [modFirst, hw]
  | cons v pre ih =>
    obtain ⟨hv, hpre⟩ := List.forall_mem_cons.mp hpre
    simp [modFirst, hv, ih hpre]

/-- The result that the lanes deliver. -/
def resultOf (f : State → Work → UnitResult) (s : State) (w : Work) : UnitResult :=
  if w.pre = 0 then f s w else finished w.pre w.preDetail [] 0 w

/-- A unit's result, delivered by both lanes of its slot (R185, R190). -/
theorem delivers_of {i : Instr} {ops : List Nat} {f : State → Work → UnitResult} {r : UnitResult} (h : Held seq s pre post w)
    (hexec : exec i s = .next (lanesFinish seq ops f s)) (hop : eOpc w.ent ∈ ops) (hr : resultOf f s w = r) (hseq : r.seq = w.seq)
    (hunit : r.unit = w.unit) : Delivers seq s pre post w (s.slots.getD w.slot {}) i r.status r.out := by
  subst hr
  intro h0 h1
  have hpre := inLanes_pre (ops := ops) h
  have hself := inLanes_self h hop
  have hfit : (bufferFits (resultOf f s w) (s.lanes.getD (s.slots.getD w.slot {}).l0 {}) 
      && bufferFits (resultOf f s w) (s.lanes.getD (s.slots.getD w.slot {}).l1 {})) = true :=
    Bool.and_eq_true_iff.mpr ⟨decide_eq_true h0, decide_eq_true h1⟩
  refine ⟨_, hexec, resultOf f s w, hseq.trans h.number, hunit, rfl, rfl, ?_⟩
  rw [lanesFinish, h.work, find_of_pre hpre hself]
  show (if (bufferFits (resultOf f s w) _ && bufferFits (resultOf f s w) _) = true then _ else s) = _
  rw [if_pos hfit, modFirst_of_pre hpre hself]
  rfl

/-- A result that its operation computes. -/
theorem delivers_computed {i : Instr} {ops : List Nat} {f : State → Work → UnitResult} {r : UnitResult} (h : Held seq s pre post w)
    (hpre : w.pre = 0) (hexec : exec i s = .next (lanesFinish seq ops f s)) (hop : eOpc w.ent ∈ ops) (hr : f s w = r)
    (hseq : r.seq = w.seq) (hunit : r.unit = w.unit) {st : Nat} {out : Bytes} (hst : r.status = st) (hout : r.out = out) :
    Delivers seq s pre post w (s.slots.getD w.slot {}) i st out := by
  subst hst hout
  exact delivers_of h hexec hop ((if_pos hpre).trans hr) hseq hunit

/-- A status that the checks at dispatch decided (R156). -/
theorem delivers_decided {i : Instr} {ops : List Nat} {f : State → Work → UnitResult} (h : Held seq s pre post w) (hpre : w.pre ≠ 0)
    (hexec : exec i s = .next (lanesFinish seq ops f s)) (hop : eOpc w.ent ∈ ops) :
    Delivers seq s pre post w (s.slots.getD w.slot {}) i w.pre [] :=
  delivers_of h hexec hop (if_neg hpre) rfl rfl

/-! ## The operations (R160, R167, R168, R172, R247) -/

/-- Without its key an operation answers KEY_ORPHANED (R307). -/
theorem unit_orphaned (hkey : opKey s w = none) : acceptUnit s w = finished stKeyOrphaned 0 [] 0 w
    ∧ sealUnit s w = finished stKeyOrphaned 0 [] 0 w ∧ openUnit s w = finished stKeyOrphaned 0 [] 0 w
    ∧ ∀ dec, xtsUnit dec s w = finished stKeyOrphaned 0 [] 0 w := by
  unfold acceptUnit sealUnit openUnit xtsUnit
  rw [hkey]
  exact ⟨rfl, rfl, rfl, fun _ => rfl⟩

section
variable {kid : Nat} {k : Bytes} (hkey : opKey s w = some (kid, k))
include hkey

theorem accept_result {rk : Bytes} (hreceipt : receiptKeyOf s (queueOf s w.qix) = some rk) :
    let opened := gcmOpen k (slice w.src 16 12) (w.src.take 32) (slice w.src 32 (w.src.length - 48)) (tagAt w.src (w.src.length - 16))
    let body := (w.rs.bind (ruleBody s (queueOf s w.qix).ruleset)).getD []
    (opened = none → acceptUnit s w = finished stAuthFail 0 [] 0 w)
      ∧ (∀ pt, opened = some pt → rulesVerdict w.draws body pt (num w.src 8 8) = none →
        acceptUnit s w = { finished stOk 0 (receipt s w rk pt (w.rs.getD 0) ((drawNamed body pt).getD 0xFFFFFFFF)).1
            (receipt s w rk pt (w.rs.getD 0) ((drawNamed body pt).getD 0xFFFFFFFF)).2 w with
          tseq := some (num w.src 20 8), sold := drawNamed body pt })
      ∧ (∀ pt st det, opened = some pt → rulesVerdict w.draws body pt (num w.src 8 8) = some (st, det) →
        acceptUnit s w = { finished st det [] 0 w with tseq := some (num w.src 20 8) }) := by
  refine ⟨fun ho => ?_, fun pt ho hv => ?_, fun pt st det ho hv => ?_⟩
  · unfold acceptUnit
    simp only [hkey, hreceipt, ho]
  · unfold acceptUnit
    simp only [hkey, hreceipt, ho, hv]
  · unfold acceptUnit
    simp only [hkey, hreceipt, ho, hv]

theorem xts_result (dec : Bool) : xtsUnit dec s w = finished stOk 0 (xts dec k (w.src.take 16) (w.src.drop 16)) 0 w := by
  unfold xtsUnit
  rw [hkey]

theorem seal_result :
    let h := sealHeader s w kid
    let aad := h ++ w.src.take (eAadLen w.ent)
    let pt := w.src.drop (eAadLen w.ent)
    let c := gcmSeal k (nonceBytes w.nonce) aad pt
    let g := gcmPiece false k (nonceBytes w.nonce) (gcmAt k aad w)
      (slice pt (unitFrom w.ent w.unit) (unitTo w.ent w.src w.unit - unitFrom w.ent w.unit))
    (unitsOf w.ent w.src = 1 → sealUnit s w = finished stOk 0 (h ++ c.1 ++ tagBytes c.2) c.2 w)
      ∧ (unitsOf w.ent w.src ≠ 1 → lastUnit w = true → sealUnit s w = finished stOk 0 (((if w.unit = 0 then h else []) ++ g.1)
          ++ tagBytes (gcmEnd k (nonceBytes w.nonce) aad.length (eLen w.ent) g.2)) (gcmEnd k (nonceBytes w.nonce) aad.length (eLen w.ent) g.2) w)
      ∧ (unitsOf w.ent w.src ≠ 1 → lastUnit w = false → sealUnit s w = { finished stOk 0 ((if w.unit = 0 then h else []) ++ g.1) 0 w with
          saved := savedBytes s w (nonceBytes w.nonce) g.2 (unitTo w.ent w.src w.unit) }) := by
  refine ⟨fun hone => ?_, fun hmore hlast => ?_, fun hmore hlast => ?_⟩
  · unfold sealUnit
    simp only [hkey, if_pos hone]
  · unfold sealUnit
    simp only [hkey, if_neg hmore, hlast, if_true]
    rfl
  · unfold sealUnit
    simp only [hkey, if_neg hmore, hlast, Bool.false_eq_true, if_false]
    rfl

/-- The last step of an OPEN, when the verdict of the tag is known (R168, R170, R171). -/
def openEnd (s : State) (w : Work) (tag : BitVec 128) (good : Bool) (pt : Bytes) : UnitResult :=
  if good then finished stOk 0 pt tag w
  else if needsHold s w then finished stAuthFailHeld 0 [] 0 w
  else finished stAuthFail 0 pt 0 w

omit hkey in
theorem openEnd_identity (tag : BitVec 128) (good : Bool) (pt : Bytes) :
    (openEnd s w tag good pt).seq = w.seq ∧ (openEnd s w tag good pt).unit = w.unit := by
  unfold openEnd
  split
  · exact ⟨rfl, rfl⟩
  · split <;> exact ⟨rfl, rfl⟩

theorem open_result :
    let h := slice w.src (eAadLen w.ent) 32
    let iv := slice h 12 12
    let aad := h ++ w.src.take (eAadLen w.ent)
    let ct := slice w.src (eAadLen w.ent + 32) (eLen w.ent)
    let tag := tagAt w.src (eAadLen w.ent + 32 + eLen w.ent)
    let g := gcmPiece true k iv (gcmAt k aad w) (slice ct (unitFrom w.ent w.unit) (unitTo w.ent w.src w.unit - unitFrom w.ent w.unit))
    (num h 24 4 ≠ kid → openUnit s w = finished stAuthFail 0 [] 0 w)
      ∧ (num h 24 4 = kid → unitsOf w.ent w.src = 1 →
        openUnit s w = openEnd s w tag (gcmOpen k iv aad ct tag).isSome (gcmCtr k iv ct))
      ∧ (num h 24 4 = kid → unitsOf w.ent w.src ≠ 1 → lastUnit w = true →
        openUnit s w = openEnd s w tag (gcmEnd k iv aad.length (eLen w.ent) g.2 == tag) g.1)
      ∧ (num h 24 4 = kid → unitsOf w.ent w.src ≠ 1 → lastUnit w = false →
        openUnit s w = { finished stOk 0 g.1 0 w with saved := savedBytes s w iv g.2 (unitTo w.ent w.src w.unit) }) := by
  refine ⟨fun hid => ?_, fun hid hone => ?_, fun hid hmore hlast => ?_, fun hid hmore hlast => ?_⟩
  · unfold openUnit
    simp only [hkey, if_pos hid]
  · unfold openUnit
    simp only [hkey, if_neg (not_not_intro hid), if_pos hone]
    rfl
  · unfold openUnit
    simp only [hkey, if_neg (not_not_intro hid), if_neg hmore, hlast, if_true]
    rfl
  · unfold openUnit
    simp only [hkey, if_neg (not_not_intro hid), if_neg hmore, hlast, Bool.false_eq_true, if_false]
    rfl

end

theorem outcome_result {rk : Bytes} {d : Draw} (hreceipt : receiptKeyOf s (queueOf s w.qix) = some rk)
    (hd : drawOf s (num w.src 4 4) = some d) :
    let body := sealBlock s w 0x0103 0xFFFF 0 (num w.src 4 4) ++ w.src ++ outcomeEntries d w.firstIdx (num w.src 3 1)
    outcomeUnit s w = finished stOk 0 (body ++ tagBytes (gmac rk (nonceBytes w.nonce) body)) (gmac rk (nonceBytes w.nonce) body) w := by
  unfold outcomeUnit
  simp only [hreceipt, hd]

theorem verify_result {rk : Bytes} (hreceipt : receiptKeyOf s (queueOf s w.qix) = some rk) :
    let good := num w.src 28 4 = jkeyId s (queueOf s w.qix) ∧ num w.src 2 2 = sflags s ∧
      (gcmOpen rk (slice w.src 16 12) (w.src.take 76) (slice w.src 76 (w.src.length - 92)) (tagAt w.src (w.src.length - 16))).isSome = true
    (good → verifyUnit s w = finished stOk 0 (verifyResult w.src) (tagAt w.src (w.src.length - 16)) w)
      ∧ (¬good → verifyUnit s w = finished stAuthFail 0 [] 0 w) := by
  refine ⟨fun hgood => ?_, fun hbad => ?_⟩
  · obtain ⟨hkey, hflags, hopens⟩ := hgood
    unfold verifyUnit
    simp only [hreceipt]
    exact if_pos (by rw [hopens, decide_eq_true hkey, hflags]; simp)
  · unfold verifyUnit
    simp only [hreceipt]
    refine if_neg fun hgood => hbad ?_
    simpa [Bool.and_eq_true, and_assoc] using hgood

/-! ## The obligation -/

/-- The instruction of each operation. -/
def laneInstrs (seq : Nat) : List (Nat × Instr) := [(1, .accept seq), (2, .sealMsg seq), (3, .openMsg seq), (4, .xtsEnc seq), (5, .xtsDec seq),
  (6, .outcome seq), (7, .verifyReceipt seq)]

/-- Each operation's instruction lets the lanes of an entry with its opcode finish. -/
theorem laneInstrs_exec {op : Nat} {i : Instr} (hi : (op, i) ∈ laneInstrs seq) (s : State) :
    ∃ f, exec i s = .next (lanesFinish seq [op] f s) := by
  simp only [laneInstrs, List.mem_cons, Prod.mk.injEq, List.not_mem_nil, or_false] at hi
  rcases hi with ⟨rfl, rfl⟩ | ⟨rfl, rfl⟩ | ⟨rfl, rfl⟩ | ⟨rfl, rfl⟩ | ⟨rfl, rfl⟩ | ⟨rfl, rfl⟩ | ⟨rfl, rfl⟩ <;> exact ⟨_, rfl⟩

/-- The operations with a key of their own need it. -/
theorem laneInstrs_orphaned {op : Nat} {i : Instr} (hi : (op, i) ∈ laneInstrs seq) (hop : op < 6) (hkey : opKey s w = none) :
    ∃ f, exec i s = .next (lanesFinish seq [op] f s) ∧ f s w = finished stKeyOrphaned 0 [] 0 w := by
  obtain ⟨haccept, hseal, hopen, hxts⟩ := unit_orphaned hkey
  simp only [laneInstrs, List.mem_cons, Prod.mk.injEq, List.not_mem_nil, or_false] at hi
  rcases hi with ⟨rfl, rfl⟩ | ⟨rfl, rfl⟩ | ⟨rfl, rfl⟩ | ⟨rfl, rfl⟩ | ⟨rfl, rfl⟩ | ⟨rfl, rfl⟩ | ⟨rfl, rfl⟩
  · exact ⟨_, rfl, haccept⟩
  · exact ⟨_, rfl, hseal⟩
  · exact ⟨_, rfl, hopen⟩
  · exact ⟨_, rfl, hxts false⟩
  · exact ⟨_, rfl, hxts true⟩
  · exact absurd hop (by decide)
  · exact absurd hop (by decide)

/-- What opens is the counter mode's plaintext. -/
theorem gcmCtr_of_gcmOpen {k iv aad ct pt : Bytes} {tag : BitVec 128} (h : gcmOpen k iv aad ct tag = some pt) : gcmCtr k iv ct = pt := by
  unfold gcmOpen at h
  unfold gcmCtr
  exact Option.some.inj (Option.ite_none_right_eq_some.mp h).2

theorem mem_of_eOpc {n : Nat} (h : eOpc w.ent = n) : eOpc w.ent ∈ [n] := List.mem_singleton.mpr h

section
variable (h : Held seq s pre post w) (hpre : w.pre = 0)
include h hpre

theorem accept_delivers {kid : Nat} {k rk : Bytes} (hop : eOpc w.ent = 1) (hkey : opKey s w = some (kid, k))
    (hreceipt : receiptKeyOf s (queueOf s w.qix) = some rk) :
    let done := Delivers seq s pre post w (s.slots.getD w.slot {})
    let opened := gcmOpen k (slice w.src 16 12) (w.src.take 32) (slice w.src 32 (w.src.length - 48)) (tagAt w.src (w.src.length - 16))
    let body := (w.rs.bind (ruleBody s (queueOf s w.qix).ruleset)).getD []
    (opened = none → done (.accept seq) stAuthFail [])
    ∧ (∀ pt, opened = some pt → rulesVerdict w.draws body pt (num w.src 8 8) = none →
        done (.accept seq) stOk (receipt s w rk pt (w.rs.getD 0) ((drawNamed body pt).getD 0xFFFFFFFF)).1)
    ∧ (∀ pt st det, opened = some pt → rulesVerdict w.draws body pt (num w.src 8 8) = some (st, det) → done (.accept seq) st []) := by
  obtain ⟨hfails, hpasses, hrejects⟩ := accept_result hkey hreceipt
  exact ⟨fun ho => delivers_computed h hpre rfl (mem_of_eOpc hop) (hfails ho) rfl rfl rfl rfl,
    fun pt ho hv => delivers_computed h hpre rfl (mem_of_eOpc hop) (hpasses pt ho hv) rfl rfl rfl rfl,
    fun pt st det ho hv => delivers_computed h hpre rfl (mem_of_eOpc hop) (hrejects pt st det ho hv) rfl rfl rfl rfl⟩

theorem seal_delivers {kid : Nat} {k : Bytes} (hop : eOpc w.ent = 2) (hkey : opKey s w = some (kid, k)) :
    let done := Delivers seq s pre post w (s.slots.getD w.slot {})
    let h := sealHeader s w kid
    let aad := h ++ w.src.take (eAadLen w.ent)
    let pt := w.src.drop (eAadLen w.ent)
    let c := gcmSeal k (nonceBytes w.nonce) aad pt
    let g := gcmPiece false k (nonceBytes w.nonce) (gcmAt k aad w)
      (slice pt (unitFrom w.ent w.unit) (unitTo w.ent w.src w.unit - unitFrom w.ent w.unit))
    (unitsOf w.ent w.src = 1 → done (.sealMsg seq) stOk (h ++ c.1 ++ tagBytes c.2))
    ∧ (unitsOf w.ent w.src ≠ 1 →
        done (.sealMsg seq) stOk ((if w.unit = 0 then h else []) ++ g.1
          ++ if lastUnit w then tagBytes (gcmEnd k (nonceBytes w.nonce) aad.length (eLen w.ent) g.2) else [])) := by
  obtain ⟨hone, hlast, hnext⟩ := seal_result hkey
  refine ⟨fun hunits => delivers_computed h hpre rfl (mem_of_eOpc hop) (hone hunits) rfl rfl rfl rfl, fun hunits => ?_⟩
  cases hend : lastUnit w with
  | true => exact delivers_computed h hpre rfl (mem_of_eOpc hop) (hlast hunits hend) rfl rfl rfl rfl
  | false =>
    rw [if_neg Bool.false_ne_true, List.append_nil]
    exact delivers_computed h hpre rfl (mem_of_eOpc hop) (hnext hunits hend) rfl rfl rfl rfl

/-- What the end of an OPEN delivers, by the verdict of the tag. -/
theorem open_ends {tag : BitVec 128} {good : Bool} {pt : Bytes} (hop : eOpc w.ent = 3) (hr : openUnit s w = openEnd s w tag good pt) :
    let done := Delivers seq s pre post w (s.slots.getD w.slot {})
    (good = true → done (.openMsg seq) stOk pt)
    ∧ (good = false → needsHold s w = true → done (.openMsg seq) stAuthFailHeld [])
    ∧ (good = false → needsHold s w = false → done (.openMsg seq) stAuthFail pt) := by
  refine ⟨fun hgood => ?_, fun hbad hhold => ?_, fun hbad hhold => ?_⟩
  · rw [openEnd, if_pos hgood] at hr
    exact delivers_computed h hpre rfl (mem_of_eOpc hop) hr rfl rfl rfl rfl
  · rw [openEnd, hbad, if_neg Bool.false_ne_true, if_pos hhold] at hr
    exact delivers_computed h hpre rfl (mem_of_eOpc hop) hr rfl rfl rfl rfl
  · rw [openEnd, hbad, if_neg Bool.false_ne_true, hhold, if_neg Bool.false_ne_true] at hr
    exact delivers_computed h hpre rfl (mem_of_eOpc hop) hr rfl rfl rfl rfl

theorem open_delivers {kid : Nat} {k : Bytes} (hop : eOpc w.ent = 3) (hkey : opKey s w = some (kid, k)) :
    let done := Delivers seq s pre post w (s.slots.getD w.slot {})
    let h := slice w.src (eAadLen w.ent) 32
    let iv := slice h 12 12
    let aad := h ++ w.src.take (eAadLen w.ent)
    let ct := slice w.src (eAadLen w.ent + 32) (eLen w.ent)
    let tag := tagAt w.src (eAadLen w.ent + 32 + eLen w.ent)
    let g := gcmPiece true k iv (gcmAt k aad w)
      (slice ct (unitFrom w.ent w.unit) (unitTo w.ent w.src w.unit - unitFrom w.ent w.unit))
    (num h 24 4 ≠ kid → done (.openMsg seq) stAuthFail [])
    ∧ (num h 24 4 = kid → unitsOf w.ent w.src = 1 →
      (∀ pt, gcmOpen k iv aad ct tag = some pt → done (.openMsg seq) stOk pt)
      ∧ (gcmOpen k iv aad ct tag = none → needsHold s w = true → done (.openMsg seq) stAuthFailHeld [])
      ∧ (gcmOpen k iv aad ct tag = none → needsHold s w = false → done (.openMsg seq) stAuthFail (gcmCtr k iv ct)))
    ∧ (num h 24 4 = kid → unitsOf w.ent w.src ≠ 1 →
      ((lastUnit w = false ∨ gcmEnd k iv aad.length (eLen w.ent) g.2 = tag) → done (.openMsg seq) stOk g.1)
      ∧ (lastUnit w = true → gcmEnd k iv aad.length (eLen w.ent) g.2 ≠ tag → needsHold s w = false →
          done (.openMsg seq) stAuthFail g.1)) := by
  obtain ⟨hother, hone, hlast, hnext⟩ := open_result hkey
  refine ⟨fun hid => delivers_computed h hpre rfl (mem_of_eOpc hop) (hother hid) rfl rfl rfl rfl, fun hid hunits => ?_, fun hid hunits => ?_⟩
  · obtain ⟨hgood, hheld, hbad⟩ := open_ends h hpre hop (hone hid hunits)
    exact ⟨fun pt ho => gcmCtr_of_gcmOpen ho ▸ hgood (by rw [ho]; rfl), fun ho => hheld (by rw [ho]; rfl), fun ho => hbad (by rw [ho]; rfl)⟩
  · cases hend : lastUnit w with
    | true =>
      obtain ⟨hgood, -, hbad⟩ := open_ends h hpre hop (hlast hid hunits hend)
      exact ⟨fun htag => hgood (beq_iff_eq.mpr (htag.resolve_left (fun hno => absurd hno.symm Bool.false_ne_true))), fun _ htag => hbad (beq_eq_false_iff_ne.mpr htag)⟩
    | false =>
      exact ⟨fun _ => delivers_computed h hpre rfl (mem_of_eOpc hop) (hnext hid hunits hend) rfl rfl rfl rfl, fun hno => absurd hno Bool.false_ne_true⟩

end

end

/-- Settles O28, operation by operation: `delivers_of` says once how both lanes of a slot deliver a unit's result, and the `_result` lemmas what
that result is. -/
theorem lanesComputeTheirResult : Obligations.LanesComputeTheirResult := by
  unfold Obligations.LanesComputeTheirResult
  intro seq s pre post w p hwork hfirst hseq hne hstage hrev hp
  subst hp
  have h : Held seq s pre post w := ⟨hwork, hfirst, hseq, hne, hstage, hrev⟩
  refine ⟨fun op i hi hop hpre => ?_, fun hpre => ⟨fun op i hi hop hlow hkey => ?_, fun kid k rk hop hkey hrk => accept_delivers h hpre hop hkey hrk,
    fun kid k hop hkey => seal_delivers h hpre hop hkey, fun kid k hop hkey => open_delivers h hpre hop hkey, fun kid k hop hkey => ?_,
    fun kid k hop hkey => ?_, fun rk d hop hrk hd => ?_, fun rk hop hrk => ?_⟩⟩
  · obtain ⟨f, hexec⟩ := laneInstrs_exec hi s
    exact delivers_decided h hpre hexec (mem_of_eOpc hop)
  · obtain ⟨f, hexec, hr⟩ := laneInstrs_orphaned hi hlow hkey
    exact delivers_computed h hpre hexec (mem_of_eOpc hop) hr rfl rfl rfl rfl
  · exact delivers_computed h hpre rfl (mem_of_eOpc hop) (xts_result hkey false) rfl rfl rfl rfl
  · exact delivers_computed h hpre rfl (mem_of_eOpc hop) (xts_result hkey true) rfl rfl rfl rfl
  · exact delivers_computed h hpre rfl (mem_of_eOpc hop) (outcome_result hrk hd) rfl rfl rfl rfl
  · obtain ⟨hgood, hbad⟩ := verify_result hrk
    exact ⟨fun hyes => delivers_computed h hpre rfl (mem_of_eOpc hop) (hgood hyes) rfl rfl rfl rfl,
      fun hno => delivers_computed h hpre rfl (mem_of_eOpc hop) (hbad hno) rfl rfl rfl rfl⟩

end Sys2Proof.LaneResults
end

section
/-! # Dispatch of a first unit (O26) -/
namespace Sys2Proof.FirstDispatch
open Sys2Proof Sys2Proof.Machine Sys2Proof.Redundancy

/-! ## What is eligible waits among the entries (R194) -/

section
variable {s : State} {w : Work} {cost : Nat}

theorem mem_of_eligible : ∀ (ws before : List Work), (w, cost) ∈ eligible s before ws → w ∈ ws
  | [], _, h => absurd h List.not_mem_nil
  | v :: ws, before, h => by
    have hrest : (w, cost) ∈ eligible s (before ++ [v]) ws → w ∈ v :: ws := fun h => List.mem_cons_of_mem _ (mem_of_eligible ws _ h)
    rw [eligible] at h
    split at h
    · rcases List.mem_cons.mp h with h | h
      · rw [(Prod.mk.inj h).1]
        exact List.mem_cons_self
      · exact hrest h
    · exact hrest h

theorem mem_of_find {p : Work × Nat → Bool} (h : (eligibleNow s).find? p = some (w, cost)) : w ∈ s.work :=
  mem_of_eligible _ _ (List.mem_of_mem_filter (List.mem_of_find?_eq_some h))

/-- The arbitration touches the balances alone (R195). -/
theorem arbitrate_only {el : List (Work × Nat)} {c : Choice} (h : arbitrate s el = some c) :
    c.state = { s with sched := c.state.sched, fns := c.state.fns, queues := c.state.queues } := by
  unfold arbitrate at h
  split at h
  · cases h
  · split at h
    · cases h
    · split at h
      · cases h
      · cases h
        rfl

/-! ## The three values are fixed (R153) -/

/-- A SEQ is assigned without its mark while it is below it (R262). -/
theorem takeSeq_nv_of_lt (h : s.jrn.nextSeq < seqMark s) : (takeSeq s).nv = s.nv := by
  unfold takeSeq
  simp only []
  rw [if_pos h]

/-- The assignment of a SEQ makes nothing due. -/
theorem quiet_takeSeq (h : quiet s = true) : quiet (takeSeq s) = true := by
  have hwork : (takeSeq s).work = s.work := by rw [takeSeq_only]
  have hfill : jfill (takeSeq s) = jfill s := by
    unfold jfill ringUsed
    rw [takeSeq_nv]
  rw [← h]
  unfold quiet
  rw [hwork, hfill, takeSeq_jrn]
  rfl

/-- The state in which the nonce counter of `q` has moved and a SEQ is assigned. -/
def counted (q : Nat) (s : State) : State := takeSeq { s with nonces := tset s.nonces q (nonceOf s q + 1) }

/-- What fixing the values of an entry of queue `q` leaves. -/
structure Fixed (q : Nat) (s t : State) : Prop where
  work : t.work = s.work
  slots : t.slots = s.slots
  nonces : t.nonces = tset s.nonces q (nonceOf s q + 1)
  nextSeq : t.jrn.nextSeq = s.jrn.nextSeq + 1
  nv : s.jrn.nextSeq < seqMark s → t.nv = s.nv
  quiet : quiet s = true → quiet t = true

theorem counted_fixed (q : Nat) (s : State) : Fixed q s (counted q s) := by
  refine ⟨by rw [counted, takeSeq_only], by rw [counted, takeSeq_only], by rw [counted, takeSeq_only], by rw [counted, takeSeq_jrn],
    fun h => takeSeq_nv_of_lt h, fun h => quiet_takeSeq ?_⟩
  rw [← h]
  exact quiet_congr rfl rfl rfl

theorem gateFault_fixed {q : Nat} {t : State} (f : GateFault) (h : Fixed q s t) : Fixed q s (gateFault f t) := by
  have hquiet : quiet (gateFault f t) = quiet t := quiet_congr (gateFault_work ..) (gateFault_jrn ..) (by
    rw [jfill, jfill, ringUsed, ringUsed, gateFault_nv])
  obtain ⟨hwork, hslots, hnonces, hseq, hnv, hq⟩ := h
  exact ⟨(gateFault_work ..).trans hwork, (gateFault_slots ..).trans hslots, (gateFault_nonces ..).trans hnonces, by rw [gateFault_jrn, hseq],
    fun hlow => (gateFault_nv ..).trans (hnv hlow), fun hs => hquiet.trans (hq hs)⟩

/-- Fixing the values of an entry that is no OUTCOME. -/
theorem fixValues_fixed (hop : eOpc w.ent ≠ 6) : Fixed w.qix s (fixValues w s).2 := by
  have hno : ¬ (eOpc w.ent = 6 ∧ (dispatchCheck s w).1 = 0) := fun h => hop h.1
  have hcount := counted_fixed w.qix s
  unfold fixValues
  simp only [if_neg hno]
  split
  · exact gateFault_fixed _ hcount
  · exact hcount

/-- The entry with its three values. -/
theorem fixValues_entry (w : Work) (s : State) : (fixValues w s).1.qix = w.qix ∧ (fixValues w s).1.ent = w.ent ∧ (fixValues w s).1.src = w.src
    ∧ (fixValues w s).1.seq = s.jrn.nextSeq ∧ (fixValues w s).1.nonce = s.bootEpoch * 2 ^ 72 + w.qix * 2 ^ 54 + tgetD s.nonces w.qix 0
    ∧ (fixValues w s).1.epoch = s.epoch ∧ (fixValues w s).1.opsec = s.opsec ∧ (fixValues w s).1.stage = w.stage :=
  ⟨rfl, rfl, rfl, rfl, rfl, rfl, rfl, rfl⟩

/-! ## The unit goes into the lanes (R195, R197) -/

/-- An entry that waits for its first unit, as `w` does. -/
def waitsLike (w v : Work) : Bool := v.qix == w.qix && v.seq == 0 && v.stage == .arrived && v.ent == w.ent

/-- The values stand in the entry. -/
def fixedIn (w : Work) (s : State) : State :=
  { (fixValues w s).2 with work := modFirst (waitsLike w) (fun _ => (fixValues w s).1) (fixValues w s).2.work }

theorem fixedIn_fixed (hop : eOpc w.ent ≠ 6) (hstage : w.stage = .arrived) (hquiet : quiet s = true) :
    (fixedIn w s).slots = s.slots ∧ (fixedIn w s).nonces = tset s.nonces w.qix (nonceOf s w.qix + 1)
      ∧ (fixedIn w s).jrn.nextSeq = s.jrn.nextSeq + 1 ∧ (s.jrn.nextSeq < seqMark s → (fixedIn w s).nv = s.nv)
      ∧ quiet (fixedIn w s) = true := by
  obtain ⟨-, hslots, hnonces, hseq, hnv, hq⟩ := fixValues_fixed (s := s) hop
  have hentry : (fixValues w s).1.stage = w.stage := rfl
  have hdue := hq hquiet
  unfold fixedIn
  generalize (fixValues w s).2 = t at *
  generalize (fixValues w s).1 = v at *
  refine ⟨hslots, hnonces, hseq, hnv, ?_⟩
  simp only [quiet, Bool.and_eq_true, List.all_eq_true] at hdue ⊢
  refine ⟨fun x hx => ?_, hdue.2⟩
  rcases Sealing.mem_modFirst hx with hx | ⟨-, -, rfl⟩
  · exact hdue.1 x hx
  · rw [mayComplete, hentry, hstage]
    rfl

theorem fixedIn_mem (hop : eOpc w.ent ≠ 6) (hw : w ∈ s.work) (hstage : w.stage = .arrived) (hseq : w.seq = 0) :
    (fixValues w s).1 ∈ (fixedIn w s).work := by
  have hmem : w ∈ (fixValues w s).2.work := by rw [(fixValues_fixed (s := s) hop).work]; exact hw
  exact mem_modFirst_const hmem (by simp [waitsLike, hstage, hseq])

/-- Without a unit taken back, the entry that the arbitration picks is the one that is placed. -/
theorem dispatchDue_first {u : State} {c : Choice} {p : Nat} (hfirst : firstTaken u.work = none) (hpick : arbitrate u (eligibleNow u) = some c)
    (hfind : (eligibleNow u).find? (fun x => x.1.qix == c.queue) = some (w, cost)) (hslot : bestSlot u cost = some p)
    (hstage : w.stage = .arrived) : dispatchDue u = placeUnit (fixValues w c.state).1 p cost (fixedIn w c.state) := by
  have hnew : ¬ w.stage = .between := by rw [hstage]; decide
  unfold dispatchDue
  simp only [hfirst, hpick, hfind, if_neg hnew, hslot]
  rfl

end

/-- Settles O26: the arbitration and the placing touch neither the values nor their counters, which `fixValues` moves by one each. -/
theorem dispatchFixesTheThreeValues : Obligations.DispatchFixesTheThreeValues := by
  unfold Obligations.DispatchFixesTheThreeValues
  intro s u c w cost p hon hquiet hfirst hu hpick hfind hslot hstage hseq hop
  have hdrop := dropCarry_carryOnly (eligibleNow s) s
  rw [← hu] at hdrop
  have hdue := dispatchDue_first (hdrop.work.symm ▸ hfirst) hpick hfind hslot hstage
  have hall : c.state = { s with sched := c.state.sched, fns := c.state.fns, queues := c.state.queues, pmon := u.pmon } := by
    rw [arbitrate_only hpick, hdrop.1]
  have hwork : c.state.work = s.work := by rw [hall]
  have hmem : w ∈ c.state.work := by
    rw [hwork, ← hdrop.work]
    exact mem_of_find hfind
  have hquiet' : quiet c.state = true := by
    rw [hall]
    exact (quiet_congr (s := s) rfl rfl rfl).trans hquiet
  obtain ⟨hslots, hnonces, hnext, hnv, hrest⟩ := fixedIn_fixed hop hstage hquiet'
  have hplaced := placed_mem_placeUnit (fixedIn_mem hop hmem hstage hseq) p cost
  obtain ⟨hqix, hent, hsrc, hnew, hnonce, hepoch, hopsec, -⟩ := fixValues_entry w c.state
  have hone : dispatchOne s = dropCarry (eligibleNow (dispatchDue u)) (dispatchDue u) := by rw [dispatchOne, ← hu]
  rw [hdue] at hone
  have hend := quiet_placeUnit hrest (fixValues w c.state).1 p cost
  have hplace := placeUnit_only (fixValues w c.state).1 p cost (fixedIn w c.state)
  have hclaim : (placed (fixValues w c.state).1 p cost (fixedIn w c.state)).claim = ((fixedIn w c.state).slots.getD p {}).claim := rfl
  generalize fixedIn w c.state = x at *
  generalize fixValues w c.state = r at *
  generalize placeUnit r.1 p cost x = y at *
  have hcarry := hone ▸ dropCarry_carryOnly (eligibleNow y) y
  have htold := settle_quiet s (hcarry.quiet.trans hend)
  have hnonces' : (settle s (dispatchOne s)).nonces = tset s.nonces w.qix (nonceOf s w.qix + 1) := by
    rw [htold.1, hcarry.1, hplace, hnonces, hall]
    rfl
  refine ⟨settle s (dispatchOne s), by rw [exec, execDispatch, if_pos hon],
    ⟨placed r.1 p cost x, ?_, hqix, hent, hsrc, ?_, ?_, ?_, ?_, rfl, rfl, ?_⟩, ?_, ?_, fun q hq => ?_, fun hlow => ?_⟩
  · rwa [htold.1, hcarry.1]
  · exact hnew.trans (by rw [hall])
  · exact hnonce.trans (by rw [hall])
  · exact hepoch.trans (by rw [hall])
  · exact hopsec.trans (by rw [hall])
  · rw [hclaim, hslots, hall]
  · rw [htold.1, hcarry.1, hplace, hnext, hall]
  · rw [hnonces', tgetD_tset_self, nonceOf]
  · rw [hnonces', tgetD_tset_ne _ _ _ hq]
  · have hmark : c.state.jrn.nextSeq < seqMark c.state := by
      rw [hall]
      exact hlow
    rw [htold.1, hcarry.1, hplace, hnv hmark, hall]

end Sys2Proof.FirstDispatch
end

section
/-! # The release of a unit (O30) -/
namespace Sys2Proof.UnitRelease
open Sys2Proof Sys2Proof.Machine Sys2Proof.Sealing Sys2Proof.NopCompletion

/-! ## Telling the host only ever sends more -/

section
variable {s u : State}

theorem signal_adds {p : Post} {o : List Out} (h : ∃ more, p.out = o ++ more) (f v : Nat) : ∃ more, (p.signal f v).out = o ++ more := by
  obtain ⟨a, ha⟩ := h
  obtain ⟨b, hb⟩ := signal_out f v p
  exact ⟨a ++ b, by rw [hb, ha, List.append_assoc]⟩

theorem put_out (gates : List Gate) (qix htag seq status detail : Nat) (output : Bytes) (d : Deliver) :
    ∃ more, (d.put gates qix htag seq status detail output).post.out = d.post.out ++ more := by
  unfold Deliver.put
  simp only []
  split
  · refine signal_adds ?_ _ _
    simp only []
    split
    · exact ⟨_, rfl⟩
    · exact ⟨[], (List.append_nil _).symm⟩
  · exact ⟨[], (List.append_nil _).symm⟩
  · exact ⟨[], (List.append_nil _).symm⟩

theorem deliverAll_out (gates : List Gate) (j : Journal) : ∀ (ws : List Work) (blocked : List Nat) (d : Deliver),
    ∃ more, (deliverAll gates j ws blocked d).2.post.out = d.post.out ++ more
  | [], _, _ => ⟨[], (List.append_nil _).symm⟩
  | w :: ws, blocked, d => by
    rw [deliverAll]
    split
    · obtain ⟨a, ha⟩ := put_out gates w.qix (eHtag w.ent) w.seq (finalStatus j w) w.detail w.acc d
      obtain ⟨b, hb⟩ := deliverAll_out gates j ws blocked (d.put gates w.qix (eHtag w.ent) w.seq (finalStatus j w) w.detail w.acc)
      exact ⟨a ++ b, by rw [hb, ha, List.append_assoc]⟩
    · exact deliverAll_out gates j ws (w.qix :: blocked) d

theorem gateFaults_out (fs : List GateFault) (s : State) : (fs.foldl (fun t f => gateFault f t) s).out = s.out :=
  foldl_keeps (P := fun t => t.out = s.out) _ _ _ rfl fun t f h => (gateFault_out f t).trans h

theorem deliver_sent (s : State) : Sent s (deliver s) := by
  unfold deliver
  simp only []
  split
  · exact sent_refl s
  · obtain ⟨more, hmore⟩ := deliverAll_out s.gates s.jrn s.work [] ⟨s.queues, s.post, s.link.usbOut, s.spi.compl, []⟩
    exact ⟨more, (gateFaults_out _ _).trans hmore⟩

theorem fillEvents_out (s : State) : (fillEvents s).out = s.out := by
  unfold fillEvents
  split
  · rfl
  · simp only [apply_ite State.out, event_out, ite_self]

/-- Telling the host sends more and takes nothing back. -/
theorem settle_adds (s0 s : State) : Sent s (settle s0 s) := by
  obtain ⟨a, ha⟩ := deliver_sent s
  obtain ⟨b, hb⟩ := noteChanges_sent s0 (fillEvents (deliver s))
  exact ⟨a ++ b, hb.trans (by rw [fillEvents_out, ha, List.append_assoc])⟩

end

/-! ## A release -/

section
variable {s : State} {w : Work} {r : UnitResult} {seq : Nat}

/-- The one entry, computed, that the output stage takes. -/
structure Taken (seq : Nat) (w : Work) (s : State) : Prop where
  work : s.work = [w]
  releasable : releasable seq w = true
  sealing : sealingOn s = true
  units : unitsServe s w = true
  order : inRingOrder s w = true
  detail : detailWaits s w = false
  kept : w.revoked = false
  awake : s.pwr.standbyDue = false
  fill : s.jrn.fill = jfill s

theorem seq_of_releasable (h : releasable seq w = true) : w.seq = seq := by
  simp only [releasable, Bool.and_eq_true, beq_iff_eq] at h
  exact h.1.1.1

theorem release_exec (h : Taken seq w s) : exec (.unitRelease seq) s = .next (sleepIfDue (settle s (takeUnit w s))) := by
  have hfind : s.work.find? (releasable seq) = some w := by rw [h.work, List.find?_cons_of_pos h.releasable]
  have hgo : (sealingOn s && unitsServe s w && inRingOrder s w && !detailWaits s w) = true := by
    rw [h.sealing, h.units, h.order, h.detail]
    rfl
  show execUnitRelease seq s = _
  rw [execUnitRelease, hfind]
  exact if_pos hgo

/-- A release that leaves the power state ends awake. -/
theorem release_awake (h : Taken seq w s) {u : State} (hpwr : u.pwr = s.pwr) : sleepIfDue (settle s u) = settle s u :=
  Admission.sleepIfDue_awake (by rw [settle_pwr, hpwr, h.awake])

theorem modFirst_single {p : Work → Bool} {f : Work → Work} (h : p w = true) : modFirst p f [w] = [f w] := by simp [modFirst, h]

/-! ## A stale claim number (R189, R190) -/

/-- Nothing that an alert is read off is in the lanes' output buffers, the slots, the entries or what has been sent. -/
theorem alert_of_release {ws : List Work} {ls : List Lane} {ps : List Slot} {o : List Out} {m : Pmon}
    (hlanes : ls.map (·.st) = s.lanes.map (·.st)) :
    alert { s with work := ws, lanes := ls, slots := ps, out := o, pmon := m } = alert s := by
  have hany : ls.any (fun l => l.st == .failed || l.st == .suspect) = s.lanes.any (fun l => l.st == .failed || l.st == .suspect) := by
    have hmap : ∀ xs : List Lane, xs.any (fun l => l.st == .failed || l.st == .suspect)
        = (xs.map (·.st)).any (fun x => x == .failed || x == .suspect) := fun xs => by rw [List.any_map]; rfl
    rw [hmap, hmap, hlanes]
  have hunit : unitOut { s with work := ws, lanes := ls, slots := ps, out := o, pmon := m } = unitOut s := by
    unfold unitOut
    rw [← hany]
    rfl
  unfold alert alertCause
  rw [hunit]
  rfl

/-- What leaves the lanes leaves their states. -/
theorem clearOut_states (seq : Nat) (s : State) : (clearOut seq s).lanes.map (·.st) = s.lanes.map (·.st) := by
  unfold clearOut
  simp only [List.map_map]
  rfl

/-- A release that makes nothing due is told to nobody. -/
theorem settle_release {ws : List Work} {ls : List Lane} {ps : List Slot} {o : List Out} {m : Pmon} (hfill : s.jrn.fill = jfill s)
    (hdue : ∀ v ∈ ws, mayComplete s.jrn v = false) (hlanes : ls.map (·.st) = s.lanes.map (·.st)) :
    settle s { s with work := ws, lanes := ls, slots := ps, out := o, pmon := m }
      = { s with work := ws, lanes := ls, slots := ps, out := o, pmon := m } := by
  refine MeterPort.settle_same ?_ rfl rfl rfl (alert_of_release hlanes) rfl rfl
  simp only [quiet, Bool.and_eq_true, List.all_eq_true, Bool.not_eq_true', beq_iff_eq]
  exact ⟨hdue, hfill⟩

theorem discardStale_eq (hwork : s.work = [w]) : discardStale w s = { s with
    work := [{ w with stage := .takenBack, cost := 0 }], lanes := (clearOut w.seq s).lanes, slots := s.slots, out := s.out
    pmon := s.pmon.count 0x15 0 1 } := by
  have hmod : modFirst (fun v => v.seq == w.seq) (fun v => { v with stage := .takenBack, cost := 0 }) s.work
      = [{ w with stage := .takenBack, cost := 0 }] := by
    rw [hwork, modFirst_single (p := fun v => v.seq == w.seq) (beq_self_eq_true _)]
  unfold discardStale
  simp only [clearOut_work, hmod]
  rfl

theorem stale_discarded (h : Taken seq w s) (hstale : w.claim ≠ (s.slots.getD w.slot {}).claim) :
    To (.unitRelease seq) s fun t =>
      t.work = [{ w with stage := .takenBack, cost := 0 }] ∧ t.out = s.out ∧ t.jrn = s.jrn ∧ t.nv = s.nv
        ∧ ∀ l ∈ t.lanes, ∀ x ∈ l.out, x.seq ≠ seq := by
  have htake : takeUnit w s = discardStale w s := by
    rw [takeUnit, if_neg (by rw [h.kept]; decide), if_pos hstale]
  have hseq := seq_of_releasable h.releasable
  have hexec := release_exec h
  rw [htake, discardStale_eq h.work, release_awake h (u := { s with
    work := [{ w with stage := .takenBack, cost := 0 }], lanes := (clearOut w.seq s).lanes, slots := s.slots, out := s.out
    pmon := s.pmon.count 0x15 0 1 }) rfl, settle_release h.fill (fun v hv => ?_) (clearOut_states _ _)] at hexec
  · exact ⟨_, hexec, rfl, rfl, rfl, rfl, fun l hl x hx => hseq ▸ mem_clearOut_lanes hl hx⟩
  · rw [List.mem_singleton.mp hv]
    rfl

/-! ## A unit that is not the last (R192, R193) -/

/-- The slots with the charge of the unit returned (R197). -/
def credited (w : Work) (s : State) : List Slot := modAt s.slots w.slot fun p => { p with credit := min 8192 (p.credit + w.cost) }

theorem credited_credit (w : Work) (s : State) : ((credited w s).getD w.slot {}).credit
    = if w.slot < s.slots.length then min 8192 ((s.slots.getD w.slot {}).credit + w.cost) else (s.slots.getD w.slot {}).credit := by
  unfold credited modAt
  simp only [List.getD_eq_getElem?_getD, List.getElem?_modify_eq]
  split
  · next h => rw [List.getElem?_eq_getElem h]; rfl
  · next h => rw [List.getElem?_eq_none (Nat.not_lt.mp h)]; rfl

/-- The entry between its units. -/
def nextUnit (w : Work) (r : UnitResult) (s : State) : Work :=
  { w with stage := .between, unit := w.unit + 1, acc := collect s w r, cost := 0, saved := some { bytes := r.saved } }

/-- An entry of the slot itself sees no lag. -/
theorem countLag_single {u : State} {w : Work} (hwork : u.work = [w]) : (countLag w.slot u).work = [w] := by
  unfold countLag
  simp only [hwork, List.map_cons, List.map_nil, ne_eq, not_true_eq_false, and_false, if_false]

theorem countUnit_only (w : Work) (u : State) : ∃ m, countUnit w u = { u with pmon := m } := by
  unfold countUnit count
  exact ⟨_, rfl⟩

theorem releaseMiddle_eq {v : Work} (hwork : s.work = [w]) (hseq : v.seq = w.seq) (hslot : v.slot = w.slot) :
    ∃ m, releaseMiddle v r s = { s with
      work := [nextUnit v r s], lanes := (clearOut v.seq s).lanes, slots := credited v s, out := (writeOutput v r s).out, pmon := m } := by
  have hmod : modFirst (fun x => x.seq == v.seq) (fun _ => nextUnit v r s) [w] = [nextUnit v r s] :=
    modFirst_single (p := fun x => x.seq == v.seq) (beq_iff_eq.mpr hseq.symm)
  have hlag : (countLag v.slot (clearOut v.seq (returnCredit v (writeOutput v r s)))).work = [w] := by
    rw [hslot]
    exact countLag_single (by rw [clearOut_work, returnCredit_work, writeOutput_work, hwork])
  obtain ⟨o, m, hout⟩ : ∃ o m, writeOutput v r s = { s with out := o, pmon := m } := ⟨_, _, writeOutput_only v r s⟩
  have heq : releaseMiddle v r s = countUnit v
      { countLag v.slot (clearOut v.seq (returnCredit v (writeOutput v r s))) with work := [nextUnit v r s] } := by
    unfold releaseMiddle
    simp only [hlag]
    rw [← nextUnit, hmod]
  obtain ⟨n, hcount⟩ := countUnit_only v
    { countLag v.slot (clearOut v.seq (returnCredit v (writeOutput v r s))) with work := [nextUnit v r s] }
  refine ⟨n, ?_⟩
  rw [heq, hcount, hout]
  simp only [countLag, clearOut, returnCredit, credited]


/-- The unit's bytes, as they are written at its place in DST (R99, R163). -/
def writtenAt (w : Work) (r : UnitResult) (s : State) : List Out :=
  (tlps r.out.length (maxPayload s) (eDst w.ent + r.pos) r.out).map fun p => Out.mem w.fn p.1 p.2

/-- A result that is compared and equal, with a good verdict, of an entry on a ring path. -/
structure Good (w : Work) (r : UnitResult) (s : State) : Prop where
  claim : w.claim = (s.slots.getD w.slot {}).claim
  delivered : delivered s w = some r
  status : (releaseStatus s (withVerdict r w)).1 = stOk
  stage : w.stage = .computed
  path : (queueOf s w.qix).path = .pcie
  serves : (queueOf s w.qix).byFn = false

theorem good_taken (h : Taken seq w s) (hgood : Good w r s) : takeUnit w s = releaseUnit w r s := by
  rw [takeUnit, if_neg (by rw [h.kept]; decide), if_neg (not_not_intro hgood.claim), hgood.delivered]

/-- The writing of a good unit's output. -/
theorem good_written (hgood : Good w r s) : (writeOutput (withVerdict r w) r s).out = s.out ++ writtenAt w r s :=
  writeOutput_out_pcie (w := withVerdict r w) hgood.path hgood.serves r

theorem middle_released (h : Taken seq w s) (hgood : Good w r s) (hlast : lastUnit w = false) :
    To (.unitRelease seq) s fun t =>
      t.out = s.out ++ writtenAt w r s
        ∧ (∃ v, t.work = [v] ∧ v.stage = .between ∧ v.unit = w.unit + 1 ∧ v.seq = seq ∧ v.nonce = w.nonce ∧ v.saved = some { bytes := r.saved })
        ∧ t.slots = credited w s ∧ t.nonces = s.nonces ∧ t.jrn = s.jrn ∧ t.nv = s.nv := by
  have hmore : (releaseStatus s (withVerdict r w)).1 = stOk ∧ (!lastUnit (withVerdict r w)) = true :=
    ⟨hgood.status, by rw [show lastUnit (withVerdict r w) = lastUnit w from rfl, hlast]; rfl⟩
  obtain ⟨m, heq⟩ := releaseMiddle_eq (v := withVerdict r w) (r := r) h.work rfl rfl
  have htake : takeUnit w s = releaseMiddle (withVerdict r w) r s := (good_taken h hgood).trans (if_pos hmore)
  have hexec := release_exec h
  have hseq := seq_of_releasable h.releasable
  rw [htake, release_awake h (by rw [heq]), heq, settle_release h.fill (fun v hv => ?_) (clearOut_states _ _)] at hexec
  · exact ⟨_, hexec, good_written hgood, ⟨_, rfl, rfl, rfl, hseq, rfl, rfl⟩, rfl, rfl, rfl, rfl⟩
  · rw [List.mem_singleton.mp hv]
    rfl

/-! ## The last unit (R175, R190, R197) -/

@[simp] theorem writeOutput_slots (w : Work) (r : UnitResult) (s : State) : (writeOutput w r s).slots = s.slots := by rw [writeOutput_only]
@[simp] theorem writeOutput_nonces (w : Work) (r : UnitResult) (s : State) : (writeOutput w r s).nonces = s.nonces := by rw [writeOutput_only]
@[simp] theorem writeOutput_pwr (w : Work) (r : UnitResult) (s : State) : (writeOutput w r s).pwr = s.pwr := by rw [writeOutput_only]
@[simp] theorem raiseReplay_slots (w : Work) (s : State) : (raiseReplay w s).slots = s.slots := by rw [raiseReplay_only]
@[simp] theorem raiseReplay_nonces (w : Work) (s : State) : (raiseReplay w s).nonces = s.nonces := by rw [raiseReplay_only]
@[simp] theorem raiseReplay_pwr (w : Work) (s : State) : (raiseReplay w s).pwr = s.pwr := by rw [raiseReplay_only]
@[simp] theorem countSold_slots (w : Work) (st : Nat) (s : State) : (countSold w st s).slots = s.slots := by rw [countSold_only]
@[simp] theorem countSold_nonces (w : Work) (st : Nat) (s : State) : (countSold w st s).nonces = s.nonces := by rw [countSold_only]
@[simp] theorem countSold_pwr (w : Work) (st : Nat) (s : State) : (countSold w st s).pwr = s.pwr := by rw [countSold_only]

theorem releaseLast_slots {v : Work} (hstage : v.stage = .computed) : (releaseLast v r s).slots = credited v s := by
  simp [releaseLast, countUnit, countLag, clearOut, returnCredit, credited, hstage, apply_ite State.slots]

theorem releaseLast_nonces (v : Work) : (releaseLast v r s).nonces = s.nonces := by
  simp [releaseLast, countUnit, countLag, clearOut, returnCredit, apply_ite State.nonces]

theorem releaseLast_pwr (v : Work) : (releaseLast v r s).pwr = s.pwr := by
  simp [releaseLast, countUnit, countLag, clearOut, returnCredit, apply_ite State.pwr]

/-- The leaf of a release is among those that wait, and no SEQ is assigned (R175). -/
theorem leafIn_keeps (l : Leaf) (j : Journal) : l ∈ (j.leafIn l).waiting ∧ (j.leafIn l).nextSeq = j.nextSeq := by
  refine ⟨by rw [leafIn_waiting]; exact mem_insertLeaf l j.waiting, ?_⟩
  unfold Journal.leafIn Journal.stage
  split <;> rfl

theorem last_released (h : Taken seq w s) (hgood : Good w r s) (hlast : lastUnit w = true) :
    To (.unitRelease seq) s fun t =>
      (∃ more, t.out = s.out ++ writtenAt w r s ++ more) ∧ (∃ l ∈ t.jrn.waiting, l.seq = seq) ∧ t.slots = credited w s
        ∧ t.nonces = s.nonces ∧ t.jrn.nextSeq = s.jrn.nextSeq := by
  have hend : ¬ ((releaseStatus s (withVerdict r w)).1 = stOk ∧ (!lastUnit (withVerdict r w)) = true) := fun hmore => by
    have hno := hmore.2
    rw [show lastUnit (withVerdict r w) = lastUnit w from rfl, hlast] at hno
    exact absurd hno (by decide)
  have htake : takeUnit w s = releaseLast (withVerdict r w) r s := (good_taken h hgood).trans (if_neg hend)
  have hexec := release_exec h
  have hwrites : writesOutput (withVerdict r w) (releaseStatus s (withVerdict r w)).1 = true := by rw [hgood.status]; rfl
  have hout : (releaseLast (withVerdict r w) r s).out = s.out ++ writtenAt w r s := by
    rw [releaseLast_out, if_pos hwrites, good_written hgood]
  have hjrn := releaseLast_jrn (withVerdict r w) r s
  obtain ⟨hleaf, hnext⟩ := leafIn_keeps (leafOf s (withVerdict r w) (releaseStatus s (withVerdict r w)).1
    (releaseStatus s (withVerdict r w)).2) s.jrn
  have hslots := releaseLast_slots (v := withVerdict r w) (r := r) (s := s) hgood.stage
  have hnonces := releaseLast_nonces (r := r) (s := s) (withVerdict r w)
  have hpwr := releaseLast_pwr (r := r) (s := s) (withVerdict r w)
  rw [htake, release_awake h hpwr] at hexec
  rw [← hjrn] at hleaf hnext
  generalize releaseLast (withVerdict r w) r s = u at *
  refine ⟨_, hexec, ?_, ⟨_, hleaf, seq_of_releasable h.releasable⟩, (settle_slots ..).trans hslots, (settle_nonces ..).trans hnonces, hnext⟩
  obtain ⟨more, hmore⟩ := settle_adds s u
  exact ⟨more, by rw [hmore, hout]⟩

end

/-- Settles O30: the output stage writes what both lanes delivered, and telling the host only adds to it (`settle_adds`); where the release makes
nothing due, nothing is told at all (`settle_release`). -/
theorem releaseWritesOutputAndLeaf : Obligations.ReleaseWritesOutputAndLeaf := by
  unfold Obligations.ReleaseWritesOutputAndLeaf
  intro seq w r s hwork hrel hon hunits horder hdetail hkept hawake hfill
  have h : Taken seq w s := ⟨hwork, hrel, hon, hunits, horder, hdetail, hkept, hawake, hfill⟩
  refine ⟨fun hclaim hdel hstatus hstage hpath hserves => ?_, stale_discarded h⟩
  have hgood : Good w r s := ⟨hclaim, hdel, hstatus, hstage, hpath, hserves⟩
  refine ⟨fun hlast => ?_, fun hlast => ?_⟩
  · obtain ⟨t, hexec, hout, hleaf, hslots, hrest⟩ := last_released h hgood hlast
    exact ⟨t, hexec, hout, hleaf, by rw [hslots, credited_credit], hrest⟩
  · obtain ⟨t, hexec, hout, hwork, hslots, hrest⟩ := middle_released h hgood hlast
    exact ⟨t, hexec, hout, hwork, by rw [hslots, credited_credit], hrest⟩

end Sys2Proof.UnitRelease
end

section
/-! # Entries are fetched and their sources arrive (O22) -/
namespace Sys2Proof.Fetching
open Sys2Proof Sys2Proof.Machine Sys2Proof.Told Sys2Proof.NopCompletion Sys2Proof.Admission

/-! ## A read fails (R107) -/

section
variable {s u : State} {q : Nat}

/-- An error that is reported changes the link's list and the function's registers. -/
theorem aer_keeps (f : Nat) (e : AerError) (s : State) : (aer f e s).queues = s.queues ∧ (aer f e s).work = s.work ∧ (aer f e s).nv = s.nv
    ∧ (aer f e s).jrn = s.jrn ∧ (aer f e s).out = s.out ∧ (aer f e s).gates = s.gates ∧ (aer f e s).pwr = s.pwr := by
  rw [aer_only]
  exact ⟨rfl, rfl, rfl, rfl, rfl, rfl, rfl⟩

theorem quiet_aer (f : Nat) (e : AerError) (s : State) : quiet (aer f e s) = quiet s := by
  rw [aer_only]
  exact quiet_congr rfl rfl rfl

theorem stopQueue_active (h : (queueOf s q).st = .active) (why : Nat) :
    stopQueue q why s = modQueue q (fun x => { x with st := .disabling, stopDue := some why }) s := if_pos h

theorem queueOf_modQueue_self (q : Nat) (g : Queue → Queue) (s : State) : queueOf (modQueue q g s) q = g (queueOf s q) := by
  rw [queueOf, modQueue_queues, tgetD_tset_self]

theorem queueOf_modQueue_ne {q' : Nat} (h : q' ≠ q) (g : Queue → Queue) (s : State) : queueOf (modQueue q g s) q' = queueOf s q' := by
  rw [queueOf, modQueue_queues, tgetD_tset_ne _ _ _ h, queueOf]

/-- The read of an entry of a queue that is active fails: the queue stops. -/
theorem entryFails_keeps (h : (queueOf s q).st = .active) (k : ReadError) :
    queueOf (entryFails q k s) q = { queueOf s q with st := .disabling, stopDue := some 0 } ∧ (entryFails q k s).work = s.work
      ∧ (entryFails q k s).nv = s.nv ∧ (s.link.pcieTun = true → (entryFails q k s).link.aer = s.link.aer ++ [((queueOf s q).fn, .entryRead k)])
      ∧ (∀ q', q' ≠ q → queueOf (entryFails q k s) q' = queueOf s q') ∧ quiet (entryFails q k s) = quiet s := by
  obtain ⟨hqueues, hwork, hnv, -⟩ := aer_keeps (queueOf s q).fn (.entryRead k) (stopQueue q 0 s)
  rw [entryFails]
  refine ⟨?_, ?_, ?_, fun hlink => ?_, fun q' hq' => ?_, ?_⟩
  · rw [queueOf, hqueues, ← queueOf, stopQueue_active h, queueOf_modQueue_self]
  · rw [hwork, stopQueue_active h, modQueue_work]
  · rw [hnv, stopQueue_active h, modQueue_nv]
  · rw [stopQueue_active h, aer, if_pos (by rw [modQueue_link, hlink]), modQueue_link]
  · rw [queueOf, hqueues, ← queueOf, stopQueue_active h, queueOf_modQueue_ne hq']
  · rw [quiet_aer, stopQueue_active h]
    exact quiet_congr rfl rfl rfl

/-- What is told leaves the list of errors. -/
theorem aer_of_notified (h : Notified u s) : s.link.aer = u.link.aer := by rw [h.1]

/-- The read of a queue's entry times out (R100, R107). -/
theorem timeout_stops (hq : quiet s = true) (hopen : fetchOpen s = true) (hready : queueReady s (q % 4) (q, queueOf s q) = true) :
    To (.completionTimeout q true) s fun t =>
      queueOf t q = { queueOf s q with st := .disabling, stopDue := some 0 } ∧ t.work = s.work ∧ t.nv = s.nv := by
  have hactive : (queueOf s q).st = .active := by
    simp only [queueReady, Bool.and_eq_true, beq_iff_eq] at hready
    exact hready.1.1.1.1.1.2
  have hexec : exec (.completionTimeout q true) s = .next (settle s (entryFails q .timeout s)) := by
    show execCompletionTimeout q true s = _
    rw [execCompletionTimeout, if_pos rfl, hopen, hready]
    rfl
  obtain ⟨hstops, hwork, hnv, -, -, hquiet⟩ := entryFails_keeps hactive .timeout
  refine to_of_settle hexec (hquiet.trans hq) fun t hn => ⟨?_, (work_of_notified hn).trans hwork, (nv_of_notified hn).trans hnv⟩
  rw [queueOf, queues_of_notified hn]
  exact hstops

/-! ## A completion that is due (R107, R145, R147) -/

/-- The one entry, ended before dispatch, completes in its queue's ring. -/
theorem settle_completes {v : Work} {x : Queue} (s : State) (hwork : u.work = [v]) (hdone : v.stage = .done) (hseq : v.seq = 0)
    (hqueue : queueOf u v.qix = x) (hpath : x.path = .pcie)
    (hgate : judgeHost u.gates v.qix x.fn true (x.cqBase.toNat + 16 * x.cqTail) 16 = none) :
    (settle s u).work = [] ∧ ∃ more, (settle s u).out
      = u.out ++ .mem x.fn (x.cqBase.toNat + 16 * x.cqTail) (completionEntry x (eHtag v.ent) 0 v.status v.detail) :: more := by
  have hmay : mayComplete u.jrn v = true := by simp [mayComplete, hdone, hseq]
  obtain ⟨d, hd, hdeliver⟩ := deliver_single hwork hmay
  rw [finalStatus_of_no_seq hseq, hseq] at hd
  obtain ⟨hfaults, ⟨more, hout⟩, -⟩ := put_in_ring (gates := u.gates) (qix := v.qix) (htag := eHtag v.ent) (seq := 0) (status := v.status)
    (detail := v.detail) (output := v.acc) (d := ⟨u.queues, u.post, u.link.usbOut, u.spi.compl, []⟩) hqueue hpath hgate
  rw [← hd] at hfaults hout
  rw [hfaults, List.foldl_nil] at hdeliver
  have hdwork : (deliver u).work = [] := by rw [hdeliver]; rfl
  have hdout : (deliver u).out = d.post.out := by rw [hdeliver]; rfl
  obtain ⟨told, htold⟩ := noteChanges_sent s (fillEvents (deliver u))
  have hn := noteChanges_notified s (fillEvents (deliver u))
  refine ⟨(work_of_notified hn).trans ((WriteThrough.fillEvents_work _).trans hdwork), more ++ told, htold.trans ?_⟩
  rw [UnitRelease.fillEvents_out, hdout, hout]
  simp only [List.append_assoc, List.cons_append]
  rfl

/-! ## The source of an entry (R107, R145, R152) -/

variable {w : Work}

/-- The one entry of the device, whose source is outstanding, on a queue of a function that is not disabled. -/
structure Awaited (q : Nat) (w : Work) (s : State) : Prop where
  work : s.work = [w]
  index : w.qix = q
  stage : w.stage = .fetched
  seq : w.seq = 0
  awake : s.pwr.standbyDue = false
  fill : s.jrn.fill = jfill s
  serves : (queueOf s q).byFn = false

theorem awaits_of_awaited (h : Awaited q w s) : awaits q w = true := by simp [awaits, h.index, h.stage]

theorem source_execs (h : Awaited q w s) :
    (∀ result, exec (.sourceArrived q result) s = .next (sleepIfDue (settle s (sourceEnds q result s))))
      ∧ exec (.completionTimeout q false) s = .next (sleepIfDue (settle s (sourceEnds q (.aerError .timeout) s))) := by
  have hany : s.work.any (awaits q) = true := by rw [h.work, List.any_cons, awaits_of_awaited h, Bool.true_or]
  refine ⟨fun result => if_pos hany, ?_⟩
  show execCompletionTimeout q false s = _
  rw [execCompletionTimeout, if_neg Bool.false_ne_true, if_pos hany]

theorem modWork_single {p : Work → Bool} {f : Work → Work} (hwork : s.work = [w]) (hp : p w = true) :
    modWork p f s = recharge { s with work := [f w] } := by
  rw [modWork, hwork, UnitRelease.modFirst_single hp]

/-- The bytes of a source, cut or filled up to the source byte count. -/
theorem fit_eq (n : Nat) (b : Bytes) : fit n b = b.take n ++ List.replicate (n - b.length) 0 := rfl

theorem source_taken (h : Awaited q w s) {b : Bytes} (hover : overtaken s q = false) (hgood : stage2 w.ent (fit (srcCount w.ent) b) = none) :
    To (.sourceArrived q (.data b)) s fun t =>
      t.work = [{ w with
          src := b.take (srcCount w.ent) ++ List.replicate (srcCount w.ent - b.length) 0
          stage := .arrived
          charge := if staged w.ent then 64 else w.charge }]
        ∧ t.queues = s.queues ∧ t.nv = s.nv ∧ t.jrn = s.jrn := by
  have htake : takeSource (fit (srcCount w.ent) b) w
      = { w with src := fit (srcCount w.ent) b, stage := .arrived, charge := if staged w.ent then 64 else w.charge } := by
    unfold takeSource
    rw [hgood]
  obtain ⟨m, hends⟩ : ∃ m, sourceEnds q (.data b) s = { recharge { s with work := [takeSource (fit (srcCount w.ent) b) w] } with pmon := m } := by
    unfold sourceEnds
    simp only [h.serves, hover, Bool.false_eq_true, if_false, modWork_single h.work (awaits_of_awaited h)]
    exact ⟨_, rfl⟩
  have hexec := (source_execs h).1 (.data b)
  rw [hends, htake] at hexec
  have hquiet : quiet { recharge { s with work := [{ w with
      src := fit (srcCount w.ent) b, stage := .arrived, charge := if staged w.ent then 64 else w.charge }] } with pmon := m } = true := by
    have hfill := beq_iff_eq.mpr h.fill
    show (_ && s.jrn.fill == jfill s) = true
    rw [hfill]
    rfl
  rw [sleepIfDue_awake (by rw [settle_pwr]; exact h.awake)] at hexec
  exact to_of_settle hexec hquiet fun t hn => ⟨(work_of_notified hn).trans rfl, (queues_of_notified hn).trans rfl,
    (nv_of_notified hn).trans rfl, (jrn_of_notified hn).trans rfl⟩

/-- An entry whose source read ends with a status completes in its ring (R107, R147). -/
theorem source_completes (h : Awaited q w s) (hpath : (queueOf s q).path = .pcie)
    (hgate : judgeHost s.gates q (queueOf s q).fn true ((queueOf s q).cqBase.toNat + 16 * (queueOf s q).cqTail) 16 = none) {i : Instr}
    {result : ReadResult} {u : State} {st : Nat} (hexec : exec i s = .next (sleepIfDue (settle s (sourceEnds q result s))))
    (hends : sourceEnds q result s = modWork (awaits q) (Work.decided st 0) u)
    (hqueues : u.queues = s.queues) (hwork : u.work = s.work) (hnv : u.nv = s.nv) (hout : u.out = s.out) (hgates : u.gates = s.gates)
    (hpwr : u.pwr = s.pwr) :
    To i s fun t => t.work = [] ∧ t.nv = s.nv
      ∧ ∃ more, t.out = s.out ++ .mem (queueOf s q).fn ((queueOf s q).cqBase.toNat + 16 * (queueOf s q).cqTail)
          (completionEntry (queueOf s q) (eHtag w.ent) 0 st 0) :: more := by
  rw [hends, modWork_single (hwork.trans h.work) (awaits_of_awaited h)] at hexec
  have hqueue : queueOf u q = queueOf s q := by rw [queueOf, hqueues, queueOf]
  obtain ⟨hnone, more, hsent⟩ := settle_completes (u := recharge { u with work := [w.decided st 0] }) (v := w.decided st 0) (x := queueOf s q) s rfl
    rfl h.seq (by show queueOf u w.qix = _; rw [h.index, hqueue]) hpath (by
      show judgeHost u.gates w.qix _ _ _ _ = _
      rw [hgates, h.index]
      exact hgate)
  rw [sleepIfDue_awake (by rw [settle_pwr]; show u.pwr.standbyDue = false; rw [hpwr, h.awake])] at hexec
  refine ⟨_, hexec, hnone, (settle_nv ..).trans hnv, more, hsent.trans ?_⟩
  show u.out ++ _ = _
  rw [hout]
  rfl

/-- The read fails. -/
theorem source_fails (h : Awaited q w s) (k : ReadError) : sourceEnds q (.aerError k) s = modWork (awaits q)
    (Work.decided (if overtaken s q then stQueueDisabled else stAccessFault) 0) (aer (queueOf s q).fn (.sourceRead k) s) := by
  unfold sourceEnds
  simp only [h.serves, Bool.false_eq_true, if_false]
  split <;> rfl

theorem source_errors (h : Awaited q w s) (hpath : (queueOf s q).path = .pcie)
    (hgate : judgeHost s.gates q (queueOf s q).fn true ((queueOf s q).cqBase.toNat + 16 * (queueOf s q).cqTail) 16 = none) (k : ReadError) :
    ∀ i ∈ [Instr.sourceArrived q (.aerError k), Instr.completionTimeout q false],
      To i s fun t => t.work = [] ∧ t.nv = s.nv
        ∧ ∃ more, t.out = s.out ++ .mem (queueOf s q).fn ((queueOf s q).cqBase.toNat + 16 * (queueOf s q).cqTail)
            (completionEntry (queueOf s q) (eHtag w.ent) 0 (if overtaken s q then stQueueDisabled else stAccessFault) 0) :: more := by
  obtain ⟨harrived, htimeout⟩ := source_execs h
  have hcase := fun (i : Instr) (e : ReadError) (hexec : exec i s = .next (sleepIfDue (settle s (sourceEnds q (.aerError e) s)))) => by
    obtain ⟨hqueues, hwork, hnv, -, hout, hgates, hpwr⟩ := aer_keeps (queueOf s q).fn (.sourceRead e) s
    exact source_completes h hpath hgate hexec (source_fails h e) hqueues hwork hnv hout hgates hpwr
  intro i hi
  rcases List.mem_cons.mp hi with rfl | hi
  · exact hcase _ k (harrived _)
  · rw [List.mem_singleton.mp hi]
    exact hcase _ .timeout htimeout

theorem source_overtaken (h : Awaited q w s) (hpath : (queueOf s q).path = .pcie)
    (hgate : judgeHost s.gates q (queueOf s q).fn true ((queueOf s q).cqBase.toNat + 16 * (queueOf s q).cqTail) 16 = none) (b : Bytes)
    (hover : overtaken s q = true) :
    To (.sourceArrived q (.data b)) s fun t => t.work = [] ∧ t.nv = s.nv
      ∧ ∃ more, t.out = s.out ++ .mem (queueOf s q).fn ((queueOf s q).cqBase.toNat + 16 * (queueOf s q).cqTail)
          (completionEntry (queueOf s q) (eHtag w.ent) 0 stQueueDisabled 0) :: more := by
  refine source_completes h hpath hgate ((source_execs h).1 _) (u := s) ?_ rfl rfl rfl rfl rfl rfl
  unfold sourceEnds
  simp only [h.serves, hover, Bool.false_eq_true, if_false, if_true]

/-! ## What a fetch looks at does not depend on where the round robin stands -/

/-- The functions with other balances, and nothing else of them. -/
def SameShares (s t : State) : Prop :=
  (∀ f, (fnOf t f).staging = (fnOf s f).staging ∧ (fnOf t f).inGuar = (fnOf s f).inGuar ∧ (fnOf t f).inCap = (fnOf s f).inCap)
    ∧ t.fns.map (·.inGuar) = s.fns.map (·.inGuar)

/-- The state with the round robin standing elsewhere, and with more sent. -/
structure Polled (s t : State) : Prop where
  only : t = { s with fns := t.fns, sched := t.sched, out := t.out }
  shares : SameShares s t

theorem standAt_polled (sh : Nat) (p : FetchPick) (s : State) : Polled s (standAt sh p s) := by
  refine ⟨rfl, fun f => ?_, ?_⟩
  · simp only [fnOf, standAt, List.getD_eq_getElem?_getD, List.getElem?_mapIdx]
    cases s.fns[f]? <;> exact ⟨rfl, rfl, rfl⟩
  · unfold standAt
    refine List.ext_getElem? fun i => ?_
    simp only [List.getElem?_map, List.getElem?_mapIdx, Option.map_map]
    rfl

theorem polled_hostRead {t : State} (h : Polled s t) (fn addr len : Nat) (entry : Bool) : Polled s (hostRead fn addr len entry t) :=
  ⟨congrArg (fun x : State => { x with out := (hostRead fn addr len entry t).out }) h.only, h.shares⟩

section
variable {t : State} (h : Polled s t)
include h

theorem polled_keeps : t.work = s.work ∧ t.queues = s.queues ∧ t.nv = s.nv ∧ t.jrn = s.jrn ∧ t.nonces = s.nonces ∧ t.gates = s.gates
    ∧ t.link = s.link := by
  rw [h.only]
  exact ⟨rfl, rfl, rfl, rfl, rfl, rfl, rfl⟩

theorem quiet_polled : quiet t = quiet s := by
  rw [h.only]
  exact quiet_congr rfl rfl rfl

theorem stage1_polled (x : Queue) (e : Bytes) : stage1 t x e = stage1 s x e := by
  have hkind : kixKindBad t x.fn e = kixKindBad s x.fn e := by rw [h.only]; rfl
  have hreserve : seqReserve t = seqReserve s := by rw [h.only]; rfl
  have hhalt : tamperHalt t = tamperHalt s := by rw [h.only]; rfl
  have hfull : journalFull t = journalFull s := by rw [h.only]; rfl
  have hmissing : keyMissing t x e = keyMissing s x e := by rw [h.only]; rfl
  simp only [stage1, hkind, hreserve, hhalt, hfull, hmissing, (h.shares.1 x.fn).1]

theorem notYet_polled (e : Bytes) : notYet t e = notYet s e := by rw [h.only]; rfl

theorem creditFor_polled (f c : Nat) : creditFor t f c = creditFor s f c := by
  obtain ⟨-, hguar, hcap⟩ := h.shares.1 f
  have hheld : held t = held s := by
    rw [h.only]
    rfl
  have hpool : poolSize t = poolSize s := by rw [poolSize, h.shares.2, poolSize]
  simp only [creditFor, hheld, hpool, hguar, hcap]

theorem stagingFits_polled (f : Nat) (e : Bytes) : stagingFits t f e = stagingFits s f e := by
  rw [stagingFits, (polled_keeps h).1, (h.shares.1 f).1, stagingFits]

end

/-! ## An entry is taken, or passed over (R139, R142, R143, R144) -/

/-- The entry `w` has been taken from the ring of queue `q`. -/
structure Consumed (q : Nat) (w : Work) (s t : State) : Prop where
  work : t.work = s.work ++ [w]
  queue : queueOf t q = { queueOf s q with sqHead := ((queueOf s q).sqHead + 1) % (queueOf s q).entries }
  others : ∀ q', q' ≠ q → queueOf t q' = queueOf s q'
  nv : t.nv = s.nv
  jrn : t.jrn = s.jrn
  nonces : t.nonces = s.nonces

/-- Taking is seen in the entries, the queues, the journal and the nonce counters alone. -/
theorem consumed_congr {s' t t' : State} (h : Consumed q w s t) (hs : s.work = s'.work ∧ s.queues = s'.queues ∧ s.nv = s'.nv ∧ s.jrn = s'.jrn
    ∧ s.nonces = s'.nonces) (ht : t'.work = t.work ∧ t'.queues = t.queues ∧ t'.nv = t.nv ∧ t'.jrn = t.jrn ∧ t'.nonces = t.nonces) :
    Consumed q w s' t' := by
  obtain ⟨hwork, hqueue, hothers, hnv, hjrn, hnonces⟩ := h
  obtain ⟨hsw, hsq, hsn, hsj, hsc⟩ := hs
  obtain ⟨htw, htq, htn, htj, htc⟩ := ht
  have hsqueue : ∀ x, queueOf s x = queueOf s' x := fun x => by rw [queueOf, hsq, queueOf]
  have htqueue : ∀ x, queueOf t' x = queueOf t x := fun x => by rw [queueOf, htq, queueOf]
  refine ⟨by rw [htw, hwork, hsw], by rw [htqueue, hqueue, hsqueue], fun x hx => by rw [htqueue, hothers x hx, hsqueue],
    by rw [htn, hnv, hsn], by rw [htj, hjrn, hsj], by rw [htc, hnonces, hsc]⟩

/-- The ring's head has moved on by one entry. -/
def headMoved (x : Queue) : Queue := { x with sqHead := (x.sqHead + 1) % x.entries }

theorem consume_consumed (q : Nat) (w : Work) (s : State) : Consumed q w s (consume q w s) := by
  have hqueues : (consume q w s).queues = (modQueue q headMoved s).queues := rfl
  refine ⟨rfl, ?_, fun x hx => ?_, rfl, rfl, rfl⟩
  · rw [queueOf, hqueues]
    exact queueOf_modQueue_self q headMoved s
  · rw [queueOf, hqueues]
    exact queueOf_modQueue_ne hx headMoved s

/-- An entry that is only taken makes nothing due. -/
theorem quiet_consumed {t : State} (h : Consumed q w s t) (hstage : w.stage ≠ .done) (hq : quiet s = true) : quiet t = true := by
  have hfill : jfill t = jfill s := by rw [jfill, ringUsed, h.nv, jfill, ringUsed]
  have hnot : mayComplete s.jrn w = false := by
    rw [mayComplete, beq_eq_false_iff_ne.mpr hstage, Bool.false_and]
  simp only [quiet, Bool.and_eq_true] at hq ⊢
  rw [h.work, h.jrn, hfill, List.all_append, hq.1, hq.2]
  simp [hnot]

/-- An entry that passes stage 1 and may be taken now. -/
structure Passes (s : State) (q : Nat) (b : Bytes) : Prop where
  stage1 : stage1 s (queueOf s q) b = none
  now : notYet s b = false

/-- The entry as it is charged and taken. -/
def takenEntry (q : Nat) (b : Bytes) (pool : Bool) (s : State) : Work :=
  { qix := q, fn := (queueOf s q).fn, ent := b, epoch := s.epoch, cto := s.link.cto, charge := ingressCharge b, pooled := pool
    stCharge := stagingCharge b }

theorem judge_nop {b : Bytes} {sh : Nat} {pool : Bool} (h : Passes s q b) (hcredit : creditFor s (queueOf s q).fn (ingressCharge b) = some pool)
    (hstaging : stagingFits s (queueOf s q).fn b = true) (hnop : eOpc b = 0) :
    judgeEntry sh q b s = consume q { takenEntry q b pool s with stage := .arrived } s := by
  unfold judgeEntry
  simp only [h.stage1, h.now, hcredit, hstaging, hnop, Bool.false_eq_true, Bool.not_true, if_false, if_true]
  rfl

theorem judge_reads {b : Bytes} {sh : Nat} {pool : Bool} (h : Passes s q b) (hcredit : creditFor s (queueOf s q).fn (ingressCharge b) = some pool)
    (hstaging : stagingFits s (queueOf s q).fn b = true) (hop : eOpc b ≠ 0)
    (hgate : judgeHost s.gates sh (queueOf s q).fn false (eSrc b) (srcCount b) = none) :
    judgeEntry sh q b s = hostRead (queueOf s q).fn (eSrc b) (srcCount b) true
      (count 0x09 (queueOf s q).fn ((srcCount b + 63) / 64) (spend sh (queueOf s q).fn (srcCount b) (consume q (takenEntry q b pool s) s))) := by
  unfold judgeEntry
  simp only [h.stage1, h.now, hcredit, hstaging, hgate, Bool.false_eq_true, Bool.not_true, if_false, if_neg hop]
  rfl

/-- With credit and staging the entry is taken, and its source is asked for. -/
theorem judge_takes {b : Bytes} {sh : Nat} (h : Passes s q b) (hcredit : (creditFor s (queueOf s q).fn (ingressCharge b)).isSome = true)
    (hstaging : stagingFits s (queueOf s q).fn b = true)
    (hgate : eOpc b = 0 ∨ judgeHost s.gates sh (queueOf s q).fn false (eSrc b) (srcCount b) = none) :
    ∃ w : Work, Consumed q w s (judgeEntry sh q b s) ∧ w.ent = b ∧ w.qix = q ∧ w.fn = (queueOf s q).fn ∧ w.seq = 0
      ∧ w.charge = ingressCharge b ∧ w.stCharge = stagingCharge b ∧ w.stage = (if eOpc b = 0 then .arrived else .fetched) := by
  obtain ⟨pool, hpool⟩ := Option.isSome_iff_exists.mp hcredit
  by_cases hop : eOpc b = 0
  · rw [judge_nop h hpool hstaging hop, if_pos hop]
    exact ⟨_, consume_consumed .., rfl, rfl, rfl, rfl, rfl, rfl, rfl⟩
  · rw [judge_reads h hpool hstaging hop (hgate.resolve_left hop), if_neg hop]
    exact ⟨takenEntry q b pool s, consumed_congr (consume_consumed ..) ⟨rfl, rfl, rfl, rfl, rfl⟩ ⟨rfl, rfl, rfl, rfl, rfl⟩,
      rfl, rfl, rfl, rfl, rfl, rfl, rfl⟩

/-- An entry for which there is no credit or no staging stays, and its queue is passed over. -/
theorem judge_passes {b : Bytes} {sh : Nat} (h : Passes s q b)
    (hfull : creditFor s (queueOf s q).fn (ingressCharge b) = none ∨ stagingFits s (queueOf s q).fn b = false) :
    judgeEntry sh q b s = count 0x08 (queueOf s q).fn 1 (passOver sh q s) := by
  unfold judgeEntry
  simp only [h.stage1, h.now, Bool.false_eq_true, if_false]
  cases hcredit : creditFor s (queueOf s q).fn (ingressCharge b) with
  | none => rfl
  | some pool =>
    have hstaging := hfull.resolve_left (by rw [hcredit]; exact Option.some_ne_none _)
    simp only [hstaging, Bool.not_false, if_true]

/-! ## FETCH (R139, R144) -/

/-- The state in which an entry's read has been answered: the round robin stands at the queue picked. -/
def asked (sh : Nat) (p : FetchPick) (s : State) : State :=
  hostRead p.fn ((queueOf s p.queue).sqBase.toNat + 32 * (queueOf s p.queue).sqHead) 32 true (standAt sh p s)

theorem asked_polled (sh : Nat) (p : FetchPick) (s : State) : Polled s (asked sh p s) := polled_hostRead (standAt_polled sh p s) ..

theorem queueOf_asked (sh : Nat) (p : FetchPick) (s : State) (q : Nat) : queueOf (asked sh p s) q = queueOf s q := by
  rw [queueOf, (polled_keeps (asked_polled sh p s)).2.1, queueOf]

theorem passes_asked (sh : Nat) {p : FetchPick} {b : Bytes} (hpass : Passes s p.queue b) : Passes (asked sh p s) p.queue b :=
  ⟨by rw [queueOf_asked, stage1_polled (asked_polled sh p s), hpass.stage1], by rw [notYet_polled (asked_polled sh p s), hpass.now]⟩

/-- A fetch that the shard's gate lets through. -/
structure Asks (sh : Nat) (p : FetchPick) (s : State) : Prop where
  quiet : quiet s = true
  open_ : fetchOpen s = true
  pick : fetchPick s sh = some p
  gate : judgeHost s.gates sh p.fn false ((queueOf s p.queue).sqBase.toNat + 32 * (queueOf s p.queue).sqHead) 32 = none

section
variable {sh : Nat} {p : FetchPick} (h : Asks sh p s)
include h

theorem fetch_data {b : Bytes} (hlen : b.length = 32) : exec (.fetch sh (.data b)) s = .next (settle s (judgeEntry sh p.queue b (asked sh p s))) := by
  have hfit : fit 32 b = b := by rw [fit_eq, hlen, Nat.sub_self, List.replicate_zero, List.append_nil, List.take_of_length_le hlen.le]
  show execFetch sh (.data b) s = _
  rw [execFetch, if_pos h.open_, h.pick]
  simp only [h.gate, hfit]
  rfl

theorem fetch_error (k : ReadError) : exec (.fetch sh (.aerError k)) s = .next (settle s (entryFails p.queue k (asked sh p s))) := by
  show execFetch sh (.aerError k) s = _
  rw [execFetch, if_pos h.open_, h.pick]
  simp only [h.gate]
  rfl

theorem fetch_takes {b : Bytes} (hlen : b.length = 32) (hpass : Passes s p.queue b)
    (hcredit : (creditFor s (queueOf s p.queue).fn (ingressCharge b)).isSome = true) (hstaging : stagingFits s (queueOf s p.queue).fn b = true)
    (hgate : eOpc b = 0 ∨ judgeHost s.gates sh (queueOf s p.queue).fn false (eSrc b) (srcCount b) = none) :
    To (.fetch sh (.data b)) s fun t =>
      (∃ w : Work, t.work = s.work ++ [w] ∧ w.ent = b ∧ w.qix = p.queue ∧ w.fn = (queueOf s p.queue).fn ∧ w.seq = 0
          ∧ w.charge = ingressCharge b ∧ w.stCharge = stagingCharge b ∧ w.stage = (if eOpc b = 0 then .arrived else .fetched))
        ∧ queueOf t p.queue = { queueOf s p.queue with sqHead := ((queueOf s p.queue).sqHead + 1) % (queueOf s p.queue).entries }
        ∧ (∀ q', q' ≠ p.queue → queueOf t q' = queueOf s q') ∧ t.nv = s.nv ∧ t.jrn = s.jrn ∧ t.nonces = s.nonces := by
  have hpolled := asked_polled sh p s
  obtain ⟨hwork, hqueues, hnv, hjrn, hnonces, hgates, -⟩ := polled_keeps hpolled
  obtain ⟨w, hconsumed, hent, hqix, hfn, hseq, hcharge, hst, hstage⟩ := judge_takes (sh := sh) (passes_asked sh hpass)
    (by rw [queueOf_asked, creditFor_polled hpolled]; exact hcredit) (by rw [queueOf_asked, stagingFits_polled hpolled]; exact hstaging)
    (by rw [queueOf_asked, hgates]; exact hgate)
  rw [queueOf_asked] at hfn
  have hnot : w.stage ≠ .done := by rw [hstage]; split <;> decide
  have hquiet := quiet_consumed hconsumed hnot ((quiet_polled hpolled).trans h.quiet)
  refine to_of_settle (fetch_data h hlen) hquiet fun t hn => ?_
  obtain ⟨hw, hq, hothers, hn', hj, hc⟩ := consumed_congr hconsumed ⟨hwork, hqueues, hnv, hjrn, hnonces⟩
    ⟨work_of_notified hn, queues_of_notified hn, nv_of_notified hn, jrn_of_notified hn, by rw [hn.1]⟩
  exact ⟨⟨w, hw, hent, hqix, hfn, hseq, hcharge, hst, hstage⟩, hq, hothers, hn', hj, hc⟩

theorem fetch_passes {b : Bytes} (hlen : b.length = 32) (hpass : Passes s p.queue b)
    (hfull : creditFor s (queueOf s p.queue).fn (ingressCharge b) = none ∨ stagingFits s (queueOf s p.queue).fn b = false) :
    To (.fetch sh (.data b)) s fun t =>
      t.work = s.work ∧ t.queues = s.queues ∧ t.nv = s.nv
        ∧ (sh < s.sched.passed.length → (t.sched.passed.getD sh []).contains p.queue = true) := by
  have hpolled := asked_polled sh p s
  obtain ⟨hwork, hqueues, hnv, -⟩ := polled_keeps hpolled
  have hpasses := judge_passes (sh := sh) (passes_asked sh hpass) (by
    rw [queueOf_asked, creditFor_polled hpolled, stagingFits_polled hpolled]
    exact hfull)
  have hexec := fetch_data h hlen
  rw [hpasses] at hexec
  have hquiet := (quiet_polled hpolled).trans h.quiet
  have hlength : (asked sh p s).sched.passed.length = s.sched.passed.length := by
    unfold asked standAt
    show (if p.fresh then _ else _ : List (List Nat)).length = _
    split
    · exact List.length_set
    · rfl
  generalize asked sh p s = u at *
  refine to_of_settle hexec ((quiet_congr rfl rfl rfl).trans hquiet) fun t hn => ⟨(work_of_notified hn).trans hwork, (queues_of_notified hn).trans hqueues,
    (nv_of_notified hn).trans hnv, fun hsh => ?_⟩
  have hsched : t.sched.passed = modAt u.sched.passed sh fun l => p.queue :: l := by rw [hn.1]; rfl
  have hin : sh < u.sched.passed.length := by rw [hlength]; exact hsh
  rw [hsched]
  simp [modAt, List.getD_eq_getElem?_getD, hin]

theorem fetch_fails (hactive : (queueOf s p.queue).st = .active) (k : ReadError) :
    To (.fetch sh (.aerError k)) s fun t =>
      queueOf t p.queue = { queueOf s p.queue with st := .disabling, stopDue := some 0 } ∧ t.work = s.work ∧ t.nv = s.nv
        ∧ (s.link.pcieTun = true → t.link.aer = s.link.aer ++ [((queueOf s p.queue).fn, .entryRead k)])
        ∧ ∀ q', q' ≠ p.queue → queueOf t q' = queueOf s q' := by
  have hpolled := asked_polled sh p s
  have hsame := queueOf_asked sh p s
  obtain ⟨hwork, -, hnv, -, -, -, hlink⟩ := polled_keeps hpolled
  have hexec := fetch_error h k
  have hquiet := (quiet_polled hpolled).trans h.quiet
  generalize asked sh p s = u at *
  obtain ⟨hstops, hfwork, hfnv, haer, hothers, hfquiet⟩ := entryFails_keeps (q := p.queue) (s := u) (by rw [hsame]; exact hactive) k
  have hqueue : ∀ {t : State} (q' : Nat), Notified (entryFails p.queue k u) t → queueOf t q' = queueOf (entryFails p.queue k u) q' :=
    fun q' hn => by rw [queueOf, queues_of_notified hn, queueOf]
  refine to_of_settle hexec (hfquiet.trans hquiet) fun t hn => ⟨?_, ((work_of_notified hn).trans hfwork).trans hwork,
    ((nv_of_notified hn).trans hfnv).trans hnv, fun hup => ?_, fun q' hq' => ?_⟩
  · rw [hqueue _ hn, hstops, hsame]
  · rw [aer_of_notified hn, haer (by rw [hlink]; exact hup), hlink, hsame]
  · rw [hqueue _ hn, hothers q' hq', hsame]

end

end

/-- Settles O22: a fetch looks at nothing that the round robin's standing moves (`stage1_polled` and its like), and what a source read decides is
told by `settle_completes`. -/
theorem entriesAreFetchedAndFed : Obligations.EntriesAreFetchedAndFed := by
  unfold Obligations.EntriesAreFetchedAndFed
  refine ⟨fun sh p s hq hopen hpick hgate => ?_, fun q w s hwork hqix hstage hseq hawake hfill hserves => ?_, fun q s => timeout_stops⟩
  · have h : Asks sh p s := ⟨hq, hopen, hpick, hgate⟩
    exact ⟨fun b hlen hstage hnow => ⟨fetch_takes h hlen ⟨hstage, hnow⟩, fetch_passes h hlen ⟨hstage, hnow⟩⟩,
      fun k hactive => fetch_fails h hactive k⟩
  · have h : Awaited q w s := ⟨hwork, hqix, hstage, hseq, hawake, hfill, hserves⟩
    exact ⟨fun b => source_taken h, fun hpath hgate => ⟨source_errors h hpath hgate, source_overtaken h hpath hgate⟩⟩

end Sys2Proof.Fetching
end

section
/-! # What the steps of a start keep (O11) -/
namespace Sys2Proof.Starting
open Sys2Proof Sys2Proof.Machine

/-- What a start settles and its later steps keep: the phase with the flags of the power block, the link interfaces, PD00's counters and the
mode in which the image runs. -/
structure Standing where
  phase : Phase
  everStarted : Bool
  standby : Bool
  pd00Lost : Bool
  reason : StartReason
  enabled : Bool
  opsec : Nat
  pwrCyc : Nat
  mode : FwMode

/-- These of a state. -/
def standing (s : State) : Standing :=
  { phase := s.pwr.phase, everStarted := s.pwr.everStarted, standby := s.pwr.standby, pd00Lost := s.pwr.pd00Lost, reason := s.pwr.reason
    enabled := s.link.enabled, opsec := s.opsec, pwrCyc := s.pwrCyc, mode := s.boot.mode }

theorem foldl_standing {α : Type} (g : State → α → State) (l : List α) (s : State) (h : ∀ t x, standing (g t x) = standing t) :
    standing (l.foldl g s) = standing s :=
  foldl_keeps (P := fun t => standing t = standing s) g l s rfl fun _ _ ht => (h _ _).trans ht

theorem ite_standing {c : Prop} [Decidable c] {a b : State} {x : Standing} (ha : standing a = x) (hb : standing b = x) :
    standing (if c then a else b) = x := by
  split <;> assumption

@[simp] theorem standing_withNv (s : State) (n : Nv) : standing { s with nv := n } = standing s := by simp only [standing]

@[simp] theorem standing_withJrn (s : State) (j : Journal) : standing { s with jrn := j } = standing s := by simp only [standing]

@[simp] theorem standing_withLark (s : State) (l : Larkspur) : standing { s with lark := l } = standing s := by simp only [standing]

@[simp] theorem standing_withEngine (s : State) (e : Engine) : standing { s with engine := e } = standing s := by simp only [standing]

/-! One lemma for each function that a start runs, the response to a T2 input included: it keeps what stands. -/

@[simp] theorem cutFlush_standing (n : Nat) (word : Option (BitVec 5)) (r : WordRead) (s : State) : standing (cutFlush n word r s) = standing s := by
  unfold cutFlush
  split
  · rfl
  · dsimp only
    split <;> rfl

@[simp] theorem damageFlush_standing (s : State) (d : Damage) : standing (damageFlush s d) = standing s := by
  unfold damageFlush
  split <;> simp

@[simp] theorem wipeProvision_standing (s : State) : standing (wipeProvision s) = standing s := by simp only [wipeProvision, standing]

@[simp] theorem wipeIfProvision_standing (s : State) : standing (wipeIfProvision s) = standing s := by
  unfold wipeIfProvision
  split <;> simp

@[simp] theorem burn_standing (w : Nat) (v : BitVec 64) (s : State) : standing (burn w v s) = standing s := by simp only [burn, standing]

@[simp] theorem completeBurns_standing (s : State) : standing (completeBurns s) = standing s :=
  (foldl_standing _ _ _ fun _ _ => ite_standing (burn_standing ..) rfl).trans
      (foldl_standing _ _ _ fun _ _ => ite_standing (burn_standing ..) rfl)

@[simp] theorem decodeOtp_standing (s : State) : standing (decodeOtp s) = standing s := completeBurns_standing s

@[simp] theorem setCtr_standing (n v : Nat) (s : State) : standing (setCtr n v s) = standing s := by
  rw [setCtr_only]
  rfl

@[simp] theorem nextEpoch_standing (s : State) : standing (nextEpoch s) = standing s := by
  unfold nextEpoch
  split
  · rfl
  · dsimp only
    split
    · rfl
    · exact (setCtr_standing ..).trans rfl

@[simp] theorem resolveCounters_standing (s : State) : standing (resolveCounters s) = standing s := by simp only [resolveCounters, standing]

@[simp] theorem modCopy_standing (n copy : Nat) (f : CtrCopy → CtrCopy) (s : State) : standing (modCopy n copy f s) = standing s :=
  ite_standing rfl rfl

@[simp] theorem damageCounter_standing (s : State) (d : Damage) : standing (damageCounter s d) = standing s := by
  unfold damageCounter
  split <;> simp

@[simp] theorem firstCounters_standing (s : State) : standing (firstCounters s) = standing s := ite_standing rfl rfl

@[simp] theorem count_standing (src fn n : Nat) (s : State) : standing (count src fn n s) = standing s := by simp only [count, standing]

@[simp] theorem recordEvt_standing (e : Evt) (s : State) : standing (recordEvt e s) = standing s := by simp only [recordEvt, standing]

@[simp] theorem recordHeld_standing (s : State) : standing (recordHeld s) = standing s :=
  (foldl_standing _ _ _ fun _ _ => recordEvt_standing ..).trans rfl

@[simp] theorem eventX_standing (code arg : Nat) (ext : Bytes) (s : State) : standing (eventX code arg ext s) = standing s := by
  rw [eventX_only]
  rfl

@[simp] theorem event_standing (code arg : Nat) (s : State) : standing (event code arg s) = standing s := by
  rw [event_only]
  rfl

@[simp] theorem tornEvent_standing (ds : List Damage) (r : Nat × (Nat × Nat) × Bool) (s : State) : standing (tornEvent ds r s) = standing s := by
  unfold tornEvent
  split <;> simp

@[simp] theorem haltStart_standing (s : State) : standing (haltStart s) = standing s := by simp only [haltStart, standing]

@[simp] theorem holdInvalidates_standing (s : State) : standing (holdInvalidates s) = standing s := ite_standing rfl rfl

@[simp] theorem burnTampered_standing (s : State) : standing (burnTampered s) = standing s := by
  rw [burnTampered_only]
  rfl

@[simp] theorem startRespond_standing {note : Nat → Nat → State → State} {act : State → State}
    (hnote : ∀ code bits t, standing (note code bits t) = standing t) (hact : ∀ t, standing (act t) = standing t) (c : TClass) (persists : Bool)
    (bits : Nat) (s : State) : standing (startRespond c persists note bits act s) = standing s := by
  cases c with
  | t1 => exact hnote ..
  | t2 => exact (hact _).trans (hnote ..)
  | t3 => exact (haltStart_standing _).trans (hnote ..)
  | t4 =>
    have hburnt : standing (holdInvalidates (burnTampered (note 0x0D04 bits s))) = standing s := by simp [hnote]
    exact ite_standing ((haltStart_standing _).trans (hnote ..)) (ite_standing ((haltStart_standing _).trans hburnt) hburnt)

@[simp] theorem drew_standing (s : State) : standing (drew s) = standing s := by simp only [drew, standing]

@[simp] theorem startLatched_standing (l : Nat × Nat × Nat) (s : State) : standing (startLatched l s) = standing s := by
  unfold startLatched
  split
  · rfl
  · exact startRespond_standing (fun _ _ _ => recordEvt_standing ..) (fun _ => rfl) _ _ _ _

@[simp] theorem readLatch_standing (s : State) : standing (readLatch s) = standing s :=
  (foldl_standing _ _ _ fun _ _ => startLatched_standing ..).trans rfl

@[simp] theorem recoverEvents_standing (ds : List Damage) (s : State) : standing (recoverEvents ds s) = standing s := by
  simp only [recoverEvents, standing]

@[simp] theorem aer_standing (f : Nat) (e : AerError) (s : State) : standing (aer f e s) = standing s := ite_standing rfl rfl

@[simp] theorem unitFails_standing (unit index : Nat) (s : State) : standing (unitFails unit index s) = standing s :=
  (aer_standing ..).trans ((event_standing ..).trans rfl)

@[simp] theorem pkeLeaves_standing (k : Nat) (s : State) : standing (pkeLeaves k s) = standing s :=
  (aer_standing ..).trans ((event_standing ..).trans rfl)

@[simp] theorem dguLeaves_standing (k : Nat) (s : State) : standing (dguLeaves k s) = standing s := by
  unfold dguLeaves
  rw [aer_standing, event_standing]
  split <;> rfl

@[simp] theorem modLane_standing (n : Nat) (g : Lane → Lane) (s : State) : standing (modLane n g s) = standing s := by simp only [modLane, standing]

@[simp] theorem withdrawLane_standing (st : LaneSt) (n : Nat) (s : State) : standing (withdrawLane st n s) = standing s := by simp [withdrawLane]

@[simp] theorem modSlot_standing (p : Nat) (g : Slot → Slot) (s : State) : standing (modSlot p g s) = standing s := by simp only [modSlot, standing]

@[simp] theorem fillSlot_standing (p a b : Nat) (s : State) : standing (fillSlot p a b s) = standing s := by simp [fillSlot]

@[simp] theorem claimEvent_standing (p cause old : Nat) (new : Option (Nat × Nat)) (s : State) :
    standing (claimEvent p cause old new s) = standing s := by
  simp [claimEvent]

@[simp] theorem dropResults_standing (p : Nat) (s : State) : standing (dropResults p s) = standing s := by simp only [dropResults, standing]

@[simp] theorem takeBack_standing (p : Nat) (s : State) : standing (takeBack p s) = standing s := by
  simp only [takeBack, dropResults, count, standing]

@[simp] theorem withdraw_standing (p cause : Nat) (new : Option (Nat × Nat)) (s : State) : standing (withdraw p cause new s) = standing s := by
  simp [withdraw]

@[simp] theorem modMbx_standing (f m : Nat) (g : Mbx → Mbx) (s : State) : standing (modMbx f m g s) = standing s := by simp only [modMbx, standing]

@[simp] theorem message_standing (f v : Nat) (s : State) : standing (message f v s) = standing s := by
  rw [message_only]
  rfl

@[simp] theorem respond_standing (op : Nat) (r : Req) (status detail : Nat) (body : Bytes) (s : State) :
    standing (respond op r status detail body s) = standing s := by
  unfold respond
  dsimp only
  split
  · exact ite_standing ((message_standing ..).trans rfl) rfl
  · rfl
  · rfl

@[simp] theorem answerWaiter_standing (w : Waiter) (status detail : Nat) (body : Bytes) (s : State) :
    standing (answerWaiter w status detail body s) = standing s := by
  unfold answerWaiter
  (repeat' split) <;> simp

@[simp] theorem answerAll_standing (p : Waiter → Bool) (reply : Waiter → Nat × Nat × Bytes) (s : State) :
    standing (answerAll p reply s) = standing s :=
  (foldl_standing _ _ _ fun _ _ => answerWaiter_standing ..).trans rfl

@[simp] theorem answerTests_standing (target : Nat) (fail : Bool) (s : State) : standing (answerTests target fail s) = standing s := by
  simp [answerTests]

@[simp] theorem noteTest_standing (n : Nat) (pass : Bool) (s : State) : standing (noteTest n pass s) = standing s := by
  unfold noteTest
  split
  · rfl
  · have hrecorded : standing (if pass then s else event 0x0109 (unitArg 0x10 n) s) = standing s := ite_standing rfl (event_standing ..)
    exact ite_standing (ite_standing ((answerTests_standing ..).trans ((answerTests_standing ..).trans hrecorded)) hrecorded) rfl

@[simp] theorem setDomain_standing (n : Nat) (d : DomState) (s : State) : standing (setDomain n d s) = standing s := by
  simp only [setDomain, standing]

@[simp] theorem laneDomains_standing (n : Nat) (d : DomState) (s : State) : standing (laneDomains n d s) = standing s := by simp [laneDomains]

@[simp] theorem laneDown_standing (st : LaneSt) (n : Nat) (s : State) : standing (laneDown st n s) = standing s := by simp [laneDown]

@[simp] theorem laneFails_standing (n : Nat) (s : State) : standing (laneFails n s) = standing s := by simp [laneFails]

@[simp] theorem testLane_standing (n : Nat) (s : State) : standing (testLane n s) = standing s := by
  unfold testLane
  (repeat' split) <;> simp

@[simp] theorem takeFrom_standing (b : Nat) (s : State) : standing (takeFrom b s).2 = standing s := by
  rw [takeFrom_only]
  rfl

@[simp] theorem takeBlock_standing (s : State) : standing (takeBlock s).2 = standing s := by
  rw [takeBlock_only]
  rfl

@[simp] theorem takeBlocks_standing (n : Nat) (s : State) : standing (takeBlocks n s).2 = standing s := by
  rw [takeBlocks_only]
  rfl

@[simp] theorem takeSeed_standing (s : State) : standing (takeSeed s).2 = standing s := by
  rw [takeSeed_only]
  rfl

@[simp] theorem startLane_standing (p n : Nat) (s : State) : standing (startLane p n s) = standing s := by simp [startLane]

@[simp] theorem beginRebuild_standing (p : Nat) (s : State) : standing (beginRebuild p s) = standing s := by
  unfold beginRebuild
  split <;> simp

@[simp] theorem failover_standing (slot : Nat) (cause : FailCause) (s : State) : standing (failover slot cause s) = standing s := by
  unfold failover
  dsimp only
  (repeat' split) <;> simp

@[simp] theorem laneLeavesFor_standing (cause : FailCause) (n : Nat) (s : State) : standing (laneLeavesFor cause n s) = standing s := by
  unfold laneLeavesFor
  split <;> simp

@[simp] theorem modBank_standing (b : Nat) (g : Bank → Bank) (s : State) : standing (modBank b g s) = standing s := by simp only [modBank, standing]

@[simp] theorem calibrate_standing (b : Nat) (s : State) : standing (calibrate b s) = standing s := by simp [calibrate]

@[simp] theorem startDeferred_standing (s : State) : standing (startDeferred s) = standing s := by
  unfold startDeferred
  split
  · rfl
  · split
    · exact (calibrate_standing ..).trans rfl
    · rfl

@[simp] theorem calibrateNext_standing (s : State) : standing (calibrateNext s) = standing s := by
  unfold calibrateNext
  (repeat' split) <;> simp

@[simp] theorem rebuildSlots_standing (s : State) : standing (rebuildSlots s) = standing s :=
  foldl_standing _ _ _ fun _ _ => ite_standing (ite_standing (beginRebuild_standing ..) (ite_standing (modSlot_standing ..) rfl)) rfl

@[simp] theorem reseedLane_standing (n : Nat) (s : State) : standing (reseedLane n s) = standing s := by
  unfold reseedLane
  split <;> simp

@[simp] theorem seedLanes_standing (s : State) : standing (seedLanes s) = standing s :=
  foldl_standing _ _ _ fun _ _ => ite_standing rfl (reseedLane_standing ..)

@[simp] theorem freshWraps_standing (s : State) : standing (freshWraps s) = standing s := by
  rw [freshWraps_only]
  rfl

@[simp] theorem engineKeys_standing (s : State) : standing (engineKeys s) = standing s :=
  ite_standing ((standing_withEngine ..).trans ((takeSeed_standing _).trans (takeBlocks_standing ..))) rfl

@[simp] theorem drawWaiting_standing (s : State) : standing (drawWaiting s) = standing s := by
  unfold drawWaiting
  dsimp only
  (repeat' split) <;> simp

@[simp] theorem answerFor_standing (op obj status detail : Nat) (body : Bytes) (s : State) :
    standing (answerFor op obj status detail body s) = standing s := by
  simp [answerFor]

@[simp] theorem raiseMark_standing (s : State) : standing (raiseMark s) = standing s := by simp [raiseMark]

@[simp] theorem takeSeq_standing (s : State) : standing (takeSeq s) = standing s := by
  rw [takeSeq_only]
  rfl

@[simp] theorem sealPages_standing (m : Nat) (s : State) : standing (sealPages m s) = standing s := by
  rw [sealPages_only]
  rfl

@[simp] theorem makeRoom_standing (len : Nat) (s : State) : standing (makeRoom len s) = standing s := by
  rw [makeRoom_only]
  rfl

@[simp] theorem writePages_standing (s : State) : standing (writePages s) = standing s := by
  rw [writePages_only]
  rfl

@[simp] theorem journalEntry_standing (type : Nat) (claimed : Bool) (body : Bytes) (s : State) :
    standing (journalEntry type claimed body s) = standing s := by
  rw [journalEntry_only]
  rfl

@[simp] theorem modDraw_standing (id : Nat) (g : Draw → Draw) (s : State) : standing (modDraw id g s) = standing s := by
  simp only [modDraw, standing]

@[simp] theorem resultDraw_standing (d : Draw) (seed : Bytes) (s : State) : standing (resultDraw d seed s) = standing s := by simp [resultDraw]

@[simp] theorem countWords_standing (params seed : Bytes) (times : Nat) (s : State) : standing (countWords params seed times s) = standing s := by
  simp [countWords]

@[simp] theorem mismatches_standing (id n : Nat) (s : State) : standing (mismatches id n s) = standing s := by
  unfold mismatches
  simp [foldl_standing]

@[simp] theorem computeDraw_standing (id fails : Nat) (s : State) : standing (computeDraw id fails s) = standing s := by
  unfold computeDraw
  split
  · rfl
  · split
    · rfl
    · exact ite_standing (by simp) ((eventX_standing ..).trans ((standing_withLark ..).trans (by simp)))

@[simp] theorem takeMany_standing (b n : Nat) (s : State) : standing (takeMany b n s).2 = standing s := by
  rw [takeMany_only]
  rfl

@[simp] theorem formSeed_standing (s : State) : standing (formSeed s).2 = standing s := by
  unfold formSeed
  exact List.foldlRecOn (motive := fun a : Bytes × State => standing a.2 = standing s) _ _ rfl fun _ ha _ _ => (takeMany_standing ..).trans ha

@[simp] theorem commitDraw_standing (d : Draw) (s : State) : standing (commitDraw d s) = standing s := by
  unfold commitDraw
  dsimp only
  rw [modDraw_standing]
  split <;> simp

@[simp] theorem runDraw_standing (d : Draw) (fails : Nat) (s : State) : standing (runDraw d fails s) = standing s := by simp [runDraw]

@[simp] theorem startRun_standing (d : Draw) (op fails : Nat) (s : State) : standing (startRun d op fails s).after = standing s := by
  unfold startRun
  split
  · rfl
  · dsimp only
    split
    · exact runDraw_standing ..
    · rfl

@[simp] theorem runByState_standing (d : Draw) (fails : Nat) (s : State) : standing (runByState d fails s).after = standing s := by
  unfold runByState
  dsimp only
  (repeat' split) <;> simp

@[simp] theorem batchByState_standing (d : Draw) (fails : Nat) (s : State) : standing (batchByState d fails s).after = standing s := by
  unfold batchByState
  split <;> simp

@[simp] theorem resumeWaiting_standing (x : Nat × Nat × Nat) (s : State) : standing (resumeWaiting x s) = standing s := by
  unfold resumeWaiting
  split
  · simp
  · next d _ =>
    have hreply : standing (if x.2.1 = 0x0403 then runByState d x.2.2 s else batchByState d x.2.2 s).after = standing s := by
      split <;> simp
    split
    · next e => exact (answerFor_standing ..).trans (by simpa [e] using hreply)
    · next e => simpa [e] using hreply

@[simp] theorem serveRuns_standing (s : State) : standing (serveRuns s) = standing s :=
  (foldl_standing _ _ _ fun _ _ => resumeWaiting_standing ..).trans rfl

@[simp] theorem bankChanged_standing (s : State) : standing (bankChanged s) = standing s := by simp [bankChanged]

@[simp] theorem bankDies_standing (b : Nat) (s : State) : standing (bankDies b s) = standing s := by simp [bankDies]

@[simp] theorem suspendBank_standing (b : Nat) (s : State) : standing (suspendBank b s) = standing s := by
  unfold suspendBank
  dsimp only
  (repeat' split) <;> simp

@[simp] theorem domainLeaves_standing (n : Nat) (s : State) : standing (domainLeaves n s) = standing s := by
  have hunit : ∀ unit index, standing (unitFails unit index s) = standing s := fun _ _ => unitFails_standing ..
  have hbank : standing (if (bankOf s (n - 59)).st = .serving ∨ (bankOf s (n - 59)).st = .calibrating then bankChanged (suspendBank (n - 59) s)
      else s) = standing s := ite_standing ((bankChanged_standing _).trans (suspendBank_standing ..)) rfl
  unfold domainLeaves
  exact ite_standing (by simp only [standing]) <| ite_standing (hunit ..) <| ite_standing (pkeLeaves_standing ..) <|
    ite_standing ((dguLeaves_standing ..).trans (dguLeaves_standing ..)) <| ite_standing (laneLeavesFor_standing ..) <|
    ite_standing (hunit ..) <| ite_standing (hunit ..) <| ite_standing (hunit ..) <| ite_standing (hunit ..) <| ite_standing hbank <|
    ite_standing (hunit ..) <| ite_standing (hunit ..) <| ite_standing (hunit ..) rfl

@[simp] theorem startAgain_standing (p n : Nat) (s : State) : standing (startAgain p n s) = standing s := by simp [startAgain]

@[simp] theorem laneClockOut_standing (s : State) : standing (laneClockOut s) = standing s :=
  foldl_standing _ _ _ fun _ _ => ite_standing (by simp) rfl

@[simp] theorem t2Action_standing (t : TamperIn) (s : State) : standing (t2Action t s) = standing s := by
  unfold t2Action
  (repeat' split) <;> simp

@[simp] theorem startInput_standing (t : TamperIn) (s : State) : standing (startInput t s) = standing s := by
  unfold startInput
  split
  · rfl
  · exact ite_standing ((startRespond_standing (fun _ _ _ => event_standing ..) (fun _ => rfl) _ _ _ _).trans rfl)
      ((startRespond_standing (fun _ _ _ => event_standing ..) (t2Action_standing t) _ _ _ _).trans rfl)

@[simp] theorem readSensors_standing (attacks : List (Sensor × Nat)) (s : State) : standing (readSensors attacks s) = standing s := by
  have hpolicy : standing (if policyDamaged s then event 0x0702 0 s else s) = standing s := ite_standing (event_standing ..) rfl
  exact (foldl_standing _ _ _ fun _ _ => startInput_standing ..).trans
    (ite_standing ((startInput_standing ..).trans ((event_standing ..).trans hpolicy)) hpolicy)

@[simp] theorem epochEvents_standing (s : State) : standing (epochEvents s) = standing s := by
  unfold epochEvents
  dsimp only
  (repeat' split) <;> simp

@[simp] theorem recordSplits_standing (fs : List (Nat × Nat)) (s : State) : standing (recordSplits fs s) = standing s :=
  foldl_standing _ _ _ fun _ _ => ite_standing ((startInput_standing ..).trans (event_standing ..)) (event_standing ..)

@[simp] theorem noteCap_standing (c : CapResult) (s : State) : standing (noteCap c s) = standing s := by simp only [noteCap, standing]

@[simp] theorem startCap_standing (cap : CapReading) (s : State) : standing (startCap cap s) = standing s := by
  unfold startCap
  dsimp only
  split
  · exact (eventX_standing ..).trans rfl
  · rfl

@[simp] theorem setSlot_standing (b : Bool) (st : FwState) (chk : Nat) (s : State) : standing (setSlot b st chk s) = standing s := by
  cases b <;> rfl

@[simp] theorem judgeSlot_standing (b : Bool) (s : State) : standing (judgeSlot b s).2 = standing s := by
  unfold judgeSlot
  split <;> simp

@[simp] theorem setBootSel_standing (b : BootSel) (s : State) : standing (setBootSel b s) = standing s := by simp only [setBootSel, standing]

@[simp] theorem damageSel_standing (s : State) (d : Damage) : standing (damageSel s d) = standing s := by
  unfold damageSel
  split <;> rfl

@[simp] theorem raiseMpValid_standing (s : State) : standing (raiseMpValid s) = standing s := by simp only [raiseMpValid, standing]

@[simp] theorem writeMeterPage_standing (p : Nat) (s : State) : standing (writeMeterPage p s) = standing s := by
  simp only [writeMeterPage, standing]

@[simp] theorem tornMeterPage_standing (p : Nat) (words : List Nat) (s : State) : standing (tornMeterPage p words s) = standing s :=
  (eventX_standing ..).trans rfl

@[simp] theorem setGate_standing (g : Nat) (es : Tab GEntry) (s : State) : standing (setGate g es s) = standing s := by
  simp only [setGate, standing]

@[simp] theorem applyProtection_standing (level hide : Nat) (s : State) : standing (applyProtection level hide s) = standing s := by
  simp only [applyProtection, setGate, standing]

@[simp] theorem loadMeter_standing (ds : List Damage) (s : State) : standing (loadMeter ds s) = standing s := by
  refine (applyProtection_standing ..).trans ((foldl_standing _ _ _ fun t d => ?_).trans rfl)
  split
  · exact ite_standing (tornMeterPage_standing ..) rfl
  · rfl

@[simp] theorem damageCtl_standing (s : State) (d : Damage) : standing (damageCtl s d) = standing s := by
  unfold damageCtl
  split <;> rfl

@[simp] theorem startPeriods_standing (s : State) : standing (startPeriods s) = standing s := by simp only [startPeriods, standing]

@[simp] theorem initJournal_standing (s : State) : standing (initJournal s) = standing s := by simp only [initJournal, standing]

@[simp] theorem scanJournal_standing (s : State) : standing (scanJournal s) = standing s := ite_standing ((eventX_standing ..).trans rfl) rfl

@[simp] theorem seqEvents_standing (s : State) : standing (seqEvents s) = standing s :=
  (ite_standing (event_standing ..) rfl).trans (ite_standing (event_standing ..) rfl)

@[simp] theorem recoverJournal_standing (ds : List Damage) (s0 : State) : standing (recoverJournal ds s0) = standing s0 := by
  have hscanned : standing (if firstJournal s0 then initJournal s0 else scanJournal s0) = standing s0 :=
    ite_standing (initJournal_standing s0) (scanJournal_standing s0)
  exact (seqEvents_standing _).trans (ite_standing ((event_standing ..).trans hscanned) hscanned)

@[simp] theorem startDomains_standing (s : State) : standing (startDomains s) = standing s := by simp only [startDomains, standing]

@[simp] theorem testFails_standing (unit index : Nat) (s : State) : standing (testFails unit index s) = standing s := by simp [testFails]

@[simp] theorem seedLane_standing (n : Nat) (s : State) : standing (seedLane n s) = standing s := by simp [seedLane]

@[simp] theorem fillSlots_standing (pass : List Nat) (s : State) : standing (fillSlots pass s) = standing s := by
  unfold fillSlots
  split
  · refine foldl_standing _ _ _ fun t p => ?_
    split <;> simp
  · rfl

@[simp] theorem startLanes_standing (lanes : BitVec 8) (s : State) : standing (startLanes lanes s) = standing s :=
  (fillSlots_standing ..).trans (foldl_standing _ _ _ fun _ _ => ite_standing rfl (by simp))

@[simp] theorem startBankInput_standing (b : Nat) (s : State) : standing (startBankInput b s) = standing s := by simp [startBankInput]

@[simp] theorem healthFails_standing (b : Nat) (streams : BitVec 32) (prop : Bool) (s : State) :
    standing (healthFails b streams prop s) = standing s :=
  (foldl_standing _ _ _ fun _ _ => ite_standing (event_standing ..) rfl).trans (modBank_standing ..)

@[simp] theorem startBank_standing (b : Nat) (s : State) : standing (startBank b s) = standing s := by simp [startBank]

@[simp] theorem bankServes_standing (b : Nat) (s : State) : standing (bankServes b s) = standing s := by simp only [bankServes, drew, standing]

@[simp] theorem startNoise_standing (b : Nat) (f : BankFact) (s : State) : standing (startNoise b f s) = standing s := by
  have hbegun : standing (f.fails.foldl (fun t x => startBankInput b (healthFails b x.1 x.2 t)) (startBank b s)) = standing s :=
    (foldl_standing _ _ _ fun _ _ => by simp).trans (startBank_standing ..)
  exact ite_standing (by simp [hbegun]) (ite_standing (by simp [hbegun]) (by simp [hbegun]))

@[simp] theorem startUnits_standing (f : StartFacts) (s : State) : standing (startUnits f s) = standing s := by
  have hnote : ∀ (bad : Bool) (unit i : Nat) (t : State), standing (if bad then testFails unit i t else t) = standing t :=
    fun _ _ _ _ => ite_standing (testFails_standing ..) rfl
  simp only [startUnits, hnote]
  rfl

@[simp] theorem startFailed_standing (fs : List (Nat × Nat)) (s : State) : standing (startFailed fs s) = standing s := by
  unfold startFailed
  simp [foldl_standing]

@[simp] theorem startTests_standing (f : StartFacts) (s : State) : standing (startTests f s) = standing s := by simp [startTests]

@[simp] theorem failDram_standing (f : StartFacts) (s : State) : standing (failDram f s) = standing s :=
  ite_standing (unitFails_standing ..) (foldl_standing _ _ _ fun _ _ => unitFails_standing ..)

@[simp] theorem setGen_standing (i g : Nat) (s : State) : standing (setGen i g s) = standing s := by simp only [setGen, standing]

@[simp] theorem invalidateDomain_standing (t : State) (i : Nat) : standing (invalidateDomain t i) = standing t := by simp [invalidateDomain]

@[simp] theorem writeOneHeld_standing (t : State) (e : Nat × Nat × Bytes) : standing (writeOneHeld t e) = standing t := by
  unfold writeOneHeld
  split <;> simp

@[simp] theorem writeHeld_standing (s : State) : standing (writeHeld s) = standing s :=
  (foldl_standing _ _ _ fun _ _ => writeOneHeld_standing ..).trans rfl

@[simp] theorem discardSeeds_standing (s : State) : standing (discardSeeds s) = standing s :=
  foldl_standing _ _ _ fun _ _ => ite_standing ((eventX_standing ..).trans (modDraw_standing ..)) rfl

@[simp] theorem recoverDraws_standing (s : State) : standing (recoverDraws s) = standing s := (discardSeeds_standing _).trans rfl

@[simp] theorem voidDraw_standing (d : Draw) (reason : Nat) (s : State) : standing (voidDraw d reason s) = standing s := by simp [voidDraw]

@[simp] theorem voidOrphaned_standing (s : State) : standing (voidOrphaned s) = standing s :=
  foldl_standing _ _ _ fun _ _ => ite_standing (voidDraw_standing ..) rfl

@[simp] theorem startDraws_standing (s : State) : standing (startDraws s) = standing s := by
  unfold startDraws
  dsimp only
  (repeat' split) <;> simp

@[simp] theorem writeDeviceKeys_standing (s : State) : standing (writeDeviceKeys s) = standing s := ite_standing (journalEntry_standing ..) rfl

@[simp] theorem endStart_standing (flags prev : Nat) (s : State) : standing (endStart flags prev s) = standing s :=
  (standing_withNv ..).trans (by simp)

@[simp] theorem startGates_standing (s : State) : standing (startGates s) = standing s := by simp only [startGates, standing]

@[simp] theorem restage_standing (s : State) : standing (restage s) = standing s := by
  unfold restage
  exact (foldl_standing _ _ _ fun _ _ => standing_withJrn ..).trans (standing_withJrn ..)

@[simp] theorem reportCounts_standing (ds : List Damage) (s : State) : standing (reportCounts ds s) = standing s :=
  foldl_standing _ _ _ fun t d => by
    dsimp only
    split <;> rfl

@[simp] theorem reportSplit_standing {α : Type} (record i : Nat) (p : AB α) (s : State) : standing (reportSplit record i p s) = standing s :=
  (standing_withJrn ..).trans ((drew_standing _).trans ((startInput_standing ..).trans (event_standing ..)))

@[simp] theorem resolveRecords_standing (s : State) : standing (resolveRecords s) = standing s := by
  have hreported : ∀ (l m : List Nat) (t : State), standing (m.foldl (fun t i => reportSplit 0 i (tgetD s.nv.keyRecs i ⟨.blank, .blank⟩) t)
      (l.foldl (fun t i => reportSplit 1 i (tgetD s.nv.genRecs i ⟨.blank, .blank⟩) t) t)) = standing t := fun _ _ _ =>
    (foldl_standing _ _ _ fun _ _ => reportSplit_standing ..).trans (foldl_standing _ _ _ fun _ _ => reportSplit_standing ..)
  exact ite_standing ((unitFails_standing ..).trans (hreported ..)) (hreported ..)

@[simp] theorem useTestRoot_standing (s : State) : standing (useTestRoot s) = standing s := by simp only [useTestRoot, standing]

@[simp] theorem useRoot_standing (k : Nat) (s : State) : standing (useRoot k s) = standing s := by simp only [useRoot, standing]

@[simp] theorem burnRoot_standing (k : Nat) (s : State) : standing (burnRoot k s) = standing s := by
  unfold burnRoot
  refine (burn_standing _ _ _).trans ?_
  refine (foldl_standing _ _ _ fun t x => burn_standing _ _ _).trans ?_
  exact takeBlocks_standing 4 s

@[simp] theorem readRoot_standing (s : State) : standing (readRoot s) = standing s := by
  unfold readRoot
  (repeat' split) <;> simp

@[simp] theorem damageKeys_standing (s : State) (d : Damage) : standing (damageKeys s d) = standing s := by
  unfold damageKeys
  split <;> simp only [modDraw, standing]

@[simp] theorem redoInvalidate_standing (s : State) (e : Entry) : standing (redoInvalidate s e) = standing s := by
  unfold redoInvalidate
  dsimp only
  (repeat' split) <;> simp

@[simp] theorem unsealKeys_standing (ds : List Damage) (s : State) : standing (unsealKeys ds s) = standing s := by
  unfold unsealKeys
  simp [foldl_standing]

end Sys2Proof.Starting
end

section
/-! # Where a start and a start in SCRAP end (O11) -/
namespace Sys2Proof.Starting
open Sys2Proof Sys2Proof.Machine Sys2Proof.Told

section
variable {s : State}

/-! The steps that move what stands. -/

theorem settle_standing (s0 s : State) : standing (settle s0 s) = standing s := by simp only [settle, standing]

theorem beginStart_standing (temp : Nat) (s : State) :
    standing (beginStart temp s) = { standing s with phase := .started, everStarted := true, standby := false } := by
  simp only [beginStart, standing]

theorem restoreClocks_standing (s : State) :
    ∃ o p, standing (restoreClocks s) = { standing s with opsec := o, pwrCyc := p }
      ∧ ((standing s).pd00Lost = false → o = (standing s).opsec ∧ p = (standing s).pwrCyc) := by
  unfold restoreClocks
  split
  case isTrue h => exact ⟨ctrVal s 3, ctrVal s 2, rfl, fun hkept => absurd (h.symm.trans hkept) (by decide)⟩
  case isFalse => exact ⟨s.opsec, s.pwrCyc, rfl, fun _ => ⟨rfl, rfl⟩⟩

/-- The power-cycle counter after a start with a given reason (R61). -/
def cycleAfter (reason : StartReason) (n : Nat) : Nat := if reason = .nreset then n else (n + 1) % 2 ^ 32

theorem nextCycle_standing (s : State) :
    ∃ m, standing (nextCycle s)
      = { standing s with pwrCyc := cycleAfter (standing s).reason (standing s).pwrCyc, mode := m } := by
  unfold nextCycle
  split
  case isTrue h => exact ⟨s.boot.mode, by simp only [standing, cycleAfter, h, if_true]⟩
  case isFalse h =>
    refine ⟨({} : Boot).mode, (setCtr_standing ..).trans ?_⟩
    simp only [standing, cycleAfter, h, if_false]

theorem startCounters_standing (ds : List Damage) (s : State) :
    ∃ o p m, standing (startCounters ds s) = { standing s with opsec := o, pwrCyc := p, mode := m }
      ∧ ((standing s).pd00Lost = false →
        o = (standing s).opsec ∧ p = cycleAfter (standing s).reason (standing s).pwrCyc) := by
  have hread : standing (resolveCounters (ds.foldl damageCounter (firstCounters s))) = standing s :=
    (resolveCounters_standing _).trans ((foldl_standing _ _ _ fun _ _ => damageCounter_standing ..).trans (firstCounters_standing s))
  obtain ⟨o, p, hclocks, hkept⟩ := restoreClocks_standing (resolveCounters (ds.foldl damageCounter (firstCounters s)))
  obtain ⟨m, hcycle⟩ := nextCycle_standing (restoreClocks (resolveCounters (ds.foldl damageCounter (firstCounters s))))
  rw [hread] at hclocks hkept
  rw [hclocks] at hcycle
  refine ⟨o, cycleAfter (standing s).reason p, m, (nextEpoch_standing _).trans hcycle, fun h => ?_⟩
  obtain ⟨ho, hp⟩ := hkept h
  exact ⟨ho, by rw [hp]⟩

theorem runImage_standing (b : Bool) (m : FwMode) (s : State) : standing (runImage b m s) = { standing s with mode := m } :=
  (setSlot_standing ..).trans (by simp only [standing])

theorem enterRecovery_standing (s : State) : standing (enterRecovery s) = { standing s with mode := .recovery } :=
  (event_standing ..).trans (by simp only [standing])

theorem selectActive_standing (s : State) : ∃ m, standing (selectActive s) = { standing s with mode := m } := by
  unfold selectActive
  dsimp only
  split
  · exact ⟨.normal, by rw [runImage_standing, judgeSlot_standing]⟩
  · split
    · exact ⟨.fallback, by rw [setBootSel_standing, runImage_standing, event_standing, judgeSlot_standing, judgeSlot_standing]⟩
    · exact ⟨.recovery, by rw [enterRecovery_standing, judgeSlot_standing, judgeSlot_standing]⟩

theorem selectImage_standing (s : State) : ∃ m, standing (selectImage s) = { standing s with mode := m } := by
  unfold selectImage
  dsimp only
  split
  · exact selectActive_standing s
  · next p _ =>
    split
    · obtain ⟨m, h⟩ := selectActive_standing (event 0x0801 (b2n p) (setBootSel { bootSel s with pend := none, trial := false } s))
      exact ⟨m, by rw [h, event_standing, setBootSel_standing]⟩
    · split
      · exact ⟨.trial, by rw [runImage_standing, judgeSlot_standing, setBootSel_standing]⟩
      · obtain ⟨m, h⟩ := selectActive_standing (judgeSlot p (setBootSel { bootSel s with trial := true } s)).2
        exact ⟨m, by rw [h, judgeSlot_standing, setBootSel_standing]⟩

/-! Steps 1 to 8, and the whole start. -/

/-- What stands once the image is selected, by the clocks and the mode. -/
def booted (s : State) (o p : Nat) (m : FwMode) : Standing :=
  { standing s with
    phase := .started, everStarted := true, standby := false, pd00Lost := false, opsec := o, pwrCyc := p, mode := m }

/-- The clocks of a cycle that carries on from the one before: they are PD00's, unless it had lost them (R47, R61). -/
def ClocksCarryOn (s : State) (o p : Nat) : Prop :=
  s.pwr.pd00Lost = false → o = s.opsec ∧ p = cycleAfter s.pwr.reason s.pwrCyc

theorem bootSteps_standing (f : StartFacts) (s : State) :
    ∃ o p m, standing (bootSteps f s) = booted s o p m ∧ ClocksCarryOn s o p := by
  unfold bootSteps
  extract_lets ds s0 nv0 s1 s2 s3 s4 s5 pwr5 s6
  have h0 : standing s0 = { standing s with phase := .started, everStarted := true, standby := false } :=
    (foldl_standing _ _ _ fun _ _ => damageFlush_standing ..).trans (beginStart_standing ..)
  have h1 : standing s1 = standing s0 := by
    show standing (wipeIfProvision (decodeOtp _)) = _
    rw [wipeIfProvision_standing, decodeOtp_standing, standing_withNv]
  obtain ⟨o, p, m, h2, hclocks⟩ := startCounters_standing ds { s1 with diag := AB.value s1.nv.diag {} }
  have h3 : standing s3 = standing s2 := by
    show standing (recordHeld (tornEvent ds (areaScan ds s2) (readLatch (recoverEvents ds s2)))) = _
    simp
  have h5 : standing s5 = standing s2 := by
    show standing (epochEvents (recordSplits (startSplits ds s1) (readSensors f.attacks s3))) = _
    rw [epochEvents_standing, recordSplits_standing, readSensors_standing, h3]
  have h6 : standing s6 = { standing s5 with pd00Lost := false } := (startCap_standing ..).trans (by simp only [standing, pwr5])
  obtain ⟨m', hsel⟩ := selectImage_standing (ds.foldl damageSel (raiseMpValid (loadMeter ds s6)))
  have hloaded : standing (ds.foldl damageSel (raiseMpValid (loadMeter ds s6))) = standing s6 :=
    (foldl_standing _ _ _ fun _ _ => damageSel_standing ..).trans ((raiseMpValid_standing _).trans (loadMeter_standing ..))
  have hdiag : standing { s1 with diag := AB.value s1.nv.diag {} } = standing s1 := by simp only [standing]
  have hs2 : standing s2 = { standing s with
      phase := .started, everStarted := true, standby := false, opsec := o, pwrCyc := p, mode := m } := by
    rw [show standing s2 = _ from h2, hdiag, h1, h0]
  refine ⟨o, p, m', ?_, ?_⟩
  · rw [hsel, hloaded, h6, h5, hs2]
    rfl
  · rw [hdiag, h1, h0] at hclocks
    exact hclocks

theorem endRecovery_standing (flags prev : Nat) (s : State) :
    standing (endRecovery flags prev s) = { standing s with phase := .recovery } := by
  have hentry := journalEntry_standing 0x02 false (startBody flags prev s) s
  rw [← hentry]
  simp only [endRecovery, standing]

theorem fwRuns_iff (s : State) : fwRuns s = true ↔ (standing s).mode ≠ .recovery := by simp [fwRuns, standing]

theorem standing_withLink (s : State) : standing { s with link := { s.link with enabled := true } } = { standing s with enabled := true } := by
  simp only [standing]

theorem standing_withTestRoot (s : State) (b : Bool) : standing { s with keys := { s.keys with testRoot := b } } = standing s := by
  simp only [standing]

/-- A start ends as `booted` has it, with the links enabled: before mailbox ready when an image runs, and otherwise in recovery mode. -/
theorem startSteps_standing (f : StartFacts) (s : State) :
    ∃ o p m, ClocksCarryOn s o p ∧ (f.dram = false → m = .recovery)
      ∧ standing (startSteps f s)
        = { booted s o p m with enabled := true, phase := if m = .recovery then .recovery else .started } := by
  obtain ⟨o, p, m, hboot, hclocks⟩ := bootSteps_standing f s
  unfold startSteps
  extract_lets ds b link0 c first s1 prev flags keys1 s2
  have hc : standing c = { booted s o p m with enabled := true } :=
    (foldl_standing _ _ _ fun _ _ => damageCtl_standing ..).trans ((standing_withLink b).trans (by rw [hboot]))
  have h1 : standing s1 = { booted s o p m with enabled := true } :=
    (startPeriods_standing _).trans ((recoverJournal_standing ..).trans hc)
  have hmode : (standing s1).mode = m := by rw [h1]; rfl
  split
  case isTrue hruns =>
    have hm : m = .recovery := by
      rw [← hmode]
      by_contra hne
      simp [(fwRuns_iff s1).mpr hne] at hruns
    refine ⟨o, p, m, hclocks, fun _ => hm, ?_⟩
    rw [endRecovery_standing, startDomains_standing, standing_withTestRoot, h1, if_pos hm]
  case isFalse hruns =>
    have hm : m ≠ .recovery := by
      rw [← hmode]
      exact (fwRuns_iff s1).mp (by simpa using hruns)
    have h2 : standing s2 = standing s1 := startTests_standing f s1
    split
    case isTrue =>
      refine ⟨o, p, .recovery, hclocks, fun _ => rfl, ?_⟩
      rw [endRecovery_standing, startDomains_standing, enterRecovery_standing, failDram_standing, standing_withTestRoot, h2, h1]
      rfl
    case isFalse hdram =>
      refine ⟨o, p, m, hclocks, fun hoff => absurd (by simp [dramFails, hoff]) hdram, ?_⟩
      rw [endStart_standing, startGates_standing, startDomains_standing, restage_standing, unsealKeys_standing, engineKeys_standing, h2, h1,
        if_neg hm]
      rfl

theorem start_ends (f : StartFacts) (hdue : s.pwr.phase = .startDue) (hscrap : otpScrap s = false) :
    To (.start f) s fun t =>
      (t.pwr.phase = .started ∨ t.pwr.phase = .recovery) ∧ (t.pwr.phase = .recovery ↔ t.boot.mode = .recovery)
        ∧ (f.dram = false → t.pwr.phase = .recovery) ∧ t.pwr.everStarted = true ∧ t.pwr.standby = false ∧ t.link.enabled = true
        ∧ (s.pwr.pd00Lost = false →
            t.opsec = s.opsec ∧ t.pwrCyc = (if s.pwr.reason = .nreset then s.pwrCyc else (s.pwrCyc + 1) % 2 ^ 32)) := by
  have hexec : exec (.start f) s = .next (settle s (startSteps f s)) := by
    show execStart f s = _
    simp only [execStart, hdue, hscrap, Bool.false_eq_true, if_false]
  obtain ⟨o, p, m, hclocks, hdram, hend⟩ := startSteps_standing f s
  generalize startSteps f s = u at hexec hend
  refine to_of_eq hexec ?_
  have hstands : standing (settle s u) = _ := (settle_standing s u).trans hend
  generalize settle s u = t at hstands
  have hphase : t.pwr.phase = if m = .recovery then Phase.recovery else .started := congrArg Standing.phase hstands
  have hm : t.boot.mode = m := congrArg Standing.mode hstands
  refine ⟨?_, ?_, fun h => ?_, congrArg Standing.everStarted hstands, congrArg Standing.standby hstands, congrArg Standing.enabled hstands,
    fun h => ?_⟩
  · rw [hphase]
    split
    · exact .inr rfl
    · exact .inl rfl
  · rw [hphase, hm]
    split <;> simp_all
  · rw [hphase, if_pos (hdram h)]
  · obtain ⟨ho, hp⟩ := hclocks h
    exact ⟨(congrArg Standing.opsec hstands).trans ho, (congrArg Standing.pwrCyc hstands).trans hp⟩

/-! The start in SCRAP. -/

/-- The start-up test of the capacitor touches the power block and the event record. -/
theorem startCap_only (cap : CapReading) (s : State) :
    startCap cap s = { s with
      pwr := (startCap cap s).pwr, ev := (startCap cap s).ev, pmon := (startCap cap s).pmon, free := (startCap cap s).free } := by
  unfold startCap
  dsimp only
  split
  · rw [eventX_only]
    rfl
  · rfl

/-- Looking up a table that lists a function's values and leaves out zeros gives the function where it lists it. -/
theorem tgetD_listed (f : Nat → BitVec 64) (l : List Nat) (w : Nat) :
    tgetD ((l.map fun k => (k, f k)).filter fun e => e.2 ≠ 0) w 0 = if w ∈ l then f w else 0 := by
  induction l with
  | nil => rfl
  | cons k l ih =>
    by_cases hzero : f k = 0
    · rw [List.map_cons, List.filter_cons_of_neg (by simpa using hzero), ih]
      by_cases hk : w = k
      · simp [hk, hzero]
      · simp [hk]
    · rw [List.map_cons, List.filter_cons_of_pos (by simpa using hzero)]
      by_cases hk : w = k
      · simp [hk, tgetD, tget]
      · simpa [hk, tgetD, tget] using ih

theorem tgetD_scrapOtp (otp : Tab (BitVec 64)) {w : Nat} (hw : w < 256) :
    tgetD (scrapOtp otp) w 0 = if scrapKeeps w then tgetD otp w 0 else BitVec.allOnes 64 := by
  unfold scrapOtp
  rw [tgetD_listed fun w => if scrapKeeps w then tgetD otp w 0 else BitVec.allOnes 64, if_pos (List.mem_range.mpr hw)]

theorem tgetD_burn_ne {w k : Nat} (v : BitVec 64) (h : w ≠ k) (s : State) : tgetD (burn k v s).otp w 0 = tgetD s.otp w 0 :=
  tgetD_tset_ne _ _ _ h

/-- Completing burns touches the words of the state groups and of the flags alone. -/
theorem completeBurns_word {w : Nat} (hstate : ∀ g ∈ stateGroups, w ≠ g.1) (hflag : ∀ g ∈ flagGroups, w ≠ g.1) (s : State) :
    tgetD (completeBurns s).otp w 0 = tgetD s.otp w 0 := by
  unfold completeBurns
  refine List.foldlRecOn (motive := fun t : State => tgetD t.otp w 0 = tgetD s.otp w 0) _ _
    (List.foldlRecOn (motive := fun t : State => tgetD t.otp w 0 = tgetD s.otp w 0) _ _ rfl fun t ht g hg => ?_) fun t ht g hg => ?_
  · split
    · exact (tgetD_burn_ne _ (hstate g hg) t).trans ht
    · exact ht
  · split
    · exact (tgetD_burn_ne _ (hflag g hg) t).trans ht
    · exact ht

theorem scrapSteps_otp (cap : CapReading) (s : State) :
    (scrapSteps cap s).otp = scrapOtp (completeBurns (beginStart s.pwr.tempNow s)).otp := by
  simp only [scrapSteps, startCap_otp]

theorem scrapStart_ends (cap : CapReading) (hdue : s.pwr.phase = .startDue) (hscrap : otpScrap s = true) :
    To (.scrapStart cap) s fun t =>
      t.pwr.phase = .scrap ∧ t.lc = .scrap ∧ t.nv = {} ∧ t.dram = [] ∧ t.link.enabled = true
        ∧ (∀ w, w < 256 → scrapKeeps w = false → tgetD t.otp w 0 = BitVec.allOnes 64)
        ∧ (∀ w, w < 256 → scrapKeeps w = true → w ≠ 96 → w ≠ 97 → tgetD t.otp w 0 = tgetD s.otp w 0)
        ∧ t.opsec = s.opsec ∧ t.pwrCyc = s.pwrCyc := by
  have hexec : exec (.scrapStart cap) s = .next (settle s (scrapSteps cap s)) := by
    show execScrapStart cap s = _
    simp only [execScrapStart, hdue, hscrap, if_true]
  have hburnt : standing (completeBurns (beginStart s.pwr.tempNow s)) = _ := (completeBurns_standing _).trans (beginStart_standing ..)
  have hclocks : (scrapSteps cap s).opsec = s.opsec ∧ (scrapSteps cap s).pwrCyc = s.pwrCyc := by
    unfold scrapSteps
    dsimp only
    rw [startCap_only]
    exact ⟨congrArg Standing.opsec hburnt, congrArg Standing.pwrCyc hburnt⟩
  have hwiped : (scrapSteps cap s).lc = .scrap ∧ (scrapSteps cap s).nv = {} ∧ (scrapSteps cap s).dram = [] := by
    unfold scrapSteps
    dsimp only
    rw [startCap_only]
    exact ⟨rfl, rfl, rfl⟩
  obtain ⟨hlc, hnv, hdram⟩ := hwiped
  refine to_of_eq hexec ⟨rfl, (settle_lc ..).trans hlc, (settle_nv ..).trans hnv, (settle_dram ..).trans hdram,
    congrArg Standing.enabled (settle_standing s (scrapSteps cap s)), fun w hw hkeep => ?_, fun w hw hkeep h96 h97 => ?_,
    (settle_opsec ..).trans hclocks.1, (settle_pwrCyc ..).trans hclocks.2⟩
  · rw [settle_otp, scrapSteps_otp, tgetD_scrapOtp _ hw, hkeep, if_neg Bool.false_ne_true]
  · have h98 : w ≠ 98 := by
      rintro rfl
      exact absurd hkeep (by decide)
    rw [settle_otp, scrapSteps_otp, tgetD_scrapOtp _ hw, if_pos hkeep,
      completeBurns_word (by simp [stateGroups, h96, h97]) (by simp [flagGroups, h98]), beginStart_otp]

end

/-- Settles O11: each step of a start keeps what stands (`standing`), but for those that begin it, carry the clocks on, select the image and
end it; the start in SCRAP is read off its one definition. -/
theorem startsEndWhereTheyShould : Obligations.StartsEndWhereTheyShould :=
  ⟨fun facts _ hdue hscrap => start_ends facts hdue hscrap, fun cap _ hdue hscrap => scrapStart_ends cap hdue hscrap⟩

end Sys2Proof.Starting
end
